-- ==== Sys2Proof/Word.lean ====
section
/-! DEFINITION. The word and byte types of the machine (spec 00 R4-R5, 13 R269). -/

namespace Sys2Proof

/-- A 64-bit register value (R252, "Width"). -/
abbrev Word := BitVec 64

/-- One byte of storage. -/
abbrev Byte := BitVec 8

end Sys2Proof
end

