-- ==== Sys2Proof/Syntax.lean ====
section
/-! DEFINITION. The abstract syntax: one constructor of `Instr` for each row of spec/opcode_table.json. Rows with an
encoding carry the operand fields of their format class (R247-R249); the predicate and the `.pulse` bit, which every
predicated class shares (R253, R309), are decoded beside the instruction as its `Guard`. Rows without an encoding are
the acts of the host, the engines, the scheduler, the links and the sensors, and carry what that agent supplies. -/

namespace Sys2Proof

/-- What guards an instruction of the G, M, E, L and V classes: PRED, NEG and PULSE (R247, R253). A class without one of
these fields leaves it zero, and so always executes and never pulses. -/
structure Guard where
  pred : BitVec 4 := 0
  neg : Bool := false
  pulse : Bool := false
  deriving DecidableEq, Repr

/-- Q class, 32 bits (Table 12.2), without LEN, MAJOR and FUNC. -/
structure QFields where
  dst : BitVec 4
  a : BitVec 4
  alast : Bool
  b : BitVec 4
  blast : Bool
  imm : BitVec 6
  deriving DecidableEq, Repr

/-- J class, 32 bits (Table 12.3). -/
structure JFields where
  pred : BitVec 4
  imm : BitVec 20
  deriving DecidableEq, Repr

/-- G class, 64 bits (Table 12.4), without FUNC and the guard. -/
structure GFields where
  dst : BitVec 8
  a : BitVec 8
  b : BitVec 8
  lu : Bool
  imm : BitVec 18
  deriving DecidableEq, Repr

/-- M class, 64 bits (Table 12.5), without the guard. -/
structure MFields where
  reg : BitVec 8
  base : BitVec 8
  aux : BitVec 8
  width : BitVec 2
  sign : Bool
  acq : Bool
  rel : Bool
  scope : BitVec 3
  off : BitVec 18
  deriving DecidableEq, Repr

/-- E class, 64 bits (Table 12.6), without FUNC and the guard. -/
structure EFields where
  dst : BitVec 8
  a : BitVec 8
  b : BitVec 8
  opt : BitVec 6
  n12 : BitVec 12
  deriving DecidableEq, Repr

/-- L class, 96 bits (Table 12.7): a G-class instruction with a 32-bit literal. -/
structure LFields where
  dst : BitVec 8
  a : BitVec 8
  b : BitVec 8
  lu : Bool
  imm : BitVec 18
  lit : BitVec 32
  deriving DecidableEq, Repr

/-- V class, 96 bits (Table 12.8), without FUNC and the guard. -/
structure VFields where
  ty : BitVec 4
  rs : BitVec 2
  rd : BitVec 24
  ra : BitVec 24
  rb : BitVec 24
  deriving DecidableEq, Repr

/-- The fields of an Irrath flit, but for its CRC (Table 2.10). -/
structure Flit where
  type : BitVec 4
  vc : Bool
  credit : BitVec 8
  seq : BitVec 12
  ackseq : BitVec 12
  spec : BitVec 24
  payload : List (BitVec 8)
  deriving DecidableEq, Repr

/-- One flit time at a receiver (R33, R34): the bytes each receive wavelength brought, its beats in slot order, and the
symbols in error in the Reed-Solomon codeword of each wavelength that had any. -/
structure Received where
  lanes : List (Nat × List (BitVec 8))
  errors : List (Nat × Nat)
  deriving DecidableEq, Repr

/-- A real number that need not be whole, `num / den`: heater codes, or kelvin (R31). -/
structure Ratio where
  num : Int
  den : Nat
  deriving DecidableEq, Repr

/-- One sensor refresh: the sensors of Table 1.7, the input power averaged over 10 ms that the throttle ladder uses
(R14), the die temperature under each port (Table 2.9), and the COOLANT_OK pin (R12). -/
structure Readings where
  die : List (BitVec 16)
  towerCurrent : List (BitVec 16)
  site : List (BitVec 16)
  siteCurrent : List (BitVec 16)
  power : BitVec 16
  average : Nat
  tsens : List (BitVec 16)
  coolant : Bool
  deriving DecidableEq, Repr

/-- The transmit queue of a port as PORT_IDLE_PARK and PORT_WAKE_TRIGGER find it: how many flits deep, and for how many
nanoseconds no deeper (R37). -/
structure TransmitQueue where
  port : Nat
  depth : Nat
  idle : Nat := 0
  deriving DecidableEq, Repr

/-- A change of temperature at a port: the kelvin each of some rings stands above the self-test's temperature, and the
reading of TSENS (R394). -/
structure RingChange where
  rise : List (Nat × Ratio)
  tsens : BitVec 16
  deriving DecidableEq, Repr

/-- A write of a queue's QCTL (Table 3.3). -/
structure QctlWrite where
  queue : Nat
  value : BitVec 32
  deriving DecidableEq, Repr

/-- What the self-test finds (R12, R19, R31, R69, Table 2.2): live cores, live bank units, spare SRAM rows of each bank
that differs from `spares`, the heater code of rings by 32·port + ring, and by 2·port + side (1 receive) the H_need that
the working rings of a side share at the temperature of the test. -/
structure SelfTest where
  liveCores : BitVec 128
  bamap : List (BitVec 64)
  spares : Nat
  sparesOf : List (Nat × Nat)
  heaters : List (Nat × BitVec 12)
  need : List (Nat × Ratio)
  deriving DecidableEq, Repr

/-- What one other member of a group contributes to a collective operation: its position in ring order, its 64-byte
command, its source bytes (for FORM, its member table), and its uniform table (R40-R44). -/
structure Contribution where
  member : Nat
  command : List (BitVec 8)
  data : List (BitVec 8)
  uniforms : List (BitVec 8)
  deriving DecidableEq, Repr

/-- Where the host's IOMMU sends a page of I/O virtual addresses: host memory, whose completer performs AtomicOps or
answers them with Unsupported Request or Completer Abort (R302); the PF's own BAR0 at a port window group; or nowhere, the
platform refusing the request (R393). -/
inductive HostTarget where
  | memory (atomics : Bool)
  | bar0 (window : Nat)
  | refused
  deriving DecidableEq, Repr

/-- A register with no behaviour of its own (row REGISTER_WRITE): of a context page, through the PF or the VF view; of a
port window; MODID; a route-table entry; the recovery window; the PF's BAR2 size, as its base-2 logarithm (R50). -/
inductive RegTarget where
  | context (ctx : Nat) (pf : Bool) (offset : Nat)
  | port (port offset : Nat)
  | modid (pf : Bool)
  | route (id : Nat)
  | recovery (offset : Nat)
  | bar2Size
  deriving DecidableEq, Repr

/-- The rows of the opcode table: first the encoded rows that carry operands, then those that carry none, then the
events, each group in the order of the table. -/
inductive Instr where
  /-- ADD_Q R270: q DST := a + b. -/
  | addQ (f : QFields)
  /-- SUB_Q R270: q DST := a − b. -/
  | subQ (f : QFields)
  /-- AND_Q R270: Bitwise AND of q registers. -/
  | andQ (f : QFields)
  /-- OR_Q R270: Bitwise OR of q registers. -/
  | orQ (f : QFields)
  /-- XOR_Q R270: Bitwise XOR of q registers. -/
  | xorQ (f : QFields)
  /-- ANDN_Q R270: a AND NOT b. -/
  | andnQ (f : QFields)
  /-- SHL_Q R270: Left shift by b[5:0]. -/
  | shlQ (f : QFields)
  /-- SHR_Q R270: Logical right shift by b[5:0]. -/
  | shrQ (f : QFields)
  /-- SRA_Q R270: Arithmetic right shift by b[5:0]. -/
  | sraQ (f : QFields)
  /-- MIN_Q R270: Signed minimum. -/
  | minQ (f : QFields)
  /-- MAX_Q R270: Signed maximum. -/
  | maxQ (f : QFields)
  /-- MINU_Q R270: Unsigned minimum. -/
  | minuQ (f : QFields)
  /-- MAXU_Q R270: Unsigned maximum. -/
  | maxuQ (f : QFields)
  /-- MUL_Q R270: Low 64 bits of a · b. -/
  | mulQ (f : QFields)
  /-- MOV_Q R270: q DST := a. -/
  | movQ (f : QFields)
  /-- ADDI_Q R271: q DST := a + sign-extended IMM6. -/
  | addiQ (f : QFields)
  /-- ANDI_Q R271: AND with sign-extended IMM6. -/
  | andiQ (f : QFields)
  /-- ORI_Q R271: OR with sign-extended IMM6. -/
  | oriQ (f : QFields)
  /-- XORI_Q R271: XOR with sign-extended IMM6. -/
  | xoriQ (f : QFields)
  /-- SHLI_Q R271: Left shift by IMM6. -/
  | shliQ (f : QFields)
  /-- SHRI_Q R271: Logical right shift by IMM6. -/
  | shriQ (f : QFields)
  /-- SRAI_Q R271: Arithmetic right shift by IMM6. -/
  | sraiQ (f : QFields)
  /-- CMPEQ_Q R273: c DST := (a = b). -/
  | cmpeqQ (f : QFields)
  /-- CMPNE_Q R273: c DST := (a ≠ b). -/
  | cmpneQ (f : QFields)
  /-- CMPLT_Q R273: Signed less-than into c DST. -/
  | cmpltQ (f : QFields)
  /-- CMPGE_Q R273: Signed greater-or-equal into c DST. -/
  | cmpgeQ (f : QFields)
  /-- CMPLTU_Q R273: Unsigned less-than into c DST. -/
  | cmpltuQ (f : QFields)
  /-- CMPGEU_Q R273: Unsigned greater-or-equal into c DST. -/
  | cmpgeuQ (f : QFields)
  /-- CMPLE_Q R273: Signed less-or-equal into c DST. -/
  | cmpleQ (f : QFields)
  /-- CMPGT_Q R273: Signed greater-than into c DST. -/
  | cmpgtQ (f : QFields)
  /-- MOVQ R275: q DST := g register IMM6 ∥ BLAST. -/
  | movq (f : QFields)
  /-- MOVG R275: g register IMM6 ∥ BLAST := q A. -/
  | movg (f : QFields)
  /-- PAND R274: c DST := c A AND c B. -/
  | pand (f : QFields)
  /-- POR R274: c DST := c A OR c B. -/
  | por (f : QFields)
  /-- PXOR R274: c DST := c A XOR c B. -/
  | pxor (f : QFields)
  /-- PNOT R274: c DST := NOT c A. -/
  | pnot (f : QFields)
  /-- LI R276: q register := sign-extended IMM20. -/
  | li (f : JFields)
  /-- BR R284: Branch by a word offset when c PRED is true. -/
  | br (f : JFields)
  /-- JMP R284: Unconditional branch by a word offset. -/
  | jmp (f : JFields)
  /-- JAL R285: lr := p + 4 and branch to a function entry. -/
  | jal (f : JFields)
  /-- BRL R290: End a loop pass: advance sr.lpass, recompute the guards and branch back while passes remain. -/
  | brl (f : JFields)
  /-- ADD_G R270: G-form a + b. -/
  | addG (f : GFields)
  /-- SUB_G R270: G-form a − b. -/
  | subG (f : GFields)
  /-- AND_G R270: G-form AND. -/
  | andG (f : GFields)
  /-- OR_G R270: G-form OR. -/
  | orG (f : GFields)
  /-- XOR_G R270: G-form XOR. -/
  | xorG (f : GFields)
  /-- ANDN_G R270: G-form a AND NOT b. -/
  | andnG (f : GFields)
  /-- SHL_G R270: G-form left shift. -/
  | shlG (f : GFields)
  /-- SHR_G R270: G-form logical right shift. -/
  | shrG (f : GFields)
  /-- SRA_G R270: G-form arithmetic right shift. -/
  | sraG (f : GFields)
  /-- MIN_G R270: G-form signed minimum. -/
  | minG (f : GFields)
  /-- MAX_G R270: G-form signed maximum. -/
  | maxG (f : GFields)
  /-- MINU_G R270: G-form unsigned minimum. -/
  | minuG (f : GFields)
  /-- MAXU_G R270: G-form unsigned maximum. -/
  | maxuG (f : GFields)
  /-- MUL_G R270: G-form low product. -/
  | mulG (f : GFields)
  /-- MOV_G R270: G-form move. -/
  | movG (f : GFields)
  /-- MULH_G R270: High 64 bits of the signed product. -/
  | mulhG (f : GFields)
  /-- MULHU_G R270: High 64 bits of the unsigned product. -/
  | mulhuG (f : GFields)
  /-- DIV_G R272: Signed division toward zero; holds issue for 20 cycles. -/
  | divG (f : GFields)
  /-- DIVU_G R272: Unsigned division. -/
  | divuG (f : GFields)
  /-- REM_G R272: Signed remainder. -/
  | remG (f : GFields)
  /-- REMU_G R272: Unsigned remainder. -/
  | remuG (f : GFields)
  /-- ROT_G R270: Rotate left. -/
  | rotG (f : GFields)
  /-- CLZ_G R270: Count leading zeros. -/
  | clzG (f : GFields)
  /-- CTZ_G R270: Count trailing zeros. -/
  | ctzG (f : GFields)
  /-- POPC_G R270: Population count. -/
  | popcG (f : GFields)
  /-- SEXT_G R270: Sign-extend from bit k. -/
  | sextG (f : GFields)
  /-- ZEXT_G R270: Zero-extend above bit k. -/
  | zextG (f : GFields)
  /-- BFX_G R270: Extract a bit field. -/
  | bfxG (f : GFields)
  /-- BFI_G R270: Insert a bit field. -/
  | bfiG (f : GFields)
  /-- SEL_G R270: Select a or b by the destination's old value. -/
  | selG (f : GFields)
  /-- ADDI_G R271: G-form add of IMM18. -/
  | addiG (f : GFields)
  /-- ANDI_G R271: G-form AND with IMM18. -/
  | andiG (f : GFields)
  /-- ORI_G R271: G-form OR with IMM18. -/
  | oriG (f : GFields)
  /-- XORI_G R271: G-form XOR with IMM18. -/
  | xoriG (f : GFields)
  /-- SHLI_G R271: G-form left shift by immediate. -/
  | shliG (f : GFields)
  /-- SHRI_G R271: G-form logical right shift by immediate. -/
  | shriG (f : GFields)
  /-- SRAI_G R271: G-form arithmetic right shift by immediate. -/
  | sraiG (f : GFields)
  /-- ADD_L R271: a + LIT sign-extended. -/
  | addL (f : LFields)
  /-- SUB_L R271: a − LIT. -/
  | subL (f : LFields)
  /-- AND_L R271: a AND LIT. -/
  | andL (f : LFields)
  /-- OR_L R271: a OR LIT. -/
  | orL (f : LFields)
  /-- XOR_L R271: a XOR LIT. -/
  | xorL (f : LFields)
  /-- ANDN_L R271: a AND NOT LIT. -/
  | andnL (f : LFields)
  /-- SHL_L R271: Left shift by LIT[5:0]. -/
  | shlL (f : LFields)
  /-- SHR_L R271: Logical right shift by LIT[5:0]. -/
  | shrL (f : LFields)
  /-- SRA_L R271: Arithmetic right shift by LIT[5:0]. -/
  | sraL (f : LFields)
  /-- MIN_L R271: Signed minimum with LIT. -/
  | minL (f : LFields)
  /-- MAX_L R271: Signed maximum with LIT. -/
  | maxL (f : LFields)
  /-- MINU_L R271: Unsigned minimum with LIT. -/
  | minuL (f : LFields)
  /-- MAXU_L R271: Unsigned maximum with LIT. -/
  | maxuL (f : LFields)
  /-- MUL_L R271: Low product with LIT. -/
  | mulL (f : LFields)
  /-- MULH_L R271: Signed high product with LIT. -/
  | mulhL (f : LFields)
  /-- MULHU_L R271: Unsigned high product with LIT. -/
  | mulhuL (f : LFields)
  /-- DIV_L R272: Signed division by LIT. -/
  | divL (f : LFields)
  /-- DIVU_L R272: Unsigned division by LIT. -/
  | divuL (f : LFields)
  /-- REM_L R272: Signed remainder by LIT. -/
  | remL (f : LFields)
  /-- REMU_L R272: Unsigned remainder by LIT. -/
  | remuL (f : LFields)
  /-- ROT_L R271: Rotate left by LIT[5:0]. -/
  | rotL (f : LFields)
  /-- SEXT_L R271: Sign-extend from bit LIT[5:0]. -/
  | sextL (f : LFields)
  /-- ZEXT_L R271: Zero-extend above bit LIT[5:0]. -/
  | zextL (f : LFields)
  /-- SEL_L R271: Select a or LIT by the destination's old value. -/
  | selL (f : LFields)
  /-- CMPEQ_G R273: G.CMP equality, register or IMM18 form. -/
  | cmpeqG (f : GFields) (immForm : Bool)
  /-- CMPNE_G R273: G.CMP inequality. -/
  | cmpneG (f : GFields) (immForm : Bool)
  /-- CMPLT_G R273: G.CMP signed less-than. -/
  | cmpltG (f : GFields) (immForm : Bool)
  /-- CMPGE_G R273: G.CMP signed greater-or-equal. -/
  | cmpgeG (f : GFields) (immForm : Bool)
  /-- CMPLTU_G R273: G.CMP unsigned less-than. -/
  | cmpltuG (f : GFields) (immForm : Bool)
  /-- CMPGEU_G R273: G.CMP unsigned greater-or-equal. -/
  | cmpgeuG (f : GFields) (immForm : Bool)
  /-- CMPLE_G R273: G.CMP signed less-or-equal. -/
  | cmpleG (f : GFields) (immForm : Bool)
  /-- CMPGT_G R273: G.CMP signed greater-than. -/
  | cmpgtG (f : GFields) (immForm : Bool)
  /-- FADD R279: Float add, rounded once under sr.rmode. -/
  | fadd (f : GFields)
  /-- FSUB R279: Float subtract. -/
  | fsub (f : GFields)
  /-- FMUL R279: Float multiply. -/
  | fmul (f : GFields)
  /-- FMA R279: Fused a × b + old d. -/
  | fma (f : GFields)
  /-- FMIN R279: Float minimum under R205. -/
  | fmin (f : GFields)
  /-- FMAX R279: Float maximum under R205. -/
  | fmax (f : GFields)
  /-- FSGN R279: a's magnitude with b's sign. -/
  | fsgn (f : GFields)
  /-- FCMP R280: Sets c DST to a float condition. -/
  | fcmp (f : GFields)
  /-- FCVT R281: Converts between scalar types under sr.rmode. -/
  | fcvt (f : GFields)
  /-- FRCP R282: Reciprocal with latency 8, as a pending write-back. -/
  | frcp (f : GFields)
  /-- FRSQ R282: Reciprocal square root with latency 8. -/
  | frsq (f : GFields)
  /-- FRCPS R282: Reciprocal Newton step with latency 4. -/
  | frcps (f : GFields)
  /-- FRSQS R282: Reciprocal-square-root Newton step with latency 4. -/
  | frsqs (f : GFields)
  /-- FEXP2 R282: 2^a with latency 8. -/
  | fexp2 (f : GFields)
  /-- FLOG2 R282: log2 a with latency 8. -/
  | flog2 (f : GFields)
  /-- MFS R293: DST := special register. -/
  | mfs (f : EFields)
  /-- MTS R293: Writes a special register. -/
  | mts (f : EFields)
  /-- MFC R293: DST := control register. -/
  | mfc (f : EFields)
  /-- MTC R293: Writes a control register, checking reserved bits. -/
  | mtc (f : EFields)
  /-- LD R298: Loads 1–8 bytes, sign- or zero-extended. -/
  | ld (f : MFields)
  /-- ST R298: Stores the low 1–8 bytes of a register. -/
  | st (f : MFields)
  /-- LDA R299: Aligned acquire load at a scope. -/
  | lda (f : MFields)
  /-- STL R299: Aligned release store at a scope. -/
  | stl (f : MFields)
  /-- AMOADD R301: Atomic add, integer or f32, returning the old value. -/
  | amoadd (f : MFields)
  /-- AMOAND R301: Atomic AND. -/
  | amoand (f : MFields)
  /-- AMOOR R301: Atomic OR. -/
  | amoor (f : MFields)
  /-- AMOXOR R301: Atomic XOR. -/
  | amoxor (f : MFields)
  /-- AMOMIN R301: Atomic minimum. -/
  | amomin (f : MFields)
  /-- AMOMAX R301: Atomic maximum. -/
  | amomax (f : MFields)
  /-- AMOSWP R301: Atomic swap. -/
  | amoswp (f : MFields)
  /-- AMOCAS R301: Atomic compare-and-swap by bit pattern. -/
  | amocas (f : MFields)
  /-- FENCE R233: Full, acquire or release fence at a scope. -/
  | fence (f : EFields)
  /-- CFLUSH R305: Writes back a code range for fetch at a scope. -/
  | cflush (f : EFields)
  /-- ICINV R305: Drops a range from the core's fetch cache. -/
  | icinv (f : EFields)
  /-- PRF R305: Warms TLB and caches; never faults. -/
  | prf (f : EFields)
  /-- LDP R304: Loads one element of a parameter area. -/
  | ldp (f : EFields)
  /-- STP R304: Stores one element of a parameter area. -/
  | stp (f : EFields)
  /-- JALR R285: Indirect jump or call through a register or lr. -/
  | jalr (f : GFields)
  /-- LOOP R289: Sets up a software-pipelined loop and its stage guards, or skips it for n = 0. -/
  | loop (f : GFields)
  /-- SIGDEF R325: Declares a signal from a core-store image after the checks of R171. -/
  | sigdef (f : EFields)
  /-- SIGDROP R174: Waits for earlier operations on the signal, then undeclares it and unpins its regions. -/
  | sigdrop (f : EFields)
  /-- TAPLD R329: Reads one element of a tap, optionally waiting on the write front. -/
  | tapld (f : EFields)
  /-- TAPST R329: Writes one element of a sample named by lag. -/
  | tapst (f : EFields)
  /-- TAPST_TICK R181: Writes one element of the sample current at a given tick. -/
  | tapstTick (f : EFields)
  /-- SIGHEAD R330: Returns head, write front and now. -/
  | sighead (f : EFields)
  /-- SIGRST R174: Restarts a signal in place at sample 0. -/
  | sigrst (f : EFields)
  /-- SIGSEAL R331: Seals the oldest unsealed block of a deep signal. -/
  | sigseal (f : EFields)
  /-- SIGEVICT R192: Clears a sample's survivor bit. -/
  | sigevict (f : EFields)
  /-- SIGPOS R193: Maps a sample number to its block, slot and stored and survivor bits. -/
  | sigpos (f : EFields)
  /-- SCTX R328: Switches the core's current stream context. -/
  | sctx (f : EFields)
  /-- PUSH R307: Offers a 64-byte command to an engine queue and returns its timeline number or a full predicate. -/
  | push (f : EFields)
  /-- WAIT R308: Stalls until a timeline reaches a value, then acquires. -/
  | wait (f : EFields)
  /-- TLREAD R308: Reads a timeline and acquires what it covers. -/
  | tlread (f : EFields)
  /-- FORK R310: Starts the idle streams named in the mask. -/
  | fork (f : EFields)
  /-- RDV R311: Ends a forked stream, or in cc waits for the named streams to be idle. -/
  | rdv (f : EFields)
  /-- EVSET R312: Sets or adds to an event counter. -/
  | evset (f : EFields)
  /-- EVPULSE R312: Pulses an EVPULSE line once earlier accesses are visible. -/
  | evpulse (f : EFields)
  /-- WFE R143: Waits for a gate and consumes its term's pulses. -/
  | wfe (f : EFields)
  /-- SBIND R313: Pushes a FEED command that binds a stream register. -/
  | sbind (f : EFields)
  /-- SPAWN R315: Submits a continuation record to the context's store. -/
  | spawn (f : EFields)
  /-- JOIN R316: Decrements the JOIN of a WAITING record, or sets its refused predicate. -/
  | join (f : EFields)
  /-- JOIN_BATCH R122: Takes a batch entry's combine JOIN and sets DONE atomically. -/
  | joinBatch (f : EFields)
  /-- GBAR R318: Barrier across the slice's cc streams. -/
  | gbar (f : EFields)
  /-- BUDGET R319: In handler mode, extends the origin slice's budget once. -/
  | budget (f : EFields)
  /-- EQPUSH R379: Sends a token entry to a Geyser queue, faulting or setting a predicate on refusal. -/
  | eqpush (f : EFields)
  /-- EQCFG R380: Sends a queue configuration block and returns its status. -/
  | eqcfg (f : EFields)
  /-- EQFIRE R380: Requests a forced firing of a queue. -/
  | eqfire (f : EFields)
  /-- EQPOP R380: Pops entries into a software buffer without creating a record. -/
  | eqpop (f : EFields)
  /-- EQSTAT R381: Returns a queue's status word. -/
  | eqstat (f : EFields)
  /-- GFSTEP R374: Sends a grammar step of a slot by a token. -/
  | gfstep (f : EFields)
  /-- GFSTEP_SET R374: Sends a grammar set of a slot's state. -/
  | gfstepSet (f : EFields)
  /-- GFMASK R374: Sends a grammar mask expansion into core store. -/
  | gfmask (f : EFields)
  /-- RPLY R376: Posts a token-ring entry. -/
  | rply (f : EFields)
  /-- RPLY_TAKE R376: Takes the oldest grammar entry from the reply queue. -/
  | rplyTake (f : EFields)
  /-- EMBLD R375: Waits for a sequence's reply entry and fetches the token's embedding row. -/
  | embld (f : EFields)
  /-- VRANDK R377: Sets the uniform generator's KEY and CTR. -/
  | vrandk (f : EFields)
  /-- TLD R360: Loads a tile by address or tensor identifier, with conversions. -/
  | tld (f : EFields)
  /-- TST R360: Stores a tile. -/
  | tst (f : EFields)
  /-- MMA R363: Accumulates a tile product into an accumulator. -/
  | mma (f : EFields)
  /-- MMAZ R363: Zeroes an accumulator and accumulates a product. -/
  | mmaz (f : EFields)
  /-- SCLD R367: Loads S10 entries into scale memory. -/
  | scld (f : EFields)
  /-- NESTGO R370: Checks the state, captures the nest table and epilogue, and starts a nest. -/
  | nestgo (f : EFields)
  /-- ACCMOV R365: Writes an accumulator to memory in a chosen mode. -/
  | accmov (f : EFields)
  /-- ACCZ R364: Zeroes an accumulator and sets its mode. -/
  | accz (f : EFields)
  /-- TIDSET R368: Checks and writes a tensor-identifier entry. -/
  | tidset (f : EFields)
  /-- TIDINV R368: Drops cached tensor identifiers. -/
  | tidinv (f : EFields)
  /-- TRAP R320: Raises stopping event 0x10 with scope slice. -/
  | trap (f : EFields)
  /-- BKPT R320: Raises stopping event 0x12 for the driver. -/
  | bkpt (f : EFields)
  /-- TLBINV R320: Removes the context's translations of a range across the module. -/
  | tlbinv (f : EFields)
  /-- LIW R276: Loads a 50-bit sign-extended constant. -/
  | liw (f : LFields)
  /-- JMPL R284: Long branch or call by a 32-bit word offset. -/
  | jmpl (f : LFields)
  /-- VSHAPE R334: Writes region offsets, strides, count and sweep length. -/
  | vshape (f : LFields)
  /-- FLI R277: Loads an f32 literal converted to a float type. -/
  | fli (f : LFields)
  /-- VADD R338: Element-wise a + b. -/
  | vadd (f : VFields)
  /-- VSUB R338: Element-wise a − b. -/
  | vsub (f : VFields)
  /-- VMUL R338: Element-wise a × b. -/
  | vmul (f : VFields)
  /-- VFMA R338: Element-wise fused a × b + d. -/
  | vfma (f : VFields)
  /-- VMAC R338: Element-wise integer d + a × b. -/
  | vmac (f : VFields)
  /-- VMIN R338: Element-wise minimum. -/
  | vmin (f : VFields)
  /-- VMAX R338: Element-wise maximum. -/
  | vmax (f : VFields)
  /-- VABS R338: Element-wise absolute value. -/
  | vabs (f : VFields)
  /-- VNEG R338: Element-wise negation. -/
  | vneg (f : VFields)
  /-- VAND R338: Element-wise AND. -/
  | vand (f : VFields)
  /-- VOR R338: Element-wise OR. -/
  | vor (f : VFields)
  /-- VXOR R338: Element-wise XOR. -/
  | vxor (f : VFields)
  /-- VSHL R338: Element-wise left shift. -/
  | vshl (f : VFields)
  /-- VSHR R338: Element-wise logical right shift with rounding. -/
  | vshr (f : VFields)
  /-- VSRA R338: Element-wise arithmetic right shift with rounding. -/
  | vsra (f : VFields)
  /-- VCVT R339: Element-wise type conversion. -/
  | vcvt (f : VFields)
  /-- VSEL R338: Element-wise select by the old d. -/
  | vsel (f : VFields)
  /-- VCMP R340: Element-wise compare to an all-ones mask. -/
  | vcmp (f : VFields)
  /-- VRCP R341: Element-wise reciprocal. -/
  | vrcp (f : VFields)
  /-- VRSQ R341: Element-wise reciprocal square root. -/
  | vrsq (f : VFields)
  /-- VEXP R341: Element-wise 2^a. -/
  | vexp (f : VFields)
  /-- VLOG R341: Element-wise log2 a. -/
  | vlog (f : VFields)
  /-- VTANH R341: Element-wise tanh. -/
  | vtanh (f : VFields)
  /-- VSUM R343: Sum reduction in the fixed order of R213. -/
  | vsum (f : VFields)
  /-- VMAXR R343: Maximum reduction. -/
  | vmaxr (f : VFields)
  /-- VDRAW R346: Draws one index from a region of logits. -/
  | vdraw (f : VFields)
  /-- VDRAWM R348: Folds draw triples by the merge rule. -/
  | vdrawm (f : VFields)
  /-- VSCAN R345: Inclusive prefix sum. -/
  | vscan (f : VFields)
  /-- VPOPC R343: Counts nonzero elements. -/
  | vpopc (f : VFields)
  /-- VDOT R344: Dot product, plain or sweeping over samples. -/
  | vdot (f : VFields)
  /-- VRAND R349: Writes N uniforms from the keyed generator. -/
  | vrand (f : VFields)
  /-- VCOPY R350: Copies a region. -/
  | vcopy (f : VFields)
  /-- VFILL R350: Fills a region with a register value. -/
  | vfill (f : VFields)
  /-- VGATHER R350: Gathers elements by index. -/
  | vgather (f : VFields)
  /-- VSCATTER R350: Scatters elements by index. -/
  | vscatter (f : VFields)
  /-- VPERM R351: Permutes within 64-element groups by control bytes. -/
  | vperm (f : VFields)
  /-- VEXPAND R352: Copies convolution windows into a planar buffer. -/
  | vexpand (f : VFields)
  /-- VFIR R353: FIR over a sweep of samples with coefficients. -/
  | vfir (f : VFields)
  /-- CSPUSH R355: Appends elements with true conditions to a conditional stream. -/
  | cspush (f : VFields)
  /-- CSPOP R355: Pops records into elements with true conditions. -/
  | cspop (f : VFields)
  /-- CSROUTE R355: Moves whole lane sets of records from a conditional stream. -/
  | csroute (f : VFields)
  /-- NOP R292: Issues and does nothing else. -/
  | nop
  /-- MARK R232: Orders every earlier access before every later one of the stream. -/
  | mark
  /-- FBAR R305: Discards the stream's already-fetched instructions. -/
  | fbar
  /-- TICK R176: Drains signal operations, advances now and the heads at the tick point, and releases. -/
  | tick
  /-- YIELD R107: Ends the slice with a checkpoint so it can compete again. -/
  | yield
  /-- DONE R317: Ends the slice on this core; the record ends when every core has done so. -/
  | done
  /-- ERET R164: Ends the handler with the origin frame's ACTION. -/
  | eret
  /-- POWER_INPUT_APPLIED R11: 48 V input appears; step 0 rails (VDD_AUX) come up and the management controller starts. -/
  | powerInputApplied
  /-- COOLANT_OK_ASSERTED R11: The COOLANT_OK pin is asserted, which starts rail sequencing beyond step 0. -/
  | coolantOkAsserted
  /-- RAIL_SEQUENCE_STEP R11: Once the previous step's rails are within ±3 % and at least 1 ms has passed, the next rail step comes up, or the rails go down in reverse order. -/
  | railSequenceStep (up : Bool)
  /-- SELF_TEST_DONE R12: Self-test finishes, fills CAPACITY, sets MODSTAT.READY and lets PCIe link training complete. -/
  | selfTestDone (t : SelfTest)
  /-- PERST_RELEASE R12: The host releases PCIe fundamental reset. -/
  | perstRelease
  /-- RAIL_FAULT R12: A rail stays outside its window for more than 20 µs; every rail except VDD_AUX switches off and the event is logged. -/
  | railFault (row : Nat)
  /-- THROTTLE_UP R15: A higher throttle trigger holds; within 2 µs the level and clock change and the change is logged. -/
  | throttleUp
  /-- THROTTLE_DOWN R15: The die has stayed 5 °C below the threshold, or power below 95 % of the limit, for 100 ms; the level drops. -/
  | throttleDown
  /-- THERMAL_TRIP R16: Die ≥ 120 °C or COOLANT_OK lost: every partition halts with THERMAL_TRIP, in-flight operations fail and the rails go down. -/
  | thermalTrip
  /-- HBM_SITE_HOT R17: An HBM site crosses 85 °C: its refresh doubles, suppressed rings resume refresh and HBM_HOT follows. -/
  | hbmSiteHot (site : Nat)
  /-- HBM_THERMAL_RETIREMENT R17: A site has been at 95 °C or above for more than 1 s; firmware may begin retiring its hottest banks. -/
  | hbmThermalRetirement (site unit : Nat)
  /-- SENSOR_REFRESH R25: The 1 ms sensor refresh updates all temperatures, currents and input power. -/
  | sensorRefresh (r : Readings)
  /-- BOOT_ROM_CHECK R27: At cold reset the boot ROM checks the firmware image's signature and CRC before running it. -/
  | bootRomCheck
  /-- READ_SENSORS R23: Mailbox command 0x01 returns all sensors. -/
  | readSensors
  /-- READ_MODSTAT R23: Mailbox command 0x02 returns MODSTAT. -/
  | readModstat
  /-- READ_CAPACITY R23: Mailbox command 0x03 returns CAPACITY and the live-core mask. -/
  | readCapacity
  /-- SET_POWER_LIMIT R23: Mailbox command 0x10 sets the power limit between 2000 W and 3400 W, or is refused with status 0x03. -/
  | setPowerLimit (args : List (BitVec 8))
  /-- FW_STAGE R24: Mailbox command 0x20 writes a 240-byte chunk into the staging buffer after checking length and offset. -/
  | fwStage (args : List (BitVec 8))
  /-- FW_ACTIVATE R24: Mailbox command 0x21 checks staging, CRC and signature, then starts writing the staged image to flash. -/
  | fwActivate (args : List (BitVec 8))
  /-- FLASH_WRITE_DONE R24: The flash write started by FW_ACTIVATE or the recovery window ends; status 0x00 or DONE is reported. -/
  | flashWriteDone
  /-- EVENT_LOG R26: Mailbox command 0x30 returns and removes up to 16 log entries, led by an entries-lost entry if needed. -/
  | eventLog
  /-- MAILBOX_UNKNOWN_COMMAND R22: A mailbox request with an unknown command code is answered with status 0x01. -/
  | mailboxUnknownCommand (code : BitVec 8)
  /-- MAILBOX_RESPONSE_READ R22: The host reads the response, which frees the mailbox for a new request. -/
  | mailboxResponseRead
  /-- RECOVERY_STAGE R28: RCMD CMD = 1 stages RDATA at ROFS, or fails with ERR 0x06 on a bad offset. -/
  | recoveryStage
  /-- RECOVERY_STAGE_DONE R28: A recovery-window staging operation completes and BUSY clears. -/
  | recoveryStageDone
  /-- RECOVERY_COMMIT R28: RCMD CMD = 2 runs the FW_ACTIVATE checks and writes the image to flash, or sets FAIL. -/
  | recoveryCommit
  /-- PATROL_SCRUB R88: The patrol scrubber reads all of HBM once every 24 h, correcting errors and poisoning uncorrectable granules. -/
  | patrolScrub (corrected : List Nat) (uncorrectable : List Nat)
  /-- REMAP_REQUEST R93: Firmware presents a bank-unit retirement in RMREQ, sets REMAP_BUSY and raises the module event vector. -/
  | remapRequest (reason site unit : Nat)
  /-- RMCTL_WRITE R93: The driver confirms migration by writing the request's SEQ; any other value is ignored. -/
  | rmctlWrite (pf : Bool) (value : BitVec 32)
  /-- REMAP_PUBLISH R93: Firmware clears the unit's BAMAP bit and lowers HBM_GIB in a new epoch, clears PEND and REMAP_BUSY, and evaluates R21. -/
  | remapPublish
  /-- CORE_FENCE R20: A core marked for fencing takes no new slice and is fenced after its slice ends, and CORES_LIVE drops in a new epoch. -/
  | coreFence (core : Nat)
  /-- HTR_WRITE R31: A heater code written to HTR[k] takes effect at once, unless the ring is waking, and PDM follows within 1 µs. -/
  | htrWrite (port ring : Nat) (value : BitVec 32)
  /-- LMAP_WRITE R30: A write to LMAP_TX or LMAP_RX is refused with MAPERR, or moves each changed wavelength by a park and a wake. -/
  | lmapWrite (port : Nat) (rx : Bool) (value : BitVec 32)
  /-- PARK_WRITE R37: A write to PARK sets DROP bits or changes EN, and the stripe is recomputed. -/
  | parkWrite (port : Nat) (value : BitVec 32)
  /-- PORT_IDLE_PARK R37: The transmit queue has stayed at or below PARK_DEPTH for IDLE_US, so the upper half of the lanes parks. -/
  | portIdlePark (queue : TransmitQueue)
  /-- PORT_WAKE_TRIGGER R39: The transmit queue reaches WAKE_DEPTH, or a map change occurs; heaters are restored and the wake phases begin. -/
  | portWakeTrigger (queue : TransmitQueue)
  /-- WAKE_LOCK_END R395: A waking ring's lock phase ends; it is locked with HTR at d = 0, or it stays parked with its saved code. -/
  | wakeLockEnd (port ring : Nat)
  /-- WAKE_COMPLETE R39: Deskew ends and a MARKER announces the new stripe of the ready lanes. -/
  | wakeComplete (port : Nat)
  /-- MARKER_RECEIVED R38: The receiver takes a MARKER and switches to the new stripe from the next flit. -/
  | markerReceived (port : Nat) (r : Received)
  /-- RING_LOCK_LOSS R38: A receive ring loses lock, or is remapped, and the receiver sends LANE_PAUSE. -/
  | ringLockLoss (port lane : Nat)
  /-- LANE_PAUSE R38: A received LANE_PAUSE makes the sender narrow its stripe by a marker within 1 µs. -/
  | lanePause (port : Nat) (r : Received)
  /-- DATA R35: A received flit is accepted in sequence order, or discarded with a NAK on a CRC failure, reserved type or wrong order. -/
  | data (port : Nat) (r : Received)
  /-- ACK R35: A received ACK frees acknowledged flits held for replay. -/
  | ack (port : Nat) (r : Received)
  /-- NAK R35: A received NAK makes the sender replay go-back-N from the named sequence number. -/
  | nak (port : Nat) (r : Received)
  /-- PORT_DOWN_TIMEOUT R40: A port on a path between group members has been down for more than 1 ms; the group's operations end with LINK_FAILED. -/
  | portDownTimeout (port : Nat)
  /-- WITHDRAW R45: A received WITHDRAW completes the group's outstanding operations with PEER_WITHDRAWN and marks the group dead. -/
  | withdraw (ctx group module context : Nat)
  /-- FORM R40: Collective command 0x01 checks the member table and forms the group when every member has issued an identical FORM. -/
  | form (ctx tower : Nat) (peers : List Contribution)
  /-- FORM_TIMEOUT R40: 100 ms pass without a matching FORM from every member; the FORM completes with FORM_TIMEOUT. -/
  | formTimeout (ctx tower : Nat)
  /-- ALLREDUCE R43: Collective command 0x02 sums elements in ring order and gives every member the result. -/
  | allreduce (ctx tower : Nat) (peers : List Contribution)
  /-- ALLGATHER R43: Collective command 0x03 concatenates the members' sources in ring order. -/
  | allgather (ctx tower : Nat) (peers : List Contribution)
  /-- REDSCATTER R43: Collective command 0x04 reduces and leaves slice j of the sums at member j. -/
  | redscatter (ctx tower : Nat) (peers : List Contribution)
  /-- ALLTOALL R43: Collective command 0x05 sends slice j of each member's source to member j. -/
  | alltoall (ctx tower : Nat) (peers : List Contribution)
  /-- DRAWMERGE R44: Collective command 0x06 folds rows of draw triples in ring order with member 0's T, s and uniforms. -/
  | drawmerge (ctx tower : Nat) (peers : List Contribution)
  /-- COLLECTIVE_BAD_OP R42: A collective command with a reserved OP completes with BAD_OP. -/
  | collectiveBadOp (ctx tower : Nat)
  /-- COLLECTIVE_COMPLETE R46: A collective operation ends; its completion word or item record is written and tl.col advances. -/
  | collectiveComplete (ctx tower : Nat)
  /-- FUNCTION_LEVEL_RESET R51: An FLR of a VF kills its context: slices and records fail, groups withdraw, rings are disabled and the page resets. -/
  | functionLevelReset (ctx : Nat)
  /-- PF_RESET R51: A reset of the PF kills every context as an FLR does. -/
  | pfReset
  /-- QUEUE_ENABLE R54: QCTL with EN = 1 enables a queue, or is refused for a bad LOG2SIZE; HEAD and A are set to 0. -/
  | queueEnable (ctx queue : Nat) (value : BitVec 32)
  /-- QUEUE_RESUME R63: QCTL.RESUME sets A := HEAD, clears ERR and returns a stopped queue to running. -/
  | queueResume (ctx queue : Nat)
  /-- QUEUE_ABORT R63: QCTL.ABORT completes unstarted packets with ABORTED and then disables the queue. -/
  | queueAbort (ctx queue : Nat)
  /-- QUEUE_DRAIN R63: Clearing QCTL.EN puts the queue into draining until its started packets complete. -/
  | queueDrain (ctx : Nat) (write : QctlWrite)
  /-- KICK R61: A KICK[q] write is checked for ignore, overrun and stamp, then fetches packet TAIL − 1 and checks that it is fresh. -/
  | kick (ctx queue : Nat) (value : BitVec 64)
  /-- KICK_REFETCH R61: 1 µs after a stale answer the device fetches the packet again, up to 8 times, then stops the queue with QUEUE_STALE. -/
  | kickRefetch (ctx queue : Nat)
  /-- PACKET_FETCH_RESPONSE R62: A packet fetched before it runs is checked again for staleness and header validity, and then started. -/
  | packetFetchResponse (ctx queue : Nat)
  /-- LAUNCH R58: Packet 0x01 validates the launch block and creates one continuation record per unit. -/
  | launch (ctx queue number : Nat)
  /-- LAUNCH_UNIT_CREATE R58: A launch waiting for scheduler queue space creates further units as record slots free. -/
  | launchUnitCreate (ctx queue number : Nat)
  /-- COPY R59: Packet 0x02 copies LEN bytes between host and device spaces. -/
  | copy (ctx queue number : Nat)
  /-- TLWAIT R59: Packet 0x03 holds later packets of the queue until the selected timeline reaches VALUE. -/
  | tlwait (ctx queue number : Nat)
  /-- TLWAIT_SATISFIED R60: The selected timeline reaches VALUE; the TLWAIT completes and acquires what the timeline covers. -/
  | tlwaitSatisfied (ctx queue number : Nat)
  /-- TLSIGNAL R59: Packet 0x04 waits for earlier packets, then raises SWT[n] to VALUE as a release. -/
  | tlsignal (ctx queue number : Nat)
  /-- MAPUPDATE R59: Packet 0x05 enters translation markers into the copy queues and invalidates the TLB entries of a range. -/
  | mapupdate (ctx queue number : Nat)
  /-- FENCE_PACKET R59: Packet 0x06 waits for earlier packets and completes when their effects are visible at module or host scope. -/
  | fencePacket (ctx queue number : Nat)
  /-- NOPKT R59: Packet 0x07 completes at once. -/
  | nopkt (ctx queue number : Nat)
  /-- PACKET_COMPLETE R65: A packet completes: the timeline, mirror, completion-ring entry and IRQ are updated. -/
  | packetComplete (ctx queue number : Nat)
  /-- SWT_WRITE R60: A host write sets SWT[n] to the maximum of its value and the value written. -/
  | swtWrite (ctx n : Nat) (value : BitVec 64)
  /-- CRHEAD_WRITE R65: The host advances CRHEAD, which lets waiting completion entries post and held queues fetch again. -/
  | crheadWrite (ctx : Nat) (value : BitVec 32)
  /-- TRHEAD_WRITE R66: The host advances TRHEAD, which frees room for stalled token posts. -/
  | trheadWrite (ctx ring : Nat) (value : BitVec 32)
  /-- ITHEAD_WRITE R166: The host advances ITHEAD, which lets waiting item records post. -/
  | itheadWrite (ctx : Nat) (value : BitVec 32)
  /-- CRCTL_WRITE R53: A CRCTL write enables the completion ring, or is refused for a bad LOG2SIZE. -/
  | crctlWrite (ctx : Nat) (value : BitVec 32)
  /-- TRCTL_WRITE R53: A TRCTL[m] write enables a token ring, or is refused for a bad LOG2SIZE. -/
  | trctlWrite (ctx ring : Nat) (value : BitVec 64)
  /-- ITCTL_WRITE R163: An ITCTL write enables the item ring, or is refused for a bad LOG2SIZE. -/
  | itctlWrite (ctx : Nat) (value : BitVec 32)
  /-- DTCTL_WRITE R163: A DTCTL write enables tracing, or is refused for a bad LOG2SZ. -/
  | dtctlWrite (ctx : Nat) (value : BitVec 32)
  /-- TOKEN_RING_TIMER R67: A token ring's coalescing timer expires; VEC is raised for the pending entries and the count resets. -/
  | tokenRingTimer (ctx ring : Nat)
  /-- FRES_RESUME R164: The driver writes FRES ACTION 0 and every core of the halt's scope resumes. -/
  | fresResume (ctx : Nat)
  /-- FRES_FAIL R164: The driver writes FRES ACTION 1, failing the origin slice while the others resume. -/
  | fresFail (ctx : Nat)
  /-- FRES_SKIP R164: The driver writes FRES ACTION 2, resuming with the origin stream restarted after FAULTPC. -/
  | fresSkip (ctx : Nat)
  /-- FRES_KILL R164: The driver writes FRES ACTION 3, killing the context under R113. -/
  | fresKill (ctx : Nat)
  /-- GFBASE_WRITE R374: A write to GFBASE sets the grammar descriptor table and invalidates the tower's mask cache. -/
  | gfbaseWrite (ctx : Nat) (value : BitVec 64)
  /-- BAR2_READ R50: A host read through the BAR2 window is translated; a failure returns all ones and sets WINFAULT. -/
  | bar2Read (ctx offset bytes : Nat)
  /-- BAR2_WRITE R50: A host write through the BAR2 window is translated; a failure discards it and sets WINFAULT. -/
  | bar2Write (ctx offset : Nat) (data : List (BitVec 8))
  /-- ATS_INVALIDATION R80: A host ATS invalidation removes matching TLB entries and completes after the accesses that used them have performed. -/
  | atsInvalidation (ctx : Nat) (address length : Nat)
  /-- PRI_RESPONSE R80: A Page Request Group response arrives; on Success the context resumes, otherwise entries become HOST_PAGE_FAIL. -/
  | priResponse (ctx : Nat) (success : Bool)
  /-- REGISTER_WRITE R6: A write to a register with no behaviour of its own updates its RW, W1C or W1S fields. -/
  | registerWrite (where_ : RegTarget) (value : BitVec 64)
  /-- WALK_COMPLETE R76: A table walk returns; the waiting accesses translate, or fault under R74. -/
  | walkComplete (core stream : Nat)
  /-- MIGRATE R85: Swap command 0x01 checks the command, then marks, shoots down, markers, copies and installs each page to DEST. -/
  | migrate (ctx tower : Nat)
  /-- EXCHANGE R85: Swap command 0x02 swaps the contents and leaves of two page ranges. -/
  | exchange (ctx tower : Nat)
  /-- PROMOTE R86: Swap command 0x03 installs DEST if the current leaf still equals SRCF, and ends SUPERSEDED otherwise. -/
  | promote (ctx tower : Nat)
  /-- SWAP_BAD_OP R83: A swap command with a reserved OP or bad fields ends SW_BADOP and moves nothing. -/
  | swapBadOp (ctx tower : Nat)
  /-- SWAP_COMPLETE R84: A swap command ends; its completion word is written and tl.sw advances. -/
  | swapComplete (ctx tower : Nat)
  /-- SCHEDULER_ROUND R102: Every 16 cycles the scheduler applies ends and joins, accepts submissions and places records earliest deadline first. -/
  | schedulerRound
  /-- SLICE_START R133: A placed record's cores clear their core-wide state, set g2 and g8, and start fetching at CODE. -/
  | sliceStart (ctx index : Nat)
  /-- CHECKPOINT_COMPLETE R105: A victim's tiles, registers, stop records and copy queue are written to its slots and it becomes CHECKPOINTED. -/
  | checkpointComplete (ctx index : Nat)
  /-- BUCKET_REFILL R104: At every multiple of PERIOD a context's token bucket refills to CAP. -/
  | bucketRefill (ctx : Nat)
  /-- DEADLINE_MISS R108: A record's resolved deadline passes while it is in states 1–5; MISSED is set and MISSES counts. -/
  | deadlineMiss (ctx index : Nat)
  /-- BUDGET_EXHAUSTED R106: USED reaches BUDGET; the slice takes a budget trap, or fails when already extended or with no handler. -/
  | budgetExhausted (ctx index : Nat)
  /-- HANDLER_ALLOWANCE_EXHAUSTED R164: The handler's 65,536-cycle allowance ends; the result is as ACTION 1. -/
  | handlerAllowanceExhausted (ctx : Nat)
  /-- REGION_FIRST_TOUCH R135: A slice first touches a region index; a region is mapped and zeroed, or taken from a checkpointed record, or CS_FULL faults. -/
  | regionFirstTouch (core region : Nat)
  /-- REGION_TRANSFER_DONE R105: A region save to, or restore from, a checkpoint slot completes and the waiting touch proceeds. -/
  | regionTransferDone (core region : Nat)
  /-- GEYSER_ROUND R119: Each 16 cycles Geyser returns killed tokens, applies EQCFG, decides commands, unspills entries and fires ready queues. -/
  | geyserRound (tower : Nat)
  /-- FETCH_LINE R244: A fetched line snapshot is checked against its header; a mismatch raises FETCH_INTEGRITY. -/
  | fetchLine (core stream : Nat)
  /-- LOAD_DATA_RETURN R300: An outstanding load's data returns and writes its destination register. -/
  | loadDataReturn (core stream : Nat)
  /-- WRITEBACK_LAND R162: An exposed-latency result lands in its destination L issues after its instruction. -/
  | writebackLand (core stream : Nat)
  /-- COPY_CMD R139: Copy command 0x01 reaches the queue head, is checked and starts copying LEN bytes. -/
  | copyCmd (core number : Nat)
  /-- TILE_CMD R139: Copy command 0x02 moves a tile, possibly transposed or skewed. -/
  | tileCmd (core number : Nat)
  /-- FILL_CMD R139: Copy command 0x03 repeats FILLV over LEN bytes. -/
  | fillCmd (core number : Nat)
  /-- FEED_CMD R141: Copy command 0x04 streams LEN bytes into stream register DSEL as elements. -/
  | feedCmd (core number : Nat)
  /-- COPY_CMD_COMPLETE R140: A copy command completes with OK, CP_BADOP or CP_POISON; tl.ce advances and pulse and items follow. -/
  | copyCmdComplete (core number : Nat)
  /-- GRAMMAR_STEP R374: The grammar engine executes a step command, advancing the slot's state by a token. -/
  | grammarStep (tower : Nat)
  /-- GRAMMAR_MASK R374: The grammar engine executes a mask command, writing the state's allowed-token mask to core store. -/
  | grammarMask (tower : Nat)
  /-- GRAMMAR_SET R374: The grammar engine executes a set command, writing the slot state and clearing DEAD. -/
  | grammarSet (tower : Nat)
  /-- NEST_DRAIN R371: A nest drains an accumulator tile through the epilogue and delivers pass, top-k or draw results. -/
  | nestDrain (core engine : Nat)
  /-- NEST_COMPLETE R370: A nest's last drain is delivered; its tl.meN number completes and its pulse is emitted. -/
  | nestComplete (core engine : Nat)
  /-- DEEP_BLOCK_READ_DONE R189: A deep-signal block read through the copy engine returns and the stalled tap continues. -/
  | deepBlockReadDone (core stream : Nat)
  /-- HALT_QUIESCENCE R160: Every core of a halt's scope is quiescent with its frame written; the handler starts, or FSTAT is set and FVEC raised. -/
  | haltQuiescence (ctx : Nat)
  /-- TRACE_SYNC R168: Every 65,536 cycles a core writes a SYNC trace entry. -/
  | traceSync (core : Nat)
  /-- TIMELINE_WAIT_RELEASE R308: The counter that a WAIT waits on reaches its value; the WAIT completes and acquires. -/
  | timelineWaitRelease (core stream : Nat)
  /-- GATE_WAIT_RELEASE R143: A gate opens for a waiting WFE, which subtracts its term's thresholds. -/
  | gateWaitRelease (core stream : Nat)
  /-- FRONT_WAIT_RELEASE R182: A signal's write front passes the sample named by a front-wait read, which then proceeds. -/
  | frontWaitRelease (core stream : Nat)
  /-- POWER_INPUT_LOST R24: Input power is removed and VDD_AUX falls, losing the staging buffer and interrupting any flash write in progress. -/
  | powerInputLost
  /-- UNCORRECTABLE R89: An uncorrectable error arises in an architectural register, tile or accumulator and halts the partition with reason UNCORRECTABLE. -/
  | uncorrectable (core stream : Nat)
  /-- RING_LOCK_CHANGE R31: Die-temperature drift, or a heater change once settled, moves a ring into or out of its ±8-code lock window, changing LSTAT.LOCK and the usable wavelengths, so the stripe is re-formed. -/
  | ringLockChange (port : Nat) (change : RingChange)
  /-- SEALED_BLOCK_WRITE_DONE R188: A block seal write reaches HBM, its STAMP is set and the waiting SIGSEAL or TICK proceeds. -/
  | sealedBlockWriteDone (core stream : Nat)
  /-- VECTOR_UNMASK R67: The host unmasks an MSI-X vector, and the pending interrupt for entries already counted is delivered. -/
  | vectorUnmask (function vector : Nat)
  /-- PCTL_WRITE R37: A write to PCTL changes the parking thresholds or AUTO, and clearing AUTO wakes at once every parked wavelength whose EN bit is set. -/
  | pctlWrite (port : Nat) (value : BitVec 32)
  /-- SRAM_ROW_SPARING R20: A core-store row, or a spare row that fails the test engine, is replaced from the spares, and SRAM_SPARE_MIN and R21 are updated. -/
  | sramRowSparing (core bank : Nat)
  /-- ATS_TRANSLATION_COMPLETION R80: The host's ATS completion for a tier-2 page arrives: the access proceeds with the translation, or a PRI Page Request is sent and the partition halts with HOST_PAGE. -/
  | atsTranslationCompletion (ctx page : Nat) (target : Option HostTarget)  deriving DecidableEq, Repr

end Sys2Proof
end

