-- ==== Sys2Proof/Machine/Forms.lean ====
section
/-! DEFINITION. Which words are instructions: the fields that must be zero and the reserved codes (ILLEGAL_INSTR), and
the register and region fields an instruction accepts (ILLEGAL_OPERAND), instruction by instruction (R247-R257 and the
operand tables 12.9, 14.4, 15.1, 15.3, 15.4, 16.1, 16.4, 16.5). -/

namespace Sys2Proof.Machine

/-! ### Register specifiers (Table 12.12) -/

/-- Specifier of g0-g127. -/
def isG (r : BitVec 8) : Bool := r.toNat < 0x80
/-- Specifier of q0-q15. -/
def isQ (r : BitVec 8) : Bool := 0x80 ≤ r.toNat && r.toNat < 0x90
/-- Specifier of c0-c15. -/
def isC (r : BitVec 8) : Bool := 0x90 ≤ r.toNat && r.toNat < 0xA0
/-- Specifier of d0-d7. -/
def isD (r : BitVec 8) : Bool := 0xA0 ≤ r.toNat && r.toNat < 0xA8
/-- A g or q register. -/
def isGQ (r : BitVec 8) : Bool := r.toNat < 0x90
/-- Any source: g, q, c or d. -/
def isSrc (r : BitVec 8) : Bool := r.toNat < 0xA8
/-- Any destination: g, q or c; a d register is a source only (R269). -/
def isDst (r : BitVec 8) : Bool := r.toNat < 0xA0
/-- A predicate destination, c1-c15. -/
def isPredDst (r : BitVec 8) : Bool := 0x91 ≤ r.toNat && r.toNat < 0xA0
/-- c1-c15, or 0x00 for none. -/
def isPredDstOrNone (r : BitVec 8) : Bool := r == 0 || isPredDst r
/-- The first of a run of g registers, at most g(`last`). -/
def isRun (last : Nat) (r : BitVec 8) : Bool := r.toNat ≤ last

/-! ### Region fields (Table 12.13) -/

/-- The kind of a region field. -/
def regionKind (r : BitVec 24) : Nat := r.toNat % 4
/-- The specifier of a kind-3 region field. -/
def regionSpec (r : BitVec 24) : BitVec 8 := BitVec.ofNat 8 (r.toNat / 4)
/-- The offset register of a kind-2 region field. -/
def regionOfs (r : BitVec 24) : BitVec 8 := BitVec.ofNat 8 (r.toNat / 64)
/-- No spare bit set, and its registers named from the file the kind needs (R256). -/
def regionLegal (r : BitVec 24) : Bool :=
  match regionKind r with
  | 0 => true
  | 1 => r.toNat < 2 ^ 16
  | 2 => r.toNat < 2 ^ 14 && isGQ (regionOfs r)
  | _ => r.toNat < 2 ^ 10 && (isGQ (regionSpec r) || isD (regionSpec r))
/-- The encoding of an operand that is not used (R256). -/
def regionUnused (r : BitVec 24) : Bool := r == 3
/-- A tap, direct or indirect. -/
def regionTap (r : BitVec 24) : Bool := regionLegal r && regionKind r < 2
/-- A parameter area. -/
def regionArea (r : BitVec 24) : Bool := regionLegal r && regionKind r == 2
/-- A g or q register. -/
def regionGQ (r : BitVec 24) : Bool := regionLegal r && regionKind r == 3 && isGQ (regionSpec r)
/-- The destination of an element-wise member: a tap or a parameter area (R335). -/
def regionDst (r : BitVec 24) : Bool := regionLegal r && regionKind r < 3
/-- The destination of a reduction (R342). -/
def regionRed (r : BitVec 24) : Bool := regionDst r || regionGQ r
/-- Index or control elements: a parameter area or a d register (R350). -/
def regionIndex (r : BitVec 24) : Bool :=
  regionArea r || (regionLegal r && regionKind r == 3 && isD (regionSpec r))
/-- The destination of a triple: g0-g126 or a parameter area (R347). -/
def regionTriple (r : BitVec 24) : Bool :=
  regionArea r || (regionLegal r && regionKind r == 3 && (regionSpec r).toNat ≤ 126)
/-- The source-type selector of VCVT (R339). -/
def regionType (r : BitVec 24) : Bool :=
  r.toNat % 4 == 3 && 0xF0 ≤ r.toNat / 4 && r.toNat / 4 ≤ 0xFA

/-! ### Fields that must be zero -/

/-- Fields DST, A, B and OPT6 all zero. -/
def bareE (f : EFields) : Bool := f.dst == 0 && f.a == 0 && f.b == 0 && f.opt == 0

/-- N12 names a signal: [11:10] zero (R324). -/
def signalE (f : EFields) : Bool := f.n12.toNat < 1024

/-- Scalar float types f16, b16, f32, f64 with nothing above the type field (R278). -/
def floatForm (imm : BitVec 18) : Bool := imm.toNat < 4
/-- Special-function types f16, b16, f32 (R282). -/
def sfuForm (imm : BitVec 18) : Bool := imm.toNat < 3
/-- An FCVT pair: codes 0-9, at least one of the two a float (R281). -/
def fcvtForm (imm : BitVec 18) : Bool :=
  let s := imm.toNat % 16
  let t := imm.toNat / 16
  let int := fun c => 4 ≤ c && c ≤ 7
  s < 10 && t < 10 && !(int s && int t)
/-- Position and width of BFX and BFI: p + w at most 64 (R270). -/
def bitFieldForm (imm : BitVec 18) : Bool :=
  imm.toNat < 4096 && imm.toNat % 64 + imm.toNat / 64 + 1 ≤ 64
/-- An immediate shift amount of the G form: bits [17:6] zero. -/
def shiftForm (imm : BitVec 18) : Bool := imm.toNat < 64
/-- The AMO bits of OFF18 (R301): member `k`, type, [17:4] zero; width 4 or 8, an f32 only for the members that allow
it and at 4 bytes (R257). -/
def amoForm (k : Nat) (f32ok : Bool) (f : MFields) : Bool :=
  f.off.toNat < 16 && f.off.toNat % 8 == k && 2 ≤ f.width.toNat && !f.sign &&
  (f.off.toNat < 8 || (f32ok && f.width == 2))
/-- A V-class type code that exists (Table 12.11). -/
def vAny (f : VFields) : Bool := f.ty.toNat < 11
/-- An integer V-class type. -/
def vInt (f : VFields) : Bool := f.ty.toNat < 6
/-- A float V-class type. -/
def vFloat (f : VFields) : Bool := 6 ≤ f.ty.toNat && f.ty.toNat < 11
/-- f16, b16 or f32. -/
def vHalf (f : VFields) : Bool := 8 ≤ f.ty.toNat && f.ty.toNat < 11
/-- Every type but f8e4 and f8e5. -/
def vNo8 (f : VFields) : Bool := vAny f && !(6 ≤ f.ty.toNat && f.ty.toNat < 8)
/-- f32 with RS zero. -/
def vF32 (f : VFields) : Bool := f.ty == 10 && f.rs == 0
/-- The static part of MMA and MMAZ (R362): a type code below 11 whose SCL rule holds, unused operands zero. -/
def mmaForm (f : EFields) : Bool :=
  let t := f.opt.toNat % 16
  let scl := f.opt.toNat / 16 == 1
  f.dst == 0 && f.opt.toNat < 32 && f.n12.toNat < 2048 && t < 11 &&
  (!(t == 0 || t == 6) || !scl) && (!(t == 7 || t == 8) || scl) &&
  (t == 7 || t == 8 || f.a == 0) && (scl || f.b == 0)

/-- No reserved code and no nonzero field that must be zero: what ILLEGAL_INSTR asks (R254 item 3), as far as the word
alone decides. Events carry no word. -/
def formOk : Instr → Bool
  | .addQ f => f.imm == 0 && !(f.dst == 0 && f.a == 0 && !f.alast && f.b == 0 && !f.blast)
  | .subQ f | .andQ f | .orQ f | .xorQ f | .andnQ f | .shlQ f | .shrQ f | .sraQ f | .minQ f | .maxQ f | .minuQ f
  | .maxuQ f | .mulQ f => f.imm == 0
  | .movQ f => f.imm == 0 && f.b == 0 && !f.blast
  | .addiQ f | .andiQ f | .oriQ f | .xoriQ f | .shliQ f | .shriQ f | .sraiQ f => f.b == 0 && !f.blast
  | .cmpeqQ f | .cmpneQ f | .cmpltQ f | .cmpgeQ f | .cmpltuQ f | .cmpgeuQ f | .cmpleQ f | .cmpgtQ f => f.imm == 0
  | .movq f => f.a == 0 && !f.alast && f.b == 0
  | .movg f => f.dst == 0 && f.b == 0
  | .pand f | .por f | .pxor f => !f.alast && !f.blast && f.imm == 0
  | .pnot f => f.b == 0 && !f.alast && !f.blast && f.imm == 0
  | .li _ | .br _ => true
  | .jmp f | .jal f | .brl f => f.pred == 0
  | .nop | .mark | .fbar | .tick | .yield | .done | .eret => true
  | .addG f | .subG f | .andG f | .orG f | .xorG f | .andnG f | .shlG f | .shrG f | .sraG f | .minG f | .maxG f
  | .minuG f | .maxuG f | .mulG f | .mulhG f | .mulhuG f | .divG f | .divuG f | .remG f | .remuG f | .rotG f
  | .sextG f | .zextG f | .selG f => f.imm == 0
  | .movG f | .clzG f | .ctzG f | .popcG f => f.imm == 0 && f.b == 0
  | .bfxG f => bitFieldForm f.imm && f.b == 0
  | .bfiG f => bitFieldForm f.imm
  | .addiG f | .andiG f | .oriG f | .xoriG f => f.b == 0
  | .shliG f | .shriG f | .sraiG f => f.b == 0 && shiftForm f.imm
  | .addL f | .subL f | .andL f | .orL f | .xorL f | .andnL f | .shlL f | .shrL f | .sraL f | .minL f | .maxL f
  | .minuL f | .maxuL f | .mulL f | .mulhL f | .mulhuL f | .divL f | .divuL f | .remL f | .remuL f | .rotL f
  | .sextL f | .zextL f | .selL f => f.imm == 0 && f.b == 0
  | .cmpeqG f i | .cmpneG f i | .cmpltG f i | .cmpgeG f i | .cmpltuG f i | .cmpgeuG f i | .cmpleG f i
  | .cmpgtG f i => if i then f.b == 0 else f.imm == 0
  | .fadd f | .fsub f | .fmul f | .fma f | .fmin f | .fmax f | .fsgn f => floatForm f.imm
  | .fcmp f => f.imm.toNat < 128 && f.imm.toNat % 16 < 4
  | .fcvt f => fcvtForm f.imm && f.b == 0
  | .frcp f | .frsq f | .fexp2 f | .flog2 f => sfuForm f.imm && f.b == 0
  | .frcps f | .frsqs f => sfuForm f.imm
  | .mfs f | .mfc f => f.a == 0 && f.b == 0 && f.opt == 0
  | .mts f | .mtc f => f.dst == 0 && f.b == 0 && f.opt == 0
  | .ld f => f.aux == 0 && !f.acq && !f.rel && f.scope == 0 && !(f.width == 3 && f.sign)
  | .st f => f.aux == 0 && !f.acq && !f.rel && f.scope == 0 && !f.sign
  | .lda f => f.aux == 0 && f.acq && !f.rel && !(f.width == 3 && f.sign)
  | .stl f => f.aux == 0 && !f.acq && f.rel && !f.sign
  | .amoadd f => amoForm 0 true f
  | .amoand f => amoForm 1 false f
  | .amoor f => amoForm 2 false f
  | .amoxor f => amoForm 3 false f
  | .amomin f => amoForm 4 true f
  | .amomax f => amoForm 5 true f
  | .amoswp f => amoForm 6 true f
  | .amocas f => amoForm 7 true f
  | .fence f => f.dst == 0 && f.a == 0 && f.b == 0 && f.n12 == 0 && f.opt.toNat < 32
  | .cflush f => f.dst == 0 && f.n12 == 0 && f.opt.toNat < 8
  | .icinv f => f.dst == 0 && f.n12 == 0 && f.opt == 0
  | .prf f => f.dst == 0 && f.b == 0 && f.opt == 0
  | .ldp f => f.b == 0 && f.n12.toNat < 128
  | .stp f => f.dst == 0 && f.n12.toNat < 64
  | .jalr f => f.b == 0 && f.imm.toNat < 2
  | .loop f => f.dst == 0
  | .sigdef f => f.dst == 0 && f.b == 0 && f.opt == 0 && signalE f
  | .sigdrop f | .sigrst f | .sigseal f => bareE f && signalE f
  | .tapld f => signalE f && (f.opt.toNat / 16 % 2 == 0 || f.opt.toNat % 16 == 0)
  | .tapst f => signalE f && f.opt.toNat < 32 && (f.opt.toNat / 16 % 2 == 0 || f.opt.toNat % 16 == 0)
  | .tapstTick f => signalE f && f.opt == 32
  | .sighead f => f.a == 0 && f.b == 0 && f.opt == 0 && signalE f
  | .sigevict f => f.dst == 0 && f.b == 0 && f.opt == 0 && signalE f
  | .sigpos f => f.b == 0 && f.opt == 0 && signalE f
  | .sctx f => f.dst == 0 && f.b == 0 && f.opt == 0 && f.n12 == 0
  | .push f => f.opt.toNat < 8
  | .wait f => f.dst == 0 && f.opt == 0 && f.n12.toNat < 16
  | .tlread f => f.a == 0 && f.opt == 0 && f.n12.toNat < 16
  | .fork f => f.dst == 0 && f.b == 0 && f.opt == 0 && f.n12.toNat < 128
  | .rdv f => bareE f && f.n12.toNat < 128
  | .evset f => f.dst == 0 && f.b == 0 && f.opt.toNat < 2 && f.n12.toNat < 32
  | .evpulse f | .wfe f => bareE f && f.n12.toNat < 32
  | .sbind f => f.opt == 0 && f.n12 == 0
  | .spawn f => f.b == 0 && f.opt == 0 && f.n12 == 0
  | .join f => f.b == 0 && f.opt == 0 && f.n12 == 0
  | .joinBatch f => f.b == 0 && f.opt == 1 && f.n12 == 0
  | .gbar f => bareE f && f.n12.toNat < 16
  | .budget f => f.a == 0 && f.b == 0 && f.opt == 0 && f.n12 == 0
  | .eqpush f => f.opt.toNat < 2 && (f.opt == 1 || f.dst == 0)
  | .eqcfg f => f.opt == 0 && f.n12 == 0
  | .eqfire f | .eqstat f => f.a == 0 && f.opt == 0
  | .eqpop f => f.opt == 0
  | .gfstep f => f.dst == 0 && f.n12 == 0 && f.opt.toNat < 2
  | .gfstepSet f => f.dst == 0 && f.n12 == 0 && 2 ≤ f.opt.toNat && f.opt.toNat < 4
  | .gfmask f => f.dst == 0 && f.n12 == 0 && f.opt.toNat < 2
  | .rply f => f.dst == 0 && f.n12.toNat < 16 && f.opt == 0
  | .rplyTake f => f.a == 0 && f.b == 0 && f.n12 == 0 && f.opt == 1
  | .embld f => f.opt == 0
  | .vrandk f => f.dst == 0 && f.opt == 0 && f.n12 == 0
  | .tld f => f.n12.toNat < 64 && f.opt.toNat % 16 < 3 &&
      (f.opt.toNat % 16 == 2 || (f.dst == 0 && f.n12.toNat < 32))
  | .tst f => f.dst == 0 && f.n12.toNat < 32 && f.opt.toNat % 16 == 0
  | .mma f | .mmaz f => mmaForm f
  | .scld f => f.opt == 0 && f.n12 == 0
  | .nestgo f => f.a == 0 && f.b == 0 && f.opt.toNat < 11 && f.n12.toNat < 16
  | .accmov f => f.opt.toNat < 6 && f.n12.toNat < 8 && (4 ≤ f.opt.toNat || f.dst == 0)
  | .accz f => f.dst == 0 && f.a == 0 && f.b == 0 && f.opt.toNat < 2 && f.n12.toNat < 8
  | .tidset f | .tidinv f => f.dst == 0 && f.opt == 0 && f.n12 == 0
  | .trap f | .bkpt f => bareE f
  | .tlbinv f => f.dst == 0 && f.n12 == 0 && f.opt.toNat < 4
  | .liw f => f.a == 0 && f.b == 0 && !f.lu
  | .jmpl f => f.dst == 0 && f.a == 0 && f.b == 0 && !f.lu && f.imm.toNat < 2
  | .vshape f => f.dst == 0 && f.imm.toNat < 32 && (f.imm.toNat / 8 % 2 == 1 || f.a == 0) &&
      (f.imm.toNat / 16 == 1 || f.b == 0) && (!f.lu || f.imm.toNat / 8 != 0) && (f.lit == 0 || f.imm.toNat % 8 != 0)
  | .fli f => f.a == 0 && f.b == 0 && !f.lu && (f.imm.toNat < 4 || f.imm == 8 || f.imm == 9)
  | .vadd f | .vsub f | .vmul f | .vmin f | .vmax f | .vabs f | .vneg f | .vcvt f | .vsel f | .vcmp f => vAny f
  | .vfma f => vFloat f
  | .vmac f | .vand f | .vor f | .vxor f | .vshl f | .vshr f | .vsra f => vInt f
  | .vrcp f | .vrsq f | .vexp f | .vlog f | .vtanh f => vHalf f
  | .vsum f | .vmaxr f | .vscan f | .vpopc f => vAny f
  | .vdraw f => vHalf f && f.rs == 0
  | .vdrawm f | .vrand f => vF32 f
  | .vdot f | .vfir f => vNo8 f
  | .vcopy f | .vfill f | .vgather f | .vscatter f | .vperm f | .vexpand f | .cspush f | .cspop f | .csroute f =>
      vAny f
  | .powerInputApplied | .coolantOkAsserted | .railSequenceStep _ | .selfTestDone _ | .perstRelease | .railFault _
  | .throttleUp | .throttleDown | .thermalTrip | .hbmSiteHot _ | .hbmThermalRetirement _ _ | .sensorRefresh _
  | .bootRomCheck | .readSensors | .readModstat | .readCapacity | .setPowerLimit _ | .fwStage _ | .fwActivate _
  | .flashWriteDone | .eventLog | .mailboxUnknownCommand _ | .mailboxResponseRead | .recoveryStage
  | .recoveryStageDone | .recoveryCommit | .patrolScrub _ _ | .remapRequest _ _ _ | .rmctlWrite _ _ | .remapPublish
  | .coreFence _ | .htrWrite _ _ _ | .lmapWrite _ _ _ | .parkWrite _ _ | .portIdlePark _ | .portWakeTrigger _
  | .wakeLockEnd _ _ | .wakeComplete _ | .markerReceived _ _ | .ringLockLoss _ _ | .lanePause _ _ | .data _ _
  | .ack _ _ | .nak _ _ | .portDownTimeout _ | .withdraw _ _ _ _ | .form _ _ _ | .formTimeout _ _
  | .allreduce _ _ _ | .allgather _ _ _ | .redscatter _ _ _ | .alltoall _ _ _ | .drawmerge _ _ _
  | .collectiveBadOp _ _ | .collectiveComplete _ _ | .functionLevelReset _ | .pfReset | .queueEnable _ _ _
  | .queueResume _ _ | .queueAbort _ _ | .queueDrain _ _ | .kick _ _ _ | .kickRefetch _ _
  | .packetFetchResponse _ _ | .launch _ _ _ | .launchUnitCreate _ _ _ | .copy _ _ _ | .tlwait _ _ _
  | .tlwaitSatisfied _ _ _ | .tlsignal _ _ _ | .mapupdate _ _ _ | .fencePacket _ _ _ | .nopkt _ _ _
  | .packetComplete _ _ _ | .swtWrite _ _ _ | .crheadWrite _ _ | .trheadWrite _ _ _ | .itheadWrite _ _
  | .crctlWrite _ _ | .trctlWrite _ _ _ | .itctlWrite _ _ | .dtctlWrite _ _ | .tokenRingTimer _ _ | .fresResume _
  | .fresFail _ | .fresSkip _ | .fresKill _ | .gfbaseWrite _ _ | .bar2Read _ _ _ | .bar2Write _ _ _
  | .atsInvalidation _ _ _ | .priResponse _ _ | .registerWrite _ _ | .walkComplete _ _ | .migrate _ _
  | .exchange _ _ | .promote _ _ | .swapBadOp _ _ | .swapComplete _ _ | .schedulerRound | .sliceStart _ _
  | .checkpointComplete _ _ | .bucketRefill _ | .deadlineMiss _ _ | .budgetExhausted _ _
  | .handlerAllowanceExhausted _ | .regionFirstTouch _ _ | .regionTransferDone _ _ | .geyserRound _
  | .fetchLine _ _ | .loadDataReturn _ _ | .writebackLand _ _ | .copyCmd _ _ | .tileCmd _ _ | .fillCmd _ _
  | .feedCmd _ _ | .copyCmdComplete _ _ | .grammarStep _ | .grammarMask _ | .grammarSet _ | .nestDrain _ _
  | .nestComplete _ _ | .deepBlockReadDone _ _ | .haltQuiescence _ | .traceSync _ | .timelineWaitRelease _ _
  | .gateWaitRelease _ _ | .frontWaitRelease _ _ | .powerInputLost | .uncorrectable _ _ | .ringLockChange _ _
  | .sealedBlockWriteDone _ _ | .vectorUnmask _ _ | .pctlWrite _ _ | .sramRowSparing _ _
  | .atsTranslationCompletion _ _ _ => true

/-- Every register specifier and region field names what its instruction accepts: the part of ILLEGAL_OPERAND that the
word alone decides (R254 item 5). -/
def operandsOk : Instr → Bool
  | .cmpeqQ f | .cmpneQ f | .cmpltQ f | .cmpgeQ f | .cmpltuQ f | .cmpgeuQ f | .cmpleQ f | .cmpgtQ f | .pand f
  | .por f | .pxor f | .pnot f => f.dst != 0
  | .addQ _ | .subQ _ | .andQ _ | .orQ _ | .xorQ _ | .andnQ _ | .shlQ _ | .shrQ _ | .sraQ _ | .minQ _ | .maxQ _
  | .minuQ _ | .maxuQ _ | .mulQ _ | .movQ _ | .addiQ _ | .andiQ _ | .oriQ _ | .xoriQ _ | .shliQ _ | .shriQ _
  | .sraiQ _ | .movq _ | .movg _ | .nop => true
  | .li _ | .br _ | .jmp _ | .jal _ | .brl _ => true
  | .addG f | .subG f | .andG f | .orG f | .xorG f | .andnG f | .shlG f | .shrG f | .sraG f | .minG f | .maxG f
  | .minuG f | .maxuG f | .mulG f | .movG f | .mulhG f | .mulhuG f | .divG f | .divuG f | .remG f | .remuG f
  | .rotG f | .clzG f | .ctzG f | .popcG f | .sextG f | .zextG f | .bfxG f | .bfiG f | .selG f | .addiG f | .andiG f
  | .oriG f | .xoriG f | .shliG f | .shriG f | .sraiG f | .fadd f | .fsub f | .fmul f | .fma f | .fmin f | .fmax f
  | .fsgn f | .fcvt f => isDst f.dst && isSrc f.a && isSrc f.b
  | .addL f | .subL f | .andL f | .orL f | .xorL f | .andnL f | .shlL f | .shrL f | .sraL f | .minL f | .maxL f
  | .minuL f | .maxuL f | .mulL f | .mulhL f | .mulhuL f | .divL f | .divuL f | .remL f | .remuL f | .rotL f
  | .sextL f | .zextL f | .selL f => isDst f.dst && isSrc f.a
  | .cmpeqG f _ | .cmpneG f _ | .cmpltG f _ | .cmpgeG f _ | .cmpltuG f _ | .cmpgeuG f _ | .cmpleG f _
  | .cmpgtG f _ => isPredDst f.dst && isSrc f.a && isSrc f.b
  | .fcmp f => isPredDst f.dst && isSrc f.a && isSrc f.b
  | .frcp f | .frsq f | .fexp2 f | .flog2 f | .frcps f | .frsqs f => isGQ f.dst && isSrc f.a && isSrc f.b
  | .mfs f | .mfc f => isDst f.dst
  | .mts f | .mtc f => isSrc f.a
  | .ld f => isGQ f.base && isGQ f.reg
  | .st f => isGQ f.base && isSrc f.reg
  | .lda f => isGQ f.base && isGQ f.reg && 1 ≤ f.scope.toNat && f.scope.toNat ≤ 6
  | .stl f => isGQ f.base && isSrc f.reg && 1 ≤ f.scope.toNat && f.scope.toNat ≤ 6
  | .amoadd f | .amoand f | .amoor f | .amoxor f | .amomin f | .amomax f | .amoswp f | .amocas f =>
      isGQ f.base && isGQ f.reg && isGQ f.aux && 1 ≤ f.scope.toNat && f.scope.toNat ≤ 6
  | .mark | .fbar | .tick | .yield | .done | .eret => true
  | .fence f => 1 ≤ f.opt.toNat % 8 && f.opt.toNat % 8 ≤ 6 && f.opt.toNat / 8 < 3
  | .cflush f => isGQ f.a && isGQ f.b && 4 ≤ f.opt.toNat && f.opt.toNat ≤ 6
  | .icinv f => isGQ f.a && isGQ f.b
  | .prf f => isGQ f.a
  | .ldp f => isGQ f.dst && isGQ f.a
  | .stp f => isGQ f.a && isSrc f.b
  | .jalr f => isG f.dst && isSrc f.a
  | .loop f => isSrc f.a && isSrc f.b
  | .sigdef f | .sigevict f | .sctx f => isGQ f.a
  | .sigdrop _ | .sigrst _ | .sigseal _ => true
  | .tapld f => isGQ f.dst && isGQ f.a && (f.opt.toNat / 16 % 2 == 0 || isQ f.b)
  | .tapst f => isSrc f.dst && isGQ f.a && (f.opt.toNat / 16 % 2 == 0 || isQ f.b)
  | .tapstTick f => isSrc f.dst && isGQ f.a && isGQ f.b
  | .sighead f => isRun 125 f.dst
  | .sigpos f => isGQ f.dst && isGQ f.a
  | .push f => isPredDst f.dst && isRun 120 f.a && isG f.b && f.opt.toNat < 5 && f.n12.toNat % 8 == 0
  | .wait f => isGQ f.a && isGQ f.b && 1 ≤ f.n12.toNat && f.n12.toNat ≤ 10
  | .tlread f => isGQ f.dst && isGQ f.b && 1 ≤ f.n12.toNat && f.n12.toNat ≤ 10
  | .fork f => isRun 122 f.a && f.n12.toNat % 2 == 0
  | .rdv f => f.n12.toNat % 2 == 0
  | .evset f => isGQ f.a
  | .evpulse _ | .wfe _ => true
  | .sbind f => isD f.dst && isRun 120 f.a && isG f.b
  | .spawn f => isG f.dst && isRun 120 f.a
  | .join f | .joinBatch f => isPredDstOrNone f.dst && isGQ f.a
  | .gbar _ => true
  | .budget f => isPredDstOrNone f.dst
  | .eqpush f => isRun 124 f.a && isGQ f.b && (f.opt == 0 || isPredDst f.dst)
  | .eqcfg f | .eqpop f => isGQ f.dst && isGQ f.a && isGQ f.b
  | .eqfire f | .eqstat f => isGQ f.dst && isGQ f.b
  | .gfstep f | .gfstepSet f | .gfmask f | .vrandk f | .rply f => isGQ f.a && isGQ f.b
  | .rplyTake f => isGQ f.dst
  | .embld f => isGQ f.dst && isGQ f.a && isGQ f.b
  | .tld f | .accmov f | .scld f => isGQ f.dst && isGQ f.a && isGQ f.b
  | .tst f | .mma f | .mmaz f | .tidset f | .tidinv f => isGQ f.a && isGQ f.b
  | .nestgo f => isGQ f.dst
  | .accz _ | .trap _ | .bkpt _ => true
  | .tlbinv f => isGQ f.a && isGQ f.b && f.opt.toNat < 3
  | .liw f | .fli f => isDst f.dst
  | .jmpl _ => true
  | .vshape f => isSrc f.a && isSrc f.b
  | .vadd f | .vsub f | .vmul f | .vfma f | .vmac f | .vmin f | .vmax f | .vand f | .vor f | .vxor f | .vshl f
  | .vshr f | .vsra f | .vsel f | .vcmp f => regionDst f.rd && regionLegal f.ra && regionLegal f.rb
  | .vabs f | .vneg f | .vrcp f | .vrsq f | .vexp f | .vlog f | .vtanh f | .vscan f | .vcopy f =>
      regionDst f.rd && regionLegal f.ra && regionUnused f.rb
  | .vcvt f => regionDst f.rd && regionLegal f.ra && regionType f.rb
  | .vsum f | .vmaxr f => regionRed f.rd && regionLegal f.ra && regionUnused f.rb
  | .vpopc f => regionGQ f.rd && regionLegal f.ra && regionUnused f.rb
  | .vdot f => regionRed f.rd && regionLegal f.ra && regionLegal f.rb
  | .vdraw f => regionTriple f.rd && regionLegal f.ra && regionArea f.rb
  | .vdrawm f => regionTriple f.rd && regionArea f.ra && regionArea f.rb
  | .vrand f => regionDst f.rd && regionUnused f.ra && regionUnused f.rb
  | .vfill f => regionDst f.rd && regionGQ f.ra && regionUnused f.rb
  | .vgather f | .vscatter f | .vperm f => regionDst f.rd && regionLegal f.ra && regionIndex f.rb
  | .vexpand f => regionArea f.rd && regionArea f.ra && regionArea f.rb
  | .vfir f => regionDst f.rd && regionTap f.ra && regionArea f.rb
  | .cspush f => regionArea f.rd && regionLegal f.ra && regionLegal f.rb
  | .cspop f => regionDst f.rd && regionArea f.ra && regionLegal f.rb
  | .csroute f => regionDst f.rd && regionArea f.ra && regionUnused f.rb
  | .powerInputApplied | .coolantOkAsserted | .railSequenceStep _ | .selfTestDone _ | .perstRelease | .railFault _
  | .throttleUp | .throttleDown | .thermalTrip | .hbmSiteHot _ | .hbmThermalRetirement _ _ | .sensorRefresh _
  | .bootRomCheck | .readSensors | .readModstat | .readCapacity | .setPowerLimit _ | .fwStage _ | .fwActivate _
  | .flashWriteDone | .eventLog | .mailboxUnknownCommand _ | .mailboxResponseRead | .recoveryStage
  | .recoveryStageDone | .recoveryCommit | .patrolScrub _ _ | .remapRequest _ _ _ | .rmctlWrite _ _ | .remapPublish
  | .coreFence _ | .htrWrite _ _ _ | .lmapWrite _ _ _ | .parkWrite _ _ | .portIdlePark _ | .portWakeTrigger _
  | .wakeLockEnd _ _ | .wakeComplete _ | .markerReceived _ _ | .ringLockLoss _ _ | .lanePause _ _ | .data _ _
  | .ack _ _ | .nak _ _ | .portDownTimeout _ | .withdraw _ _ _ _ | .form _ _ _ | .formTimeout _ _
  | .allreduce _ _ _ | .allgather _ _ _ | .redscatter _ _ _ | .alltoall _ _ _ | .drawmerge _ _ _
  | .collectiveBadOp _ _ | .collectiveComplete _ _ | .functionLevelReset _ | .pfReset | .queueEnable _ _ _
  | .queueResume _ _ | .queueAbort _ _ | .queueDrain _ _ | .kick _ _ _ | .kickRefetch _ _
  | .packetFetchResponse _ _ | .launch _ _ _ | .launchUnitCreate _ _ _ | .copy _ _ _ | .tlwait _ _ _
  | .tlwaitSatisfied _ _ _ | .tlsignal _ _ _ | .mapupdate _ _ _ | .fencePacket _ _ _ | .nopkt _ _ _
  | .packetComplete _ _ _ | .swtWrite _ _ _ | .crheadWrite _ _ | .trheadWrite _ _ _ | .itheadWrite _ _
  | .crctlWrite _ _ | .trctlWrite _ _ _ | .itctlWrite _ _ | .dtctlWrite _ _ | .tokenRingTimer _ _ | .fresResume _
  | .fresFail _ | .fresSkip _ | .fresKill _ | .gfbaseWrite _ _ | .bar2Read _ _ _ | .bar2Write _ _ _
  | .atsInvalidation _ _ _ | .priResponse _ _ | .registerWrite _ _ | .walkComplete _ _ | .migrate _ _
  | .exchange _ _ | .promote _ _ | .swapBadOp _ _ | .swapComplete _ _ | .schedulerRound | .sliceStart _ _
  | .checkpointComplete _ _ | .bucketRefill _ | .deadlineMiss _ _ | .budgetExhausted _ _
  | .handlerAllowanceExhausted _ | .regionFirstTouch _ _ | .regionTransferDone _ _ | .geyserRound _
  | .fetchLine _ _ | .loadDataReturn _ _ | .writebackLand _ _ | .copyCmd _ _ | .tileCmd _ _ | .fillCmd _ _
  | .feedCmd _ _ | .copyCmdComplete _ _ | .grammarStep _ | .grammarMask _ | .grammarSet _ | .nestDrain _ _
  | .nestComplete _ _ | .deepBlockReadDone _ _ | .haltQuiescence _ | .traceSync _ | .timelineWaitRelease _ _
  | .gateWaitRelease _ _ | .frontWaitRelease _ _ | .powerInputLost | .uncorrectable _ _ | .ringLockChange _ _
  | .sealedBlockWriteDone _ _ | .vectorUnmask _ _ | .pctlWrite _ _ | .sramRowSparing _ _
  | .atsTranslationCompletion _ _ _ => true

end Sys2Proof.Machine
end

