-- ==== Sys2Proof/WellFormed.lean ====
section
/-! DEFINITION. Well-formed instructions: a row with an encoding, whose fields the decoder and the operand check accept. -/

namespace Sys2Proof

/-- The row has an encoding (rows without one are events). -/
def Instr.encoded : Instr → Bool
  | .addQ _ | .subQ _ | .andQ _ | .orQ _ | .xorQ _ | .andnQ _ | .shlQ _ | .shrQ _ | .sraQ _ | .minQ _ | .maxQ _
  | .minuQ _ | .maxuQ _ | .mulQ _ | .movQ _ | .addiQ _ | .andiQ _ | .oriQ _ | .xoriQ _ | .shliQ _ | .shriQ _
  | .sraiQ _ | .cmpeqQ _ | .cmpneQ _ | .cmpltQ _ | .cmpgeQ _ | .cmpltuQ _ | .cmpgeuQ _ | .cmpleQ _ | .cmpgtQ _
  | .movq _ | .movg _ | .pand _ | .por _ | .pxor _ | .pnot _ | .li _ | .br _ | .jmp _ | .jal _ | .brl _ | .nop
  | .addG _ | .subG _ | .andG _ | .orG _ | .xorG _ | .andnG _ | .shlG _ | .shrG _ | .sraG _ | .minG _ | .maxG _
  | .minuG _ | .maxuG _ | .mulG _ | .movG _ | .mulhG _ | .mulhuG _ | .divG _ | .divuG _ | .remG _ | .remuG _
  | .rotG _ | .clzG _ | .ctzG _ | .popcG _ | .sextG _ | .zextG _ | .bfxG _ | .bfiG _ | .selG _ | .addiG _
  | .andiG _ | .oriG _ | .xoriG _ | .shliG _ | .shriG _ | .sraiG _ | .addL _ | .subL _ | .andL _ | .orL _ | .xorL _
  | .andnL _ | .shlL _ | .shrL _ | .sraL _ | .minL _ | .maxL _ | .minuL _ | .maxuL _ | .mulL _ | .mulhL _
  | .mulhuL _ | .divL _ | .divuL _ | .remL _ | .remuL _ | .rotL _ | .sextL _ | .zextL _ | .selL _ | .cmpeqG _ _
  | .cmpneG _ _ | .cmpltG _ _ | .cmpgeG _ _ | .cmpltuG _ _ | .cmpgeuG _ _ | .cmpleG _ _ | .cmpgtG _ _ | .fadd _
  | .fsub _ | .fmul _ | .fma _ | .fmin _ | .fmax _ | .fsgn _ | .fcmp _ | .fcvt _ | .frcp _ | .frsq _ | .frcps _
  | .frsqs _ | .fexp2 _ | .flog2 _ | .mfs _ | .mts _ | .mfc _ | .mtc _ | .ld _ | .st _ | .lda _ | .stl _
  | .amoadd _ | .amoand _ | .amoor _ | .amoxor _ | .amomin _ | .amomax _ | .amoswp _ | .amocas _ | .mark
  | .fence _ | .cflush _ | .icinv _ | .fbar | .prf _ | .ldp _ | .stp _ | .jalr _ | .loop _ | .sigdef _
  | .sigdrop _ | .tick | .tapld _ | .tapst _ | .tapstTick _ | .sighead _ | .sigrst _ | .sigseal _ | .sigevict _
  | .sigpos _ | .sctx _ | .push _ | .wait _ | .tlread _ | .fork _ | .rdv _ | .evset _ | .evpulse _ | .wfe _
  | .sbind _ | .spawn _ | .join _ | .joinBatch _ | .yield | .done | .gbar _ | .budget _ | .eqpush _ | .eqcfg _
  | .eqfire _ | .eqpop _ | .eqstat _ | .gfstep _ | .gfstepSet _ | .gfmask _ | .rply _ | .rplyTake _ | .embld _
  | .vrandk _ | .tld _ | .tst _ | .mma _ | .mmaz _ | .scld _ | .nestgo _ | .accmov _ | .accz _ | .tidset _
  | .tidinv _ | .trap _ | .eret | .bkpt _ | .tlbinv _ | .liw _ | .jmpl _ | .vshape _ | .fli _ | .vadd _ | .vsub _
  | .vmul _ | .vfma _ | .vmac _ | .vmin _ | .vmax _ | .vabs _ | .vneg _ | .vand _ | .vor _ | .vxor _ | .vshl _
  | .vshr _ | .vsra _ | .vcvt _ | .vsel _ | .vcmp _ | .vrcp _ | .vrsq _ | .vexp _ | .vlog _ | .vtanh _ | .vsum _
  | .vmaxr _ | .vdraw _ | .vdrawm _ | .vscan _ | .vpopc _ | .vdot _ | .vrand _ | .vcopy _ | .vfill _ | .vgather _
  | .vscatter _ | .vperm _ | .vexpand _ | .vfir _ | .cspush _ | .cspop _ | .csroute _ => true
  | .powerInputApplied | .coolantOkAsserted | .railSequenceStep _ | .selfTestDone _ | .perstRelease | .railFault _
  | .throttleUp | .throttleDown | .thermalTrip | .hbmSiteHot _ | .hbmThermalRetirement _ _ | .sensorRefresh _
  | .bootRomCheck | .readSensors | .readModstat | .readCapacity | .setPowerLimit _ | .fwStage _ | .fwActivate _
  | .flashWriteDone | .eventLog | .mailboxUnknownCommand _ | .mailboxResponseRead | .recoveryStage
  | .recoveryStageDone | .recoveryCommit | .patrolScrub _ _ | .remapRequest _ _ _ | .rmctlWrite _ _ | .remapPublish
  | .coreFence _ | .htrWrite _ _ _ | .lmapWrite _ _ _ | .parkWrite _ _ | .portIdlePark _ | .portWakeTrigger _
  | .wakeLockEnd _ _ | .wakeComplete _ | .markerReceived _ _ | .ringLockLoss _ _ | .lanePause _ _ | .data _ _
  | .ack _ _ | .nak _ _ | .portDownTimeout _ | .withdraw _ _ _ _ | .form _ _ _ | .formTimeout _ _
  | .allreduce _ _ _ | .allgather _ _ _ | .redscatter _ _ _ | .alltoall _ _ _ | .drawmerge _ _ _
  | .collectiveBadOp _ _ | .collectiveComplete _ _ | .functionLevelReset _ | .pfReset | .queueEnable _ _ _
  | .queueResume _ _ | .queueAbort _ _ | .queueDrain _ _ | .kick _ _ _ | .kickRefetch _ _
  | .packetFetchResponse _ _ | .launch _ _ _ | .launchUnitCreate _ _ _ | .copy _ _ _ | .tlwait _ _ _
  | .tlwaitSatisfied _ _ _ | .tlsignal _ _ _ | .mapupdate _ _ _ | .fencePacket _ _ _ | .nopkt _ _ _
  | .packetComplete _ _ _ | .swtWrite _ _ _ | .crheadWrite _ _ | .trheadWrite _ _ _ | .itheadWrite _ _
  | .crctlWrite _ _ | .trctlWrite _ _ _ | .itctlWrite _ _ | .dtctlWrite _ _ | .tokenRingTimer _ _ | .fresResume _
  | .fresFail _ | .fresSkip _ | .fresKill _ | .gfbaseWrite _ _ | .bar2Read _ _ _ | .bar2Write _ _ _
  | .atsInvalidation _ _ _ | .priResponse _ _ | .registerWrite _ _ | .walkComplete _ _ | .migrate _ _
  | .exchange _ _ | .promote _ _ | .swapBadOp _ _ | .swapComplete _ _ | .schedulerRound | .sliceStart _ _
  | .checkpointComplete _ _ | .bucketRefill _ | .deadlineMiss _ _ | .budgetExhausted _ _
  | .handlerAllowanceExhausted _ | .regionFirstTouch _ _ | .regionTransferDone _ _ | .geyserRound _
  | .fetchLine _ _ | .loadDataReturn _ _ | .writebackLand _ _ | .copyCmd _ _ | .tileCmd _ _ | .fillCmd _ _
  | .feedCmd _ _ | .copyCmdComplete _ _ | .grammarStep _ | .grammarMask _ | .grammarSet _ | .nestDrain _ _
  | .nestComplete _ _ | .deepBlockReadDone _ _ | .haltQuiescence _ | .traceSync _ | .timelineWaitRelease _ _
  | .gateWaitRelease _ _ | .frontWaitRelease _ _ | .powerInputLost | .uncorrectable _ _ | .ringLockChange _ _
  | .sealedBlockWriteDone _ _ | .vectorUnmask _ _ | .pctlWrite _ _ | .sramRowSparing _ _
  | .atsTranslationCompletion _ _ _ => false

/-- An instruction some word stands for, which raises no decode fault of R254 items 2, 3 and 5. -/
def WellFormed (i : Instr) : Prop :=
  i.encoded = true ∧ Machine.formOk i = true ∧ Machine.operandsOk i = true

end Sys2Proof
end

