-- ==== Sys2Proof/Decode.lean ====
section
/-! DEFINITION. Decoding words into instructions (R241-R257), total on any bytes, and encoding them back. A word no row
stands for is rejected by name; the operand check of R254 item 5 comes after decoding, in the machine. -/

namespace Sys2Proof

/-- Why a word is no instruction: the decode faults of R254 items 2 and 3, and a byte list that ends inside the
instruction (which no fetch line gives, R244). -/
inductive Reject where
  /-- Length code 0b11 (R241). -/
  | undefLength
  /-- A reserved major, member or type code, a nonzero field that must be zero, or the word 0x0000_0000. -/
  | illegalInstr
  /-- The bytes end before the instruction does. -/
  | truncated
  deriving DecidableEq, Repr

/-- `n` bits of `w` from bit `lo` up. -/
def bitsAt (n w lo : Nat) : BitVec n := BitVec.ofNat n (w / 2 ^ lo)

/-- Bit `lo` of `w`. -/
def bitAt (w lo : Nat) : Bool := w / 2 ^ lo % 2 == 1

/-- Bytes of the instruction whose first word is `w`: R241. Length code 0b11 counts as one word (R244). -/
def lengthOf (w : Nat) : Nat :=
  match w % 4 with
  | 1 => 8
  | 2 => 12
  | _ => 4

/-- Table 12.2. -/
def qFields (w : Nat) : QFields :=
  ⟨bitsAt 4 w 8, bitsAt 4 w 12, bitAt w 16, bitsAt 4 w 17, bitAt w 21, bitsAt 6 w 26⟩
/-- Table 12.3. -/
def jFields (w : Nat) : JFields := ⟨bitsAt 4 w 8, bitsAt 20 w 12⟩
/-- Table 12.4. -/
def gFields (w : Nat) : GFields := ⟨bitsAt 8 w 8, bitsAt 8 w 16, bitsAt 8 w 24, bitAt w 45, bitsAt 18 w 46⟩
/-- Table 12.5. -/
def mFields (w : Nat) : MFields :=
  ⟨bitsAt 8 w 8, bitsAt 8 w 16, bitsAt 8 w 24, bitsAt 2 w 32, bitAt w 34, bitAt w 35, bitAt w 36, bitsAt 3 w 37,
   bitsAt 18 w 46⟩
/-- Table 12.6. -/
def eFields (w : Nat) : EFields := ⟨bitsAt 8 w 8, bitsAt 8 w 16, bitsAt 8 w 24, bitsAt 6 w 46, bitsAt 12 w 52⟩
/-- Table 12.7. -/
def lFields (w : Nat) : LFields :=
  ⟨bitsAt 8 w 8, bitsAt 8 w 16, bitsAt 8 w 24, bitAt w 45, bitsAt 18 w 46, bitsAt 32 w 64⟩
/-- Table 12.8. -/
def vFields (w : Nat) : VFields := ⟨bitsAt 4 w 14, bitsAt 2 w 18, bitsAt 24 w 24, bitsAt 24 w 48, bitsAt 24 w 72⟩

/-- PRED and NEG of the G and L classes (Tables 12.4, 12.7). -/
def guardG (w : Nat) : Guard := ⟨bitsAt 4 w 40, bitAt w 44, false⟩
/-- PRED, NEG and PULSE of the M and E classes (Tables 12.5, 12.6). -/
def guardE (w : Nat) : Guard := ⟨bitsAt 4 w 40, bitAt w 44, bitAt w 45⟩
/-- PRED and PULSE of the V class, whose predicate is not invertible (Table 12.8). -/
def guardV (w : Nat) : Guard := ⟨bitsAt 4 w 20, false, bitAt w 13⟩

/-- Q.ALU by FUNC (Table 12.14). -/
def qAlu : List (QFields → Instr) :=
  [.addQ, .subQ, .andQ, .orQ, .xorQ, .andnQ, .shlQ, .shrQ, .sraQ, .minQ, .maxQ, .minuQ, .maxuQ, .mulQ, .movQ]

/-- Q.ALUI by FUNC. -/
def qAlui : List (QFields → Instr) :=
  [.addiQ, .andiQ, .oriQ, .xoriQ, .shliQ, .shriQ, .sraiQ]

/-- CMP by FUNC. -/
def qCmp : List (QFields → Instr) :=
  [.cmpeqQ, .cmpneQ, .cmpltQ, .cmpgeQ, .cmpltuQ, .cmpgeuQ, .cmpleQ, .cmpgtQ]

/-- Q.XFER by FUNC. -/
def qXfer : List (QFields → Instr) :=
  [.movq, .movg, .pand, .por, .pxor, .pnot]

/-- G.ALU by FUNC (Table 12.15). -/
def gAlu : List (GFields → Instr) :=
  [.addG, .subG, .andG, .orG, .xorG, .andnG, .shlG, .shrG, .sraG, .minG, .maxG, .minuG, .maxuG, .mulG, .movG,
    .mulhG, .mulhuG, .divG, .divuG, .remG, .remuG, .rotG, .clzG, .ctzG, .popcG, .sextG, .zextG, .bfxG, .bfiG, .selG]

/-- G.ALUI by FUNC. -/
def gAlui : List (GFields → Instr) :=
  [.addiG, .andiG, .oriG, .xoriG, .shliG, .shriG, .sraiG]

/-- G.CMP by FUNC[2:0]; the flag is FUNC[3]. -/
def gCmp : List (GFields → Bool → Instr) :=
  [.cmpeqG, .cmpneG, .cmpltG, .cmpgeG, .cmpltuG, .cmpgeuG, .cmpleG, .cmpgtG]

/-- G.FLOAT by FUNC. -/
def gFloat : List (GFields → Instr) :=
  [.fadd, .fsub, .fmul, .fma, .fmin, .fmax, .fsgn, .fcmp, .fcvt]

/-- G.SFU by FUNC. -/
def gSfu : List (GFields → Instr) :=
  [.frcp, .frsq, .frcps, .frsqs, .fexp2, .flog2]

/-- A member that carries its operand fields. -/
def row (c : EFields → Instr) (f : EFields) : Option Instr := some (c f)

/-- A member whose operand fields must all be zero (Tables 14.3, 15.1, R314, R320). -/
def bare (i : Instr) (f : EFields) : Option Instr :=
  if f == ⟨0, 0, 0, 0, 0⟩ then some i else none

/-- Two rows of one member that bit `n` of OPT6 tells apart: TAPST by tick (R329), the batch JOIN (R316), the grammar
SET (R374) and the RPLY take (R376). -/
def option (n : Nat) (c d : EFields → Instr) (f : EFields) : Option Instr :=
  some (if bitAt f.opt.toNat n then d f else c f)

/-- SYS by FUNC (Table 12.15). -/
def eSys : List (EFields → Option Instr) :=
  [row .mfs, row .mts, row .mfc, row .mtc]

/-- ORD by FUNC (Table 12.15). -/
def eOrd : List (EFields → Option Instr) :=
  [bare .mark, row .fence, row .cflush, row .icinv, bare .fbar, row .prf]

/-- PAREA by FUNC (Table 12.15). -/
def eParea : List (EFields → Option Instr) :=
  [row .ldp, row .stp]

/-- SIG by FUNC (Table 12.15). -/
def eSig : List (EFields → Option Instr) :=
  [row .sigdef, row .sigdrop, bare .tick, row .tapld, option 5 .tapst .tapstTick, row .sighead, row .sigrst,
    row .sigseal, row .sigevict, row .sigpos, row .sctx]

/-- ENG by FUNC (Table 12.15). -/
def eEng : List (EFields → Option Instr) :=
  [row .push, row .wait, row .tlread, row .fork, row .rdv, row .evset, row .evpulse, row .wfe, row .sbind]

/-- TASK by FUNC (Table 12.15). -/
def eTask : List (EFields → Option Instr) :=
  [row .spawn, option 0 .join .joinBatch, bare .yield, bare .done, row .gbar, row .budget]

/-- GEY by FUNC (Table 12.15). -/
def eGey : List (EFields → Option Instr) :=
  [row .eqpush, row .eqcfg, row .eqfire, row .eqpop, row .eqstat]

/-- GEN by FUNC (Table 12.15). -/
def eGen : List (EFields → Option Instr) :=
  [option 1 .gfstep .gfstepSet, row .gfmask, option 0 .rply .rplyTake, row .embld, row .vrandk]

/-- TILE by FUNC (Table 12.15). -/
def eTile : List (EFields → Option Instr) :=
  [row .tld, row .tst, row .mma, row .mmaz, row .scld, row .nestgo, row .accmov, row .accz, row .tidset,
    row .tidinv]

/-- TRAPS by FUNC (Table 12.15). -/
def eTraps : List (EFields → Option Instr) :=
  [row .trap, bare .eret, row .bkpt, row .tlbinv]

/-- G.ALUL by FUNC: the members of G.ALU but MOV, CLZ, CTZ, POPC, BFX and BFI (R271). -/
def lAlu : List (Option (LFields → Instr)) :=
  [some .addL, some .subL, some .andL, some .orL, some .xorL, some .andnL, some .shlL, some .shrL, some .sraL,
    some .minL, some .maxL, some .minuL, some .maxuL, some .mulL, none, some .mulhL, some .mulhuL, some .divL,
    some .divuL, some .remL, some .remuL, some .rotL, none, none, none, some .sextL, some .zextL, none, none,
    some .selL]

/-- V.ARITH by FUNC (Table 12.16). -/
def vArith : List (VFields → Instr) :=
  [.vadd, .vsub, .vmul, .vfma, .vmac, .vmin, .vmax, .vabs, .vneg, .vand, .vor, .vxor, .vshl, .vshr, .vsra, .vcvt,
    .vsel, .vcmp]

/-- V.SFU by FUNC (Table 12.16). -/
def vSfu : List (VFields → Instr) :=
  [.vrcp, .vrsq, .vexp, .vlog, .vtanh]

/-- V.RED by FUNC (Table 12.16). -/
def vRed : List (VFields → Instr) :=
  [.vsum, .vmaxr, .vdraw, .vdrawm, .vscan, .vpopc, .vdot, .vrand]

/-- V.MOVE by FUNC (Table 12.16). -/
def vMove : List (VFields → Instr) :=
  [.vcopy, .vfill, .vgather, .vscatter, .vperm, .vexpand, .vfir]

/-- CSTR by FUNC (Table 12.16). -/
def vCstr : List (VFields → Instr) :=
  [.cspush, .cspop, .csroute]

/-- The AMO members in OFF18[2:0] (Table 12.15). -/
def amoMember (k : Nat) (f : MFields) : Instr :=
  match k with
  | 0 => .amoadd f
  | 1 => .amoand f
  | 2 => .amoor f
  | 3 => .amoxor f
  | 4 => .amomin f
  | 5 => .amomax f
  | 6 => .amoswp f
  | _ => .amocas f

/-- The row of a 32-bit word, by its major. -/
def decode32 (w : Nat) : Option Instr :=
  let j := w / 4 % 64
  if j == 0x04 then some (.li (jFields w))
  else if j == 0x08 then some (.br (jFields w))
  else if j == 0x09 then some (.jmp (jFields w))
  else if j == 0x0A then some (.jal (jFields w))
  else if j == 0x0B then some (.brl (jFields w))
  else if j == 0x3F then (if w == 0xFC then some .nop else none)
  else (match j with | 0x00 => qAlu | 0x01 => qAlui | 0x02 => qCmp | 0x03 => qXfer | _ => [])[w / 2 ^ 22 % 16]?.map
    fun c => c (qFields w)

/-- The row and the guard of a 64-bit instruction. -/
def decode64 (w : Nat) : Option (Guard × Instr) :=
  let j := w / 4 % 64
  let k := w / 2 ^ 32 % 256
  if j == 0x08 then some (guardE w, .ld (mFields w))
  else if j == 0x09 then some (guardE w, .st (mFields w))
  else if j == 0x0A then some (guardE w, .lda (mFields w))
  else if j == 0x0B then some (guardE w, .stl (mFields w))
  else if j == 0x0C then some (guardE w, amoMember (w / 2 ^ 46 % 8) (mFields w))
  else if j == 0x02 then
    if k < 16 then gCmp[k % 8]?.map fun c => (guardG w, c (gFields w) (k / 8 == 1)) else none
  else match (match j with
      | 0x00 => gAlu | 0x01 => gAlui | 0x03 => gFloat | 0x04 => gSfu | 0x10 => [.jalr] | 0x11 => [.loop]
      | _ => [])[k]? with
    | some c => some (guardG w, c (gFields w))
    | none => match (match j with
        | 0x05 => eSys | 0x0D => eOrd | 0x0E => eParea | 0x14 => eSig | 0x18 => eEng | 0x19 => eTask | 0x1A => eGey
        | 0x1B => eGen | 0x1C => eTile | 0x1D => eTraps | _ => [])[k]? with
      | some c => (c (eFields w)).map fun i => (guardE w, i)
      | none => none

/-- The row and the guard of a 96-bit instruction: majors 0x00-0x1F are L class, the rest V class. -/
def decode96 (w : Nat) : Option (Guard × Instr) :=
  let j := w / 4 % 64
  if j < 0x20 then
    match (match j with
      | 0x00 => [some Instr.liw] | 0x01 => lAlu | 0x02 => [some Instr.jmpl] | 0x03 => [some Instr.vshape]
      | 0x04 => [some Instr.fli] | _ => [])[w / 2 ^ 32 % 256]? with
    | some (some c) => some (guardG w, c (lFields w))
    | _ => none
  else (match j with
      | 0x20 => vArith | 0x21 => vSfu | 0x22 => vRed | 0x23 => vMove | 0x24 => vCstr | _ => [])[w / 2 ^ 8 % 32]?.map
    fun c => (guardV w, c (vFields w))

/-- The row and the guard at the low end of `w`, whatever its zero fields and codes hold. -/
def rowOf (w : Nat) : Option (Guard × Instr) :=
  match w % 4 with
  | 0 => (decode32 (w % 2 ^ 32)).map fun i => ({}, i)
  | 1 => decode64 (w % 2 ^ 64)
  | 2 => decode96 (w % 2 ^ 96)
  | _ => none

/-- The instruction at the low end of `w` with its guard, or the decode fault it raises. -/
def decodeWord (w : Nat) : Except Reject (Guard × Instr) :=
  if w % 4 == 3 then .error .undefLength
  else match rowOf w with
    | none => .error .illegalInstr
    | some (g, i) => if Machine.formOk i then .ok (g, i) else .error .illegalInstr

/-- A little-endian number from its bytes (R5). -/
def leNat : List Byte → Nat
  | [] => 0
  | b :: bs => b.toNat + 256 * leNat bs

/-- `n` bytes of a number, little-endian (R5). -/
def leBytes : Nat → Nat → List Byte
  | 0, _ => []
  | n + 1, w => BitVec.ofNat 8 w :: leBytes n (w / 256)

/-- Decode the instruction at the head of a byte list, and give the bytes after it. -/
def decodeBytes (bs : List Byte) : Except Reject (Guard × Instr × List Byte) :=
  match bs with
  | [] => .error .truncated
  | b :: _ =>
    let n := lengthOf b.toNat
    if bs.length < n then .error .truncated
    else match decodeWord (leNat (bs.take n)) with
      | .ok (g, i) => .ok (g, i, bs.drop n)
      | .error r => .error r

/-- The instruction the decoder reads from bits numbered as the opcode table numbers them: bit 0 is the least
significant bit of the first word, and every bit above `nbits` is 0. -/
def decodeTableWord (nbits w : Nat) : Option Instr :=
  match decodeBytes (leBytes 12 (w % 2 ^ nbits)) with
  | .ok (_, i, _) => some i
  | .error _ => none

/-! ### The encoder -/

/-- Fields laid end to end from bit 0 up: (width, value) pairs. -/
def packFields : List (Nat × Nat) → Nat
  | [] => 0
  | (n, v) :: rest => v + 2 ^ n * packFields rest

/-- One bit as a number. -/
def bit (b : Bool) : Nat := if b then 1 else 0

/-- Table 12.2. -/
def packQ (major func : Nat) (f : QFields) : Nat :=
  packFields [(2, 0), (6, major), (4, f.dst.toNat), (4, f.a.toNat), (1, bit f.alast), (4, f.b.toNat),
    (1, bit f.blast), (4, func), (6, f.imm.toNat)]
/-- Table 12.3. -/
def packJ (major : Nat) (f : JFields) : Nat :=
  packFields [(2, 0), (6, major), (4, f.pred.toNat), (20, f.imm.toNat)]
/-- Table 12.4. -/
def packG (g : Guard) (major func : Nat) (f : GFields) : Nat :=
  packFields [(2, 1), (6, major), (8, f.dst.toNat), (8, f.a.toNat), (8, f.b.toNat), (8, func), (4, g.pred.toNat),
    (1, bit g.neg), (1, bit f.lu), (18, f.imm.toNat)]
/-- Table 12.5. -/
def packM (g : Guard) (major : Nat) (f : MFields) : Nat :=
  packFields [(2, 1), (6, major), (8, f.reg.toNat), (8, f.base.toNat), (8, f.aux.toNat), (2, f.width.toNat),
    (1, bit f.sign), (1, bit f.acq), (1, bit f.rel), (3, f.scope.toNat), (4, g.pred.toNat), (1, bit g.neg),
    (1, bit g.pulse), (18, f.off.toNat)]
/-- Table 12.6. -/
def packE (g : Guard) (major func : Nat) (f : EFields) : Nat :=
  packFields [(2, 1), (6, major), (8, f.dst.toNat), (8, f.a.toNat), (8, f.b.toNat), (8, func), (4, g.pred.toNat),
    (1, bit g.neg), (1, bit g.pulse), (6, f.opt.toNat), (12, f.n12.toNat)]
/-- Table 12.7. -/
def packL (g : Guard) (major func : Nat) (f : LFields) : Nat :=
  packFields [(2, 2), (6, major), (8, f.dst.toNat), (8, f.a.toNat), (8, f.b.toNat), (8, func), (4, g.pred.toNat),
    (1, bit g.neg), (1, bit f.lu), (18, f.imm.toNat), (32, f.lit.toNat)]
/-- Table 12.8. -/
def packV (g : Guard) (major func : Nat) (f : VFields) : Nat :=
  packFields [(2, 2), (6, major), (5, func), (1, bit g.pulse), (4, f.ty.toNat), (2, f.rs.toNat), (4, g.pred.toNat),
    (24, f.rd.toNat), (24, f.ra.toNat), (24, f.rb.toNat)]

/-- The bits of an instruction, bit 0 the least significant bit of its first word (R241); none for an event. -/
def encodeNat (g : Guard) : Instr → Option Nat
  | .addQ f => some (packQ 0x0 0 f)
  | .subQ f => some (packQ 0x0 1 f)
  | .andQ f => some (packQ 0x0 2 f)
  | .orQ f => some (packQ 0x0 3 f)
  | .xorQ f => some (packQ 0x0 4 f)
  | .andnQ f => some (packQ 0x0 5 f)
  | .shlQ f => some (packQ 0x0 6 f)
  | .shrQ f => some (packQ 0x0 7 f)
  | .sraQ f => some (packQ 0x0 8 f)
  | .minQ f => some (packQ 0x0 9 f)
  | .maxQ f => some (packQ 0x0 10 f)
  | .minuQ f => some (packQ 0x0 11 f)
  | .maxuQ f => some (packQ 0x0 12 f)
  | .mulQ f => some (packQ 0x0 13 f)
  | .movQ f => some (packQ 0x0 14 f)
  | .addiQ f => some (packQ 0x1 0 f)
  | .andiQ f => some (packQ 0x1 1 f)
  | .oriQ f => some (packQ 0x1 2 f)
  | .xoriQ f => some (packQ 0x1 3 f)
  | .shliQ f => some (packQ 0x1 4 f)
  | .shriQ f => some (packQ 0x1 5 f)
  | .sraiQ f => some (packQ 0x1 6 f)
  | .cmpeqQ f => some (packQ 0x2 0 f)
  | .cmpneQ f => some (packQ 0x2 1 f)
  | .cmpltQ f => some (packQ 0x2 2 f)
  | .cmpgeQ f => some (packQ 0x2 3 f)
  | .cmpltuQ f => some (packQ 0x2 4 f)
  | .cmpgeuQ f => some (packQ 0x2 5 f)
  | .cmpleQ f => some (packQ 0x2 6 f)
  | .cmpgtQ f => some (packQ 0x2 7 f)
  | .movq f => some (packQ 0x3 0 f)
  | .movg f => some (packQ 0x3 1 f)
  | .pand f => some (packQ 0x3 2 f)
  | .por f => some (packQ 0x3 3 f)
  | .pxor f => some (packQ 0x3 4 f)
  | .pnot f => some (packQ 0x3 5 f)
  | .li f => some (packJ 0x4 f)
  | .br f => some (packJ 0x8 f)
  | .jmp f => some (packJ 0x9 f)
  | .jal f => some (packJ 0xA f)
  | .brl f => some (packJ 0xB f)
  | .nop => some (0xFC)
  | .addG f => some (packG g 0x0 0 f)
  | .subG f => some (packG g 0x0 1 f)
  | .andG f => some (packG g 0x0 2 f)
  | .orG f => some (packG g 0x0 3 f)
  | .xorG f => some (packG g 0x0 4 f)
  | .andnG f => some (packG g 0x0 5 f)
  | .shlG f => some (packG g 0x0 6 f)
  | .shrG f => some (packG g 0x0 7 f)
  | .sraG f => some (packG g 0x0 8 f)
  | .minG f => some (packG g 0x0 9 f)
  | .maxG f => some (packG g 0x0 10 f)
  | .minuG f => some (packG g 0x0 11 f)
  | .maxuG f => some (packG g 0x0 12 f)
  | .mulG f => some (packG g 0x0 13 f)
  | .movG f => some (packG g 0x0 14 f)
  | .mulhG f => some (packG g 0x0 15 f)
  | .mulhuG f => some (packG g 0x0 16 f)
  | .divG f => some (packG g 0x0 17 f)
  | .divuG f => some (packG g 0x0 18 f)
  | .remG f => some (packG g 0x0 19 f)
  | .remuG f => some (packG g 0x0 20 f)
  | .rotG f => some (packG g 0x0 21 f)
  | .clzG f => some (packG g 0x0 22 f)
  | .ctzG f => some (packG g 0x0 23 f)
  | .popcG f => some (packG g 0x0 24 f)
  | .sextG f => some (packG g 0x0 25 f)
  | .zextG f => some (packG g 0x0 26 f)
  | .bfxG f => some (packG g 0x0 27 f)
  | .bfiG f => some (packG g 0x0 28 f)
  | .selG f => some (packG g 0x0 29 f)
  | .addiG f => some (packG g 0x1 0 f)
  | .andiG f => some (packG g 0x1 1 f)
  | .oriG f => some (packG g 0x1 2 f)
  | .xoriG f => some (packG g 0x1 3 f)
  | .shliG f => some (packG g 0x1 4 f)
  | .shriG f => some (packG g 0x1 5 f)
  | .sraiG f => some (packG g 0x1 6 f)
  | .addL f => some (packL g 0x1 0 f)
  | .subL f => some (packL g 0x1 1 f)
  | .andL f => some (packL g 0x1 2 f)
  | .orL f => some (packL g 0x1 3 f)
  | .xorL f => some (packL g 0x1 4 f)
  | .andnL f => some (packL g 0x1 5 f)
  | .shlL f => some (packL g 0x1 6 f)
  | .shrL f => some (packL g 0x1 7 f)
  | .sraL f => some (packL g 0x1 8 f)
  | .minL f => some (packL g 0x1 9 f)
  | .maxL f => some (packL g 0x1 10 f)
  | .minuL f => some (packL g 0x1 11 f)
  | .maxuL f => some (packL g 0x1 12 f)
  | .mulL f => some (packL g 0x1 13 f)
  | .mulhL f => some (packL g 0x1 15 f)
  | .mulhuL f => some (packL g 0x1 16 f)
  | .divL f => some (packL g 0x1 17 f)
  | .divuL f => some (packL g 0x1 18 f)
  | .remL f => some (packL g 0x1 19 f)
  | .remuL f => some (packL g 0x1 20 f)
  | .rotL f => some (packL g 0x1 21 f)
  | .sextL f => some (packL g 0x1 25 f)
  | .zextL f => some (packL g 0x1 26 f)
  | .selL f => some (packL g 0x1 29 f)
  | .cmpeqG f i => some (packG g 0x2 (0 + if i then 8 else 0) f)
  | .cmpneG f i => some (packG g 0x2 (1 + if i then 8 else 0) f)
  | .cmpltG f i => some (packG g 0x2 (2 + if i then 8 else 0) f)
  | .cmpgeG f i => some (packG g 0x2 (3 + if i then 8 else 0) f)
  | .cmpltuG f i => some (packG g 0x2 (4 + if i then 8 else 0) f)
  | .cmpgeuG f i => some (packG g 0x2 (5 + if i then 8 else 0) f)
  | .cmpleG f i => some (packG g 0x2 (6 + if i then 8 else 0) f)
  | .cmpgtG f i => some (packG g 0x2 (7 + if i then 8 else 0) f)
  | .fadd f => some (packG g 0x3 0 f)
  | .fsub f => some (packG g 0x3 1 f)
  | .fmul f => some (packG g 0x3 2 f)
  | .fma f => some (packG g 0x3 3 f)
  | .fmin f => some (packG g 0x3 4 f)
  | .fmax f => some (packG g 0x3 5 f)
  | .fsgn f => some (packG g 0x3 6 f)
  | .fcmp f => some (packG g 0x3 7 f)
  | .fcvt f => some (packG g 0x3 8 f)
  | .frcp f => some (packG g 0x4 0 f)
  | .frsq f => some (packG g 0x4 1 f)
  | .frcps f => some (packG g 0x4 2 f)
  | .frsqs f => some (packG g 0x4 3 f)
  | .fexp2 f => some (packG g 0x4 4 f)
  | .flog2 f => some (packG g 0x4 5 f)
  | .mfs f => some (packE g 0x5 0 f)
  | .mts f => some (packE g 0x5 1 f)
  | .mfc f => some (packE g 0x5 2 f)
  | .mtc f => some (packE g 0x5 3 f)
  | .ld f => some (packM g 0x8 f)
  | .st f => some (packM g 0x9 f)
  | .lda f => some (packM g 0xA f)
  | .stl f => some (packM g 0xB f)
  | .amoadd f => some (packM g 0xC f)
  | .amoand f => some (packM g 0xC f)
  | .amoor f => some (packM g 0xC f)
  | .amoxor f => some (packM g 0xC f)
  | .amomin f => some (packM g 0xC f)
  | .amomax f => some (packM g 0xC f)
  | .amoswp f => some (packM g 0xC f)
  | .amocas f => some (packM g 0xC f)
  | .mark => some (packE g 0xD 0 ⟨0, 0, 0, 0, 0⟩)
  | .fence f => some (packE g 0xD 1 f)
  | .cflush f => some (packE g 0xD 2 f)
  | .icinv f => some (packE g 0xD 3 f)
  | .fbar => some (packE g 0xD 4 ⟨0, 0, 0, 0, 0⟩)
  | .prf f => some (packE g 0xD 5 f)
  | .ldp f => some (packE g 0xE 0 f)
  | .stp f => some (packE g 0xE 1 f)
  | .jalr f => some (packG g 0x10 0 f)
  | .loop f => some (packG g 0x11 0 f)
  | .sigdef f => some (packE g 0x14 0 f)
  | .sigdrop f => some (packE g 0x14 1 f)
  | .tick => some (packE g 0x14 2 ⟨0, 0, 0, 0, 0⟩)
  | .tapld f => some (packE g 0x14 3 f)
  | .tapst f => some (packE g 0x14 4 f)
  | .tapstTick f => some (packE g 0x14 4 f)
  | .sighead f => some (packE g 0x14 5 f)
  | .sigrst f => some (packE g 0x14 6 f)
  | .sigseal f => some (packE g 0x14 7 f)
  | .sigevict f => some (packE g 0x14 8 f)
  | .sigpos f => some (packE g 0x14 9 f)
  | .sctx f => some (packE g 0x14 10 f)
  | .push f => some (packE g 0x18 0 f)
  | .wait f => some (packE g 0x18 1 f)
  | .tlread f => some (packE g 0x18 2 f)
  | .fork f => some (packE g 0x18 3 f)
  | .rdv f => some (packE g 0x18 4 f)
  | .evset f => some (packE g 0x18 5 f)
  | .evpulse f => some (packE g 0x18 6 f)
  | .wfe f => some (packE g 0x18 7 f)
  | .sbind f => some (packE g 0x18 8 f)
  | .spawn f => some (packE g 0x19 0 f)
  | .join f => some (packE g 0x19 1 f)
  | .joinBatch f => some (packE g 0x19 1 f)
  | .yield => some (packE g 0x19 2 ⟨0, 0, 0, 0, 0⟩)
  | .done => some (packE g 0x19 3 ⟨0, 0, 0, 0, 0⟩)
  | .gbar f => some (packE g 0x19 4 f)
  | .budget f => some (packE g 0x19 5 f)
  | .eqpush f => some (packE g 0x1A 0 f)
  | .eqcfg f => some (packE g 0x1A 1 f)
  | .eqfire f => some (packE g 0x1A 2 f)
  | .eqpop f => some (packE g 0x1A 3 f)
  | .eqstat f => some (packE g 0x1A 4 f)
  | .gfstep f => some (packE g 0x1B 0 f)
  | .gfstepSet f => some (packE g 0x1B 0 f)
  | .gfmask f => some (packE g 0x1B 1 f)
  | .rply f => some (packE g 0x1B 2 f)
  | .rplyTake f => some (packE g 0x1B 2 f)
  | .embld f => some (packE g 0x1B 3 f)
  | .vrandk f => some (packE g 0x1B 4 f)
  | .tld f => some (packE g 0x1C 0 f)
  | .tst f => some (packE g 0x1C 1 f)
  | .mma f => some (packE g 0x1C 2 f)
  | .mmaz f => some (packE g 0x1C 3 f)
  | .scld f => some (packE g 0x1C 4 f)
  | .nestgo f => some (packE g 0x1C 5 f)
  | .accmov f => some (packE g 0x1C 6 f)
  | .accz f => some (packE g 0x1C 7 f)
  | .tidset f => some (packE g 0x1C 8 f)
  | .tidinv f => some (packE g 0x1C 9 f)
  | .trap f => some (packE g 0x1D 0 f)
  | .eret => some (packE g 0x1D 1 ⟨0, 0, 0, 0, 0⟩)
  | .bkpt f => some (packE g 0x1D 2 f)
  | .tlbinv f => some (packE g 0x1D 3 f)
  | .liw f => some (packL g 0x0 0 f)
  | .jmpl f => some (packL g 0x2 0 f)
  | .vshape f => some (packL g 0x3 0 f)
  | .fli f => some (packL g 0x4 0 f)
  | .vadd f => some (packV g 0x20 0 f)
  | .vsub f => some (packV g 0x20 1 f)
  | .vmul f => some (packV g 0x20 2 f)
  | .vfma f => some (packV g 0x20 3 f)
  | .vmac f => some (packV g 0x20 4 f)
  | .vmin f => some (packV g 0x20 5 f)
  | .vmax f => some (packV g 0x20 6 f)
  | .vabs f => some (packV g 0x20 7 f)
  | .vneg f => some (packV g 0x20 8 f)
  | .vand f => some (packV g 0x20 9 f)
  | .vor f => some (packV g 0x20 10 f)
  | .vxor f => some (packV g 0x20 11 f)
  | .vshl f => some (packV g 0x20 12 f)
  | .vshr f => some (packV g 0x20 13 f)
  | .vsra f => some (packV g 0x20 14 f)
  | .vcvt f => some (packV g 0x20 15 f)
  | .vsel f => some (packV g 0x20 16 f)
  | .vcmp f => some (packV g 0x20 17 f)
  | .vrcp f => some (packV g 0x21 0 f)
  | .vrsq f => some (packV g 0x21 1 f)
  | .vexp f => some (packV g 0x21 2 f)
  | .vlog f => some (packV g 0x21 3 f)
  | .vtanh f => some (packV g 0x21 4 f)
  | .vsum f => some (packV g 0x22 0 f)
  | .vmaxr f => some (packV g 0x22 1 f)
  | .vdraw f => some (packV g 0x22 2 f)
  | .vdrawm f => some (packV g 0x22 3 f)
  | .vscan f => some (packV g 0x22 4 f)
  | .vpopc f => some (packV g 0x22 5 f)
  | .vdot f => some (packV g 0x22 6 f)
  | .vrand f => some (packV g 0x22 7 f)
  | .vcopy f => some (packV g 0x23 0 f)
  | .vfill f => some (packV g 0x23 1 f)
  | .vgather f => some (packV g 0x23 2 f)
  | .vscatter f => some (packV g 0x23 3 f)
  | .vperm f => some (packV g 0x23 4 f)
  | .vexpand f => some (packV g 0x23 5 f)
  | .vfir f => some (packV g 0x23 6 f)
  | .cspush f => some (packV g 0x24 0 f)
  | .cspop f => some (packV g 0x24 1 f)
  | .csroute f => some (packV g 0x24 2 f)
  | .powerInputApplied | .coolantOkAsserted | .railSequenceStep _ | .selfTestDone _ | .perstRelease | .railFault _
  | .throttleUp | .throttleDown | .thermalTrip | .hbmSiteHot _ | .hbmThermalRetirement _ _ | .sensorRefresh _
  | .bootRomCheck | .readSensors | .readModstat | .readCapacity | .setPowerLimit _ | .fwStage _ | .fwActivate _
  | .flashWriteDone | .eventLog | .mailboxUnknownCommand _ | .mailboxResponseRead | .recoveryStage
  | .recoveryStageDone | .recoveryCommit | .patrolScrub _ _ | .remapRequest _ _ _ | .rmctlWrite _ _ | .remapPublish
  | .coreFence _ | .htrWrite _ _ _ | .lmapWrite _ _ _ | .parkWrite _ _ | .portIdlePark _ | .portWakeTrigger _
  | .wakeLockEnd _ _ | .wakeComplete _ | .markerReceived _ _ | .ringLockLoss _ _ | .lanePause _ _ | .data _ _
  | .ack _ _ | .nak _ _ | .portDownTimeout _ | .withdraw _ _ _ _ | .form _ _ _ | .formTimeout _ _
  | .allreduce _ _ _ | .allgather _ _ _ | .redscatter _ _ _ | .alltoall _ _ _ | .drawmerge _ _ _
  | .collectiveBadOp _ _ | .collectiveComplete _ _ | .functionLevelReset _ | .pfReset | .queueEnable _ _ _
  | .queueResume _ _ | .queueAbort _ _ | .queueDrain _ _ | .kick _ _ _ | .kickRefetch _ _
  | .packetFetchResponse _ _ | .launch _ _ _ | .launchUnitCreate _ _ _ | .copy _ _ _ | .tlwait _ _ _
  | .tlwaitSatisfied _ _ _ | .tlsignal _ _ _ | .mapupdate _ _ _ | .fencePacket _ _ _ | .nopkt _ _ _
  | .packetComplete _ _ _ | .swtWrite _ _ _ | .crheadWrite _ _ | .trheadWrite _ _ _ | .itheadWrite _ _
  | .crctlWrite _ _ | .trctlWrite _ _ _ | .itctlWrite _ _ | .dtctlWrite _ _ | .tokenRingTimer _ _ | .fresResume _
  | .fresFail _ | .fresSkip _ | .fresKill _ | .gfbaseWrite _ _ | .bar2Read _ _ _ | .bar2Write _ _ _
  | .atsInvalidation _ _ _ | .priResponse _ _ | .registerWrite _ _ | .walkComplete _ _ | .migrate _ _
  | .exchange _ _ | .promote _ _ | .swapBadOp _ _ | .swapComplete _ _ | .schedulerRound | .sliceStart _ _
  | .checkpointComplete _ _ | .bucketRefill _ | .deadlineMiss _ _ | .budgetExhausted _ _
  | .handlerAllowanceExhausted _ | .regionFirstTouch _ _ | .regionTransferDone _ _ | .geyserRound _
  | .fetchLine _ _ | .loadDataReturn _ _ | .writebackLand _ _ | .copyCmd _ _ | .tileCmd _ _ | .fillCmd _ _
  | .feedCmd _ _ | .copyCmdComplete _ _ | .grammarStep _ | .grammarMask _ | .grammarSet _ | .nestDrain _ _
  | .nestComplete _ _ | .deepBlockReadDone _ _ | .haltQuiescence _ | .traceSync _ | .timelineWaitRelease _ _
  | .gateWaitRelease _ _ | .frontWaitRelease _ _ | .powerInputLost | .uncorrectable _ _ | .ringLockChange _ _
  | .sealedBlockWriteDone _ _ | .vectorUnmask _ _ | .pctlWrite _ _ | .sramRowSparing _ _
  | .atsTranslationCompletion _ _ _ => none

/-- The 32-bit words of an instruction, in address order (R241); no words for an event. -/
def encode (g : Guard) (i : Instr) : List (BitVec 32) :=
  match encodeNat g i with
  | none => []
  | some n => (List.range (lengthOf n / 4)).map fun k => BitVec.ofNat 32 (n / 2 ^ (32 * k))

/-- Words as bytes, each little-endian, the first word at the lowest address (R5, R241). -/
def wordBytes (ws : List (BitVec 32)) : List Byte := ws.flatMap fun w => leBytes 4 w.toNat

end Sys2Proof
end

