-- ==== Sys2Proof/Config.lean ====
section
/-! DEFINITION. What an implementation fixes, and the free values: constants without a body, so that no proof can
see what they are. Each is named in an entry of the assumption log. -/

namespace Sys2Proof.Config

/-- Cores of the module (R9). -/
def cores : Nat := 128
/-- Grid rows and columns (R9). -/
def rows : Nat := 8
/-- Grid columns (R9). -/
def cols : Nat := 16
/-- Compute towers (R9). -/
def towers : Nat := 8
/-- Device contexts, the PF's context 0 included (R47). -/
def contexts : Nat := 65
/-- First core-store offset that instructions may not reach (R134). -/
def csTop : Nat := 0x7F00000
/-- Handler allowance in cycles (R106). -/
def allowance : Nat := 65536

/-- DEVID, a vendor-specific value (R49). Free (assumption 7). -/
opaque devid : BitVec 32
/-- One less than the commands a swap or collective engine holds for a context, which no rule gives. Free
(assumption 20). -/
opaque engineDepth : Nat
/-- A byte whose value the spec calls undefined, by draw number. Free (assumption 2). -/
opaque freeByte : Nat → Byte
/-- A word whose value the spec calls undefined, by draw number. Free (assumption 2). -/
opaque freeWord : Nat → Word
/-- The firmware signature check of R24 and R27 on an image given as bytes. Free (assumption 11). -/
opaque imageSigned : List Byte → Bool
/-- The fixed approximations of R215, R218, R282, R341 and R371 as candidates: function number and f32 input bits to
f32 bits. A candidate outside the spec's bound is never used (assumption 12). -/
opaque approx : Nat → BitVec 32 → BitVec 32

end Sys2Proof.Config
end

