-- ==== Sys2Proof/Machine/State.lean ====
section
/-! DEFINITION. The machine's state as plain data, and the machine right after reset. Each structure says which rules of
the spec name its fields; a field of the model's own says so. -/

namespace Sys2Proof.Machine

/-- A sparse table by number, keys rising, a key that is absent standing for the table's default. -/
abbrev Map (α : Type) := List (Nat × α)

/-- Bytes at addresses, in the canonical form of `Memory.wf` (Machine/Ops.lean). -/
abbrev Memory := List Host.Cell

/-- Why a step stops without a next state. -/
inductive Fault where
  /-- Raised by `step` when the stream that is to issue belongs to no slice: no rule gives a stream without a slice an
  instruction. Safe: the hardware has no such step. -/
  | noSlice
  deriving DecidableEq, Repr

/-- Why an instruction has no meaning. -/
inductive Refusal where
  /-- Raised only by an arm of `exec` for an instruction the model does not give a meaning. Safe. -/
  | notModelled (mnemonic : String)
  deriving DecidableEq, Repr

/-! ### Streams (R131, R162, R288, Table 8.4, Table 12.17) -/

/-- A pending write-back (R162): the register specifier, or the physical slot of a staged register; the value and the
flags it sets; `remaining` issues before it lands. -/
structure WriteBack where
  reg : Nat
  slot : Bool
  value : Word
  flags : BitVec 6
  remaining : Nat
  deriving DecidableEq, Repr

/-- A load whose data has not returned (R300): the key of the destination register in the stream's file, a staged one by
its physical slot, as `WriteBack`; the value it was performed with; its device virtual address and bytes; and the number
of the stream's timeline that its `.pulse` took at issue (R309). -/
structure Load where
  reg : Nat
  slot : Bool
  value : Word
  va : Nat
  bytes : Nat
  pulse : Option Nat
  deriving DecidableEq, Repr

/-- What a stream waits for at its next issue. `cause` is the STALL cause of Table 8.7, R182, R300 or R360; `fifo` is an
element of a stream register (R141); `page` and `transit` carry the kind of the access (Table 4.5). -/
inductive Waiting where
  | cause (n : Nat)
  | fifo (k : Nat)
  | timeline (sel place value : Nat)
  | gate (k : Nat)
  | front (signal sample : Nat)
  | block (signal sample : Nat)
  | seal (signal : Nat)
  | page (address kind : Nat)
  | transit (address kind : Nat)
  | geyser (tower number : Nat)
  | eqstat (tower queue : Nat) (dst : BitVec 8)
  deriving DecidableEq, Repr

/-- Idle, running, or ended by DONE or YIELD (R132, R317). -/
inductive Status where
  | idle
  | running
  | done
  | yielded
  deriving DecidableEq, Repr

/-- The core-wide registers that an instruction uses as they stood when it issued (R294, R349): tile shapes, scale base
and codebook base, and the key and counter of VRAND. -/
structure AtIssue where
  tshp : Map (BitVec 32)
  scbase : BitVec 13
  cbook : BitVec 17
  key : Word
  ctr : Word
  deriving DecidableEq, Repr

/-- A product of two tiles into an accumulator (R362, R363): type, tiles and their shapes, the scales of the columns'
halves, the codebook table, the accumulator, and whether its lanes start from zero. -/
structure Product where
  ty : Nat
  ta : Nat
  tb : Nat
  shapeA : Nat
  shapeB : Nat
  scales : Option (List Nat)
  table : List Byte
  acc : Nat
  zeroing : Bool
  deriving DecidableEq, Repr

/-- One stream's own state, or the handler's (R131, R164, R291). `g` holds g1-g95 by number and the 32 physical staged
slots at 96-127; `qlive` marks the q registers that are not empty; `reason` to `info` are its stop record; `since` is
the cycle its wait began and `pulse` the `.pulse` of what waits; `progress`, `part`, `heads` and `latch` are the region
operation it stands in: elements done, PARTIAL, the heads resolved at its issue, elements taken and not yet used (R161,
R177); `cut` is how many of the taken it keeps over a stop, all of them without one, and `opened` the area descriptors
it read at its issue, by area, 16 for VEXPAND's window (R303); `covered` the stretches of poisoned granules it has
written, in half bytes by `Loc.key` (R88). `served`: the deep blocks it waits for have come; `reported`: the blocks it
has reported (R91). `began` and `atIssue`: the core's cycle, and the control registers, at which the instruction it
stands in issued (R176, R294); `mma`: the product in progress (R363). `entering`: its next fetch must find a function
entry, at the start of a slice or a handler (R245). `replay`: its halted core lets the access that faulted be performed
again (R165). -/
structure Stream where
  status : Status := .idle
  pc : Word := 0
  g : Map Word := []
  q : Map Word := []
  qlive : BitVec 16 := 0
  c : BitVec 16 := 1
  lr : Word := 0
  lpass : Word := 0
  ltrip : Word := 0
  lstage : BitVec 4 := 0
  fflags : BitVec 6 := 0
  dflags : BitVec 3 := 0
  rmode : BitVec 2 := 0
  issue : Nat := 0
  wbs : List WriteBack := []
  loads : List Load := []
  waiting : Option Waiting := none
  since : Nat := 0
  pulse : Bool := false
  progress : Nat := 0
  part : BitVec 256 := 0
  heads : Map Nat := []
  latch : List Word := []
  cut : Option Nat := none
  opened : Map (List Byte) := []
  covered : List (Nat × Nat) := []
  served : Bool := false
  reported : List Nat := []
  began : Option Nat := none
  atIssue : Option AtIssue := none
  mma : Option Product := none
  reason : BitVec 16 := 0
  faulted : Bool := false
  faultPc : Word := 0
  info : Word := 0
  line : Option (Nat × Nat) := none
  matched : Bool := false
  entering : Bool := false
  replay : Bool := false
  deriving DecidableEq, Repr

/-! ### Inside a core (07, 09, 15, 16) -/

/-- An event counter (Table 7.5). -/
structure Counter where
  count : Nat := 0
  thresh : Nat := 1
  en : Bool := false
  sel : Nat := 0
  deriving DecidableEq, Repr

/-- A TLB entry (R75): context, page base and size, and leaf. -/
structure TlbEntry where
  ctx : Nat
  base : Nat
  size : Nat
  leaf : BitVec 64
  deriving DecidableEq, Repr

/-- A copy command in a core's copy queue (R139, R140): its tl.ce number, bytes done (R165), whether it has started and
has read poison, the status it ended with, and the stall it stands in, as cause and first cycle (R168). `held` are the
leaves of the pages it stands within, `pinned` those that a swap marker behind it leaves it (R85, R87). -/
structure CopyCmd where
  ctx : Nat
  number : Nat
  image : List Byte
  started : Bool := false
  poison : Bool := false
  done : Nat := 0
  status : Option Nat := none
  stall : Option (Nat × Nat) := none
  held : List TlbEntry := []
  pinned : List TlbEntry := []
  deriving DecidableEq, Repr

/-- A stream register d0-d7 (R141): the tl.ce numbers of FEEDs bound to it and not ended, and its elements. -/
structure DReg where
  feeds : List Nat := []
  fifo : List Word := []
  deriving DecidableEq, Repr

/-- A reply-queue entry (R372). -/
structure Reply where
  grammar : Bool
  token : BitVec 32
  seq : BitVec 32
  step : BitVec 32
  fail : Bool
  reason : BitVec 16
  deriving DecidableEq, Repr

/-- A sealed or open block of a deep signal that differs from a fresh open one (R187-R193): sealed, its SEALMAP and
survivor bits, the stamp of a seal that reached HBM (R91), where the STAMP of one that has not is to be written, by
`Loc.key`, with its device virtual address, and where a block of refresh-suppressed pages lay when it was sealed, by
`Loc.key` and bytes of each piece. -/
structure Block where
  sealed : Bool := false
  sealmap : BitVec 64 := 0
  surv : BitVec 64 := BitVec.allOnes 64
  stamp : Option Nat := none
  sealing : Option (Nat × Nat) := none
  rs : Option (List (Nat × Nat)) := none
  deriving DecidableEq, Repr

/-- A declared signal (Table 9.1, R172-R193): its entry with the offsets of the entry and of its head, the head, the
elements written of each sample still in the ring with their bits (near rings are not memory, R236), the samples whose
written bit is set, the write front F, the blocks, and `absmax`, the running maxima m_h by 64·block + head. `tainted`:
software stored into its bytes. -/
structure Signal where
  entry : List Byte
  table : Nat
  headAt : Nat
  head : Nat := 0
  samples : Map (Map Nat) := []
  marked : List Nat := []
  front : Nat := 0
  blocks : Map Block := []
  absmax : Map (BitVec 32) := []
  tainted : Bool := false
  deriving DecidableEq, Repr

/-- A resident stream-context descriptor (Table 5.4). -/
structure Descriptor where
  now : Nat := 0
  heads : Nat := 0
  sigtab : Nat := 0
  nsig : Nat := 0
  bcore : Nat := 0
  bound : Bool := false
  deriving DecidableEq, Repr

/-- What a walk returns (R74, R76): a leaf with its level, or a translation fault. -/
inductive WalkResult where
  | leaf (level : Nat) (entry : BitVec 64)
  | fault (reason level : Nat)
  deriving DecidableEq, Repr

/-- What the walk an access raised or joined returned (R76), by who raised it, a stream, the copy engine (7) or a
prefetch (8), context and 64 KiB page, with the access's address and kind. -/
structure Walked where
  requester : Nat
  ctx : Nat
  page : Nat
  result : WalkResult
  va : Nat
  kind : Nat
  deriving DecidableEq, Repr

/-- An access that waits for a walk: core, who raised it as in `Walked`, address and kind. -/
structure Joiner where
  core : Nat
  requester : Nat
  va : Nat
  kind : Nat
  deriving DecidableEq, Repr

/-- A walk in flight (R76): context and 64 KiB page, whether it has met TRANSIT = 1, and the accesses that wait for it.
-/
structure Walking where
  ctx : Nat
  page : Nat
  transit : Bool := false
  joiners : List Joiner := []
  deriving DecidableEq, Repr

/-- A non-leaf entry that a tower's walkers cache (R75): context, level, the virtual address above the level's index,
and the entry. -/
structure NonLeaf where
  ctx : Nat
  level : Nat
  above : Nat
  entry : BitVec 64
  deriving DecidableEq, Repr

/-- A page-fault list entry (Table 4.5). -/
structure PageFault where
  va : Nat
  kind : Nat
  stream : Nat
  reason : Nat
  level : Nat
  deriving DecidableEq, Repr

/-- Who holds a physical core-store region (R135): a record, or the device context whose signals pin it. `moving` marks
a save or restore in progress (R105). -/
structure Region where
  physical : Nat
  index : Nat
  ctx : Nat
  record : Option Nat
  moving : Bool := false
  deriving DecidableEq, Repr

/-- The nest and epilogue registers of one matrix engine (Tables 7.9, 16.3), by control-register number from 0x100. -/
abbrev NestRegs := Map (BitVec 64)

/-- A running nest (R150, R370): captured registers, shapes and tensor entry, NESTGO's address, type and access bits,
its number, the core's cycle at its NESTGO and the head it resolved for a tap region (R176, R177), `scbase` and `cbook`
as they stood there (R294), the stall it stands in, as cause and first cycle, the flattened iteration, the drains made,
row heaps, row triples and status words of excluded rows by global row, and the replies of the last drain that wait for
room (R153). -/
structure Nest where
  regs : NestRegs
  shapeA : BitVec 32
  shapeB : BitVec 32
  tid : List Byte
  type : Nat
  modes : Nat
  number : Nat
  pulse : Bool
  pc : Word
  began : Nat := 0
  head : Nat := 0
  scbase : Nat := 0
  cbook : Nat := 0
  stall : Option (Nat × Nat) := none
  iteration : Nat := 0
  drains : Nat := 0
  heaps : Map (List (BitVec 32 × Nat)) := []
  triples : Map (BitVec 32 × BitVec 32 × BitVec 32) := []
  excluded : Map Nat := []
  owed : List Reply := []
  deriving DecidableEq, Repr

/-- One matrix engine (R149, R369). -/
structure Engine where
  regs : NestRegs := []
  nest : Option Nest := none
  deriving DecidableEq, Repr

/-- The context handler on the origin core (R164): its own stream state, cycles of its allowance used, and whether
BUDGET refused an extension (R319). -/
structure Handler where
  file : Stream
  used : Nat := 0
  refused : Bool := false
  deriving DecidableEq, Repr

/-- The slice a core runs (R102, R133). -/
structure Slice where
  ctx : Nat
  index : Nat
  deriving DecidableEq, Repr

/-- One core (R131-R149, R170-R178, R349). Tile element (i, j) of tN is at 4096·N + 64·i + j, likewise accumulator
lanes. `firstStop` is the stream of the first event since the core last ran; `gbar` counts GBAR arrivals per barrier,
`arrived` the barrier the core stands at; `synced` is the number of the last span of 65,536 cycles that has its SYNC
entry. `tids` are the cached tensor entries of the context `tidCtx`, by identifier, `otherTids` those of others, by
4096·context + identifier (R148); `copyLeaves` are the leaves of the copy command whose bytes the copy engine moves
(R85); `resident` the stream contexts whose descriptors the core holds, by 2^20·context + number (R109); the trace
entries that wait to be written, and how many were lost, stand by context (R168). -/
structure Core where
  cycle : Nat := 0
  slice : Option Slice := none
  streams : Map Stream := []
  handler : Option Handler := none
  halted : Bool := false
  haltTime : Nat := 0
  haltCycle : Nat := 0
  firstStop : Option Nat := none
  faults : List PageFault := []
  vn : BitVec 32 := 0
  vs : Map (BitVec 32) := []
  vo : Map (BitVec 16) := []
  tiles : Map (BitVec 16) := []
  tshp : Map (BitVec 32) := []
  acc : Map (BitVec 36) := []
  accV : BitVec 8 := 0
  accD : BitVec 8 := 0
  accF : BitVec 8 := 0
  accM : BitVec 8 := 0
  scbase : BitVec 13 := 0
  cbook : BitVec 17 := 0
  scales : Map (BitVec 10) := []
  counters : Map Counter := []
  terms : Map (BitVec 32) := []
  gates : Map (BitVec 64) := []
  dregs : Map DReg := []
  key : Word := 0
  ctr : Word := 0
  replies : List Reply := []
  copies : List CopyCmd := []
  tids : Map (List Byte) := []
  tidCtx : Nat := 0
  otherTids : Map (List Byte) := []
  fetched : Map Nat := []
  sctx : Nat := 0
  signals : Map Signal := []
  regions : List Region := []
  resident : List Nat := []
  tlb : List TlbEntry := []
  copyLeaves : List TlbEntry := []
  walked : List Walked := []
  engines : Map Engine := []
  gbar : Map Nat := []
  arrived : Option Nat := none
  lastTrace : Nat := 0
  traceBuffer : List (Nat × List Byte) := []
  traceLost : Map Nat := []
  synced : Nat := 0
  corrected : Nat := 0
  deriving DecidableEq, Repr

/-! ### Towers: Geyser and the grammar engine (06, R155, R374) -/

/-- A queue entry (Table 6.1), with its acceptance order, the spill slot it lies in, whether it was read back from
poison (R125), and whether its JOIN has been taken. -/
structure Entry where
  tick : Word
  gate : BitVec 32
  sctx : Nat
  sig : Nat
  pclass : Nat
  promo : Bool
  crec : Nat
  arrive : Nat
  byp : Nat
  ctx : Nat
  kslot : Nat
  order : Nat
  slot : Nat := 0
  bad : Bool := false
  taken : Bool := false
  deriving DecidableEq, Repr

/-- A Geyser queue (R114-R121): its configuration block (empty: never configured), entries, the pending EQFIRE, firing
number, batch buffers in use with the record that uses each, the entries of each batch, and whether its spill fault was
posted. -/
structure GQueue where
  config : List Byte := []
  onchip : List Entry := []
  spilled : List Entry := []
  forced : Bool := false
  firing : Nat := 0
  buffers : Map Nat := []
  batches : Map (List Entry) := []
  posted : Bool := false
  deriving DecidableEq, Repr

/-- A Geyser command (R378): its issuer, tl.gey number, operation 1-4, queue, address, entry image, and for an
instruction the stream that waits, its destination and whether it is the `.nf` form. -/
structure GeyCmd where
  ctx : Nat
  core : Nat
  number : Nat
  op : Nat
  queue : Nat
  address : Nat
  entry : List Byte
  bad : Bool
  waiter : Option (Nat × Nat)
  dst : BitVec 8
  nf : Bool
  deriving DecidableEq, Repr

/-- A grammar command (R374) of a record, by its SUBMIT number, on a core; `vocab` is GFCTL's at issue for the
instruction form, `none` for a pushed one. `owed` marks one whose effect is done and whose entry waits for room. -/
structure GramCmd where
  ctx : Nat
  core : Nat
  record : Nat
  op : Nat
  notify : Bool
  slot : Nat
  arg : Word
  vocab : Option Nat
  bad : Bool
  owed : Option Reply := none
  deriving DecidableEq, Repr

/-- A run list that a tower's mask cache holds (R155, R374): context, address and bytes. -/
structure MaskRuns where
  ctx : Nat
  address : Nat
  runs : List Byte
  deriving DecidableEq, Repr

/-- A batch whose firing record has ended, by failure or not, while its buffer could not be reached (R74, R125, R126):
its context, queue and buffer, the record's index and UNIT. -/
structure EndedBatch where
  ctx : Nat
  queue : Nat
  buffer : Nat
  index : Nat
  unit : Nat
  failed : Bool
  deriving DecidableEq, Repr

/-- One tower. `walks` are the walks its walkers hold and `nonleaf` what they cache; `killed` are batches of killed
firing records, queue and buffer, to take back (R126), `ended` those of ended ones whose tokens are still to be looked
at; `masks` is the mask cache. -/
structure Tower where
  cycle : Nat := 0
  walks : List Walking := []
  nonleaf : List NonLeaf := []
  commands : List GeyCmd := []
  queues : Map GQueue := []
  order : Nat := 0
  killed : List (Nat × Nat) := []
  ended : List EndedBatch := []
  gram : List GramCmd := []
  slots : Map (BitVec 32 × Bool) := []
  masks : List MaskRuns := []
  deriving DecidableEq, Repr

/-! ### Ports (02) -/

/-- A ring in a wake (R395): its saved code, whether its lock phase has ended, and the trigger that began it (R39). -/
structure Wake where
  ring : Nat
  saved : BitVec 12
  ended : Bool := false
  trigger : Nat := 0
  deriving DecidableEq, Repr

/-- A flit held for replay, with the stripe it was sent on (R35, R38). -/
structure Sent where
  flit : Flit
  width : Nat
  lanes : BitVec 8
  deriving DecidableEq, Repr

/-- One optical port (R29-R39). `base` is the H_need that the working rings of each side (1 receive) share at the
temperature of the self-test, `rise` the kelvin each ring stands above it (R31, R394). `parked` has a bit per parked
ring, `failed` one per ring whose last wake did not lock it (R39); `paused` the lanes the peer asked out of service;
`triggers` counts the wake triggers; `lanes` and `width` are STRIPE of the transmit side, `peerLanes` and `peerWidth`
the stripe the receiver takes flits from. `queue` holds flits that wait for a window, `unacked` those held for replay,
`control` the ACKs and NAKs sent, `delivered` the data handed to the receiving engine. -/
structure Port where
  htr : Map (BitVec 12) := []
  base : Map Ratio := []
  rise : Map Ratio := []
  lmapTx : BitVec 32 := 0x76543210
  lmapRx : BitVec 32 := 0x76543210
  en : BitVec 8 := 0xFF
  drop : BitVec 8 := 0
  parked : BitVec 18 := 0
  failed : BitVec 18 := 0
  waking : List Wake := []
  triggers : Nat := 0
  lanes : BitVec 8 := 0xFF
  width : Nat := 8
  peerLanes : BitVec 8 := 0xFF
  peerWidth : Nat := 8
  paused : BitVec 8 := 0
  maperr : Bool := false
  pctl : BitVec 32 := 0x800A0420
  fecc : Map (BitVec 32) := []
  retry : BitVec 32 := 0
  tsens : BitVec 16 := 0
  queue : List Flit := []
  unacked : List Sent := []
  control : List Flit := []
  delivered : List Flit := []
  nextSeq : BitVec 12 := 0
  expect : BitVec 12 := 0
  replays : Nat := 0
  retrained : Bool := false
  window : Nat := 128
  window1 : Nat := 16
  downSince : Option Nat := none
  deriving DecidableEq, Repr

/-! ### Device contexts (03, 04, 05, 08) -/

/-- A timeline (R140, R308, R309): its value, the last number taken, and numbers done above the value. -/
structure Timeline where
  value : Nat := 0
  taken : Nat := 0
  done : List Nat := []
  deriving DecidableEq, Repr

/-- A packet that has started (R56): index, timeline number, its 64 bytes, the status once its work is over, and for a
LAUNCH the units not yet created, not yet ended, and failed; when it started, and DSLACK then; for a MAPUPDATE the copy
commands ahead of its markers, as core and number. -/
structure Packet where
  index : Nat
  number : Nat
  image : List Byte
  status : Option Nat := none
  running : Bool := false
  uncreated : Nat := 0
  live : Nat := 0
  failed : Nat := 0
  since : Nat := 0
  slack : Nat := 0
  markers : List (Nat × Nat) := []
  deriving DecidableEq, Repr

/-- A submission queue (R54-R63): QSTAT.STATE, ERR, KIGN, RETRIES; HEAD, A and B; the packets started and not complete;
numbers complete above the value; kicks waiting; the kick being re-fetched with the re-fetches made; those made of a
stale packet at HEAD; whether an ABORT waits for the slots of the packets it completes (R63); and the numbers of
completed packets whose interrupt waits until the timeline, and its mirror, cover them (R65). -/
structure Queue where
  state : Nat := 0
  err : Nat := 0
  kign : Bool := false
  retries : Nat := 0
  head : Nat := 0
  accepted : Nat := 0
  base : Nat := 0
  packets : List Packet := []
  line : Timeline := {}
  kicks : List (BitVec 64) := []
  kicking : Option (Nat × BitVec 64) := none
  stale : Option Nat := none
  aborting : Bool := false
  owed : List Nat := []
  deriving DecidableEq, Repr

/-- States of a continuation record (Table 5.3). -/
inductive RecState where
  | waiting
  | ready
  | running
  | draining
  | checkpointed
  | done
  | failed
  deriving DecidableEq, Repr

/-- A continuation record (Table 5.2), its resolved deadline (R98), the records it depends on (R100), the launch packet
or Geyser buffer it was made for, when it last started, whether it is placed and not yet started, the stop it awaits for
a checkpoint (true) or a kill (false), and the EST and PRIO it was submitted with. -/
structure Record where
  code : Nat
  frame : Nat
  join : Nat
  rows : Nat
  cols : Nat
  deadline : Nat
  est : Nat
  budget : Nat
  prio : Nat
  policy : Nat
  sctx : Nat
  state : RecState
  missed : Bool := false
  extended : Bool := false
  limit : Int
  ranges : Nat
  reads : List (Nat × Nat) := []
  writes : List (Nat × Nat) := []
  submit : Nat
  unit : Nat
  home : Option Nat := none
  used : Nat := 0
  preds : List Nat := []
  launch : Option (Nat × Nat) := none
  batch : Option (Nat × Nat × Nat) := none
  started : Nat := 0
  placed : Bool := false
  stopping : Option Bool := none
  est0 : Nat := 0
  prio0 : Nat := 0
  deriving DecidableEq, Repr

/-- The page of a swap command that changes hands (R85): its old leaves with the addresses of their entries, two for an
EXCHANGE, and, once the markers stand in the copy queues, the copies ahead of them, by core and number. -/
structure Transit where
  leaves : List (Nat × Nat)
  ahead : Option (List (Nat × Nat)) := none
  deriving DecidableEq, Repr

/-- A swap command (R82): number, image, issuing core, the pages it has come past and those of them it moved, whether
one held poison, the page in transit, and once its work is over its status, LATE and pages moved. -/
structure SwapCmd where
  number : Nat
  core : Nat
  image : List Byte
  page : Nat := 0
  moved : Nat := 0
  poison : Bool := false
  transit : Option Transit := none
  result : Option (Nat × Bool × Nat) := none
  deriving DecidableEq, Repr

/-- A collective command (R42): number, image, and once its work is over its status. -/
structure ColCmd where
  number : Nat
  image : List Byte
  result : Option Nat := none
  since : Nat := 0
  deriving DecidableEq, Repr

/-- A collective group (R40, R45): its members as (module, context) in ring order; those on this module as (context, the
number it has there); dead after a withdrawal. -/
structure Group where
  members : List (Nat × Nat) := []
  locals : List (Nat × Nat) := []
  dead : Bool := true
  deriving DecidableEq, Repr

/-- A halt of a context (R157-R165): origin core and its event, scope, HSEQ, whether frames are written, and whether it
waits for the driver, arose in the handler or lost a frame; `refused`: BUDGET refused an extension in a handler that was
abandoned (R319). -/
structure Halt where
  origin : Nat
  stream : Nat
  reason : Nat
  info : Word
  cores : List Nat
  hseq : Nat
  quiet : Bool := false
  drv : Bool := false
  nested : Bool := false
  lost : Bool := false
  paging : Bool := false
  refused : Bool := false
  deriving DecidableEq, Repr

/-- An item record (Table 8.6), without PHASE. -/
structure Item where
  reason : Nat
  source : Nat
  core : Nat
  record : Nat
  unit : Nat
  tlsel : Nat
  tlnum : Nat
  addr : Nat
  detail : Nat
  deriving DecidableEq, Repr

/-- A checkpoint slot in use (R105): its number, the record, which core of the gang, that core's saved state, and the
indexes of the regions that the slot's memory holds. -/
structure Slot where
  number : Nat
  record : Nat
  core : Nat
  saved : Core
  regions : List Nat := []
  deriving DecidableEq, Repr

/-- A tier-2 access that waits for the host's ATS answer (R80): core, source of Table 4.5, virtual address and kind. -/
structure Ask where
  core : Nat
  source : Nat
  va : Nat
  kind : Nat
  deriving DecidableEq, Repr

/-- A PRI Page Request Group whose response is outstanding (R80): its pages of I/O virtual addresses, and the cores
whose accesses met them, none for agents of no core. -/
structure PageGroup where
  pages : List Nat
  cores : List Nat := []
  deriving DecidableEq, Repr

/-- A BAR2 access that has not completed (R50): its offset and length, the bytes of a write, and the core whose TLB and
walkers translate it, which no rule names (assumption 2). -/
structure WindowOp where
  offset : Nat
  bytes : Nat
  data : Option (List Byte) := none
  via : Nat := 0
  deriving DecidableEq, Repr

/-- One device context. `regs` holds the writable registers of its page by offset (Tables 3.2-3.6, 4.2, 5.1, 8.5, R148,
R374), an absent one standing for its reset value; the other fields are registers the device writes and the queues
behind them. `window` holds BAR2 accesses that wait, oldest first; `ats` the host's answers for pages of I/O virtual
addresses (none: no translation), `priGroups` the Page Request Groups whose response is outstanding, oldest first.
`itwait` are the item records that wait inside the device, `itheld` those of agents that stall before they post, with
the core's cycle since when (R166). Timelines are keyed by 128·selector + core, or + tower for tl.col, tl.sw and tl.gey;
`descs` are the descriptors of its stream contexts that some core holds (R110); `invalidating` the address and length of
ATS invalidations whose completion waits for accesses, `invalidated` how many completions have been sent (R80). -/
structure Ctx where
  regs : Map (BitVec 64) := []
  queues : Map Queue := []
  killed : Bool := false
  trfull : Bool := false
  crfull : Bool := false
  winfault : Bool := false
  crtail : Nat := 0
  crwait : List (List Byte × Option Nat) := []
  trtail : Map Nat := []
  trcount : Map Nat := []
  trtimer : Map Nat := []
  timelines : Map Timeline := []
  descs : Map Descriptor := []
  records : Map Record := []
  tokens : Nat := 16
  refilled : Nat := 0
  slots : List Slot := []
  halt : Option Halt := none
  hseq : Nat := 0
  pending : List (Nat × Nat) := []
  ittail : Nat := 0
  itfull : Bool := false
  itwait : List Item := []
  itheld : List (Item × Nat) := []
  dtpos : Nat := 0
  dtfull : Bool := false
  groups : Map Group := []
  swaps : Map (List SwapCmd) := []
  cols : Map (List ColCmd) := []
  window : List WindowOp := []
  ats : Map (Option HostTarget) := []
  asked : List Ask := []
  priGroups : List PageGroup := []
  invalidating : List (Nat × Nat) := []
  invalidated : Nat := 0
  deriving DecidableEq, Repr

/-! ### The module (01, 04 R92, R93, 05 R103) -/

/-- The recovery window (Table 1.9). -/
structure Recovery where
  err : Nat := 0
  done : Bool := false
  fail : Bool := false
  busy : Bool := false
  len : BitVec 32 := 0
  ofs : BitVec 32 := 0
  crc : BitVec 32 := 0
  data : Memory := []
  deriving DecidableEq, Repr

/-- A flash write in progress (R24, R28): the image's length, and whether the window started it. -/
structure FlashWrite where
  length : Nat
  window : Bool
  deriving DecidableEq, Repr

/-- A bank-unit retirement request (R93). -/
structure Retirement where
  reason : Nat
  site : Nat
  unit : Nat
  seq : Nat
  deriving DecidableEq, Repr

/-- The module's own state (R11-R28, R40, R41, R92, R93). `started`: the rails have once come up since input power was
applied, so that MTIME counts (assumption 69). `retest`: a rail fault has ended the rail sequence that the last
self-test followed (assumption 29). `tripHeld`: the trigger of Trip has held since (Table 1.3). -/
structure Module where
  input : Bool := false
  coolant : Bool := false
  step : Nat := 0
  stepTime : Nat := 0
  started : Bool := false
  ready : Bool := false
  retest : Bool := false
  perst : Bool := true
  tripHeld : Bool := false
  tripped : Bool := false
  recovery : Bool := false
  bootChecked : Bool := false
  level : Nat := 0
  coolSince : Map Nat := []
  limit : Nat := 3400
  sensors : Readings := ⟨[], [], [], [], 0, 0, [], false⟩
  hot : Bool := false
  hotSince : Map Nat := []
  remapBusy : Bool := false
  replace : Bool := false
  epoch : BitVec 16 := 0
  live : BitVec 128 := BitVec.allOnes 128
  fencing : BitVec 128 := 0
  bamap : Map (BitVec 64) := []
  spares : Nat := 0
  sparesOf : Map Nat := []
  response : Option (List Byte) := none
  refused : Bool := false
  answer : List Byte := []
  staging : Memory := []
  staged : List (Nat × Nat) := []
  flash : Memory := []
  flashLen : Nat := 0
  flashPartial : Bool := false
  writing : Option FlashWrite := none
  window : Recovery := {}
  log : List (List Byte) := []
  logLost : Nat := 0
  retirement : Option Retirement := none
  lastRequest : Option Retirement := none
  confirmed : Bool := false
  retireQueue : List Retirement := []
  modid : BitVec 12 := 0xFFF
  bar2Log : Nat := 30
  routes : Map (BitVec 8) := []
  inband : Nat := 0
  corrected : Map Nat := []
  deriving DecidableEq, Repr

/-- A rectangle reserved for a newcomer (R103). -/
structure Reservation where
  ctx : Nat
  index : Nat
  origin : Nat
  rows : Nat
  cols : Nat
  deriving DecidableEq, Repr

/-- One move of the agenda: a stream's next issue, or an event of the opcode table. -/
inductive Move where
  | issue (core stream : Nat)
  | event (i : Instr)
  deriving DecidableEq, Repr

/-- The whole machine. `agenda`, `curCore`, `curStream`, `free` and `elapsed` are the model's own: the moves that come
next, the stream that issues, the count of free values drawn, and the nanoseconds gone by, which MTIME lags behind by
the time before its start; `guard` is the guard of the instruction that issues. `mem` holds HBM, host memory, peers'
memory and core store by `Loc.key`; `poison` the poisoned 64-byte granules by key div 64. -/
structure State where
  agenda : List Move := []
  curCore : Nat := 0
  curStream : Nat := 0
  guard : Guard := {}
  free : Nat := 0
  elapsed : Nat := 0
  mtime : Nat := 0
  module : Module := {}
  mem : Memory := []
  poison : List Nat := []
  cores : Map Core := []
  towers : Map Tower := []
  ports : Map Port := []
  ctxs : Map Ctx := []
  submits : Nat := 0
  reserved : List Reservation := []
  lent : BitVec 128 := 0
  irqs : List (Nat × Nat) := []
  masked : List (Nat × Nat) := []
  msixPending : List (Nat × Nat) := []
  readData : Option (List Byte) := none
  deriving DecidableEq, Repr

/-- The machine right after reset: no input power yet, every register at its reset value or at the value the assumption
log names, memory with nothing listed, every stream idle. -/
def State.reset : State := {}

end Sys2Proof.Machine
end

