-- ==== Sys2Proof/Machine/Maps.lean ====
section
/-! DEFINITION. Sparse tables, memory as bytes at addresses, and the bit and byte helpers every other file uses. -/

namespace Sys2Proof.Machine

/-! ### Tables -/

/-- The value at key `k`, or the default `d`. -/
def look {α : Type} (d : α) : Map α → Nat → α
  | [], _ => d
  | (j, v) :: rest, k => if j == k then v else look d rest k

/-- The value at key `k`, if listed. -/
def find {α : Type} : Map α → Nat → Option α
  | [], _ => none
  | (j, v) :: rest, k => if j == k then some v else find rest k

/-- The table with `v` at key `k`, keys kept rising. -/
def put {α : Type} : Map α → Nat → α → Map α
  | [], k, v => [(k, v)]
  | (j, w) :: rest, k, v =>
    if k < j then (k, v) :: (j, w) :: rest
    else if j == k then (k, v) :: rest
    else (j, w) :: put rest k v

/-- The table without key `k`. -/
def erase {α : Type} : Map α → Nat → Map α
  | [], _ => []
  | (j, w) :: rest, k => if j == k then rest else (j, w) :: erase rest k

/-- Apply `f` to the value at `k`. -/
def adjust {α : Type} (d : α) (m : Map α) (k : Nat) (f : α → α) : Map α := put m k (f (look d m k))

/-! ### Numbers and bits -/

/-- `w` bits of `v` from bit `lo`. -/
def field (v lo w : Nat) : Nat := v / 2 ^ lo % 2 ^ w

/-- Bit `i` of `v`. -/
def flag (v i : Nat) : Bool := v / 2 ^ i % 2 == 1

/-- `v` with the `w` bits from bit `lo` replaced by `x`. -/
def setField (v lo w x : Nat) : Nat := v - field v lo w * 2 ^ lo + x % 2 ^ w * 2 ^ lo

/-- One bit as a number. -/
def bit01 (b : Bool) : Nat := if b then 1 else 0

/-- The two's complement reading of the low `w` bits of `v` (R197). -/
def signed (w v : Nat) : Int :=
  let x := v % 2 ^ w
  if 2 * x < 2 ^ w then x else (x : Int) - 2 ^ w

/-- An integer reduced to `w` bits (R198). -/
def unsigned (w : Nat) (x : Int) : Nat := (x % 2 ^ w).toNat

/-- A number as a word. -/
def word (n : Nat) : Word := BitVec.ofNat 64 n

/-- `n` rounded up to a multiple of `m`. -/
def roundUp (n m : Nat) : Nat := (n + m - 1) / m * m

/-- Position of bit `i` among the set bits of `v`: how many set bits lie below it. -/
def rankBelow (v : Nat) : Nat → Nat
  | 0 => 0
  | i + 1 => rankBelow v i + bit01 (flag v i)

/-- Set bits of a number of `w` bits. -/
def popcount (w v : Nat) : Nat := rankBelow v w

/-- The numbers below `n` for which `p` holds, in order. -/
def below (n : Nat) (p : Nat → Bool) : List Nat := (List.range n).filter p

/-- The first number below `n` for which `p` holds. -/
def firstBelow (n : Nat) (p : Nat → Bool) : Option Nat := (List.range n).find? p

/-! ### Bytes -/

/-- A number from little-endian bytes (R5). -/
def fromBytes : List Byte → Nat
  | [] => 0
  | b :: bs => b.toNat + 256 * fromBytes bs

/-- The low `n` bytes of a number, little-endian (R5). -/
def toBytes : Nat → Nat → List Byte
  | 0, _ => []
  | n + 1, v => BitVec.ofNat 8 v :: toBytes n (v / 256)

/-- Bytes `at` to `at + n - 1` of an image as a number; a byte past its end reads 0. -/
def imageAt (im : List Byte) (at_ n : Nat) : Nat := fromBytes ((im.drop at_).take n)

/-- Whether bytes `at` to `at + n - 1` of an image are all zero. -/
def zeroAt (im : List Byte) (at_ n : Nat) : Bool := imageAt im at_ n == 0

/-- `bs` in place of the bytes from `at` on. -/
def overlay (im : List Byte) (at_ : Nat) (bs : List Byte) : List Byte :=
  im.take at_ ++ bs ++ im.drop (at_ + bs.length)

/-! ### Memory -/

/-- What a byte that nothing has written reads as: zero. In core store by R135; elsewhere a DESIGN CHOICE
(assumption 10). -/
def blankByte : Byte := 0

/-- The canonical form: addresses strictly rising, and no entry equal to what an unlisted address reads as. -/
def Memory.wf : Memory → Bool
  | [] => true
  | [(_, b)] => b != blankByte
  | (a, b) :: (a', b') :: rest => b != blankByte && decide (a < a') && Memory.wf ((a', b') :: rest)

/-- The byte at an address. -/
def readByte (m : Memory) (a : Nat) : Byte := look blankByte m a

/-- Memory with a byte written; writing what an unlisted address reads as removes the entry. -/
def writeByte (m : Memory) (a : Nat) (b : Byte) : Memory := if b == blankByte then erase m a else put m a b

/-- `n` bytes from address `a`. -/
def readBytes (m : Memory) : Nat → Nat → List Byte
  | _, 0 => []
  | a, n + 1 => readByte m a :: readBytes m (a + 1) n

/-- Memory with bytes written from address `a` on. -/
def writeBytes (m : Memory) : Nat → List Byte → Memory
  | _, [] => m
  | a, b :: bs => writeBytes (writeByte m a b) (a + 1) bs

/-- Memory with every byte of `[a, a + n)` unlisted. -/
def clearRange (m : Memory) (a n : Nat) : Memory := m.filter fun (k, _) => k < a || a + n ≤ k

/-- The listed bytes of `[a, a + n)`, with addresses counted from `b`. -/
def moveRange (m : Memory) (a n b : Nat) : Memory :=
  (m.filter fun (k, _) => a ≤ k && k < a + n).map fun (k, v) => (k - a + b, v)

/-- Memory with the cells of `cells` written, none of them blank. -/
def writeCells (m : Memory) (cells : Memory) : Memory := cells.foldl (fun m c => writeByte m c.1 c.2) m

/-- A place a byte lives: local HBM (R68), a core's physical core store (R134), a peer module's HBM, host memory by I/O
virtual address under a PASID (R81), a register of the PF's BAR0 reached through a tier-2 page, or nowhere, the platform
refusing the request (R393). -/
inductive Loc where
  | hbm (pa : Nat)
  | store (core : Nat) (offset : Nat)
  | peer (module pa : Nat)
  | host (pasid va : Nat)
  | bar0 (offset : Nat)
  | refused
  deriving DecidableEq, Repr

/-- The one address space that `State.mem` is keyed by: the spaces laid side by side. A tier-1 frame is taken modulo
2^42, and every unit of a peer as live: the spec states neither (assumption 56, DESIGN CHOICE). -/
def Loc.key : Loc → Nat
  | .hbm pa => pa % 2 ^ 42
  | .store core offset => 2 ^ 48 + core % 128 * 2 ^ 27 + offset % 2 ^ 27
  | .peer module pa => 2 ^ 56 + module % 4096 * 2 ^ 42 + pa % 2 ^ 42
  | .host pasid va => 2 ^ 90 + pasid % 2 ^ 20 * 2 ^ 64 + va % 2 ^ 64
  | .bar0 offset => 2 ^ 112 + offset
  | .refused => 2 ^ 120

/-- `n` bytes at a location, 0xFF for every byte of a poisoned granule (R88) and of a refused request (R393). -/
def readAt (s : State) (l : Loc) (n : Nat) : List Byte :=
  if l == .refused then List.replicate n 0xFF
  else if s.poison.isEmpty then readBytes s.mem l.key n
  else (List.range n).map fun i =>
    if s.poison.contains ((l.key + i) / 64) then 0xFF else readByte s.mem (l.key + i)

/-- Whether `n` bytes at a location touch a poisoned granule, or are refused. -/
def poisonedAt (s : State) (l : Loc) (n : Nat) : Bool :=
  (l == .refused && 0 < n) || s.poison.any fun g => l.key / 64 ≤ g && g ≤ (l.key + n - 1) / 64 && 0 < n

/-- Bytes written at a location; a granule written whole loses its poison, a granule written in part keeps it (R88); a
refused write goes nowhere. -/
def writeAt (s : State) (l : Loc) (bs : List Byte) : State :=
  if l == .refused then s
  else { s with
    mem := writeBytes s.mem l.key bs
    poison := s.poison.filter fun g => !(l.key ≤ 64 * g && 64 * g + 64 ≤ l.key + bs.length) }

/-- `n` bytes at one address take what those at another hold, their poison with them. -/
def relocate (s : State) (a b n : Nat) : State :=
  { s with
    mem := writeCells (clearRange s.mem b n) (moveRange s.mem a n b)
    poison := (s.poison.filter fun g => !(b ≤ 64 * g && 64 * g < b + n)) ++
      (s.poison.filter fun g => a ≤ 64 * g && 64 * g < a + n).map fun g => g - a / 64 + b / 64 }

end Sys2Proof.Machine
end

