-- ==== Sys2Proof/Machine/Device.lean ====
section
/-! DEFINITION. Reading and updating the parts of the state by number, interrupts, the management event log, and the
module's capacity figures (R18-R26, R47, R67, R68). -/

namespace Sys2Proof.Machine

/-! ### Parts by number -/

/-- Core `c`. -/
def coreOf (s : State) (c : Nat) : Core := look {} s.cores c
/-- The state with core `c` replaced. -/
def setCore (s : State) (c : Nat) (v : Core) : State := { s with cores := put s.cores c v }
/-- The state with core `c` changed by `f`. -/
def onCore (s : State) (c : Nat) (f : Core → Core) : State := setCore s c (f (coreOf s c))
/-- Stream `i` of a core. -/
def streamOf (k : Core) (i : Nat) : Stream := look {} k.streams i
/-- The state with stream `i` of core `c` changed by `f`. -/
def onStream (s : State) (c i : Nat) (f : Stream → Stream) : State :=
  onCore s c fun k => { k with streams := put k.streams i (f (streamOf k i)) }
/-- Tower `t`. -/
def towerOf (s : State) (t : Nat) : Tower := look {} s.towers t
/-- The state with tower `t` changed by `f`. -/
def onTower (s : State) (t : Nat) (f : Tower → Tower) : State :=
  { s with towers := put s.towers t (f (towerOf s t)) }
/-- Port `p`. -/
def portOf (s : State) (p : Nat) : Port := look {} s.ports p
/-- The state with port `p` changed by `f`. -/
def onPort (s : State) (p : Nat) (f : Port → Port) : State := { s with ports := put s.ports p (f (portOf s p)) }
/-- Context `c`. -/
def ctxOf (s : State) (c : Nat) : Ctx := look {} s.ctxs c
/-- The state with context `c` changed by `f`. -/
def onCtx (s : State) (c : Nat) (f : Ctx → Ctx) : State := { s with ctxs := put s.ctxs c (f (ctxOf s c)) }
/-- The state with the module changed by `f`. -/
def onModule (s : State) (f : Module → Module) : State := { s with module := f s.module }

/-- Row and column of a core (R9). -/
def coreRow (c : Nat) : Nat := c / 16
/-- Column of a core (R9). -/
def coreCol (c : Nat) : Nat := c % 16
/-- The tower of a core (R9): 4·tr + tc. -/
def towerOfCore (c : Nat) : Nat := coreRow c / 4 * 4 + coreCol c / 4

/-! ### Context-page registers (Tables 3.2-3.6, 4.2, 5.1, 8.5, 16.3) -/

/-- Reset value of a context-page register that software can write. -/
def ctxReset (off : Nat) : BitVec 64 :=
  if off < 0x1000 && off % 0x40 == 8 then 4
  else if 0x1C00 ≤ off && off < 0x1E00 && off % 0x20 == 8 then 0x202004
  else match off with
    | 0x1810 => 4
    | 0x1828 => 1000000
    | 0x185C => 0x100003E8
    | 0x18B0 => 4
    | 0x18C8 => 16
    | 0x1E18 => 64
    | _ => 0

/-- A writable register of a context page. -/
def reg (c : Ctx) (off : Nat) : Nat := (look (ctxReset off) c.regs off).toNat

/-- The context with a register set. -/
def setReg (c : Ctx) (off v : Nat) : Ctx := { c with regs := put c.regs off (BitVec.ofNat 64 v) }

/-- The PASID of a context (Table 3.4). -/
def pasid (c : Ctx) : Nat := field (reg c 0x1820) 0 20

/-! ### Interrupts (R47, R67) -/

/-- Raise MSI-X vector `vec` of function `fn`, taken modulo the function's table; a masked vector sets its pending
bit. -/
def raiseIrq (s : State) (fn vec : Nat) : State :=
  let v := (fn, vec % (if fn == 0 then 2048 else 32))
  if s.masked.contains v then
    if s.msixPending.contains v then s else { s with msixPending := s.msixPending ++ [v] }
  else { s with irqs := s.irqs ++ [v] }

/-! ### Clocks and links -/

/-- Whether the arithmetic clock runs: every rail is up and no Trip has stopped it (R12, R14). -/
def clockRuns (s : State) : Bool := s.module.step == 4 && !s.module.tripped

/-- Whether the host reaches the module: the rails are up, PCIe reset is released, and the self-test of this rail
sequence has let link training complete, in recovery too (R12, R27). -/
def linkUp (s : State) : Bool := s.module.step == 4 && !s.module.perst && s.module.ready

/-! ### The event log (R26) -/

/-- Add an entry of the event log, its time 0 before MTIME starts; a full log drops its oldest entry and counts it. -/
def logEvent (s : State) (code detail : Nat) : State :=
  onModule s fun m =>
    let e := toBytes 8 (if m.started then s.mtime else 0) ++ toBytes 2 code ++ toBytes 2 detail
    if m.log.length < 1024 then { m with log := m.log ++ [e] }
    else { m with log := m.log.drop 1 ++ [e], logLost := m.logLost + 1 }

/-! ### Capacity (R19-R21, R68, R69) -/

/-- BAMAP[site]: live bank units. Before the self-test all live (assumption 4). -/
def bamapOf (s : State) (site : Nat) : Nat := (look (BitVec.allOnes 64) s.module.bamap site).toNat

/-- Whether a local physical address is live (R68). -/
def live (s : State) (pa : Nat) : Bool := pa < 2 ^ 42 && flag (bamapOf s (pa / 2 ^ 37)) (pa / 2 ^ 31 % 64)

/-- Whether core `c` is live. -/
def coreLive (s : State) (c : Nat) : Bool := c < 128 && flag s.module.live.toNat c

/-- CAPACITY.CORES_LIVE. -/
def coresLive (s : State) : Nat := popcount 128 s.module.live.toNat

/-- CAPACITY.HBM_GIB: 2 GiB for every live unit (R69). -/
def hbmGib (s : State) : Nat := 2 * ((List.range 32).map fun k => popcount 64 (bamapOf s k)).sum

/-- Spare SRAM rows left in a core-store bank (64 banks for each core). -/
def sparesOf (s : State) (bank : Nat) : Nat := look s.module.spares s.module.sparesOf bank

/-- CAPACITY.SRAM_SPARE_MIN: the fewest spare rows of any bank. -/
def spareMin (s : State) : Nat := s.module.sparesOf.foldl (fun a e => Nat.min a e.2) s.module.spares

/-- CAPACITY.LAMBDA_LIVE: wavelengths not dropped. A wavelength with PARK.EN = 0, which Table 2.5 does not permit in
service, is still counted: R20 lowers the figure for a dropped wavelength alone (assumption 4, DESIGN CHOICE). -/
def lambdaLive (s : State) : Nat := 512 - (s.ports.map fun p => popcount 8 p.2.drop.toNat).sum

/-- CAPACITY (Table 1.5). -/
def capacity (s : State) : Nat :=
  lambdaLive s * 2 ^ 54 + Nat.min (spareMin s) 16383 * 2 ^ 40 + hbmGib s * 2 ^ 27 + coresLive s * 2 ^ 16 +
    s.module.epoch.toNat

/-- MODSTAT (Table 1.4). -/
def modstat (s : State) : Nat :=
  let m := s.module
  m.level % 16 * 2 ^ 12 + bit01 m.recovery * 2 ^ 11 + bit01 m.coolant * 2 ^ 10 + bit01 m.hot * 2 ^ 9 +
    bit01 m.remapBusy * 2 ^ 8 + bit01 m.replace * 2 + bit01 m.ready

/-- A new capacity epoch (R19). -/
def newEpoch (s : State) : State := onModule s fun m => { m with epoch := m.epoch + 1 }

/-- Set REPLACE_REQUESTED: once, with one management event and one module event (R21, R92). -/
def setReplace (s : State) : State :=
  if s.module.replace then s
  else
    let s := onModule s fun m => { m with replace := true, inband := m.inband + 1 }
    raiseIrq (logEvent s 0x0004 0) 0 2047

/-- Whether a condition of R21 on banks, cores or SRAM rows holds. -/
def replaceDue (s : State) : Bool :=
  ((List.range 32).any fun k => popcount 64 (bamapOf s k) < 56) || coresLive s < 124 ||
    (s.module.ready && spareMin s < 4)

/-- Evaluate R21. -/
def checkReplace (s : State) : State := if replaceDue s then setReplace s else s

/-! ### Free values -/

/-- The next free word, and the state that has drawn it (assumption 2). -/
def drawWord (s : State) : Word × State := (Config.freeWord s.free, { s with free := s.free + 1 })

/-- `n` free bytes (assumption 2). -/
def drawBytes (s : State) (n : Nat) : List Byte × State :=
  ((List.range n).map fun i => Config.freeByte (s.free + i), { s with free := s.free + n })

end Sys2Proof.Machine
end

