-- ==== Sys2Proof/Machine/Ports.lean ====
section
/-! DEFINITION. The optical ports: rings and heaters, the register window, striping, parking and waking, and link-level
retry (02, R393-R395). -/

namespace Sys2Proof.Machine

/-! ### Rings (R31, R394, R395) -/

/-- The ring of transmit wavelength `n`. -/
def txRing (p : Port) (n : Nat) : Nat := field p.lmapTx.toNat (4 * n) 4
/-- The ring of receive wavelength `n`. -/
def rxRing (p : Port) (n : Nat) : Nat := 9 + field p.lmapRx.toNat (4 * n) 4
/-- Whether ring `k` carries a wavelength. -/
def ringMapped (p : Port) (k : Nat) : Bool :=
  (List.range 8).any fun n => if k < 9 then txRing p n == k else rxRing p n == k
/-- Whether ring `k` is in a wake whose lock phase has not ended. -/
def ringWaking (p : Port) (k : Nat) : Bool := p.waking.any fun w => w.ring == k && !w.ended
/-- Whether ring `k` is parked, the time until a wake's lock phase ends included. -/
def ringParked (p : Port) (k : Nat) : Bool := flag p.parked.toNat k
/-- HTR[k]. -/
def heater (p : Port) (k : Nat) : Nat := (look 0 p.htr k).toNat
/-- The driven code D[k] (R31): the heater code of a mapped ring that is not parked or is waking, else 0. -/
def driven (p : Port) (k : Nat) : Nat :=
  if ringMapped p k && (!ringParked p k || ringWaking p k) then heater p k else 0
/-- The nearest integer to `n / d`, ties to even. -/
def rneDiv (n : Int) (d : Nat) : Int :=
  let q := n / d
  let r := 2 * (n - q * d)
  if r < d then q else if (d : Int) < r then q + 1 else if q % 2 == 0 then q else q + 1
/-- Side of a ring: 0 transmit, 1 receive. -/
def ringSide (k : Nat) : Nat := k / 9
/-- H_need of ring `k` (R31, R394): that of its side's working rings, 1200 codes more for a spare, and 50 codes less for
every kelvin the ring stands above the self-test's temperature (assumption 8 before the self-test). -/
def needOf (p : Port) (k : Nat) : Ratio :=
  let b := look ⟨0, 1⟩ p.base (ringSide k)
  let r := look ⟨0, 1⟩ p.rise k
  let bd := Nat.max b.den 1
  let rd := Nat.max r.den 1
  ⟨(b.num + (if k % 9 == 8 then 1200 else 0) * bd) * rd - 50 * r.num * bd, bd * rd⟩
/-- PDM[k] (R31): the exact detuning clamped, doubled and rounded once. -/
def pdm (p : Port) (k : Nat) : Nat :=
  let h := needOf p k
  let den := Nat.max h.den 1
  let x := h.num - driven p k * den
  let y := if x < -512 * (den : Int) then -1024 else if 511 * (den : Int) < x then 1022 else rneDiv (2 * x) den
  (2048 + y).toNat
/-- LSTAT.LOCK[k]: mapped, not parked, within 8 of resonance. -/
def ringLocked (p : Port) (k : Nat) : Bool :=
  ringMapped p k && !ringParked p k && 2040 ≤ pdm p k && pdm p k ≤ 2056

/-! ### Stripes (R37, R38) -/

/-- PARK.ASLEEP[n]. -/
def asleep (p : Port) (n : Nat) : Bool := ringParked p (txRing p n)
/-- Whether wavelength `n` is usable (R37); a lane the peer paused is not (R38). -/
def usable (p : Port) (n : Nat) : Bool :=
  flag p.en.toNat n && !flag p.drop.toNat n && !asleep p n && !(p.waking.any fun w => w.ring == txRing p n) &&
    ringLocked p (txRing p n) && !flag p.paused.toNat n
/-- The stripe width for a number of usable wavelengths (R37). Table 1.3 has throttle level 4 park all ports to stripe
width 2; the model bounds W to 2 and leaves the rings of the other lanes unparked (assumption 71, DESIGN CHOICE). -/
def widthFor (level usable : Nat) : Nat :=
  let w := if 8 ≤ usable then 8 else if 4 ≤ usable then 4 else if 2 ≤ usable then 2 else 0
  if level == 4 then Nat.min w 2 else w
/-- A lane mask from lane numbers. -/
def laneMask (ls : List Nat) : BitVec 8 := BitVec.ofNat 8 (ls.map fun n => 2 ^ n).sum
/-- A flit the port makes itself. -/
def ownFlit (p : Port) (type : Nat) (vc : Bool) (spec : Nat) : Flit :=
  ⟨BitVec.ofNat 4 type, vc, 0, p.nextSeq, p.expect - 1, BitVec.ofNat 24 spec, []⟩
/-- The stripe a MARKER announces (Table 2.10): its width and its lanes. -/
def markerStripe (f : Flit) : Nat × BitVec 8 := (field f.spec.toNat 0 4, BitVec.ofNat 8 (field f.spec.toNat 8 8))
/-- Whether a flit may be put on the link: the replay buffer and its channel's window have room, no earlier flit of its
channel waits, and the port is up or the flit is a MARKER, which brings it up (R35, R36, assumption 30). -/
def mayLeave (p : Port) (f : Flit) : Bool :=
  p.unacked.length < 256 && 0 < (if f.vc then p.window1 else p.window) && !p.queue.any (fun q => q.vc == f.vc) &&
    (p.width != 0 || f.type == 2)
/-- Put a flit on the link on the present stripe, or leave it queued; what follows a MARKER goes on the stripe it
announces (R35, R36, R38). The MARKER of a port that is down, whose old stripe has no lane, travels on the lanes it
announces (assumption 30, DESIGN CHOICE). -/
def sendFlit (p : Port) (f : Flit) : Port :=
  if mayLeave p f then
    let stripe := if f.type == 2 then markerStripe f else (p.width, p.lanes)
    let on := if p.width == 0 then stripe else (p.width, p.lanes)
    { p with
      unacked := p.unacked ++ [⟨{ f with seq := p.nextSeq, ackseq := p.expect - 1 }, on.1, on.2⟩]
      nextSeq := p.nextSeq + 1
      window := p.window - bit01 (!f.vc)
      window1 := p.window1 - bit01 f.vc
      width := stripe.1
      lanes := stripe.2 }
  else { p with queue := p.queue ++ [f] }
/-- Since when the port has been down, kept while it is. -/
def settleDown (now : Nat) (p : Port) : Port :=
  { p with downSince := if p.width == 0 then some (p.downSince.getD now) else none }
/-- The stripe a port has announced last: that of a MARKER that still waits, else the present one. -/
def announced (p : Port) : Nat × BitVec 8 :=
  match p.queue.find? fun f => f.type == 2 with
  | some f => markerStripe f
  | none => (p.width, p.lanes)
/-- The stripe the usable wavelengths give (R37). -/
def wantedStripe (level : Nat) (p : Port) : Nat × BitVec 8 :=
  let us := below 8 (usable p)
  let w := widthFor level us.length
  (w, laneMask (us.take w))
/-- Form the stripe anew (R38): a change is announced by a MARKER with the new width and lane mask, sent on the old
stripe, in the place of one that has not left. With fewer than two usable wavelengths the port is down at once (R37). -/
def restripe (now level : Nat) (p : Port) : Port :=
  let t := wantedStripe level p
  if t == announced p then p
  else
    let p := sendFlit { p with queue := p.queue.filter fun f => f.type != 2 } (ownFlit p 2 false (t.1 + t.2.toNat * 256))
    settleDown now (if t.1 == 0 then { p with width := 0, lanes := 0 } else p)
/-- Restripe port `i`. -/
def restripePort (s : State) (i : Nat) : State := onPort s i (restripe s.mtime s.module.level)

/-! ### Parking and waking (R30, R37, R39, R395) -/

/-- Park a ring. -/
def parkRing (p : Port) (k : Nat) : Port := { p with parked := p.parked ||| BitVec.ofNat 18 (2 ^ k) }
/-- Start the wake of a ring: its heater is restored to the saved code (Table 2.11). -/
def wakeRing (p : Port) (k : Nat) : Port :=
  if p.waking.any fun w => w.ring == k then p
  else { parkRing p k with
    failed := p.failed &&& ~~~ BitVec.ofNat 18 (2 ^ k), waking := p.waking ++ [⟨k, look 0 p.htr k, false, p.triggers⟩] }
/-- The rings of lanes in service that a wake has failed to lock: the next trigger tries them again (R39). -/
def failedRings (p : Port) : List Nat :=
  below 18 fun k => flag p.failed.toNat k &&
    (if k < 9 then (List.range 8).any fun n => txRing p n == k && flag p.en.toNat n else ringMapped p k)
/-- One wake trigger of some rings and of those that failed before. -/
def trigger (p : Port) (ks : List Nat) : Port :=
  { (ks ++ failedRings p).foldl wakeRing p with triggers := p.triggers + 1 }
/-- Wake every parked transmit wavelength whose EN bit is 1 (R37); a trigger also ends the peer's pauses
(assumption 13). -/
def wakeParked (p : Port) : Port :=
  trigger { p with paused := 0 } ((below 8 fun n => asleep p n && flag p.en.toNat n).map (txRing p))
/-- A ring that did not lock: its saved code again, parked, to be tried at the next trigger (R39, R395). -/
def wakeFailed (p : Port) (w : Wake) : Port :=
  { p with
    htr := put p.htr w.ring w.saved
    failed := p.failed ||| BitVec.ofNat 18 (2 ^ w.ring)
    waking := p.waking.filter fun v => v.ring != w.ring }
/-- The end of a ring's lock phase (R395): HTR at the code where d = 0 if it lies in 0-4095 (to the nearest whole code,
assumption 14), else the saved code and parked again. -/
def lockEnd (p : Port) (k : Nat) : Port :=
  match p.waking.find? fun w => w.ring == k && !w.ended with
  | none => p
  | some w =>
    let h := needOf p k
    let code := rneDiv h.num (Nat.max h.den 1)
    if 0 ≤ code && code ≤ 4095 then
      { p with
        htr := put p.htr k (BitVec.ofNat 12 code.toNat)
        parked := p.parked &&& ~~~ BitVec.ofNat 18 (2 ^ k)
        waking := p.waking.map fun v => if v.ring == k then { v with ended := true } else v }
    else wakeFailed p w
/-- The end of the wake of the earliest trigger: a ring of it that has not locked stays parked; a ring that a later
trigger began goes on (R39, R395). -/
def wakeEnd (p : Port) : Port :=
  match p.waking with
  | [] => p
  | w :: _ =>
    let p := (p.waking.filter fun v => v.trigger == w.trigger && !v.ended).foldl wakeFailed p
    { p with waking := p.waking.filter fun v => v.trigger != w.trigger }

/-! ### The register window (R29, Tables 2.1-2.9) -/

/-- A read of a port register; an offset that is not listed reads as zero. -/
def portRead (p : Port) (off : Nat) : Nat :=
  if off % 4 != 0 then 0
  else if off < 0x48 then heater p (off / 4)
  else if 0x100 ≤ off && off < 0x148 then pdm p ((off - 0x100) / 4)
  else if 0x220 ≤ off && off < 0x240 then (look 0 p.fecc ((off - 0x220) / 4)).toNat
  else match off with
    | 0x200 => p.lmapTx.toNat
    | 0x208 => p.lmapRx.toNat
    | 0x210 => (laneMask (below 8 (asleep p))).toNat * 2 ^ 16 + p.drop.toNat * 2 ^ 8 + p.en.toNat
    | 0x214 => p.lanes.toNat * 2 ^ 8 + p.width
    | 0x218 => bit01 p.maperr * 2 ^ 31 + ((below 18 (ringLocked p)).map fun k => 2 ^ k).sum
    | 0x21C => p.pctl.toNat
    | 0x240 => p.retry.toNat
    | 0x300 => p.tsens.toNat
    | _ => 0

/-- A heater write (R31): at once, but discarded while the ring wakes (R395). -/
def writeHeater (p : Port) (k v : Nat) : Port :=
  if k < 18 && !ringWaking p k then { p with htr := put p.htr k (BitVec.ofNat 12 v) } else p

/-- Whether a map value is accepted (R30): every field at most 8, no ring twice. -/
def mapOk (v : Nat) : Bool :=
  (List.range 8).all fun n => field v (4 * n) 4 ≤ 8 && (List.range n).all fun m => field v (4 * n) 4 != field v (4 * m) 4

/-- A write to LMAP_TX or LMAP_RX (R30): refused with MAPERR, or each changed wavelength parks and wakes on its new
ring; a receive lane that moves is paused at the peer (R38). -/
def writeMap (p : Port) (rx : Bool) (v : Nat) : Port :=
  if !mapOk v then { p with maperr := true }
  else
    let old := if rx then p.lmapRx.toNat else p.lmapTx.toNat
    let moved := below 8 fun n => field v (4 * n) 4 != field old (4 * n) 4
    let base := if rx then 9 else 0
    let p := if rx then { p with lmapRx := BitVec.ofNat 32 v } else { p with lmapTx := BitVec.ofNat 32 v }
    let gone := moved.map fun n => base + field old (4 * n) 4
    let p := { p with
      waking := p.waking.filter fun w => !gone.contains w.ring
      parked := gone.foldl (fun b k => b &&& ~~~ BitVec.ofNat 18 (2 ^ k)) p.parked }
    let p := if moved.isEmpty then p else trigger p (moved.map fun n => base + field v (4 * n) 4)
    if rx && !moved.isEmpty then sendFlit p (ownFlit p 6 true ((laneMask moved).toNat * 256)) else p

/-- Whether a spare ring of the port carries a wavelength. -/
def spareUsed (p : Port) : Bool := ringMapped p 8 || ringMapped p 17

/-- A write to PARK (Table 2.5, R21, R37): DROP bits are set for good, logged, and lower LAMBDA_LIVE; with AUTO = 0 a
parked wavelength whose EN bit is set wakes at once. -/
def writePark (s : State) (i v : Nat) : State :=
  let p := portOf s i
  let fresh := below 8 fun n => flag v (8 + n) && !flag p.drop.toNat n
  let s := onPort s i fun p => { p with drop := p.drop ||| BitVec.ofNat 8 (v / 256), en := BitVec.ofNat 8 v }
  let s := fresh.foldl (fun s n => logEvent s 0x0007 (8 * i + n)) s
  let s := if fresh.isEmpty then s else newEpoch s
  let s := if !fresh.isEmpty && spareUsed p then setReplace s else s
  let s := onPort s i fun p => if flag p.pctl.toNat 31 then p else wakeParked p
  restripePort s i

/-- A write to PCTL (Table 2.8): clearing AUTO wakes parked wavelengths whose EN bit is set (R37). -/
def writePctl (s : State) (i v : Nat) : State :=
  let s := onPort s i fun p =>
    let p := { p with pctl := BitVec.ofNat 32 (v - field v 24 7 * 2 ^ 24) }
    if flag v 31 then p else wakeParked p
  restripePort s i

/-- A 32-bit write to a port register; an offset that is not listed ignores it (R29). -/
def portWrite (s : State) (i off v : Nat) : State :=
  if off % 4 != 0 then s
  else if off < 0x48 then restripePort (onPort s i fun p => writeHeater p (off / 4) (v % 4096)) i
  else if 0x220 ≤ off && off < 0x240 then
    onPort s i fun p => { p with fecc := adjust 0 p.fecc ((off - 0x220) / 4) fun x => x &&& ~~~ BitVec.ofNat 32 v }
  else match off with
    | 0x200 => restripePort (onPort s i fun p => writeMap p false v) i
    | 0x208 => restripePort (onPort s i fun p => writeMap p true v) i
    | 0x210 => writePark s i v
    | 0x218 => onPort s i fun p => { p with maperr := p.maperr && !flag v 31 }
    | 0x21C => writePctl s i v
    | 0x240 => onPort s i fun p => { p with retry := p.retry &&& ~~~ BitVec.ofNat 32 v }
    | _ => s

/-- A load through the port window page (R393): a naturally aligned 4-byte load reads the register, any other zero. -/
def windowRead (s : State) (off n : Nat) : List Byte :=
  if n == 4 && off % 4 == 0 then toBytes 4 (portRead (portOf s (off / 4096)) (off % 4096)) else toBytes n 0

/-- A store through the port window page (R393): any but a naturally aligned 4-byte store is ignored. -/
def windowWrite (s : State) (off : Nat) (bs : List Byte) : State :=
  if bs.length == 4 && off % 4 == 0 then portWrite s (off / 4096) (off % 4096) (fromBytes bs) else s

/-! ### Flits as bytes (R33, R34, Table 2.10) -/

/-- One bit of the CRC-32 of IEEE 802.3, least significant bit first. -/
def crcBit (c : BitVec 32) : BitVec 32 := if c.getLsbD 0 then (c >>> 1) ^^^ 0xEDB88320 else c >>> 1
/-- One byte. -/
def crcByte (c : BitVec 32) (b : Byte) : BitVec 32 := (List.range 8).foldl (fun c _ => crcBit c) (c ^^^ b.setWidth 32)
/-- The CRC-32 of bytes. -/
def crc32 (bs : List Byte) : BitVec 32 := ~~~ (bs.foldl crcByte (BitVec.allOnes 32))

/-- Bytes 0-251 of a flit. -/
def flitBody (f : Flit) : List Byte :=
  toBytes 8 (f.type.toNat + bit01 f.vc * 2 ^ 4 + f.credit.toNat * 2 ^ 8 + f.seq.toNat * 2 ^ 16 + f.ackseq.toNat * 2 ^ 28 +
    f.spec.toNat * 2 ^ 40) ++ (f.payload ++ List.replicate 244 0).take 244
/-- The 256 bytes of a flit. -/
def flitBytes (f : Flit) : List Byte := flitBody f ++ toBytes 4 (crc32 (flitBody f)).toNat
/-- The fields of a flit's bytes. -/
def flitFrom (im : List Byte) : Flit :=
  let h := imageAt im 0 8
  ⟨BitVec.ofNat 4 h, flag h 4, BitVec.ofNat 8 (field h 8 8), BitVec.ofNat 12 (field h 16 12),
    BitVec.ofNat 12 (field h 28 12), BitVec.ofNat 24 (field h 40 24), (im.drop 8).take 244⟩
/-- The beats of a flit on a stripe: each with the lane and the slot it travels in (R33). -/
def flitBeats (width : Nat) (lanes : BitVec 8) (im : List Byte) : List (Nat × Nat × List Byte) :=
  (List.range 8).map fun b => ((below 8 fun n => flag lanes.toNat n).getD (b % width) 0, b / width, (im.drop (32 * b)).take 32)
/-- The flit time a flit on a stripe makes at a receiver that meets no error. -/
def asReceived (width : Nat) (lanes : BitVec 8) (f : Flit) : Received :=
  ⟨(below 8 fun n => flag lanes.toNat n).map fun n =>
    (n, (flitBeats width lanes (flitBytes f)).flatMap fun b => if b.1 == n then b.2.2 else []), []⟩
/-- The bytes of the beat that lies on lane `n` in slot `k`: none where the lane's codeword could not be corrected, with
more than 15 symbols in error, or brought no such beat (R34). -/
def beatAt (r : Received) (n k : Nat) : Option (List Byte) :=
  if 15 < look 0 r.errors n then none
  else match find r.lanes n with
    | some bs => if 32 * k + 32 ≤ bs.length then some ((bs.drop (32 * k)).take 32) else none
    | none => none
/-- The stripe a flit time arrives on: the peer's, or, while the peer has announced none, the lanes that bring beats
(assumption 30, DESIGN CHOICE). -/
def arrivalStripe (p : Port) (r : Received) : Nat × BitVec 8 :=
  if p.peerWidth != 0 then (p.peerWidth, p.peerLanes)
  else
    let lanes := below 8 fun n => (find r.lanes n).isSome
    (lanes.length, laneMask lanes)
/-- The bytes of the flit received on a stripe, beat by beat: none where a beat is missing (R33). -/
def assemble (stripe : Nat × BitVec 8) (r : Received) : Option (List Byte) :=
  let lanes := below 8 fun n => flag stripe.2.toNat n
  let bs := (List.range 8).map fun b => beatAt r (lanes.getD (b % stripe.1) 8) (b / stripe.1)
  if stripe.1 == 0 || bs.any (·.isNone) then none else some (bs.filterMap id).flatten
/-- The flit received: none where it fails its CRC. While the peer has announced no stripe, only a MARKER is one. -/
def received (p : Port) (r : Received) : Option Flit :=
  match assemble (arrivalStripe p r) r with
  | none => none
  | some im =>
    if imageAt im 252 4 != (crc32 (im.take 252)).toNat then none
    else if p.peerWidth == 0 && imageAt im 0 1 % 16 != 2 then none else some (flitFrom im)
/-- The corrected symbols of a flit time count in FECC, saturating (R34). -/
def countErrors (p : Port) (r : Received) : Port :=
  { p with fecc := (r.errors.filter fun e => e.1 < 8 && e.2 ≤ 15).foldl (fun m e =>
      adjust 0 m e.1 fun x => BitVec.ofNat 32 (Nat.min (2 ^ 32 - 1) (x.toNat + e.2))) p.fecc }

/-! ### Link-level retry (R35, R36) -/

/-- Move queued flits onto the link while the windows allow. -/
def pump (p : Port) : Port :=
  p.queue.foldl (fun p f => sendFlit p f) { p with queue := [] }

/-- Free the flits up to ACKSEQ and take the returned window space (R35, R36). -/
def takeAck (p : Port) (f : Flit) : Port :=
  let rest := match p.unacked.findIdx? fun u => u.flit.seq == f.ackseq with
    | some k => p.unacked.drop (k + 1)
    | none => p.unacked
  let moved := rest.length != p.unacked.length
  let credit := f.credit.toNat
  pump { p with
    unacked := rest
    replays := if moved then 0 else p.replays
    retrained := p.retrained && !moved
    window := Nat.min 128 (p.window + if flag f.spec.toNat 16 then 0 else credit)
    window1 := Nat.min 16 (p.window1 + if flag f.spec.toNat 16 then credit else 0) }

/-- Whether a received flit is accepted (R35): whole, of a listed TYPE, and next in order. -/
def flitOk (p : Port) (r : Option Flit) : Bool := r.any fun f => f.type.toNat ≤ 6 && f.seq == p.expect

/-- An accepted flit (R35, R36): data goes to the receiving engine, its buffer frees, and an ACK acknowledges it and
returns its window space (assumption 30). -/
def accepted (p : Port) (f : Flit) : Port :=
  let p := takeAck { p with expect := p.expect + 1 } f
  let ack := { ownFlit p 3 true (bit01 f.vc * 2 ^ 16) with credit := 1 }
  { p with control := p.control ++ [ack], delivered := p.delivered ++ (if f.type == 1 then [f] else []) }

/-- Take what was received, or discard it with one NAK naming the next expected SEQ, which ACKSEQ + 1 is (R35). ACK and
NAK, which travel on channel 1, neither look at that channel's window nor take from it, of which R36 does not speak
(assumption 30, DESIGN CHOICE). -/
def receive (p : Port) (r : Option Flit) : Port :=
  match r with
  | some f => if flitOk p r then accepted p f else { p with control := p.control ++ [ownFlit p 4 true 0] }
  | none => { p with control := p.control ++ [ownFlit p 4 true 0] }

/-- Replay from the NAKed flit (R35), each flit on the stripe it was sent on (R38): after 8 replays of one flit every
lane retrains through the wake sequence, and after 8 more failures the port goes down. While every lane retrains none is
usable, and R39 keeps traffic on the old stripe: STRIPE stays as it was until an event forms the stripe anew
(assumption 30, DESIGN CHOICE). -/
def replay (now : Nat) (p : Port) (f : Flit) : Port :=
  let p := takeAck p f
  if p.unacked.isEmpty then p
  else
    let p := { p with
      retry := BitVec.ofNat 32 (Nat.min (2 ^ 32 - 1) (p.retry.toNat + p.unacked.length))
      replays := p.replays + 1 }
    if p.replays < 8 then p
    else if p.retrained then settleDown now { p with width := 0, lanes := 0, replays := 0 }
    else trigger { p with retrained := true, replays := 0 } ((below 8 fun n => flag p.lanes.toNat n).map (txRing p))

end Sys2Proof.Machine
end

