-- ==== Sys2Proof/Machine/Areas.lean ====
section
/-! DEFINITION. Declared signals as they lie in core store: the fields of an entry, the bytes each signal owns, and what
an ordinary store into them does (R170-R173, R187). -/

namespace Sys2Proof.Machine

/-! ### Entries (Table 9.1) -/

/-- FMT. -/
def sigFmt (e : List Byte) : Nat := imageAt e 0 1 % 16
/-- DEEP. -/
def sigDeep (e : List Byte) : Bool := flag (imageAt e 0 1) 4
/-- KV. -/
def sigKv (e : List Byte) : Bool := flag (imageAt e 0 1) 5
/-- FRAME. -/
def sigFrame (e : List Byte) : Nat := imageAt e 2 2
/-- Depth D. -/
def sigDepth (e : List Byte) : Nat := imageAt e 4 4 + 1
/-- Rate divisor k. -/
def sigDiv (e : List Byte) : Nat := imageAt e 8 2
/-- Phase p. -/
def sigPhase (e : List Byte) : Nat := imageAt e 10 2
/-- Near window W. -/
def sigWin (e : List Byte) : Nat := imageAt e 12 4
/-- Block area. -/
def sigBase (e : List Byte) : Nat := imageAt e 24 8
/-- Near ring. -/
def sigRing (e : List Byte) : Nat := imageAt e 32 4
/-- KV heads. -/
def sigHeads (e : List Byte) : Nat := imageAt e 36 2
/-- KV mask buffer. -/
def sigMask (e : List Byte) : Nat := imageAt e 40 4
/-- STAMP0. -/
def sigStamp (e : List Byte) : Nat := imageAt e 48 8

/-- Bytes of an element of a format code (Table 7.8). -/
def fmtBytes : Nat → Nat
  | 2 | 8 | 9 => 2
  | 3 | 10 => 4
  | _ => 1
/-- Bytes of an element. -/
def sigBytes (e : List Byte) : Nat := fmtBytes (sigFmt e)
/-- INIT in the signal's format. -/
def sigInit (e : List Byte) : Nat := imageAt e 16 8 % 2 ^ (8 * sigBytes e)
/-- Pitch of a sample (R172). -/
def sigPitch (e : List Byte) : Nat := roundUp (sigFrame e * sigBytes e) 64
/-- Samples in the near ring. -/
def sigSlots (e : List Byte) : Nat := if sigDeep e then sigWin e else sigDepth e
/-- Bytes of a KV mask buffer (R172). -/
def maskBytes (e : List Byte) : Nat := (Nat.min (sigDepth e) 65536 + 63) / 64 * 8
/-- Core-store offset of a sample in the ring. -/
def sampleAt (e : List Byte) (j : Nat) : Nat := sigRing e + j % sigSlots e * sigPitch e

/-- The core-store ranges a signal owns: ring, entry, head, and for KV its mask buffer. -/
def sigAreas (e : List Byte) (table headAt : Nat) : List (Nat × Nat) :=
  [(sigRing e, sigSlots e * sigPitch e), (table, 64), (headAt, 16)] ++
    (if sigKv e then [(sigMask e, maskBytes e)] else [])

/-- Key of a signal: device context, stream context, number. -/
def sigKey (ctx sctx n : Nat) : Nat := (ctx * 2 ^ 20 + sctx) * 1024 + n
/-- Device context of a signal's key. -/
def sigOwner (key : Nat) : Nat := key / 2 ^ 30

/-! ### Stream-context descriptors (R109, R110, Table 5.4) -/

/-- Where the descriptor of a stream context lies in its table. -/
def descAt (s : State) (ctx n : Nat) : Loc := .hbm (field (reg (ctxOf s ctx) 0x1860) 6 50 * 64 + 64 * n)

/-- A descriptor from its bytes. -/
def descFrom (im : List Byte) : Descriptor :=
  { now := imageAt im 0 8, heads := imageAt im 8 4, sigtab := imageAt im 12 4, nsig := imageAt im 16 2
    bcore := imageAt im 18 1 % 128, bound := flag (imageAt im 18 1) 7 }

/-- The bytes of a descriptor. -/
def descBytes (d : Descriptor) : List Byte :=
  toBytes 8 d.now ++ toBytes 4 d.heads ++ toBytes 4 d.sigtab ++ toBytes 2 d.nsig ++
    toBytes 1 (d.bcore + 128 * bit01 d.bound)

/-- The descriptor of a stream context: the resident one, else the table's. -/
def descOf (s : State) (ctx n : Nat) : Descriptor :=
  match find (ctxOf s ctx).descs n with
  | some d => d
  | none => descFrom (readAt s (descAt s ctx n) 64)

/-- The state with a descriptor changed by `f`, which makes it resident. -/
def onDesc (s : State) (ctx n : Nat) (f : Descriptor → Descriptor) : State :=
  onCtx s ctx fun c => { c with descs := put c.descs n (f (descOf s ctx n)) }

/-- A resident descriptor written back to the table; it stays resident. -/
def writeDesc (s : State) (ctx n : Nat) : State :=
  match find (ctxOf s ctx).descs n with
  | none => s
  | some d => writeAt s (descAt s ctx n) (descBytes d)

/-- Names a stream context of a device context among the descriptors a core holds. -/
def descKey (ctx n : Nat) : Nat := 2 ^ 20 * ctx + n

/-- A descriptor leaves a core: it is written back, and with the last core that held it nothing holds it (R110). -/
def dropDesc (s : State) (core key : Nat) : State :=
  let ctx := key / 2 ^ 20
  let n := key % 2 ^ 20
  let s := onCore (writeDesc s ctx n) core fun k => { k with resident := k.resident.filter (· != key) }
  if s.cores.any fun e => e.2.resident.contains key then s
  else onCtx s ctx fun c => { c with descs := erase c.descs n }

/-- The current stream context leaves the core: whether its descriptor stays there is open (assumption 2). -/
def leaveDesc (s : State) (core ctx n : Nat) : State :=
  if n == 0 then s
  else
    let (w, s) := drawWord s
    if w.toNat % 2 == 0 then s else dropDesc s core (descKey ctx n)

/-- Whether two byte ranges meet. -/
def meet (a n b m : Nat) : Bool := a < b + m && b < a + n && 0 < n && 0 < m

/-- Signals of a device context on a core that own a byte of an offset range lose their stated contents (R172, R173). -/
def taint (k : Core) (ctx o n : Nat) : Core :=
  { k with signals := k.signals.map fun (key, g) =>
      (key, if sigOwner key == ctx && (sigAreas g.entry g.table g.headAt).any (fun p => meet p.1 p.2 o n) then
        { g with tainted := true } else g) }

/-- What a store of `n` bytes at a physical core-store offset does to signals: nothing outside pinned regions. -/
def taintStore (s : State) (core offset n : Nat) : State :=
  match (coreOf s core).regions.find? fun g => g.physical == offset / 2 ^ 20 with
  | some g =>
    if g.record.isSome then s
    else onCore s core fun k => taint k g.ctx (g.index * 2 ^ 20 + offset % 2 ^ 20) n
  | none => s

end Sys2Proof.Machine
end

