-- ==== Sys2Proof/Machine/Translate.lean ====
section
/-! DEFINITION. Device virtual addresses: the table walk, its checks, the TLB of a core, and the place each page lies
(R70-R81). -/

namespace Sys2Proof.Machine

/-! ### Kinds of access (Table 4.5) -/

/-- Stores and atomics: kinds 1, 2, 5, 7, 9. -/
def storing (kind : Nat) : Bool := [1, 2, 5, 7, 9].contains kind
/-- The deep-signal path: kinds 8 and 9. -/
def signalKind (kind : Nat) : Bool := kind == 8 || kind == 9

/-! ### Table entries (Table 4.4) -/

/-- Lowest index bit of a level (Table 4.3). -/
def levelLow : Nat → Nat
  | 4 => 48 | 3 => 39 | 2 => 30 | 1 => 21 | _ => 16
/-- Index bits of a level (Table 4.3). -/
def levelBits : Nat → Nat
  | 4 => 8 | 3 => 9 | 2 => 9 | 1 => 9 | _ => 5
/-- Size and alignment of the table of a level (Table 4.3). -/
def tableSize (level : Nat) : Nat := 8 * 2 ^ levelBits level
/-- Bytes of the page a leaf of a level maps. -/
def pageBytes (level : Nat) : Nat := 2 ^ levelLow level

/-- Leaf fields. -/
def pteTier (e : Nat) : Nat := field e 4 2
/-- MODULE. -/
def pteModule (e : Nat) : Nat := field e 8 12
/-- The frame address of a leaf. -/
def pteFrame (e : Nat) : Nat := field e 20 40 * 2 ^ 16
/-- A leaf with its frame moved on by `n` bytes. -/
def pteNext (e n : Nat) : Nat := setField e 20 40 (field e 20 40 + n / 2 ^ 16)
/-- A leaf with TRANSIT set or cleared. -/
def pteTransit (e : Nat) (b : Bool) : Nat := setField e 7 1 (bit01 b)

/-- The form checks of R74 item 2 on an entry read at a level. -/
def formFault (level e : Nat) : Bool :=
  if flag e 1 then
    2 < level || field e 60 4 != 0 || pteTier e == 3 || (flag e 6 && pteTier e != 0) ||
      ((pteTier e == 0 || pteTier e == 2) && pteModule e != 0) || pteFrame e % pageBytes level != 0
  else
    level == 0 || field e 56 8 != 0 || field e 2 6 != 0 || (field e 8 48 * 256) % tableSize (level - 1) != 0

/-- The source of Table 4.5 of an access of a kind by a stream. -/
def sourceOf (stream kind : Nat) : Nat := if signalKind kind then 8 else if kind == 6 || kind == 7 then 7 else stream

/-- Who of a core raises a walk: the copy engine (7), or the stream whose instruction makes the access. -/
def requesterOf (stream kind : Nat) : Nat := if kind == 6 || kind == 7 then 7 else stream

/-- Who makes an access, on whom it hangs how a tier-2 page with no translation ends (R50, R80): an agent of a core, a
stream or its copy engine, that takes faults; an engine, queue or ring, that takes none; or BAR2. -/
inductive Asker where
  | core
  | engine
  | window
  deriving DecidableEq, Repr

/-- How an access to a page ends: at a place, in need of a walk, waiting for the swap engine or a link, waiting for the
host's translation, or with a reason of Table 4.6 and a level. -/
inductive Look where
  | hit (l : Loc)
  | miss
  | wait
  | ask
  | fault (reason level : Nat)
  deriving DecidableEq, Repr

/-- What a walk meets: a leaf at a level, or one of the above. -/
inductive Walk where
  | leaf (level entry address : Nat)
  | fault (reason level : Nat)
  deriving DecidableEq, Repr

/-- The entry of the table at `table` that a level indexes. -/
def entryAddress (table level va : Nat) : Nat := table + 8 * field va (levelLow level) (levelBits level)

/-- Walk from the table at `table` through the levels (R72-R74), valid bit before form before the table's place. -/
def walkFrom (s : State) (va : Nat) : List Nat → Nat → Walk
  | [], _ => .fault 0x20 0
  | level :: rest, table =>
    let a := entryAddress table level va
    let e := fromBytes (readAt s (.hbm a) 8)
    if !flag e 0 then .fault 0x20 level
    else if formFault level e then .fault 0x23 level
    else if flag e 1 then .leaf level e a
    else if !live s (field e 8 48 * 256) then .fault 0x24 level
    else walkFrom s va rest (field e 8 48 * 256)

/-- PTROOT of a context. -/
def ptroot (s : State) (ctx : Nat) : Nat := reg (ctxOf s ctx) 0x1840

/-- The walk of an address in a context whose translation is enabled. A fault that no entry raised, of a root table that
is not live or of PTROOT.EN = 0, records LEVEL 4 (assumption 56, DESIGN CHOICE). -/
def walk (s : State) (ctx va : Nat) : Walk :=
  let root := field (ptroot s ctx) 11 45 * 2 ^ 11
  if !live s root then .fault 0x24 4 else walkFrom s va [4, 3, 2, 1, 0] root

/-! ### Where a leaf leads (R81, R41, R393) -/

/-- The port through which a peer is reached, or none: its route entry is invalid (R41). -/
def routeOf (s : State) (m : Nat) : Option Nat :=
  let e := (look 0 s.module.routes m).toNat
  if flag e 7 then some (field e 0 6) else none

/-- Whether port `i` has been down for more than 1 ms. -/
def downLong (s : State) (i : Nat) : Bool :=
  let p := portOf s i
  p.width == 0 && match p.downSince with
    | some t => t + 1000000 < s.mtime
    | none => false

/-- Whether a PRI Page Request for a page of I/O virtual addresses is outstanding. -/
def inGroup (c : Ctx) (page : Nat) : Bool := c.priGroups.any (·.pages.contains page)

/-- Where the host sends a page of I/O virtual addresses of a context, by its ATS answer (R47, R80, R393): a page with
no answer is asked for. After a failed answer, while the Page Request is outstanding, an agent of a core meets HOST_PAGE
and an engine waits; when it has failed an agent of a core asks again and an engine's access fails. For BAR2 no request
is sent, and the access fails (R50). -/
def hostLook (s : State) (who : Asker) (ctx va level : Nat) : Look :=
  let c := ctxOf s ctx
  match find c.ats (va / 2 ^ 16) with
  | some (some (.memory _)) => .hit (.host (pasid c) va)
  | some (some (.bar0 w)) => .hit (.bar0 (2 ^ 24 + w * 2 ^ 16 + va % 2 ^ 16))
  | some (some .refused) => .hit .refused
  | some none => match who with
    | .core => if inGroup c (va / 2 ^ 16) then .fault 0x26 level else .ask
    | .engine => if inGroup c (va / 2 ^ 16) then .ask else .fault 0x27 level
    | .window => .fault 0x26 level
  | none => .ask

/-- The place of the byte `va` under a leaf, its tier reached. -/
def placeOf (s : State) (who : Asker) (ctx level e va : Nat) : Look :=
  let pa := pteFrame e + va % pageBytes level
  match pteTier e with
  | 0 => if live s pa then .hit (.hbm pa) else .fault 0x24 level
  | 1 => match routeOf s (pteModule e) with
    | none => .fault 0x28 level
    | some p =>
      if downLong s p then .fault 0x28 level
      else if (portOf s p).width == 0 then .wait
      else .hit (.peer (pteModule e) pa)
  | _ => hostLook s who ctx pa level

/-- The checks of an access on a leaf (R74 items 2 and 3, R81, R90): TRANSIT, permissions, the place, then RS, which the
spec gives no place in the order (assumption 56, DESIGN CHOICE). -/
def checkLeaf (s : State) (who : Asker) (ctx kind level e va : Nat) : Look :=
  if flag e 7 then .wait
  else if storing kind && !flag e 2 then .fault 0x21 level
  else if kind == 3 && (!flag e 3 || pteTier e == 2) then .fault 0x22 level
  else match placeOf s who ctx level e va with
    | .hit l => if flag e 6 && !signalKind kind then .fault 0x25 level else .hit l
    | r => r

/-! ### The TLB (R75) -/

/-- The TLB entry of a core for an address. -/
def tlbHit (k : Core) (ctx va : Nat) : Option TlbEntry :=
  k.tlb.find? fun t => t.ctx == ctx && t.base ≤ va && va < t.base + t.size

/-- The level of a page of a size. -/
def levelOfSize (n : Nat) : Nat := if n == 2 ^ 30 then 2 else if n == 2 ^ 21 then 1 else 0

/-- Enter a leaf into a core's TLB; with 512 entries held one leaves, and which is open (R75, assumption 2). -/
def tlbInsert (s : State) (core ctx level e va : Nat) : State :=
  let t : TlbEntry := ⟨ctx, va / pageBytes level * pageBytes level, pageBytes level, BitVec.ofNat 64 e⟩
  let (w, s) := if (coreOf s core).tlb.length < 512 then (0, s) else drawWord s
  onCore s core fun k =>
    { k with tlb := (if k.tlb.length < 512 then k.tlb else k.tlb.eraseIdx (w.toNat % 512)) ++ [t] }

/-- Remove from one core's TLB the entries of a context that meet `[a, a + n)`. -/
def tlbDrop (k : Core) (ctx a n : Nat) : Core :=
  { k with tlb := k.tlb.filter fun t => !(t.ctx == ctx && t.base < a + n && a < t.base + t.size) }

/-- A core loses what it holds of the translations of a context that meet `[a, a + n)`: TLB entries, and what walks have
returned for accesses not yet performed. -/
def dropTranslations (k : Core) (ctx a n : Nat) : Core :=
  { tlbDrop k ctx a n with
    walked := k.walked.filter fun w => !(w.ctx == ctx && w.page * 65536 < a + n && a < w.page * 65536 + 65536) }

/-- A tower's walkers lose the non-leaf entries they cache on the way to `[a, a + n)`. -/
def dropNonLeaf (w : Tower) (ctx a n : Nat) : Tower :=
  { w with nonleaf := w.nonleaf.filter fun e =>
      !(e.ctx == ctx && e.above * pageBytes e.level < a + n && a < (e.above + 1) * pageBytes e.level) }

/-- Remove from every core's TLB and from the walker caches the entries of a context that meet `[a, a + n)`. -/
def invalidate (s : State) (ctx a n : Nat) : State :=
  { s with
    cores := s.cores.map fun (c, k) => (c, dropTranslations k ctx a n)
    towers := s.towers.map fun (t, w) => (t, dropNonLeaf w ctx a n) }

/-! ### Walks in flight (R75, R76) -/

/-- Walks a tower holds at most (R76). -/
def walkSlots : Nat := 2048

/-- A read of a table entry: the walkers' cached copy of a non-leaf, or memory. -/
def cachedEntry (s : State) (t ctx level va table : Nat) : Nat :=
  match (towerOf s t).nonleaf.find? fun e => e.ctx == ctx && e.level == level && e.above == va / pageBytes level with
  | some e => e.entry.toNat
  | none => fromBytes (readAt s (.hbm (entryAddress table level va)) 8)

/-- Walk by a tower's walkers from the table at `table` (R72-R74): the result, and the non-leaf entries passed. -/
def walkThrough (s : State) (t ctx va : Nat) : List Nat → Nat → WalkResult × List NonLeaf
  | [], _ => (.fault 0x20 0, [])
  | level :: rest, table =>
    let e := cachedEntry s t ctx level va table
    if !flag e 0 then (.fault 0x20 level, [])
    else if formFault level e then (.fault 0x23 level, [])
    else if flag e 1 then (.leaf level (BitVec.ofNat 64 e), [])
    else if !live s (field e 8 48 * 256) then (.fault 0x24 level, [])
    else
      let r := walkThrough s t ctx va rest (field e 8 48 * 256)
      (r.1, ⟨ctx, level, va / pageBytes level, BitVec.ofNat 64 e⟩ :: r.2)

/-- The walk of an address by a tower's walkers. -/
def walkBy (s : State) (t ctx va : Nat) : WalkResult × List NonLeaf :=
  let root := field (ptroot s ctx) 11 45 * 2 ^ 11
  if !live s root then (.fault 0x24 4, []) else walkThrough s t ctx va [4, 3, 2, 1, 0] root

/-- Whether a walk by a tower's walkers from the table at `table` reads a poisoned entry. -/
def walkPoison (s : State) (t ctx va : Nat) : List Nat → Nat → Bool
  | [], _ => false
  | level :: rest, table =>
    let e := cachedEntry s t ctx level va table
    poisonedAt s (.hbm (entryAddress table level va)) 8 ||
      (flag e 0 && !formFault level e && !flag e 1 && live s (field e 8 48 * 256) &&
        walkPoison s t ctx va rest (field e 8 48 * 256))

/-- Whether the walk of an address of a context by a tower's walkers reads a poisoned entry; one of no tower's, an
engine's own, caches nothing. -/
def readsPoison (s : State) (t ctx va : Nat) : Bool :=
  flag (ptroot s ctx) 0 && walkPoison s t ctx va [4, 3, 2, 1, 0] (field (ptroot s ctx) 11 45 * 2 ^ 11)

/-- The walkers cache the non-leaf entries of a walk; which of all they hold stay is open (R75, assumption 2). -/
def cacheNonLeaf (s : State) (t : Nat) (es : List NonLeaf) : State :=
  let (w, s) := drawWord s
  onTower s t fun k => { k with
    nonleaf := ((k.nonleaf ++ es.filter (!k.nonleaf.contains ·)).zipIdx.filter fun p => flag w.toNat (p.2 % 64)).map (·.1) }

/-- What the walk of an access's page returned, if it has one. -/
def walkedAt (k : Core) (requester ctx va : Nat) : Option WalkResult :=
  (k.walked.find? fun w => w.requester == requester && w.ctx == ctx && w.page == va / 65536).map (·.result)

/-- The walk in flight for a page at a tower. -/
def walkingAt (s : State) (t ctx page : Nat) : Option Walking :=
  (towerOf s t).walks.find? fun w => w.ctx == ctx && w.page == page

/-- Whether a page's walk is in flight, or a slot is free for it (R76). -/
def walkRoom (s : State) (core ctx va : Nat) : Bool :=
  (walkingAt s (towerOfCore core) ctx (va / 65536)).isSome || (towerOf s (towerOfCore core)).walks.length < walkSlots

/-- Whether a requester of a core waits for a walk. -/
def hasJoined (w : Walking) (core requester : Nat) : Bool := w.joiners.any fun j => j.core == core && j.requester == requester

/-- A miss joins the walk in flight for its page, or takes a slot for one, or finds the walkers full (R76). -/
def joinWalk (s : State) (core requester ctx va kind : Nat) : State :=
  let t := towerOfCore core
  let page := va / 65536
  let me : Joiner := ⟨core, requester, va, kind⟩
  let join := fun (w : Walking) =>
    if hasJoined w core requester then w else { w with joiners := w.joiners ++ [me] }
  match walkingAt s t ctx page with
  | some _ => onTower s t fun k => { k with
      walks := k.walks.map fun w => if w.ctx == ctx && w.page == page then join w else w }
  | none =>
    if walkRoom s core ctx va then
      onTower s t fun k => { k with walks := k.walks ++ [{ ctx := ctx, page := page, joiners := [me] }] }
    else s

/-- What walks returned for a requester of a core is used up: its accesses have been performed or have faulted. -/
def dropWalked (k : Core) (requester : Nat) : Core :=
  { k with walked := k.walked.filter fun w => w.requester != requester }

/-! ### Translating -/

/-- The leaf that a copy under way has for an address: of a page it stands within, or one it keeps ahead of a marker
(R85, R87). -/
def copyLeaf (k : Core) (stream kind ctx va : Nat) : Option TlbEntry :=
  if requesterOf stream kind == 7 then k.copyLeaves.find? fun t => t.ctx == ctx && t.base ≤ va && va < t.base + t.size
  else none

/-- The leaf an agent of a core uses, with its level, or how its walk ends: that of its copy under way, what its own
walk returned, else its TLB's; none needs a walk. -/
def coreLeaf (s : State) (core ctx kind va : Nat) : Option WalkResult :=
  let k := coreOf s core
  match copyLeaf k s.curStream kind ctx va with
  | some t => some (.leaf (levelOfSize t.size) t.leaf)
  | none => (walkedAt k (requesterOf s.curStream kind) ctx va).or
      ((tlbHit k ctx va).map fun t => .leaf (levelOfSize t.size) t.leaf)

/-- Translate one address for an access of a kind. An agent of a core uses the leaf it has, else needs a walk; an engine
walks at once. With PTROOT.EN = 0 context 0 sees local physical memory and every
other context nothing (R71). -/
def translate (s : State) (core : Option Nat) (ctx kind va : Nat) : Look × State :=
  if !flag (ptroot s ctx) 0 then
    if ctx == 0 then (if live s va then .hit (.hbm va) else .fault 0x24 4, s) else (.fault 0x20 4, s)
  else match core with
    | none => match walk s ctx va with
      | .fault r l => (.fault r l, s)
      | .leaf level e _ => (checkLeaf s .engine ctx kind level e va, s)
    | some c => match coreLeaf s c ctx kind va with
      | some (.fault r l) => (.fault r l, s)
      | some (.leaf level e) => (checkLeaf s .core ctx kind level e.toNat va, s)
      | none => (.miss, s)

/-- The page of I/O virtual addresses that an address under a leaf leads to. -/
def leafPage (level e va : Nat) : Option Nat :=
  if pteTier e == 2 then some ((pteFrame e + va % pageBytes level) / 2 ^ 16) else none

/-- That of an address by the tables. -/
def tablePage (s : State) (ctx va : Nat) : Option Nat :=
  match walk s ctx va with
  | .leaf level e _ => leafPage level e va
  | .fault _ _ => none

/-- That of an access of a core: by the leaf it has, or the tables. -/
def ioPage (s : State) (core ctx kind va : Nat) : Option Nat :=
  match coreLeaf s core ctx kind va with
  | some (.leaf level e) => leafPage level e.toNat va
  | some (.fault _ _) => none
  | none => tablePage s ctx va

/-- That of a BAR2 access. -/
def windowPage (s : State) (ctx via va : Nat) : Option Nat :=
  match tlbHit (coreOf s via) ctx va with
  | some t => leafPage (levelOfSize t.size) t.leaf.toNat va
  | none => tablePage s ctx va

/-- Translate one address for BAR2 by the TLB of a core and the walkers of its tower, as for that core's accesses
(R50): the leaf of a walk enters the TLB of a core that runs the context, its non-leaf entries the walkers' cache. -/
def windowLook (ctx via kind : Nat) (s : State) (va : Nat) : Look × State :=
  if !flag (ptroot s ctx) 0 then translate s none ctx kind va
  else match tlbHit (coreOf s via) ctx va with
    | some t => (checkLeaf s .window ctx kind (levelOfSize t.size) t.leaf.toNat va, s)
    | none =>
      match walkBy s (towerOfCore via) ctx va with
      | (.fault r l, _) => (.fault r l, s)
      | (.leaf level e, es) => match checkLeaf s .window ctx kind level e.toNat va with
        | .wait => (.wait, s)
        | .ask => (.ask, s)
        | r =>
          let s := cacheNonLeaf s (towerOfCore via) es
          (r, if (coreOf s via).slice.map (·.ctx) == some ctx then tlbInsert s via ctx level e.toNat va else s)

/-- Cut `[va, va + n)` at 64 KiB boundaries. -/
def cutPages : Nat → Nat → Nat → List (Nat × Nat)
  | 0, _, _ => []
  | fuel + 1, va, n =>
    if n == 0 then []
    else
      let m := Nat.min n (65536 - va % 65536)
      (va, m) :: cutPages fuel (va + m) (n - m)

/-- The pieces of `[va, va + n)`, one for each 64 KiB page touched. -/
def pages (va n : Nat) : List (Nat × Nat) := cutPages (n / 65536 + 2) va n

/-- How a range ends: the pieces of it in order, or what the first page that does not translate meets, with the first
address of the range in it. -/
inductive Span where
  | ok (pieces : List (Loc × Nat))
  | stop (va : Nat) (l : Look)
  deriving DecidableEq, Repr

/-- Translate every page of a list by `f` before any byte is touched (R298). -/
def spanBy (f : State → Nat → Look × State) (s : State) : List (Nat × Nat) → Span × State
  | [] => (.ok [], s)
  | (va, n) :: rest =>
    match f s va with
    | (.hit l, s) => match spanBy f s rest with
      | (.ok ps, s) => (.ok ((l, n) :: ps), s)
      | r => r
    | (l, s) => (.stop va l, s)

/-- Translate every page of a list for an agent of a core, or an engine. -/
def spanOf (s : State) (core : Option Nat) (ctx kind : Nat) (ps : List (Nat × Nat)) : Span × State :=
  spanBy (fun s va => translate s core ctx kind va) s ps

/-- Translate `[va, va + n)`. -/
def span (s : State) (core : Option Nat) (ctx kind va n : Nat) : Span × State :=
  spanOf s core ctx kind (pages va n)

/-! ### Bytes at a place -/

/-- Bytes at a place, the port windows answering as registers (R393). -/
def fetchAt (s : State) (l : Loc) (n : Nat) : List Byte :=
  match l with
  | .bar0 o => windowRead s (o - 2 ^ 24) n
  | _ => readAt s l n

/-- Write bytes at a place, the port windows acting as registers (R393); a store into a declared signal's bytes leaves
its contents undefined (R172). -/
def storeAt (s : State) (l : Loc) (bs : List Byte) : State :=
  match l with
  | .bar0 o => windowWrite s (o - 2 ^ 24) bs
  | .store c o => writeAt (taintStore s c o bs.length) l bs
  | _ => writeAt s l bs

/-- Bytes of one of several pieces of an access: at a port window such an access has the wrong width (R393). -/
def fetchPiece (s : State) (l : Loc) (n : Nat) : List Byte :=
  match l with
  | .bar0 _ => List.replicate n 0
  | _ => fetchAt s l n
/-- Write one of several pieces. -/
def storePiece (s : State) (l : Loc) (bs : List Byte) : State :=
  match l with
  | .bar0 _ => s
  | _ => storeAt s l bs

/-- The bytes of a translated range. -/
def readPieces (s : State) : List (Loc × Nat) → List Byte
  | [(l, n)] => fetchAt s l n
  | ps => ps.flatMap fun (l, n) => fetchPiece s l n
/-- The bytes of a translated range read in units that are no 4-byte load, of tiles and of scales: a port window answers
none of them (R360, R393). -/
def readUnits (s : State) (ps : List (Loc × Nat)) : List Byte := ps.flatMap fun (l, n) => fetchPiece s l n
/-- Whether a translated range holds poison. -/
def poisonPieces (s : State) (ps : List (Loc × Nat)) : Bool := ps.any fun (l, n) => poisonedAt s l n
/-- Write the pieces of a range of several. -/
def storePieces (s : State) : List (Loc × Nat) → List Byte → State
  | [], _ => s
  | (l, n) :: rest, bs => storePieces (storePiece s l (bs.take n)) rest (bs.drop n)
/-- Write a translated range. -/
def writePieces (s : State) : List (Loc × Nat) → List Byte → State
  | [(l, n)], bs => storeAt s l (bs.take n)
  | ps, bs => storePieces s ps bs

/-- A piece of a longer write, which began at `start`, has been written at `[a, a + n)`: the granule it begins in, of
which the piece before wrote the first bytes, has been written whole and loses its poison (R88). -/
def cleanHead (s : State) (ps : List (Loc × Nat)) (a n start : Nat) : State :=
  let g := a / 64 * 64
  match ps with
  | (l, _) :: _ =>
    if start ≤ g && g + 64 ≤ a + n then { s with poison := s.poison.filter (· != l.key / 64) } else s
  | [] => s

/-! ### Agents of no core: engines, queues and rings (R47, R81)

Such an agent asks the host for the pages it needs and waits for the answer, of a Page Request too, as for the swap
engine and for a link: the event that makes the access then leaves everything as it is (assumption 56). -/

/-- Translate a list of pages of host memory. -/
def hostSpanOf (s : State) (ctx : Nat) : List (Nat × Nat) → Span
  | [] => .ok []
  | (va, n) :: rest =>
    match hostLook s .engine ctx va 0 with
    | .hit l => match hostSpanOf s ctx rest with
      | .ok ps => .ok ((l, n) :: ps)
      | r => r
    | l => .stop va l

/-- Where a range of device virtual memory, or of host memory under the context's PASID, lies for an agent of no core.
-/
def spaceSpan (s : State) (ctx : Nat) (virtual : Bool) (kind a n : Nat) : Span :=
  if virtual then if 2 ^ 56 < a + n then .stop a (.fault 0x20 4) else (span s none ctx kind a n).1
  else hostSpanOf s ctx (pages a n)

/-- Whether an access of an agent of no core waits. -/
def spaceWaits (s : State) (ctx : Nat) (virtual : Bool) (kind a n : Nat) : Bool :=
  match spaceSpan s ctx virtual kind a n with
  | .stop _ .wait | .stop _ .ask => true
  | _ => false

/-- A read by an agent of no core: none where it does not translate. -/
def readSpace (s : State) (ctx : Nat) (virtual : Bool) (a n : Nat) : Option (List Byte) :=
  match spaceSpan s ctx virtual 0 a n with
  | .ok ps => some (readPieces s ps)
  | .stop _ _ => none

/-- Whether such a read meets poison. -/
def poisonSpace (s : State) (ctx : Nat) (virtual : Bool) (a n : Nat) : Bool :=
  match spaceSpan s ctx virtual 0 a n with
  | .ok ps => poisonPieces s ps
  | .stop _ _ => false

/-- A write by an agent of no core: none where it does not translate. -/
def writeSpace (s : State) (ctx : Nat) (virtual : Bool) (a : Nat) (bs : List Byte) : Option State :=
  match spaceSpan s ctx virtual 1 a bs.length with
  | .ok ps => some (writePieces s ps bs)
  | .stop _ _ => none

/-- A read of device virtual memory by an agent of no core. -/
def readVirtual (s : State) (ctx va n : Nat) : Option (List Byte) := readSpace s ctx true va n
/-- Whether such a read meets poison. -/
def poisonVirtual (s : State) (ctx va n : Nat) : Bool := poisonSpace s ctx true va n
/-- A write of device virtual memory by an agent of no core. -/
def writeVirtual (s : State) (ctx va : Nat) (bs : List Byte) : Option State := writeSpace s ctx true va bs
/-- Whether such an access waits. -/
def virtualWaits (s : State) (ctx kind va n : Nat) : Bool := spaceWaits s ctx true kind va n

end Sys2Proof.Machine
end

