-- ==== Sys2Proof/Machine/Post.lean ====
section
/-! DEFINITION. What the machine reports: item records (R166), trace entries (R168), timeline numbers (R56, R140, R309)
and crossbar pulses (R142, R143). -/

namespace Sys2Proof.Machine

/-! ### The item ring (R166, Table 8.6) -/

/-- The 32 bytes of an item record. -/
def itemBytes (i : Item) (phase : Bool) : List Byte :=
  toBytes 2 i.reason ++ toBytes 1 i.source ++ toBytes 1 (i.core % 128 + bit01 phase * 128) ++
    toBytes 4 (i.record % 2 ^ 22) ++ toBytes 3 i.unit ++ toBytes 1 i.tlsel ++ toBytes 8 i.tlnum ++ toBytes 8 i.addr ++
    toBytes 4 i.detail

/-- PHASE of ring entry `tail` of a ring of `2 ^ log` entries (R65): 1 on the first lap. -/
def lapPhase (tail log : Nat) : Bool := tail / 2 ^ log % 2 == 0

/-- Whether a ring is full: posting would overwrite an entry not yet consumed. -/
def ringFull (tail head log : Nat) : Bool := 2 ^ log ≤ (tail + 2 ^ 32 - head % 2 ^ 32) % 2 ^ 32

/-- Post one item record to an enabled ring with room, or none. -/
def postNow (s : State) (ctx : Nat) (i : Item) : Option State :=
  let c := ctxOf s ctx
  let ctl := reg c 0x18B0
  let base := reg c 0x18A8
  if !flag ctl 31 || ringFull c.ittail (reg c 0x18B4) (field ctl 0 5) then none
  else
    let slot := c.ittail % 2 ^ field ctl 0 5
    match writeSpace s ctx (flag base 0) (field base 5 51 * 32 + 32 * slot)
        (itemBytes i (lapPhase c.ittail (field ctl 0 5))) with
    | none => none
    | some s =>
      let s := onCtx s ctx fun c => { c with ittail := (c.ittail + 1) % 2 ^ 32 }
      let fctl := reg (ctxOf s ctx) 0x18A4
      some (if flag fctl 31 then raiseIrq s ctx (field fctl 0 11) else s)

/-- Records that wait inside the device (R166). -/
def itemRoom : Nat := 64

/-- The records of a context that have not been posted. -/
def unposted (c : Ctx) : Nat := c.itwait.length + c.itheld.length

/-- Whether what leads from `s` to `t` posts to a context that already has as many records waiting as may wait: the
engine or the stream that must post stalls before it does (R166). -/
def itemsOver (s t : State) : Bool :=
  t.ctxs.any fun e => itemRoom ≤ (ctxOf s e.1).itwait.length && unposted (ctxOf s e.1) < unposted (ctxOf t e.1)

/-- Post an item record for which the device has room, or let it wait inside the device, with FULL set when the ring is
full (R166) and, a DESIGN CHOICE (assumption 57), also when the enabled ring does not translate. -/
def enterItem (s : State) (ctx : Nat) (i : Item) : State :=
  let c := ctxOf s ctx
  match (if c.itwait.isEmpty then postNow s ctx i else none) with
  | some s => s
  | none => onCtx s ctx fun c => { c with itwait := c.itwait ++ [i], itfull := c.itfull || flag (reg c 0x18B0) 31 }

/-- Post an item record (R166); one beyond those that may wait inside the device stands with the agent that must post
it, which stalls. -/
def postItem (s : State) (ctx : Nat) (i : Item) : State :=
  let c := ctxOf s ctx
  if c.itheld.isEmpty && c.itwait.length < itemRoom then enterItem s ctx i
  else onCtx s ctx fun c => { c with itheld := c.itheld ++ [(i, (coreOf s i.core).cycle)] }

/-- An item record that its agent leaves to be posted next, behind those that wait (R166). -/
def leaveItem (s : State) (ctx : Nat) (i : Item) : State :=
  onCtx s ctx fun c =>
    if itemRoom ≤ c.itwait.length then { c with itheld := c.itheld ++ [(i, (coreOf s i.core).cycle)] }
    else
      let ctl := reg c 0x18B0
      { c with
        itwait := c.itwait ++ [i]
        itfull := c.itfull || (flag ctl 31 && ringFull c.ittail (reg c 0x18B4) (field ctl 0 5)) }

/-- The access of an agent of no core, source `source` of Table 8.6, whose own walk of a page has read a poisoned table
entry is reported; such an entry never translates (R88). -/
def walkReport (s : State) (ctx source kind a n : Nat) : State :=
  match spaceSpan s ctx true kind a n with
  | .stop va (.fault _ _) =>
    if va < 2 ^ 56 && readsPoison s Config.towers ctx va then leaveItem s ctx ⟨0x60, source, 0x7F, 0, 0, 0, 0, va, 0⟩ else s
  | _ => s

/-- Whether a stream or the copy engine of a core stands stalled with an item record that it has to post (R166). -/
def coreHeld (s : State) (core source : Nat) : Bool :=
  s.ctxs.any fun e => e.2.itheld.any fun x => x.1.core == core && x.1.source == source
/-- Whether an agent of a core does. -/
def anyHeld (s : State) (core : Nat) : Bool :=
  s.ctxs.any fun e => e.2.itheld.any fun x => x.1.core == core && x.1.source < 8
/-- Whether an engine of no core does: swap 8, collective 9, Geyser 10, grammar 11, scheduler 12. -/
def engineHeld (s : State) (source : Nat) : Bool := s.ctxs.any fun e => e.2.itheld.any fun x => x.1.source == source

/-- Post the waiting records in order while the ring has room. -/
def flushItems (s : State) (ctx : Nat) : List Item → State
  | [] => s
  | i :: rest =>
    match postNow s ctx i with
    | none => s
    | some s => flushItems (onCtx s ctx fun c => { c with itwait := rest }) ctx rest

/-! ### Records by core -/

/-- The record a core's slice runs. -/
def recordOf (s : State) (ctx index : Nat) : Option Record := find (ctxOf s ctx).records index

/-- The slice's record on a core. -/
def sliceRecord (s : State) (core : Nat) : Option Record :=
  (coreOf s core).slice.bind fun l => recordOf s l.ctx l.index

/-- An item record for an operation of a core's slice. -/
def coreItem (s : State) (core source reason addr detail : Nat) : Item :=
  let k := coreOf s core
  ⟨reason, source, core, (k.slice.map (·.index)).getD 0, ((sliceRecord s core).map (·.unit)).getD 0, 0, 0, addr, detail⟩

/-- The device context a core runs. -/
def coreCtx (s : State) (core : Nat) : Nat := ((coreOf s core).slice.map (·.ctx)).getD 0

/-- Post an item record of a core's slice. -/
def postCore (s : State) (core source reason addr detail : Nat) : State :=
  postItem s (coreCtx s core) (coreItem s core source reason addr detail)

/-! ### The trace (R168, Table 8.7) -/

/-- The 16 bytes of a trace entry. -/
def traceBytes (kind src core dcyc payload : Nat) : List Byte :=
  toBytes 1 (kind + 16 * src) ++ toBytes 1 core ++ toBytes 2 0 ++ toBytes 4 dcyc ++ toBytes 8 payload

/-- Whether the trace buffer is full with WRAP = 0. -/
def traceFull (c : Ctx) : Bool :=
  let ctl := reg c 0x18C8
  !flag ctl 30 && 2 ^ field ctl 0 5 < c.dtpos + 16

/-- Write one entry to the trace buffer: none where it is full with WRAP = 0 or cannot be written now. -/
def traceWrite (s : State) (ctx : Nat) (bs : List Byte) : Option State :=
  let c := ctxOf s ctx
  if traceFull c then none
  else match writeVirtual s ctx (field (reg c 0x18C0) 12 44 * 4096 + c.dtpos % 2 ^ field (reg c 0x18C8) 0 5) bs with
    | none => none
    | some s => some (onCtx s ctx fun c => { c with dtpos := (c.dtpos + 16) % 2 ^ 64 })

/-- Write a core's buffered entries, those of each context in order while they can be written; `kept` stay. -/
def traceFlush (core : Nat) (s : State) (kept : List (Nat × List Byte)) : List (Nat × List Byte) → State
  | [] => onCore s core fun k => { k with traceBuffer := kept }
  | e :: rest =>
    match (if kept.any (·.1 == e.1) then none else traceWrite s e.1 e.2) with
    | none => traceFlush core s (kept ++ [e]) rest
    | some s => traceFlush core s kept rest

/-- Whether a core has room for an entry of a context. -/
def traceRoom (s : State) (core ctx : Nat) : Bool :=
  (coreOf s core).traceBuffer.length < 256 && !traceFull (ctxOf s ctx)

/-- Buffer an entry of a context on a core, with the cycles since the core's previous one. -/
def traceEnter (s : State) (core ctx kind src payload : Nat) : State :=
  onCore s core fun k => { k with
    traceBuffer := k.traceBuffer ++ [(ctx, traceBytes kind src core (k.cycle - k.lastTrace) payload)], lastTrace := k.cycle }

/-- One LOST entry replaces those of a context that a core has lost, once it has room. -/
def traceOwed (core : Nat) (s : State) (l : Nat × Nat) : State :=
  if traceRoom s core l.1 then
    onCore (traceEnter s core l.1 10 0 l.2) core fun k => { k with traceLost := erase k.traceLost l.1 }
  else s

/-- A core writes what it has buffered, and then what it has lost, as far as that can be written. -/
def flushCore (s : State) (core : Nat) : State :=
  let k := coreOf s core
  if k.traceBuffer.isEmpty && k.traceLost.isEmpty then s
  else
    let s := traceFlush core s [] k.traceBuffer
    let s := k.traceLost.foldl (traceOwed core) s
    traceFlush core s [] (coreOf s core).traceBuffer

/-- Add an entry to a core's trace: buffered, and written as soon as it can be. An entry that finds 256 buffered or the
trace buffer full with WRAP = 0 is lost. -/
def trace (s : State) (core kind src payload : Nat) : State :=
  match (coreOf s core).slice with
  | none => s
  | some l =>
    if !flag (reg (ctxOf s l.ctx) 0x18C8) 31 then s
    else
      let s := flushCore s core
      if traceRoom s core l.ctx then flushCore (traceEnter s core l.ctx kind src payload) core
      else onCtx (onCore s core fun k => { k with traceLost := adjust 0 k.traceLost l.ctx (· + 1) }) l.ctx fun c =>
        { c with dtfull := true }

/-- The stall of a stream or the copy engine of a core that could not post an item record ends (R166). -/
def itemStall (s : State) (i : Item) (since : Nat) : State :=
  if i.core < Config.cores && i.source < 8 then
    trace s i.core 3 i.source (((coreOf s i.core).cycle - since) % 2 ^ 32 + 4 * 2 ^ 32)
  else s

/-- The records of stalled agents follow, in order, while the device has room. -/
def releaseItems (s : State) (ctx : Nat) : List (Item × Nat) → State
  | [] => s
  | (i, t) :: rest =>
    if itemRoom ≤ (ctxOf s ctx).itwait.length then s
    else
      let s := onCtx s ctx fun c => { c with itheld := rest }
      releaseItems (itemStall (enterItem s ctx i) i t) ctx rest

/-- Let item records that wait post. -/
def pumpItems (s : State) (ctx : Nat) : State :=
  let s := flushItems s ctx (ctxOf s ctx).itwait
  releaseItems s ctx (ctxOf s ctx).itheld

/-! ### Timelines -/

/-- Raise a timeline's value over the numbers done. -/
def tlSettle : Nat → Timeline → Timeline
  | 0, t => t
  | fuel + 1, t =>
    if t.done.contains (t.value + 1) then
      tlSettle fuel { t with value := t.value + 1, done := t.done.filter fun n => n != t.value + 1 }
    else t

/-- The timeline with number `n` completed: its value is the highest such that every number up to it is done. -/
def tlComplete (t : Timeline) (n : Nat) : Timeline :=
  if n ≤ t.value || t.done.contains n then t
  else tlSettle (t.done.length + 1) { t with done := t.done ++ [n] }

/-- The key of an engine timeline: the selector of WSEL (Table 4.7), and the core, or for 8-10 the tower. -/
def tlKey (sel core : Nat) : Nat := 128 * sel + (if 8 ≤ sel then towerOfCore core else core)

/-- A context's timeline. -/
def tlOf (s : State) (ctx key : Nat) : Timeline := look {} (ctxOf s ctx).timelines key

/-- Take the next number of a timeline. -/
def tlTake (s : State) (ctx key : Nat) : Nat × State :=
  let t := tlOf s ctx key
  (t.taken + 1, onCtx s ctx fun c => { c with timelines := put c.timelines key { t with taken := t.taken + 1 } })

/-- Complete a number of a timeline. -/
def tlDone (s : State) (ctx key n : Nat) : State :=
  onCtx s ctx fun c => { c with timelines := put c.timelines key (tlComplete (look {} c.timelines key) n) }

/-! ### Pulses (R142, R143) -/

/-- COUNT raised by one, saturating. -/
def countUp (c : Counter) : Counter := { c with count := Nat.min 65535 (c.count + 1) }

/-- The effect of a pulse on a core's counters: those enabled that select the input. -/
def pulseCore (k : Core) (input : Nat) : Core :=
  { k with counters := k.counters.map fun (n, c) => (n, if c.en && c.sel == input then countUp c else c) }

/-- Pulse a crossbar input of a core. -/
def pulse (s : State) (core input : Nat) : State := onCore s core fun k => pulseCore k input

/-- Pulse an input of every core of a list that a context holds. -/
def pulseAll (s : State) (ctx input : Nat) (cores : List Nat) : State :=
  cores.foldl (fun s c => if (coreOf s c).slice.map (·.ctx) == some ctx then pulse s c input else s) s

/-- The cores of a tower. -/
def towerCores (t : Nat) : List Nat := (List.range Config.cores).filter fun c => towerOfCore c == t

/-- A stream takes its timeline's next number for a `.pulse` (R309). -/
def pulseTake (s : State) (core stream : Nat) : Nat × State := tlTake s (coreCtx s core) (tlKey (stream + 1) core)

/-- A number that a stream took completes, and its input pulses (R142, R309). -/
def pulseEnd (s : State) (core stream n : Nat) : State :=
  pulse (tlDone s (coreCtx s core) (tlKey (stream + 1) core) n) core stream

/-- A stream takes its timeline's next number and completes it as it pulses its input (R142, R309). -/
def streamPulse (s : State) (core stream : Nat) : State :=
  let (n, s) := pulseTake s core stream
  pulseEnd s core stream n

end Sys2Proof.Machine
end

