-- ==== Sys2Proof/Machine/Records.lean ====
section
/-! DEFINITION. Continuation records: the store, acceptance, joins, record ends and failures, and the state of a core that
a slice owns (R95-R101, R113, R132, R133, R167). -/

namespace Sys2Proof.Machine

/-! ### Rectangles -/

/-- The cores of a rectangle by its origin core. -/
def rectangle (origin rows cols : Nat) : List Nat :=
  (List.range rows).flatMap fun i => (List.range cols).map fun j => origin + 16 * i + j

/-- Whether a rectangle lies inside the grid (R102). -/
def fitsGrid (origin rows cols : Nat) : Bool :=
  coreRow origin + rows ≤ Config.rows && coreCol origin + cols ≤ Config.cols

/-- Whether a shape fits some rectangle of live cores (R20, R102). -/
def placeable (s : State) (rows cols : Nat) : Bool :=
  (List.range Config.cores).any fun o => fitsGrid o rows cols && (rectangle o rows cols).all (coreLive s)

/-- The cores of a record's slice. -/
def recordCores (r : Record) : List Nat := rectangle (r.home.getD 0) r.rows r.cols

/-! ### The store (Table 5.2) -/

/-- Code of a record state (Table 5.3). -/
def stateCode : RecState → Nat
  | .waiting => 1 | .ready => 2 | .running => 3 | .draining => 4 | .checkpointed => 5 | .done => 6 | .failed => 7

/-- The architectural bytes 0-55 of a record. -/
def recordBytes (r : Record) : List Byte :=
  toBytes 6 r.code ++ toBytes 6 r.frame ++ toBytes 2 r.join ++ toBytes 1 r.rows ++ toBytes 1 r.cols ++
    toBytes 5 r.deadline ++ toBytes 3 r.est ++ toBytes 4 r.budget ++ toBytes 1 r.prio ++ toBytes 1 r.policy ++
    toBytes 3 r.sctx ++ toBytes 1 (stateCode r.state + 16 * bit01 r.missed + 32 * bit01 r.extended) ++
    toBytes 6 r.ranges ++ toBytes 6 r.submit ++ toBytes 2 0 ++ toBytes 3 r.unit ++
    toBytes 1 (match r.home with
      | some h => h + 128
      | none => 0) ++ toBytes 4 r.used

/-- Slots of a context's store: 2^LOG2N, none for LOG2N outside 10-22. -/
def storeSize (c : Ctx) : Nat :=
  let n := field (reg c 0x1858) 0 5
  if 10 ≤ n && n ≤ 22 then 2 ^ n else 0

/-- Write a record's image into the store in HBM. -/
def recordImage (s : State) (ctx i : Nat) (r : Record) : State :=
  writeAt s (.hbm (field (reg (ctxOf s ctx) 0x1850) 6 50 * 64 + 64 * i)) (recordBytes r)

/-- Put a record at an index. -/
def putRecord (s : State) (ctx i : Nat) (r : Record) : State :=
  recordImage (onCtx s ctx fun c => { c with records := put c.records i r }) ctx i r

/-- Change a record by `f`, if it is in the store. -/
def onRecord (s : State) (ctx i : Nat) (f : Record → Record) : State :=
  match recordOf s ctx i with
  | none => s
  | some r => putRecord s ctx i (f r)

/-- The store has a free slot. -/
def storeFree (s : State) (ctx : Nat) : Bool := (ctxOf s ctx).records.length < storeSize (ctxOf s ctx)

/-- The slot a new record takes: the first free one at or after a free value, since which free slot is taken is open
(assumption 2). -/
def pickSlot (s : State) (ctx : Nat) : Nat × State :=
  let c := ctxOf s ctx
  let n := Nat.max 1 (storeSize c)
  let (w, s) := drawWord s
  let k := w.toNat % n
  let used := c.records.map (·.1)
  (((List.range n).find? fun i => !used.contains ((k + i) % n)).elim 0 fun i => (k + i) % n, s)

/-! ### Submission (R97-R100) -/

/-- The resolved deadline (R98): the module time with these low 40 bits in [MTIME − 2^39, MTIME + 2^39). -/
def resolveDeadline (now d : Nat) : Int :=
  let low : Int := now - 2 ^ 39
  low + (d - low) % 2 ^ 40

/-- One entry of a range descriptor: none if a reserved bit is set or it passes 2^56. -/
def rangeEntry (im : List Byte) (i : Nat) : Option (Nat × Nat) :=
  let base := imageAt im (16 * i) 8
  let len := imageAt im (16 * i + 8) 8
  if 2 ^ 56 ≤ base || 2 ^ 40 ≤ len || 2 ^ 56 < base + len then none else some (base, len)

/-- A poisoned range descriptor is reported for the scheduler that reads it (R88). -/
def rangePoison (s : State) (ctx ptr unit : Nat) : State :=
  if ptr == 0 || ptr % 128 != 0 then s
  else if poisonVirtual s ctx ptr 128 then postItem s ctx ⟨0x60, 12, 0x7F, 0, unit, 0, 0, ptr, 0⟩
  else walkReport s ctx 12 0 ptr 128

/-- The reads and the writes a range descriptor declares (R100): none fails the submission, as it does for a pointer that
is not 128-byte aligned (assumption 21, DESIGN CHOICE), of which R100 says nothing. -/
def readRanges (s : State) (ctx ptr : Nat) : Option (List (Nat × Nat) × List (Nat × Nat)) :=
  if ptr == 0 then some ([], [])
  else if ptr % 128 != 0 then none
  else match readVirtual s ctx ptr 128 with
    | none => none
    | some im =>
      let es := (List.range 8).map (rangeEntry im)
      if es.any (·.isNone) then none
      else
        let used := fun l : List (Option (Nat × Nat)) => l.filterMap fun e => e.bind fun p => if p.2 == 0 then none else some p
        some (used (es.take 4), used (es.drop 4))

/-- Whether two declared ranges overlap. -/
def overlap (a b : Nat × Nat) : Bool := a.1 < b.1 + b.2 && b.1 < a.1 + a.2 && 0 < a.2 && 0 < b.2

/-- Whether two sets of ranges overlap. -/
def overlaps (xs ys : List (Nat × Nat)) : Bool := xs.any fun x => ys.any (overlap x)

/-- The three overlap kinds of R100: true, anti, write after write. -/
def conflicts (reads writes reads' writes' : List (Nat × Nat)) : Bool :=
  overlaps reads writes' || overlaps writes reads' || overlaps writes writes'

/-- The records a new one depends on: earlier ones of the context, not of its own launch, whose ranges conflict. -/
def dependsOn (c : Ctx) (r : Record) : List Nat :=
  (c.records.filter fun (_, p) => (r.launch.isNone || p.launch != r.launch) &&
    conflicts r.reads r.writes p.reads p.writes).map (·.1)

/-- How a submission ends: accepted at an index, waiting for a slot or for JOIN room, or failed by its ranges. -/
inductive Accepted where
  | at (index : Nat)
  | full
  | badRanges
  deriving DecidableEq, Repr

/-- The resolved deadline of a record that names none: DSLACK after its submission (R97). -/
def defaultLimit (s : State) (ctx : Nat) : Int := (s.mtime : Int) + reg (ctxOf s ctx) 0x1828

/-- Accept a record (R97-R100): defaults, dependences, the module-wide SUBMIT number, and READY when its JOIN is 0. A
resolved deadline that its submitter has formed is given as `limit`. -/
def accept (s : State) (ctx : Nat) (r : Record) (limit : Option Int := none) : Accepted × State :=
  let c := ctxOf s ctx
  if !storeFree s ctx then (.full, s)
  else match readRanges s ctx r.ranges with
    | none => (.badRanges, rangePoison s ctx r.ranges r.unit)
    | some (reads, writes) =>
      let r := { r with reads := reads, writes := writes }
      let preds := dependsOn c r
      if 65535 < r.join + preds.length then (.full, s)
      else
        let limit := limit.getD
          (if r.deadline == 0 then defaultLimit s ctx else resolveDeadline s.mtime r.deadline)
        let r := { r with
          deadline := unsigned 40 limit, limit := limit
          budget := if r.budget == 0 then 2 ^ 32 - 1 else r.budget
          join := r.join + preds.length, preds := preds
          state := if r.join + preds.length == 0 then .ready else .waiting
          submit := s.submits, est0 := r.est, prio0 := r.prio, missed := false, extended := false, home := none, used := 0 }
        let (i, s) := pickSlot s ctx
        (.at i, putRecord { s with submits := s.submits + 1 } ctx i r)

/-- Whether the range descriptor of a submission cannot be read yet. -/
def rangesWait (s : State) (ctx ptr : Nat) : Bool := ptr != 0 && ptr % 128 == 0 && virtualWaits s ctx 0 ptr 128

/-- A record from the fields of a 64-byte image (Table 5.2). -/
def recordFrom (im : List Byte) : Record :=
  { code := imageAt im 0 6, frame := imageAt im 6 6, join := imageAt im 12 2, rows := imageAt im 14 1 % 16
    cols := imageAt im 15 1 % 32, deadline := imageAt im 16 5, est := imageAt im 21 3, budget := imageAt im 24 4
    prio := imageAt im 28 1, policy := imageAt im 29 1, sctx := imageAt im 30 3 % 2 ^ 20, state := .waiting
    limit := 0, ranges := imageAt im 34 6, submit := 0, unit := imageAt im 48 3 }

/-- The limits of Table 5.2 on a submitted image: shape, alignment, reserved bits. -/
def recordFieldsOk (im : List Byte) : Bool :=
  imageAt im 0 6 % 128 == 0 && 1 ≤ imageAt im 14 1 && imageAt im 14 1 ≤ 8 && 1 ≤ imageAt im 15 1 &&
    imageAt im 15 1 ≤ 16 && imageAt im 29 1 < 8 && imageAt im 30 3 < 2 ^ 20 && zeroAt im 46 2 &&
    imageAt im 33 1 / 64 == 0

/-! ### Joins (R99, R316) -/

/-- Decrement the JOIN of a WAITING record; at zero it becomes READY. -/
def joinDown (s : State) (ctx i : Nat) : State :=
  onRecord s ctx i fun r =>
    if r.state == .waiting then
      { r with join := r.join - 1, state := if r.join ≤ 1 then .ready else .waiting }
    else r

/-! ### The state a slice owns (R133) -/

/-- A core with the state a slice owns at its starting values; its caches, the tensor entries among them (R148), its
resident descriptors and its trace are the core's own. -/
def freshCore (k : Core) : Core :=
  { cycle := k.cycle, signals := k.signals, regions := k.regions, resident := k.resident, tids := k.tids
    tidCtx := k.tidCtx, otherTids := k.otherTids, tlb := k.tlb, fetched := k.fetched, lastTrace := k.lastTrace
    traceBuffer := k.traceBuffer, traceLost := k.traceLost
    synced := k.synced, corrected := k.corrected }

/-- Release the regions of a record's own on a core (R135). -/
def releaseRegions (k : Core) (ctx i : Nat) : Core :=
  { k with regions := k.regions.filter fun g => !(g.ctx == ctx && g.record == some i) }

/-- A core leaves its slice: END is traced and what the slice owned is discarded. -/
def vacate (s : State) (core : Nat) : State := onCore (trace s core 9 0 0) core freshCore

/-! ### The end of a record (R101, R113, R126) -/

/-- A unit of a launch has ended (R58): with the last one the packet's status is decided. -/
def launchUnitEnd (s : State) (ctx : Nat) (launch : Option (Nat × Nat)) (failed : Bool) : State :=
  match launch with
  | none => s
  | some (q, number) =>
    onCtx s ctx fun c => { c with queues := adjust {} c.queues q fun u =>
      { u with packets := u.packets.map fun p =>
          if p.number != number then p
          else
            let p := { p with live := p.live - 1, failed := p.failed + bit01 failed }
            if p.live == 0 && p.uncreated == 0 then { p with status := some (if p.failed == 0 then 0 else 1) } else p } }

/-- The address of entry `k` of a batch buffer. -/
def batchEntry (frame k : Nat) : Nat := frame + 64 + 32 * k
/-- The address of batch buffer `b` of a queue (R116). -/
def bufferAt (g : GQueue) (b : Nat) : Nat := imageAt g.config 24 6 + b * (64 + 32 * imageAt g.config 12 2)
/-- The owner context of a queue. -/
def queueOwner (g : GQueue) : Nat := imageAt g.config 3 1

/-- The entry at an address among a batch's is marked as taken. -/
def markEntries (a frame : Nat) (es : List Entry) : List Entry :=
  es.zipIdx.map fun (e, k) => if batchEntry frame k == a then { e with taken := true } else e

/-- Geyser knows that the JOIN of the batch entry at an address has been taken (R127). -/
def markTaken (s : State) (ctx a : Nat) : State :=
  { s with towers := s.towers.map fun (t, w) => (t, { w with queues := w.queues.map fun (q, g) =>
      (q, if queueOwner g == ctx then
        { g with batches := g.batches.map fun (b, es) => (b, markEntries a (bufferAt g b) es) } else g) }) }

/-- The entry of a batch that lies at an address, with the index of the record that fires it. -/
def entryAt (s : State) (ctx a : Nat) : Option (Nat × Entry) :=
  s.towers.findSome? fun (_, w) => w.queues.findSome? fun (_, g) =>
    if queueOwner g != ctx then none
    else g.batches.findSome? fun (b, es) =>
      (es.zipIdx.find? fun p => batchEntry (bufferAt g b) p.2 == a).map fun p => (look 0 g.buffers b, p.1)

/-- Whether a batch entry can be read back: none where it cannot or is poisoned (R125), else whether it is DONE. -/
def readToken (s : State) (ctx a : Nat) : Option Bool :=
  if poisonVirtual s ctx a 32 then none
  else (readVirtual s ctx a 32).map fun im => flag (imageAt im 27 1) 0

/-- Geyser takes the JOIN of a batch entry, sets its DONE, and FAILED for one read from poison, and reports it (R125,
R126). -/
def takeToken (s : State) (ctx index unit a : Nat) (e : Entry) (poison : Bool) : State :=
  let s := postItem s ctx ⟨if poison then 0x88 else 0x87, 10, 0x7F, index, unit, 0, 0, a, 0⟩
  let s := (writeVirtual s ctx (a + 27) (toBytes 1 (if poison then 3 else 1))).getD (walkReport s ctx 10 1 (a + 27) 1)
  joinDown (markTaken s ctx a) ctx e.crec

/-- Geyser's report and JOIN for one entry of a failed batch, unless it is DONE (R126). -/
def failToken (ctx index unit frame : Nat) (s : State) (p : Entry × Nat) : State :=
  let a := batchEntry frame p.2
  if p.1.taken then s
  else match readToken s ctx a with
    | none => takeToken s ctx index unit a p.1 true
    | some true => s
    | some false => takeToken s ctx index unit a p.1 false

/-- Geyser's report and JOIN for one entry of an ended batch that lies poisoned in its buffer (R125). -/
def endToken (ctx index unit frame : Nat) (s : State) (p : Entry × Nat) : State :=
  let a := batchEntry frame p.2
  if !p.1.taken && poisonVirtual s ctx a 32 then takeToken s ctx index unit a p.1 true else s

/-- Queue `q` of a tower. -/
def gqueueOf (s : State) (t q : Nat) : GQueue := look {} (towerOf s t).queues q
/-- Change it. -/
def onGQueue (s : State) (t q : Nat) (f : GQueue → GQueue) : State :=
  onTower s t fun w => { w with queues := adjust {} w.queues q f }

/-- Whether the buffer of a batch waits for the swap engine, a link or the host (R74). -/
def batchWaits (s : State) (t : Nat) (e : EndedBatch) : Bool :=
  let g := gqueueOf s t e.queue
  virtualWaits s e.ctx 1 (bufferAt g e.buffer) (64 + 32 * (look [] g.batches e.buffer).length)

/-- Free the batch buffer of an ended firing record; the tokens of a failed one, and the poisoned ones, are reported
first (R121, R125, R126). -/
def settleBatch (s : State) (t : Nat) (e : EndedBatch) : State :=
  let g := gqueueOf s t e.queue
  let frame := bufferAt g e.buffer
  let s := (look [] g.batches e.buffer).zipIdx.foldl
    (if e.failed then failToken e.ctx e.index e.unit frame else endToken e.ctx e.index e.unit frame) s
  onGQueue s t e.queue fun g => { g with buffers := erase g.buffers e.buffer, batches := erase g.batches e.buffer }

/-- The batch of a firing record that ends: at once, or as soon as its buffer can be reached. -/
def endBatch (s : State) (ctx i : Nat) (r : Record) (failed : Bool) : State :=
  match r.batch with
  | none => s
  | some (t, q, b) =>
    let e : EndedBatch := ⟨ctx, q, b, i, r.unit, failed⟩
    if batchWaits s t e then onTower s t fun w => { w with ended := w.ended ++ [e] } else settleBatch s t e

/-- The ended batches of a tower whose buffers can be reached. -/
def settleBatches (s : State) (t : Nat) : State :=
  ((towerOf s t).ended.filter fun e => !batchWaits s t e).foldl (fun s e =>
    settleBatch (onTower s t fun w => { w with ended := w.ended.erase e }) t e) s

/-- The end of a record: its dependents' JOINs (R101), its launch, its batch, its regions and slots, and its slot of the
store. -/
def endRecord (s : State) (ctx i : Nat) (failed : Bool) : State :=
  match recordOf s ctx i with
  | none => s
  | some r =>
    let s := recordImage s ctx i { r with state := if failed then .failed else .done }
    let s := onCtx s ctx fun c => { c with
      records := erase c.records i, slots := c.slots.filter fun l => l.record != i }
    let deps := ((ctxOf s ctx).records.filter fun (_, p) => p.preds.contains i).map (·.1)
    let s := deps.foldl (fun s j =>
      joinDown (onRecord s ctx j fun p => { p with preds := p.preds.filter (· != i) }) ctx j) s
    let s := launchUnitEnd s ctx r.launch failed
    let s := endBatch s ctx i r failed
    { s with
      cores := s.cores.map fun (n, k) => (n, releaseRegions k ctx i)
      reserved := s.reserved.filter fun v => !(v.ctx == ctx && v.index == i) }

/-- Bytes completed of a copy command (CPY); a FEED counts elements of W bits. -/
def copiedBytes (c : CopyCmd) : Nat :=
  if imageAt c.image 0 1 == 4 then Nat.min (imageAt c.image 4 4) (c.done * (4 * 2 ^ (imageAt c.image 2 1 % 8)) / 8) else c.done

/-- A nest that runs, or stands stopped, when its slice fails: reported with its iteration, and its number counts
(R167). -/
def failNest (ctx i unit reason core : Nat) (s : State) (e : Nat × Engine) : State :=
  match e.2.nest with
  | none => s
  | some n => tlDone (postItem s ctx ⟨reason, e.1 + 2, core, i, unit, e.1 + 3, n.number, 0, n.iteration⟩) ctx
      (tlKey (e.1 + 3) core) n.number

/-- The number of its stream's timeline that an instruction took for its `.pulse` when it issued, the next one, is
complete when it fails; 0 for one that took none (R167, R309). -/
def failPulse (ctx core : Nat) (s : State) (e : Nat × Stream) : Nat × State :=
  if e.2.pulse && e.2.began.isSome then
    let (n, s) := tlTake s ctx (tlKey (e.1 + 1) core)
    (n, tlDone s ctx (tlKey (e.1 + 1) core) n)
  else (0, s)

/-- Report the partly done region operations of the streams of a core of a record, each with its PROGRESS and the number
it took (R167). -/
def reportRegions (ctx i unit reason core : Nat) (s : State) (e : Nat × Stream) : State :=
  let (n, s) := failPulse ctx core s e
  if e.2.progress == 0 then s
  else postItem s ctx ⟨reason, e.1, core, i, unit, if n == 0 then 0 else e.1 + 1, n, 0, e.2.progress⟩

/-- The work in flight that a checkpointed record's slots hold: copy commands, nests and partly done region operations
are counted and reported (R105, R167). -/
def abortSaved (s : State) (ctx i unit reason : Nat) : State :=
  let mine := (ctxOf s ctx).slots.filter fun l => l.record == i
  let s := (mine.flatMap fun l => l.saved.copies.map fun c => (l.core, c)).foldl (fun s (core, c) =>
    tlDone (postItem s ctx ⟨0xA3, 7, core, i, unit, 7, c.number, 0, copiedBytes c⟩) ctx (tlKey 7 core) c.number) s
  mine.foldl (fun s l => l.saved.streams.foldl (reportRegions ctx i unit reason l.core)
    (l.saved.engines.foldl (failNest ctx i unit reason l.core) s)) s

/-- A record ends by failure: its item, then its end (R113). -/
def failRecord (s : State) (ctx i reason : Nat) : State :=
  match recordOf s ctx i with
  | none => s
  | some r =>
    let s := abortSaved s ctx i r.unit reason
    endRecord (postItem s ctx ⟨reason, 12, r.home.getD 0x7F, i, r.unit, 0, 0, 0, 0⟩) ctx i true

/-! ### Stalls (R168) -/

/-- The STALL cause of what a stream waits for (Table 8.7, R182, R300, R360); a link or the host as a walk. -/
def waitCause : Waiting → Nat
  | .cause n => n
  | .fifo _ => 1
  | .page _ _ => 2
  | .transit _ _ => 5
  | .front _ _ | .block _ _ | .seal _ => 8
  | .timeline _ _ _ | .geyser _ _ | .eqstat _ _ _ | .gate _ => 10

/-- Who is traced as stalled: the signal logic for an access or a block of its own, else the stream (Table 8.7). -/
def waitSource (stream : Nat) : Waiting → Nat
  | .page _ kind | .transit _ kind => if signalKind kind then 8 else stream
  | .block _ _ | .seal _ => 8
  | _ => stream

/-- Trace a stall or a flag wait of a stream of a core that ends (R168, R300). -/
def traceWaitOf (s : State) (core stream : Nat) (st : Stream) : State :=
  let length := ((coreOf s core).cycle - st.since) % 2 ^ 32
  match st.waiting with
  | none => s
  | some (.gate k) => trace s core 6 stream (length + k * 2 ^ 32)
  | some w => trace s core 3 (waitSource stream w) (length + waitCause w % 16 * 2 ^ 32)

/-- Trace the stalls that the streams and the nests of a core stand in when its slice ends. -/
def endStalls (s : State) (core : Nat) : State :=
  let k := coreOf s core
  let s := k.streams.foldl (fun s e => traceWaitOf s core e.1 e.2) s
  k.engines.foldl (fun s e => match e.2.nest.bind (·.stall) with
    | some (c, since) => trace s core 3 (e.1 + 2) ((k.cycle - since) % 2 ^ 32 + c * 2 ^ 32)
    | none => s) s

/-! ### A failed slice (R167) -/

/-- Abort the copy commands a context still has in a core's queue: each is counted and reported, and the stall it stood
in traced. -/
def abortCopies (s : State) (core ctx : Nat) : List CopyCmd → State
  | [] => onCore s core fun k => { k with copies := k.copies.filter fun c => c.ctx != ctx }
  | c :: rest =>
    if c.ctx != ctx then abortCopies s core ctx rest
    else
      let i := { coreItem s core 7 0xA3 0 (copiedBytes c) with tlsel := 7, tlnum := c.number }
      let s := match c.stall with
        | some (w, since) => trace s core 3 7 (((coreOf s core).cycle - since) % 2 ^ 32 + w * 2 ^ 32)
        | none => s
      abortCopies (tlDone (postItem s ctx i) ctx (tlKey 7 core) c.number) core ctx rest

/-- The numbers that outstanding loads of a core's streams took for a `.pulse` complete with them (R167, R309). -/
def failLoads (s : State) (core : Nat) : State :=
  (coreOf s core).streams.foldl (fun s (n, st) =>
    (st.loads.filterMap (·.pulse)).foldl (fun s m => pulseEnd s core n m) s) s

/-- One core of a failing slice; events that its streams have recorded are discarded with it (R165). -/
def failCore (ctx reason : Nat) (s : State) (core : Nat) : State :=
  let i := coreItem s core 0 0 0 0
  let s := onCtx s ctx fun c => { c with pending := c.pending.filter (·.1 != core) }
  let s := failLoads (abortCopies s core ctx (coreOf s core).copies) core
  let s := (coreOf s core).engines.foldl (failNest ctx i.record i.unit reason core) s
  let s := (coreOf s core).streams.foldl (reportRegions ctx i.record i.unit reason core) s
  vacate (endStalls s core) core

/-- A slice fails: the work of its cores is accounted for, then its record ends by failure. -/
def failSlice (s : State) (ctx i reason : Nat) : State :=
  match recordOf s ctx i with
  | none => s
  | some r => failRecord ((recordCores r).foldl (failCore ctx reason) s) ctx i reason

/-- The current budget of a record (R106, R319): its BUDGET, twice that once extended. -/
def budgetOf (r : Record) : Nat := if r.extended then 2 * r.budget else r.budget

/-- SCHSTAT.BUDFAIL counts a slice failed on budget, saturating (R106). -/
def countBudget (s : State) (ctx : Nat) : State :=
  onCtx s ctx fun c =>
    let v := reg c 0x1878
    setReg c 0x1878 (setField v 16 16 (Nat.min 65535 (field v 16 16 + 1)))

end Sys2Proof.Machine
end

