-- ==== Sys2Proof/Machine/Ops.lean ====
section
/-! DEFINITION. What every instruction shares: the stream that issues, how an instruction ends, core-store regions, code
fetch, taking an exception and returning from one (R105, R135, R157-R165, R243-R246, R253). -/

namespace Sys2Proof.Machine

/-! ### How an instruction ends -/

/-- Why an instruction does not complete: an event of Table 8.1 with its INFO, where a rule gives one; a signal fault
that may have no lag, or name no signal either, so that those fields of its INFO are free (R196, assumption 2); a
translation fault; an address that needs a walk; a tier-2 page whose ATS answer is outstanding; a wait; a register whose
load is outstanding, so that the instruction does not issue; a core-store region to be claimed or restored first. -/
inductive Trap where
  | event (reason : Nat) (info : Option Word)
  | signal (reason : Nat) (n lag : Option Nat)
  | unready
  | page (va kind reason level : Nat)
  | walk (va kind : Nat)
  | ask (va kind : Nat)
  | wait (w : Waiting)
  | claim (index : Nat)
  deriving DecidableEq, Repr

/-- A computation that may not complete. -/
abbrev Act (α : Type) := Except Trap α

/-- An event whose INFO no rule gives. -/
def stopWith {α : Type} (reason : Nat) : Act α := .error (.event reason none)
/-- INVALID_OPERAND with an INFO. -/
def invalid {α : Type} (info : Word) : Act α := .error (.event 0x09 (some info))

/-! ### The stream that issues -/

/-- Whether the issuing stream is a context handler: `cc` of the origin core in handler mode (R164). -/
def inHandler (s : State) : Bool := s.curStream == 0 && (coreOf s s.curCore).handler.isSome

/-- The state of the issuing stream, its own or the handler's. -/
def me (s : State) : Stream :=
  let k := coreOf s s.curCore
  match (if s.curStream == 0 then k.handler else none) with
  | some h => h.file
  | none => streamOf k s.curStream

/-- The state with the issuing stream changed by `f`. -/
def onMe (s : State) (f : Stream → Stream) : State :=
  onCore s s.curCore fun k =>
    match (if s.curStream == 0 then k.handler else none) with
    | some h => { k with handler := some { h with file := f h.file } }
    | none => { k with streams := put k.streams s.curStream (f (streamOf k s.curStream)) }

/-- The core that executes. -/
def myCore (s : State) : Core := coreOf s s.curCore
/-- The device context of the slice that executes. -/
def myCtx (s : State) : Nat := coreCtx s s.curCore
/-- The record of the slice that executes. -/
def myRecord (s : State) : Option Record := sliceRecord s s.curCore
/-- The SUBMIT number of the record of the slice on a core, which names it for good. -/
def submitOn (s : State) (core : Nat) : Nat := ((sliceRecord s core).map (·.submit)).getD 0

/-- The address after an instruction of `len` bytes (R243): past word 31 of a line comes word 2 of the next. -/
def nextPc (pc : Word) (len : Nat) : Word :=
  let q := pc + word len
  if q.toNat % 128 == 0 then q + 8 else q

/-- Trace the wait of the issuing stream that ends. -/
def traceWait (s : State) (st : Stream) : State := traceWaitOf s s.curCore s.curStream st

/-- A stream stands in no instruction: what the last one had begun, resolved and read is over. -/
def endOp (st : Stream) : Stream :=
  { st with
    waiting := none, progress := 0, part := 0, heads := [], latch := [], cut := none, opened := [], covered := [], served := false
    reported := [], began := none, atIssue := none, mma := none, entering := false, replay := false }

/-- The instruction of the issuing stream has issued (R162, R253, R309): the program counter moves on or to a target,
the issue count rises, the shadows of pending write-backs shorten, and a pulse is emitted. -/
def finish (s : State) (len : Nat) (target : Option Word) : State :=
  let s := traceWait s (me s)
  let s := onCore s s.curCore fun k => dropWalked k s.curStream
  let s := onMe s fun st => { endOp st with
    pc := target.getD (nextPc st.pc len)
    issue := st.issue + 1
    wbs := st.wbs.map fun w => { w with remaining := w.remaining - 1 }
    matched := false }
  if s.guard.pulse then streamPulse s s.curCore s.curStream else s

/-- The instruction that a stream of a core stands in has issued, now or before: its cycle, its `.pulse` and the
registers it uses stay (R176, R294, R309). -/
def keepIssue (pulse : Bool) (k : Core) (st : Stream) : Stream :=
  { st with
    began := some (st.began.getD k.cycle), pulse := pulse
    atIssue := some (st.atIssue.getD ⟨k.tshp, k.scbase, k.cbook, k.key, k.ctr⟩) }

/-- Whether a wait is one for a translation, during which the replay of an access goes on (R165). -/
def walks : Waiting → Bool
  | .page _ _ | .transit _ _ | .cause 2 => true
  | _ => false

/-- The issuing stream waits; it retries its instruction at its next issue. A wait for something else begins a new stall
(R168). `issued` tells whether the instruction has issued, or stalls before it issues (R294). -/
def holdAs (issued : Bool) (s : State) (w : Waiting) : State :=
  let st := me s
  let anew := !st.waiting.any fun v => waitCause v == waitCause w
  onMe (if anew then traceWait s st else s) fun st => { (if issued then keepIssue s.guard.pulse (myCore s) st else st) with
    since := if anew then (myCore s).cycle else st.since, waiting := some w, pulse := s.guard.pulse, replay := st.replay && walks w }

/-- An instruction that has issued waits. -/
def hold (s : State) (w : Waiting) : State := holdAs true s w

/-! ### Core-store regions (R105, R135) -/

/-- Regions of the region map. -/
def regionCount : Nat := 127

/-- The region a record of a context sees at an index on a core: the one pinned by its context, else its own. -/
def regionAt (k : Core) (ctx record index : Nat) : Option Region :=
  let at_ := fun (r : Option Nat) => k.regions.find? fun g => g.index == index && g.ctx == ctx && g.record == r
  match at_ none with
  | some g => some g
  | none => at_ (some record)

/-- The lowest free physical region of a core (assumption 15). -/
def freeRegion (k : Core) : Option Nat := firstBelow regionCount fun p => !k.regions.any fun g => g.physical == p

/-- Whether a region is held by a checkpointed record. -/
def heldRegion (s : State) (g : Region) : Bool :=
  match g.record with
  | none => false
  | some i => ((recordOf s g.ctx i).map (·.state)) == some .checkpointed

/-- The region a first touch takes: of those checkpointed records hold, the highest physical one (R105). -/
def victimRegion (s : State) (k : Core) : Option Region :=
  (k.regions.filter (heldRegion s)).foldl (fun best g =>
    match best with
    | none => some g
    | some b => if b.physical < g.physical then some g else some b) none

/-- Key of the first byte of a checkpoint slot of a context, in tier-0 HBM at CKBASE. -/
def slotKey (s : State) (ctx number : Nat) : Nat :=
  (Loc.hbm (field (reg (ctxOf s ctx) 0x1868) 27 29 * 2 ^ 27 + number * 2 ^ 27)).key
/-- Where in its slot a saved region lies: the layout of a slot is not stated, and the model puts region `index` at its
MiB (assumption 47, DESIGN CHOICE). -/
def savedKey (s : State) (ctx number index : Nat) : Nat := slotKey s ctx number + index * 2 ^ 20

/-- Where the slots of a record on a core hold a region. -/
def savedRegion (s : State) (ctx record core index : Nat) : Option Nat :=
  ((ctxOf s ctx).slots.find? fun l => l.record == record && l.core == core && l.regions.contains index).map fun l =>
    savedKey s ctx l.number index

/-- The slot of a record on a core that was taken last. -/
def lastSlot (c : Ctx) (record core : Nat) : Option Slot :=
  (c.slots.filter fun l => l.record == record && l.core == core).getLast?

/-- A record's slots on a core changed. -/
def onSlots (s : State) (ctx record core : Nat) (f : Slot → Slot) : State :=
  onCtx s ctx fun c => { c with slots := c.slots.map fun l => if l.record == record && l.core == core then f l else l }

/-- Key of the first byte of a physical region of a core. -/
def regionKey (core physical : Nat) : Nat := (Loc.store core (physical * 2 ^ 20)).key

/-- Map a physical region that holds nothing to a record's index; it reads zero. -/
def mapRegion (s : State) (core physical index ctx record : Nat) : State :=
  let key := regionKey core physical
  onCore { s with
    mem := clearRange s.mem key (2 ^ 20)
    poison := s.poison.filter fun g => !(key ≤ 64 * g && 64 * g < key + 2 ^ 20) } core fun k =>
      { k with regions := k.regions ++ [{ physical := physical, index := index, ctx := ctx, record := some record }] }

/-- Save the bytes of a region that a checkpointed record holds to that record's slot and free it. -/
def evictRegion (s : State) (core : Nat) (g : Region) : State :=
  let s := match g.record.bind fun i => (lastSlot (ctxOf s g.ctx) i core).map fun l => (i, l.number) with
    | some (i, n) => onSlots (relocate s (regionKey core g.physical) (savedKey s g.ctx n g.index) (2 ^ 20)) g.ctx i core fun l =>
        if l.number == n then { l with regions := l.regions ++ [g.index] } else l
    | none => s
  onCore s core fun k => { k with regions := k.regions.filter fun h => h.physical != g.physical }

/-- Mark a region of a record on a core as moving, or as there. -/
def setMoving (s : State) (core index ctx record : Nat) (b : Bool) : State :=
  onCore s core fun k => { k with regions := k.regions.map fun g =>
    if g.index == index && g.ctx == ctx && g.record == some record then { g with moving := b } else g }

/-- The first touch of a region index by the record a core runs (R105, R135): a free region, else the one taken from a
checkpointed record after it is saved, else none, CS_FULL; a region that the record's own slot holds is restored. A save
or a restore leaves the region moving. -/
def touchRegion (s : State) (core index : Nat) : Option State :=
  match (coreOf s core).slice with
  | none => none
  | some l =>
    let k := coreOf s core
    match regionAt k l.ctx l.index index with
    | some _ => some s
    | none =>
      let place := match freeRegion k with
        | some p => some (p, none)
        | none => (victimRegion s k).map fun (g : Region) => (g.physical, some g)
      place.map fun (p, taken) =>
        let saved := savedRegion s l.ctx l.index core index
        let s := match taken with
          | some g => evictRegion s core g
          | none => s
        let s := mapRegion s core p index l.ctx l.index
        let s := if saved.isSome then s else trace s core 3 s.curStream (256 + 6 * 2 ^ 32)
        let s := match saved with
          | some a => onSlots (relocate s a (regionKey core p) (2 ^ 20)) l.ctx l.index core fun l =>
              { l with regions := l.regions.filter (· != index) }
          | none => s
        if taken.isSome || saved.isSome then setMoving s core index l.ctx l.index true else s

/-- Where bytes of one region lie for the record a core runs, the region mapped at its first touch. -/
def csPiece (s : State) (core o : Nat) : Act (Loc × State) :=
  match (coreOf s core).slice with
  | none => stopWith 0x92
  | some l =>
    let index := o / 2 ^ 20
    match regionAt (coreOf s core) l.ctx l.index index with
    | some g =>
      if g.moving then .error (.wait (.cause 7)) else .ok (.store core (g.physical * 2 ^ 20 + o % 2 ^ 20), s)
    | none =>
      match touchRegion s core index with
      | none => stopWith 0x92
      | some t =>
        match regionAt (coreOf t core) l.ctx l.index index with
        | none => stopWith 0x92
        | some g =>
          if g.moving then .error (.claim index) else .ok (.store core (g.physical * 2 ^ 20 + o % 2 ^ 20), t)

/-- Cut a core-store range at 1 MiB boundaries. -/
def cutRegions : Nat → Nat → Nat → List (Nat × Nat)
  | 0, _, _ => []
  | fuel + 1, o, n =>
    if n == 0 then []
    else
      let m := Nat.min n (2 ^ 20 - o % 2 ^ 20)
      (o, m) :: cutRegions fuel (o + m) (n - m)

/-- The places of a list of core-store pieces. -/
def csPieces (s : State) (core : Nat) : List (Nat × Nat) → Act (List (Loc × Nat) × State)
  | [] => .ok ([], s)
  | (o, n) :: rest => do
    let (l, s) ← csPiece s core o
    let (ls, s) ← csPieces s core rest
    return ((l, n) :: ls, s)

/-- The places of a core-store range; past the mapped offsets CS_RANGE with the given INFO (R134). -/
def csSpan (s : State) (core o n : Nat) (info : Word) : Act (List (Loc × Nat) × State) :=
  if Config.csTop < o + n then .error (.event 0x91 (some info)) else csPieces s core (cutRegions (n / 2 ^ 20 + 2) o n)

/-! ### Code fetch (R237, R243-R246) -/

/-- Word `i` of a line snapshot. -/
def lineWord (line i : Nat) : Nat := line / 2 ^ (32 * i) % 2 ^ 32
/-- START[i - 2] for word `i`. -/
def lineStart (line i : Nat) : Bool := flag (lineWord line 0) (i - 2)
/-- TARGET[i - 2] for word `i`. -/
def lineTarget (line i : Nat) : Bool := flag (lineWord line 1) (i - 2)
/-- FENTRY. -/
def lineEntry (line : Nat) : Bool := flag (lineWord line 1) 30

/-- Words of the instruction at word `p`; length code 0b11 counts as one. -/
def lineLength (line p : Nat) : Nat :=
  match lineWord line p % 4 with
  | 1 => 2 | 2 => 3 | _ => 1

/-- The start mask agrees with the lengths from word `p` on (R244). -/
def startsOk (line : Nat) : Nat → Nat → Bool
  | 0, p => 31 < p
  | fuel + 1, p =>
    if 31 < p then true
    else
      let n := lineLength line p
      lineStart line p && (List.range (n - 1)).all (fun i => p + 1 + i ≤ 31 && !lineStart line (p + 1 + i)) &&
        startsOk line fuel (p + n)

/-- The check of a line snapshot against its header (R244). -/
def lineOk (line : Nat) : Bool :=
  startsOk line 30 2 &&
    (List.range 30).all (fun i => !lineTarget line (i + 2) || lineStart line (i + 2)) &&
    (!lineEntry line || lineTarget line 2) && lineWord line 0 < 2 ^ 30 && lineWord line 1 < 2 ^ 31

/-- What a look at a range turns into when it is no place. -/
def lookTrap (va kind : Nat) : Look → Trap
  | .fault r l => .page va kind r l
  | .ask => .ask va kind
  | .miss => .walk va kind
  | .wait | .hit _ => .wait (.page va kind)

/-- The line at an address, from the core's fetch cache or as one snapshot of memory, a poisoned one reported (R88). -/
def fetchLineAt (s : State) (core ctx a : Nat) : Act (Nat × State) :=
  let key := ctx * 2 ^ 56 + a
  match find (coreOf s core).fetched key with
  | some v => .ok (v, s)
  | none =>
    match translate s (some core) ctx 3 a with
    | (.hit l, s) =>
      let v := fromBytes (fetchAt s l 128)
      let s := if poisonedAt s l 128 then postCore s core s.curStream 0x60 a 0 else s
      .ok (v, onCore s core fun k => { k with fetched := put k.fetched key v })
    | (r, _) => .error (lookTrap a 3 r)

/-- The line address of an address. -/
def lineOf (a : Nat) : Nat := a / 128 * 128

/-- Whether an address can be the target of a control transfer: a word of a line beyond its header (R245, R246). -/
def mayTarget (a : Nat) : Bool := a % 4 == 0 && a < 2 ^ 56 && 2 ≤ a % 128 / 4
/-- Whether a line has a target at an address: an ordinary one, or a function entry (R245, R246). -/
def targetIn (entry : Bool) (a line : Nat) : Bool :=
  if entry then a % 128 / 4 == 2 && lineEntry line else lineTarget line (a % 128 / 4)

/-- The check of an address at which another stream starts, on the line it will fetch (R245, R310). -/
def checkStart (s : State) (core ctx : Nat) (t : Word) : Act State :=
  if !mayTarget t.toNat then stopWith 0x05
  else do
    let (line, s) ← fetchLineAt s core ctx (lineOf t.toNat)
    if targetIn true t.toNat line then return s else stopWith 0x05

/-- The check of a target of a control transfer, on the line that the stream goes on with: the one it holds, which a
transfer within it does not fetch anew (R239, R240), else the one it fetches (R245, R246). -/
def checkTarget (s : State) (core ctx : Nat) (entry : Bool) (t : Word) : Act State :=
  if !mayTarget t.toNat then stopWith 0x05
  else do
    let (line, s) ← match (me s).line.filter (·.1 == lineOf t.toNat) with
      | some l => pure (l.2, s)
      | none => fetchLineAt s core ctx (lineOf t.toNat)
    if targetIn entry t.toNat line then return s else stopWith 0x05

/-! ### Taking an exception (R157-R160) -/

/-- The cores a context holds. -/
def coresOf (s : State) (ctx : Nat) : List Nat :=
  (List.range Config.cores).filter fun c => (coreOf s c).slice.map (·.ctx) == some ctx

/-- The scope of an event's reason (Table 8.1): the slice for TRAP and BUDGET_EXHAUSTED, else the partition. -/
def scopeOf (s : State) (ctx core reason : Nat) : List Nat :=
  if reason == 0x10 || reason == 0x11 then
    match sliceRecord s core with
    | some r => recordCores r
    | none => [core]
  else coresOf s ctx

/-- The halt line reaches a core. -/
def haltCore (reason hseq : Nat) (s : State) (core : Nat) : State :=
  onCore (trace s core 7 0 (reason % 2 ^ 16 + hseq % 2 ^ 32 * 2 ^ 16)) core fun k =>
    { k with halted := true, haltTime := s.mtime, haltCycle := k.cycle }

/-- A halt of a context over given cores starts with an origin (R157, R158). -/
def haltOver (s : State) (ctx : Nat) (cores : List Nat) (core stream reason : Nat) (info : Word) : State :=
  let hseq := (ctxOf s ctx).hseq + 1
  let s := cores.foldl (haltCore reason hseq) s
  onCtx s ctx fun c => { c with
    hseq := hseq
    halt := some { origin := core, stream := stream, reason := reason, info := info, cores := cores, hseq := hseq
                   paging := reason == 0x26 } }

/-- A halt of a context over the scope of its event (Table 8.1). -/
def startHalt (s : State) (ctx core stream reason : Nat) (info : Word) : State :=
  haltOver s ctx (scopeOf s ctx core reason) core stream reason info

/-- The stop record of a stream that raised an event (Table 8.4). BUDGET_EXHAUSTED is entered in that of `cc`, which did
not raise it: FAULTED stays 0. -/
def recordStop (s : State) (core stream reason : Nat) (info faultPc : Word) : State :=
  onStream (onCore s core fun k => { k with firstStop := some (k.firstStop.getD stream) }) core stream fun st => { st with
    reason := BitVec.ofNat 16 reason, faulted := reason != 0x11, faultPc := faultPc, info := info, replay := false }

/-- FCTL.FVEC is raised to the driver. -/
def raiseDriver (s : State) (ctx : Nat) : State := raiseIrq s ctx (field (reg (ctxOf s ctx) 0x18A4) 16 11)

/-- The fault frame of a core (R160). -/
def frameAt (s : State) (ctx core : Nat) : Nat := field (reg (ctxOf s ctx) 0x1890) 12 44 * 4096 + 4096 * core

/-- An event in handler mode: the handler is abandoned and the event goes to the driver (R164). -/
def nestHalt (s : State) (ctx core reason : Nat) (info : Word) : State :=
  let refused := ((coreOf s core).handler.map (·.refused)).getD false
  let s := onCore s core fun k => { k with handler := none }
  let s := (writeVirtual s ctx (frameAt s ctx core + 3) (toBytes 1 3)).getD
    (walkReport s ctx 13 1 (frameAt s ctx core + 3) 1)
  let s := onCtx s ctx fun c => { c with
    halt := c.halt.map fun h =>
      { h with reason := reason, info := info, drv := true, nested := true, refused := refused } }
  raiseDriver s ctx

/-- Events that a plain resume would lose (R165). -/
def lostOnResume (reason : Nat) : Bool := [0x10, 0x12, 0x13, 0x15].contains reason

/-- Take an exception: the one entry of every stopping event (R157-R159). In handler mode it goes to the driver. While
a halt lasts, an event on a core of its scope is recorded, and one outside it stops its own core and waits. -/
def takeException (s : State) (core stream reason : Nat) (info faultPc : Word) : State :=
  let ctx := coreCtx s core
  if stream == 0 && (coreOf s core).handler.isSome then nestHalt s ctx core reason info
  else
    let s := recordStop s core stream reason info faultPc
    match (ctxOf s ctx).halt with
    | none => startHalt s ctx core stream reason info
    | some h =>
      if h.cores.contains core then
        if lostOnResume reason then onCtx s ctx fun c => { c with pending := c.pending ++ [(core, stream)] } else s
      else
        onCtx (haltCore reason h.hseq s core) ctx fun c => { c with pending := c.pending ++ [(core, stream)] }

/-- Take an exception of the issuing stream at its instruction; an INFO that no rule gives is a free value
(assumption 2). -/
def takeTrap (s : State) (reason : Nat) (info : Option Word) : State :=
  match info with
  | some i => takeException s s.curCore s.curStream reason i (me s).pc
  | none =>
    let (i, s) := drawWord s
    takeException s s.curCore s.curStream reason i (me s).pc

/-- Enter a faulting access in a core's page-fault list, at most 16 of them (R78). -/
def recordFault (s : State) (core source va kind reason level : Nat) : State :=
  onCore s core fun k =>
    if k.faults.length < 16 then { k with faults := k.faults ++ [⟨va, kind, source, reason, level⟩] } else k

/-- Take a translation fault of an access of a source of Table 4.5, with a stream's stop record (R78, R159). -/
def takePage (s : State) (core stream source va kind reason level : Nat) (pc : Word) : State :=
  takeException (recordFault s core source va kind reason level) core stream reason (word va) pc

/-- An access of a core that meets HOST_PAGE counts among those of the Page Request Group of its page (R80). -/
def joinGroup (s : State) (core va kind reason : Nat) : State :=
  let ctx := coreCtx s core
  match (if reason == 0x26 then ioPage s core ctx kind va else none) with
  | none => s
  | some page =>
    let join := fun (g : PageGroup) =>
      if g.pages.contains page && !g.cores.contains core then { g with cores := g.cores ++ [core] } else g
    onCtx s ctx fun c => { c with priGroups := c.priGroups.map join }

/-- An access of a core waits for the host's ATS answer (R80). -/
def askHost (s : State) (core stream va kind : Nat) : State :=
  onCtx s (coreCtx s core) fun c =>
    let a : Ask := ⟨core, sourceOf stream kind, va, kind⟩
    if c.asked.contains a then c else { c with asked := c.asked ++ [a] }

/-- A stream whose instruction has not issued: it has resolved and read nothing. -/
def unissued (st : Stream) : Stream :=
  { st with heads := [], opened := [], served := false, reported := [], began := none, atIssue := none }

/-- A resolution is kept to the end of its operation (R177): an instruction that stops with nothing done has none. What
its walks returned is used up. -/
def dropHeads (s : State) : State :=
  onMe (onCore s s.curCore fun k => dropWalked k s.curStream) fun st =>
    if st.progress == 0 && st.latch.isEmpty then unissued st else keepIssue s.guard.pulse (myCore s) st

/-- What an instruction that stops at one of its accesses keeps: it restarts at the access (Table 8.1), with what it has
resolved. A fetch that faults is none of its accesses. -/
def keepHeads (s : State) (kind : Nat) : State :=
  onMe (onCore s s.curCore fun k => dropWalked k s.curStream) fun st =>
    if kind == 3 then st else keepIssue s.guard.pulse (myCore s) st

/-- INFO of a signal fault: bits [31:10] zero, what the fault does not name free (R196). -/
def signalInfo (n lag : Option Nat) (w : Word) : Word :=
  word (n.getD (w.toNat % 1024) + Nat.min (lag.getD (w.toNat / 2 ^ 32)) (2 ^ 32 - 1) * 2 ^ 32)

/-- What a stream that misses waits for: the walk of its page, one that has met TRANSIT = 1, or a free slot (R76). -/
def missWait (s : State) (core ctx va kind : Nat) : Waiting :=
  if !walkRoom s core ctx va then .cause 2
  else if (walkingAt s (towerOfCore core) ctx (va / 65536)).any (·.transit) then .transit va kind else .page va kind

/-- The issuing stream's access needs a walk: it joins one or begins one, if a slot is free, and waits (R76). -/
def missPage (issued : Bool) (s : State) (va kind : Nat) : State :=
  holdAs issued (joinWalk s s.curCore (requesterOf s.curStream kind) (myCtx s) va kind)
    (missWait s s.curCore (myCtx s) va kind)

/-- The state after an instruction that did not complete: precise, so everything else is as before it. `issued` tells
whether it has issued, or was still to be fetched (R294). -/
def trapAs (issued : Bool) (s : State) : Trap → State
  | .event r i => takeTrap (dropHeads s) r i
  | .signal r n lag =>
    let (w, s) := drawWord (dropHeads s)
    takeException s s.curCore s.curStream r (signalInfo n lag w) (me s).pc
  | .page va kind r l =>
    let t := keepHeads (joinGroup s s.curCore va kind r) kind
    takePage t s.curCore s.curStream (sourceOf s.curStream kind) va kind r l (me s).pc
  | .walk va kind => missPage issued s va kind
  | .ask va kind => holdAs issued (askHost s s.curCore s.curStream va kind) (.page va kind)
  | .wait w => holdAs issued s w
  | .unready => holdAs false (onMe s unissued) (.cause 9)
  | .claim i => holdAs issued ((touchRegion s s.curCore i).getD s) (.cause 7)

/-- `trapAs` for an instruction that has issued. -/
def trapState (s : State) (e : Trap) : State := trapAs true s e

/-- An instruction of `len` bytes ends: with its effects and the program counter moved on or to a target, or trapped
with none of them, or stalled before an item record for which the device has no room (R166). -/
def conclude (s : State) (len : Nat) (r : Act (State × Option Word)) : Host.Outcome State Fault Refusal :=
  match r with
  | .ok (t, target) => if itemsOver s t then .next (hold s (.cause 4)) else .next (finish t len target)
  | .error e => .next (trapState s e)

/-- `conclude` for an instruction that transfers no control. -/
def concludeNext (s : State) (len : Nat) (r : Act State) : Host.Outcome State Fault Refusal :=
  conclude s len (r.map fun t => (t, none))

/-- An instruction goes on waiting with what it has begun, or stalls before an item record for which the device has no
room (R166). -/
def holdNext (s t : State) (w : Waiting) : Host.Outcome State Fault Refusal :=
  .next (if itemsOver s t then hold s (.cause 4) else hold t w)

/-! ### The fault frame (R160, Tables 8.3 and 8.4) -/

/-- One pending write-back of a stop record. -/
def wbBytes (w : WriteBack) : List Byte :=
  toBytes 8 w.value.toNat ++ toBytes 1 (if w.slot then 0x60 + w.reg else w.reg) ++ toBytes 1 w.remaining ++
    toBytes 1 (bit01 w.slot) ++ toBytes 5 0

/-- `bs` padded with zero bytes to `n`. -/
def padTo (n : Nat) (bs : List Byte) : List Byte := bs ++ List.replicate (n - bs.length) 0

/-- The nest of a matrix stream, if one runs. -/
def nestOf (k : Core) (stream : Nat) : Option Nest :=
  if 2 ≤ stream && stream ≤ 5 then (look {} k.engines (stream - 2)).nest else none

/-- The stop record of stream `e`, or for 7 of the copy engine. -/
def stopRecord (k : Core) (e : Nat) : List Byte :=
  let st := streamOf k e
  let nest := nestOf k e
  let active := if e == 7 then !k.copies.isEmpty else st.status == .running
  let prog := 0 < st.progress
  let running := (k.copies.filter fun c => c.started && c.status.isNone).take 4
  let cpy := running.flatMap fun c => toBytes 4 c.number ++ toBytes 4 (copiedBytes c)
  toBytes 2 st.reason.toNat ++
    toBytes 1 (bit01 active + 2 * bit01 st.faulted + 4 * bit01 prog + 8 * bit01 nest.isSome) ++
    toBytes 1 st.wbs.length ++ toBytes 4 0 ++ toBytes 8 st.pc.toNat ++ toBytes 8 st.faultPc.toNat ++
    toBytes 8 st.info.toNat ++ toBytes 4 (match nest with
      | some n => n.iteration
      | none => st.progress) ++ toBytes 4 st.issue ++ padTo 128 ((st.wbs.take 8).flatMap wbBytes) ++
    toBytes 32 st.part.toNat ++ padTo 32 (if e == 7 then cpy else []) ++ List.replicate 24 0

/-- A page-fault list entry (Table 4.5). -/
def faultBytes (f : PageFault) : List Byte :=
  toBytes 7 f.va ++ toBytes 1 (f.kind + 16 * f.stream) ++ toBytes 1 f.reason ++ toBytes 1 f.level ++ toBytes 6 0

/-- The header of a core's fault frame (Table 8.3). -/
def frameHeader (s : State) (h : Halt) (core : Nat) : List Byte :=
  let k := coreOf s core
  let src := if core == h.origin then some h.stream else k.firstStop
  let reason := src.elim 0 fun e => (streamOf k e).reason.toNat
  let item := coreItem s core 0 0 0 0
  toBytes 2 reason ++ toBytes 1 (src.getD 0xFF) ++ toBytes 1 (bit01 (core == h.origin) + 2 * bit01 h.nested) ++
    toBytes 4 k.faults.length ++ toBytes 8 k.haltTime ++ toBytes 8 k.haltCycle ++ toBytes 4 item.record ++
    toBytes 3 item.unit ++ toBytes 1 core ++ toBytes 8 0 ++ toBytes 8 h.hseq ++ List.replicate 16 0 ++
    ((List.range 8).flatMap fun e => toBytes 8 (streamOf k e).pc.toNat) ++ List.replicate 128 0

/-- The 0xA00 bytes of a core's fault frame that the device writes. -/
def frameBytes (s : State) (h : Halt) (core : Nat) : List Byte :=
  let k := coreOf s core
  frameHeader s h core ++ ((List.range 8).flatMap (stopRecord k)) ++ padTo 256 (k.faults.flatMap faultBytes)

/-- Write the frames of a halt's cores; true if one could not be written. -/
def writeFrames (s : State) (ctx : Nat) (h : Halt) : List Nat → State × Bool
  | [] => (s, false)
  | c :: rest =>
    match writeVirtual s ctx (frameAt s ctx c) (frameBytes s h c) with
    | some s => writeFrames s ctx h rest
    | none =>
      let (s, _) := writeFrames (walkReport s ctx 13 1 (frameAt s ctx c) 0xA00) ctx h rest
      (s, true)

/-! ### Pending write-backs and outstanding loads -/

/-- Physical slot of g(`n`), n from 96 to 127, in a stream (R288). -/
def stagedSlot (st : Stream) (n : Nat) : Nat := unsigned 5 ((n - 96 : Nat) - (st.lpass.toNat : Int))

/-- The key of g(`n`) in a stream's file: its number, or 96 plus its physical slot. -/
def gKey (st : Stream) (n : Nat) : Nat := if n < 96 then n else 96 + stagedSlot st n

/-- Write a register of a stream by specifier: g, q or c (R252). -/
def putReg (st : Stream) (r : BitVec 8) (v : Word) : Stream :=
  let n := r.toNat
  if n == 0 then st
  else if n < 0x80 then { st with g := put st.g (gKey st n) v }
  else if n < 0x90 then
    { st with q := put st.q (n - 0x80) v, qlive := st.qlive ||| BitVec.ofNat 16 (2 ^ (n - 0x80)) }
  else if n == 0x90 || 0xA0 ≤ n then st
  else { st with c := BitVec.ofNat 16 (setField st.c.toNat (n - 0x90) 1 (bit01 (v != 0))) }

/-- Land one write-back: its value and its flags (R162, R283). A load outstanding to its register, which it follows in
the order of their writes, will return its value (R300). -/
def landOne (st : Stream) (w : WriteBack) : Stream :=
  let st := { st with
    fflags := st.fflags ||| w.flags
    loads := st.loads.map fun l => if l.reg == w.reg && l.slot == w.slot then { l with value := w.value } else l }
  if w.slot then { st with g := put st.g (96 + w.reg) w.value } else putReg st (BitVec.ofNat 8 w.reg) w.value

/-- Land every write-back whose shadow has ended, in issue order. -/
def landDue (st : Stream) : Stream :=
  (st.wbs.filter (·.remaining == 0)).foldl landOne { st with wbs := st.wbs.filter (·.remaining != 0) }

/-- The write-backs of a core whose shadow has ended land (R160: what a stop record holds is yet to come). -/
def settleShadows (s : State) (core : Nat) : State :=
  onCore s core fun k => { k with streams := k.streams.map fun (n, st) => (n, landDue st) }

/-- A loaded value extended to a register (R298). -/
def extend (n : Nat) (sign : Bool) (v : Nat) : Word :=
  if sign then BitVec.ofInt 64 (signed (8 * n) v) else word (v % 2 ^ (8 * n))

/-- The state with the issuing stream set for the work of an engine, and set back. -/
def asStream (s : State) (core stream : Nat) (f : State → State) : State :=
  let t := f { s with curCore := core, curStream := stream }
  { t with curCore := s.curCore, curStream := s.curStream }

/-- The key of a destination register (R288): the register's number, or for g96-g127 the physical slot it names at
issue. -/
def destKey (st : Stream) (r : BitVec 8) : Nat × Bool :=
  if 0x60 ≤ r.toNat && r.toNat < 0x80 then (stagedSlot st r.toNat, true) else (r.toNat, false)

/-- The register of a load takes its value. -/
def landLoad (st : Stream) (l : Load) : Stream :=
  let st := { st with loads := st.loads.erase l }
  if l.slot then { st with g := put st.g (96 + l.reg) l.value } else putReg st (BitVec.ofNat 8 l.reg) l.value

/-- An outstanding load's data returns (R300): the register is written, then the pulse comes with the number taken at
issue (R309). -/
def returnLoad (s : State) (core stream : Nat) (l : Load) : State :=
  let s := asStream s core stream fun s => onMe s fun st => landLoad st l
  match l.pulse with
  | some n => pulseEnd s core stream n
  | none => s

/-- Whether a stream has a load outstanding from a page of a context that meets `[a, a + n)`. -/
def loadMeets (st : Stream) (a n : Nat) : Bool := st.loads.any fun l => l.va < a + n && a < l.va + l.bytes
/-- Whether a seal of a signal of a core has begun whose STAMP is to be written in `[a, a + n)` of a context. -/
def sealMeets (k : Core) (ctx a n : Nat) : Bool :=
  k.signals.any fun (key, g) => sigOwner key == ctx && g.blocks.any fun b => b.2.sealing.any fun x => x.2 < a + n && a < x.2 + 8
/-- Whether a copy command of a context on a core stands within a page that meets `[a, a + n)`, or keeps its translation
for what it has yet to move (R87). -/
def copyMeetsPage (k : Core) (ctx a n : Nat) : Bool :=
  k.copies.any fun c => c.ctx == ctx && (c.held ++ c.pinned).any fun t => t.base < a + n && a < t.base + t.size
/-- Whether an access of a context that has been issued by a translation of `[a, a + n)`, a load or a seal, has yet to
perform. -/
def outstanding (s : State) (ctx a n : Nat) : Bool :=
  s.cores.any fun (_, k) => sealMeets k ctx a n || (k.slice.map (·.ctx) == some ctx &&
    (k.streams.any (fun e => loadMeets e.2 a n) || k.handler.any fun h => loadMeets h.file a n))
/-- Whether such an access, or a copy within the pages, a FEED too, is still to be performed (R320; assumption 72,
DEDUCED: a copy performs page by page). -/
def loadsMeet (s : State) (ctx a n : Nat) : Bool :=
  outstanding s ctx a n || s.cores.any fun (_, k) => copyMeetsPage k ctx a n

/-! ### The handler, and the return from an exception (R164, R165) -/

/-- An access replayed after a halt walks anew: what a walk returned before that was a fault is forgotten (R77, R78). -/
def dropFaults (k : Core) : Core :=
  { k with walked := k.walked.filter fun w => match w.result with
      | .fault _ _ => false
      | .leaf _ _ => true }

/-- How many of the elements taken a stopped operation keeps when it goes on: it continues at PROGRESS (R161). -/
def cutLatch (st : Stream) : Stream :=
  match st.cut with
  | none => st
  | some n => { st with latch := st.latch.take n }

/-- The stop records of a core are done with, but those of pending events; its page-fault list has been replayed, but for
pages that a pending event reports failed (R80), and its handler is over (R165). -/
def clearStops (kept : List (Nat × Nat)) (core : Nat) (k : Core) : Core :=
  { dropFaults k with
    faults := if kept.any (·.1 == core) then k.faults.filter (·.reason == 0x27) else []
    handler := none
    firstStop := (kept.find? fun p => p.1 == core).map (·.2)
    streams := k.streams.map fun (n, st) =>
      (n, if kept.contains (core, n) then st
          else { cutLatch st with
                 reason := 0, faulted := false, info := 0, faultPc := 0, line := none
                 matched := st.reason == 0x13 || st.matched }) }

/-- A core resumes: its streams restart where they stand. -/
def resumeCore (hseq : Nat) (s : State) (core : Nat) : State :=
  onCore (trace s core 8 0 (hseq % 2 ^ 32)) core fun k =>
    let k := clearStops [] core k
    { k with halted := false, streams := k.streams.map fun (n, st) => (n, { st with replay := false }) }

/-- The pending event that comes first: lowest core, then lowest stream (R165). -/
def firstPending : List (Nat × Nat) → Option (Nat × Nat)
  | [] => none
  | p :: rest => match firstPending rest with
    | none => some p
    | some q => if p.1 < q.1 || (p.1 == q.1 && p.2 ≤ q.2) then some p else some q

/-- The stream of a halted core whose access faulted performs it again: a load or a store of an instruction of its own
(R78, R159). -/
def replays (kept : List (Nat × Nat)) (core : Nat) (k : Core) : Core :=
  let again := fun (n : Nat) (st : Stream) => n < 7 && st.faulted && st.began.isSome && 0x20 ≤ st.reason.toNat &&
    st.reason.toNat ≤ 0x28 && (nestOf k n).isNone && !kept.contains (core, n)
  { k with streams := k.streams.map fun (n, st) => (n, { st with replay := again n st }) }

/-- Resume every core of the halt's scope, or, when an event is pending, halt the context again for it: the cores that
were to resume stay stopped under that halt, the accesses of their page-fault lists performed (R165). -/
def endHalt (s : State) (ctx : Nat) : State :=
  match (ctxOf s ctx).halt with
  | none => s
  | some h =>
    let holds := fun c => (coreOf s c).slice.map (·.ctx) == some ctx
    let kept := (ctxOf s ctx).pending.filter fun p => holds p.1
    let s := onCtx s ctx fun c => { c with halt := none, pending := kept }
    let s := (coresOf s ctx).foldl (fun s c => onCore s c dropFaults) s
    let held := h.cores.filter holds
    match firstPending kept with
    | none => held.foldl (resumeCore h.hseq) s
    | some (c, n) =>
      let s := held.foldl (fun s d => onCore s d fun k => clearStops kept d (replays kept d k)) s
      let s := onCtx s ctx fun x => { x with pending := kept.filter (· != (c, n)) }
      let st := streamOf (coreOf s c) n
      let scope := scopeOf s ctx c st.reason.toNat
      haltOver s ctx (held ++ scope.filter (!held.contains ·)) c n st.reason.toNat st.info

/-- Fail the origin slice of a halt with a scheduler reason; the other slices resume (R164). -/
def failOrigin (s : State) (ctx : Nat) (h : Halt) (reason : Nat) : State :=
  match (coreOf s h.origin).slice with
  | none => endHalt s ctx
  | some l =>
    let s := if reason == 0x71 then countBudget s ctx else s
    endHalt (failSlice s ctx l.index reason) ctx

/-- The instruction length in bytes at an address of a stream, as its line snapshot has it. -/
def lengthAt (s : State) (core ctx : Nat) (st : Stream) (pc : Word) : Nat :=
  let len := fun (line : Nat) => 4 * lineLength line (pc.toNat % 128 / 4)
  let held := (st.line.filter fun l => l.1 == lineOf pc.toNat).map (·.2)
  match held.or (find (coreOf s core).fetched (ctx * 2 ^ 56 + lineOf pc.toNat)) with
  | some line => len line
  | none => 4

/-- Move a faulted origin stream after its FAULTPC (ACTION 2). -/
def skipOrigin (s : State) (ctx : Nat) (h : Halt) : State :=
  let st := streamOf (coreOf s h.origin) h.stream
  if !st.faulted then s
  else
    let len := lengthAt s h.origin ctx st st.faultPc
    let s := traceWaitOf s h.origin h.stream st
    onStream s h.origin h.stream fun st => { endOp st with pc := nextPc st.faultPc len }

/-- The event that a halt's origin stopped for, as its stop record holds it: of an event in the handler, the one the
handler was entered for. -/
def originReason (s : State) (h : Halt) : Nat := (streamOf (coreOf s h.origin) h.stream).reason.toNat

/-- The budget trap of a halt's origin slice that its handler has not answered by an extension (R106). -/
def budgetStands (s : State) (h : Halt) : Bool :=
  originReason s h == 0x11 && ((sliceRecord s h.origin).map fun r => decide (budgetOf r ≤ r.used)).getD false

/-- The return from an exception (R164): ACTION 0 resumes, 1 and 3 fail the origin slice, 2 skips. A BUDGET refused in
the handler fails the slice with BUDGET_FAILED whatever ACTION holds (R319), and so does a return from a budget trap
that neither extended nor failed (R106). -/
def returnFrom (s : State) (ctx action : Nat) (refused : Bool) : State :=
  match (ctxOf s ctx).halt with
  | none => s
  | some h =>
    let t := onCore s h.origin fun k => { k with handler := none }
    if refused || h.refused || budgetStands s h then failOrigin t ctx h 0x71
    else match action with
      | 0 => endHalt t ctx
      | 2 => endHalt (skipOrigin t ctx h) ctx
      | _ => failOrigin t ctx h (if originReason s h == 0x11 then 0x71 else 0x70)

/-- The files of a handler at entry (R164): zero but for g1, g2, g3, g8, g9 and g10; q registers live. -/
def handlerFile (s : State) (ctx : Nat) (h : Halt) (entry : Word) : Stream :=
  let st := streamOf (coreOf s h.origin) h.stream
  let frame := word (frameAt s ctx h.origin)
  let slice := word (((sliceRecord s h.origin).map (·.frame)).getD 0)
  { status := .running, pc := entry, entering := true, qlive := BitVec.allOnes 16
    g := [(1, frame + 0x1000), (2, frame), (3, slice), (8, word h.reason), (9, st.faultPc), (10, h.info)] }

/-- Deliver a halt to the driver: FSTAT is filled and FVEC raised. -/
def toDriver (s : State) (ctx : Nat) (lost : Bool) : State :=
  raiseDriver (onCtx s ctx fun c => { c with halt := c.halt.map fun h => { h with drv := true, lost := lost } }) ctx

/-- Start the handler on `cc` of the origin core; an entry that fails R245 at its fetch is an event in the handler. -/
def startHandler (s : State) (ctx : Nat) (h : Halt) : State :=
  let entry := word (field (reg (ctxOf s ctx) 0x1888) 7 49 * 128 + 8)
  onCore s h.origin fun k => { k with handler := some { file := handlerFile s ctx h entry } }

/-- Deliver a quiescent halt (Table 8.1): the context resumes by itself, the driver, the slice fails, or the handler. A
HOST_PAGE halt is no event and shows the driver nothing (R80), so a frame lost in it is told to nobody, where R160 has the
driver see FFLOST (assumption 52, DESIGN CHOICE). -/
def deliver (s : State) (ctx : Nat) (h : Halt) (lost : Bool) : State :=
  let enabled := flag (reg (ctxOf s ctx) 0x1888) 0
  if h.paging then s
  else if h.reason == 0x15 then failOrigin s ctx h 0x70
  else if lost || h.reason == 0x12 || h.reason == 0x13 then toDriver s ctx lost
  else if enabled then startHandler s ctx h
  else if h.reason == 0x10 then failOrigin s ctx h 0x70
  else if h.reason == 0x11 then failOrigin s ctx h 0x71
  else toDriver s ctx false

end Sys2Proof.Machine
end

