-- ==== Sys2Proof/Machine/Flags.lean ====
section
/-! DEFINITION. The arithmetic status registers: the flags of `sr.fflags` and `sr.dflags`, and every integer result that
sets one (R198, R207, R272). -/

namespace Sys2Proof.Machine

/-- Flags of `sr.fflags` (Table 10.5). -/
abbrev Flags := BitVec 6
/-- SAT. -/
def flagSAT : Flags := 0x20
/-- NV. -/
def flagNV : Flags := 0x10
/-- DZ. -/
def flagDZ : Flags := 0x08
/-- OF. -/
def flagOF : Flags := 0x04
/-- UF. -/
def flagUF : Flags := 0x02
/-- NX. -/
def flagNX : Flags := 0x01
/-- A flag when a condition holds. -/
def flagIf (b : Bool) (f : Flags) : Flags := if b then f else 0

/-- Set flags of the issuing stream's `sr.fflags`; hardware never clears one (R207). -/
def setFlags (s : State) (f : Flags) : State := onMe s fun st => { st with fflags := st.fflags ||| f }
/-- Set flags of the issuing stream's `sr.dflags`. -/
def setDraw (s : State) (f : BitVec 3) : State := onMe s fun st => { st with dflags := st.dflags ||| f }

/-- FB, NL and ZM of `sr.dflags`. -/
def drawFB : BitVec 3 := 4
/-- NL: a NaN logit or triple. -/
def drawNL : BitVec 3 := 2
/-- ZM: a draw or merge returned NONE. -/
def drawZM : BitVec 3 := 1

/-- An exact integer result in a destination of `w` bits (R198): clamped with SAT, or reduced modulo 2^w. -/
def narrowInt (w : Nat) (isSigned saturate : Bool) (x : Int) : Nat × Flags :=
  let lo : Int := if isSigned then -2 ^ (w - 1) else 0
  let hi : Int := if isSigned then 2 ^ (w - 1) - 1 else 2 ^ w - 1
  if saturate then
    let y := if x < lo then lo else if hi < x then hi else x
    (unsigned w y, flagIf (y != x) flagSAT)
  else (unsigned w x, 0)

/-- Round `m / 2^k` to an integer under a mode (Table 10.3), for a value of the given sign. -/
def roundShift (rm : Nat) (negative : Bool) (m k : Nat) : Nat :=
  let q := m / 2 ^ k
  let r := m % 2 ^ k
  let up := match rm with
    | 0 => 2 ^ k < 2 * r || (2 * r == 2 ^ k && q % 2 == 1)
    | 1 => false
    | 2 => negative && r != 0
    | _ => !negative && r != 0
  if up then q + 1 else q

/-- The exact quotient of an integer by 2^k rounded under a mode (R198). -/
def roundInt (rm : Nat) (x : Int) (k : Nat) : Int :=
  let m : Int := roundShift rm (x < 0) x.natAbs k
  if x < 0 then -m else m

/-- Flags of a division (R272): DZ for a zero divisor. -/
def divFlags (b : Word) : Flags := flagIf (b == 0) flagDZ

end Sys2Proof.Machine
end

