-- ==== Sys2Proof/Machine/Float.lean ====
section
/-! DEFINITION. Floating point: formats, exact values, rounding, specials and flags (R199-R206), arithmetic, and the fixed
approximations with their bounds (R215, R216, R282, R341, R371). -/

namespace Sys2Proof.Machine

/-! ### Formats (Table 10.2) -/

/-- How a format codes its specials: infinity and NaNs, one NaN magnitude, none, or the accumulator. -/
inductive FmtKind where
  | ieee
  | e4m3
  | e2m1
  | acc
  deriving DecidableEq, Repr

/-- A floating-point format: exponent bits, fraction bits, bias. -/
structure Fmt where
  exp : Nat
  frac : Nat
  bias : Nat
  kind : FmtKind
  deriving DecidableEq, Repr

/-- f4. -/
def f4 : Fmt := ⟨2, 1, 1, .e2m1⟩
/-- f8e4. -/
def f8e4 : Fmt := ⟨4, 3, 7, .e4m3⟩
/-- f8e5. -/
def f8e5 : Fmt := ⟨5, 2, 15, .ieee⟩
/-- f16. -/
def f16 : Fmt := ⟨5, 10, 15, .ieee⟩
/-- b16. -/
def b16 : Fmt := ⟨8, 7, 127, .ieee⟩
/-- f32. -/
def f32 : Fmt := ⟨8, 23, 127, .ieee⟩
/-- f64. -/
def f64 : Fmt := ⟨11, 52, 1023, .ieee⟩
/-- a36. -/
def a36 : Fmt := ⟨9, 26, 255, .acc⟩

/-- Bits of a format. -/
def fmtBits (f : Fmt) : Nat := 1 + f.exp + f.frac
/-- The sign bit of a format as a number. -/
def signBit (f : Fmt) : Nat := 2 ^ (f.exp + f.frac)
/-- Magnitude code of infinity, or of the NaN of f8e4. -/
def infCode (f : Fmt) : Nat :=
  match f.kind with
  | .e4m3 => 0x7F
  | .e2m1 => 7
  | _ => (2 ^ f.exp - 1) * 2 ^ f.frac
/-- Magnitude code of the largest finite value. -/
def maxCode (f : Fmt) : Nat :=
  match f.kind with
  | .e4m3 => 0x7E
  | .e2m1 => 7
  | _ => (2 ^ f.exp - 1) * 2 ^ f.frac - 1
/-- Magnitude code of the canonical NaN; f4 has none and gives +0. -/
def nanCode (f : Fmt) : Nat :=
  match f.kind with
  | .e4m3 => 0x7F
  | .e2m1 => 0
  | _ => (2 ^ f.exp - 1) * 2 ^ f.frac + 2 ^ (f.frac - 1)
/-- Least exponent of a normal value. -/
def minExp (f : Fmt) : Int := 1 - f.bias

/-! ### Values -/

/-- A value: a NaN with its sign and whether it signals, an infinity, or the number (−1)^s · m · 2^e. -/
inductive FVal where
  | nan (s quiet : Bool)
  | inf (s : Bool)
  | num (s : Bool) (m : Nat) (e : Int)
  deriving DecidableEq, Repr

/-- The value of a bit pattern (R199, R200, R205). -/
def fval (f : Fmt) (b : Nat) : FVal :=
  let s := flag b (f.exp + f.frac)
  let e := field b f.frac f.exp
  let m := field b 0 f.frac
  let finite : FVal :=
    if e == 0 then .num s (if f.kind == .acc then 0 else m) (minExp f - f.frac)
    else .num s (2 ^ f.frac + m) ((e : Int) - f.bias - f.frac)
  match f.kind with
  | .e2m1 => finite
  | .e4m3 => if e == 15 && m == 7 then .nan s true else finite
  | .acc => if e == 511 then (if m == 0 then .inf s else .nan s true) else finite
  | .ieee => if e == 2 ^ f.exp - 1 then (if m == 0 then .inf s else .nan s (flag m (f.frac - 1))) else finite

/-- Whether a value is a NaN. -/
def isNan : FVal → Bool
  | .nan _ _ => true
  | _ => false
/-- NV for a signalling NaN. -/
def signalFlag : FVal → Flags
  | .nan _ quiet => flagIf (!quiet) flagNV
  | _ => 0
/-- Whether a value is zero. -/
def isZero : FVal → Bool
  | .num _ m _ => m == 0
  | _ => false
/-- Whether a value is infinite. -/
def isInf : FVal → Bool
  | .inf _ => true
  | _ => false
/-- Sign of a value. -/
def signOf : FVal → Bool
  | .nan s _ => s
  | .inf s => s
  | .num s _ _ => s
/-- A value with its sign flipped. -/
def negate : FVal → FVal
  | .nan s q => .nan (!s) q
  | .inf s => .inf (!s)
  | .num s m e => .num (!s) m e

/-- The mantissa of a number as an integer at a smaller or equal exponent. -/
def alignTo (e0 : Int) (s : Bool) (m : Nat) (e : Int) : Int :=
  let x : Int := m * 2 ^ (e - e0).toNat
  if s then -x else x

/-- Compare two numbers: their order as exact values. -/
def cmpNum (a b : FVal) : Ordering :=
  let key : FVal → Bool × Nat × Int := fun v => match v with
    | .num s m e => (s, m, e)
    | .inf s => (s, 1, 100000)
    | .nan s _ => (s, 0, 0)
  let (s, m, e) := key a
  let (s', m', e') := key b
  let e0 := min e e'
  compare (alignTo e0 s m e) (alignTo e0 s' m' e')

/-! ### Rounding to a format (R203, R204, Table 10.4) -/

/-- A bit pattern and the flags its making sets. -/
structure FRes where
  bits : Nat
  flags : Flags
  deriving DecidableEq, Repr

/-- A magnitude code with a sign. -/
def withSign (f : Fmt) (s : Bool) (code : Nat) : Nat := code + (if s then signBit f else 0)

/-- An overflowed result (Table 10.4). -/
def overflowed (f : Fmt) (rm : Nat) (s : Bool) : FRes :=
  let toMax := match rm with
    | 0 => false
    | 1 => true
    | 2 => !s
    | _ => s
  ⟨withSign f s (if f.kind == .e2m1 || toMax then maxCode f else infCode f), flagOF ||| flagNX⟩

/-- The canonical NaN of a format with a sign; f4 has none: +0 and NV. -/
def canonNan (f : Fmt) (s : Bool) : FRes :=
  if f.kind == .e2m1 then ⟨0, flagNV⟩ else ⟨withSign f s (nanCode f), 0⟩

/-- Exponent of the leading bit of m · 2^e. -/
def topExp (m : Nat) (e : Int) : Int := (m.log2 : Int) + e

/-- Round m · 2^e to quantum 2^q. -/
def roundTo (rm : Nat) (s : Bool) (m : Nat) (e q : Int) : Nat × Bool :=
  if q ≤ e then (m * 2 ^ (e - q).toNat, false)
  else (roundShift rm s m (q - e).toNat, m % 2 ^ (q - e).toNat != 0)

/-- The number (−1)^s · m · 2^e rounded once to a format, with its flags; tininess is detected after rounding. -/
def roundNum (f : Fmt) (rm : Nat) (s : Bool) (m : Nat) (e : Int) : FRes :=
  if m == 0 then ⟨withSign f s 0, 0⟩
  else
    let top := topExp m e
    let free := (roundTo rm s m e (top - f.frac)).1
    let tiny := top < minExp f && !(top == minExp f - 1 && free == 2 ^ (f.frac + 1))
    let q := max top (minExp f) - f.frac
    let (r, inexact) := roundTo rm s m e q
    if f.kind == .acc && tiny then ⟨withSign f s 0, flagUF ||| flagNX⟩
    else
      let code := if r < 2 ^ f.frac then r else ((q + f.frac + f.bias).toNat * 2 ^ f.frac) + (r - 2 ^ f.frac)
      if maxCode f < code then overflowed f rm s
      else ⟨withSign f s code, flagIf inexact flagNX ||| flagIf (tiny && inexact) flagUF⟩

/-- A value as the result of an operation: a NaN is the positive canonical one; an infinity is exact, and in f8e4 and f4
an overflow under RNE (R204, R205). -/
def fround (f : Fmt) (rm : Nat) (v : FVal) : FRes :=
  match v with
  | .nan _ _ => canonNan f false
  | .inf s =>
    if f.kind == .e4m3 || f.kind == .e2m1 then overflowed f 0 s else ⟨withSign f s (infCode f), 0⟩
  | .num s m e => roundNum f rm s m e

/-- A conversion between float formats (R205, R206): as a result, but a NaN keeps its sign. -/
def fconvert (f : Fmt) (rm : Nat) (v : FVal) : FRes :=
  let r := match v with
    | .nan s _ => canonNan f s
    | _ => fround f rm v
  ⟨r.bits, r.flags ||| signalFlag v⟩

/-- An integer rounded to a format (R206). -/
def ofInteger (f : Fmt) (rm : Nat) (x : Int) : FRes := roundNum f rm (x < 0) x.natAbs 0

/-- A float rounded to an integer of `w` bits (R206): clamped; NaN gives 0. -/
def toInteger (rm w : Nat) (isSigned : Bool) (v : FVal) : Int × Flags :=
  let lo : Int := if isSigned then -2 ^ (w - 1) else 0
  let hi : Int := if isSigned then 2 ^ (w - 1) - 1 else 2 ^ w - 1
  match v with
  | .nan _ _ => (0, flagNV)
  | .inf s => (if s then lo else hi, flagNV)
  | .num s m e =>
    let (r, inexact) := roundTo rm s m e 0
    let x : Int := if s then -r else r
    if x < lo then (lo, flagNV) else if hi < x then (hi, flagNV) else (x, flagIf inexact flagNX)

/-! ### Arithmetic: exact values with NV, rounded once (R204, R205) -/

/-- A value and the flags found before rounding. -/
abbrev FExact := FVal × Flags

/-- An invalid operation. -/
def invalidF : FExact := (.nan false true, flagNV)

/-- Exact sum; an exact zero of opposite signs is +0, under RDN −0. -/
def addExact (rm : Nat) (a b : FVal) : FExact :=
  let sig := signalFlag a ||| signalFlag b
  match a, b with
  | .nan _ _, _ | _, .nan _ _ => (.nan false true, sig)
  | .inf s, .inf t => if s == t then (.inf s, 0) else invalidF
  | .inf s, _ => (.inf s, 0)
  | _, .inf t => (.inf t, 0)
  | .num s m e, .num t n d =>
    if m == 0 && n == 0 then (.num (if s == t then s else rm == 2) 0 0, 0)
    else
      let e0 := min e d
      let x := alignTo e0 s m e + alignTo e0 t n d
      (if x == 0 then .num (rm == 2) 0 0 else .num (x < 0) x.natAbs e0, 0)

/-- Exact product. -/
def mulExact (a b : FVal) : FExact :=
  let sig := signalFlag a ||| signalFlag b
  let s := signOf a != signOf b
  match a, b with
  | .nan _ _, _ | _, .nan _ _ => (.nan false true, sig)
  | .inf _, v | v, .inf _ => if isZero v then invalidF else (.inf s, 0)
  | .num _ m e, .num _ n d => (.num s (m * n) (e + d), 0)

/-- Exact a · b + c. -/
def fmaExact (rm : Nat) (a b c : FVal) : FExact :=
  let (p, f) := mulExact a b
  let (r, g) := addExact rm p c
  (r, f ||| g ||| signalFlag c)

/-- An exact result rounded once. -/
def roundExact (f : Fmt) (rm : Nat) (x : FExact) : FRes :=
  let r := fround f rm x.1
  ⟨r.bits, r.flags ||| x.2⟩

/-- Sum in a format. -/
def faddR (f : Fmt) (rm a b : Nat) : FRes := roundExact f rm (addExact rm (fval f a) (fval f b))
/-- Difference in a format. -/
def fsubR (f : Fmt) (rm a b : Nat) : FRes := roundExact f rm (addExact rm (fval f a) (negate (fval f b)))
/-- Product in a format. -/
def fmulR (f : Fmt) (rm a b : Nat) : FRes := roundExact f rm (mulExact (fval f a) (fval f b))
/-- a · b + c in a format, rounded once. -/
def fmaR (f : Fmt) (rm a b c : Nat) : FRes := roundExact f rm (fmaExact rm (fval f a) (fval f b) (fval f c))

/-- Minimum or maximum (R205): −0 below +0, one NaN gives the other operand, two the canonical NaN. -/
def minMax (f : Fmt) (wantMax : Bool) (a b : Nat) : FRes :=
  let x := fval f a
  let y := fval f b
  let sig := signalFlag x ||| signalFlag y
  if isNan x && isNan y then ⟨(canonNan f false).bits, sig⟩
  else if isNan x then ⟨b, sig⟩
  else if isNan y then ⟨a, sig⟩
  else
    let aLess := match cmpNum x y with
      | .lt => true
      | .gt => false
      | .eq => signOf x && !signOf y
    ⟨if aLess == wantMax then b else a, 0⟩

/-- A quotient of two positive numbers m/n · 2^e as a number with a sticky last bit, exact enough to round once to any
format. -/
def quotient (m n : Nat) (e : Int) : Nat × Int :=
  let k := 160 + n.log2
  let q := m * 2 ^ k / n
  (2 * q + (if m * 2 ^ k % n == 0 then 0 else 1), e - k - 1)

/-- f32(a / b) under RNE for finite positive b (R218's c). -/
def divF32 (a b : Nat) : Nat :=
  match fval f32 a, fval f32 b with
  | .num s m e, .num t n d =>
    if n == 0 then (canonNan f32 false).bits
    else
      let (q, x) := quotient m n (e - d)
      (roundNum f32 0 (s != t) q x).bits
  | .num s _ _, .inf t => withSign f32 (s != t) 0
  | _, _ => (canonNan f32 false).bits

/-! ### Approximations: exact references -/

/-- A real number m · 2^e of the references. -/
structure Dy where
  m : Int
  e : Int
  deriving DecidableEq, Repr

/-- A reference cut to 128 significant bits. -/
def dyCut (x : Dy) : Dy :=
  let n := x.m.natAbs.log2
  if n < 128 then x else ⟨x.m / 2 ^ (n - 127), x.e + (n - 127 : Nat)⟩
/-- Product. -/
def dyMul (x y : Dy) : Dy := dyCut ⟨x.m * y.m, x.e + y.e⟩
/-- Sum. -/
def dyAdd (x y : Dy) : Dy :=
  let e := min x.e y.e
  dyCut ⟨x.m * 2 ^ (x.e - e).toNat + y.m * 2 ^ (y.e - e).toNat, e⟩
/-- Negative. -/
def dyNeg (x : Dy) : Dy := ⟨-x.m, x.e⟩
/-- Quotient by a nonzero number. -/
def dyDiv (x y : Dy) : Dy :=
  if y.m == 0 then ⟨0, 0⟩
  else
    let k := 128 + y.m.natAbs.log2
    dyCut ⟨x.m * 2 ^ k / y.m, x.e - y.e - k⟩
/-- Whether |x − y| ≤ |z| · 2^−n. -/
def dyNear (x y z : Dy) (n : Nat) : Bool :=
  let d := dyAdd x (dyNeg y)
  let e := min d.e (z.e - n)
  d.m.natAbs * 2 ^ (d.e - e).toNat ≤ z.m.natAbs * 2 ^ (z.e - n - e).toNat
/-- A finite float as a reference. -/
def dyOf : FVal → Dy
  | .num s m e => ⟨if s then -m else m, e⟩
  | _ => ⟨0, 0⟩

/-- Integer square root, bit by bit from bit `i` down. -/
def isqrtFrom (n : Nat) : Nat → Nat → Nat
  | 0, r => if (r + 1) * (r + 1) ≤ n then r + 1 else r
  | i + 1, r => isqrtFrom n i (if (r + 2 ^ (i + 1)) * (r + 2 ^ (i + 1)) ≤ n then r + 2 ^ (i + 1) else r)
/-- Integer square root. -/
def isqrt (n : Nat) : Nat := isqrtFrom n (n.log2 / 2 + 1) 0

/-- 2^f for a fraction given by its 64 leading bits, scaled by 2^96: the product of 2^(2^−i) over its set bits. -/
def exp2Bits : Nat → Nat → Nat → Nat → Nat
  | 0, _, _, r => r
  | n + 1, frac, root, r =>
    exp2Bits n frac (isqrt (root * 2 ^ 96)) (if flag frac n then r * root / 2 ^ 96 else r)

/-- 2^x (x within ±2^20). -/
def dyExp2 (x : Dy) : Dy :=
  let fixed : Int := if 0 ≤ x.e + 64 then x.m * 2 ^ (x.e + 64).toNat else x.m / 2 ^ (-(x.e + 64)).toNat
  let whole := fixed / 2 ^ 64
  let frac := (fixed % 2 ^ 64).toNat
  ⟨exp2Bits 64 frac (isqrt (2 * 2 ^ 192)) (2 ^ 96), whole - 96⟩

/-- 64 bits of log2 of a number in [1, 2) scaled by 2^96, by repeated squaring. -/
def log2Bits : Nat → Nat → Nat → Nat
  | 0, _, acc => acc
  | n + 1, x, acc =>
    let y := x * x / 2 ^ 96
    if 2 ^ 97 ≤ y then log2Bits n (y / 2) (2 * acc + 1) else log2Bits n y (2 * acc)

/-- log2 of a positive number. -/
def dyLog2 (m : Nat) (e : Int) : Dy :=
  let n := m.log2
  let x := if n ≤ 96 then m * 2 ^ (96 - n) else m / 2 ^ (n - 96)
  ⟨((n : Int) + e) * 2 ^ 64 + (log2Bits 64 x 0 : Nat), -64⟩

/-- log2 of e. -/
def log2e : Dy := ⟨1917670637729674084946755258930051709, -120⟩

/-- 1 / (1 + 2^t). -/
def dyLogistic (t : Dy) : Dy := dyDiv ⟨1, 0⟩ (dyAdd ⟨1, 0⟩ (dyExp2 t))

/-- A reference rounded to f32. -/
def dyRound (x : Dy) : FRes := roundNum f32 0 (x.m < 0) x.m.natAbs x.e

/-- The flags of a fixed function's result that is not exact (R215): NX on a finite nonzero one, UF on a tiny one; a
zero or infinite one sets what the exact result `r` sets, if that is zero or infinite too. -/
def approxFlags (r : FRes) (bits : Nat) : Flags :=
  match fval f32 bits with
  | .num _ m _ =>
    if m == 0 then (if r.bits % 2 ^ 31 == 0 then r.flags else 0)
    else flagNX ||| flagIf (m < 2 ^ 23) flagUF
  | _ => r.flags

/-- The f32 a fixed function gives where the exact result is `x`, not one the spec makes exact: the candidate of Config
where it lies within the bound, `|c − x| ≤ 2^−n · |z|`, else the exact result rounded (assumption 12). -/
def approximate (fn : Nat) (input : Nat) (x z : Dy) (n : Nat) : FRes :=
  let r := dyRound x
  let c := (Config.approx fn (BitVec.ofNat 32 input)).toNat
  let bits := match fval f32 c with
    | .num _ _ _ => if dyNear (dyOf (fval f32 c)) x z n && r.flags &&& flagOF == 0 then c else r.bits
    | _ => r.bits
  ⟨bits, approxFlags r bits⟩

/-- Whether a number is a power of two. -/
def powerOfTwo (m : Nat) : Bool := m != 0 && m == 2 ^ m.log2

/-- Reciprocal of an f32 (R215, Table 10.6). -/
def recip (a : Nat) : FRes :=
  let v := fval f32 a
  match v with
  | .nan _ _ => ⟨(canonNan f32 false).bits, signalFlag v⟩
  | .inf s => ⟨withSign f32 s 0, 0⟩
  | .num s m e =>
    if m == 0 then ⟨withSign f32 s (infCode f32), flagDZ⟩
    else if powerOfTwo m then roundNum f32 0 s 1 (-(topExp m e))
    else
      let x := dyDiv ⟨1, 0⟩ (dyOf v)
      approximate 0 a x x 14

/-- Reciprocal square root of an f32 (R215, Table 10.6). -/
def recipSqrt (a : Nat) : FRes :=
  let v := fval f32 a
  match v with
  | .nan _ _ => ⟨(canonNan f32 false).bits, signalFlag v⟩
  | .inf s => if s then ⟨(canonNan f32 false).bits, flagNV⟩ else ⟨0, 0⟩
  | .num s m e =>
    if m == 0 then ⟨withSign f32 s (infCode f32), flagDZ⟩
    else if s then ⟨(canonNan f32 false).bits, flagNV⟩
    else
      let k : Int := if e % 2 == 0 then e else e - 1
      let r : Dy := ⟨isqrt ((if e % 2 == 0 then m else 2 * m) * 2 ^ 200), k / 2 - 100⟩
      let x := dyDiv ⟨1, 0⟩ r
      approximate 1 a x x 14

/-- 2^a of an f32 (R282). -/
def exp2R (fn a n : Nat) : FRes :=
  let v := fval f32 a
  match v with
  | .nan _ _ => ⟨(canonNan f32 false).bits, signalFlag v⟩
  | .inf s => if s then ⟨0, 0⟩ else ⟨infCode f32, 0⟩
  | .num s m e =>
    if m == 0 then ⟨0x3F800000, 0⟩
    else if 12 < topExp m e then
      if s then ⟨0, flagUF ||| flagNX⟩ else ⟨infCode f32, flagOF ||| flagNX⟩
    else if (roundTo 1 s m e 0).2 then
      let x := dyExp2 (dyOf v)
      approximate fn a x x n
    else
      let k := alignTo 0 s (roundTo 1 s m e 0).1 0
      roundNum f32 0 false 1 k

/-- log2 a of an f32 (R282). -/
def log2R (a : Nat) : FRes :=
  let v := fval f32 a
  match v with
  | .nan _ _ => ⟨(canonNan f32 false).bits, signalFlag v⟩
  | .inf s => if s then ⟨(canonNan f32 false).bits, flagNV⟩ else ⟨infCode f32, 0⟩
  | .num s m e =>
    if m == 0 then ⟨withSign f32 true (infCode f32), flagDZ⟩
    else if s then ⟨(canonNan f32 false).bits, flagNV⟩
    else if powerOfTwo m then ofInteger f32 0 (topExp m e)
    else
      let x := dyLog2 m e
      let z : Dy := if x.m.natAbs < 2 ^ 64 then ⟨1, 0⟩ else x
      approximate 3 a x z 14

/-- tanh a of an f32 (R341): odd, absolute error at most 2^−14. -/
def tanhR (a : Nat) : FRes :=
  let v := fval f32 a
  match v with
  | .nan _ _ => ⟨(canonNan f32 false).bits, signalFlag v⟩
  | .inf s => ⟨withSign f32 s 0x3F800000, 0⟩
  | .num s m e =>
    if m == 0 then ⟨a, 0⟩
    else
      let r :=
        if 6 < topExp m e then approximate 4 (a % 2 ^ 31) ⟨1, 0⟩ ⟨1, 0⟩ 14
        else
          let t := dyMul ⟨2 * m, e⟩ log2e
          let x := dyAdd ⟨1, 0⟩ (dyNeg (dyMul ⟨2, 0⟩ (dyLogistic t)))
          approximate 4 (a % 2 ^ 31) x ⟨1, 0⟩ 14
      ⟨withSign f32 s (r.bits % 2 ^ 31), r.flags⟩

/-- v · 1/(1 + 2^t) for a finite nonzero f32 v (R371), the bound 2^−13. -/
def gated (fn a : Nat) (v : Dy) (t : Dy) : FRes :=
  let big := topExp t.m.natAbs t.e
  let x :=
    if 14 < big then (if t.m < 0 then v else ⟨0, 0⟩) else dyMul v (dyLogistic t)
  if x.m == 0 then ⟨withSign f32 (v.m < 0) 0, flagUF ||| flagNX⟩ else approximate fn a x x 13

/-- silu of an f32 (R371); −inf is the limit −0 and +inf itself (assumption 16). -/
def siluR (a : Nat) : FRes :=
  let v := fval f32 a
  match v with
  | .nan _ _ => ⟨(canonNan f32 false).bits, signalFlag v⟩
  | .inf s => if s then ⟨signBit f32, 0⟩ else ⟨a, 0⟩
  | .num _ m _ => if m == 0 then ⟨a, 0⟩ else gated 5 a (dyOf v) (dyNeg (dyMul (dyOf v) log2e))

/-- gelu-tanh of an f32 (R371): 0.5·v·(1 + tanh z) is v/(1 + 2^(−2z·log2 e)), z = 0.797884561·(v + 0.044715·v³). -/
def geluR (a : Nat) : FRes :=
  let v := fval f32 a
  match v with
  | .nan _ _ => ⟨(canonNan f32 false).bits, signalFlag v⟩
  | .inf s => if s then ⟨signBit f32, 0⟩ else ⟨a, 0⟩
  | .num _ m _ =>
    if m == 0 then ⟨a, 0⟩
    else
      let x := dyOf v
      let cubic := dyMul (dyDiv ⟨44715, 0⟩ ⟨1000000, 0⟩) (dyMul x (dyMul x x))
      let z := dyMul (dyDiv ⟨797884561, 0⟩ ⟨1000000000, 0⟩) (dyAdd x cubic)
      gated 6 a x (dyNeg (dyMul ⟨2, 0⟩ (dyMul z log2e)))

/-- exp2d of R218: +0 for y ≤ −150, exact at integers from −149, else within 2^−22; a NaN's value is not stated and is
free (assumption 12). -/
def exp2d (y : Nat) : Nat :=
  match fval f32 y with
  | .nan _ _ => (Config.approx 7 (BitVec.ofNat 32 y)).toNat
  | .inf s => if s then 0 else infCode f32
  | .num s m e =>
    if s && (alignTo (min e 0) false m e : Int) ≥ 150 * 2 ^ (-(min e 0)).toNat then 0 else (exp2R 7 y 22).bits

/-- One Newton step y + y·(1 − x·y) (R216). -/
def recipStep (f : Fmt) (rm x y : Nat) : FRes :=
  let a := fval f x
  let b := fval f y
  if isNan a || isNan b then ⟨(canonNan f false).bits, signalFlag a ||| signalFlag b⟩
  else if isZero a || isInf a || isZero b || isInf b then ⟨y, 0⟩
  else
    let (xy, _) := mulExact a b
    let (d, _) := addExact rm (.num false 1 0) (negate xy)
    let (p, _) := mulExact b d
    roundExact f rm (addExact rm b p)

/-- One Newton step y + y·(1 − x·y²)/2 (R216). -/
def recipSqrtStep (f : Fmt) (rm x y : Nat) : FRes :=
  let a := fval f x
  let b := fval f y
  if isNan a || isNan b then ⟨(canonNan f false).bits, signalFlag a ||| signalFlag b⟩
  else if isZero a || isInf a || isZero b || isInf b then ⟨y, 0⟩
  else
    let (yy, _) := mulExact b b
    let (xyy, _) := mulExact a yy
    let (d, _) := addExact rm (.num false 1 0) (negate xyy)
    let (p, _) := mulExact b d
    let half : FVal := match p with
      | .num s m e => .num s m (e - 1)
      | v => v
    roundExact f rm (addExact rm b half)

end Sys2Proof.Machine
end

