-- ==== Sys2Proof/Machine/Operands.lean ====
section
/-! DEFINITION. Operands: reading and writing registers, last use, predicates, the forms each format class reads its
operands in, effective addresses, and reading and writing memory at them (R251-R256, R269, R296-R304). -/

namespace Sys2Proof.Machine

/-! ### Reading (R252, R269, R300) -/

/-- A register whose outstanding load has not returned stalls its reader and its writer (R300). -/
def settled (st : Stream) (r : BitVec 8) : Act Unit :=
  if st.loads.any fun l => (l.reg, l.slot) == destKey st r then .error .unready else .ok ()

/-- g(`n`): g0 is zero. -/
def gValue (st : Stream) (n : Nat) : Word := if n == 0 then 0 else look 0 st.g (gKey st n)
/-- Whether q(`n`) is live. -/
def qLive (st : Stream) (n : Nat) : Bool := flag st.qlive.toNat n
/-- q(`n`). -/
def qValue (st : Stream) (n : Nat) : Word := look 0 st.q n
/-- c(`n`): c0 is true. -/
def cValue (st : Stream) (n : Nat) : Bool := n == 0 || flag st.c.toNat n

/-- Read a g register. -/
def readG (s : State) (n : Nat) : Act Word := do
  settled (me s) (BitVec.ofNat 8 n)
  return gValue (me s) n

/-- Read a q register; an empty one raises DEAD_OPERAND. -/
def readQ (s : State) (n : Nat) : Act Word := do
  settled (me s) (BitVec.ofNat 8 (0x80 + n))
  if qLive (me s) n then return qValue (me s) n else stopWith 0x04

/-- Whether a stream before the issuing one reads stream register d(`k`) in every cycle until an element comes: it takes
the next one (R141). -/
def readerBefore (s : State) (k : Nat) : Bool :=
  !inHandler s && (List.range s.curStream).any fun n =>
    let st := streamOf (myCore s) n
    st.status == .running && st.waiting == some (.fifo k)

/-- Take the next element of stream register d(`k`); streams that stall on one are served in stream order (R141). -/
def readD (s : State) (k : Nat) : Act (Word × State) :=
  let d := look {} (myCore s).dregs k
  match d.fifo with
  | v :: rest =>
    if readerBefore s k then .error (.wait (.fifo k))
    else .ok (v, onCore s s.curCore fun c => { c with dregs := put c.dregs k { d with fifo := rest } })
  | [] => if d.feeds.isEmpty then stopWith 0x94 else .error (.wait (.fifo k))

/-- Read a source by specifier: g, q, c as 0 or 1, or the next element of d (R251, R269). -/
def readReg (s : State) (r : BitVec 8) : Act (Word × State) :=
  let n := r.toNat
  if n < 0x80 then (readG s n).map fun v => (v, s)
  else if n < 0x90 then (readQ s (n - 0x80)).map fun v => (v, s)
  else if n < 0xA0 then .ok (word (bit01 (cValue (me s) (n - 0x90))), s)
  else if n < 0xA8 then readD s (n - 0xA0)
  else stopWith 0x03

/-- Read a g or q register by specifier, which changes nothing. -/
def readGQ (s : State) (r : BitVec 8) : Act Word :=
  if r.toNat < 0x80 then readG s r.toNat else readQ s (r.toNat - 0x80)

/-- Read g(`n`) to g(`n + k - 1`). -/
def readRun (s : State) (n : Nat) : Nat → Act (List Word)
  | 0 => .ok []
  | k + 1 => do
    let v ← readG s n
    let vs ← readRun s (n + 1) k
    return v :: vs

/-- The command image in g(`n`) to g(`n + k - 1`), little-endian (R306). -/
def readImage (s : State) (n k : Nat) : Act (List Byte) :=
  (readRun s n k).map fun ws => ws.flatMap fun w => toBytes 8 w.toNat

/-! ### Writing -/

/-- Write a g, q or c register by specifier; a write to g0 or c0 is discarded, a c register becomes true for a nonzero
value (R252, R269). -/
def writeReg (s : State) (r : BitVec 8) (v : Word) : Act State := do
  settled (me s) r
  return onMe s fun st => putReg st r v

/-- Write consecutive g registers from g(`n`). -/
def writeRun (s : State) (n : Nat) : List Word → Act State
  | [] => .ok s
  | v :: vs => do
    let s ← writeReg s (BitVec.ofNat 8 n) v
    writeRun s (n + 1) vs

/-- Write a predicate register to a truth value. -/
def writePred (s : State) (r : BitVec 8) (b : Bool) : State := onMe s fun st => putReg st r (word (bit01 b))

/-! ### Last use and predicates (R252, R253) -/

/-- Empty q(`n`) of the issuing stream. -/
def emptyQ (s : State) (n : Nat) : State :=
  onMe s fun st => { st with qlive := st.qlive &&& ~~~ BitVec.ofNat 16 (2 ^ n) }
/-- Empty the register of a specifier if it is a q register and its last use is marked. -/
def emptyIf (s : State) (last : Bool) (r : BitVec 8) : State :=
  if last && isQ r then emptyQ s (r.toNat - 0x80) else s

/-- Whether the guard lets the instruction execute (R253): c(PRED), inverted by NEG. -/
def guardHolds (s : State) : Bool := cValue (me s) s.guard.pred.toNat != s.guard.neg

/-- The instruction is predicated off: it issues, emits no pulse, and does nothing else. -/
def skip (s : State) (len : Nat) : Host.Outcome State Fault Refusal :=
  .next (finish { s with guard := { s.guard with pulse := false } } len none)

/-- An instruction of `len` bytes under its guard, without last-use bits (R252): the M, E and V classes. -/
def guarded (s : State) (len : Nat) (body : Act State) : Host.Outcome State Fault Refusal :=
  if guardHolds s then concludeNext s len body else skip s len

/-! ### Format classes -/

/-- A Q-class instruction over two q sources; `second` gives b from its register's value and the immediate. -/
def qForm (f : QFields) (s : State) (readB : Bool) (op : Word → Word → Word) : Host.Outcome State Fault Refusal :=
  concludeNext s 4 do
    let a ← readQ s f.a.toNat
    let b ← if readB then readQ s f.b.toNat else pure ((f.imm.signExtend 64 : Word))
    let s := if f.alast then emptyQ s f.a.toNat else s
    let s := if readB && f.blast then emptyQ s f.b.toNat else s
    writeReg s (BitVec.ofNat 8 (0x80 + f.dst.toNat)) (op a b)

/-- A Q-class compare into c DST (R273). -/
def qCompare (f : QFields) (s : State) (op : Word → Word → Bool) : Host.Outcome State Fault Refusal :=
  concludeNext s 4 do
    let a ← readQ s f.a.toNat
    let b ← readQ s f.b.toNat
    let s := if f.alast then emptyQ s f.a.toNat else s
    let s := if f.blast then emptyQ s f.b.toNat else s
    return writePred s (BitVec.ofNat 8 (0x90 + f.dst.toNat)) (op a b)

/-- A Q-class predicate operation over c registers (R274). -/
def qPred (f : QFields) (s : State) (op : Bool → Bool → Bool) : Host.Outcome State Fault Refusal :=
  concludeNext s 4 (.ok (writePred s (BitVec.ofNat 8 (0x90 + f.dst.toNat))
    (op (cValue (me s) f.a.toNat) (cValue (me s) f.b.toNat))))

/-- The second operand of a G-class or L-class instruction: a register, IMM18 sign-extended, or LIT sign-extended. -/
inductive Second where
  | reg (r : BitVec 8)
  | value (v : Word)
  deriving DecidableEq, Repr

/-- Read the a operand, then b (R269). -/
def readTwo (s : State) (a : BitVec 8) (b : Second) : Act (Word × Word × State) := do
  let (x, s) ← readReg s a
  match b with
  | .reg r =>
    let (y, s) ← readReg s r
    return (x, y, s)
  | .value v => return (x, v, s)

/-- Empty the q sources an LU bit marks. -/
def emptySources (s : State) (lu : Bool) (a : BitVec 8) (b : Second) : State :=
  let s := emptyIf s lu a
  match b with
  | .reg r => emptyIf s lu r
  | .value _ => s

/-- The q sources an LU bit marks, which it writes by emptying them, have no load outstanding (R300). -/
def settledSources (s : State) (lu : Bool) (a : BitVec 8) (b : Second) : Act Unit := do
  if lu && isQ a then settled (me s) a
  match b with
  | .reg r => if lu && isQ r then settled (me s) r else return ()
  | .value _ => return ()

/-- A G-class, L-class or X-class instruction that is predicated off: it still empties the q sources its LU bit marks
(R253). -/
def skipSources (s : State) (len : Nat) (lu : Bool) (a : BitVec 8) (b : Second) : Host.Outcome State Fault Refusal :=
  match settledSources s lu a b with
  | .error e => .next (trapState s e)
  | .ok _ => skip (emptySources s lu a b) len

/-- A G-class or L-class instruction: its sources are read and emptied, then `op` acts on their values; predicated off
it still empties them (R253). -/
def twoForm (s : State) (len : Nat) (lu : Bool) (a : BitVec 8) (b : Second) (op : Word → Word → State → Act State) :
    Host.Outcome State Fault Refusal :=
  if guardHolds s then
    concludeNext s len do
      let (x, y, s) ← readTwo s a b
      op x y (emptySources s lu a b)
  else skipSources s len lu a b

/-- A G-class integer instruction with a result. -/
def gForm (f : GFields) (s : State) (b : Second) (op : Word → Word → Word) : Host.Outcome State Fault Refusal :=
  twoForm s 8 f.lu f.a b fun x y s => writeReg s f.dst (op x y)

/-- An L-class integer instruction with a result; b is LIT sign-extended (R271). -/
def lForm (f : LFields) (s : State) (op : Word → Word → Word) : Host.Outcome State Fault Refusal :=
  twoForm s 12 f.lu f.a (.value (f.lit.signExtend 64)) fun x y s => writeReg s f.dst (op x y)

/-- IMM18 sign-extended. -/
def immG (f : GFields) : Second := .value (f.imm.signExtend 64)

/-- Read the destination's old value, as SEL and FMA do: an empty q raises DEAD_OPERAND. -/
def readOld (s : State) (r : BitVec 8) : Act Word :=
  if r.toNat < 0x90 then readGQ s r else .ok (word (bit01 (cValue (me s) (r.toNat - 0x90))))

/-! ### Effective addresses (R296) and memory at them -/

/-- The part of an effective address above bit 55. -/
def eaSpace (ea : Word) : Nat := ea.toNat / 2 ^ 56

/-- The address of core-store offset `o`. -/
def csAddress (o : Nat) : Word := word (2 ^ 63 + o)

/-- The trap for a stretch of device virtual memory that does not translate, or its pieces. -/
def spanAct (r : Span × State) (kind : Nat) : Act (List (Loc × Nat) × State) :=
  match r with
  | (.ok ps, s) => .ok (ps, s)
  | (.stop va l, _) => .error (lookTrap va kind l)

/-- The places of the `n` bytes at an effective address for an access of the issuing core (R296, R298). -/
def places (s : State) (kind : Nat) (ea : Word) (n : Nat) : Act (List (Loc × Nat) × State) :=
  if eaSpace ea == 0 then
    if 2 ^ 56 < ea.toNat + n then invalid ea else spanAct (span s (some s.curCore) (myCtx s) kind ea.toNat n) kind
  else if eaSpace ea == 0x80 && field ea.toNat 27 29 == 0 then csSpan s s.curCore (field ea.toNat 0 27) n ea
  else invalid ea

/-- Read the `n` bytes at an effective address; a read of poison gives 0xFF bytes and an item record (R88). -/
def loadBytes (s : State) (kind : Nat) (ea : Word) (n : Nat) : Act (List Byte × State) := do
  let (ps, s) ← places s kind ea n
  let s := if poisonPieces s ps then postCore s s.curCore s.curStream 0x60 ea.toNat 0 else s
  return (readPieces s ps, s)

/-- `loadBytes` in units that are no 4-byte load. -/
def loadUnits (s : State) (kind : Nat) (ea : Word) (n : Nat) : Act (List Byte × State) := do
  let (ps, s) ← places s kind ea n
  let s := if poisonPieces s ps then postCore s s.curCore s.curStream 0x60 ea.toNat 0 else s
  return (readUnits s ps, s)

/-- Write bytes at an effective address. -/
def storeBytes (s : State) (kind : Nat) (ea : Word) (bs : List Byte) : Act State := do
  let (ps, s) ← places s kind ea bs.length
  return writePieces s ps bs

/-- Whether stretches of half bytes fill a granule. -/
def fills (cover : List (Nat × Nat)) (g : Nat) : Bool :=
  (List.range 128).all fun i => cover.any fun p => p.1 ≤ 128 * g + i && 128 * g + i < p.1 + p.2

/-- One operation has written stretches of half bytes: a granule they fill loses its poison (R88). -/
def cleanCover (s : State) (cover : List (Nat × Nat)) : State :=
  { s with poison := s.poison.filter fun g => !fills cover g }

/-- Core store of the executing core read and written by offset. -/
def loadCs (s : State) (o n : Nat) (info : Word) : Act (List Byte × State) := do
  let (ps, s) ← csSpan s s.curCore o n info
  let s := if poisonPieces s ps then postCore s s.curCore s.curStream 0x60 (csAddress o).toNat 0 else s
  return (readPieces s ps, s)

/-- Write core store by offset. -/
def storeCs (s : State) (o : Nat) (bs : List Byte) (info : Word) : Act State := do
  let (ps, s) ← csSpan s s.curCore o bs.length info
  return writePieces s ps bs

/-- The operation of the issuing stream has written bytes at places: what lies in a granule still poisoned counts toward
the writing of the whole granule (R88). -/
def coverPieces (s : State) (ps : List (Loc × Nat)) : State :=
  let part := (ps.filter fun p => poisonedAt s p.1 p.2).map fun p => (2 * p.1.key, 2 * p.2)
  if part.isEmpty then s
  else
    let s := onMe s fun st => { st with covered := st.covered ++ part }
    cleanCover s (me s).covered

/-- `coverPieces` for core store written by offset. -/
def coverCs (s : State) (o n : Nat) : State :=
  if s.poison.isEmpty then s
  else match csSpan s s.curCore o n 0 with
    | .ok (ps, s) => coverPieces s ps
    | .error _ => s

/-! ### Parameter areas (R303, Table 14.2) -/

/-- A parameter area: base offset and length in bytes. -/
structure Area where
  base : Nat
  len : Nat
  deriving DecidableEq, Repr

/-- INFO of a fault on an area: its number over the element index. -/
def areaInfo (area : Nat) (i : Int) : Word := word (area * 2 ^ 60 + unsigned 60 i)

/-- Read the descriptor of an area, as it stood when the instruction issued (R303); a bad one faults on any access to
element `i`. -/
def readArea (s : State) (area : Nat) (i : Int) : Act (Area × State) := do
  let (bs, s) ← match find (me s).opened area with
    | some bs => pure (bs, s)
    | none => loadCs s (8 * area) 8 (areaInfo area i)
  let v := fromBytes bs
  let d : Area := ⟨field v 0 27, field v 32 27⟩
  if field v 27 5 != 0 || field v 59 5 != 0 || Config.csTop < d.base + d.len then
    .error (.event 0x91 (some (areaInfo area i)))
  else return (d, s)

/-- The descriptor of an area as it lies in core store: none where a read of it would do more, claim a region, wait for
one or meet poison. -/
def peekArea (s : State) (area : Nat) : Option (List Byte) :=
  (myCore s).slice.bind fun l => (regionAt (myCore s) l.ctx l.index 0).bind fun g =>
    let p := Loc.store s.curCore (g.physical * 2 ^ 20 + 8 * area)
    if g.moving || poisonedAt s p 8 then none else some (readAt s p 8)

/-- The descriptor of an area that an instruction names is that at its issue (R303). -/
def openArea (s : State) (area : Nat) : State :=
  match find (me s).opened area, peekArea s area with
  | none, some bs => onMe s fun st => { st with opened := put st.opened area bs }
  | _, _ => s

/-- The descriptors of the areas that an instruction names are those at its issue (R303). -/
def openAreas (s : State) (fields : List (BitVec 24)) : State :=
  ((fields.filter (regionKind · == 2)).map fun r => field r.toNat 2 4).foldl openArea s

/-- The offset of element `i` of `n` bytes in an area, or CS_RANGE. -/
def areaOffset (d : Area) (area n : Nat) (i : Int) : Act Nat :=
  if i < 0 || (d.len : Int) < (i + 1) * n then .error (.event 0x91 (some (areaInfo area i)))
  else .ok (d.base + i.toNat * n)

/-! ### Place fields (R255) -/

/-- The core a place field names from a core, if it lies in the grid. -/
def placeTarget (core place : Nat) : Option Nat :=
  let r := (coreRow core : Int) + signed 4 (place / 256)
  let c := (coreCol core : Int) + signed 5 (place / 8)
  if 0 ≤ r && r < Config.rows && 0 ≤ c && c < Config.cols then some (16 * r.toNat + c.toNat) else none

/-- The core a place register names: g0 the executing core; nonzero bits above [11:0] or unit bits are invalid; outside
the grid PLACE_RANGE (R255, R308). -/
def placeReg (s : State) (r : BitVec 8) : Act Nat :=
  if r == 0 then .ok s.curCore
  else do
    let v ← readGQ s r
    if 4096 ≤ v.toNat || v.toNat % 8 != 0 then stopWith 0x09
    else match placeTarget s.curCore v.toNat with
      | some c => return c
      | none => stopWith 0x93

end Sys2Proof.Machine
end

