-- ==== Sys2Proof/Machine/Issue.lean ====
section
/-! DEFINITION. Issuing: the line an instruction is fetched from, the decode faults in their order, the streams and modes
that may execute it, the breakpoint match, and the passing of a cycle (R131, R144, R244, R254, R258, R321, Table 7.1). -/

namespace Sys2Proof.Machine

/-- Whether stream `n` may execute an instruction (Table 7.1). -/
def streamOk (n : Nat) : Instr → Bool
  | .addQ _ | .subQ _ | .andQ _ | .orQ _ | .xorQ _ | .andnQ _ | .shlQ _ | .shrQ _ | .sraQ _ | .minQ _ | .maxQ _
  | .minuQ _ | .maxuQ _ | .mulQ _ | .movQ _ | .addiQ _ | .andiQ _ | .oriQ _ | .xoriQ _ | .shliQ _ | .shriQ _
  | .sraiQ _ | .cmpeqQ _ | .cmpneQ _ | .cmpltQ _ | .cmpgeQ _ | .cmpltuQ _ | .cmpgeuQ _ | .cmpleQ _ | .cmpgtQ _
  | .movq _ | .movg _ | .pand _ | .por _ | .pxor _ | .pnot _ | .li _ | .br _ | .jmp _ | .jal _ | .brl _ | .nop
  | .addG _ | .subG _ | .andG _ | .orG _ | .xorG _ | .andnG _ | .shlG _ | .shrG _ | .sraG _ | .minG _ | .maxG _
  | .minuG _ | .maxuG _ | .mulG _ | .movG _ | .mulhG _ | .mulhuG _ | .divG _ | .divuG _ | .remG _ | .remuG _
  | .rotG _ | .clzG _ | .ctzG _ | .popcG _ | .sextG _ | .zextG _ | .bfxG _ | .bfiG _ | .selG _ | .addiG _
  | .andiG _ | .oriG _ | .xoriG _ | .shliG _ | .shriG _ | .sraiG _ | .addL _ | .subL _ | .andL _ | .orL _ | .xorL _
  | .andnL _ | .shlL _ | .shrL _ | .sraL _ | .minL _ | .maxL _ | .minuL _ | .maxuL _ | .mulL _ | .mulhL _
  | .mulhuL _ | .divL _ | .divuL _ | .remL _ | .remuL _ | .rotL _ | .sextL _ | .zextL _ | .selL _ | .cmpeqG _ _
  | .cmpneG _ _ | .cmpltG _ _ | .cmpgeG _ _ | .cmpltuG _ _ | .cmpgeuG _ _ | .cmpleG _ _ | .cmpgtG _ _ | .fadd _
  | .fsub _ | .fmul _ | .fma _ | .fmin _ | .fmax _ | .fsgn _ | .fcmp _ | .fcvt _ | .frcp _ | .frsq _ | .frcps _
  | .frsqs _ | .fexp2 _ | .flog2 _ | .mfs _ | .mts _ | .mfc _ | .mtc _ | .ld _ | .st _ | .lda _ | .stl _
  | .amoadd _ | .amoand _ | .amoor _ | .amoxor _ | .amomin _ | .amomax _ | .amoswp _ | .amocas _ | .mark | .fence _
  | .cflush _ | .icinv _ | .fbar | .prf _ | .ldp _ | .stp _ | .jalr _ | .loop _ | .push _ | .wait _ | .tlread _
  | .evset _ | .evpulse _ | .wfe _ | .sbind _ | .trap _ | .bkpt _ | .liw _ | .jmpl _ | .fli _ => true
  | .rdv f => f.n12 == 0 || n == 0
  | .fork _ | .spawn _ | .join _ | .joinBatch _ | .yield | .done | .gbar _ | .budget _ | .eqpush _ | .eqcfg _
  | .eqfire _ | .eqpop _ | .eqstat _ | .gfstep _ | .gfstepSet _ | .gfmask _ | .rply _ | .rplyTake _ | .embld _
  | .vrandk _ | .eret | .tlbinv _ => n == 0
  | .sigdef _ | .sigdrop _ | .tick | .tapld _ | .tapst _ | .tapstTick _ | .sighead _ | .sigrst _ | .sigseal _
  | .sigevict _ | .sigpos _ | .sctx _ => n < 2
  | .vadd _ | .vsub _ | .vmul _ | .vfma _ | .vmac _ | .vmin _ | .vmax _ | .vabs _ | .vneg _ | .vand _ | .vor _
  | .vxor _ | .vshl _ | .vshr _ | .vsra _ | .vcvt _ | .vsel _ | .vcmp _ | .vrcp _ | .vrsq _ | .vexp _ | .vlog _
  | .vtanh _ | .vsum _ | .vmaxr _ | .vdraw _ | .vdrawm _ | .vscan _ | .vpopc _ | .vdot _ | .vrand _ | .vcopy _
  | .vfill _ | .vgather _ | .vscatter _ | .vperm _ | .vexpand _ | .vfir _ | .cspush _ | .cspop _ | .csroute _
  | .vshape _ => n == 1
  | .tld _ | .tst _ | .mma _ | .mmaz _ | .nestgo _ | .accmov _ | .accz _ => 2 ≤ n && n ≤ 5
  | .scld _ | .tidset _ | .tidinv _ => n == 0 || (2 ≤ n && n ≤ 5)
  | .powerInputApplied | .coolantOkAsserted | .railSequenceStep _ | .selfTestDone _ | .perstRelease | .railFault _
  | .throttleUp | .throttleDown | .thermalTrip | .hbmSiteHot _ | .hbmThermalRetirement _ _ | .sensorRefresh _
  | .bootRomCheck | .readSensors | .readModstat | .readCapacity | .setPowerLimit _ | .fwStage _ | .fwActivate _
  | .flashWriteDone | .eventLog | .mailboxUnknownCommand _ | .mailboxResponseRead | .recoveryStage
  | .recoveryStageDone | .recoveryCommit | .patrolScrub _ _ | .remapRequest _ _ _ | .rmctlWrite _ _ | .remapPublish
  | .coreFence _ | .htrWrite _ _ _ | .lmapWrite _ _ _ | .parkWrite _ _ | .portIdlePark _ | .portWakeTrigger _
  | .wakeLockEnd _ _ | .wakeComplete _ | .markerReceived _ _ | .ringLockLoss _ _ | .lanePause _ _ | .data _ _
  | .ack _ _ | .nak _ _ | .portDownTimeout _ | .withdraw _ _ _ _ | .form _ _ _ | .formTimeout _ _
  | .allreduce _ _ _ | .allgather _ _ _ | .redscatter _ _ _ | .alltoall _ _ _ | .drawmerge _ _ _
  | .collectiveBadOp _ _ | .collectiveComplete _ _ | .functionLevelReset _ | .pfReset | .queueEnable _ _ _
  | .queueResume _ _ | .queueAbort _ _ | .queueDrain _ _ | .kick _ _ _ | .kickRefetch _ _
  | .packetFetchResponse _ _ | .launch _ _ _ | .launchUnitCreate _ _ _ | .copy _ _ _ | .tlwait _ _ _
  | .tlwaitSatisfied _ _ _ | .tlsignal _ _ _ | .mapupdate _ _ _ | .fencePacket _ _ _ | .nopkt _ _ _
  | .packetComplete _ _ _ | .swtWrite _ _ _ | .crheadWrite _ _ | .trheadWrite _ _ _ | .itheadWrite _ _
  | .crctlWrite _ _ | .trctlWrite _ _ _ | .itctlWrite _ _ | .dtctlWrite _ _ | .tokenRingTimer _ _ | .fresResume _
  | .fresFail _ | .fresSkip _ | .fresKill _ | .gfbaseWrite _ _ | .bar2Read _ _ _ | .bar2Write _ _ _
  | .atsInvalidation _ _ _ | .priResponse _ _ | .registerWrite _ _ | .walkComplete _ _ | .migrate _ _
  | .exchange _ _ | .promote _ _ | .swapBadOp _ _ | .swapComplete _ _ | .schedulerRound | .sliceStart _ _
  | .checkpointComplete _ _ | .bucketRefill _ | .deadlineMiss _ _ | .budgetExhausted _ _
  | .handlerAllowanceExhausted _ | .regionFirstTouch _ _ | .regionTransferDone _ _ | .geyserRound _
  | .fetchLine _ _ | .loadDataReturn _ _ | .writebackLand _ _ | .copyCmd _ _ | .tileCmd _ _ | .fillCmd _ _
  | .feedCmd _ _ | .copyCmdComplete _ _ | .grammarStep _ | .grammarMask _ | .grammarSet _ | .nestDrain _ _
  | .nestComplete _ _ | .deepBlockReadDone _ _ | .haltQuiescence _ | .traceSync _ | .timelineWaitRelease _ _
  | .gateWaitRelease _ _ | .frontWaitRelease _ _ | .powerInputLost | .uncorrectable _ _ | .ringLockChange _ _
  | .sealedBlockWriteDone _ _ | .vectorUnmask _ _ | .pctlWrite _ _ | .sramRowSparing _ _
  | .atsTranslationCompletion _ _ _ => true

/-- Reserved in the mode or on the stream it is to issue in (R319-R321, R362, R370): ILLEGAL_INSTR. -/
def modeOk (n : Nat) (handler : Bool) : Instr → Bool
  | .eret | .budget _ => handler
  | .fork _ | .rdv _ | .yield | .done | .gbar _ => !handler
  | .mma f | .mmaz f => !(f.opt.toNat % 16 == 9 || f.opt.toNat % 16 == 10) || n == 5
  | .nestgo f => !(f.opt == 9 || f.opt == 10) || n == 5
  | _ => true

/-- Special registers that exist (Table 12.17); the shape numbers belong to `ve` (R293). -/
def specialOk (n number : Nat) : Bool := number < 0x12 && (!(8 ≤ number && number ≤ 0x0E) || n == 1)
/-- Special registers that MTS may write. -/
def specialRw (number : Nat) : Bool := 5 ≤ number

/-- Control registers that exist (Table 7.6); those of an engine are reached from its own stream (R144). -/
def controlOk (n number : Nat) : Bool :=
  number ≤ 0x12 || (0x20 ≤ number && number < 0xA0) ||
    ((2 ≤ n && n ≤ 5) && ((0x100 ≤ number && number ≤ 0x104) || (0x180 ≤ number && number ≤ 0x188) ||
      (0x108 ≤ number && number < 0x130 && number % 8 < 6)))

/-- The part of ILLEGAL_OPERAND that depends on the stream: the register numbers of MFS, MTS, MFC and MTC. -/
def numbersOk (n : Nat) : Instr → Bool
  | .mfs f => specialOk n f.n12.toNat
  | .mts f => specialOk n f.n12.toNat && specialRw f.n12.toNat
  | .mfc f => controlOk n f.n12.toNat
  | .mtc f => controlOk n f.n12.toNat && f.n12 != 0x12
  | _ => true

/-- The decode faults of R254 items 2 to 5, in their order, on the bits of an instruction. -/
def decodeFor (n : Nat) (handler : Bool) (w : Nat) : Except Nat (Guard × Instr) :=
  match decodeWord w with
  | .error .undefLength => .error 0x02
  | .error _ => .error 0x01
  | .ok (g, i) =>
    if !modeOk n handler i then .error 0x01
    else if !streamOk n i then .error 0x90
    else if !(operandsOk i && numbersOk n i) then .error 0x03
    else .ok (g, i)

/-- Whether a breakpoint register matches the issuing stream's address outside handler mode (Table 8.5). -/
def breakpoint (s : State) : Bool :=
  !inHandler s && !(me s).matched && (List.range 4).any fun m =>
    let v := reg (ctxOf s (myCtx s)) (0x18E0 + 8 * m)
    flag v 63 && flag (field v 56 7) s.curStream && (me s).pc.toNat == field v 2 46 * 4

/-- The line the issuing stream holds, or the one it fetches for its program counter. -/
def heldLine (s : State) : Act (Nat × State) :=
  let a := lineOf ((me s).pc.toNat % 2 ^ 56)
  match (me s).line with
  | some (b, v) => if b == a then .ok (v, s) else fetchNew a
  | none => fetchNew a
where
  /-- Fetch a line for the stream. -/
  fetchNew (a : Nat) : Act (Nat × State) := do
    let (v, s) ← fetchLineAt s s.curCore (myCtx s) a
    return (v, onMe s fun st => { st with line := some (a, v) })

/-- What the issuing stream issues at its program counter: an instruction with its guard, or a trap, and the state the
trap is taken in (R244, R254). The start of a slice or a handler needs a function entry (R245), whose check comes before
that of the line (assumption 73, DESIGN CHOICE). -/
def fetchInstr (s : State) : State × Act (Guard × Instr) :=
  match heldLine s with
  | .error e => (s, .error e)
  | .ok (line, s) =>
    let w := (me s).pc.toNat % 128 / 4
    if (me s).entering && !(w == 2 && lineEntry line) then (s, stopWith 0x05)
    else if !lineOk line then
      (onMe s fun st => { st with pc := word (lineOf st.pc.toNat + 8), line := none }, stopWith 0x06)
    else if w < 2 || !lineStart line w then (onMe s fun st => { st with line := none }, stopWith 0x06)
    else if breakpoint s then (s, stopWith 0x13)
    else match decodeFor s.curStream (inHandler s) (line / 2 ^ (32 * w) % 2 ^ (32 * lineLength line w)) with
      | .error r => (s, stopWith r)
      | .ok p => (s, .ok p)

/-- Whether a stream may issue: the clock runs, its core runs a slice, the stream has no item record to post (R166),
and it runs and is not halted; on a halted core only the handler issues, and a stream whose access is replayed (R165),
and a slice that is to be stopped issues nothing more (R104). -/
def canIssue (s : State) (core stream : Nat) : Bool :=
  let k := coreOf s core
  clockRuns s && k.slice.isSome && !coreHeld s core stream &&
    if k.halted then (stream == 0 && k.handler.isSome) || (streamOf k stream).replay
    else (streamOf k stream).status == .running && ((sliceRecord s core).bind (·.stopping)).isNone

/-- A cycle counts in USED of the slice whose origin core this is, unless the core is halted (R106, R157). -/
def countUsed (s : State) (core : Nat) : State :=
  match (coreOf s core).slice with
  | none => s
  | some l =>
    if (coreOf s core).halted then s
    else onCtx s l.ctx fun c => { c with records := c.records.map fun (i, r) =>
      (i, if i == l.index && r.home == some core then { r with used := r.used + 1 } else r) }

/-- Whether a core runs a slice and none of its streams may issue: its cycles pass with the time (assumption 17). -/
def coreIdle (s : State) (core : Nat) : Bool :=
  clockRuns s && (coreOf s core).slice.isSome && !(List.range 7).any (canIssue s core)

/-- A cycle of a core that issues nothing. -/
def idleCycle (s : State) (core : Nat) : State :=
  countUsed (onCore s core fun k => { k with cycle := k.cycle + 1 }) core

/-- A FORM at the head of a tower's commands that has stood for 100 ms ends with FORM_TIMEOUT (R40). -/
def expireForms (now : Nat) : List ColCmd → List ColCmd
  | [] => []
  | c :: rest =>
    if c.result.isSome then c :: expireForms now rest
    else if imageAt c.image 0 1 == 1 && c.since + 100000000 ≤ now then
      { c with result := some 0x50 } :: expireForms now rest
    else c :: rest

/-- A nanosecond passes, in which a FORM may time out, and with the clock running a cycle of every tower and of every
core that issues nothing; MTIME counts once it has started (assumptions 17, 69). -/
def passTime (s : State) : State :=
  let now := s.mtime + bit01 s.module.started
  let t := { s with
    elapsed := s.elapsed + 1, mtime := now
    ctxs := s.ctxs.map fun (n, c) => (n, { c with cols := c.cols.map fun (w, l) => (w, expireForms now l) }) }
  if !clockRuns s then t
  else
    let t := { t with
      towers := (List.range Config.towers).map fun n => (n, { towerOf t n with cycle := (towerOf t n).cycle + 1 }) }
    ((t.cores.map (·.1)).filter (coreIdle s)).foldl idleCycle t

/-- A cycle of a core passes (assumption 17): USED counts on the origin core of a slice that is not halted, the
handler's allowance in its handler (R106, R157). -/
def tick (s : State) (core : Nat) : State :=
  countUsed (onCore (passTime s) core fun k => { k with
    cycle := k.cycle + 1, handler := k.handler.map fun h => { h with used := h.used + 1 } }) core

end Sys2Proof.Machine
end

