-- ==== Sys2Proof/Machine/System.lean ====
section
/-! DEFINITION. Special and control registers: MFS, MTS, MFC, MTC (12 R258, 13 R293-R294, 07 R143-R149, 16 R369). -/

namespace Sys2Proof.Machine

/-! ### Special registers (Table 12.17) -/

/-- `sr.budget`: what is left of the budget, in handler mode of the allowance (R293). -/
def budgetLeft (s : State) : Nat :=
  match (if s.curStream == 0 then (myCore s).handler else none) with
  | some h => Config.allowance - h.used
  | none => ((myRecord s).map fun r => budgetOf r - r.used).getD 0

/-- The value MFS reads. -/
def readSpecial (s : State) (n : Nat) : Word :=
  let st := me s
  let k := myCore s
  match n with
  | 0x000 => if k.sctx == 0 then 0 else word (descOf s (myCtx s) k.sctx).now
  | 0x001 => word k.sctx
  | 0x002 => word k.cycle
  | 0x003 => word (budgetLeft s)
  | 0x004 => BitVec.ofInt 64 (((myRecord s).map (·.limit)).getD 0)
  | 0x005 => st.lpass
  | 0x006 => st.ltrip
  | 0x007 => word st.lstage.toNat
  | 0x008 => word k.vn.toNat
  | 0x009 | 0x00A | 0x00B => word (look 1 k.vs (n - 9)).toNat
  | 0x00C | 0x00D | 0x00E => word (look 0 k.vo (n - 0xC)).toNat
  | 0x00F => word st.fflags.toNat
  | 0x010 => word st.rmode.toNat
  | _ => word st.dflags.toNat

/-- The state after MTS; reserved bits are ignored (R293). -/
def writeSpecial (s : State) (n : Nat) (v : Word) : State :=
  match n with
  | 0x005 => onMe s fun st => { st with lpass := v }
  | 0x006 => onMe s fun st => { st with ltrip := v }
  | 0x007 => onMe s fun st => { st with lstage := v.setWidth 4 }
  | 0x008 => onCore s s.curCore fun k => { k with vn := v.setWidth 32 }
  | 0x009 | 0x00A | 0x00B => onCore s s.curCore fun k => { k with vs := put k.vs (n - 9) (v.setWidth 32) }
  | 0x00C | 0x00D | 0x00E => onCore s s.curCore fun k => { k with vo := put k.vo (n - 0xC) (v.setWidth 16) }
  | 0x00F => onMe s fun st => { st with fflags := v.setWidth 6 }
  | 0x010 => onMe s fun st => { st with rmode := v.setWidth 2 }
  | 0x011 => onMe s fun st => { st with dflags := v.setWidth 3 }
  | _ => s

/-- MFS. -/
def execMfs (f : EFields) (s : State) : Host.Outcome State Fault Refusal :=
  guarded s 8 (writeReg s f.dst (readSpecial s f.n12.toNat))

/-- MTS. -/
def execMts (f : EFields) (s : State) : Host.Outcome State Fault Refusal :=
  guarded s 8 do
    let (v, s) ← readReg s f.a
    return writeSpecial s f.n12.toNat v

/-! ### Control registers (Table 7.6) -/

/-- Reset value of `cr.tshp.tN` (Table 7.7). -/
def tshpReset : BitVec 32 := 0x23F3F
/-- `cr.tshp.tN`. -/
def tileShape (k : Core) (t : Nat) : Nat := (look tshpReset k.tshp t).toNat
/-- The executing core with the registers as they stood when the issuing stream's instruction issued (R294, R349). -/
def issueCore (s : State) : Core :=
  match (me s).atIssue with
  | some r => { myCore s with tshp := r.tshp, scbase := r.scbase, cbook := r.cbook, key := r.key, ctr := r.ctr }
  | none => myCore s
/-- `cr.accst` (Table 7.7). -/
def accStatus (k : Core) : Nat :=
  ((List.range 8).map fun n => 16 ^ n * (bit01 (flag k.accV.toNat n) + 2 * bit01 (flag k.accD.toNat n) +
    4 * bit01 (flag k.accF.toNat n) + 8 * bit01 (flag k.accM.toNat n))).sum

/-- Reset value of an engine register (Tables 7.9 and 16.3). -/
def engineReset (n : Nat) : BitVec 64 :=
  match n with
  | 0x100 => 0x100
  | 0x180 => 0xA0000
  | 0x183 | 0x184 => 0x3F800000
  | 0x185 => 1
  | _ => 0
/-- An engine register in a nest table. -/
def nestReg (r : NestRegs) (n : Nat) : Nat := (look (engineReset n) r n).toNat

/-- A counter's register value (Table 7.5). -/
def counterBits (c : Counter) : Nat := c.count * 2 ^ 16 + c.thresh * 2 ^ 8 + bit01 c.en * 2 ^ 7 + c.sel

/-- The value MFC reads; an engine's register is its own stream's shadow (R149). -/
def readControl (s : State) (n : Nat) : Nat :=
  let k := myCore s
  if n < 0x10 then tileShape k n
  else if n == 0x10 then k.scbase.toNat
  else if n == 0x11 then k.cbook.toNat * 2 ^ 10
  else if n == 0x12 then accStatus k
  else if n < 0x40 then counterBits (look {} k.counters (n - 0x20))
  else if n < 0x80 then (look 0 k.terms (n - 0x40)).toNat
  else if n < 0xA0 then (look 0 k.gates (n - 0x80)).toNat
  else nestReg (look {} k.engines (s.curStream - 2)).regs n

/-- Bits of a control register that are not reserved. -/
def controlMask (n : Nat) : Nat :=
  if n < 0x10 then 0x33F3F
  else if n == 0x10 then 0x1FFF
  else if n == 0x11 then 0x7FFFC00
  else if n < 0x40 then 0xFFFFFFBF
  else if n < 0x80 then 2 ^ 32 - 1
  else if n < 0xA0 then 2 ^ 64 - 1
  else if n == 0x100 then 0xCFFFF
  else if n ≤ 0x104 then 2 ^ 27 - 1
  else if n < 0x110 then 0xFFFF
  else if n < 0x120 then 2 ^ 32 - 1
  else if n < 0x128 then 0xF
  else if n < 0x130 then 0xFFFF
  else match n with
    | 0x180 => 0xFFFF6F
    | 0x181 | 0x186 | 0x187 => 0x7FFFFFC
    | 0x182 => 0x7FFFFF8
    | 0x183 | 0x184 => 2 ^ 32 - 1
    | 0x185 => 2 ^ 64 - 1
    | _ => 0x1FFF

/-- Whether a value may be written: no reserved or misaligned bit, no reserved encoding (R144, R369). -/
def controlValueOk (n v : Nat) : Bool :=
  v &&& controlMask n == v &&
    (if n < 0x10 then field v 16 2 != 3
     else if n == 0x180 then field v 22 2 != 3 && field v 16 4 < 11 && field v 8 2 != 3
     else true)

/-- The state after MTC. -/
def writeControl (s : State) (n v : Nat) : State :=
  onCore s s.curCore fun k =>
    if n < 0x10 then { k with tshp := put k.tshp n (BitVec.ofNat 32 v) }
    else if n == 0x10 then { k with scbase := BitVec.ofNat 13 v }
    else if n == 0x11 then { k with cbook := BitVec.ofNat 17 (v / 2 ^ 10) }
    else if n < 0x40 then
      { k with counters := put k.counters (n - 0x20) ⟨field v 16 16, field v 8 8, flag v 7, field v 0 6⟩ }
    else if n < 0x80 then { k with terms := put k.terms (n - 0x40) (BitVec.ofNat 32 v) }
    else if n < 0xA0 then { k with gates := put k.gates (n - 0x80) (BitVec.ofNat 64 v) }
    else
      let e := look {} k.engines (s.curStream - 2)
      { k with engines := put k.engines (s.curStream - 2) { e with regs := put e.regs n (BitVec.ofNat 64 v) } }

/-- MFC. -/
def execMfc (f : EFields) (s : State) : Host.Outcome State Fault Refusal :=
  guarded s 8 (writeReg s f.dst (word (readControl s f.n12.toNat)))

/-- MTC: a reserved bit or encoding raises ILLEGAL_OPERAND and changes nothing. -/
def execMtc (f : EFields) (s : State) : Host.Outcome State Fault Refusal :=
  guarded s 8 do
    let (v, s) ← readReg s f.a
    if controlValueOk f.n12.toNat v.toNat then return writeControl s f.n12.toNat v.toNat else stopWith 0x03

end Sys2Proof.Machine
end

