-- ==== Sys2Proof/Machine/SignalLogic.lean ====
section
/-! DEFINITION. The signal logic: which signal an instruction names, the value of a tap, writes by lag and by tick, the
write front, sealed blocks in HBM, and who still uses a signal (R170-R196). -/

namespace Sys2Proof.Machine

/-! ### Which signal (R177, R324) -/

/-- The key of signal `n` of the core's current stream context. -/
def myKey (s : State) (n : Nat) : Nat := sigKey (myCtx s) (myCore s).sctx n
/-- A signal by its key on the executing core. -/
def sigOf (s : State) (key : Nat) : Option Signal := find (myCore s).signals key
/-- The state with a signal of the executing core changed by `f`. -/
def onSig (s : State) (key : Nat) (f : Signal → Signal) : State :=
  onCore s s.curCore fun k => match find k.signals key with
    | some g => { k with signals := put k.signals key (f g) }
    | none => k

/-- Whether the core has a current stream context that is not bound to another core. -/
def sctxOk (s : State) : Bool :=
  let n := (myCore s).sctx
  let d := descOf s (myCtx s) n
  n != 0 && !(d.bound && d.bcore != s.curCore)

/-- The declared signal an instruction names, at a lag where it names one: ILLEGAL_OPERAND with no current context,
INVALID_OPERAND if undeclared. -/
def namedSignal (s : State) (n : Nat) (lag : Option Nat := none) : Act Signal :=
  if !sctxOk s then .error (.signal 0x03 (some n) lag)
  else match sigOf s (myKey s n) with
    | some g => .ok g
    | none => .error (.signal 0x09 (some n) lag)

/-- INFO of a signal fault (R196). -/
def sigInfo (n lag : Nat) : Word := word (n + Nat.min lag (2 ^ 32 - 1) * 2 ^ 32)
/-- A signal fault at a lag. -/
def sigFault {α : Type} (reason n lag : Nat) : Act α := .error (.event reason (some (sigInfo n lag)))

/-- Resolve the heads of the signals a tap operation names, at its issue (R177): one already resolved stays. -/
def resolve (s : State) (ns : List Nat) : State :=
  ns.foldl (fun s n => match find (me s).heads n, sigOf s (myKey s n) with
    | none, some g => onMe s fun st => { st with heads := put st.heads n g.head }
    | _, _ => s) s
/-- The head a tap operation resolved. -/
def headOf (s : State) (n : Nat) : Nat := look 0 (me s).heads n

/-! ### Samples -/

/-- T(1): the first advance after the declaration (R175). -/
def firstTick (e : List Byte) : Nat :=
  sigStamp e + 1 + unsigned 64 (((sigPhase e : Int) - sigStamp e - 1) % sigDiv e)
/-- The sample current at tick `t`, not before STAMP0 (R181). -/
def sampleOfTick (e : List Byte) (t : Nat) : Nat :=
  if t < firstTick e then 0 else 1 + (t - firstTick e) / sigDiv e

/-- Blocks the near ring has buffers for. -/
def nearBlocks (e : List Byte) : Nat := sigWin e / 64
/-- Whether a sample's block still holds a buffer of the near ring (R189). -/
def isNear (g : Signal) (j : Nat) : Bool := !sigDeep g.entry || g.head / 64 < j / 64 + nearBlocks g.entry
/-- A block of a deep signal. -/
def blockOf (g : Signal) (b : Nat) : Block := look {} g.blocks b
/-- Whether a KV signal holds the absent value at a sample not before sample 0 (R193). -/
def isAbsent (g : Signal) (j : Nat) : Bool :=
  let b := blockOf g (j / 64)
  sigKv g.entry && (!b.surv.getLsbD (j % 64) || (b.sealed && !b.sealmap.getLsbD (j % 64)))

/-- Whether element `x` of a sample has been written since the sample became current. -/
def isTouched (g : Signal) (j x : Nat) : Bool := (find (look [] g.samples j) x).isSome

/-- A free value in place of the contents of a signal that software stored into (R172, assumption 2). -/
def freeElem (s : State) (n : Nat) : Nat × State :=
  let (w, s) := drawWord s
  (w.toNat % 2 ^ (8 * n), s)

/-- An element of a sample in the near ring: INIT unless written, 0xFF bytes where the core store it lies in is poisoned
(R88). -/
def nearElem (s : State) (g : Signal) (j x : Nat) : Act (Nat × State) :=
  let n := sigBytes g.entry
  if g.tainted then .ok (freeElem s n)
  else match find (look [] g.samples j) x with
    | none => .ok (sigInit g.entry, s)
    | some v => do
      let o := sampleAt g.entry j + x * n
      let (ps, s) ← csSpan s s.curCore o n 0
      if poisonPieces s ps then
        return (2 ^ (8 * n) - 1, postCore s s.curCore s.curStream 0x60 (csAddress o).toNat 0)
      else return (v, s)

/-! ### Blocks in HBM (R187, Table 9.2) -/

/-- Bytes of a KV block's scales. -/
def scaleBytes (e : List Byte) : Nat := roundUp (4 * sigHeads e) 64
/-- BSZ. -/
def blockBytes (e : List Byte) : Nat :=
  if sigKv e then 64 + scaleBytes e + 64 * sigFrame e else 64 + 64 * sigPitch e
/-- Address of the slot of block `b`. -/
def blockAt (e : List Byte) (b : Nat) : Nat := sigBase e + b % (sigDepth e / 64) * blockBytes e

/-- Whether the page of an address is refresh-suppressed, as the core's TLB or the walk has it (R90). -/
def isRs (s : State) (va : Nat) : Bool :=
  let ctx := myCtx s
  if !flag (ptroot s ctx) 0 then false
  else match tlbHit (myCore s) ctx va with
    | some t => flag t.leaf.toNat 6
    | none => match walk s ctx va with
      | .leaf _ e _ => flag e 6
      | .fault _ _ => false

/-- Whether a block's age has reached the retention bound (R91). -/
def isStale (s : State) (g : Signal) (b : Nat) : Bool :=
  isRs s (blockAt g.entry b) && match (blockOf g b).stamp with
    | some t => t + 32000000 ≤ s.mtime
    | none => false

/-- Whether a later block has been sealed into the slot of block `b`. -/
def isOverwritten (g : Signal) (b : Nat) : Bool := (blockOf g (b + sigDepth g.entry / 64)).sealed

/-- The places of pieces, as a block keeps them. -/
def placeKeys (ps : List (Loc × Nat)) : List (Nat × Nat) := ps.map fun p => (p.1.key, p.2)

/-- Where a sealed block lies: none where software has changed the translation of its refresh-suppressed pages since its
seal, after which its contents are undefined and no tap of it faults (R91). -/
def blockPlaces (s : State) (g : Signal) (b : Nat) : Act (Option (List (Loc × Nat)) × State) :=
  match places s 8 (word (blockAt g.entry b)) (blockBytes g.entry), (blockOf g b).rs with
  | .ok (ps, t), some qs => .ok (if placeKeys ps == qs then some ps else none, t)
  | .ok (ps, t), none => .ok (some ps, t)
  | .error (.page _ _ _ _), some _ => .ok (none, s)
  | .error e, _ => .error e

/-- `n` bytes of a sealed block: 0xFF for one poisoned or aged past the bound, free values for one overwritten, or whose
refresh-suppressed pages are mapped anew. -/
def blockData (s : State) (g : Signal) (b o n : Nat) : Act (List Byte × State) := do
  match ← blockPlaces s g b with
  | (none, s) => return drawBytes s n
  | (some ps, s) =>
    if isStale s g b || poisonPieces s ps then return (List.replicate n 0xFF, s)
    else if g.tainted || isOverwritten g b then return drawBytes s n
    else
      let (qs, s) ← places s 8 (word (blockAt g.entry b + o)) n
      return (readPieces s qs, s)

/-- The value of a KV element stored as f8e4 with its head's scale, in b16 (R191). -/
def kvValue (q scale : Nat) : Nat := (roundExact b16 0 (mulExact (fval f8e4 q) (fval f32 scale))).bits

/-- An element of a sample whose block has left the near ring. -/
def farElem (s : State) (g : Signal) (j x : Nat) : Act (Nat × State) := do
  let e := g.entry
  let b := j / 64
  if sigKv e then
    let head := x / (sigFrame e / sigHeads e)
    let (sc, s) ← blockData s g b (64 + 4 * head) 4
    let slot := rankBelow (blockOf g b).sealmap.toNat (j % 64)
    let (q, s) ← blockData s g b (64 + scaleBytes e + slot * sigFrame e + x) 1
    return (kvValue (fromBytes q) (fromBytes sc), s)
  else
    let (bs, s) ← blockData s g b (64 + j % 64 * sigPitch e + x * sigBytes e) (sigBytes e)
    return (fromBytes bs, s)

/-- The value of element `x` of sample `j` (R179, R189, R193); `served` says that the deep blocks have come. -/
def sampleElem (s : State) (n : Nat) (g : Signal) (j : Int) (x : Nat) : Act (Nat × State) :=
  if j < 0 then .ok (sigInit g.entry, s)
  else
    let i := j.toNat
    if g.tainted then .ok (freeElem s (sigBytes g.entry))
    else if isAbsent g i then .ok (sigInit g.entry, s)
    else if isNear g i then nearElem s g i x
    else if (me s).served then farElem s g i x
    else .error (.wait (.block n i))

/-- The blocks beyond the near ring that samples name, each once. -/
def farBlocks (g : Signal) (js : List Int) : List Nat :=
  ((js.filter fun j => 0 ≤ j && !isNear g j.toNat && !isAbsent g j.toNat).map fun j => j.toNat / 64).eraseDups

/-- Report each far block a tap operation reads that is poisoned or aged past the bound, once in the operation (R88,
R91, R189). -/
def reportBlocks (s : State) (g : Signal) : List Nat → Act State
  | [] => .ok s
  | b :: rest => do
    let a := blockAt g.entry b
    let (ps, s) ← blockPlaces s g b
    let reason := ps.bind fun ps => if isStale s g b then some 0x61 else if poisonPieces s ps then some 0x60 else none
    let s := match reason with
      | some r =>
        if (me s).reported.contains a then s
        else onMe (postCore s s.curCore s.curStream r a 0) fun st => { st with reported := st.reported ++ [a] }
      | none => s
    reportBlocks s g rest

/-- The start of a tap read of samples: it waits for the blocks beyond the near ring, and reports bad ones. -/
def openFar (s : State) (n : Nat) (g : Signal) (js : List Int) : Act State :=
  match farBlocks g js with
  | [] => .ok s
  | b :: bs =>
    if !(me s).served then .error (.wait (.block n (64 * b))) else reportBlocks s g (b :: bs)

/-! ### Lags (R179, R181, R185, R194) -/

/-- Whether the written bit of a sample is set. -/
def isMarked (g : Signal) (j : Nat) : Bool := g.marked.contains j

/-- The checks of a read at lags `lag` to `lag + count - 1`: the deepest lag, then lag zero. -/
def checkRead (s : State) (n : Nat) (g : Signal) (lag count : Nat) : Act Unit :=
  if sigDepth g.entry < lag + count then sigFault 0x07 n (lag + count - 1)
  else if lag == 0 && !isMarked g (headOf s n) then sigFault 0x08 n 0
  else .ok ()

/-- The sample a write at a lag under head `h` names. -/
def sampleFor (n h : Nat) (g : Signal) (lag : Nat) : Act Nat :=
  if sigDepth g.entry ≤ lag then sigFault 0x07 n lag
  else if h < lag then sigFault 0x09 n lag
  else if (blockOf g ((h - lag) / 64)).sealed then sigFault 0x07 n lag
  else .ok (h - lag)

/-- The sample a write at a lag names. -/
def writeSample (s : State) (n : Nat) (g : Signal) (lag : Nat) : Act Nat := sampleFor n (headOf s n) g lag

/-- The sample a write at a tick names. -/
def writeTick (s : State) (n : Nat) (g : Signal) (t : Nat) : Act Nat :=
  let j := sampleOfTick g.entry t
  if t < sigStamp g.entry || (descOf s (myCtx s) (myCore s).sctx).now < t then .error (.signal 0x09 (some n) none)
  else writeSample s n g (headOf s n - j)

/-- An element index of a tap: at or above FRAME ILLEGAL_OPERAND (R180). -/
def tapElem (n lag : Nat) (g : Signal) (x : Int) : Act Nat :=
  if x < 0 || (sigFrame g.entry : Int) ≤ x then sigFault 0x03 n lag else .ok x.toNat

/-! ### Writes (R181, R190) -/

/-- The running maximum of a head with an element's absolute value: a NaN stays (R190). -/
def absMax (m : BitVec 32) (v : Nat) : BitVec 32 :=
  let a := BitVec.ofNat 32 (v % 2 ^ 15 * 2 ^ 16)
  if m.toNat < a.toNat then a else m

/-- The element of a sample has been written: its bytes count toward the writing of a whole poisoned granule of the near
ring (R88). -/
def coverElem (s : State) (e : List Byte) (j x : Nat) : State :=
  if s.poison.isEmpty then s
  else match csSpan s s.curCore (sampleAt e j + x * sigBytes e) (sigBytes e) 0 with
    | .ok (ps, _) => coverPieces s ps
    | .error _ => s

/-- Write one element of a sample of the executing core's signal: its bits, and for KV the maximum of its head. Memory
is left as it is (R236). -/
def putElem (s : State) (key : Nat) (g : Signal) (j x v : Nat) : State :=
  let e := g.entry
  onSig (coverElem s e j x) key fun g => { g with
    samples := adjust [] g.samples j fun xs => put xs x (v % 2 ^ (8 * sigBytes e))
    absmax := if sigKv e then
        adjust 0 g.absmax (64 * (j / 64) + x / (sigFrame e / sigHeads e)) fun m => absMax m v
      else g.absmax }

/-- The front moved over the samples that are marked (R181). -/
def settleFront : Nat → Signal → Signal
  | 0, g => g
  | fuel + 1, g => if isMarked g g.front then settleFront fuel { g with front := g.front + 1 } else g

/-- A write has ended: the written bit of its sample is set, and the front moves. -/
def markSample (s : State) (key j : Nat) : State :=
  onSig s key fun g =>
    let g := if isMarked g j then g else { g with marked := g.marked ++ [j] }
    settleFront (g.marked.length + 1) g

/-! ### Sealing (R188, R191) -/

/-- The 64 samples of a block as they stand in the near ring, the FRAME elements of each. -/
def blockRow (s : State) (g : Signal) (j : Nat) : List Nat → Act (List Nat × State)
  | [] => .ok ([], s)
  | x :: xs => do
    let (v, s) ← nearElem s g j x
    let (vs, s) ← blockRow s g j xs
    return (v :: vs, s)

/-- The rows of samples. -/
def blockRows (s : State) (g : Signal) : List Nat → Act (List (List Nat) × State)
  | [] => .ok ([], s)
  | j :: js => do
    let (r, s) ← blockRow s g j (List.range (sigFrame g.entry))
    let (rs, s) ← blockRows s g js
    return (r :: rs, s)

/-- The scale of a head (R191): m_h / 448, or NaN. -/
def kvScale (m : BitVec 32) : Nat :=
  match fval f32 m.toNat with
  | .num _ _ _ => divF32 m.toNat 0x43E00000
  | _ => (canonNan f32 false).bits

/-- An element divided by its head's scale, in f8e4, ±448 for an infinity (R191). A NaN element, of INIT alone, becomes
the NaN of its sign under a scale of zero too, where the rule's text and its pseudocode differ (assumption 61, DESIGN
CHOICE). -/
def kvQuant (x scale : Nat) : Nat :=
  match fval b16 x, fval f32 scale with
  | v, .nan _ _ => withSign f8e4 (signOf v) (nanCode f8e4)
  | .nan t _, _ => withSign f8e4 t (nanCode f8e4)
  | v, w =>
    if isZero w then 0
    else if isInf v then withSign f8e4 (signOf v) (maxCode f8e4)
    else
      let r := fconvert f8e4 0 (fval f32 (divF32 (x % 2 ^ 16 * 2 ^ 16) scale))
      if r.flags &&& flagOF != 0 then withSign f8e4 (signOf v) (maxCode f8e4) else r.bits

/-- The quantised elements of one row. -/
def kvRow (g : Signal) (b : Nat) (row : List Nat) : List Nat :=
  row.zipIdx.map fun (v, x) => kvQuant v (kvScale (look 0 g.absmax (64 * b + x / (sigFrame g.entry / sigHeads g.entry))))

/-- The near copies of a sealed KV sample, rewritten in place. -/
def kvRewrite (s : State) (key : Nat) (g : Signal) (j : Nat) : List (Nat × Nat) → State
  | [] => s
  | (q, x) :: rest =>
    let sc := kvScale (look 0 g.absmax (64 * (j / 64) + x / (sigFrame g.entry / sigHeads g.entry)))
    kvRewrite (putElem s key g j x (kvValue q sc)) key g j rest

/-- The near copies of every stored sample of a sealed KV block. -/
def kvRewriteAll (s : State) (key : Nat) (g : Signal) : List (Nat × List Nat) → State
  | [] => s
  | (j, qs) :: rest => kvRewriteAll (kvRewrite s key g j qs.zipIdx) key g rest

/-- SEALMAP of a block at its seal: for KV the surviving written samples, else all ones. -/
def sealMapOf (g : Signal) (b : Nat) : BitVec 64 :=
  if sigKv g.entry then
    (blockOf g b).surv &&& BitVec.ofNat 64 ((below 64 fun i => isMarked g (64 * b + i)).map fun i => 2 ^ i).sum
  else BitVec.allOnes 64

/-- The survivor bits of a block's samples that are current or past: a bit stands at 1 from the cycle in which its
sample becomes current (R192). What the bits of later samples read, in a SURV that a SIGSEAL of the head's own block
stores, is stated after SIGRST alone, which clears them; after SIGDEF the model takes 0 too (assumption 60, DESIGN
CHOICE). -/
def survivors (g : Signal) (b : Nat) : BitVec 64 :=
  (blockOf g b).surv &&& BitVec.ofNat 64 (2 ^ Nat.min 64 (g.head + 1 - 64 * b) - 1)

/-- Begin the seal of a block: its contents are written to its slot but for the STAMP, whose place is kept (R188, R191).
-/
def beginSeal (s : State) (key b : Nat) (g : Signal) : Act State := do
  let e := g.entry
  let map := sealMapOf g b
  let surv := if sigKv e then survivors g b else BitVec.allOnes 64
  let stored := (below 64 fun i => map.getLsbD i).map fun i => 64 * b + i
  let (ps, s) ← places s 9 (word (blockAt e b)) (blockBytes e)
  let (rows, s) ← blockRows s g stored
  let scales := (List.range (sigHeads e)).flatMap fun h => toBytes 4 (kvScale (look 0 g.absmax (64 * b + h)))
  let body :=
    if sigKv e then
      padTo (scaleBytes e) scales ++ rows.flatMap fun r => (kvRow g b r).flatMap (toBytes 1)
    else rows.flatMap fun r => padTo (sigPitch e) (r.flatMap (toBytes (sigBytes e)))
  let stamp := ((readPieces s ps).drop 16).take 8
  let image := toBytes 8 surv.toNat ++ toBytes 8 map.toNat ++ stamp ++ toBytes 8 b ++ List.replicate 32 0 ++ body
  let s := writePieces s ps image
  let s := if sigKv e then kvRewriteAll s key g (stored.zip (rows.map (kvRow g b))) else s
  let done : Block := { sealed := true, sealmap := map, surv := surv, stamp := none
                        sealing := ps.head?.map fun p => (p.1.key + 16, blockAt e b + 16)
                        rs := if isRs s (blockAt e b) then some (placeKeys ps) else none }
  return onSig s key fun g => { g with blocks := put g.blocks b done }

/-- The module time in the STAMP of a block slot, by the place it had when the seal began: the seal is one access by one
translation (R85, R235). No STAMP goes to a port window or a refused page. -/
def writeStamp (s : State) (key : Nat) : State :=
  if key < 2 ^ 112 then { s with mem := writeBytes s.mem key (toBytes 8 s.mtime) } else s

/-- A seal's last byte reaches HBM: the STAMP, in the block and in its slot (R91). -/
def sealDone (s : State) (core key b : Nat) : State :=
  match find (coreOf s core).signals key with
  | none => s
  | some g =>
    let s := onCore s core fun k => { k with signals := put k.signals key { g with
      blocks := put g.blocks b { blockOf g b with stamp := some s.mtime, sealing := none } } }
    match (blockOf g b).sealing with
    | none => s
    | some a => writeStamp s a.1

/-- The blocks of a signal whose seal has not reached HBM. -/
def openSeals (g : Signal) : List Nat :=
  (g.blocks.filter fun p => p.2.sealed && p.2.stamp.isNone).map (·.1)

/-- The oldest unsealed block up to the head's, of those with a buffer (R188). -/
def oldestOpen (g : Signal) : Option Nat :=
  let h := g.head / 64
  let lo := h + 1 - nearBlocks g.entry
  ((List.range (h + 1 - lo)).map (lo + ·)).find? fun b => !(blockOf g b).sealed

/-! ### Who still uses a signal (R174, R176, R177) -/

/-- The signals that the nests of a core issued before a cycle deliver to: a nest issues at its NESTGO (R176). -/
def nestTaps (k : Core) (before : Nat) : List Nat :=
  k.engines.filterMap fun (_, e) => e.nest.bind fun n =>
    if n.began < before && field (nestReg n.regs 0x180) 22 2 == 1 then some (field (nestReg n.regs 0x185) 16 10) else none

/-- The cycle at which the instruction of the issuing stream issued. -/
def myIssue (s : State) : Nat := (me s).began.getD (myCore s).cycle

/-- The signals of the core's stream context with a seal begun and not ended. -/
def sealedNow (s : State) : List Nat :=
  ((myCore s).signals.filter fun p => p.1 / 1024 == myKey s 0 / 1024 && !(openSeals p.2).isEmpty).map (·.1 % 1024)

/-- The signals that operations of other streams, issued before the issuing instruction and not yet performed, name on
the executing core, a stopped `cc` among them for its handler; a seal that has begun is performed once it has ended. -/
def usedSignals (s : State) : List Nat :=
  nestTaps (myCore s) (myIssue s) ++ sealedNow s ++ (myCore s).streams.flatMap fun (n, st) =>
    if (n != s.curStream || inHandler s) && st.began.any (· < myIssue s) then st.heads.map (·.1) else []

/-- Wait while an operation of another stream issued before uses any signal of the context (R176 step 1). -/
def drainAll (s : State) : Act Unit :=
  if (usedSignals s).isEmpty then .ok () else .error (.wait (.cause 8))
/-- Wait while an operation of another stream issued before uses signal `n` (R174). -/
def drainSignal (s : State) (n : Nat) : Act Unit :=
  if (usedSignals s).contains n then .error (.wait (.cause 8)) else .ok ()

end Sys2Proof.Machine
end

