-- ==== Sys2Proof/Machine/Signals.lean ====
section
/-! DEFINITION. The SIG group: declaring, dropping and restarting signals, ticks, single-element taps, sealing, and the
current stream context (15 R324-R332, 09). -/

namespace Sys2Proof.Machine

/-- The signal number of a SIG member. -/
def sigNumber (f : EFields) : Nat := f.n12.toNat % 1024

/-! ### SIGDEF (R170, R171, R173, R325) -/

/-- Formats a signal may have (Table 9.1). -/
def sigFormatOk (e : List Byte) : Bool := [1, 2, 3, 4, 6, 7, 8, 9, 10].contains (sigFmt e)

/-- The checks of R171 on a declaration image but for the number. -/
def sigImageOk (e : List Byte) (n sigtab heads : Nat) : Bool :=
  let table := sigtab + 64 * n
  !flag (imageAt e 0 1) 7 && zeroAt e 1 1 && zeroAt e 38 2 && zeroAt e 44 4 && zeroAt e 56 8 &&
    sigFormatOk e && (!sigKv e || (sigFmt e == 9 && sigDeep e)) &&
    sigFrame e != 0 && sigDiv e != 0 && sigPhase e < sigDiv e &&
    (sigDeep e || sigDepth e ≤ 65536) &&
    (!sigDeep e || (sigDepth e % 64 == 0 && sigWin e % 64 == 0 && 128 ≤ sigWin e && sigWin e ≤ 65536 &&
      sigWin e < sigDepth e && sigBase e % 64 == 0 && sigBase e < 2 ^ 56)) &&
    (!sigKv e || (1 ≤ sigHeads e && sigHeads e ≤ 64 && sigFrame e % sigHeads e == 0)) &&
    (sigAreas e table (heads + 16 * n)).all (fun p => p.1 + p.2 ≤ Config.csTop) &&
    sigtab % 64 == 0 && heads % 64 == 0 && sigRing e % 64 == 0 && (!sigKv e || sigMask e % 8 == 0)

/-- Stream contexts bound to the executing core: those with a declared signal (R110). -/
def boundCount (k : Core) : Nat := ((k.signals.map fun p => p.1 / 1024).eraseDups).length

/-- Pin the regions of core-store pieces to the device context: each is claimed, and belongs to no record (R135). -/
def pinPieces (s : State) : List (Nat × Nat) → Act State
  | [] => .ok s
  | (o, _) :: rest => do
    let (_, s) ← csPiece s s.curCore o
    let ctx := myCtx s
    let seen := regionAt (myCore s) ctx (((myCore s).slice.map (·.index)).getD 0) (o / 2 ^ 20)
    let s := onCore s s.curCore fun k => { k with regions := k.regions.map fun g =>
      if (seen.any fun r => r.physical == g.physical) then { g with record := none } else g }
    pinPieces s rest

/-- The core-store pieces of ranges. -/
def areaPieces (areas : List (Nat × Nat)) : List (Nat × Nat) :=
  areas.flatMap fun (o, n) => cutRegions (n / 2 ^ 20 + 2) o n

/-- The head of a signal in core store: bytes of the signal logic's own (R173), free (assumption 2). -/
def scribbleHead (s : State) (g : Signal) : Act State := do
  let (bs, s) := drawBytes s 16
  let (ps, s) ← csSpan s s.curCore g.headAt 16 0
  return match ps with
    | [(l, _)] => writeAt s l bs
    | _ => s

/-- Write bytes of a signal's entry. -/
def writeEntry (s : State) (g : Signal) (o : Nat) (bs : List Byte) : Act State := do
  let (ps, s) ← csSpan s s.curCore (g.table + o) bs.length 0
  return match ps with
    | [(l, _)] => writeAt s l bs
    | _ => s

/-- A declaration that passed its checks: bound, pinned, counted, sample 0 current. -/
def declare (s : State) (n : Nat) (im : List Byte) : Act State := do
  let ctx := myCtx s
  let sctx := (myCore s).sctx
  let d := descOf s ctx sctx
  let key := myKey s n
  if !d.bound && 16384 ≤ boundCount (myCore s) then .error (.signal 0x14 (some n) none)
  else
    let e := overlay (overlay im 48 (toBytes 8 d.now)) 0 (toBytes 1 (imageAt im 0 1 % 64 + 64))
    let g : Signal := { entry := e, table := d.sigtab + 64 * n, headAt := d.heads + 16 * n }
    let s ← pinPieces s (areaPieces (sigAreas e g.table g.headAt))
    let s ← writeEntry s g 0 e
    let s ← scribbleHead s g
    let s := onCore s s.curCore fun k => { k with signals := put k.signals key g }
    return onDesc s ctx sctx fun d => { d with nsig := d.nsig + 1, bound := true, bcore := s.curCore }

/-- Whether the entry at an offset has V = 1 in core store, whoever wrote it there (R171). -/
def entryDeclared (s : State) (table : Nat) : Act (Bool × State) :=
  if Config.csTop < table + 64 then .ok (false, s)
  else (loadCs s table 1 0).map fun (bs, s) => (flag (fromBytes bs) 6, s)

/-- SIGDEF. -/
def execSigdef (f : EFields) (s : State) : Host.Outcome State Fault Refusal :=
  let n := sigNumber f
  guarded s 8 do
    let o ← readGQ s f.a
    if !sctxOk s then .error (.signal 0x03 (some n) none)
    else if o.toNat % 64 != 0 then .error (.signal 0x09 (some n) none)
    else if Config.csTop < o.toNat + 64 then stopWith 0x91
    else
      let (im, s) ← loadCs s o.toNat 64 0
      let d := descOf s (myCtx s) (myCore s).sctx
      let (v, s) ← entryDeclared s (d.sigtab + 64 * n)
      if (sigOf s (myKey s n)).isSome || v || !sigImageOk im n d.sigtab d.heads then .error (.signal 0x09 (some n) none)
      else declare s n im

/-! ### SIGDROP, SIGRST (R174, R326) -/

/-- Whether a declared signal of a device context on a core owns a byte of a region. -/
def regionUsed (k : Core) (ctx index : Nat) : Bool :=
  k.signals.any fun (key, g) => sigOwner key == ctx &&
    (sigAreas g.entry g.table g.headAt).any fun p => meet p.1 p.2 (index * 2 ^ 20) (2 ^ 20)

/-- Release the pinned regions of a device context that no declared signal uses. -/
def unpin (k : Core) (ctx : Nat) : Core :=
  { k with regions := k.regions.filter fun g => !(g.record.isNone && g.ctx == ctx && !regionUsed k ctx g.index) }

/-- SIGDROP. -/
def execSigdrop (f : EFields) (s : State) : Host.Outcome State Fault Refusal :=
  let n := sigNumber f
  guarded (resolve s [n]) 8 do
    let s := resolve s [n]
    let g ← namedSignal s n
    drainSignal s n
    let s ← writeEntry s g 0 (toBytes 1 (imageAt g.entry 0 1 % 64))
    let ctx := myCtx s
    let key := myKey s n
    let s := onCore s s.curCore fun k => unpin { k with signals := erase k.signals key } ctx
    return onDesc s ctx (myCore s).sctx fun d => { d with nsig := d.nsig - 1, bound := d.bound && 1 < d.nsig }

/-- A signal restarted in place at a time: its blocks and the survivor bits of its samples are as those of one declared
anew (R174, R192). -/
def restart (g : Signal) (now : Nat) : Signal :=
  { entry := overlay g.entry 48 (toBytes 8 now), table := g.table, headAt := g.headAt }

/-- SIGRST. -/
def execSigrst (f : EFields) (s : State) : Host.Outcome State Fault Refusal :=
  let n := sigNumber f
  guarded (resolve s [n]) 8 do
    let s := resolve s [n]
    let g ← namedSignal s n
    drainSignal s n
    let now := (descOf s (myCtx s) (myCore s).sctx).now
    let s ← writeEntry s g 48 (toBytes 8 now)
    let s ← scribbleHead s g
    return onSig s (myKey s n) fun g => restart g now

/-! ### TICK (R175, R176, R188, R327) -/

/-- The signals of the core's current stream context. -/
def contextSignals (s : State) : List (Nat × Signal) :=
  (myCore s).signals.filter fun p => p.1 / 1024 == myKey s 0 / 1024

/-- Whether a tick to `now` advances a signal. -/
def advances (now : Nat) (g : Signal) : Bool := ((now : Int) - sigPhase g.entry) % sigDiv g.entry == 0

/-- The block whose buffer an advance of the head reclaims, if it enters a new block. -/
def reclaimed (g : Signal) : Option Nat :=
  let h := g.head + 1
  if sigDeep g.entry && h % 64 == 0 && nearBlocks g.entry ≤ h / 64 then some (h / 64 - nearBlocks g.entry) else none

/-- The signals whose reclaimed block must still be sealed, or is sealed and not yet in HBM. -/
def roomWanted (now : Nat) (l : List (Nat × Signal)) : List (Nat × Signal × Nat) :=
  l.filterMap fun (key, g) => if !advances now g then none else (reclaimed g).bind fun b =>
    if (blockOf g b).sealed && (blockOf g b).stamp.isSome then none else some (key, g, b)

/-- The survivor bit of a sample that becomes current in a block already sealed (R192). -/
def survivorSet (m : Map Block) (j : Nat) : Map Block :=
  m.map fun (b, x) => (b, if b == j / 64 && x.sealed then { x with surv := x.surv ||| BitVec.ofNat 64 (2 ^ (j % 64)) } else x)

/-- The head moves to the next sample; what only samples out of reach need is forgotten. -/
def advanceHead (g : Signal) : Signal :=
  let h := g.head + 1
  let inRing := fun j => h < j + sigSlots g.entry
  { g with
    head := h
    samples := g.samples.filter fun p => inRing p.1 && p.1 != h
    marked := g.marked.filter fun j => inRing j && j != h
    blocks := survivorSet (g.blocks.filter fun p => h / 64 ≤ p.1 + sigDepth g.entry / 64) h
    absmax := g.absmax.filter fun p => h / 64 ≤ p.1 / 64 + nearBlocks g.entry }

/-- The tick point: `now` and the heads advance in one step. -/
def tickPoint (s : State) : List (Nat × Signal) → Act State
  | [] => .ok s
  | (key, g) :: rest => do
    let s ← scribbleHead (onSig s key advanceHead) g
    tickPoint s rest

/-- Seal the blocks a tick must make room of that are not yet sealed. -/
def sealForRoom (s : State) : List (Nat × Signal × Nat) → Act State
  | [] => .ok s
  | (key, g, b) :: rest => do
    let s ← if (blockOf g b).sealed then pure s else beginSeal s key b g
    sealForRoom s rest

/-- TICK: it first seals what it must make room of and waits for the writes, then reaches its tick point. -/
def execTick (s : State) : Host.Outcome State Fault Refusal :=
  if !guardHolds s then skip s 8
  else if !sctxOk s then .next (trapState s (.signal 0x03 none none))
  else
    let ctx := myCtx s
    let sctx := (myCore s).sctx
    let now := (descOf s ctx sctx).now
    if 2 ^ 64 - 1 ≤ now then .next (trapState s (.signal 0x09 none none))
    else match drainAll s with
      | .error e => .next (trapState s e)
      | .ok _ =>
        let l := contextSignals s
        match roomWanted (now + 1) l with
        | [] => concludeNext s 8 do
            let s ← tickPoint s (l.filter fun p => advances (now + 1) p.2)
            return onDesc s ctx sctx fun d => { d with now := now + 1 }
        | ws => match sealForRoom s ws with
          | .error e => .next (trapState s e)
          | .ok t => holdNext s t (.cause 8)

/-! ### Single elements (R329) -/

/-- The lag field of a single-element tap: direct or in a q register. -/
def lagOf (s : State) (f : EFields) : Act Nat :=
  if flag f.opt.toNat 4 then (readGQ s f.b).map fun v => v.toNat
  else .ok (f.opt.toNat % 16 * 256 + f.b.toNat)

/-- An element's bits as a register value (R278). -/
def tapValue (fmt v : Nat) : Word :=
  match fmt with
  | 1 => BitVec.ofInt 64 (signed 8 v)
  | 2 => BitVec.ofInt 64 (signed 16 v)
  | 3 => BitVec.ofInt 64 (signed 32 v)
  | _ => word v

/-- The front wait of a tap read of sample `j` (R182). -/
def frontWait (n : Nat) (g : Signal) (j : Int) : Act Unit :=
  if j < g.front then .ok () else .error (.wait (.front n j.toNat))

/-- TAPLD. With the front wait, R182 stalls first and R185 checks at issue: the model waits, and then makes the checks of
the overrun and of a sample not yet written (assumption 60, DESIGN CHOICE). -/
def execTapld (f : EFields) (s : State) : Host.Outcome State Fault Refusal :=
  let n := sigNumber f
  guarded (resolve s [n]) 8 do
    let s := resolve s [n]
    let g ← namedSignal s n (lagOf s f).toOption
    let x ← readGQ s f.a
    let lag ← lagOf s f
    let j : Int := (headOf s n : Int) - lag
    if flag f.opt.toNat 5 then frontWait n g j
    if sigDepth g.entry ≤ lag then sigFault 0x07 n lag
    let x ← tapElem n lag g x.toNat
    checkRead s n g lag 1
    let s ← openFar s n g [j]
    let (v, s) ← sampleElem s n g j x
    writeReg s f.dst (tapValue (sigFmt g.entry) v)

/-- The element a single-element write names, and its data, the data read last. -/
def tapStore (f : EFields) (s : State) (n j : Nat) (g : Signal) : Act State := do
  let x ← readGQ s f.a
  let x ← tapElem n (headOf s n - j) g x.toNat
  let (v, s) ← readReg s f.dst
  let key := myKey s n
  return markSample (putElem s key g j x v.toNat) key j

/-- TAPST: by lag. -/
def execTapst (f : EFields) (s : State) : Host.Outcome State Fault Refusal :=
  let n := sigNumber f
  guarded (resolve s [n]) 8 do
    let s := resolve s [n]
    let g ← namedSignal s n (lagOf s f).toOption
    let lag ← lagOf s f
    let j ← writeSample s n g lag
    tapStore f s n j g

/-- TAPST with TK: by tick. -/
def execTapstTick (f : EFields) (s : State) : Host.Outcome State Fault Refusal :=
  let n := sigNumber f
  guarded (resolve s [n]) 8 do
    let s := resolve s [n]
    let g ← namedSignal s n
    let t ← readGQ s f.b
    let j ← writeTick s n g t.toNat
    tapStore f s n j g

/-! ### Inspecting and sealing (R330-R332, R188, R192, R193) -/

/-- SIGHEAD: the head, the write front and `now`. -/
def execSighead (f : EFields) (s : State) : Host.Outcome State Fault Refusal :=
  guarded s 8 do
    let g ← namedSignal s (sigNumber f)
    writeRun s f.dst.toNat [word g.head, word g.front, word (descOf s (myCtx s) (myCore s).sctx).now]

/-- The deep signal an instruction names: INVALID_OPERAND on a near one. -/
def deepSignal (s : State) (n : Nat) : Act Signal := do
  let g ← namedSignal s n
  if sigDeep g.entry then return g else .error (.signal 0x09 (some n) none)

/-- SIGSEAL: it begins the seal and waits until the block's STAMP is written; a seal already begun is waited for. -/
def execSigseal (f : EFields) (s : State) : Host.Outcome State Fault Refusal :=
  let n := sigNumber f
  if !guardHolds s then skip s 8
  else
    let s := resolve s [n]
    match deepSignal s n with
    | .error e => .next (trapState s e)
    | .ok g =>
      if (me s).waiting == some (.seal n) then
        if (openSeals g).isEmpty then .next (finish s 8 none) else .next (hold s (.seal n))
      else match oldestOpen g with
        | none => .next (finish s 8 none)
        | some b => match beginSeal s (myKey s n) b g with
          | .error e => .next (trapState s e)
          | .ok t => holdNext s t (.seal n)

/-- The sample number of SIGEVICT and SIGPOS, in range. -/
def numbered (n : Nat) (g : Signal) (j : Nat) : Act Nat :=
  if g.head < j then .error (.signal 0x09 (some n) none)
  else if sigDepth g.entry ≤ g.head - j then sigFault 0x07 n (g.head - j)
  else .ok j

/-- SIGEVICT: the survivor bit, and of a sealed block also the one in its slot. -/
def execSigevict (f : EFields) (s : State) : Host.Outcome State Fault Refusal :=
  let n := sigNumber f
  guarded (resolve s [n]) 8 do
    let s := resolve s [n]
    let g ← deepSignal s n
    let v ← readGQ s f.a
    let j ← numbered n g v.toNat
    let b := blockOf g (j / 64)
    let surv := b.surv &&& ~~~ BitVec.ofNat 64 (2 ^ (j % 64))
    let s ←
      if b.sealed && !isOverwritten g (j / 64) then do
        let (ps, s) ← places s 9 (word (blockAt g.entry (j / 64))) 8
        pure (writePieces s ps (toBytes 8 surv.toNat))
      else pure s
    return onSig s (myKey s n) fun g => { g with blocks := put g.blocks (j / 64) { b with surv := surv } }

/-- What SIGPOS returns for a sample, bits [63:48] zero (R193, R332). -/
def positionOf (g : Signal) (j : Nat) : Word :=
  let i := j % 64
  let b := blockOf g (j / 64)
  let slot := if b.sealed then rankBelow b.sealmap.toNat i else i
  word (j / 64 % 2 ^ 32 * 2 ^ 16 + slot * 4 + bit01 (b.surv.getLsbD i) * 2 + bit01 (b.sealed && b.sealmap.getLsbD i))

/-- SIGPOS. -/
def execSigpos (f : EFields) (s : State) : Host.Outcome State Fault Refusal :=
  let n := sigNumber f
  guarded s 8 do
    let g ← deepSignal s n
    let v ← readGQ s f.a
    let j ← numbered n g v.toNat
    writeReg s f.dst (positionOf g j)

/-! ### SCTX (R177, R328) -/

/-- A descriptor that a core does not hold is fetched from the table: a stall of a stream, whose length and cause no
rule gives; with 16,384 held one leaves, and which is open (R109, R110, assumption 2). -/
def fetchDesc (s : State) (core ctx n : Nat) : State :=
  let held := (coreOf s core).resident
  if held.contains (descKey ctx n) then s
  else
    let (w, s) := drawWord s
    let s := if held.length < 16384 then s
      else
        let (v, s) := drawWord s
        dropDesc s core (held.getD (v.toNat % held.length) 0)
    let s := onCore s core fun k => { k with resident := k.resident ++ [descKey ctx n] }
    trace (onDesc s ctx n id) core 3 s.curStream (w.toNat % 2 ^ 36)

/-- Make a stream context current on a core. -/
def switchSctx (s : State) (core ctx n : Nat) : State :=
  let s := leaveDesc s core ctx (coreOf s core).sctx
  let s := onCore s core fun k => { k with sctx := n }
  if n == 0 then s else fetchDesc s core ctx n

/-- SCTX. -/
def execSctx (f : EFields) (s : State) : Host.Outcome State Fault Refusal :=
  guarded s 8 do
    let v ← readGQ s f.a
    let n := v.toNat
    let d := descOf s (myCtx s) n
    if 2 ^ 20 ≤ n then stopWith 0x09
    else if n != 0 && d.bound && d.bcore != s.curCore then .error (.signal 0x03 none none)
    else do
      drainAll s
      return switchSctx s s.curCore (myCtx s) n

end Sys2Proof.Machine
end

