-- ==== Sys2Proof/Machine/Memory.lean ====
section
/-! DEFINITION. Loads, stores, atomics, parameter areas and the ordering instructions (14 R298-R305). Every access is
performed at its step, in one order that Q1-Q10 allow (assumption 19); a plain load from a peer module reads at its step
too, and its data returns later: until then its register is awaited (R300). -/

namespace Sys2Proof.Machine

/-- Bytes of a WIDTH. -/
def widthBytes (w : BitVec 2) : Nat := 2 ^ w.toNat

/-- The address of an M-class access: value(BASE) + sext(OFF18) (R298). -/
def address (f : MFields) (s : State) : Act Word := do
  let b ← readGQ s f.base
  return b + f.off.signExtend 64

/-- INVALID_OPERAND with INFO ea for a misaligned access (R299, R301). -/
def aligned (ea : Word) (n : Nat) : Act Unit := if ea.toNat % n == 0 then .ok () else invalid ea

/-- Whether the matrix stream that issues has a running nest, whose accesses and signal writes are its own (R176,
R311). -/
def nestRunning (s : State) : Bool := (nestOf (myCore s) s.curStream).isSome

/-- An instruction that waits for its stream's earlier accesses and signal writes (R232, R233, R299, R300): those of its
loads, and of a nest that an earlier NESTGO of the stream has begun. -/
def drained (s : State) : Act Unit :=
  if (me s).loads.isEmpty && !nestRunning s then .ok () else .error (.wait (.cause 9))

/-- A load whose data has come: the destination is written. -/
def loadNow (f : MFields) (s : State) (ea : Word) : Act State := do
  let n := widthBytes f.width
  let (bs, s) ← loadBytes s 0 ea n
  writeReg s f.reg (extend n f.sign (fromBytes bs))

/-- Whether a place lies on a peer module. -/
def isPeer : Loc → Bool
  | .peer _ _ => true
  | _ => false

/-- A load that is performed and whose data is to return: it is outstanding, with the number its `.pulse` takes at issue
(R300, R309). -/
def loadLater (f : MFields) (s : State) (ea : Word) : Act State := do
  let n := widthBytes f.width
  settled (me s) f.reg
  let (bs, s) ← loadBytes s 0 ea n
  let (num, s) := if s.guard.pulse then
      let (k, s) := pulseTake s s.curCore s.curStream
      (some k, { s with guard := { s.guard with pulse := false } })
    else (none, s)
  let key := destKey (me s) f.reg
  let l : Load := ⟨key.1, key.2, extend n f.sign (fromBytes bs), ea.toNat, n, num⟩
  return onMe s fun st => { st with loads := st.loads ++ [l] }

/-- LD (R298): from a peer module the load becomes outstanding, else its destination is written. -/
def execLd (f : MFields) (s : State) : Host.Outcome State Fault Refusal :=
  guarded s 8 do
    let ea ← address f s
    let (ps, _) ← places s 0 ea (widthBytes f.width)
    if ps.any (fun p => isPeer p.1) && !inHandler s then loadLater f s ea else loadNow f s ea

/-- The store of ST and STL: the low bytes of REG. -/
def storeReg (f : MFields) (s : State) (ea : Word) : Act State := do
  let (v, s) ← readReg s f.reg
  storeBytes s 1 ea (toBytes (widthBytes f.width) v.toNat)

/-- ST (R298). -/
def execSt (f : MFields) (s : State) : Host.Outcome State Fault Refusal :=
  guarded s 8 do storeReg f s (← address f s)

/-- LDA: an aligned acquire load at SCOPE (R299). -/
def execLda (f : MFields) (s : State) : Host.Outcome State Fault Refusal :=
  guarded s 8 do
    let ea ← address f s
    aligned ea (widthBytes f.width)
    loadNow f s ea

/-- STL: an aligned release store, after every earlier access of its stream (R299). -/
def execStl (f : MFields) (s : State) : Host.Outcome State Fault Refusal :=
  guarded s 8 do
    let ea ← address f s
    aligned ea (widthBytes f.width)
    drained s
    storeReg f s ea

/-! ### Atomics (R301, R302) -/

/-- The member of an AMO, OFF18[2:0]. -/
inductive Amo where
  | add
  | and
  | or
  | xor
  | min
  | max
  | swp
  | cas
  deriving DecidableEq, Repr

/-- The value an AMO stores, or none for a failed CAS; `n` bytes, f32 where `float`. -/
def amoResult (m : Amo) (float : Bool) (n old v cmp : Nat) : Option Nat :=
  let less := if float then false else signed (8 * n) old < signed (8 * n) v
  match m with
  | .add => some (if float then (faddR f32 0 old v).bits else (old + v) % 2 ^ (8 * n))
  | .and => some (old &&& v)
  | .or => some (old ||| v)
  | .xor => some (old ^^^ v)
  | .min => some (if float then (minMax f32 false old v).bits else if less then old else v)
  | .max => some (if float then (minMax f32 true old v).bits else if less then v else old)
  | .swp => some v
  | .cas => if old == cmp then some v else none

/-- Whether an AMO may be performed where its location lies (Table of R302); no refused request performs one. -/
def amoAllowed (m : Amo) (float : Bool) : Loc → Bool
  | .host _ _ => !float && (m == .add || m == .swp || m == .cas)
  | .bar0 _ | .refused => false
  | _ => true

/-- Whether the completer of a place performs AtomicOps; one that does not answers them with Unsupported Request or
Completer Abort (R302). -/
def completerOk (s : State) (ctx : Nat) : Loc → Bool
  | .host _ va => match find (ctxOf s ctx).ats (va / 2 ^ 16) with
    | some (some (.memory atomics)) => atomics
    | _ => true
  | _ => true

/-- An AMO member. -/
def amo (m : Amo) (f : MFields) (s : State) : Host.Outcome State Fault Refusal :=
  guarded s 8 do
    let n := widthBytes f.width
    let float := flag f.off.toNat 3
    let ea ← readGQ s f.base
    aligned ea n
    let v ← readGQ s f.aux
    let cmp ← readGQ s f.reg
    drained s
    let (ps, s) ← places s 2 ea n
    if ps.all fun p => amoAllowed m float p.1 && completerOk s (myCtx s) p.1 then
      let s := if poisonPieces s ps then postCore s s.curCore s.curStream 0x60 ea.toNat 0 else s
      let old := fromBytes (readPieces s ps)
      let s := match amoResult m float n old (v.toNat % 2 ^ (8 * n)) (cmp.toNat % 2 ^ (8 * n)) with
        | some x => writePieces s ps (toBytes n x)
        | none => s
      writeReg s f.reg (extend n (!float) old)
    else invalid ea

/-- AMOADD. -/
def execAmoadd (f : MFields) (s : State) : Host.Outcome State Fault Refusal := amo .add f s
/-- AMOAND. -/
def execAmoand (f : MFields) (s : State) : Host.Outcome State Fault Refusal := amo .and f s
/-- AMOOR. -/
def execAmoor (f : MFields) (s : State) : Host.Outcome State Fault Refusal := amo .or f s
/-- AMOXOR. -/
def execAmoxor (f : MFields) (s : State) : Host.Outcome State Fault Refusal := amo .xor f s
/-- AMOMIN. -/
def execAmomin (f : MFields) (s : State) : Host.Outcome State Fault Refusal := amo .min f s
/-- AMOMAX. -/
def execAmomax (f : MFields) (s : State) : Host.Outcome State Fault Refusal := amo .max f s
/-- AMOSWP. -/
def execAmoswp (f : MFields) (s : State) : Host.Outcome State Fault Refusal := amo .swp f s
/-- AMOCAS. -/
def execAmocas (f : MFields) (s : State) : Host.Outcome State Fault Refusal := amo .cas f s

/-! ### Parameter areas (R304) -/

/-- The element index of LDP and STP: value(A) + d, signed. -/
def areaIndex (f : EFields) (s : State) : Act Int := do
  let a ← readGQ s f.a
  return a.toInt + f.opt.toInt

/-- An instruction on the area that N12[3:0] names: one that waits keeps the descriptor as it stood at its issue (R303).
-/
def areaForm (f : EFields) (s : State) (body : Act State) : Host.Outcome State Fault Refusal :=
  if !guardHolds s then skip s 8
  else match body with
    | .ok t => concludeNext s 8 (.ok t)
    | .error e => .next (trapState (openArea s (f.n12.toNat % 16)) e)

/-- LDP. -/
def execLdp (f : EFields) (s : State) : Host.Outcome State Fault Refusal :=
  areaForm f s do
    let area := f.n12.toNat % 16
    let n := 2 ^ (f.n12.toNat / 16 % 4)
    let i ← areaIndex f s
    settled (me s) f.dst
    let (d, s) ← readArea s area i
    let o ← areaOffset d area n i
    let (bs, s) ← loadCs s o n (areaInfo area i)
    writeReg s f.dst (extend n (flag f.n12.toNat 6) (fromBytes bs))

/-- STP. -/
def execStp (f : EFields) (s : State) : Host.Outcome State Fault Refusal :=
  areaForm f s do
    let area := f.n12.toNat % 16
    let n := 2 ^ (f.n12.toNat / 16 % 4)
    let i ← areaIndex f s
    let (d, s) ← readArea s area i
    let o ← areaOffset d area n i
    let (v, s) ← readReg s f.b
    storeCs s o (toBytes n v.toNat) (areaInfo area i)

/-! ### Ordering and code visibility (R305) -/

/-- MARK: every earlier access is performed before any later one (Q4). -/
def execMark (s : State) : Host.Outcome State Fault Refusal := guarded s 8 (do drained s; return s)

/-- FENCE of a kind at a scope (Q5). -/
def execFence (_f : EFields) (s : State) : Host.Outcome State Fault Refusal := guarded s 8 (do drained s; return s)

/-- The range of CFLUSH and ICINV: a valid space, not crossing 2^56; a length of 0 names no byte. -/
def codeRange (f : EFields) (s : State) : Act (Word × Nat) := do
  let a ← readGQ s f.a
  let n ← readGQ s f.b
  if eaSpace a == 0 then
    if 2 ^ 56 < a.toNat + n.toNat then invalid a else return (a, n.toNat)
  else if eaSpace a == 0x80 && field a.toNat 27 29 == 0 then
    if n != 0 && Config.csTop < field a.toNat 0 27 + n.toNat then .error (.event 0x91 (some a)) else return (a, n.toNat)
  else invalid a

/-- CFLUSH: the lines of the range are written back; memory as the model holds it is what fetch reads. -/
def execCflush (f : EFields) (s : State) : Host.Outcome State Fault Refusal :=
  guarded s 8 do
    let _ ← codeRange f s
    return s

/-- Drop the lines of a range of a context from a core's fetch cache. -/
def dropLines (k : Core) (ctx a n : Nat) : Core :=
  { k with fetched := k.fetched.filter fun (key, _) =>
      !(key / 2 ^ 56 == ctx && key % 2 ^ 56 < a + n && a < key % 2 ^ 56 + 128) }

/-- ICINV: the core's fetch cache loses the lines of the range. -/
def execIcinv (f : EFields) (s : State) : Host.Outcome State Fault Refusal :=
  guarded s 8 do
    let (a, n) ← codeRange f s
    if eaSpace a == 0 && n != 0 then
      return onCore s s.curCore fun k => dropLines k (myCtx s) a.toNat n
    else return s

/-- FBAR: the stream discards the line it holds and fetches again. -/
def execFbar (s : State) : Host.Outcome State Fault Refusal :=
  guarded s 8 (.ok (onMe s fun st => { st with line := none }))

/-- PRF warms the TLB: it begins a walk for an address that misses, if a slot is free, and awaits nothing; its address
is never checked (R226, R305). 8 stands for no requester. -/
def execPrf (f : EFields) (s : State) : Host.Outcome State Fault Refusal :=
  guarded s 8 do
    let a ← readGQ s f.a
    let ea := a + f.n12.signExtend 64
    if eaSpace ea == 0 && (translate s (some s.curCore) (myCtx s) 0 ea.toNat).1 == .miss then
      return joinWalk s s.curCore 8 (myCtx s) ea.toNat 0
    else return s

end Sys2Proof.Machine
end

