-- ==== Sys2Proof/Machine/Engines.lean ====
section
/-! DEFINITION. The engine instructions: PUSH, WAIT, TLREAD, FORK, RDV, EVSET, EVPULSE, WFE, SBIND (14 R306-R313, 07
R138-R143). -/

namespace Sys2Proof.Machine

/-- The cores of the slice a core runs. -/
def sliceCores (s : State) (core : Nat) : List Nat :=
  match sliceRecord s core with
  | some r => recordCores r
  | none => [core]

/-! ### Command queues -/

/-- Add a copy command to a core's queue of 64 (R139, R140): its tl.ce number, or none when full; a FEED binds its
stream register (R141). -/
def queueCopy (s : State) (core ctx : Nat) (im : List Byte) : Option (Nat × State) :=
  if 64 ≤ (coreOf s core).copies.length then none
  else
    let (n, s) := tlTake s ctx (tlKey 7 core)
    let k := field (imageAt im 2 1) 3 3
    let bind := fun (m : Map DReg) =>
      if imageAt im 0 1 == 4 then adjust {} m k fun (d : DReg) => { d with feeds := d.feeds ++ [n] } else m
    some (n, onCore s core fun c => { c with
      copies := c.copies ++ [{ ctx := ctx, number := n, image := im }], dregs := bind c.dregs })

/-- Add a swap command for a tower (R82). -/
def queueSwap (s : State) (core ctx : Nat) (im : List Byte) (issuer : Nat) : Option (Nat × State) :=
  let t := towerOfCore core
  if Config.engineDepth + 1 ≤ (look [] (ctxOf s ctx).swaps t).length then none
  else
    let (n, s) := tlTake s ctx (tlKey 9 core)
    some (n, onCtx s ctx fun c => { c with
      swaps := adjust [] c.swaps t fun (l : List SwapCmd) => l ++ [{ number := n, core := issuer, image := im }] })

/-- Add a collective command for a tower (R42). -/
def queueCollective (s : State) (core ctx : Nat) (im : List Byte) : Option (Nat × State) :=
  let t := towerOfCore core
  if Config.engineDepth + 1 ≤ (look [] (ctxOf s ctx).cols t).length then none
  else
    let (n, s) := tlTake s ctx (tlKey 8 core)
    some (n, onCtx s ctx fun c => { c with
      cols := adjust [] c.cols t fun (l : List ColCmd) => l ++ [{ number := n, image := im, since := s.mtime }] })

/-- Add a Geyser command to a tower's queue of 256 (R114), with its tl.gey number. -/
def queueGeyser (s : State) (core : Nat) (c : GeyCmd) : Option (Nat × State) :=
  let t := towerOfCore core
  if 256 ≤ (towerOf s t).commands.length then none
  else
    let (n, s) := tlTake s c.ctx (tlKey 10 core)
    some (n, onTower s t fun w => { w with commands := w.commands ++ [{ c with number := n }] })

/-- Whether a pushed Geyser command is malformed (R378): another OP, or a nonzero byte it does not use. -/
def geyserBad (im : List Byte) : Bool :=
  let op := imageAt im 0 1
  !(1 ≤ op && op ≤ 4) || !zeroAt im 1 1 || 4096 ≤ imageAt im 2 2 || !zeroAt im 4 4 || !zeroAt im 16 16 ||
    (op != 1 && !zeroAt im 32 32) || ((op == 1 || op == 3) && !zeroAt im 8 8)

/-- A Geyser command from the 64 bytes of a PUSH. -/
def geyserFrom (ctx core : Nat) (im : List Byte) : GeyCmd :=
  { ctx := ctx, core := core, number := 0, op := imageAt im 0 1, queue := imageAt im 2 2 % 4096
    address := imageAt im 8 8, entry := (im.drop 32).take 32, bad := geyserBad im, waiter := none, dst := 0, nf := true }

/-- Add a grammar command to a tower's queue of 256 (R374). -/
def queueGrammar (s : State) (core : Nat) (c : GramCmd) : Option State :=
  let t := towerOfCore core
  if 256 ≤ (towerOf s t).gram.length then none
  else some (onTower s t fun w => { w with gram := w.gram ++ [c] })

/-- A grammar command from the 64 bytes of a PUSH; what the image alone makes malformed is marked. -/
def grammarFrom (ctx core record : Nat) (im : List Byte) : GramCmd :=
  { ctx := ctx, core := core, record := record, op := imageAt im 0 1, notify := flag (imageAt im 1 1) 0, slot := imageAt im 4 4
    arg := word (imageAt im 8 8), vocab := none
    bad := !(1 ≤ imageAt im 0 1 && imageAt im 0 1 ≤ 3) || 2 ≤ imageAt im 1 1 || !zeroAt im 2 2 || !zeroAt im 16 48 }

/-! ### PUSH (R138, R307) -/

/-- Offer a command to the queue of an engine number at a target core: none when the queue is full. -/
def offer (s : State) (engine target : Nat) (im : List Byte) : Option (Nat × State) :=
  let ctx := myCtx s
  match engine with
  | 0 => queueCopy s target ctx im
  | 1 => queueSwap s target ctx im s.curCore
  | 2 => queueCollective s target ctx im
  | 3 => queueGeyser s target (geyserFrom ctx s.curCore im)
  | _ => (queueGrammar s target (grammarFrom ctx s.curCore (submitOn s s.curCore) im)).map fun s => (0, s)

/-- PUSH; one that is accepted is a release of its stream's earlier stores, so it waits for those of a nest that the
stream has begun (R138, R233). -/
def execPush (f : EFields) (s : State) : Host.Outcome State Fault Refusal :=
  guarded s 8 do
    let engine := f.opt.toNat % 8
    match placeTarget s.curCore f.n12.toNat with
    | none => stopWith 0x93
    | some t =>
      if engine == 0 && !(sliceCores s s.curCore).contains t then stopWith 0x93
      else
        let im ← readImage s f.a.toNat 8
        match offer s engine t im with
        | none => return writePred s f.dst true
        | some (n, t) =>
          if nestRunning s then .error (.wait (.cause 9)) else writeReg (writePred t f.dst false) f.b (word n)

/-! ### WAIT and TLREAD (R308) -/

/-- The value of the counter that a selector names at a core. -/
def counterValue (s : State) (sel core : Nat) : Nat := (tlOf s (myCtx s) (tlKey sel core)).value

/-- WAIT. -/
def execWait (f : EFields) (s : State) : Host.Outcome State Fault Refusal :=
  guarded s 8 do
    let v ← readGQ s f.a
    let t ← placeReg s f.b
    if v.toNat ≤ counterValue s f.n12.toNat t then return s
    else .error (.wait (.timeline f.n12.toNat t v.toNat))

/-- TLREAD. -/
def execTlread (f : EFields) (s : State) : Host.Outcome State Fault Refusal :=
  guarded s 8 do
    let t ← placeReg s f.b
    writeReg s f.dst (word (counterValue s f.n12.toNat t))

/-! ### FORK and RDV (R310, R311) -/

/-- The streams a mask names, `cc` apart. -/
def maskStreams (mask : Nat) : List Nat := (List.range 7).filter fun n => 0 < n && flag mask n

/-- The g file of a stream as another with a pass count of 0 sees it: every name keeps its value (R310). -/
def copyFile (st : Stream) : Map Word :=
  (List.range 127).foldl (fun m i =>
    let n := i + 1
    let v := gValue st n
    if v == 0 then m else put m n v) []

/-- The starting state of a forked stream. -/
def forkedStream (parent : Stream) (pc : Word) : Stream :=
  { status := .running, pc := pc, g := copyFile parent, rmode := parent.rmode }

/-- The function-entry checks of every start address. -/
def checkEntries (s : State) : List Word → Act State
  | [] => .ok s
  | t :: ts => do checkEntries (← checkStart s s.curCore (myCtx s) t) ts

/-- FORK; a register whose load has not returned is awaited first, since every register is read (R300, R310). -/
def execFork (f : EFields) (s : State) : Host.Outcome State Fault Refusal :=
  guarded s 8 do
    drained s
    let ns := maskStreams f.n12.toNat
    let busy := ns.filter fun n => (streamOf (myCore s) n).status != .idle
    if !busy.isEmpty then invalid (word (busy.map fun n => 2 ^ n).sum)
    else
      let pcs ← ns.mapM fun n => readG s (f.a.toNat + n - 1)
      let s ← checkEntries s pcs
      let parent := me s
      let started := (ns.zip pcs).foldl (fun s (n, pc) => onStream s s.curCore n fun _ => forkedStream parent pc) s
      if ns.contains 1 then return onCore started s.curCore fun k => { k with vn := 0, vs := [], vo := [] }
      else return started

/-- RDV: in `cc` it waits until the named streams are idle; in a forked stream it ends the stream. -/
def execRdv (f : EFields) (s : State) : Host.Outcome State Fault Refusal :=
  if s.curStream == 0 then
    guarded s 8 (if (maskStreams f.n12.toNat).all fun n => (streamOf (myCore s) n).status == .idle then .ok s
      else .error (.wait (.cause 10)))
  else if !guardHolds s then skip s 8
  else if nestRunning s || !(me s).loads.isEmpty then .next (trapState s (.wait (.cause 10)))
  else .next (onStream (finish s 8 none) s.curCore s.curStream fun _ => {})

/-! ### The crossbar (R143, R312) -/

/-- The value EVSET leaves in COUNT. -/
def eventCount (mode : Bool) (count : Nat) (v : Word) : Nat :=
  if mode then
    let x : Int := count + v.toInt
    if x < 0 then 0 else Nat.min 65535 x.toNat
  else Nat.min 65535 v.toNat

/-- EVSET. -/
def execEvset (f : EFields) (s : State) : Host.Outcome State Fault Refusal :=
  guarded s 8 do
    let v ← readGQ s f.a
    return onCore s s.curCore fun k => { k with counters := adjust {} k.counters f.n12.toNat fun c =>
      { c with count := eventCount (flag f.opt.toNat 0) c.count v } }

/-- EVPULSE: input 16 + line, once the stream's earlier accesses are visible. -/
def execEvpulse (f : EFields) (s : State) : Host.Outcome State Fault Refusal :=
  guarded s 8 do
    drained s
    return pulse s s.curCore (16 + f.n12.toNat)

/-- THRESH as it acts: 0 acts as 1. -/
def threshold (c : Counter) : Nat := if c.thresh == 0 then 1 else c.thresh
/-- Whether a counter has reached its threshold. -/
def reached (k : Core) (n : Nat) : Bool :=
  let c := look {} k.counters n
  c.en && threshold c ≤ c.count
/-- Whether a term is true. -/
def termTrue (k : Core) (m : Nat) : Bool :=
  let mask := (look 0 k.terms m).toNat
  mask != 0 && (List.range 32).all fun n => !flag mask n || reached k n
/-- The lowest true term of a gate: none while the gate is closed. -/
def openTerm (k : Core) (gate : Nat) : Option Nat :=
  firstBelow 64 fun m => flag (look 0 k.gates gate).toNat m && termTrue k m
/-- Subtract the thresholds of a term's counters. -/
def consume (k : Core) (m : Nat) : Core :=
  let mask := (look 0 k.terms m).toNat
  { k with counters := k.counters.map fun (n, c) =>
      (n, if flag mask n then { c with count := c.count - threshold c } else c) }

/-- WFE: waits until the gate is open and consumes the pulses of its lowest true term. -/
def execWfe (f : EFields) (s : State) : Host.Outcome State Fault Refusal :=
  guarded s 8 (match openTerm (myCore s) f.n12.toNat with
    | some m => .ok (onCore s s.curCore fun k => consume k m)
    | none => .error (.wait (.gate f.n12.toNat)))

/-! ### SBIND (R313) -/

/-- SBIND, a release as PUSH is. The stall on a full copy queue is traced as cause 4, as R313 says and R300 does not
(assumption 53). -/
def execSbind (f : EFields) (s : State) : Host.Outcome State Fault Refusal :=
  guarded s 8 do
    let im ← readImage s f.a.toNat 8
    if imageAt im 0 1 != 4 || field (imageAt im 2 1) 3 3 != f.dst.toNat - 0xA0 then stopWith 0x03
    else match queueCopy s s.curCore (myCtx s) im with
      | none => .error (.wait (.cause 4))
      | some (n, t) => if nestRunning s then .error (.wait (.cause 9)) else writeReg t f.b (word n)

end Sys2Proof.Machine
end

