-- ==== Sys2Proof/Machine/Integer.lean ====
section
/-! DEFINITION. Integer instructions, comparisons, predicate logic, moves and constants (13 R269-R277). -/

namespace Sys2Proof.Machine

/-! ### Table 13.1 as functions of a and b -/

/-- The shift amount: bits [5:0] of b. -/
def amount (b : Word) : Nat := b.toNat % 64
/-- Logical left shift. -/
def opShl (a b : Word) : Word := a <<< amount b
/-- Logical right shift. -/
def opShr (a b : Word) : Word := a >>> amount b
/-- Arithmetic right shift (R7). -/
def opSra (a b : Word) : Word := a.sshiftRight (amount b)
/-- Signed minimum. -/
def opMin (a b : Word) : Word := if a.toInt ≤ b.toInt then a else b
/-- Signed maximum. -/
def opMax (a b : Word) : Word := if a.toInt ≤ b.toInt then b else a
/-- Unsigned minimum. -/
def opMinu (a b : Word) : Word := if a.toNat ≤ b.toNat then a else b
/-- Unsigned maximum. -/
def opMaxu (a b : Word) : Word := if a.toNat ≤ b.toNat then b else a
/-- High 64 bits of the signed product. -/
def opMulh (a b : Word) : Word := BitVec.ofInt 64 (a.toInt * b.toInt / 2 ^ 64)
/-- High 64 bits of the unsigned product. -/
def opMulhu (a b : Word) : Word := BitVec.ofNat 64 (a.toNat * b.toNat / 2 ^ 64)
/-- Signed quotient toward zero; −1 for b = 0, and −2^63 / −1 wraps (R272). -/
def opDiv (a b : Word) : Word := if b == 0 then -1 else BitVec.ofInt 64 (a.toInt.tdiv b.toInt)
/-- Unsigned quotient; 2^64 − 1 for b = 0 (R272). -/
def opDivu (a b : Word) : Word := if b == 0 then BitVec.allOnes 64 else BitVec.ofNat 64 (a.toNat / b.toNat)
/-- Signed remainder, of a's sign; a for b = 0 (R272). -/
def opRem (a b : Word) : Word := if b == 0 then a else BitVec.ofInt 64 (a.toInt.tmod b.toInt)
/-- Unsigned remainder; a for b = 0 (R272). -/
def opRemu (a b : Word) : Word := if b == 0 then a else BitVec.ofNat 64 (a.toNat % b.toNat)
/-- Left rotation. -/
def opRot (a b : Word) : Word := a.rotateLeft (amount b)
/-- Leading zeros; 64 for 0. -/
def opClz (a : Word) : Word := word (if a == 0 then 64 else 63 - a.toNat.log2)
/-- Trailing zeros; 64 for 0. -/
def opCtz (a : Word) : Word := word ((firstBelow 64 fun i => flag a.toNat i).getD 64)
/-- Set bits. -/
def opPopc (a : Word) : Word := word (popcount 64 a.toNat)
/-- Bits above k set to bit k. -/
def opSext (a b : Word) : Word := BitVec.ofInt 64 (signed (amount b + 1) a.toNat)
/-- Bits above k cleared. -/
def opZext (a b : Word) : Word := word (a.toNat % 2 ^ (amount b + 1))
/-- Position and width in the immediate of BFX and BFI (R270). -/
def bitPos (imm : BitVec 18) : Nat := imm.toNat % 64
/-- Width. -/
def bitWidth (imm : BitVec 18) : Nat := imm.toNat / 64 % 64 + 1
/-- Extract a field. -/
def opBfx (imm : BitVec 18) (a : Word) : Word := word (field a.toNat (bitPos imm) (bitWidth imm))
/-- Insert a field of a into b. -/
def opBfi (imm : BitVec 18) (a b : Word) : Word := word (setField b.toNat (bitPos imm) (bitWidth imm) a.toNat)

/-! ### Conditions (R273) -/

/-- Signed less-than. -/
def condLt (a b : Word) : Bool := a.toInt < b.toInt
/-- Signed greater-or-equal. -/
def condGe (a b : Word) : Bool := b.toInt ≤ a.toInt
/-- Unsigned less-than. -/
def condLtu (a b : Word) : Bool := a.toNat < b.toNat
/-- Unsigned greater-or-equal. -/
def condGeu (a b : Word) : Bool := b.toNat ≤ a.toNat
/-- Signed less-or-equal. -/
def condLe (a b : Word) : Bool := a.toInt ≤ b.toInt
/-- Signed greater-than. -/
def condGt (a b : Word) : Bool := b.toInt < a.toInt
/-- Equality. -/
def condEq (a b : Word) : Bool := a == b
/-- Inequality. -/
def condNe (a b : Word) : Bool := a != b

/-! ### Divisions, which also set DZ (R272) -/

/-- A division of the G form. -/
def gDivide (f : GFields) (s : State) (op : Word → Word → Word) : Host.Outcome State Fault Refusal :=
  twoForm s 8 f.lu f.a (.reg f.b) fun x y s => writeReg (setFlags s (divFlags y)) f.dst (op x y)

/-- A division of the L form. -/
def lDivide (f : LFields) (s : State) (op : Word → Word → Word) : Host.Outcome State Fault Refusal :=
  twoForm s 12 f.lu f.a (.value (f.lit.signExtend 64)) fun x y s =>
    writeReg (setFlags s (divFlags y)) f.dst (op x y)

/-- SEL: the destination's old value chooses (R270). -/
def selectBy (s : State) (len : Nat) (lu : Bool) (dst a : BitVec 8) (b : Second) : Host.Outcome State Fault Refusal :=
  if guardHolds s then
    concludeNext s len do
      let old ← readOld s dst
      let (x, y, s) ← readTwo s a b
      writeReg (emptySources s lu a b) dst (if old != 0 then x else y)
  else skipSources s len lu a b

/-- A G-class compare, register or immediate form (R273). -/
def gCompare (f : GFields) (immForm : Bool) (s : State) (op : Word → Word → Bool) : Host.Outcome State Fault Refusal :=
  twoForm s 8 f.lu f.a (if immForm then immG f else .reg f.b) fun x y s => .ok (writePred s f.dst (op x y))

/-! ### Q class (R270, R271, R273-R275) -/

/-- ADD of q registers. -/
def execAddQ (f : QFields) (s : State) : Host.Outcome State Fault Refusal := qForm f s true (· + ·)
/-- SUB of q registers. -/
def execSubQ (f : QFields) (s : State) : Host.Outcome State Fault Refusal := qForm f s true (· - ·)
/-- AND of q registers. -/
def execAndQ (f : QFields) (s : State) : Host.Outcome State Fault Refusal := qForm f s true (· &&& ·)
/-- OR of q registers. -/
def execOrQ (f : QFields) (s : State) : Host.Outcome State Fault Refusal := qForm f s true (· ||| ·)
/-- XOR of q registers. -/
def execXorQ (f : QFields) (s : State) : Host.Outcome State Fault Refusal := qForm f s true (· ^^^ ·)
/-- ANDN of q registers. -/
def execAndnQ (f : QFields) (s : State) : Host.Outcome State Fault Refusal := qForm f s true (fun a b => a &&& ~~~b)
/-- SHL of q registers. -/
def execShlQ (f : QFields) (s : State) : Host.Outcome State Fault Refusal := qForm f s true opShl
/-- SHR of q registers. -/
def execShrQ (f : QFields) (s : State) : Host.Outcome State Fault Refusal := qForm f s true opShr
/-- SRA of q registers. -/
def execSraQ (f : QFields) (s : State) : Host.Outcome State Fault Refusal := qForm f s true opSra
/-- MIN of q registers. -/
def execMinQ (f : QFields) (s : State) : Host.Outcome State Fault Refusal := qForm f s true opMin
/-- MAX of q registers. -/
def execMaxQ (f : QFields) (s : State) : Host.Outcome State Fault Refusal := qForm f s true opMax
/-- MINU of q registers. -/
def execMinuQ (f : QFields) (s : State) : Host.Outcome State Fault Refusal := qForm f s true opMinu
/-- MAXU of q registers. -/
def execMaxuQ (f : QFields) (s : State) : Host.Outcome State Fault Refusal := qForm f s true opMaxu
/-- MUL of q registers. -/
def execMulQ (f : QFields) (s : State) : Host.Outcome State Fault Refusal := qForm f s true (· * ·)
/-- MOV of a q register. -/
def execMovQ (f : QFields) (s : State) : Host.Outcome State Fault Refusal := qForm f s false fun a _ => a
/-- ADDI: b is IMM6 sign-extended. -/
def execAddiQ (f : QFields) (s : State) : Host.Outcome State Fault Refusal := qForm f s false (· + ·)
/-- ANDI: b is IMM6 sign-extended. -/
def execAndiQ (f : QFields) (s : State) : Host.Outcome State Fault Refusal := qForm f s false (· &&& ·)
/-- ORI: b is IMM6 sign-extended. -/
def execOriQ (f : QFields) (s : State) : Host.Outcome State Fault Refusal := qForm f s false (· ||| ·)
/-- XORI: b is IMM6 sign-extended. -/
def execXoriQ (f : QFields) (s : State) : Host.Outcome State Fault Refusal := qForm f s false (· ^^^ ·)
/-- SHLI by IMM6, 0-63. -/
def execShliQ (f : QFields) (s : State) : Host.Outcome State Fault Refusal := qForm f s false opShl
/-- SHRI by IMM6, 0-63. -/
def execShriQ (f : QFields) (s : State) : Host.Outcome State Fault Refusal := qForm f s false opShr
/-- SRAI by IMM6, 0-63. -/
def execSraiQ (f : QFields) (s : State) : Host.Outcome State Fault Refusal := qForm f s false opSra
/-- CMPEQ into c DST. -/
def execCmpeqQ (f : QFields) (s : State) : Host.Outcome State Fault Refusal := qCompare f s condEq
/-- CMPNE into c DST. -/
def execCmpneQ (f : QFields) (s : State) : Host.Outcome State Fault Refusal := qCompare f s condNe
/-- CMPLT into c DST. -/
def execCmpltQ (f : QFields) (s : State) : Host.Outcome State Fault Refusal := qCompare f s condLt
/-- CMPGE into c DST. -/
def execCmpgeQ (f : QFields) (s : State) : Host.Outcome State Fault Refusal := qCompare f s condGe
/-- CMPLTU into c DST. -/
def execCmpltuQ (f : QFields) (s : State) : Host.Outcome State Fault Refusal := qCompare f s condLtu
/-- CMPGEU into c DST. -/
def execCmpgeuQ (f : QFields) (s : State) : Host.Outcome State Fault Refusal := qCompare f s condGeu
/-- CMPLE into c DST. -/
def execCmpleQ (f : QFields) (s : State) : Host.Outcome State Fault Refusal := qCompare f s condLe
/-- CMPGT into c DST. -/
def execCmpgtQ (f : QFields) (s : State) : Host.Outcome State Fault Refusal := qCompare f s condGt
/-- The g register MOVQ and MOVG name: IMM6 ∥ BLAST (R275). -/
def moveG (f : QFields) : Nat := 2 * f.imm.toNat + bit01 f.blast
/-- MOVQ: q DST := g n. -/
def execMovq (f : QFields) (s : State) : Host.Outcome State Fault Refusal :=
  concludeNext s 4 do
    let v ← readG s (moveG f)
    writeReg s (BitVec.ofNat 8 (0x80 + f.dst.toNat)) v
/-- MOVG: g n := q A; to g0 discarded. -/
def execMovg (f : QFields) (s : State) : Host.Outcome State Fault Refusal :=
  concludeNext s 4 do
    let v ← readQ s f.a.toNat
    writeReg (if f.alast then emptyQ s f.a.toNat else s) (BitVec.ofNat 8 (moveG f)) v
/-- PAND. -/
def execPand (f : QFields) (s : State) : Host.Outcome State Fault Refusal := qPred f s (· && ·)
/-- POR. -/
def execPor (f : QFields) (s : State) : Host.Outcome State Fault Refusal := qPred f s (· || ·)
/-- PXOR. -/
def execPxor (f : QFields) (s : State) : Host.Outcome State Fault Refusal := qPred f s (· != ·)
/-- PNOT. -/
def execPnot (f : QFields) (s : State) : Host.Outcome State Fault Refusal := qPred f s fun a _ => !a
/-- LI: q PRED := IMM20 sign-extended (R276). -/
def execLi (f : JFields) (s : State) : Host.Outcome State Fault Refusal :=
  concludeNext s 4 (writeReg s (BitVec.ofNat 8 (0x80 + f.pred.toNat)) (f.imm.signExtend 64))

/-! ### G class (R270, R271, R273) -/

/-- ADD. -/
def execAddG (f : GFields) (s : State) : Host.Outcome State Fault Refusal := gForm f s (.reg f.b) (· + ·)
/-- SUB. -/
def execSubG (f : GFields) (s : State) : Host.Outcome State Fault Refusal := gForm f s (.reg f.b) (· - ·)
/-- AND. -/
def execAndG (f : GFields) (s : State) : Host.Outcome State Fault Refusal := gForm f s (.reg f.b) (· &&& ·)
/-- OR. -/
def execOrG (f : GFields) (s : State) : Host.Outcome State Fault Refusal := gForm f s (.reg f.b) (· ||| ·)
/-- XOR. -/
def execXorG (f : GFields) (s : State) : Host.Outcome State Fault Refusal := gForm f s (.reg f.b) (· ^^^ ·)
/-- ANDN. -/
def execAndnG (f : GFields) (s : State) : Host.Outcome State Fault Refusal :=
  gForm f s (.reg f.b) (fun a b => a &&& ~~~b)
/-- SHL. -/
def execShlG (f : GFields) (s : State) : Host.Outcome State Fault Refusal := gForm f s (.reg f.b) opShl
/-- SHR. -/
def execShrG (f : GFields) (s : State) : Host.Outcome State Fault Refusal := gForm f s (.reg f.b) opShr
/-- SRA. -/
def execSraG (f : GFields) (s : State) : Host.Outcome State Fault Refusal := gForm f s (.reg f.b) opSra
/-- MIN. -/
def execMinG (f : GFields) (s : State) : Host.Outcome State Fault Refusal := gForm f s (.reg f.b) opMin
/-- MAX. -/
def execMaxG (f : GFields) (s : State) : Host.Outcome State Fault Refusal := gForm f s (.reg f.b) opMax
/-- MINU. -/
def execMinuG (f : GFields) (s : State) : Host.Outcome State Fault Refusal := gForm f s (.reg f.b) opMinu
/-- MAXU. -/
def execMaxuG (f : GFields) (s : State) : Host.Outcome State Fault Refusal := gForm f s (.reg f.b) opMaxu
/-- MUL. -/
def execMulG (f : GFields) (s : State) : Host.Outcome State Fault Refusal := gForm f s (.reg f.b) (· * ·)
/-- MULH. -/
def execMulhG (f : GFields) (s : State) : Host.Outcome State Fault Refusal := gForm f s (.reg f.b) opMulh
/-- MULHU. -/
def execMulhuG (f : GFields) (s : State) : Host.Outcome State Fault Refusal := gForm f s (.reg f.b) opMulhu
/-- ROT. -/
def execRotG (f : GFields) (s : State) : Host.Outcome State Fault Refusal := gForm f s (.reg f.b) opRot
/-- SEXT. -/
def execSextG (f : GFields) (s : State) : Host.Outcome State Fault Refusal := gForm f s (.reg f.b) opSext
/-- ZEXT. -/
def execZextG (f : GFields) (s : State) : Host.Outcome State Fault Refusal := gForm f s (.reg f.b) opZext
/-- MOV. -/
def execMovG (f : GFields) (s : State) : Host.Outcome State Fault Refusal := gForm f s (.reg f.b) fun a _ => a
/-- DIV (R272). -/
def execDivG (f : GFields) (s : State) : Host.Outcome State Fault Refusal := gDivide f s opDiv
/-- DIVU (R272). -/
def execDivuG (f : GFields) (s : State) : Host.Outcome State Fault Refusal := gDivide f s opDivu
/-- REM (R272). -/
def execRemG (f : GFields) (s : State) : Host.Outcome State Fault Refusal := gDivide f s opRem
/-- REMU (R272). -/
def execRemuG (f : GFields) (s : State) : Host.Outcome State Fault Refusal := gDivide f s opRemu
/-- CLZ. -/
def execClzG (f : GFields) (s : State) : Host.Outcome State Fault Refusal := gForm f s (.reg f.b) fun a _ => opClz a
/-- CTZ. -/
def execCtzG (f : GFields) (s : State) : Host.Outcome State Fault Refusal := gForm f s (.reg f.b) fun a _ => opCtz a
/-- POPC. -/
def execPopcG (f : GFields) (s : State) : Host.Outcome State Fault Refusal := gForm f s (.reg f.b) fun a _ => opPopc a
/-- BFX. -/
def execBfxG (f : GFields) (s : State) : Host.Outcome State Fault Refusal :=
  gForm f s (.reg f.b) fun a _ => opBfx f.imm a
/-- BFI. -/
def execBfiG (f : GFields) (s : State) : Host.Outcome State Fault Refusal := gForm f s (.reg f.b) (opBfi f.imm)
/-- SEL. -/
def execSelG (f : GFields) (s : State) : Host.Outcome State Fault Refusal := selectBy s 8 f.lu f.dst f.a (.reg f.b)
/-- ADDI: b is IMM18. -/
def execAddiG (f : GFields) (s : State) : Host.Outcome State Fault Refusal := gForm f s (immG f) (· + ·)
/-- ANDI: b is IMM18. -/
def execAndiG (f : GFields) (s : State) : Host.Outcome State Fault Refusal := gForm f s (immG f) (· &&& ·)
/-- ORI: b is IMM18. -/
def execOriG (f : GFields) (s : State) : Host.Outcome State Fault Refusal := gForm f s (immG f) (· ||| ·)
/-- XORI: b is IMM18. -/
def execXoriG (f : GFields) (s : State) : Host.Outcome State Fault Refusal := gForm f s (immG f) (· ^^^ ·)
/-- SHLI: b is IMM18. -/
def execShliG (f : GFields) (s : State) : Host.Outcome State Fault Refusal := gForm f s (immG f) opShl
/-- SHRI: b is IMM18. -/
def execShriG (f : GFields) (s : State) : Host.Outcome State Fault Refusal := gForm f s (immG f) opShr
/-- SRAI: b is IMM18. -/
def execSraiG (f : GFields) (s : State) : Host.Outcome State Fault Refusal := gForm f s (immG f) opSra
/-- CMPEQ into c DST. -/
def execCmpeqG (f : GFields) (immForm : Bool) (s : State) : Host.Outcome State Fault Refusal :=
  gCompare f immForm s condEq
/-- CMPNE into c DST. -/
def execCmpneG (f : GFields) (immForm : Bool) (s : State) : Host.Outcome State Fault Refusal :=
  gCompare f immForm s condNe
/-- CMPLT into c DST. -/
def execCmpltG (f : GFields) (immForm : Bool) (s : State) : Host.Outcome State Fault Refusal :=
  gCompare f immForm s condLt
/-- CMPGE into c DST. -/
def execCmpgeG (f : GFields) (immForm : Bool) (s : State) : Host.Outcome State Fault Refusal :=
  gCompare f immForm s condGe
/-- CMPLTU into c DST. -/
def execCmpltuG (f : GFields) (immForm : Bool) (s : State) : Host.Outcome State Fault Refusal :=
  gCompare f immForm s condLtu
/-- CMPGEU into c DST. -/
def execCmpgeuG (f : GFields) (immForm : Bool) (s : State) : Host.Outcome State Fault Refusal :=
  gCompare f immForm s condGeu
/-- CMPLE into c DST. -/
def execCmpleG (f : GFields) (immForm : Bool) (s : State) : Host.Outcome State Fault Refusal :=
  gCompare f immForm s condLe
/-- CMPGT into c DST. -/
def execCmpgtG (f : GFields) (immForm : Bool) (s : State) : Host.Outcome State Fault Refusal :=
  gCompare f immForm s condGt

/-! ### L class (R271) -/

/-- ADD with LIT. -/
def execAddL (f : LFields) (s : State) : Host.Outcome State Fault Refusal := lForm f s (· + ·)
/-- SUB with LIT. -/
def execSubL (f : LFields) (s : State) : Host.Outcome State Fault Refusal := lForm f s (· - ·)
/-- AND with LIT. -/
def execAndL (f : LFields) (s : State) : Host.Outcome State Fault Refusal := lForm f s (· &&& ·)
/-- OR with LIT. -/
def execOrL (f : LFields) (s : State) : Host.Outcome State Fault Refusal := lForm f s (· ||| ·)
/-- XOR with LIT. -/
def execXorL (f : LFields) (s : State) : Host.Outcome State Fault Refusal := lForm f s (· ^^^ ·)
/-- ANDN with LIT. -/
def execAndnL (f : LFields) (s : State) : Host.Outcome State Fault Refusal := lForm f s (fun a b => a &&& ~~~b)
/-- SHL with LIT. -/
def execShlL (f : LFields) (s : State) : Host.Outcome State Fault Refusal := lForm f s opShl
/-- SHR with LIT. -/
def execShrL (f : LFields) (s : State) : Host.Outcome State Fault Refusal := lForm f s opShr
/-- SRA with LIT. -/
def execSraL (f : LFields) (s : State) : Host.Outcome State Fault Refusal := lForm f s opSra
/-- MIN with LIT. -/
def execMinL (f : LFields) (s : State) : Host.Outcome State Fault Refusal := lForm f s opMin
/-- MAX with LIT. -/
def execMaxL (f : LFields) (s : State) : Host.Outcome State Fault Refusal := lForm f s opMax
/-- MINU with LIT. -/
def execMinuL (f : LFields) (s : State) : Host.Outcome State Fault Refusal := lForm f s opMinu
/-- MAXU with LIT. -/
def execMaxuL (f : LFields) (s : State) : Host.Outcome State Fault Refusal := lForm f s opMaxu
/-- MUL with LIT. -/
def execMulL (f : LFields) (s : State) : Host.Outcome State Fault Refusal := lForm f s (· * ·)
/-- MULH with LIT. -/
def execMulhL (f : LFields) (s : State) : Host.Outcome State Fault Refusal := lForm f s opMulh
/-- MULHU with LIT. -/
def execMulhuL (f : LFields) (s : State) : Host.Outcome State Fault Refusal := lForm f s opMulhu
/-- ROT with LIT. -/
def execRotL (f : LFields) (s : State) : Host.Outcome State Fault Refusal := lForm f s opRot
/-- SEXT with LIT. -/
def execSextL (f : LFields) (s : State) : Host.Outcome State Fault Refusal := lForm f s opSext
/-- ZEXT with LIT. -/
def execZextL (f : LFields) (s : State) : Host.Outcome State Fault Refusal := lForm f s opZext
/-- DIV by LIT (R272). -/
def execDivL (f : LFields) (s : State) : Host.Outcome State Fault Refusal := lDivide f s opDiv
/-- DIVU by LIT (R272). -/
def execDivuL (f : LFields) (s : State) : Host.Outcome State Fault Refusal := lDivide f s opDivu
/-- REM by LIT (R272). -/
def execRemL (f : LFields) (s : State) : Host.Outcome State Fault Refusal := lDivide f s opRem
/-- REMU by LIT (R272). -/
def execRemuL (f : LFields) (s : State) : Host.Outcome State Fault Refusal := lDivide f s opRemu
/-- SEL between a and LIT. -/
def execSelL (f : LFields) (s : State) : Host.Outcome State Fault Refusal :=
  selectBy s 12 f.lu f.dst f.a (.value (f.lit.signExtend 64))
/-- LIW: IMM18 ∥ LIT sign-extended from 50 bits (R276). -/
def execLiw (f : LFields) (s : State) : Host.Outcome State Fault Refusal :=
  guarded s 12 (writeReg s f.dst ((f.imm ++ f.lit).signExtend 64))
/-- The floating-point format of a scalar type code (Table 12.10). -/
def scalarFmt (code : Nat) : Fmt :=
  match code with
  | 0 => f16 | 1 => b16 | 2 => f32 | 3 => f64 | 8 => f8e4 | _ => f8e5
/-- FLI: the f32 in LIT converted under RNE, setting no flag (R277). -/
def execFli (f : LFields) (s : State) : Host.Outcome State Fault Refusal :=
  guarded s 12 (writeReg s f.dst (word (fconvert (scalarFmt f.imm.toNat) 0 (fval f32 f.lit.toNat)).bits))
/-- NOP issues and does nothing else (R292). -/
def execNop (s : State) : Host.Outcome State Fault Refusal := concludeNext s 4 (.ok s)

end Sys2Proof.Machine
end

