-- ==== Sys2Proof/Machine/FloatOps.lean ====
section
/-! DEFINITION. Scalar floating point and the special functions with exposed latency (13 R278-R283). -/

namespace Sys2Proof.Machine

/-- `sr.rmode.RM`. -/
def roundingMode (s : State) : Nat := (me s).rmode.toNat
/-- The operand type of a G.FLOAT or G.SFU instruction. -/
def opFmt (f : GFields) : Fmt := scalarFmt (f.imm.toNat % 16)
/-- The low bits of a register that hold a float (R278). -/
def lowBits (m : Fmt) (v : Word) : Nat := v.toNat % 2 ^ fmtBits m

/-- Write a float result, the bits above its type cleared, and set its flags. -/
def writeFloat (s : State) (dst : BitVec 8) (r : FRes) : Act State := writeReg (setFlags s r.flags) dst (word r.bits)

/-- A float member over a and b, rounded by `sr.rmode` (R278, R279). -/
def fForm (f : GFields) (s : State) (op : Fmt → Nat → Nat → Nat → FRes) : Host.Outcome State Fault Refusal :=
  twoForm s 8 f.lu f.a (.reg f.b) fun x y s =>
    writeFloat s f.dst (op (opFmt f) (roundingMode s) (lowBits (opFmt f) x) (lowBits (opFmt f) y))

/-- FADD. -/
def execFadd (f : GFields) (s : State) : Host.Outcome State Fault Refusal := fForm f s faddR
/-- FSUB. -/
def execFsub (f : GFields) (s : State) : Host.Outcome State Fault Refusal := fForm f s fsubR
/-- FMUL. -/
def execFmul (f : GFields) (s : State) : Host.Outcome State Fault Refusal := fForm f s fmulR
/-- FMIN (R205). -/
def execFmin (f : GFields) (s : State) : Host.Outcome State Fault Refusal := fForm f s fun m _ a b => minMax m false a b
/-- FMAX (R205). -/
def execFmax (f : GFields) (s : State) : Host.Outcome State Fault Refusal := fForm f s fun m _ a b => minMax m true a b
/-- FSGN: a's magnitude bits with b's sign bit, no flag. -/
def execFsgn (f : GFields) (s : State) : Host.Outcome State Fault Refusal :=
  fForm f s fun m _ a b => ⟨a % signBit m + b / signBit m * signBit m, 0⟩

/-- FMA: a × b + old d, formed exactly and rounded once. -/
def execFma (f : GFields) (s : State) : Host.Outcome State Fault Refusal :=
  if guardHolds s then
    concludeNext s 8 do
      let old ← readOld s f.dst
      let (x, y, s) ← readTwo s f.a (.reg f.b)
      let m := opFmt f
      writeFloat (emptySources s f.lu f.a (.reg f.b)) f.dst
        (fmaR m (roundingMode s) (lowBits m x) (lowBits m y) (lowBits m old))
  else skipSources s 8 f.lu f.a (.reg f.b)

/-- A condition of FCMP (R280): its truth, and whether a quiet NaN sets NV. -/
def floatCond (code : Nat) (x y : FVal) : Bool × Bool :=
  let un := isNan x || isNan y
  let o := cmpNum x y
  match code with
  | 0 => (!un && o == .eq, false)
  | 1 => (un || o != .eq, false)
  | 2 => (!un && o == .lt, un)
  | 3 => (!un && o != .lt, un)
  | 4 => (!un && o != .gt, un)
  | 5 => (!un && o == .gt, un)
  | 6 => (un, false)
  | _ => (!un, false)

/-- FCMP. -/
def execFcmp (f : GFields) (s : State) : Host.Outcome State Fault Refusal :=
  twoForm s 8 f.lu f.a (.reg f.b) fun x y s =>
    let a := fval (opFmt f) (lowBits (opFmt f) x)
    let b := fval (opFmt f) (lowBits (opFmt f) y)
    let (t, nv) := floatCond (f.imm.toNat / 16 % 8) a b
    .ok (writePred (setFlags s (signalFlag a ||| signalFlag b ||| flagIf nv flagNV)) f.dst t)

/-- Width and signedness of an integer type code 4-7 (Table 12.10). -/
def intType (code : Nat) : Nat × Bool :=
  match code with
  | 4 => (32, true) | 5 => (32, false) | 6 => (64, true) | _ => (64, false)
/-- Whether a scalar type code is an integer. -/
def isIntType (code : Nat) : Bool := 4 ≤ code && code ≤ 7

/-- The conversion of FCVT (R281): result register value and flags. -/
def convertScalar (rm src dst : Nat) (v : Word) : Word × Flags :=
  if isIntType src then
    let (w, sg) := intType src
    let x : Int := if sg then signed w v.toNat else (v.toNat % 2 ^ w : Nat)
    let r := ofInteger (scalarFmt dst) rm x
    (word r.bits, r.flags)
  else
    let a := fval (scalarFmt src) (lowBits (scalarFmt src) v)
    if isIntType dst then
      let (x, fl) := toInteger rm (intType dst).1 (intType dst).2 a
      (BitVec.ofInt 64 x, fl)
    else
      let r := fconvert (scalarFmt dst) rm a
      (word r.bits, r.flags)

/-- FCVT from IMM18[3:0] to IMM18[7:4]. -/
def execFcvt (f : GFields) (s : State) : Host.Outcome State Fault Refusal :=
  twoForm s 8 f.lu f.a (.reg f.b) fun x _ s =>
    let (v, fl) := convertScalar (roundingMode s) (f.imm.toNat % 16) (f.imm.toNat / 16 % 16) x
    writeReg (setFlags s fl) f.dst v

/-! ### Special functions (R282, R283) -/

/-- Add a pending write-back of latency `L` (R162): a staged destination is named by its physical slot at issue. -/
def pend (s : State) (latency : Nat) (dst : BitVec 8) (r : FRes) : State :=
  onMe s fun st =>
    let n := dst.toNat
    let staged := 96 ≤ n && n < 128
    { st with wbs := st.wbs ++ [⟨if staged then stagedSlot st n else n, staged, word r.bits, r.flags, latency⟩] }

/-- A G.SFU member: sources read and emptied at issue, an empty q destination left empty until the write-back lands. -/
def sfuForm2 (f : GFields) (s : State) (latency : Nat) (op : Fmt → Nat → Nat → Nat → FRes) :
    Host.Outcome State Fault Refusal :=
  twoForm s 8 f.lu f.a (.reg f.b) fun x y s => do
    settled (me s) f.dst
    return pend s latency f.dst (op (opFmt f) (roundingMode s) (lowBits (opFmt f) x) (lowBits (opFmt f) y))

/-- A fixed function computed in f32 and rounded to a type under a mode, with the flags of both (R215, R282). -/
def fixedIn (m : Fmt) (rm : Nat) (fn : Nat → FRes) (a : Nat) : FRes :=
  let x := fval m a
  let r := fn (fconvert f32 0 x).bits
  let r : FRes := ⟨r.bits, r.flags ||| signalFlag x⟩
  if m == f32 then r
  else
    let t := fconvert m rm (fval f32 r.bits)
    ⟨t.bits, r.flags ||| t.flags⟩

/-- FRCP. -/
def execFrcp (f : GFields) (s : State) : Host.Outcome State Fault Refusal :=
  sfuForm2 f s 8 fun m _ a _ => fixedIn m 0 recip a
/-- FRSQ. -/
def execFrsq (f : GFields) (s : State) : Host.Outcome State Fault Refusal :=
  sfuForm2 f s 8 fun m _ a _ => fixedIn m 0 recipSqrt a
/-- FRCPS (R216). -/
def execFrcps (f : GFields) (s : State) : Host.Outcome State Fault Refusal := sfuForm2 f s 4 recipStep
/-- FRSQS (R216). -/
def execFrsqs (f : GFields) (s : State) : Host.Outcome State Fault Refusal := sfuForm2 f s 4 recipSqrtStep
/-- FEXP2. -/
def execFexp2 (f : GFields) (s : State) : Host.Outcome State Fault Refusal :=
  sfuForm2 f s 8 fun m _ a _ => fixedIn m 0 (fun x => exp2R 2 x 14) a
/-- FLOG2. -/
def execFlog2 (f : GFields) (s : State) : Host.Outcome State Fault Refusal :=
  sfuForm2 f s 8 fun m _ a _ => fixedIn m 0 log2R a

end Sys2Proof.Machine
end

