-- ==== Sys2Proof/Machine/Draw.lean ====
section
/-! DEFINITION. Sums in their fixed order, draws and merges of carried triples (10 R213, R217-R222). -/

namespace Sys2Proof.Machine

/-! ### The order of sums (R213) -/

/-- The root of the fixed tree over at most 2^d values: none if there is none, one child unchanged. -/
def treeSum (add : Nat → Nat → FRes) : Nat → List Nat → Option FRes
  | 0, xs => xs.head?.map fun x => ⟨x, 0⟩
  | d + 1, xs =>
    match treeSum add d (xs.take (2 ^ d)), treeSum add d (xs.drop (2 ^ d)) with
    | some a, some b =>
      let r := add a.bits b.bits
      some ⟨r.bits, a.flags ||| b.flags ||| r.flags⟩
    | some a, none => some a
    | none, r => r

/-- Groups of 64 values. -/
def groupsOf : Nat → List Nat → List (List Nat)
  | 0, _ => []
  | fuel + 1, xs => if xs.isEmpty then [] else xs.take 64 :: groupsOf fuel (xs.drop 64)

/-- The roots of the groups. -/
def groupRoots (add : Nat → Nat → FRes) (xs : List Nat) : List FRes :=
  (groupsOf (xs.length / 64 + 1) xs).filterMap (treeSum add 6)

/-- The group roots added in ascending order: none for no value. -/
def sumRoots (add : Nat → Nat → FRes) : List FRes → Option FRes
  | [] => none
  | r :: rs => some (rs.foldl (fun a b =>
      let c := add a.bits b.bits
      ⟨c.bits, a.flags ||| b.flags ||| c.flags⟩) r)

/-- The sum of f32 values in the order of R213 under a rounding mode; +0 for no value. -/
def sumF32 (rm : Nat) (xs : List Nat) : FRes := (sumRoots (faddR f32 rm) (groupRoots (faddR f32 rm) xs)).getD ⟨0, 0⟩

/-! ### Draw operands (R217) -/

/-- The index that stands for none. -/
def noIndex : Nat := 0xFFFFFFFF
/-- −inf. -/
def negInf : Nat := 0xFF800000
/-- +inf. -/
def posInf : Nat := 0x7F800000

/-- Temperature and logit scale of a draw. -/
structure DrawParams where
  temp : Nat
  scale : Nat
  deriving DecidableEq, Repr

/-- −0 taken as 0. -/
def tempOf (t : Nat) : Nat := if t == 0x80000000 then 0 else t
/-- T is not negative and no NaN; s is finite and positive. -/
def paramsOk (p : DrawParams) : Bool :=
  (match fval f32 p.temp with
    | .nan _ _ => false
    | v => !signOf v || isZero v) &&
  match fval f32 p.scale with
  | .num s m _ => !s && m != 0
  | _ => false
/-- 0 ≤ u < 1. -/
def uniformOk (u : Nat) : Bool :=
  match fval f32 u with
  | .num s m _ => m == 0 || (!s && u < 0x3F800000)
  | _ => false

/-! ### One draw (R218, R219, R222) -/

/-- A carried triple (R220). -/
structure Triple where
  index : Nat
  m : Nat
  mass : Nat
  deriving DecidableEq, Repr

/-- The triple of no index. -/
def noTriple : Triple := ⟨noIndex, negInf, 0⟩

/-- A triple with the draw flags and arithmetic flags its making sets. -/
structure Drawn where
  t : Triple
  draw : BitVec 3 := 0
  flags : Flags := 0
  deriving DecidableEq, Repr

/-- The result of a draw or merge without mass. -/
def drawnNone (extra : BitVec 3) : Drawn := ⟨noTriple, drawZM ||| extra, flagDZ⟩

/-- Whether an f32 is a NaN. -/
def nanF32 (x : Nat) : Bool := isNan (fval f32 x)
/-- Whether two f32 are equal as values. -/
def eqF32 (x y : Nat) : Bool := !nanF32 x && !nanF32 y && cmpNum (fval f32 x) (fval f32 y) == .eq
/-- Whether one f32 is below another as a value. -/
def ltF32 (x y : Nat) : Bool := !nanF32 x && !nanF32 y && cmpNum (fval f32 x) (fval f32 y) == .lt
/-- NL when a NaN was met. -/
def nanFlag (xs : List Nat) : BitVec 3 := if xs.any nanF32 then drawNL else 0

/-- m of a row: the maximum of its non-NaN logits, at T = +inf of its finite ones, or −inf. -/
def rowMax (infinite : Bool) (xs : List Nat) : Nat :=
  (xs.filter fun x => !nanF32 x && !(infinite && isInf (fval f32 x))).foldl
    (fun a b => (minMax f32 true a b).bits) negInf

/-- c of R218. -/
def drawScale (p : DrawParams) : Nat := divF32 p.scale p.temp

/-- exp2d of a difference times c. -/
def weightOf (c x m : Nat) : Nat := exp2d (fmulR f32 0 (fsubR f32 0 x m).bits c).bits

/-- The weight of a logit (R218). -/
def drawWeight (p : DrawParams) (m x : Nat) : Nat :=
  let one := 0x3F800000
  if nanF32 x then 0
  else if p.temp == posInf then (if isInf (fval f32 x) then 0 else one)
  else if x == negInf then 0
  else if eqF32 x m then one
  else weightOf (drawScale p) x m

/-- Descend a tree of weights (R219): the leaf reached, counted from the tree's first. -/
def descend : Nat → List Nat → Nat → Nat
  | 0, _, _ => 0
  | d + 1, ws, t =>
    let left := ws.take (2 ^ d)
    let right := ws.drop (2 ^ d)
    if right.isEmpty then descend d left t
    else
      let l := ((treeSum (faddR f32 0) d left).getD ⟨0, 0⟩).bits
      if ltF32 t l then descend d left t else 2 ^ d + descend d right (fsubR f32 0 t l).bits

/-- The group a draw falls into and t within it: the first group with t below its root, else the last with mass. -/
def findGroup : List (Nat × Nat) → Nat → Nat → Nat → Nat × Nat
  | [], best, _, t => (best, t)
  | (g, h) :: rest, best, _, t =>
    if ltF32 t g then (h, t)
    else findGroup rest (if ltF32 0 g then h else best) h (fsubR f32 0 t g).bits

/-- The leaf a draw returns: the one reached, or if its weight is 0 the last before it with weight, else the first
after, with FB. -/
def settleLeaf (ws : List Nat) (i : Nat) : Nat × BitVec 3 :=
  let has := fun k => ltF32 0 (ws.getD k 0)
  if has i then (i, 0)
  else match (below i has).getLast? with
    | some k => (k, drawFB)
    | none => (((below ws.length has).head?).getD i, drawFB)

/-- The first index whose logit equals m. -/
def argMax (xs : List Nat) (m : Nat) : Option Nat :=
  if m == negInf then none else firstBelow xs.length fun i => eqF32 (xs.getD i 0) m

/-- Draw one index from a row of f32 logits (R218, R219; R222 at T = 0). -/
def drawRow (p : DrawParams) (u : Nat) (xs : List Nat) : Drawn :=
  let nl := nanFlag xs
  let m := rowMax (p.temp == posInf) xs
  if p.temp == 0 then
    match argMax xs m with
    | some i => ⟨⟨i, m, 0x3F800000⟩, nl, 0⟩
    | none => drawnNone nl
  else
    let ws := xs.map (drawWeight p m)
    let roots := (groupRoots (faddR f32 0) ws).map (·.bits)
    let total := ((sumRoots (faddR f32 0) (roots.map fun r => ⟨r, 0⟩)).getD ⟨0, 0⟩).bits
    if isZero (fval f32 total) then drawnNone nl
    else
      let (g, t) := findGroup roots.zipIdx 0 0 (fmulR f32 0 u total).bits
      let (i, fb) := settleLeaf ws (64 * g + descend 6 ((ws.drop (64 * g)).take 64) t)
      ⟨⟨i, m, total⟩, nl ||| fb, 0⟩

/-! ### Merging (R220-R222) -/

/-- Whether a triple has no mass. -/
def massless (t : Triple) : Bool :=
  t.index == noIndex || isZero (fval f32 t.mass) || nanF32 t.m || nanF32 t.mass
/-- NL for a NaN triple. -/
def tripleNan (t : Triple) : BitVec 3 := if nanF32 t.m || nanF32 t.mass then drawNL else 0

/-- Merge triples A and B with uniform u. -/
def mergeTriples (p : DrawParams) (u : Nat) (a b : Triple) : Drawn :=
  let nl := tripleNan a ||| tripleNan b
  let one := fun (t : Triple) => if p.temp == 0 then { t with mass := 0x3F800000 } else t
  if massless a && massless b then drawnNone nl
  else if massless a then ⟨one b, nl, 0⟩
  else if massless b then ⟨one a, nl, 0⟩
  else if p.temp == 0 then
    let aWins := ltF32 b.m a.m || (eqF32 a.m b.m && a.index ≤ b.index)
    ⟨one (if aWins then a else b), nl, 0⟩
  else
    let m := (minMax f32 true a.m b.m).bits
    let side := fun (t : Triple) =>
      if p.temp == posInf || eqF32 t.m m then t.mass else (fmulR f32 0 t.mass (weightOf (drawScale p) t.m m)).bits
    let wa := side a
    let wb := side b
    if isZero (fval f32 wa) then ⟨⟨b.index, m, wb⟩, nl, 0⟩
    else if isZero (fval f32 wb) then ⟨⟨a.index, m, wa⟩, nl, 0⟩
    else
      let w := (faddR f32 0 wa wb).bits
      ⟨⟨if ltF32 (fmulR f32 0 u w).bits wa then a.index else b.index, m, w⟩, nl, 0⟩

/-- Fold triples in ascending order, one uniform for each merge (R348). -/
def foldTriples (p : DrawParams) : Drawn → List (Triple × Nat) → Drawn
  | d, [] => d
  | d, (t, u) :: rest =>
    let e := mergeTriples p u d.t t
    foldTriples p ⟨e.t, d.draw ||| e.draw, d.flags ||| e.flags⟩ rest

/-- The fold of triples (R348): a lone one is returned as read if it has mass. -/
def foldAll (p : DrawParams) (ts : List Triple) (us : List Nat) : Drawn :=
  match ts with
  | [] => drawnNone 0
  | [t] => if massless t then drawnNone (tripleNan t) else ⟨t, 0, 0⟩
  | t :: rest => foldTriples p ⟨t, 0, 0⟩ (rest.zip us)

/-- The 16 bytes of a triple (R220). -/
def tripleBytes (t : Triple) : List Byte := toBytes 4 t.index ++ toBytes 4 t.m ++ toBytes 4 t.mass ++ toBytes 4 0
/-- A triple from its bytes; bytes 12-15 are ignored. -/
def tripleFrom (bs : List Byte) : Triple := ⟨imageAt bs 0 4, imageAt bs 4 4, imageAt bs 8 4⟩

end Sys2Proof.Machine
end

