-- ==== Sys2Proof/Machine/Regions.lean ====
section
/-! DEFINITION. Region operands of the V class: element types, the four kinds of operand, their checks, one element read
and written, and the loops over elements with what a stall or a fault leaves (R161, R256, R333-R336, R357). -/

namespace Sys2Proof.Machine

/-! ### Element types (Table 12.11) -/

/-- Float types are codes 6 to 10. -/
def tyFloat (t : Nat) : Bool := 6 ≤ t
/-- Bytes of an element of a type. -/
def tyBytes : Nat → Nat
  | 1 | 4 | 8 | 9 => 2
  | 2 | 5 | 10 => 4
  | _ => 1
/-- Bits of an element of a type. -/
def tyBits (t : Nat) : Nat := 8 * tyBytes t
/-- Signed integer types are codes 0 to 2. -/
def tySigned (t : Nat) : Bool := t < 3
/-- The float format of a type. -/
def tyFmt : Nat → Fmt
  | 6 => f8e4
  | 7 => f8e5
  | 8 => f16
  | 9 => b16
  | _ => f32
/-- The format code of Table 7.8 of a type; n16 and n32 have none. -/
def tyCode : Nat → Option Nat
  | 0 => some 1
  | 1 => some 2
  | 2 => some 3
  | 3 => some 4
  | 4 | 5 => none
  | t => some t
/-- An element's bits as an integer of its type. -/
def tyInt (t v : Nat) : Int := if tySigned t then signed (tyBits t) v else (v % 2 ^ tyBits t : Nat)
/-- An integer result in a type (R337). -/
def tyNarrow (t : Nat) (saturate : Bool) (x : Int) : FRes :=
  let (v, f) := narrowInt (tyBits t) (tySigned t) saturate x
  ⟨v, f⟩
/-- A float element as an f32 (exact), a signalling NaN flagged. -/
def toF32 (t v : Nat) : FRes := if t == 10 then ⟨v, signalFlag (fval f32 v)⟩ else fconvert f32 0 (fval (tyFmt t) v)
/-- An f32 rounded to a float type. -/
def fromF32 (t rm v : Nat) : FRes := if t == 10 then ⟨v, 0⟩ else fconvert (tyFmt t) rm (fval f32 v)

/-! ### Operands (R335) -/

/-- Where an operand's elements lie. -/
inductive Source where
  | tap (n lag : Nat)
  | area (number : Nat) (d : Area) (first : Int)
  | scalar (v : Nat)
  | fifo (k : Nat)
  deriving DecidableEq, Repr

/-- An operand: its source, offset and stride of the shape state, and bytes of an element. -/
structure Operand where
  src : Source
  off : Int
  str : Int
  bytes : Nat
  deriving DecidableEq, Repr

/-- x(r, j). -/
def elemIndex (o : Operand) (j : Nat) : Int := o.off + j * o.str

/-- N of `sr.vn`. -/
def vecN (s : State) : Nat := field (myCore s).vn.toNat 0 16
/-- SWEEP of `sr.vn`. -/
def vecSweep (s : State) : Nat := field (myCore s).vn.toNat 16 16

/-- The signal of a tap field. -/
def regionSignal (r : BitVec 24) : Nat := field r.toNat 2 10
/-- The area of a kind-2 field. -/
def regionNumber (r : BitVec 24) : Nat := field r.toNat 2 4
/-- The signals that region fields name. -/
def regionTaps (rs : List (BitVec 24)) : List Nat := (rs.filter fun r => regionKind r < 2).map regionSignal

/-- Open an operand with its type's width: a tap's format must be the type's, an area's descriptor is read. -/
def openOperand (s : State) (r : BitVec 24) (index type : Nat) : Act (Operand × State) := do
  let off : Int := (look 0 (myCore s).vo index).toNat
  let str := (look 1 (myCore s).vs index).toInt
  let mk := fun src => (⟨src, off, str, tyBytes type⟩ : Operand)
  match regionKind r with
  | 2 =>
    let v ← readGQ s (regionOfs r)
    let (d, s) ← readArea s (regionNumber r) (v.toInt + off + (me s).progress * str)
    return (mk (.area (regionNumber r) d v.toInt), s)
  | 3 =>
    let spec := regionSpec r
    if isD spec then return (mk (.fifo (spec.toNat - 0xA0)), s)
    else
      let v ← readGQ s spec
      return (mk (.scalar (v.toNat % 2 ^ tyBits type)), s)
  | k =>
    let n := regionSignal r
    let named := if k == 0 then pure (field r.toNat 12 12) else (readQ s (field r.toNat 12 4)).map fun v => v.toNat
    let g ← namedSignal s n named.toOption
    let lag ← named
    if tyCode type != some (sigFmt g.entry) then sigFault 0x09 n lag
    else return (mk (.tap n lag), s)

/-- An instruction that writes a signal and reads it at lag 0, its old destination included (R184, R335). -/
def checkFeedback (dst : Operand) (srcs : List Operand) : Act Unit :=
  match dst.src with
  | .tap n _ => if srcs.any fun o => o.src == .tap n 0 then sigFault 0x03 n 0 else .ok ()
  | _ => .ok ()

/-- The elements 0 to `n - 1` of a tap operand lie in its frame. -/
def checkFrame (sig lag : Nat) (g : Signal) (o : Operand) (n : Nat) : Act Unit := do
  if n == 0 then return ()
  else
    let _ ← tapElem sig lag g (elemIndex o 0)
    let _ ← tapElem sig lag g (elemIndex o (n - 1))
    return ()

/-- The checks of a source of `n` elements over `count` samples before any element is touched (R179, R185, R194); the
frame of an indexed source is checked element by element. -/
def checkSource (s : State) (o : Operand) (n count : Nat) (indexed : Bool) : Act State :=
  match o.src with
  | .tap sig lag => do
    let g ← namedSignal s sig (some lag)
    checkRead s sig g lag count
    if !indexed then checkFrame sig lag g o n
    openFar s sig g ((List.range count).map fun i => (headOf s sig : Int) - lag - i)
  | _ => .ok s

/-- The checks of a destination of `n` elements (R181). -/
def checkDest (s : State) (o : Operand) (n : Nat) (indexed : Bool) : Act Unit :=
  match o.src with
  | .tap sig lag => do
    let g ← namedSignal s sig (some lag)
    let _ ← writeSample s sig g lag
    if !indexed then checkFrame sig lag g o n
  | _ => .ok ()

/-- Element `x` of an operand, from the sample `back` before the one its lag names. -/
def readAtIndex (s : State) (o : Operand) (x : Int) (back : Nat) : Act (Nat × State) :=
  match o.src with
  | .tap sig lag => do
    let g ← namedSignal s sig (some lag)
    let i ← tapElem sig lag g x
    sampleElem s sig g ((headOf s sig : Int) - lag - back) i
  | .area number d first => do
    let at_ ← areaOffset d number o.bytes (first + x)
    let (bs, s) ← loadCs s at_ o.bytes (areaInfo number (first + x))
    return (fromBytes bs, s)
  | .scalar v => .ok (v, s)
  | .fifo k => (readD s k).map fun (v, s) => (v.toNat % 2 ^ (8 * o.bytes), s)

/-- Element `j` of an operand. -/
def readElem (s : State) (o : Operand) (j : Nat) : Act (Nat × State) := readAtIndex s o (elemIndex o j) 0

/-- Write element `x` of a destination. -/
def writeAtIndex (s : State) (o : Operand) (x : Int) (v : Nat) : Act State :=
  match o.src with
  | .tap sig lag => do
    let g ← namedSignal s sig (some lag)
    let i ← tapElem sig lag g x
    return putElem s (myKey s sig) g (headOf s sig - lag) i v
  | .area number d first => do
    let at_ ← areaOffset d number o.bytes (first + x)
    let s ← storeCs s at_ (toBytes o.bytes v) (areaInfo number (first + x))
    return coverCs s at_ o.bytes
  | _ => .ok s

/-- Write element `j` of a destination. -/
def writeElem (s : State) (o : Operand) (j v : Nat) : Act State := writeAtIndex s o (elemIndex o j) v

/-- A write of `n` elements has ended: a tap's sample gets its written bit. -/
def closeDest (s : State) (o : Operand) (n : Nat) : State :=
  match o.src with
  | .tap sig lag => if n == 0 then s else markSample s (myKey s sig) (headOf s sig - lag)
  | _ => s

/-! ### Loops (R161, R336, R357) -/

/-- What a region instruction comes to: a state, and why it does not complete. -/
abbrev Run := State × Option Trap

/-- Elements from `j` in ascending order: the state after the last that was done, its number, and the trap of the next.
-/
def elements (one : Nat → State → Act State) : Nat → Nat → State → State × Nat × Option Trap
  | 0, j, s => (s, j, none)
  | fuel + 1, j, s =>
    match one j s with
    | .ok t => elements one fuel (j + 1) t
    | .error e => (s, j, some e)

/-- `s` with what the instruction read at its issue, as `t` has it (R303). -/
def keepOpened (t s : State) : State := onMe s fun st => { st with opened := (me t).opened }

/-- An element-wise instruction over `n` elements: it continues at PROGRESS, and what stops it leaves PROGRESS at the
first element not written. `start` opens and checks its operands; `close` ends it. -/
def runElements {α : Type} (s : State) (n : Nat) (start : State → Act (α × State)) (one : α → Nat → State → Act State)
    (close : α → State → Act State) : Run :=
  let from_ := (me s).progress
  match start s with
  | .error e => (s, some e)
  | .ok (p, t) =>
    match elements (one p) (n - from_) from_ t with
    | (u, j, some e) =>
      if j == from_ then (keepOpened t s, some e) else (onMe u fun st => { st with progress := j }, some e)
    | (u, _, none) => match close p u with
      | .ok v => (v, none)
      | .error e => (keepOpened t s, some e)

/-- Gather the values `read` gives for elements `j` on, `k` values each, behind those latched; a wait keeps what was
taken, an event takes nothing. -/
def gather (read : Nat → State → Act (List Word × State)) : Nat → Nat → State → Run
  | 0, _, s => (s, none)
  | fuel + 1, j, s =>
    match read j s with
    | .ok (vs, t) => gather read fuel (j + 1) (onMe t fun st => { st with latch := st.latch ++ vs })
    | .error e => (s, some e)

/-- Whether a trap is a wait, after which the instruction goes on where it stands. -/
def isWait : Trap → Bool
  | .wait _ | .walk _ _ | .ask _ _ | .claim _ => true
  | _ => false

/-- An instruction that reads `n` elements of `k` values before it writes anything, then ends by `rest` on them. With
`running`, the running value of whole groups, a trap part-way leaves PROGRESS and PARTIAL at the boundary of a
64-element group; without, PROGRESS is 0 (R161, R357). A wait keeps every element taken, an event those of whole groups,
and a stop that comes while it waits cuts to those too. -/
def runGathered {α : Type} (s : State) (n k : Nat) (start : State → Act (α × State))
    (read : α → Nat → State → Act (List Word × State)) (running : Option (List Nat → Nat))
    (rest : α → List Nat → State → Act State) : Run :=
  match start s with
  | .error e => (s, some e)
  | .ok (p, t) =>
    let taken := fun (u : State) => (me u).latch.length / Nat.max 1 k
    let from_ := taken s
    match gather (read p) (n - from_) from_ t with
    | (u, some e) =>
      let kept := Nat.max from_ (if isWait e then taken u else if running.isSome then taken u / 64 * 64 else 0)
      if kept == from_ then (s, some e)
      else
        let (u, _) := gather (read p) (kept - from_) from_ t
        let whole := kept / 64 * 64
        match running with
        | some f =>
          let vs := ((me u).latch.map (·.toNat)).take (whole * k)
          (onMe u fun st => { st with progress := whole, part := BitVec.ofNat 256 (f vs), cut := some (whole * k) }, some e)
        | none => (onMe u fun st => { st with cut := some 0 }, some e)
    | (u, none) => match rest p ((me u).latch.map (·.toNat)) u with
      | .ok v => (v, none)
      | .error e => (s, some e)

/-- Whether a field names a stream register, whose elements are gone once taken. -/
def takesFifo (fields : List (BitVec 24)) : Bool := fields.any fun r => regionKind r == 3 && isD (regionSpec r)

/-- The fault of a tap that an instruction reads over `count` samples, its lags checked against what is written when it
issues (R185, R194). -/
def issueFault (s : State) (count : Nat) (r : BitVec 24) : Option Trap :=
  let n := regionSignal r
  let lag := match regionKind r with
    | 0 => some (field r.toNat 12 12)
    | 1 => ((readQ s (field r.toNat 12 4)).map fun (v : Word) => v.toNat).toOption
    | _ => none
  match lag.map fun l => (l, namedSignal s n (some l)) with
  | some (l, .ok g) => match checkRead s n g l count with
    | .error e => some e
    | .ok _ => none
  | _ => none

/-- What an instruction that has to wait at its issue comes to: the fault of one of the taps it reads, whichever operand
it waits for (R185). -/
def issueTrap (s : State) (reads : List (BitVec 24 × Nat)) (e : Trap) : Trap :=
  if (me s).began.isNone && isWait e then (reads.findSome? fun r => issueFault s r.2 r.1).getD e else e

/-- A region instruction under its guard, the heads of its taps resolved and its areas read at its issue; `reads` are
its source fields, each with the samples it reads. It stalls before an item record for which the device has no room
(R166). One that reads a stream register keeps over a stop all that it has taken. -/
def regionInstr (s : State) (fields : List (BitVec 24)) (reads : List (BitVec 24 × Nat)) (run : State → Run) :
    Host.Outcome State Fault Refusal :=
  if guardHolds s then
    let s := openAreas (resolve s (regionTaps fields)) fields
    let r := run s
    let r := (r.1, r.2.map (issueTrap s reads))
    let r := if takesFifo fields && (me r.1).cut.isSome then (onMe r.1 fun st => { st with cut := none }, r.2) else r
    if itemsOver s r.1 then .next (hold s (.cause 4))
    else match r.2 with
      | none => .next (finish r.1 12 none)
      | some e => .next (trapState r.1 e)
  else skip s 12

/-! ### Sweeps (R194) -/

/-- Write the mask bit of each sample of a sweep of a KV signal: 1 where the sample is present and survives. -/
def maskFrom (s : State) (g : Signal) (h lag : Nat) : Nat → Nat → Act State
  | 0, _ => .ok s
  | fuel + 1, i => do
    let j : Int := (h : Int) - lag - i
    let present := 0 ≤ j && !isAbsent g j.toNat
    let (ps, s) ← csSpan s s.curCore (sigMask g.entry + i / 8) 1 0
    let s := match ps with
      | [(l, _)] => writeAt s l (toBytes 1 (setField (fromBytes (readAt s l 1)) (i % 8) 1 (bit01 present)))
      | _ => s
    maskFrom s g h lag fuel (i + 1)

/-- The mask buffer of a sweep of `count` samples, written as part of the read; the bytes that it fills count toward the
writing of a poisoned granule (R88). -/
def sweepMask (s : State) (o : Operand) (count : Nat) : Act State :=
  match o.src with
  | .tap sig lag => do
    let g ← namedSignal s sig (some lag)
    if sigKv g.entry then (maskFrom s g (headOf s sig) lag count 0).map fun s => coverCs s (sigMask g.entry) (count / 8)
    else return s
  | _ => .ok s

end Sys2Proof.Machine
end

