-- ==== Sys2Proof/Machine/Tiles.lean ====
section
/-! DEFINITION. Tiles, accumulators, scales and tensor identifiers: where their elements lie, the product of two tiles into
an accumulator, and which tiles a nest uses (R137, R145-R148, R201, R202, R208-R211, R360-R363). -/

namespace Sys2Proof.Machine

/-! ### Shapes -/

/-- Rows of a `cr.tshp` value. -/
def shapeRows (v : Nat) : Nat := field v 8 6 + 1
/-- Columns. -/
def shapeCols (v : Nat) : Nat := field v 0 6 + 1
/-- Element width in bits. -/
def shapeBits (v : Nat) : Nat := match field v 16 2 with
  | 0 => 4
  | 1 => 8
  | _ => 16

/-- Element (i, j) of a tile's storage. -/
def tileAt (k : Core) (t i j : Nat) : Nat := (look 0 k.tiles (4096 * t + 64 * i + j)).toNat
/-- A tile element as an operand: zero outside the shape. -/
def tileElem (k : Core) (t shape i j : Nat) : Nat :=
  if i < shapeRows shape && j < shapeCols shape then tileAt k t i j else 0
/-- The core with a tile element set. -/
def setTile (k : Core) (t i j v : Nat) : Core :=
  { k with tiles := put k.tiles (4096 * t + 64 * i + j) (BitVec.ofNat 16 v) }
/-- Rows of values written into a tile. -/
def fillTile (k : Core) (t : Nat) (cells : List (Nat × Nat × Nat)) : Core :=
  cells.foldl (fun k c => setTile k t c.1 c.2.1 c.2.2) k

/-- Every (i, j) of an R × C shape, by rows. -/
def cellsOf (rows cols : Nat) : List (Nat × Nat) :=
  (List.range rows).flatMap fun i => (List.range cols).map fun j => (i, j)

/-! ### Elements in memory (R137, R360) -/

/-- Where one element lies: the address of its first byte, and for 4-bit elements its nibble. -/
structure Cell where
  address : Word
  high : Bool
  deriving DecidableEq, Repr

/-- Stored element (a, b) of `w` bits in linear layout. -/
def linearCell (ea : Word) (pitch w a b : Nat) : Cell := ⟨ea + word (a * pitch + b * w / 8), w == 4 && b % 2 == 1⟩
/-- Stored element (a, b) of `w` bits in skewed layout. -/
def skewedCell (ea : Word) (w a b : Nat) : Cell :=
  ⟨ea + word (a * w / 512 * 4096 + (a + b) % 64 * 64 + a * w % 512 / 8), w == 4 && a % 2 == 1⟩

/-- The granules of 64 bytes that poisoned pieces name are reported once for the operation that read them (R88). -/
def reportPoison (s : State) (granules : List Nat) : State :=
  granules.eraseDups.foldl (fun s g => postCore s s.curCore s.curStream 0x60 (64 * g) 0) s

/-- The value of an element of `w` bits at a cell, and the granule it met poison in. -/
def readCell (s : State) (kind w : Nat) (c : Cell) : Act (Nat × List Nat × State) := do
  let (ps, s) ← places s kind c.address (Nat.max 1 (w / 8))
  let v := fromBytes (readUnits s ps)
  let bad := if poisonPieces s ps then [c.address.toNat / 64] else []
  return (if w == 4 then field v (if c.high then 4 else 0) 4 else v, bad, s)

/-- Write an element of `w` bits at a cell; a 4-bit element leaves the other nibble. -/
def writeCell (s : State) (kind w : Nat) (c : Cell) (v : Nat) : Act State := do
  let (ps, s) ← places s kind c.address (Nat.max 1 (w / 8))
  if w == 4 then
    let old := fromBytes (if poisonPieces s ps then ps.flatMap fun p => readBytes s.mem p.1.key p.2 else readUnits s ps)
    return storePieces s ps (toBytes 1 (setField old (if c.high then 4 else 0) 4 v))
  else return storePieces s ps (toBytes (w / 8) v)

/-- The half bytes of memory that an element of `w` bits takes at a cell, by `Loc.key`. -/
def cellCover (s : State) (kind w : Nat) (c : Cell) : List (Nat × Nat) :=
  match places s kind c.address (Nat.max 1 (w / 8)) with
  | .ok (ps, _) => ps.map fun (l, n) => if w == 4 then (2 * l.key + bit01 c.high, 1) else (2 * l.key, 2 * n)
  | .error _ => []

/-- One operation has written the cells of a list: a granule they fill loses its poison (R88). -/
def cleanCells (s : State) (kind w : Nat) (cells : List Cell) : State :=
  if s.poison.isEmpty then s else cleanCover s (cells.flatMap (cellCover s kind w))

/-- The values at the cells of tile elements; none stands for an element that loads as zero. -/
def readCells (s : State) (kind w : Nat) : List (Nat × Nat × Option Cell) →
    Act (List (Nat × Nat × Nat) × List Nat × State)
  | [] => .ok ([], [], s)
  | (i, j, none) :: rest => do
    let (vs, bad, s) ← readCells s kind w rest
    return ((i, j, 0) :: vs, bad, s)
  | (i, j, some c) :: rest => do
    let (v, b, s) ← readCell s kind w c
    let (vs, bad, s) ← readCells s kind w rest
    return ((i, j, v) :: vs, b ++ bad, s)

/-- Write tile elements to their cells, one after another. -/
def writeEach (s : State) (kind w t : Nat) : List (Nat × Nat × Option Cell) → Act State
  | [] => .ok s
  | (_, _, none) :: rest => writeEach s kind w t rest
  | (i, j, some c) :: rest => do
    let s ← writeCell s kind w c (tileAt (myCore s) t i j)
    writeEach s kind w t rest

/-- Write tile elements to their cells. -/
def writeCells4 (s : State) (kind w t : Nat) (cells : List (Nat × Nat × Option Cell)) : Act State :=
  (writeEach s kind w t cells).map fun s => cleanCells s kind w (cells.filterMap (·.2.2))

/-! ### Tensor identifiers (R148, Table 7.8) -/

/-- FMT. -/
def tidFmt (e : List Byte) : Nat := imageAt e 0 1 % 16
/-- RANK. -/
def tidRank (e : List Byte) : Nat := imageAt e 1 1 % 8
/-- V. -/
def tidValid (e : List Byte) : Bool := flag (imageAt e 1 1) 7
/-- BASE. -/
def tidBase (e : List Byte) : Nat := imageAt e 8 8
/-- DIMn; a dimension beyond RANK counts as 1. -/
def tidDim (e : List Byte) (n : Nat) : Nat := if n < tidRank e then imageAt e (16 + 4 * n) 4 else 1
/-- STRn. -/
def tidStride (e : List Byte) (n : Nat) : Int := signed 48 (imageAt e (32 + 6 * n) 6)
/-- Bits of an element of a tensor format. -/
def tidBits : Nat → Nat
  | 0 | 5 => 4
  | 1 | 4 | 6 | 7 => 8
  | 3 | 10 => 32
  | 11 => 64
  | _ => 16

/-- The limits of Table 7.8 (R368): an image with V = 0 needs only its reserved bits zero. -/
def tidImageOk (e : List Byte) : Bool :=
  let dims := (List.range 4).all fun n => (imageAt e (16 + 4 * n) 4 != 0) == decide (n < tidRank e)
  imageAt e 0 1 < 16 && field (imageAt e 1 1) 3 4 == 0 && zeroAt e 4 4 && imageAt e 56 2 < 2 ^ 13 && zeroAt e 58 6 &&
    (!tidValid e || (tidFmt e < 13 && 1 ≤ tidRank e && tidRank e ≤ 4 &&
      (imageAt e 2 1 == 0 || (4 ≤ imageAt e 2 1 && imageAt e 2 1 ≤ 8)) && (tidFmt e != 12 || imageAt e 2 1 == 5) &&
      dims && tidBase e < 2 ^ 56))

/-- Address of the entry of identifier `i` of a context. -/
def tidAddress (s : State) (ctx i : Nat) : Nat := field (reg (ctxOf s ctx) 0x1880) 6 50 * 64 + 64 * i

/-- A core's cache of tensor entries without its `n`th. -/
def tidEvict (k : Core) (n : Nat) : Core :=
  if n < k.tids.length then { k with tids := k.tids.eraseIdx n }
  else { k with otherTids := k.otherTids.eraseIdx (n - k.tids.length) }

/-- Enter an identifier of the slice's context into the core's cache of 64; which entry leaves a full one is open
(assumption 2). -/
def tidInsert (s : State) (i : Nat) (e : List Byte) : State :=
  let k := myCore s
  if (find k.tids i).isSome || k.tids.length + k.otherTids.length < 64 then
    onCore s s.curCore fun k => { k with tids := put k.tids i e }
  else
    let (w, s) := drawWord s
    onCore s s.curCore fun k =>
      let k := tidEvict k (w.toNat % 64)
      { k with tids := put k.tids i e }

/-- The entry of an identifier, from the cache or its table: V = 0 is TID_INVALID. -/
def tidEntry (s : State) (i : Nat) : Act (List Byte × State) := do
  let (e, s) ← match find (myCore s).tids i with
    | some e => pure (e, s)
    | none => do
      let (e, s) ← loadBytes s 0 (word (tidAddress s (myCtx s) i)) 64
      pure (e, tidInsert s i e)
  if tidValid e then return (e, s) else stopWith 0x95

/-- Where element (x0, x1) of a tensor lies; one outside device virtual memory has no place. -/
def tensorCell (e : List Byte) (x0 x1 : Nat) : Cell :=
  let w := tidBits (tidFmt e)
  let n := x0 * tidStride e 0 + x1 * tidStride e 1
  let a : Int := tidBase e + (n * w) / 8
  ⟨if 0 ≤ a && a < 2 ^ 56 then word a.toNat else word (2 ^ 56), w == 4 && n % 2 == 1⟩
/-- Whether (x0, x1) lies inside DIM0 and DIM1. -/
def tensorInside (e : List Byte) (x0 x1 : Nat) : Bool := x0 < tidDim e 0 && x1 < tidDim e 1

/-! ### Scales and codebooks (R147, R201, R202) -/

/-- The value of an S10 code. -/
def s10Value (v : Nat) : FVal :=
  if v / 4 == 255 then .nan false true
  else if v == 0 then .num false 0 0
  else .num false (4 + v % 4) ((v / 4 : Int) - 129)
/-- A product with a scale: a NaN scale sets NV. -/
def scaled (x : FExact) (v : Nat) : FExact :=
  let r := mulExact x.1 (s10Value v)
  (r.1, x.2 ||| r.2 ||| flagIf (v / 4 == 255) flagNV)
/-- An entry of scale memory. -/
def scaleAt (k : Core) (i : Nat) : Nat := (look 0 k.scales i).toNat

/-- Weight `n` of a codebook index with its table (R202). -/
def codeWeight (table : List Byte) (index n : Nat) : FVal :=
  let row := imageAt table (4 * (index / 256)) 4
  let negs := (below 7 fun i => flag index (i + 1)).length
  let neg := if n < 7 then flag index (n + 1) else negs % 2 == 1
  let m := 2 * field row (4 * n) 4 + index % 2
  .num (neg && m != 0) m (-1)

/-! ### Products (R208, R209, R362, R363) -/

/-- Whether a product type is the integer one. -/
def typeInt (ty : Nat) : Bool := ty == 0
/-- Width of A of a product type (Table 16.2). -/
def typeBitsA (ty : Nat) : Nat := if [4, 5, 6, 9, 10].contains ty then 16 else 8
/-- Width of B of a product type. -/
def typeBitsB (ty : Nat) : Nat := if ty == 9 || ty == 10 then 4 else if 4 ≤ ty && ty ≤ 8 then 16 else 8
/-- A tile element of A as a value. -/
def valueA (ty v : Nat) : FVal :=
  match ty with
  | 0 | 7 => let x := signed 8 v; .num (x < 0) x.natAbs 0
  | 1 | 3 | 8 => fval f8e4 v
  | 2 => fval f8e5 v
  | 5 => fval f16 v
  | _ => fval b16 v
/-- A tile element of B as a value; the codebook types are decoded apart. -/
def valueB (ty v : Nat) : FVal :=
  match ty with
  | 0 => let x := signed 8 v; .num (x < 0) x.natAbs 0
  | 1 => fval f8e4 v
  | 2 | 3 => fval f8e5 v
  | 5 => fval f16 v
  | 9 => let x := signed 4 v; .num (x < 0) x.natAbs 0
  | 10 => fval f4 v
  | _ => fval b16 v

/-- Row `r` of A in tile `t`: 64 values. -/
def rowValues (k : Core) (p : Product) (t r : Nat) : List FVal :=
  (List.range 64).map fun c => valueA p.ty (tileElem k t p.shapeA r c)
/-- Column `j` of B in tile `t`: 64 values. -/
def colValues (k : Core) (p : Product) (t j : Nat) : List FVal :=
  (List.range 64).map fun r =>
    if p.ty == 7 || p.ty == 8 then codeWeight p.table (tileElem k t p.shapeB (r / 8) j) (r % 8)
    else valueB p.ty (tileElem k t p.shapeB r j)

/-- The exact products of a row and a column, with the scales of the column's two halves. -/
def termsOf (p : Product) (j : Nat) (a b : List FVal) : List FExact :=
  ((a.zip b).zipIdx).map fun ((x, y), i) =>
    let r := mulExact x y
    match p.scales with
    | some es => scaled r (es.getD (2 * j + i / 32) 0)
    | none => r

/-- An exact sum of terms with a lane: a NaN among them decides before two infinities meet. -/
def sumExact (lane : FVal) (ts : List FExact) : FExact :=
  let flags := ts.foldl (fun f t => f ||| t.2) 0
  if isNan lane || ts.any fun t => isNan t.1 then (.nan false true, flags)
  else ts.foldl (fun a t => let r := addExact 0 a.1 t.1; (r.1, a.2 ||| r.2)) (lane, flags)

/-- A lane of INT36 with the products added, clamped. -/
def intLane (lane : Nat) (ts : List FExact) : FRes :=
  let x := ts.foldl (fun a t => match t.1 with
    | .num s m _ => if s then a - (m : Int) else a + m
    | _ => a) (signed 36 lane)
  let (v, f) := narrowInt 36 true true x
  ⟨v, f⟩
/-- A lane with the products added and rounded once (R208). -/
def addLane (ty lane : Nat) (ts : List FExact) : FRes :=
  if typeInt ty then intLane lane ts else roundExact a36 0 (sumExact (fval a36 lane) ts)

/-- The tile pairs of a product in their order: three for the f32 type (R209). -/
def passesOf (p : Product) : List (Nat × Nat) :=
  if p.ty == 6 then [(p.ta + 1, p.tb), (p.ta, p.tb + 1), (p.ta, p.tb)] else [(p.ta, p.tb)]

/-- Lane (r, j) of an accumulator after the passes of a product. -/
def lanePasses (k : Core) (p : Product) (r j lane : Nat) : FRes :=
  (passesOf p).foldl (fun a (x, y) =>
    let v := addLane p.ty a.bits (termsOf p j (rowValues k p x r) (colValues k p y j))
    ⟨v.bits, a.flags ||| v.flags⟩) ⟨lane, 0⟩

/-- A lane of an accumulator. -/
def laneOf (k : Core) (acc r j : Nat) : Nat := (look 0 k.acc (4096 * acc + 64 * r + j)).toNat
/-- Every lane of an accumulator zero. -/
def zeroAcc (k : Core) (acc : Nat) : Core := { k with acc := k.acc.filter fun p => p.1 / 4096 != acc }
/-- Every lane of row group `grp` of an accumulator zero. -/
def zeroGroup (k : Core) (acc grp : Nat) : Core := { k with acc := k.acc.filter fun p => p.1 / 512 != 8 * acc + grp }

/-- Bit `n` of a status byte set or cleared. -/
def statusBit (v : BitVec 8) (n : Nat) (b : Bool) : BitVec 8 := BitVec.ofNat 8 (setField v.toNat n 1 (bit01 b))

/-- A product starts: its accumulator is valid and in flight, and takes its mode if it had none, or by MMAZ, which
clears D too (R146, R363). -/
def startProduct (k : Core) (p : Product) (zero : Bool) : Core :=
  { k with
    accV := statusBit k.accV p.acc true
    accF := statusBit k.accF p.acc true
    accD := if zero then statusBit k.accD p.acc false else k.accD
    accM := if p.zeroing then statusBit k.accM p.acc (!typeInt p.ty) else k.accM }

/-- Row group `grp` of a product accumulated, with the flags (R363). -/
def rowGroup (k : Core) (p : Product) (grp : Nat) : Core × Flags :=
  let k0 := if p.zeroing then zeroGroup k p.acc grp else k
  ((cellsOf (shapeRows p.shapeA) (shapeCols p.shapeB)).filter fun c => c.1 / 8 == grp).foldl
    (fun (q : Core × Flags) (r, j) =>
      let v := lanePasses k0 p r j (laneOf k0 p.acc r j)
      ({ q.1 with acc := put q.1.acc (4096 * p.acc + 64 * r + j) (BitVec.ofNat 36 v.bits) }, q.2 ||| v.flags)) (k0, 0)

/-- A product's last row group is accumulated: its accumulator is dirty and no longer in flight (R146). -/
def endProduct (k : Core) (p : Product) : Core :=
  { k with accD := statusBit k.accD p.acc true, accF := statusBit k.accF p.acc false }

/-- A whole product, with the flags. -/
def multiply (k : Core) (p : Product) (zero : Bool) : Core × Flags :=
  let (k, f) := (List.range 8).foldl (fun (q : Core × Flags) g =>
    let r := rowGroup q.1 p g
    (r.1, q.2 ||| r.2)) (startProduct k p zero, 0)
  (endProduct k p, f)

/-- The tile registers a product type reads from a pair of names. -/
def tilesUsed (ty ta tb : Nat) : List Nat := if ty == 6 then [ta, ta + 1, tb, tb + 1] else [ta, tb]

/-- The tiles that the running nests, and the products in progress, of the executing core use. -/
def busyTiles (k : Core) : List Nat :=
  (k.engines.flatMap fun (_, e) => match e.nest with
    | some n => tilesUsed n.type (field (nestReg n.regs 0x100) 12 4) (field (nestReg n.regs 0x100) 8 4)
    | none => []) ++
  k.streams.flatMap fun (_, st) => match st.mma with
    | some p => tilesUsed p.ty p.ta p.tb
    | none => []

/-- The S10 entries that a product of `cols` columns uses from an index on, two for each column; an index below 0, which
the spec does not name, is out of range too (assumption 62, DEDUCED). -/
def scaleSpan (k : Core) (base : Int) (cols : Nat) : Act (List Nat) :=
  if base < 0 || 8192 < base + 2 * cols then stopWith 0x96
  else .ok ((List.range (2 * cols)).map fun i => scaleAt k (base.toNat + i))

/-- The checks of a product of a type on tiles, shapes being those of `k`, with the scales it uses (R146, R362, R363).
-/
def openProduct (s : State) (k : Core) (ty ta tb shapeA shapeB acc : Nat) (scale : Option Int) (zero : Bool) :
    Act Product :=
  if !zero && k.accV.getLsbD acc && k.accM.getLsbD acc == typeInt ty then stopWith 0x97
  else if (myCore s).accF.getLsbD acc then .error (.wait (.cause 11))
  else if ty == 6 && (ta % 2 == 1 || tb % 2 == 1 || tileShape k (ta + 1) != shapeA || tileShape k (tb + 1) != shapeB) then
    stopWith 0x09
  else if shapeBits shapeA != typeBitsA ty || shapeBits shapeB != typeBitsB ty then stopWith 0x09
  else
    let p := fun es => (⟨ty, ta, tb, shapeA, shapeB, es, [], acc, zero || !k.accV.getLsbD acc⟩ : Product)
    match scale with
    | some base => (scaleSpan k base (shapeCols shapeB)).map fun es => p (some es)
    | none => .ok (p none)

/-- The codebook table a product decodes with, if its type uses one, from the codebook base. -/
def readTable (s : State) (ty base n : Nat) : Act (List Byte × State) :=
  if ty == 7 || ty == 8 then
    let o := base * 1024 + 1024 * n
    loadCs s o 1024 (csAddress o)
  else .ok ([], s)

/-- Accumulate a whole product, its flags set in the issuing stream. -/
def accumulate (s : State) (p : Product) (zero : Bool) : State :=
  let (k, f) := multiply (myCore s) p zero
  setFlags (setCore s s.curCore k) f

end Sys2Proof.Machine
end

