-- ==== Sys2Proof/Machine/Matrix.lean ====
section
/-! DEFINITION. The TILE group: tile loads and stores, products, accumulator moves, scale loads, starting a nest, and
tensor identifiers (16 R359-R370). -/

namespace Sys2Proof.Machine

/-- The instruction waits while a nest of its own engine runs (R370), traced as cause 10. -/
def waitNest (s : State) : Act Unit := if nestRunning s then .error (.wait (.cause 10)) else .ok ()
/-- A tile load or store waits while a nest or a product uses a tile it names (R360), traced as cause 11. -/
def waitTiles (s : State) (ts : List Nat) : Act Unit :=
  if ts.any (busyTiles (myCore s)).contains then .error (.wait (.cause 11)) else .ok ()

/-! ### TLD and TST (R360, R361) -/

/-- Whether a tensor format suits a load type and a tile width (R360). -/
def tidSuits (ty bits fmt : Nat) : Bool :=
  match ty, bits with
  | 0, 4 => fmt == 0 || fmt == 5
  | 0, 8 => [1, 4, 6, 7].contains fmt
  | 0, 16 => [2, 8, 9, 12].contains fmt
  | 1, 16 => fmt == 10
  | 2, 8 => fmt == 11
  | _, _ => false

/-- The tile number of a TLD or TST. -/
def tileOf (f : EFields) : Nat := f.n12.toNat % 16
/-- Stored width of an element. -/
def storedBits (ty bits : Nat) : Nat := match ty with
  | 1 => 32
  | 2 => 64
  | _ => bits

/-- The cells of a tile in the address form. -/
def addressCells (s : State) (f : EFields) (shape ty : Nat) : Act (List (Nat × Nat × Option Cell)) := do
  let ea ← readGQ s f.a
  let b ← readGQ s f.b
  let w := storedBits ty (shapeBits shape)
  let rows := shapeRows shape
  let cols := shapeCols shape
  let skew := flag f.opt.toNat 4
  let col := flag f.opt.toNat 5
  let cs := eaSpace ea == 0x80 && field ea.toNat 27 29 == 0
  let pitch := if f.b == 0 then ((if col then rows else cols) * w + 7) / 8 else b.toNat
  if (skew && (!cs || field ea.toNat 0 12 != 0 || f.b != 0 || ty == 2)) || (col && !cs) then stopWith 0x09
  else
    return (cellsOf rows cols).map fun (i, j) =>
      let (x, y) := if col then (j, i) else (i, j)
      (i, j, some (if skew then skewedCell ea w x y else linearCell ea pitch w x y))

/-- The cells of a tile in the tensor form; none for an element outside the tensor. -/
def tensorCells (s : State) (f : EFields) (shape ty : Nat) : Act (List (Nat × Nat × Option Cell) × State) := do
  let id ← readGQ s f.a
  let at_ ← readGQ s f.b
  if 4096 ≤ id.toNat || 16 ≤ f.opt.toNat then stopWith 0x09
  else
    let (e, s) ← tidEntry s id.toNat
    if !tidSuits ty (shapeBits shape) (tidFmt e) then stopWith 0x09
    else
      let r0 := field at_.toNat 0 32
      let c0 := field at_.toNat 32 32
      return ((cellsOf (shapeRows shape) (shapeCols shape)).map fun (i, j) =>
        (i, j, if tensorInside e (c0 + j) (r0 + i) then some (tensorCell e (c0 + j) (r0 + i)) else none), s)

/-- The cells of a TLD or TST. -/
def tileCells (s : State) (f : EFields) (shape ty : Nat) : Act (List (Nat × Nat × Option Cell) × State) :=
  if flag f.n12.toNat 4 then tensorCells s f shape ty else (addressCells s f shape ty).map fun c => (c, s)

/-- The two b16 of an f32, with the flags of both conversions (R204-R206, R209). -/
def splitF32 (x : Nat) : Nat × Nat × Flags :=
  let hi := fconvert b16 0 (fval f32 x)
  let d := fsubR f32 0 x (hi.bits * 2 ^ 16)
  let lo := fconvert b16 0 (fval f32 d.bits)
  (hi.bits, lo.bits, hi.flags ||| d.flags ||| lo.flags)

/-- The two tiles of a split load filled, with its flags. -/
def fillSplit (s : State) (t : Nat) (vs : List (Nat × Nat × Nat)) : State :=
  vs.foldl (fun s c =>
    let (hi, lo, fl) := splitF32 c.2.2
    setFlags (onCore s s.curCore fun k => setTile (setTile k t c.1 c.2.1 hi) (t + 1) c.1 c.2.1 lo) fl) s

/-- X of R361: x · 2^(53 − e) rounded to nearest and clamped, with SAT; a NaN's value is not stated and is free. -/
def sliceInt (free x : Nat) (e : Int) : Int × Flags :=
  let top : Int := 2 ^ 55 - 1
  match fval f64 x with
  | .nan _ _ => (signed 56 free, 0)
  | .inf s => (if s then -top else top, flagSAT)
  | .num s m q =>
    let r : Int := (roundTo 0 s m (q + 53 - e) 0).1
    let y := if s then -r else r
    if y < -top then (-top, flagSAT) else if top < y then (top, flagSAT) else (y, 0)

/-- Slice `d` of 7, 1 the most significant (R211). -/
def sliceOf (z : Int) (d : Nat) : Nat :=
  let rec down : Nat → Int → Int
    | 0, z => z
    | k + 1, z => down k ((z - signed 8 (unsigned 8 z)) / 256)
  unsigned 8 (down (7 - d) z)

/-- The exponent vector of a slice load: `n` i16 elements from a core-store offset. -/
def readExponents (s : State) (o : Nat) : Nat → Act (List Int × State)
  | 0 => .ok ([], s)
  | n + 1 => do
    let (bs, s) ← loadCs s o 2 (csAddress o)
    let (es, s) ← readExponents s (o + 2) n
    return (signed 16 (fromBytes bs) :: es, s)

/-- The seven slice tiles of loaded f64 elements, written with their SAT flag. -/
def fillSlices (s : State) (t : Nat) (side : Bool) (es : List Int) : List (Nat × Nat × Nat) → State
  | [] => s
  | (i, j, v) :: rest =>
    let e := es.getD (if side then j else i) 0
    let (w, s) := if isNan (fval f64 v) && e != 0x7FFF then drawWord s else (0, s)
    let (x, fl) := if e == 0x7FFF then (0, 0) else sliceInt w.toNat v e
    let s := onCore s s.curCore fun k =>
      (List.range 7).foldl (fun k d => setTile k (t + d) i j (sliceOf x (d + 1))) k
    fillSlices (setFlags s fl) t side es rest

/-- The shape of tile `t` copied to the `n` tiles after it. -/
def copyShape (k : Core) (t n shape : Nat) : Core :=
  { k with tshp := (List.range n).foldl (fun m i => put m (t + 1 + i) (BitVec.ofNat 32 shape)) k.tshp }

/-- TLD. -/
def execTld (f : EFields) (s : State) : Host.Outcome State Fault Refusal :=
  guarded s 8 do
    let t := tileOf f
    let ty := f.opt.toNat % 16
    let shape := tileShape (issueCore s) t
    let bits := shapeBits shape
    waitNest s
    if (ty == 1 && (t % 2 == 1 || bits != 16)) || (ty == 2 && ((t != 0 && t != 8) || bits != 8)) then stopWith 0x09
    else
      let extra := match ty with
        | 1 => 1
        | 2 => 6
        | _ => 0
      waitTiles s ((List.range (extra + 1)).map (t + ·))
      let (cells, s) ← tileCells s f shape ty
      let (vs, bad, s) ← readCells s 4 (storedBits ty bits) cells
      let s := reportPoison s bad
      match ty with
      | 1 =>
        return onCore (fillSplit s t vs) s.curCore fun k => copyShape k t 1 shape
      | 2 => do
        let o ← readGQ s f.dst
        let side := flag f.n12.toNat 5
        let (es, s) ← readExponents s o.toNat (if side then shapeCols shape else shapeRows shape)
        return onCore (fillSlices s t side es vs) s.curCore fun k => copyShape k t 6 shape
      | _ => return onCore s s.curCore fun k => fillTile k t vs

/-- TST. -/
def execTst (f : EFields) (s : State) : Host.Outcome State Fault Refusal :=
  guarded s 8 do
    let t := tileOf f
    let shape := tileShape (issueCore s) t
    waitNest s
    waitTiles s [t]
    let (cells, s) ← tileCells s f shape 0
    writeCells4 s 5 (shapeBits shape) t cells

/-! ### MMA and MMAZ (R362, R363) -/

/-- The checks of a product of the issuing engine at its issue. -/
def beginProduct (f : EFields) (s : State) (zero : Bool) : Act (Product × State) := do
  let ty := f.opt.toNat % 16
  let ta := field f.n12.toNat 3 4
  let tb := field f.n12.toNat 7 4
  waitNest s
  let book ← if ty == 7 || ty == 8 then readGQ s f.a else pure 0
  let c ← if flag f.opt.toNat 4 then (readGQ s f.b).map fun v => some v.toNat else pure none
  let k := issueCore s
  let p ← openProduct s k ty ta tb (tileShape k ta) (tileShape k tb) (f.n12.toNat % 8)
    (c.map fun v => ((k.scbase.toNat + v : Nat) : Int)) zero
  if 256 ≤ book.toNat then stopWith 0x09
  else
    let (table, s) ← readTable s ty k.cbook.toNat book.toNat
    return ({ p with table := table }, s)

/-- The next row group of a product in progress: PROGRESS counts eight for each, and after the eighth the instruction
ends; a stop falls between two of them (R363). -/
def productStep (s : State) (p : Product) : State :=
  let g := (me s).progress / 8
  let (k, fl) := rowGroup (myCore s) p g
  let s := setFlags (setCore s s.curCore k) fl
  if g < 7 then
    onMe (onCore s s.curCore fun k => { k with accF := statusBit k.accF p.acc true }) fun st =>
      { keepIssue s.guard.pulse k st with progress := 8 * (g + 1), mma := some p }
  else finish (onCore s s.curCore fun k => endProduct k p) 8 none

/-- A product of the issuing engine: the checks at its issue, then eight row groups, one at each of its issues. -/
def product (f : EFields) (s : State) (zero : Bool) : Host.Outcome State Fault Refusal :=
  if !guardHolds s then skip s 8
  else match (me s).mma with
    | some p => .next (productStep s p)
    | none => match beginProduct f s zero with
      | .error e => .next (trapState s e)
      | .ok (p, t) =>
        if itemsOver s t then .next (hold s (.cause 4))
        else
          let t := onMe (traceWait t (me t)) fun st => { st with waiting := none }
          .next (productStep (onCore t t.curCore fun k => startProduct k p zero) p)

/-- MMA. -/
def execMma (f : EFields) (s : State) : Host.Outcome State Fault Refusal := product f s false
/-- MMAZ. -/
def execMmaz (f : EFields) (s : State) : Host.Outcome State Fault Refusal := product f s true

/-! ### ACCZ, ACCMOV, SCLD (R364, R365, R367) -/

/-- ACCZ. -/
def execAccz (f : EFields) (s : State) : Host.Outcome State Fault Refusal :=
  guarded s 8 do
    let a := f.n12.toNat % 8
    waitNest s
    if (myCore s).accF.getLsbD a then .error (.wait (.cause 11))
    else return onCore s s.curCore fun k => { zeroAcc k a with
      accV := statusBit k.accV a true, accD := statusBit k.accD a false
      accM := statusBit k.accM a (flag f.opt.toNat 0) }

/-- A lane's value as a number. -/
def laneValue (a36Mode : Bool) (lane : Nat) : FVal :=
  if a36Mode then fval a36 lane else let x := signed 36 lane; .num (x < 0) x.natAbs 0

/-- The element ACCMOV writes in modes 0 to 3, in its size. -/
def laneElem (mode rm : Nat) (isFloat : Bool) (lane : Nat) : FRes :=
  match mode with
  | 0 => ⟨if isFloat then lane else unsigned 64 (signed 36 lane), 0⟩
  | 1 =>
    if isFloat then
      let (x, fl) := toInteger rm 32 true (fval a36 lane)
      ⟨unsigned 32 x, fl⟩
    else
      let (v, fl) := narrowInt 32 true true (signed 36 lane)
      ⟨v, fl⟩
  | m => fconvert (if m == 2 then f32 else b16) rm (laneValue isFloat lane)

/-- Size of an ACCMOV element. -/
def moveBytes : Nat → Nat
  | 1 | 2 => 4
  | 3 => 2
  | _ => 8

/-- f64(old + lane · 2^w) under RNE. -/
def addScaled (old lane : Nat) (w : Int) : FRes :=
  let x := signed 36 lane
  roundExact f64 0 (addExact 0 (fval f64 old) (.num (x < 0) x.natAbs w))

/-- The final scaling of mode 5: f64(v · 2^(ea + eb − 106)), the canonical NaN with NV for a marked row or column. -/
def finalScale (v : Nat) (ea eb : Int) : FRes :=
  if ea == 0x7FFF || eb == 0x7FFF then ⟨(canonNan f64 false).bits, flagNV⟩
  else roundExact f64 0 (mulExact (fval f64 v) (.num false 1 (ea + eb - 106)))

/-- Write the lanes of an accumulator, one element after another. -/
def moveEach (s : State) (ea : Word) (pitch z : Nat) (elem : State → Nat → Nat → Word → Act (FRes × State)) :
    List (Nat × Nat) → Act State
  | [] => .ok s
  | (i, j) :: rest => do
    let a := ea + word (i * pitch + j * z)
    let (r, s) ← elem s i j a
    let s ← storeBytes (setFlags s r.flags) 1 a (toBytes z r.bits)
    moveEach s ea pitch z elem rest

/-- Write the lanes of an accumulator. -/
def moveLanes (s : State) (ea : Word) (pitch z : Nat) (elem : State → Nat → Nat → Word → Act (FRes × State))
    (lanes : List (Nat × Nat)) : Act State :=
  (moveEach s ea pitch z elem lanes).map fun s =>
    cleanCells s 1 (8 * z) (lanes.map fun (i, j) => ⟨ea + word (i * pitch + j * z), false⟩)

/-- ACCMOV. -/
def execAccmov (f : EFields) (s : State) : Host.Outcome State Fault Refusal :=
  guarded s 8 do
    let mode := f.opt.toNat
    let acc := f.n12.toNat % 8
    waitNest s
    let ea ← readGQ s f.a
    let b ← readGQ s f.b
    let d ← readGQ s f.dst
    let z := moveBytes mode
    let pitch := if f.b == 0 then 64 * z else b.toNat
    let k := myCore s
    let valid := k.accV.getLsbD acc
    let isFloat := valid && k.accM.getLsbD acc
    let lane := fun i j => if valid then laneOf k acc i j else 0
    let rm := roundingMode s
    if ea.toNat % z != 0 || pitch % z != 0 then stopWith 0x09
    else if mode < 4 then
      moveLanes s ea pitch z (fun s i j _ => .ok (laneElem mode rm isFloat (lane i j), s)) (cellsOf 64 64)
    else if isFloat then stopWith 0x97
    else if mode == 4 then
      let w := d.toInt
      if w < -1100 || 1100 < w then stopWith 0x09
      else moveLanes s ea pitch z (fun s i j a => do
        let (old, s) ← loadBytes s 0 a 8
        return (addScaled (fromBytes old) (lane i j) w, s)) (cellsOf 64 64)
    else if field d.toNat 27 5 != 0 || field d.toNat 59 5 != 0 then stopWith 0x09
    else
      let (eas, s) ← readExponents s (field d.toNat 0 27) 64
      let (ebs, s) ← readExponents s (field d.toNat 32 27) 64
      moveLanes s ea pitch z (fun s i j a => do
        let (old, s) ← loadBytes s 0 a 8
        let x := addScaled (fromBytes old) (lane i j) 96
        let y := finalScale x.bits (eas.getD i 0) (ebs.getD j 0)
        return (⟨y.bits, x.flags ||| y.flags⟩, s)) (cellsOf 64 64)

/-- Scale entries from bytes, written from an index on. -/
def putScales (m : Map (BitVec 10)) (i : Nat) : List Nat → Map (BitVec 10)
  | [] => m
  | v :: rest => putScales (put m i (BitVec.ofNat 10 v)) (i + 1) rest

/-- SCLD. -/
def execScld (f : EFields) (s : State) : Host.Outcome State Fault Refusal :=
  guarded s 8 do
    let first ← readGQ s f.dst
    let ea ← readGQ s f.a
    let count ← readGQ s f.b
    let n := count.toNat
    if n == 0 then return s
    else if 8192 < first.toNat + n then stopWith 0x96
    else
      let (bs, s) ← loadUnits s 0 ea (2 * n)
      let vs := (List.range n).map fun i => imageAt bs (2 * i) 2
      return onCore s s.curCore fun k => { k with scales := putScales k.scales first.toNat vs }

/-! ### NESTGO (R370) -/

/-- CAST of the epilogue. -/
def castOf (r : NestRegs) : Nat := field (nestReg r 0x180) 16 4
/-- MODE of the epilogue. -/
def modeOf (r : NestRegs) : Nat := field (nestReg r 0x180) 8 2
/-- DKIND of the epilogue. -/
def kindOf (r : NestRegs) : Nat := field (nestReg r 0x180) 22 2

/-- The checks of NESTGO on the captured state; the tensor entry of a tensor delivery is read once, and the head of a
tap delivery resolved (R177). -/
def checkNest (s : State) (ty : Nat) (r : NestRegs) : Act (List Byte × Nat × State) := do
  let scl := flag (nestReg r 0x100) 18
  let cast := castOf r
  let dst := nestReg r 0x185
  if ((ty == 0 || ty == 6) && scl) || ((ty == 7 || ty == 8) && !scl) then stopWith 0x09
  else if !tyFloat cast && (modeOf r != 0 || flag (nestReg r 0x180) 5) then stopWith 0x09
  else match kindOf r with
    | 0 =>
      let (e, s) ← tidEntry s (field dst 16 12)
      let want := if modeOf r == 0 then tyCode cast else some 3
      if want == some (tidFmt e) then return (e, 0, s) else stopWith 0x95
    | 1 =>
      if modeOf r != 0 || field dst 26 2 != 0 then stopWith 0x09
      else
        let g ← namedSignal s (field dst 16 10) (some (field dst 28 12))
        if tyCode cast == some (sigFmt g.entry) then return ([], g.head, s) else stopWith 0x09
    | _ => if modeOf r == 2 then return ([], 0, s) else stopWith 0x09

/-- NESTGO: its pulse is emitted when the nest ends, so the instruction itself emits none. -/
def execNestgo (f : EFields) (s : State) : Host.Outcome State Fault Refusal :=
  let quiet := { s with guard := { s.guard with pulse := false } }
  if !guardHolds s then skip s 8
  else concludeNext quiet 8 do
    waitNest s
    let k := issueCore s
    let e := look {} k.engines (s.curStream - 2)
    let ctl := nestReg e.regs 0x100
    let (tid, head, t) ← checkNest quiet f.opt.toNat e.regs
    let (n, t) := tlTake t (myCtx s) (tlKey (s.curStream + 1) s.curCore)
    let t ← if f.dst == 0 then pure t else writeReg t f.dst (word n)
    let nest : Nest := { regs := e.regs, shapeA := BitVec.ofNat 32 (tileShape k (field ctl 12 4))
                         shapeB := BitVec.ofNat 32 (tileShape k (field ctl 8 4)), tid := tid, type := f.opt.toNat
                         modes := f.n12.toNat, number := n, pulse := s.guard.pulse, pc := (me s).pc
                         began := k.cycle, head := head, scbase := k.scbase.toNat, cbook := k.cbook.toNat }
    return onCore t t.curCore fun k => { k with engines := put k.engines (s.curStream - 2) { e with nest := some nest } }

/-! ### TIDSET and TIDINV (R368) -/

/-- TIDSET. -/
def execTidset (f : EFields) (s : State) : Host.Outcome State Fault Refusal :=
  guarded s 8 do
    let ea ← readGQ s f.a
    let id ← readGQ s f.b
    let (im, s) ← loadBytes s 0 ea 64
    if 4096 ≤ id.toNat || !tidImageOk im then stopWith 0x09
    else
      let s ← storeBytes s 1 (word (tidAddress s (myCtx s) id.toNat)) im
      return tidInsert s id.toNat im

/-- TIDINV. -/
def execTidinv (f : EFields) (s : State) : Host.Outcome State Fault Refusal :=
  guarded s 8 do
    let first ← readGQ s f.a
    let count ← readGQ s f.b
    return onCore s s.curCore fun k => { k with tids := k.tids.filter fun p =>
      count != 0 && !(first.toNat ≤ p.1 && p.1 < first.toNat + count.toNat) }

end Sys2Proof.Machine
end

