-- ==== Sys2Proof/Machine/Vector.lean ====
section
/-! DEFINITION. The vector region instructions: VSHAPE, V.ARITH, V.SFU, V.RED, V.MOVE and CSTR (15 R333-R358). -/

namespace Sys2Proof.Machine

/-! ### VSHAPE (R334) -/

/-- A count of VSHAPE: the register's value if its bit is set. -/
def shapeCount (s : State) (set : Bool) (r : BitVec 8) : Act (Option Nat × State) :=
  if set then (readReg s r).map fun (v, s) => (some v.toNat, s) else .ok (none, s)

/-- The shape state after VSHAPE. -/
def shapeCore (imm lit : Nat) (n w : Option Nat) (k : Core) : Core :=
  let sel := fun i => flag imm i
  let stride : BitVec 32 := BitVec.ofInt 32 (signed 16 (lit / 2 ^ 16))
  let vn := match n with
    | some v => setField k.vn.toNat 0 16 v
    | none => k.vn.toNat
  let vn := match w with
    | some v => setField vn 16 16 v
    | none => vn
  { k with
    vo := (below 3 sel).foldl (fun m i => put m i (BitVec.ofNat 16 lit)) k.vo
    vs := (below 3 sel).foldl (fun m i => put m i stride) k.vs
    vn := BitVec.ofNat 32 vn }

/-- VSHAPE. -/
def execVshape (f : LFields) (s : State) : Host.Outcome State Fault Refusal :=
  if guardHolds s then
    concludeNext s 12 do
      let (n, s) ← shapeCount s (flag f.imm.toNat 3) f.a
      let (w, s) ← shapeCount s (flag f.imm.toNat 4) f.b
      if 65535 < n.getD 0 || 65535 < w.getD 0 then stopWith 0x09
      else return onCore (emptySources s f.lu f.a (.reg f.b)) s.curCore (shapeCore f.imm.toNat f.lit.toNat n w)
  else skipSources s 12 f.lu f.a (.reg f.b)

/-! ### Element-wise members (R336-R341) -/

/-- The opened operands of an element-wise member. -/
structure Opened where
  d : Operand
  a : Operand
  b : Option Operand
  deriving DecidableEq, Repr

/-- Open and check the operands of an element-wise member: RA in a type of its own, RB if used, the old destination if
read. -/
def openElements (s : State) (f : VFields) (n aType : Nat) (bType : Option Nat) (useOld aIndexed dIndexed : Bool) :
    Act (Opened × State) := do
  let (a, s) ← openOperand s f.ra 1 aType
  let (b, s) ← match bType with
    | some t => (openOperand s f.rb 2 t).map fun (o, s) => (some o, s)
    | none => pure (none, s)
  let (d, s) ← openOperand s f.rd 0 f.ty.toNat
  checkFeedback d (a :: b.toList ++ (if useOld then [d] else []))
  let s ← checkSource s a n 1 aIndexed
  let s ← match b with
    | some o => checkSource s o n 1 false
    | none => pure s
  checkDest s d n dIndexed
  return (⟨d, a, b⟩, s)

/-- An element-wise member that computes one element from a, b and, where it reads it, the old destination element. -/
def elementWise (f : VFields) (s : State) (aType : Nat) (useB useOld : Bool) (op : Nat → Nat → Nat → FRes) :
    Host.Outcome State Fault Refusal :=
  let ty := f.ty.toNat
  regionInstr s [f.rd, f.ra, f.rb] ((f.ra, 1) :: if useB then [(f.rb, 1)] else []) fun s =>
    let n := vecN s
    if n == 0 then (s, none)
    else runElements s n
      (fun s => openElements s f n aType (if useB then some ty else none) useOld false false)
      (fun o j s => do
        let (a, s) ← readElem s o.a j
        let (b, s) ← match o.b with
          | some p => readElem s p j
          | none => pure (0, s)
        let (d, s) ← if useOld then readElem s o.d j else pure (0, s)
        let r := op a b d
        writeElem (setFlags s r.flags) o.d j r.bits)
      (fun o s => .ok (closeDest s o.d n))

/-- An arithmetic member: a float operation under RS, or an exact integer one. -/
def arithmetic (f : VFields) (s : State) (useB useOld : Bool) (onFloat : Fmt → Nat → Nat → Nat → Nat → FRes)
    (onInt : Int → Int → Int → Int) : Host.Outcome State Fault Refusal :=
  let t := f.ty.toNat
  elementWise f s t useB useOld fun a b d =>
    if tyFloat t then onFloat (tyFmt t) f.rs.toNat a b d
    else tyNarrow t (flag f.rs.toNat 0) (onInt (tyInt t a) (tyInt t b) (tyInt t d))

/-- VADD. -/
def execVadd (f : VFields) (s : State) : Host.Outcome State Fault Refusal :=
  arithmetic f s true false (fun m rm a b _ => faddR m rm a b) fun a b _ => a + b
/-- VSUB. -/
def execVsub (f : VFields) (s : State) : Host.Outcome State Fault Refusal :=
  arithmetic f s true false (fun m rm a b _ => fsubR m rm a b) fun a b _ => a - b
/-- VMUL. -/
def execVmul (f : VFields) (s : State) : Host.Outcome State Fault Refusal :=
  arithmetic f s true false (fun m rm a b _ => fmulR m rm a b) fun a b _ => a * b
/-- VFMA: a · b + old d, rounded once. -/
def execVfma (f : VFields) (s : State) : Host.Outcome State Fault Refusal :=
  arithmetic f s true true fmaR fun a b d => a * b + d
/-- VMAC: old d + a · b, exact, reduced once. -/
def execVmac (f : VFields) (s : State) : Host.Outcome State Fault Refusal :=
  arithmetic f s true true fmaR fun a b d => d + a * b
/-- VMIN. -/
def execVmin (f : VFields) (s : State) : Host.Outcome State Fault Refusal :=
  arithmetic f s true false (fun m _ a b _ => minMax m false a b) fun a b _ => min a b
/-- VMAX. -/
def execVmax (f : VFields) (s : State) : Host.Outcome State Fault Refusal :=
  arithmetic f s true false (fun m _ a b _ => minMax m true a b) fun a b _ => max a b
/-- VABS: a float's sign cleared, without a flag. -/
def execVabs (f : VFields) (s : State) : Host.Outcome State Fault Refusal :=
  arithmetic f s false false (fun m _ a _ _ => ⟨a % signBit m, 0⟩) fun a _ _ => a.natAbs
/-- VNEG: a float's sign flipped, without a flag. -/
def execVneg (f : VFields) (s : State) : Host.Outcome State Fault Refusal :=
  arithmetic f s false false (fun m _ a _ _ => ⟨(a + signBit m) % (2 * signBit m), 0⟩) fun a _ _ => -a

/-- An integer member on bit patterns. -/
def bitwise (f : VFields) (s : State) (op : Nat → Nat → Nat) : Host.Outcome State Fault Refusal :=
  elementWise f s f.ty.toNat true false fun a b _ => ⟨op a b, 0⟩
/-- VAND. -/
def execVand (f : VFields) (s : State) : Host.Outcome State Fault Refusal := bitwise f s (· &&& ·)
/-- VOR. -/
def execVor (f : VFields) (s : State) : Host.Outcome State Fault Refusal := bitwise f s (· ||| ·)
/-- VXOR. -/
def execVxor (f : VFields) (s : State) : Host.Outcome State Fault Refusal := bitwise f s (· ^^^ ·)

/-- VSHL: a · 2^b, b unsigned. -/
def execVshl (f : VFields) (s : State) : Host.Outcome State Fault Refusal :=
  let t := f.ty.toNat
  elementWise f s t true false fun a b _ =>
    tyNarrow t (flag f.rs.toNat 0) (tyInt t a * 2 ^ Nat.min b (tyBits t + 1))

/-- A right shift of an integer by `k`, rounded to nearest or down by RS[1], in a type under RS[0] (R337). -/
def shiftRight (t rs : Nat) (x : Int) (k : Nat) : FRes :=
  let floor := flag rs 1
  let y : Int := if tyBits t ≤ k then (if floor && x < 0 then -1 else 0) else roundInt (if floor then 2 else 0) x k
  tyNarrow t (flag rs 0) y
/-- VSHR: unsigned a. -/
def execVshr (f : VFields) (s : State) : Host.Outcome State Fault Refusal :=
  let t := f.ty.toNat
  elementWise f s t true false fun a b _ => shiftRight t f.rs.toNat a b
/-- VSRA: signed a. -/
def execVsra (f : VFields) (s : State) : Host.Outcome State Fault Refusal :=
  let t := f.ty.toNat
  elementWise f s t true false fun a b _ => shiftRight t f.rs.toNat (signed (tyBits t) a) b

/-- A conversion between types (R206, R339). -/
def convertType (src dst rs v : Nat) : FRes :=
  if tyFloat dst then
    if tyFloat src then fconvert (tyFmt dst) rs (fval (tyFmt src) v) else ofInteger (tyFmt dst) rs (tyInt src v)
  else if tyFloat src then
    let (x, fl) := toInteger (if flag rs 1 then 2 else 0) (tyBits dst) (tySigned dst) (fval (tyFmt src) v)
    ⟨unsigned (tyBits dst) x, fl⟩
  else tyNarrow dst (flag rs 0) (tyInt src v)

/-- VCVT: the source type is the one RB names. -/
def execVcvt (f : VFields) (s : State) : Host.Outcome State Fault Refusal :=
  let src := f.rb.toNat / 4 - 0xF0
  elementWise f s src false false fun a _ _ => convertType src f.ty.toNat f.rs.toNat a

/-- VSEL: a where the old bits of d are not all zero, else b. -/
def execVsel (f : VFields) (s : State) : Host.Outcome State Fault Refusal :=
  elementWise f s f.ty.toNat true true fun a b d => ⟨if d != 0 then a else b, 0⟩

/-- Whether a condition of VCMP holds, with its flag (R340). -/
def vectorCond (t rs a b : Nat) : Bool × Flags :=
  if tyFloat t then
    let x := fval (tyFmt t) a
    let y := fval (tyFmt t) b
    let (r, nv) := floatCond (if rs == 3 then 4 else rs) x y
    (r, flagIf nv flagNV ||| signalFlag x ||| signalFlag y)
  else
    let x := tyInt t a
    let y := tyInt t b
    (match rs with
      | 0 => x == y
      | 1 => x != y
      | 2 => x < y
      | _ => x ≤ y, 0)

/-- VCMP: all ones where the condition holds, else zeros. -/
def execVcmp (f : VFields) (s : State) : Host.Outcome State Fault Refusal :=
  let t := f.ty.toNat
  elementWise f s t true false fun a b _ =>
    let (r, fl) := vectorCond t f.rs.toNat a b
    ⟨if r then 2 ^ tyBits t - 1 else 0, fl⟩

/-- A special function in f32, rounded to the type (R341). -/
def special (f : VFields) (s : State) (fn : Nat → FRes) : Host.Outcome State Fault Refusal :=
  let t := f.ty.toNat
  elementWise f s t false false fun a _ _ =>
    let x := toF32 t a
    let v := fn x.bits
    let r := fromF32 t f.rs.toNat v.bits
    ⟨r.bits, x.flags ||| v.flags ||| r.flags⟩
/-- VRCP. -/
def execVrcp (f : VFields) (s : State) : Host.Outcome State Fault Refusal := special f s recip
/-- VRSQ. -/
def execVrsq (f : VFields) (s : State) : Host.Outcome State Fault Refusal := special f s recipSqrt
/-- VEXP. -/
def execVexp (f : VFields) (s : State) : Host.Outcome State Fault Refusal := special f s fun x => exp2R 2 x 14
/-- VLOG. -/
def execVlog (f : VFields) (s : State) : Host.Outcome State Fault Refusal := special f s log2R
/-- VTANH. -/
def execVtanh (f : VFields) (s : State) : Host.Outcome State Fault Refusal := special f s tanhR

/-! ### Reductions (R342-R345) -/

/-- Where a reduction writes: a register, or element 0 of a region. -/
inductive Result where
  | reg (r : BitVec 8)
  | region (o : Operand)
  deriving DecidableEq, Repr

/-- Open a reduction's destination. -/
def openResult (s : State) (f : VFields) : Act (Result × State) :=
  if regionKind f.rd == 3 then .ok (.reg (regionSpec f.rd), s)
  else do
    let (o, s) ← openOperand s f.rd 0 f.ty.toNat
    checkDest s o 1 false
    return (.region o, s)

/-- Write a reduction's result. -/
def putResult (s : State) (t : Nat) (r : Result) (v : Nat) : Act State :=
  match r with
  | .reg r => writeReg s r (if tyFloat t then word v else BitVec.ofInt 64 (tyInt t v))
  | .region o => do
    let s ← writeElem s o 0 v
    return closeDest s o 1

/-- The region part of a result, for the feedback check. -/
def checkResult (r : Result) (srcs : List Operand) : Act Unit :=
  match r with
  | .region o => checkFeedback o srcs
  | .reg _ => .ok ()

/-- A reduction of RA: `whole` turns its values into the result; `part` is the running value of whole groups. -/
def reduction (f : VFields) (s : State) (part : List Nat → Nat) (whole : List Nat → FRes) :
    Host.Outcome State Fault Refusal :=
  let t := f.ty.toNat
  regionInstr s [f.rd, f.ra, f.rb] [(f.ra, 1)] fun s =>
    let n := vecN s
    runGathered s n 1
      (fun s => do
        let (a, s) ← openOperand s f.ra 1 t
        let (r, s) ← openResult s f
        checkResult r [a]
        let s ← checkSource s a n 1 false
        return ((a, r), s))
      (fun p j s => (readElem s p.1 j).map fun (v, s) => ([word v], s))
      (some part)
      (fun p vs s =>
        let r := whole vs
        putResult (setFlags s r.flags) t p.2 r.bits)

/-- An exact integer sum of elements. -/
def sumInts (t : Nat) (vs : List Nat) : Int := (vs.map (tyInt t)).sum
/-- The f32 values of elements, and the flags of converting them. -/
def f32Values (t : Nat) (vs : List Nat) : List Nat × Flags :=
  let rs := vs.map (toF32 t)
  (rs.map (·.bits), rs.foldl (fun a r => a ||| r.flags) 0)

/-- A NaN that arithmetic in f32 returns is the canonical one and positive, that of one value included (R205). -/
def settleNan (r : FRes) : FRes := if isNan (fval f32 r.bits) then ⟨(canonNan f32 false).bits, r.flags⟩ else r

/-- The sum of elements in a type (R343). -/
def sumElems (t rs : Nat) (vs : List Nat) : FRes :=
  if tyFloat t then
    let (xs, f1) := f32Values t vs
    let a := settleNan (sumF32 rs xs)
    let r := fromF32 t rs a.bits
    ⟨r.bits, f1 ||| a.flags ||| r.flags⟩
  else tyNarrow t (flag rs 0) (sumInts t vs)

/-- The running value of a sum, as PARTIAL keeps it. -/
def sumPart (t rs : Nat) (vs : List Nat) : Nat :=
  if tyFloat t then (sumF32 rs (f32Values t vs).1).bits else unsigned 256 (sumInts t vs)

/-- VSUM. -/
def execVsum (f : VFields) (s : State) : Host.Outcome State Fault Refusal :=
  let t := f.ty.toNat
  reduction f s (sumPart t f.rs.toNat) (sumElems t f.rs.toNat)

/-- The lowest value of a type (R342). -/
def lowest (t : Nat) : Nat :=
  if tyFloat t then withSign (tyFmt t) true (infCode (tyFmt t)) else if tySigned t then 2 ^ (tyBits t - 1) else 0

/-- The maximum of elements (R343): NaN elements are skipped. -/
def maxElems (t : Nat) (vs : List Nat) : FRes :=
  if tyFloat t then
    let m := tyFmt t
    match vs with
    | [] => ⟨lowest t, 0⟩
    | v :: rest =>
      let r := rest.foldl (fun a b =>
        let c := minMax m true a.bits b
        ⟨c.bits, a.flags ||| c.flags⟩) (⟨v, signalFlag (fval m v)⟩ : FRes)
      if isNan (fval m r.bits) then ⟨(canonNan m false).bits, r.flags⟩ else r
  else
    ⟨vs.foldl (fun a b => if tyInt t a < tyInt t b then b else a) (lowest t), 0⟩

/-- VMAXR. -/
def execVmaxr (f : VFields) (s : State) : Host.Outcome State Fault Refusal :=
  reduction f s (fun vs => (maxElems f.ty.toNat vs).bits) (maxElems f.ty.toNat)

/-- VPOPC: elements whose bits are not all zero. -/
def execVpopc (f : VFields) (s : State) : Host.Outcome State Fault Refusal :=
  let t := f.ty.toNat
  let count := fun vs : List Nat => (vs.filter (· != 0)).length
  regionInstr s [f.rd, f.ra, f.rb] [(f.ra, 1)] fun s =>
    let n := vecN s
    runGathered s n 1
      (fun s => do
        let (a, s) ← openOperand s f.ra 1 t
        let s ← checkSource s a n 1 false
        return (a, s))
      (fun a j s => (readElem s a j).map fun (v, s) => ([word v], s))
      (some count)
      (fun _ vs s => writeReg s (regionSpec f.rd) (word (count vs)))

/-! ### Dot products (R344) -/

/-- Pairs of a flat list. -/
def pairsOf : List Nat → List (Nat × Nat)
  | a :: b :: rest => (a, b) :: pairsOf rest
  | _ => []

/-- The products of pairs in f32, each rounded, with their flags. -/
def products (t rs : Nat) (ps : List (Nat × Nat)) : List Nat × Flags :=
  let one := fun (p : Nat × Nat) =>
    let x := toF32 t p.1
    let y := toF32 t p.2
    let r := fmulR f32 rs x.bits y.bits
    (⟨r.bits, x.flags ||| y.flags ||| r.flags⟩ : FRes)
  ((ps.map one).map (·.bits), (ps.map one).foldl (fun a r => a ||| r.flags) 0)

/-- The exact sum of integer products. -/
def dotInts (t : Nat) (ps : List (Nat × Nat)) : Int := (ps.map fun p => tyInt t p.1 * tyInt t p.2).sum

/-- A dot product in a type. -/
def dotElems (t rs : Nat) (ps : List (Nat × Nat)) : FRes :=
  if tyFloat t then
    let (xs, f1) := products t rs ps
    let a := sumF32 rs xs
    let r := fromF32 t rs a.bits
    ⟨r.bits, f1 ||| a.flags ||| r.flags⟩
  else tyNarrow t (flag rs 0) (dotInts t ps)

/-- The running value of a dot product. -/
def dotPart (t rs : Nat) (ps : List (Nat × Nat)) : Nat :=
  if tyFloat t then (sumF32 rs (products t rs ps).1).bits else unsigned 256 (dotInts t ps)

/-- The plain form. -/
def dotPlain (f : VFields) (s : State) : Run :=
  let t := f.ty.toNat
  let n := vecN s
  runGathered s n 2
    (fun s => do
      let (a, s) ← openOperand s f.ra 1 t
      let (b, s) ← openOperand s f.rb 2 t
      let (r, s) ← openResult s f
      checkResult r [a, b]
      let s ← checkSource s a n 1 false
      let s ← checkSource s b n 1 false
      return ((a, b, r), s))
    (fun (a, b, _) j s => do
      let (x, s) ← readElem s a j
      let (y, s) ← readElem s b j
      return ([word x, word y], s))
    (some fun vs => dotPart t f.rs.toNat (pairsOf vs))
    (fun (_, _, r) vs s =>
      let v := dotElems t f.rs.toNat (pairsOf vs)
      putResult (setFlags s v.flags) t r v.bits)

/-- Elements 0 to `n - 1` of a tap operand in the sample `back` before the one its lag names. -/
def readRow (s : State) (o : Operand) (back : Nat) : Nat → Nat → Act (List Nat × State)
  | 0, _ => .ok ([], s)
  | fuel + 1, j => do
    let (v, s) ← readAtIndex s o (elemIndex o j) back
    let (vs, s) ← readRow s o back fuel (j + 1)
    return (v :: vs, s)

/-- The dot product of RA's values with sample `i` of a sweep, written to destination element `i`. -/
def sweepRow (f : VFields) (b d : Operand) (vs : List Nat) (i : Nat) (s : State) : Act State := do
  let (row, s) ← readRow s b i vs.length 0
  let r := dotElems f.ty.toNat f.rs.toNat (vs.zip row)
  writeElem (setFlags s r.flags) d i r.bits

/-- The operands of the sweep form: RA, the swept tap and the destination. -/
def openSweep (f : VFields) (n count : Nat) (s : State) : Act ((Operand × Operand × Operand) × State) := do
  let t := f.ty.toNat
  if regionKind f.rd == 3 then stopWith 0x03
  let (a, s) ← openOperand s f.ra 1 t
  let (b, s) ← openOperand s f.rb 2 t
  let (d, s) ← openOperand s f.rd 0 t
  checkFeedback d [a, b]
  let s ← checkSource s a n 1 false
  let s ← checkSource s b n count false
  checkDest s d count false
  return ((a, b, d), s)

/-- The sweep form: RA is read once and kept (assumption 26), then comes a product with each sample; it stops at a
sample boundary, PROGRESS counting the samples whose element is written (R161, R357). -/
def dotSweep (f : VFields) (s : State) : Run :=
  let n := vecN s
  let count := vecSweep s
  let from_ := (me s).latch.length
  let done := (me s).progress
  match openSweep f n count s with
  | .error e => (s, some e)
  | .ok ((a, b, d), t) =>
    match gather (fun j s => (readElem s a j).map fun (v, s) => ([word v], s)) (n - from_) from_ t with
    | (u, some e) => (if isWait e then onMe u fun st => { st with cut := some 0 } else s, some e)
    | (u, none) =>
      match (if done == 0 then sweepMask u b count else .ok u) with
      | .error e => (s, some e)
      | .ok u =>
        match elements (sweepRow f b d ((me u).latch.map (·.toNat))) (count - done) done u with
        | (v, _, none) => (closeDest v d count, none)
        | (v, j, some e) =>
          if j == done && !isWait e then (s, some e) else (onMe v fun st => { st with progress := j, cut := none }, some e)

/-- VDOT. -/
def execVdot (f : VFields) (s : State) : Host.Outcome State Fault Refusal :=
  regionInstr s [f.rd, f.ra, f.rb] [(f.ra, 1), (f.rb, Nat.max 1 (vecSweep s))] fun s =>
    if vecSweep s != 0 && regionKind f.rb < 2 then dotSweep f s else dotPlain f s

/-- The running value of VSCAN after an element: its bits or exact integer, and its flags. -/
def scanStep (t rs : Nat) (first : Bool) (run : BitVec 256) (v : Nat) : BitVec 256 × FRes :=
  if tyFloat t then
    let x := toF32 t v
    let a := if first then settleNan ⟨x.bits, 0⟩ else faddR f32 rs run.toNat x.bits
    let r := fromF32 t rs a.bits
    (BitVec.ofNat 256 a.bits, ⟨r.bits, x.flags ||| a.flags ||| r.flags⟩)
  else
    let sum : Int := (if first then 0 else run.toInt) + tyInt t v
    (BitVec.ofInt 256 sum, tyNarrow t (flag rs 0) sum)

/-- VSCAN: the running value stands in PARTIAL (R345, R357). -/
def execVscan (f : VFields) (s : State) : Host.Outcome State Fault Refusal :=
  let t := f.ty.toNat
  regionInstr s [f.rd, f.ra, f.rb] [(f.ra, 1)] fun s =>
    let n := vecN s
    if n == 0 then (s, none)
    else runElements s n
      (fun s => openElements s f n t none false false false)
      (fun o j s => do
        let (v, s) ← readElem s o.a j
        let (run, r) := scanStep t f.rs.toNat (j == 0) (me s).part v
        writeElem (setFlags (onMe s fun st => { st with part := run }) r.flags) o.d j r.bits)
      (fun o s => .ok (closeDest s o.d n))

/-! ### Draws (R346-R349) -/

/-- Element `i` of the parameters of a draw: f32 at the offset register plus `sr.vo2` plus `i`. -/
def drawParam (s : State) (o : Operand) (i : Nat) : Act (Nat × State) := readAtIndex s o (o.off + i) 0

/-- T and s of a draw, not yet validated. -/
def readParams (s : State) (o : Operand) : Act (DrawParams × State) := do
  let (t, s) ← drawParam s o 0
  let (sc, s) ← drawParam s o 1
  return (⟨tempOf t, sc⟩, s)

/-- The 16-byte slot `k` of an area operand. -/
def tripleSlot (o : Operand) (k : Int) : Act Nat :=
  match o.src with
  | .area number d first => areaOffset d number 16 (first + k)
  | _ => stopWith 0x03

/-- The destination of a triple: g(n) and g(n + 1), or a slot of an area. -/
def openTriple (s : State) (f : VFields) : Act (Result × State) :=
  if regionKind f.rd == 3 then .ok (.reg (regionSpec f.rd), s)
  else (openOperand s f.rd 0 10).map fun (o, s) => (.region o, s)

/-- Write a triple (R347), with its flags. -/
def putTriple (s : State) (r : Result) (d : Drawn) : Act State :=
  let s := setDraw (setFlags s d.flags) d.draw
  match r with
  | .reg r => writeRun s r.toNat [word d.t.index, word (d.t.mass * 2 ^ 32 + d.t.m)]
  | .region o => do
    let at_ ← tripleSlot o o.off
    storeCs s at_ (tripleBytes d.t) 0

/-- VDRAW. -/
def execVdraw (f : VFields) (s : State) : Host.Outcome State Fault Refusal :=
  let t := f.ty.toNat
  regionInstr s [f.rd, f.ra, f.rb] [(f.ra, 1)] fun s =>
    let n := vecN s
    runGathered s n 1
      (fun s => do
        let (a, s) ← openOperand s f.ra 1 t
        let (b, s) ← openOperand s f.rb 2 10
        let (r, s) ← openTriple s f
        let (p, s) ← readParams s b
        let (u, s) ← drawParam s b 2
        if !(paramsOk p && uniformOk u) then stopWith 0x09
        let s ← checkSource s a n 1 false
        return ((a, r, p, u), s))
      (fun q j s => (readElem s q.1 j).map fun (v, s) => ([word v], s))
      none
      (fun (_, r, p, u) vs s => putTriple s r (drawRow p u (vs.map fun v => (toF32 t v).bits)))

/-- The triples of RA, from the offset register plus `sr.vo1` on. -/
def readTriples (s : State) (o : Operand) : Nat → Nat → Act (List Triple × State)
  | 0, _ => .ok ([], s)
  | fuel + 1, j => do
    let at_ ← tripleSlot o (o.off + j)
    let (bs, s) ← loadCs s at_ 16 0
    let (ts, s) ← readTriples s o fuel (j + 1)
    return (tripleFrom bs :: ts, s)

/-- The uniforms of a fold: elements e0 + 2 on. -/
def readUniforms (s : State) (o : Operand) : Nat → Nat → Act (List Nat × State)
  | 0, _ => .ok ([], s)
  | fuel + 1, i => do
    let (u, s) ← drawParam s o (2 + i)
    let (us, s) ← readUniforms s o fuel (i + 1)
    return (u :: us, s)

/-- VDRAWM. -/
def execVdrawm (f : VFields) (s : State) : Host.Outcome State Fault Refusal :=
  guarded s 12 do
    let n := vecN s
    let (a, s) ← openOperand s f.ra 1 10
    let (b, s) ← openOperand s f.rb 2 10
    let (r, s) ← openTriple s f
    let (p, s) ← readParams s b
    let (us, s) ← readUniforms s b (n - 1) 0
    if !(paramsOk p && us.all uniformOk) then stopWith 0x09
    else
      let (ts, s) ← readTriples s a n 0
      putTriple s r (foldAll p ts us)

/-- u_j of VRAND (R349). -/
def uniformAt (key ctr : Word) : Nat :=
  let z := key + ctr * 0x9E3779B97F4A7C15
  let z := (z ^^^ (z >>> 30)) * 0xBF58476D1CE4E5B9
  let z := (z ^^^ (z >>> 27)) * 0x94D049BB133111EB
  let z := z ^^^ (z >>> 31)
  (roundNum f32 0 false (z >>> 40).toNat (-24)).bits

/-- VRAND: KEY and CTR are those at its issue (R349), and CTR stands in PARTIAL until the instruction completes. -/
def execVrand (f : VFields) (s : State) : Host.Outcome State Fault Refusal :=
  regionInstr s [f.rd, f.ra, f.rb] [] fun s =>
    let n := vecN s
    runElements s n
      (fun s => do
        let (d, s) ← openOperand s f.rd 0 10
        checkDest s d n false
        let s := if (me s).progress == 0 then onMe s fun st => { st with part := (issueCore s).ctr.setWidth 256 } else s
        return (d, s))
      (fun d j s => writeElem s d j (uniformAt (issueCore s).key ((me s).part.setWidth 64 + word j)))
      (fun d s => .ok (onCore (closeDest s d n) s.curCore fun k => { k with ctr := (me s).part.setWidth 64 + word n }))

/-! ### V.MOVE (R350-R353) -/

/-- VCOPY. -/
def execVcopy (f : VFields) (s : State) : Host.Outcome State Fault Refusal :=
  elementWise f s f.ty.toNat false false fun a _ _ => ⟨a, 0⟩
/-- VFILL. -/
def execVfill (f : VFields) (s : State) : Host.Outcome State Fault Refusal :=
  elementWise f s f.ty.toNat false false fun a _ _ => ⟨a, 0⟩

/-- A member whose elements are placed by index or control elements of RB. -/
def indexed (f : VFields) (s : State) (bType : Nat) (aIndexed dIndexed : Bool)
    (one : Opened → Nat → Nat → State → Act State) : Host.Outcome State Fault Refusal :=
  regionInstr s [f.rd, f.ra, f.rb] [(f.ra, 1), (f.rb, 1)] fun s =>
    let n := vecN s
    if n == 0 then (s, none)
    else runElements s n
      (fun s => openElements s f n f.ty.toNat (some bType) false aIndexed dIndexed)
      (fun o j s => do
        let (c, s) ← match o.b with
          | some p => readElem s p j
          | none => pure (0, s)
        one o j c s)
      (fun o s => .ok (closeDest s o.d n))

/-- VGATHER. -/
def execVgather (f : VFields) (s : State) : Host.Outcome State Fault Refusal :=
  indexed f s 5 true false fun o j i s => do
    let (v, s) ← readElem s o.a i
    writeElem s o.d j v
/-- VSCATTER. -/
def execVscatter (f : VFields) (s : State) : Host.Outcome State Fault Refusal :=
  indexed f s 5 false true fun o j i s => do
    let (v, s) ← readElem s o.a j
    writeElem s o.d i v
/-- VPERM: within groups of 64; an element at or beyond N reads zero. -/
def execVperm (f : VFields) (s : State) : Host.Outcome State Fault Refusal :=
  indexed f s 3 true false fun o j c s => do
    let src := j / 64 * 64 + c % 64
    if flag c 6 then stopWith 0x09
    else if flag c 7 || vecN s ≤ src then writeElem s o.d j 0
    else
      let (v, s) ← readElem s o.a src
      writeElem s o.d j v

/-- The descriptor of VEXPAND (Table 15.5). -/
structure Window where
  c : Nat
  k : Nat
  lin : Nat
  lout : Nat
  str : Nat
  dil : Nat
  padl : Nat
  padv : Nat
  deriving DecidableEq, Repr

/-- A descriptor from its 32 bytes: none for a limit broken or a reserved byte set. -/
def windowFrom (im : List Byte) : Option Window :=
  let w : Window := ⟨imageAt im 0 2, imageAt im 2 2, imageAt im 4 4, imageAt im 8 4, imageAt im 12 1, imageAt im 13 1,
    imageAt im 14 2, imageAt im 16 8⟩
  if 1 ≤ w.c && w.c ≤ 4096 && 1 ≤ w.k && w.k ≤ 64 && 1 ≤ w.lin && w.lin ≤ 2 ^ 24 && 1 ≤ w.lout && w.lout ≤ 2 ^ 24 &&
      1 ≤ w.str && 1 ≤ w.dil && zeroAt im 24 8 then some w else none

/-- The 8-byte words of an area operand from word `e` on. -/
def readWords (s : State) (number : Nat) (d : Area) (e : Int) : Nat → Act (List Byte × State)
  | 0 => .ok ([], s)
  | k + 1 => do
    let at_ ← areaOffset d number 8 e
    let (bs, s) ← loadCs s at_ 8 (areaInfo number e)
    let (rest, s) ← readWords s number d (e + 1) k
    return (bs ++ rest, s)

/-- The opened operands and the descriptor of VEXPAND. -/
def openWindow (s : State) (f : VFields) : Act (Window × Operand × Operand × State) := do
  let (a, s) ← openOperand s f.ra 1 f.ty.toNat
  let (b, s) ← openOperand s f.rb 2 f.ty.toNat
  let (d, s) ← openOperand s f.rd 0 f.ty.toNat
  match b.src with
  | .area number dsc first =>
    let (im, s) ← match find (me s).opened 16 with
      | some im => pure (im, s)
      | none => readWords s number dsc (first + b.off) 4
    let s := onMe s fun st => { st with opened := put st.opened 16 im }
    match windowFrom im with
    | some w => if a.str != 1 || d.str != 1 then stopWith 0x09 else return (w, a, d, s)
    | none => stopWith 0x09
  | _ => stopWith 0x03

/-- Element `j` of the planar buffer: the input element its position reads, or PADV. -/
def windowElem (w : Window) (a : Operand) (j : Nat) (s : State) : Act (Nat × State) :=
  let o := j % w.lout
  let k := j / w.lout % w.k
  let c := j / w.lout / w.k
  let p : Int := (o * w.str + k * w.dil : Nat) - w.padl
  if 0 ≤ p && p < w.lin then readElem s a (c * w.lin + p.toNat) else .ok (w.padv % 2 ^ (8 * a.bytes), s)

/-- VEXPAND. -/
def execVexpand (f : VFields) (s : State) : Host.Outcome State Fault Refusal :=
  regionInstr s [f.rd, f.ra, f.rb] [(f.ra, 1)] fun s =>
    match openWindow s f with
    | .error e => (s, some e)
    | .ok (w, _, _, _) =>
      runElements s (w.c * w.k * w.lout)
        (fun s => (openWindow s f).map fun (w, a, d, s) => ((w, a, d), s))
        (fun (w, a, d) j s => do
          let (v, s) ← windowElem w a j s
          writeElem s d j v)
        (fun _ s => .ok s)

/-- The coefficient `k` and the sample element it meets, for the tap at lag L0 + k. -/
def firTerms (s : State) (a b : Operand) (j : Nat) : Nat → Nat → Act (List (Nat × Nat) × State)
  | 0, _ => .ok ([], s)
  | fuel + 1, k => do
    let (c, s) ← readElem s b k
    let (x, s) ← readAtIndex s a (elemIndex a j) k
    let (rest, s) ← firTerms s a b j fuel (k + 1)
    return ((c, x) :: rest, s)

/-- The value of a VFIR element (R353). -/
def firValue (t rs : Nat) (ps : List (Nat × Nat)) : FRes :=
  if tyFloat t then
    let acc := ps.foldl (fun a p =>
      let c := toF32 t p.1
      let x := toF32 t p.2
      let r := fmaR f32 rs c.bits x.bits a.bits
      ⟨r.bits, a.flags ||| c.flags ||| x.flags ||| r.flags⟩) (⟨0, 0⟩ : FRes)
    let r := fromF32 t rs acc.bits
    ⟨r.bits, acc.flags ||| r.flags⟩
  else tyNarrow t (flag rs 0) (dotInts t ps)

/-- VFIR. -/
def execVfir (f : VFields) (s : State) : Host.Outcome State Fault Refusal :=
  let t := f.ty.toNat
  regionInstr s [f.rd, f.ra, f.rb] [(f.ra, vecSweep s), (f.rb, 1)] fun s =>
    let n := vecN s
    let count := vecSweep s
    if count == 0 then (s, some (.event 0x09 none))
    else if n == 0 then (s, none)
    else runElements s n
      (fun s => do
        let (a, s) ← openOperand s f.ra 1 t
        let (b, s) ← openOperand s f.rb 2 t
        let (d, s) ← openOperand s f.rd 0 t
        checkFeedback d [a]
        let s ← checkSource s a n count false
        checkDest s d n false
        let s ← if (me s).progress == 0 then sweepMask s a count else pure s
        return ((a, b, d), s))
      (fun (a, b, d) j s => do
        let (ps, s) ← firTerms s a b j count 0
        let r := firValue t f.rs.toNat ps
        writeElem (setFlags s r.flags) d j r.bits)
      (fun (_, _, d) s => .ok (closeDest s d n))

/-! ### Conditional streams (R354, R355) -/

/-- A conditional stream: the offset of its header, and HEAD, TAIL and CAP. -/
structure Stream16 where
  at_ : Nat
  head : Nat
  tail : Nat
  cap : Nat
  deriving DecidableEq, Repr

/-- Records queued. -/
def queued (c : Stream16) : Nat := (c.tail + 2 ^ 32 - c.head) % 2 ^ 32

/-- The header of a stream operand of elements of `b` bytes, checked. -/
def readHeader (s : State) (r : BitVec 24) (index b : Nat) : Act (Stream16 × State) := do
  let (o, s) ← openOperand s r index 5
  match o.src with
  | .area number d first =>
    let e := first + elemIndex o 0
    let at_ ← areaOffset d number 4 e
    let _ ← areaOffset d number 4 (e + 3)
    let (im, s) ← loadCs s at_ 16 (areaInfo number e)
    let c : Stream16 := ⟨at_, imageAt im 0 4, imageAt im 4 4, imageAt im 8 4⟩
    if c.cap < 1 || 2 ^ 24 < c.cap || c.cap < queued c || d.len < at_ - d.base + 16 + c.cap * b then stopWith 0x09
    else return (c, s)
  | _ => stopWith 0x03

/-- The offset of record `r`'s slot, the record's number being an n32. -/
def slotAt (c : Stream16) (b r : Nat) : Nat := c.at_ + 16 + r % 2 ^ 32 % c.cap * b
/-- Write a header field. -/
def putHeader (s : State) (c : Stream16) (o v : Nat) : Act State := storeCs s (c.at_ + o) (toBytes 4 v) 0

/-- Append records. -/
def appendAll (s : State) (c : Stream16) (b : Nat) : Nat → List Nat → Act State
  | _, [] => .ok s
  | r, v :: rest => do
    let s ← storeCs s (slotAt c b r) (toBytes b v) 0
    let s := coverCs s (slotAt c b r) b
    appendAll s c b (r + 1) rest

/-- CSPUSH. -/
def execCspush (f : VFields) (s : State) : Host.Outcome State Fault Refusal :=
  let t := f.ty.toNat
  let b := tyBytes t
  regionInstr s [f.rd, f.ra, f.rb] [(f.ra, 1), (f.rb, 1)] fun s =>
    let n := vecN s
    runGathered s n 2
      (fun s => do
        let (c, s) ← readHeader s f.rd 0 b
        let (x, s) ← openOperand s f.ra 1 t
        let (y, s) ← openOperand s f.rb 2 t
        let s ← checkSource s x n 1 false
        let s ← checkSource s y n 1 false
        return ((c, x, y), s))
      (fun (_, x, y) j s => do
        let (v, s) ← readElem s x j
        let (w, s) ← readElem s y j
        return ([word v, word w], s))
      none
      (fun (c, _, _) vs s => do
        let data := ((pairsOf vs).filter fun p => p.2 != 0).map (·.1)
        if c.cap < queued c + data.length then stopWith 0x09
        else
          let s ← appendAll s c b c.tail data
          putHeader s c 4 (c.tail + data.length))

/-- Move records from `r` on to elements of a destination. -/
def popAll (s : State) (c : Stream16) (d : Operand) : Nat → List Nat → Act State
  | _, [] => .ok s
  | r, j :: rest => do
    let (bs, s) ← loadCs s (slotAt c d.bytes r) d.bytes 0
    let s ← writeElem s d j (fromBytes bs)
    popAll s c d (r + 1) rest

/-- Take records for elements `js`, then HEAD and LAST. -/
def takeRecords (s : State) (c : Stream16) (d : Operand) (js : List Nat) : Act State := do
  let s ← popAll s c d c.head js
  let s := closeDest s d js.length
  let s ← putHeader s c 0 (c.head + js.length)
  putHeader s c 12 js.length

/-- CSPOP. -/
def execCspop (f : VFields) (s : State) : Host.Outcome State Fault Refusal :=
  let t := f.ty.toNat
  regionInstr s [f.rd, f.ra, f.rb] [(f.rb, 1)] fun s =>
    let n := vecN s
    runGathered s n 1
      (fun s => do
        let (c, s) ← readHeader s f.ra 1 (tyBytes t)
        let (y, s) ← openOperand s f.rb 2 t
        let (d, s) ← openOperand s f.rd 0 t
        checkFeedback d [y]
        let s ← checkSource s y n 1 false
        checkDest s d n false
        return ((c, y, d), s))
      (fun p j s => (readElem s p.2.1 j).map fun (v, s) => ([word v], s))
      none
      (fun (c, _, d) vs s =>
        takeRecords s c d ((below n fun j => vs.getD j 0 != 0).take (queued c)))

/-- CSROUTE: whole sets of 512 bytes of records. -/
def execCsroute (f : VFields) (s : State) : Host.Outcome State Fault Refusal :=
  let t := f.ty.toNat
  regionInstr s [f.rd, f.ra, f.rb] [] fun s =>
    let n := vecN s
    runGathered s 0 1
      (fun s => do
        let (c, s) ← readHeader s f.ra 1 (tyBytes t)
        let (d, s) ← openOperand s f.rd 0 t
        checkDest s d n false
        return ((c, d), s))
      (fun _ _ s => .ok ([], s))
      none
      (fun (c, d) _ s =>
        let p := 512 / tyBytes t
        takeRecords s c d (List.range (p * (Nat.min n (queued c) / p))))

end Sys2Proof.Machine
end

