-- ==== Sys2Proof/Machine/Nests.lean ====
section
/-! DEFINITION. Running nests: their iterations, the stages of the epilogue, the delivery of a drain, and the end of a nest
(07 R149-R153, 16 R370-R372). -/

namespace Sys2Proof.Machine

/-! ### Iterations (R150) -/

/-- Trip count of level `l`: 0 acts as 1. -/
def nestTrip (r : NestRegs) (l : Nat) : Nat := Nat.max 1 (nestReg r (0x108 + l))
/-- Iterations of a nest. -/
def nestTotal (r : NestRegs) : Nat := ((List.range 6).map (nestTrip r)).prod
/-- The level indices of a flattened iteration, innermost first. -/
def nestIndex (r : NestRegs) (p : Nat) : List Nat :=
  ((List.range 6).foldl (fun (q : List Nat × Nat) l => (q.1 ++ [q.2 % nestTrip r l], q.2 / nestTrip r l)) ([], p)).1
/-- Σ iL · stride.L over the levels from `lo` on, for strides of `w` bits. -/
def nestOffset (r : NestRegs) (ix : List Nat) (base w lo : Nat) : Int :=
  (((List.range 6).filter (lo ≤ ·)).map fun l => (ix.getD l 0 : Int) * signed w (nestReg r (base + l))).sum

/-- The cells of a nest's tile load: linear or skewed, row or column order; a pitch of 0 is that of the tile's columns
(Table 7.9); INVALID_OPERAND for a skewed base that is not 4 KiB aligned. -/
def nestCells (shape pitch : Nat) (base : Int) (skew col : Bool) : Act (List (Nat × Nat × Option Cell)) :=
  let w := shapeBits shape
  let rows := shapeRows shape
  let cols := shapeCols shape
  let ea := BitVec.ofInt 64 (2 ^ 63 + base)
  let p := if pitch == 0 then (cols * w + 7) / 8 else pitch
  if skew && base % 4096 != 0 then stopWith 0x09
  else .ok ((cellsOf rows cols).map fun (i, j) =>
    let (x, y) := if col then (j, i) else (i, j)
    (i, j, some (if skew then skewedCell ea w x y else linearCell ea p w x y)))

/-- Load a tile of a nest from core store; an offset outside it is CS_RANGE. -/
def nestLoad (s : State) (t shape pitch : Nat) (base : Int) (skew col : Bool) : Act State := do
  let cells ← nestCells shape pitch base skew col
  let outside := cells.any fun c => match c.2.2 with
    | some q => eaSpace q.address != 0x80 || Config.csTop < field q.address.toNat 0 56 + Nat.max 1 (shapeBits shape / 8)
    | none => false
  if base < 0 || outside then .error (.event 0x91 (some (BitVec.ofInt 64 (2 ^ 63 + base))))
  else
    let (vs, bad, s) ← readCells s 4 (shapeBits shape) cells
    return onCore (reportPoison s bad) s.curCore fun k => fillTile k t vs

/-- The accumulator of an iteration. -/
def nestAcc (r : NestRegs) (ix : List Nat) : Nat :=
  ((field (nestReg r 0x100) 5 3 : Int) + nestOffset r ix 0x120 4 1).emod 8 |>.toNat

/-- One iteration of a nest: its loads and its product. -/
def nestStep (s : State) (n : Nest) : Act State := do
  let r := n.regs
  let ix := nestIndex r n.iteration
  let ctl := nestReg r 0x100
  let ta := field ctl 12 4
  let tb := field ctl 8 4
  let s ← nestLoad s ta n.shapeA.toNat (nestReg r 0x103) ((nestReg r 0x101 : Int) + nestOffset r ix 0x110 32 0)
    (flag n.modes 0) (flag n.modes 2)
  let s ← nestLoad s tb n.shapeB.toNat (nestReg r 0x104) ((nestReg r 0x102 : Int) + nestOffset r ix 0x118 32 0)
    (flag n.modes 1) (flag n.modes 3)
  let sc : Int := n.scbase + 256 * (ctl % 32 : Nat) + nestOffset r ix 0x128 16 0
  let zero := flag ctl 19 && ix.getD 0 0 == 0
  let p ← openProduct s (myCore s) n.type ta tb n.shapeA.toNat n.shapeB.toNat (nestAcc r ix)
    (if flag ctl 18 then some sc else none) zero
  let (table, s) ← readTable s n.type n.cbook 0
  return accumulate s { p with table := table } zero

/-! ### The epilogue's stages (R151, R371) -/

/-- An f32 at a core-store offset. -/
def loadF32 (s : State) (o : Nat) : Act (Nat × State) :=
  (loadCs s o 4 (csAddress o)).map fun (bs, s) => (fromBytes bs, s)

/-- Bias, activation and cast of a scaled value, with their flags. -/
def activate (act v : Nat) : FRes :=
  match act with
  | 0 => ⟨v, 0⟩
  | 1 => if nanF32 v then ⟨(canonNan f32 false).bits, 0⟩ else ⟨if ltF32 0 v then v else 0, 0⟩
  | 2 => siluR v
  | _ => geluR v

/-- The scale stage. -/
def scaleStage (s : State) (r : NestRegs) (cg : Nat) (v : FRes) : Act FRes :=
  let i := nestReg r 0x188 + cg
  if !flag (nestReg r 0x180) 0 then .ok v
  else if 8192 ≤ i then stopWith 0x96
  else
    let x := roundExact f32 0 (scaled (fval f32 v.bits, 0) (scaleAt (myCore s) i))
    .ok ⟨x.bits, v.flags ||| x.flags⟩

/-- The bias stage. -/
def biasStage (s : State) (r : NestRegs) (cg : Nat) (v : FRes) : Act (FRes × State) :=
  if !flag (nestReg r 0x180) 1 then .ok (v, s)
  else do
    let (b, s) ← loadF32 s (nestReg r 0x181 + 4 * cg)
    let x := faddR f32 0 v.bits b
    return (⟨x.bits, v.flags ||| x.flags⟩, s)

/-- The grammar mask: whether a column's bit is 0, so that it becomes −inf. -/
def maskStage (s : State) (r : NestRegs) (bit : Nat) : Act (Bool × State) :=
  if !flag (nestReg r 0x180) 5 then .ok (false, s)
  else do
    let o := nestReg r 0x182 + bit / 8
    let (bs, s) ← loadCs s o 1 (csAddress o)
    return (!flag (fromBytes bs) (bit % 8), s)

/-- A lane after the stages: its value in the cast type, and whether it is masked. -/
abbrev Lane := Nat × Bool
/-- A lane as a pass writes it: a masked one the type's −inf, 0xFF in `f8e4` (R371). -/
def passLane (cast : Nat) (v : Lane) : Nat := if v.2 then lowest cast else v.1
/-- A lane as top-k and a draw read it: a masked one −inf, whatever the type. -/
def drawLane (cast : Nat) (v : Lane) : Nat := if v.2 then negInf else (toF32 cast v.1).bits

/-- Column tiles of an output row. -/
def nestCols (r : NestRegs) : Nat := Nat.max 1 (field (nestReg r 0x185) 0 16)

/-- A lane through every stage, and the flags. -/
def stageLane (s : State) (n : Nest) (acc row j rg cg : Nat) : Act (Lane × Flags × State) := do
  let r := n.regs
  let k := myCore s
  let v := fconvert f32 0 (laneValue (k.accM.getLsbD acc) (laneOf k acc row j))
  let v ← scaleStage s r cg v
  let (v, s) ← biasStage s r cg v
  let a := activate (field (nestReg r 0x180) 2 2) v.bits
  let c := convertType 10 (castOf r) (field (nestReg r 0x180) 20 2) a.bits
  let (m, s) ← maskStage s r (rg * 64 * nestCols r + cg)
  return ((c.bits, m), v.flags ||| a.flags ||| c.flags, s)

/-- The lanes of one row, from column `j` on. -/
def stageRow (s : State) (n : Nest) (acc row rg c0 : Nat) : Nat → Nat → Act (List Lane × State)
  | 0, _ => .ok ([], s)
  | fuel + 1, j => do
    let (v, fl, s) ← stageLane s n acc row j rg (c0 + j)
    let (vs, s) ← stageRow (setFlags s fl) n acc row rg c0 fuel (j + 1)
    return (v :: vs, s)

/-! ### Delivery (R371, R372) -/

/-- Write one element of the delivery tensor, if it lies inside. -/
def putTensor (s : State) (e : List Byte) (x0 x1 v : Nat) : Act State :=
  if tensorInside e x0 x1 then writeCell s 5 (tidBits (tidFmt e)) (tensorCell e x0 x1) v else .ok s

/-- Write elements of a tensor row, one after another. -/
def putTensorEach (s : State) (e : List Byte) (x1 : Nat) : List (Nat × Nat) → Act State
  | [] => .ok s
  | (x0, v) :: rest => do
    let s ← putTensor s e x0 x1 v
    putTensorEach s e x1 rest

/-- Write elements of a tensor row. -/
def putTensorRow (s : State) (e : List Byte) (x1 : Nat) (row : List (Nat × Nat)) : Act State :=
  (putTensorEach s e x1 row).map fun s =>
    cleanCells s 5 (tidBits (tidFmt e)) ((row.filter fun p => tensorInside e p.1 x1).map fun p => tensorCell e p.1 x1)

/-- Write the columns of a row that lie in the frame into a signal's sample. -/
def putTapRow (s : State) (key j : Nat) : List (Nat × Nat) → State
  | [] => s
  | (x, v) :: rest =>
    match sigOf s key with
    | none => s
    | some g => putTapRow (if x < sigFrame g.entry then putElem s key g j x v else s) key j rest

/-- A pass row: to the tensor, or as a signal write by lag from the head resolved at NESTGO (R177). -/
def deliverPass (s : State) (n : Nest) (rg c0 : Nat) (vs : List Lane) : Act State :=
  let cols := vs.zipIdx.map fun (v, j) => (c0 + j, passLane (castOf n.regs) v)
  if kindOf n.regs == 0 then putTensorRow s n.tid rg cols
  else do
    let dst := nestReg n.regs 0x185
    let sig := field dst 16 10
    let lag := field dst 28 12 + rg
    let g ← namedSignal s sig (some lag)
    let j ← sampleFor sig n.head g lag
    return markSample (putTapRow s (myKey s sig) j cols) (myKey s sig) j

/-- Put a value into a descending heap of at most `k` places; ties keep the lower column. -/
def heapInsert (k : Nat) (h : List (BitVec 32 × Nat)) (v c : Nat) : List (BitVec 32 × Nat) :=
  let above := h.takeWhile fun p => !ltF32 p.1.toNat v
  (above ++ (BitVec.ofNat 32 v, c) :: h.drop above.length).take k

/-- A top-k row. -/
def deliverTop (s : State) (n : Nest) (rg ct : Nat) (vs : List Lane) : Act (State × Nest) := do
  let k := field (nestReg n.regs 0x180) 10 6 + 1
  let start := if ct == 0 then [] else look [] n.heaps rg
  let heap := (vs.zipIdx).foldl (fun h (v, j) =>
    let x := drawLane (castOf n.regs) v
    if nanF32 x then h else heapInsert k h x (64 * ct + j)) start
  if ct + 1 < nestCols n.regs then return (s, { n with heaps := put n.heaps rg heap })
  else
    let cells := (List.range k).flatMap fun c => match heap[c]? with
      | some p => [(2 * c, p.1.toNat), (2 * c + 1, p.2)]
      | none => [(2 * c, negInf), (2 * c + 1, noIndex)]
    let s ← putTensorRow s n.tid rg cells
    return (s, { n with heaps := erase n.heaps rg })

/-- Temperature and logit scale of a nest's draws. -/
def nestParams (r : NestRegs) : DrawParams :=
  if flag (nestReg r 0x180) 6 then ⟨tempOf (nestReg r 0x183), nestReg r 0x184⟩ else ⟨0x3F800000, 0x3F800000⟩

/-- u(Rg, k), validated. -/
def nestUniform (s : State) (r : NestRegs) (rg k : Nat) : Act (Nat × State) := do
  let (u, s) ← loadF32 s (nestReg r 0x186 + 4 * (2 * nestCols r * rg + k))
  if uniformOk u then return (u, s) else stopWith 0x09

/-- The triple of a row with this column tile drawn and merged. -/
def nestDraw (s : State) (n : Nest) (rg ct : Nat) (vs : List Lane) : Act (Drawn × State) := do
  let p := nestParams n.regs
  if !paramsOk p then stopWith 0x09
  else
    let (u, s) ← nestUniform s n.regs rg (2 * ct)
    let d := drawRow p u (vs.map (drawLane (castOf n.regs)))
    let t := if d.t.index == noIndex then d.t else { d.t with index := d.t.index + 64 * ct }
    match (if ct == 0 then none else find n.triples rg) with
    | none => return (⟨t, d.draw, d.flags⟩, s)
    | some (i, m, w) =>
      let (u, s) ← nestUniform s n.regs rg (2 * ct + 1)
      let e := mergeTriples p u ⟨i.toNat, m.toNat, w.toNat⟩ t
      return (⟨e.t, d.draw ||| e.draw, d.flags ||| e.flags⟩, s)

/-- The status word of a row (R152): 0 where none is kept. -/
def rowStatus (s : State) (r : NestRegs) (rg : Nat) : Act (Nat × State) :=
  if nestReg r 0x187 == 0 then .ok (0, s) else loadF32 s (nestReg r 0x187 + 4 * rg)

/-- The delivery of a drawn or an excluded row: to the tensor, or as a reply that is owed. -/
def deliverRow (s : State) (n : Nest) (rg : Nat) (t : Triple) (status : Nat) : Act (State × Nest) := do
  let fail := status != 0
  let reason := status % 2 ^ 16
  if kindOf n.regs == 0 then
    let s ← putTensorRow s n.tid rg
      [(0, t.index), (1, t.m), (2, t.mass), (3, reason + bit01 fail * 2 ^ 16)]
    return (s, n)
  else
    let dst := nestReg n.regs 0x185
    let e : Reply := ⟨false, BitVec.ofNat 32 t.index, BitVec.ofNat 32 (field dst 16 24 + rg),
      BitVec.ofNat 32 (dst / 2 ^ 40), fail, BitVec.ofNat 16 reason⟩
    return (s, { n with owed := n.owed ++ [e] })

/-- A draw row: no draw is made of an excluded one. -/
def deliverDraw (s : State) (n : Nest) (rg ct : Nat) (vs : List Lane) : Act (State × Nest) := do
  let (w, s) ← rowStatus s n.regs rg
  let old := if ct == 0 then 0 else look 0 n.excluded rg
  let status := if w != 0 then w else old
  let n := { n with excluded := if status == 0 then erase n.excluded rg else put n.excluded rg status }
  let (t, s) ← if status != 0 then pure (noTriple, s)
    else (nestDraw s n rg ct vs).map fun (d, s) => (d.t, setDraw (setFlags s d.flags) d.draw)
  if ct + 1 < nestCols n.regs then
    return (s, { n with triples := put n.triples rg (BitVec.ofNat 32 t.index, BitVec.ofNat 32 t.m, BitVec.ofNat 32 t.mass) })
  else
    let (s, n) ← deliverRow s n rg t status
    return (s, { n with triples := erase n.triples rg, excluded := erase n.excluded rg })

/-- The rows of a drain, from row `row` on. -/
def drainRows (s : State) (n : Nest) (acc d : Nat) : Nat → Nat → Act (State × Nest)
  | 0, _ => .ok (s, n)
  | fuel + 1, row => do
    let qt := d / nestCols n.regs
    let ct := d % nestCols n.regs
    let rg := 64 * qt + row
    let (vs, s) ← stageRow s n acc row rg (64 * ct) (shapeCols n.shapeB.toNat) 0
    let (s, n) ← match modeOf n.regs with
      | 0 => (deliverPass s n rg (64 * ct) vs).map fun s => (s, n)
      | 1 => deliverTop s n rg ct vs
      | _ => deliverDraw s n rg ct vs
    drainRows s n acc d fuel (row + 1)

/-! ### Running (R150, R153) -/

/-- The nest of an engine replaced. -/
def setNest (s : State) (core engine : Nat) (n : Option Nest) : State :=
  onCore s core fun k => { k with engines := adjust {} k.engines engine fun e => { e with nest := n } }

/-- Append owed replies while the reply queue has room, each with its pulse of input 12 (R153, R372). -/
def appendReplies (s : State) (core : Nat) : List Reply → State × List Reply
  | [] => (s, [])
  | e :: rest =>
    if 256 ≤ (coreOf s core).replies.length then (s, e :: rest)
    else appendReplies (pulse (onCore s core fun k => { k with replies := k.replies ++ [e] }) core 12) core rest

/-- One iteration, with the drain of its accumulator if it ends an innermost sweep. -/
def iterate (s : State) (n : Nest) : Act (State × Nest) := do
  let s ← nestStep s n
  let last := (n.iteration + 1) % nestTrip n.regs 0 == 0
  let acc := nestAcc n.regs (nestIndex n.regs n.iteration)
  let m := { n with iteration := n.iteration + 1 }
  if last then
    let (s, m) ← drainRows s m acc m.drains (shapeRows m.shapeA.toNat) 0
    return (s, { m with drains := m.drains + 1 })
  else return (s, m)

/-- Iterations up to and with the next drain, or up to one that stops: that one has not begun (R150). -/
def toDrain : Nat → State → Nest → State × Nest × Option Trap
  | 0, s, n => (s, n, none)
  | fuel + 1, s, n =>
    if nestTotal n.regs ≤ n.iteration then (s, n, none)
    else match iterate s n with
      | .error e => (s, n, some e)
      | .ok (t, m) => if n.drains < m.drains then (t, m, none) else toDrain fuel t m

/-- A nest that stops: an event is the issuing stream's, at the NESTGO; a wait leaves the nest to go on later. -/
def nestTrap (s : State) (pc : Word) : Trap → State
  | .event r (some i) => takeException s s.curCore s.curStream r i pc
  | .event r none =>
    let (i, s) := drawWord s
    takeException s s.curCore s.curStream r i pc
  | .signal r n lag =>
    let (w, s) := drawWord s
    takeException s s.curCore s.curStream r (signalInfo n lag w) pc
  | .page va kind r l =>
    takePage (joinGroup s s.curCore va kind r) s.curCore s.curStream (sourceOf s.curStream kind) va kind r l pc
  | .walk va kind => joinWalk s s.curCore (requesterOf s.curStream kind) (myCtx s) va kind
  | .ask va kind => askHost s s.curCore s.curStream va kind
  | .claim i => (touchRegion s s.curCore i).getD s
  | .wait _ | .unready => s

/-- The STALL cause of what a nest stops for, if it waits. -/
def nestCause : Trap → Option Nat
  | .wait w => some (waitCause w)
  | .walk _ _ | .ask _ _ => some 2
  | .claim _ => some 7
  | _ => none

/-- A nest stalls for a cause, or stalls no more: a stall that ends is traced (R146, R153, R168). -/
def nestStall (s : State) (core engine : Nat) (cause : Option Nat) : State :=
  match (look {} (coreOf s core).engines engine).nest with
  | none => s
  | some n =>
    if n.stall.map (·.1) == cause then s
    else
      let s := match n.stall with
        | some (c, since) => trace s core 3 (engine + 2) (((coreOf s core).cycle - since) % 2 ^ 32 + c * 2 ^ 32)
        | none => s
      setNest s core engine (some { n with stall := cause.map fun c => (c, (coreOf s core).cycle) })

/-- The reply queue takes what a nest owes it: a full one stalls the drain (R153). -/
def nestOwes (s : State) (core engine : Nat) : State :=
  match (look {} (coreOf s core).engines engine).nest with
  | none => s
  | some n =>
    let (s, owed) := appendReplies s core n.owed
    nestStall (setNest s core engine (some { n with owed := owed })) core engine (if owed.isEmpty then none else some 3)

/-- A nest goes on: what it owes the reply queue first, else the iterations to its next drain. -/
def nestDrainStep (s : State) (core engine : Nat) : State :=
  match (look {} (coreOf s core).engines engine).nest with
  | none => s
  | some n =>
    if (coreOf s core).halted || (coreOf s core).slice.isNone then s
    else if !n.owed.isEmpty then nestOwes s core engine
    else asStream s core (engine + 2) fun s =>
      let (t, m, e) := toDrain (nestTrip n.regs 0) s n
      let t := setNest t core engine (some m)
      let t := if n.iteration < m.iteration then nestStall t core engine none else t
      if itemsOver s t then nestStall s core engine (some 4)
      else match e with
      | none => nestOwes t core engine
      | some e => nestTrap (nestStall t core engine (nestCause e)) n.pc e

/-- A nest ends when its last drain has been delivered: its number completes and its pulse is emitted (R370). -/
def nestCompleteStep (s : State) (core engine : Nat) : State :=
  match (look {} (coreOf s core).engines engine).nest with
  | none => s
  | some n =>
    if n.iteration < nestTotal n.regs || !n.owed.isEmpty || (coreOf s core).halted then s
    else
      let s := setNest s core engine none
      let s := tlDone s (coreCtx s core) (tlKey (engine + 3) core) n.number
      if n.pulse then pulse s core (engine + 2) else s

end Sys2Proof.Machine
end

