-- ==== Sys2Proof/Machine/Gen.lean ====
section
/-! DEFINITION. The GEN instructions: grammar commands, replies, embeddings and the uniform key (16 R373-R377). -/

namespace Sys2Proof.Machine

/-! ### Grammar commands (R374) -/

/-- GFCTL.EN of a context. -/
def grammarOn (c : Ctx) : Bool := flag (reg c 0x1E18) 31
/-- GFCTL.VOCAB of a context. -/
def vocabOf (c : Ctx) : Nat := field (reg c 0x1E18) 0 21
/-- 8-byte words of a mask. -/
def maskWords (vocab : Nat) : Nat := (vocab + 63) / 64

/-- Send a grammar command of the issuing core to its tower: a full queue stalls as cause 4. -/
def sendGrammar (s : State) (op : Nat) (notify : Bool) (slot arg : Word) : Act State :=
  let c := ctxOf s (myCtx s)
  let mask := op == 2
  if 65535 < slot.toNat || !grammarOn c || (mask && arg.toNat % 8 != 0) then stopWith 0x09
  else if mask && Config.csTop < arg.toNat + 8 * maskWords (vocabOf c) then .error (.event 0x91 (some (csAddress arg.toNat)))
  else match queueGrammar s s.curCore
      { ctx := myCtx s, core := s.curCore, record := submitOn s s.curCore, op := op, notify := notify, slot := slot.toNat
        arg := arg
        vocab := some (vocabOf c), bad := false } with
    | none => .error (.wait (.cause 4))
    | some t => .ok t

/-- A grammar instruction. -/
def grammarForm (f : EFields) (s : State) (op : Nat) : Host.Outcome State Fault Refusal :=
  guarded s 8 do
    let slot ← readGQ s f.a
    let arg ← readGQ s f.b
    sendGrammar s op (flag f.opt.toNat 0) slot arg

/-- GFSTEP. -/
def execGfstep (f : EFields) (s : State) : Host.Outcome State Fault Refusal := grammarForm f s 1
/-- GFSTEP with SET. -/
def execGfstepSet (f : EFields) (s : State) : Host.Outcome State Fault Refusal := grammarForm f s 3
/-- GFMASK. -/
def execGfmask (f : EFields) (s : State) : Host.Outcome State Fault Refusal := grammarForm f s 2

/-! ### Token rings (R66, R67, Table 3.12) -/

/-- TRBASE of a ring of a context page; TRCTL and TRHEAD follow at 8 and 16. -/
def ringAt (m : Nat) : Nat := 0x1C00 + 0x20 * m

/-- Whether a token ring is full by TRHEAD. -/
def tokenFull (c : Ctx) (m : Nat) : Bool :=
  ringFull (look 0 c.trtail m) (reg c (ringAt m + 16)) (field (reg c (ringAt m + 8)) 0 5)

/-- TIME of a ring in nanoseconds: 0 acts as 1, above 2000 as 2000. -/
def ringTime (ctl : Nat) : Nat := 500 * Nat.min 2000 (Nat.max 1 (field ctl 21 11))
/-- CNT of a ring: 0 means 256. -/
def ringCount (ctl : Nat) : Nat := if field ctl 13 8 == 0 then 256 else field ctl 13 8

/-- The pending count and the timer after a post: the vector is raised when the count is reached (R67). -/
def countToken (s : State) (ctx m : Nat) : State :=
  let ctl := reg (ctxOf s ctx) (ringAt m + 8)
  let c := look 0 (ctxOf s ctx).trcount m + 1
  if ringCount ctl ≤ c then
    raiseIrq (onCtx s ctx fun x => { x with trcount := put x.trcount m 0, trtimer := erase x.trtimer m })
      ctx (field ctl 32 11)
  else onCtx s ctx fun x => { x with
    trcount := put x.trcount m c
    trtimer := if c == 1 then put x.trtimer m (s.mtime + ringTime ctl) else x.trtimer }

/-- The address under the context's PASID of the slot that ring `m`'s next entry takes. -/
def tokenSlot (c : Ctx) (m : Nat) : Nat :=
  field (reg c (ringAt m)) 4 60 * 16 + 16 * (look 0 c.trtail m % 2 ^ field (reg c (ringAt m + 8)) 0 5)

/-- Post a token-ring entry of 15 bytes without its PHASE: none where the host does not let it be written yet. -/
def postToken (s : State) (ctx m : Nat) (e : List Byte) : Option State :=
  let c := ctxOf s ctx
  let log := field (reg c (ringAt m + 8)) 0 5
  let tail := look 0 c.trtail m
  let im := overlay e 14 (toBytes 1 (imageAt e 14 1 + 128 * bit01 (lapPhase tail log)))
  (writeSpace s ctx false (tokenSlot c m) im).map fun s =>
    countToken (onCtx s ctx fun x => { x with trtail := put x.trtail m ((tail + 1) % 2 ^ 32) }) ctx m

/-- The entry of a post from its two registers. -/
def tokenEntry (a b : Word) : List Byte :=
  toBytes 8 a.toNat ++ toBytes 6 b.toNat ++ toBytes 1 (field b.toNat 48 2) ++ toBytes 1 0

/-- The checks of a post: its ring enabled, the upper bits of B zero. -/
def tokenArgs (f : EFields) (s : State) : Act (Word × Word) := do
  let a ← readGQ s f.a
  let b ← readGQ s f.b
  if 2 ^ 50 ≤ b.toNat || !flag (reg (ctxOf s (myCtx s)) (ringAt (f.n12.toNat % 16) + 8)) 63 then stopWith 0x09
  else return (a, b)

/-- RPLY, post form: a full ring sets TRFULL and stalls as cause 4, as does one that the host does not let be written
yet. -/
def execRply (f : EFields) (s : State) : Host.Outcome State Fault Refusal :=
  let m := f.n12.toNat % 16
  if guardHolds s && (tokenArgs f s).toBool && tokenFull (ctxOf s (myCtx s)) m then
    .next (trapState (onCtx s (myCtx s) fun c => { c with trfull := true }) (.wait (.cause 4)))
  else guarded s 8 do
    let (a, b) ← tokenArgs f s
    match postToken s (myCtx s) m (tokenEntry a b) with
    | some t => return t
    | none => .error (.wait (.cause 4))

/-! ### The reply queue (R372, R375, R376) -/

/-- The core without entry `i` of its reply queue. -/
def dropReply (k : Core) (i : Nat) : Core := { k with replies := k.replies.eraseIdx i }

/-- RPLY, take form: the oldest grammar entry, or all ones. -/
def execRplyTake (f : EFields) (s : State) : Host.Outcome State Fault Refusal :=
  guarded s 8 (match (myCore s).replies.findIdx? (·.grammar) with
    | none => writeReg s f.dst (BitVec.allOnes 64)
    | some i =>
      match (myCore s).replies[i]? with
      | none => .ok s
      | some e =>
        let v := e.token.toNat + e.seq.toNat % 2 ^ 16 * 2 ^ 32 + bit01 e.fail * 2 ^ 48 + e.step.toNat % 4 * 2 ^ 49
        writeReg (onCore s s.curCore fun k => dropReply k i) f.dst (word v))

/-- Where element `x0` of a tensor row goes in core store from an offset on. -/
def rowCell (e : List Byte) (o x0 : Nat) : Cell :=
  let w := tidBits (tidFmt e)
  ⟨csAddress (o + x0 * w / 8), w == 4 && x0 % 2 == 1⟩

/-- Copy elements `x0` to `x0 + fuel - 1` of tensor row `x1` to core store from an offset on, in the tensor's format. -/
def copyEach (s : State) (e : List Byte) (x1 o : Nat) : Nat → Nat → Act State
  | 0, _ => .ok s
  | fuel + 1, x0 => do
    let w := tidBits (tidFmt e)
    let (v, bad, s) ← readCell s 4 w (tensorCell e x0 x1)
    let s ← writeCell (reportPoison s bad) 5 w (rowCell e o x0) v
    copyEach s e x1 o fuel (x0 + 1)

/-- Copy the first `n` elements of a tensor row. -/
def copyRow (s : State) (e : List Byte) (x1 o n : Nat) : Act State :=
  (copyEach s e x1 o n 0).map fun s => cleanCells s 5 (tidBits (tidFmt e)) ((List.range n).map (rowCell e o))

/-- The embedding fetch of a token: INVALID_OPERAND with the token for one at or above DIM1. -/
def fetchRow (s : State) (id token o : Nat) : Act State := do
  let (e, s) ← tidEntry s id
  if tidDim e 1 ≤ token then invalid (word token)
  else
    let n := (tidDim e 0 * tidBits (tidFmt e) + 7) / 8
    if Config.csTop < o + n then .error (.event 0x91 (some (csAddress o))) else copyRow s e token o (tidDim e 0)

/-- Index of the oldest draw entry of a sequence. -/
def drawReply (k : Core) (seq : Nat) : Option Nat := k.replies.findIdx? fun e => !e.grammar && e.seq.toNat == seq

/-- Whether EMBLD meets a token outside its tensor, which faults with the entry removed. -/
def badToken (f : EFields) (s : State) : Option (Nat × Word) :=
  match readGQ s f.a with
  | .error _ => none
  | .ok a =>
    match drawReply (myCore s) (a.toNat % 2 ^ 32), tidEntry s f.n12.toNat with
    | some i, .ok (e, _) =>
      match (myCore s).replies[i]? with
      | some r => if r.token != BitVec.allOnes 32 && tidDim e 1 ≤ r.token.toNat then some (i, word r.token.toNat) else none
      | none => none
    | _, _ => none

/-- EMBLD. -/
def execEmbld (f : EFields) (s : State) : Host.Outcome State Fault Refusal :=
  match (if guardHolds s then badToken f s else none) with
  | some (i, t) => .next (trapState (onCore s s.curCore fun k => dropReply k i) (.event 0x09 (some t)))
  | none => guarded s 8 do
    let a ← readGQ s f.a
    let o ← readGQ s f.b
    match drawReply (myCore s) (a.toNat % 2 ^ 32) with
    | none => .error (.wait (.cause 3))
    | some i =>
      match (myCore s).replies[i]? with
      | none => .error (.wait (.cause 3))
      | some r =>
        let s ← if r.token == BitVec.allOnes 32 then pure s else fetchRow s f.n12.toNat r.token.toNat o.toNat
        writeReg (onCore s s.curCore fun k => dropReply k i) f.dst
          (word (r.token.toNat + r.reason.toNat * 2 ^ 32 + bit01 r.fail * 2 ^ 48))

/-! ### The uniform generator (R349, R377) -/

/-- VRANDK. -/
def execVrandk (f : EFields) (s : State) : Host.Outcome State Fault Refusal :=
  guarded s 8 do
    let a ← readGQ s f.a
    let b ← readGQ s f.b
    return onCore s s.curCore fun k => { k with key := a, ctr := b }

end Sys2Proof.Machine
end

