-- ==== Sys2Proof/Machine/GeyserOps.lean ====
section
/-! DEFINITION. The GEY instructions: each sends one command and waits for the Geyser round that decides it; how a round
retires a waiting stream (16 R378-R382). -/

namespace Sys2Proof.Machine

/-- Whether reserved bits of an entry image are set (Table 6.1). -/
def entryReserved (im : List Byte) : Bool :=
  field (imageAt im 14 1) 4 4 != 0 || field (imageAt im 16 1) 5 3 != 0 || field (imageAt im 19 1) 6 2 != 0 ||
    flag (imageAt im 25 1) 7 || field (imageAt im 26 1) 3 5 != 0 || field (imageAt im 27 1) 2 6 != 0 || !zeroAt im 28 4

/-- A command of the issuing stream, before its number is taken. -/
def myCommand (s : State) (op queue : Nat) (address : Nat) (entry : List Byte) (dst : BitVec 8) (nf : Bool) : GeyCmd :=
  { ctx := myCtx s, core := s.curCore, number := 0, op := op, queue := queue, address := address, entry := entry
    bad := false, waiter := some (s.curCore, s.curStream), dst := dst, nf := nf }

/-- Send a command to the Geyser of a core's tower: a full queue stalls as cause 4. -/
def sendGeyser (s : State) (target : Nat) (c : GeyCmd) : Act State :=
  match queueGeyser s target c with
  | none => .error (.wait (.cause 4))
  | some (n, s) => .ok (hold s (.geyser (towerOfCore target) n))

/-- A GEY member: while its command stands undecided it only waits; else its command is made and sent. -/
def geyserForm (s : State) (send : Act State) : Host.Outcome State Fault Refusal :=
  match (me s).waiting with
  | some (.geyser _ _) | some (.eqstat _ _ _) => .next s
  | _ =>
    if !guardHolds s then skip s 8
    else match send with
      | .ok t => .next t
      | .error e => .next (trapState s e)

/-- EQPUSH. -/
def execEqpush (f : EFields) (s : State) : Host.Outcome State Fault Refusal :=
  geyserForm s do
    let t ← placeReg s f.b
    let im ← readImage s f.a.toNat 4
    if entryReserved im then stopWith 0x09
    else sendGeyser s t (myCommand s 1 f.n12.toNat 0 im f.dst (flag f.opt.toNat 0))

/-- A member that names an aligned address. -/
def addressForm (f : EFields) (s : State) (op : Nat) : Host.Outcome State Fault Refusal :=
  geyserForm s do
    let a ← readGQ s f.a
    let t ← placeReg s f.b
    if a.toNat % 64 != 0 then stopWith 0x09
    else
      settled (me s) f.dst
      sendGeyser s t (myCommand s op f.n12.toNat a.toNat [] f.dst true)

/-- EQCFG. -/
def execEqcfg (f : EFields) (s : State) : Host.Outcome State Fault Refusal := addressForm f s 2
/-- EQPOP. -/
def execEqpop (f : EFields) (s : State) : Host.Outcome State Fault Refusal := addressForm f s 4

/-- EQFIRE. -/
def execEqfire (f : EFields) (s : State) : Host.Outcome State Fault Refusal :=
  geyserForm s do
    let t ← placeReg s f.b
    settled (me s) f.dst
    sendGeyser s t (myCommand s 3 f.n12.toNat 0 [] f.dst true)

/-- EQSTAT sends no command; it waits for the next round boundary. -/
def execEqstat (f : EFields) (s : State) : Host.Outcome State Fault Refusal :=
  geyserForm s do
    let t ← placeReg s f.b
    settled (me s) f.dst
    return hold s (.eqstat (towerOfCore t) f.n12.toNat f.dst)

/-! ### The decision reaches the stream (R378-R382) -/

/-- The status word of Table 16.5: code, error bit, count. -/
def statusWord (code count : Nat) : Word := word (code + bit01 (code != 0x80) * 2 ^ 16 + count * 2 ^ 32)

/-- A waiting member completes: its register is written and the instruction has issued. -/
def retire (s : State) (core stream : Nat) (dst : BitVec 8) (v : Word) : State :=
  let g := { s.guard with pulse := (me { s with curCore := core, curStream := stream }).pulse }
  let t := asStream { s with guard := g } core stream fun s => finish (onMe s fun st => putReg st dst v) 8 none
  { t with guard := s.guard }

/-- Whether the stream that sent a command to a tower still waits for it. -/
def awaits (s : State) (tower : Nat) (c : GeyCmd) (core stream : Nat) : Bool :=
  coreCtx s core == c.ctx && (me { s with curCore := core, curStream := stream }).waiting == some (.geyser tower c.number)

/-- The decision of a command: to the stream that waits, as a status word, a predicate or a refusal that stops it; a
refused pushed push is an item record (R378, R379). -/
def reply (s : State) (tower : Nat) (c : GeyCmd) (code count : Nat) : State :=
  match c.waiter with
  | some (core, stream) =>
    if !awaits s tower c core stream then s
    else if c.op != 1 then retire s core stream c.dst (statusWord code count)
    else if code == 0x80 then retire s core stream (if c.nf then c.dst else 0) 0
    else if c.nf then retire s core stream c.dst 1
    else asStream s core stream fun s => trapState (onMe s fun st => { st with waiting := none }) (.event code none)
  | none =>
    if c.op == 1 && !c.bad && code != 0x80 then
      postItem s c.ctx { coreItem s c.core 10 code c.queue 0 with tlsel := 10, tlnum := c.number }
    else s

end Sys2Proof.Machine
end

