-- ==== Sys2Proof/Machine/Power.lean ====
section
/-! DEFINITION. Power, rails, the throttle ladder, sensors and the self-test (01 R11-R21, R25). An event whose premise the
spec names, and which does not hold, changes nothing. -/

namespace Sys2Proof.Machine

/-! ### Input power and rails (R11, R12) -/

/-- Input power and VDD_AUX are gone: what runs from them is lost, the flash, host memory and the peers' memory stay,
and a flash write in progress has left its image partly written (R24). -/
def powerLost (s : State) : State :=
  { State.reset with
    agenda := s.agenda, free := s.free
    mem := s.mem.filter fun c => 2 ^ 56 ≤ c.1
    poison := s.poison.filter fun g => 2 ^ 56 ≤ 64 * g
    module := { flash := s.module.flash, flashLen := s.module.flashLen, flashPartial := s.module.flashPartial
                coolant := s.module.coolant } }

/-- POWER_INPUT_LOST. -/
def execPowerInputLost (s : State) : Host.Outcome State Fault Refusal := .next (powerLost s)

/-- POWER_INPUT_APPLIED: the step 0 rails come up. -/
def execPowerInputApplied (s : State) : Host.Outcome State Fault Refusal :=
  .next (if s.module.input then s else onModule s fun m => { m with input := true, step := 0, stepTime := s.elapsed })

/-- COOLANT_OK_ASSERTED. -/
def execCoolantOkAsserted (s : State) : Host.Outcome State Fault Refusal :=
  .next (onModule s fun m => { m with coolant := true })

/-- Whether the next rail step may come up. -/
def stepUpOk (s : State) : Bool :=
  let m := s.module
  m.input && m.coolant && !m.tripped && m.step < 4 && m.stepTime + 1000000 ≤ s.elapsed

/-- Whether a power-down is under way: it follows Trip, which the loss of COOLANT_OK brings as well (R12, R16). -/
def stepDownOk (s : State) : Bool := 0 < s.module.step && s.module.tripped

/-- RAIL_SEQUENCE_STEP: the next step up, or the last one down in the reverse order, with which READY falls. The last step
up ends the sequence; the first such end starts MTIME (assumption 69). -/
def execRailSequenceStep (up : Bool) (s : State) : Host.Outcome State Fault Refusal :=
  .next (if up then
      if stepUpOk s then onModule s fun m => { m with
        step := m.step + 1, stepTime := s.elapsed, started := m.started || m.step == 3 } else s
    else if stepDownOk s then
      onModule s fun m => { m with step := m.step - 1, stepTime := s.elapsed, ready := false }
    else s)

/-- Every core that runs a slice stops: its clock or its rails are gone. -/
def stopCores (s : State) : State :=
  { s with cores := s.cores.map fun (n, k) => (n, if k.slice.isSome then { k with halted := true } else k) }

/-- RAIL_FAULT: after sequencing, every rail but VDD_AUX goes off; the event is logged with the rail's row. The rails
that come up again are sequenced anew, and a self-test follows that sequence: READY falls until it is done
(assumption 29). -/
def execRailFault (row : Nat) (s : State) : Host.Outcome State Fault Refusal :=
  .next (if s.module.step != 4 || 8 ≤ row then s
    else stopCores (logEvent (onModule s fun m => { m with
      step := 0, stepTime := s.elapsed, ready := false, retest := m.retest || m.ready }) 0x0001 row))

/-- PERST_RELEASE. -/
def execPerstRelease (s : State) : Host.Outcome State Fault Refusal :=
  .next (onModule s fun m => { m with perst := false })

/-! ### The self-test (R12, R19, R69) -/

/-- The heater codes and needs the self-test leaves at one port: its rings stand at the temperature of the test. -/
def testedPort (t : SelfTest) (p : Port) (i : Nat) : Port :=
  { p with
    htr := t.heaters.foldl (fun h e => if e.1 / 32 == i then put h (e.1 % 32) e.2 else h) p.htr
    base := t.need.foldl (fun h e => if e.1 / 2 == i then put h (e.1 % 2) e.2 else h) p.base
    rise := [] }

/-- Every port forms its stripe anew. -/
def restripeAll (s : State) : State := (List.range 64).foldl restripePort s

/-- The figures of a self-test fill CAPACITY. -/
def testedModule (t : SelfTest) (m : Module) : Module :=
  { m with
    live := t.liveCores, bamap := (t.bamap.take 32).zipIdx.map fun (v, k) => (k, v)
    spares := t.spares, sparesOf := t.sparesOf.foldl (fun l e => put l e.1 e.2) [], ready := true, retest := false }

/-- CAPACITY after a self-test; one that follows a rail fault and finds other figures opens a new epoch
(assumption 29). -/
def fillCapacity (t : SelfTest) (s : State) : State :=
  let u := onModule s (testedModule t)
  if s.module.retest && !(capacity u == capacity s && u.module.live == s.module.live) then newEpoch u else u

/-- SELF_TEST_DONE, after sequencing, and from an image that the boot ROM has checked (R27): CAPACITY is filled and
READY set, the ports form their stripes, and PCIe link training may complete. -/
def execSelfTestDone (t : SelfTest) (s : State) : Host.Outcome State Fault Refusal :=
  .next (if s.module.step != 4 || !s.module.bootChecked || s.module.ready then s
    else
      checkReplace (restripeAll
        ((List.range 64).foldl (fun s i => onPort s i fun p => testedPort t p i) (fillCapacity t s))))

/-! ### Sensors and the throttle ladder (R14-R17, R25) -/

/-- Whether a reading in 1/16 K stands for at least `c` degrees Celsius, exactly (R25). -/
def atLeast (r c : Nat) : Bool := 1600 * c + 437040 ≤ 100 * r
/-- Whether it stands for more than `c` degrees. -/
def above (r c : Nat) : Bool := 1600 * c + 437040 < 100 * r
/-- A die reading for the ladder: a failed sensor counts as 120 °C, the reading 6291 being the first at or above it. -/
def dieReading (r : Nat) : Nat := if r == 0xFFFF then 6291 else r
/-- The hottest die. -/
def hottest (s : State) : Nat := s.module.sensors.die.foldl (fun a r => Nat.max a (dieReading r.toNat)) 0
/-- The temperature of a throttle level (Table 1.3). -/
def levelTemp : Nat → Nat
  | 1 => 95 | 2 => 100 | 3 => 105 | _ => 110
/-- Whether the averaged input power is over the limit. -/
def overLimit (s : State) : Bool := s.module.limit < s.module.sensors.average
/-- Whether the trigger of a level holds. -/
def triggered (s : State) (n : Nat) : Bool := atLeast (hottest s) (levelTemp n) || (n == 1 && overLimit s)
/-- The highest level whose trigger holds. -/
def triggerLevel (s : State) : Nat :=
  ((List.range 4).filter fun n => triggered s (n + 1)).foldl (fun a n => Nat.max a (n + 1)) 0
/-- Whether the condition for leaving a level holds: 5 °C below it, and below 95 % of the limit for level 1. -/
def cooled (s : State) (n : Nat) : Bool :=
  !above (hottest s) (levelTemp n - 5) && (n != 1 || 100 * s.module.sensors.average < 95 * s.module.limit)
/-- Since when each level's condition for leaving has held. -/
def coolTimes (s : State) : Map Nat :=
  ((List.range 4).filter fun n => cooled s (n + 1)).map fun n => (n + 1, look s.elapsed s.module.coolSince (n + 1))
/-- The level after a fall: the highest level up to the present one that may not yet be left. -/
def heldLevel (s : State) : Nat :=
  ((List.range 4).filter fun n => n + 1 ≤ s.module.level && (!cooled s (n + 1) ||
    match find s.module.coolSince (n + 1) with
    | some t => s.elapsed < t + 100000000
    | none => true)).foldl (fun a n => Nat.max a (n + 1)) 0

/-- A change of the throttle level: logged, and every port striped anew for its width bound (R14, R37). -/
def setLevel (s : State) (n : Nat) : State :=
  if n == s.module.level then s
  else
    restripeAll (logEvent (onModule s fun m => { m with level := n }) 0x0003 n)

/-- THROTTLE_UP. -/
def execThrottleUp (s : State) : Host.Outcome State Fault Refusal :=
  .next (if s.module.level < triggerLevel s then setLevel s (triggerLevel s) else s)
/-- THROTTLE_DOWN. -/
def execThrottleDown (s : State) : Host.Outcome State Fault Refusal :=
  .next (if heldLevel s < s.module.level then setLevel s (heldLevel s) else s)

/-- A site reading. -/
def siteReading (s : State) (site : Nat) : Nat := (s.module.sensors.site.getD site 0).toNat

/-- The die temperature under each port (Table 2.9). -/
def sensePorts (s : State) (ts : List (BitVec 16)) : State :=
  ((ts.take 64).zipIdx).foldl (fun s e => onPort s e.2 fun p => { p with tsens := e.1 }) s

/-- Whether the trigger of Trip holds: a die at 120 °C, or COOLANT_OK lost with rails up (Table 1.3). -/
def tripTrigger (s : State) : Bool := (0 < s.module.step && !s.module.coolant) || atLeast (hottest s) 120

/-- SENSOR_REFRESH: the readings, HBM_HOT while any site is above 85 °C, the times the ladder and R17 count from, TSENS
of the ports, and the COOLANT_OK pin, of whose loss no row of the table tells; a trigger of Trip that they show stays
till it is taken (assumption 29, DESIGN CHOICE). A failed site sensor, 0xFFFF, counts as above 85 °C and as at 95 °C or
above (assumption 4, DESIGN CHOICE). -/
def execSensorRefresh (r : Readings) (s : State) : Host.Outcome State Fault Refusal :=
  let s := onModule s fun m => { m with sensors := r, coolant := r.coolant }
  .next (sensePorts (onModule s fun m => { m with
    hot := (List.range 32).any fun k => above (siteReading s k) 85
    hotSince := ((List.range 32).filter fun k => atLeast (siteReading s k) 95).map fun k => (k, look s.elapsed m.hotSince k)
    coolSince := coolTimes s, tripHeld := m.tripHeld || tripTrigger s }) r.tsens)

/-- HBM_SITE_HOT: a site above 85 °C sets HBM_HOT; its refresh rate has no state (assumption 17). -/
def execHbmSiteHot (site : Nat) (s : State) : Host.Outcome State Fault Refusal :=
  .next (if site < 32 && above (siteReading s site) 85 then onModule s fun m => { m with hot := true } else s)

/-! ### Fencing and sparing (R20, R112) -/

/-- Fence a core that runs no slice: CORES_LIVE drops in a new epoch. -/
def fenceNow (s : State) (core : Nat) : State :=
  let s := onModule s fun m => { m with
    live := m.live &&& ~~~ BitVec.ofNat 128 (2 ^ core), fencing := m.fencing &&& ~~~ BitVec.ofNat 128 (2 ^ core) }
  checkReplace (logEvent (newEpoch s) 0x0006 core)

/-- Whether a core is marked for fencing. -/
def fenceMarked (s : State) (core : Nat) : Bool := flag s.module.fencing.toNat core

/-- CORE_FENCE: a core is marked, and fenced once it runs no slice. -/
def execCoreFence (core : Nat) (s : State) : Host.Outcome State Fault Refusal :=
  .next (if !coreLive s core then s
    else if (coreOf s core).slice.isSome then
      onModule s fun m => { m with fencing := m.fencing ||| BitVec.ofNat 128 (2 ^ core) }
    else fenceNow s core)

/-- SRAM_ROW_SPARING: a core-store bank uses, or the test engine removes, one spare row. -/
def execSramRowSparing (core bank : Nat) (s : State) : Host.Outcome State Fault Refusal :=
  .next (
    let b := 64 * core + bank
    if 128 ≤ core || 64 ≤ bank || sparesOf s b == 0 then s
    else
      let t := onModule s fun m => { m with sparesOf := put m.sparesOf b (sparesOf s b - 1) }
      checkReplace (if spareMin t == spareMin s then t else newEpoch t))

end Sys2Proof.Machine
end

