-- ==== Sys2Proof/Machine/Mgmt.lean ====
section
/-! DEFINITION. The management controller: the mailbox, firmware staging and activation, the event log, the boot ROM and
the recovery window (01 R22-R28). -/

namespace Sys2Proof.Machine

/-! ### The mailbox (R22, R23, R26) -/

/-- Whether a new request is refused with BUSY: an unread response, or a flash write. -/
def mailboxBusy (s : State) : Bool := s.module.response.isSome || s.module.writing.isSome
/-- A request: nothing without VDD_AUX, from which the controller runs; refused with BUSY, which the next read answers;
or given its answer by `f`. -/
def request (s : State) (f : State → State) : Host.Outcome State Fault Refusal :=
  .next (if !s.module.input then s
    else if mailboxBusy s then onModule s fun m => { m with refused := true } else f s)
/-- Answer with a status and data. -/
def answer (s : State) (status : Nat) (data : List Byte) : State :=
  onModule s fun m => { m with response := some (toBytes 1 status ++ toBytes 1 data.length ++ data) }

/-- READ_SENSORS. -/
def execReadSensors (s : State) : Host.Outcome State Fault Refusal :=
  request s fun s =>
    let r := s.module.sensors
    let col := fun (n : Nat) (l : List (BitVec 16)) => (List.range n).flatMap fun i => toBytes 2 (l.getD i 0).toNat
    answer s 0 (col 8 r.die ++ col 8 r.towerCurrent ++ col 32 r.site ++ col 32 r.siteCurrent ++ toBytes 2 r.power.toNat)
/-- READ_MODSTAT. -/
def execReadModstat (s : State) : Host.Outcome State Fault Refusal :=
  request s fun s => answer s 0 (toBytes 4 (modstat s))
/-- READ_CAPACITY. -/
def execReadCapacity (s : State) : Host.Outcome State Fault Refusal :=
  request s fun s => answer s 0 (toBytes 8 (capacity s) ++ toBytes 16 s.module.live.toNat)
/-- SET_POWER_LIMIT. The first two argument bytes are the limit whatever the length byte says, of which the spec states
no check (assumption 28, DESIGN CHOICE). -/
def execSetPowerLimit (args : List (BitVec 8)) (s : State) : Host.Outcome State Fault Refusal :=
  request s fun s =>
    let w := imageAt args 0 2
    let t := onModule s fun m => { m with limit := w }
    if 2000 ≤ w && w ≤ 3400 then answer (onModule t fun m => { m with coolSince := coolTimes t }) 0 [] else answer s 0x03 []
/-- A mailbox request with an unknown code. -/
def execMailboxUnknownCommand (code : BitVec 8) (s : State) : Host.Outcome State Fault Refusal :=
  if [0x01, 0x02, 0x03, 0x10, 0x20, 0x21, 0x30].contains code.toNat then .next s
  else request s fun s => answer s 0x01 []
/-- MAILBOX_RESPONSE_READ, which needs VDD_AUX: a refused request is answered first; else the response is read and the
mailbox is free. -/
def execMailboxResponseRead (s : State) : Host.Outcome State Fault Refusal :=
  .next (if !s.module.input then s else onModule s fun m =>
    if m.refused then { m with refused := false, answer := toBytes 2 0x02 }
    else match m.response with
      | some r => { m with response := none, answer := r }
      | none => m)

/-- EVENT_LOG: up to 16 entries, led by one that counts the entries lost, whose time no rule gives (assumption 28). -/
def execEventLog (s : State) : Host.Outcome State Fault Refusal :=
  request s fun s =>
    let m := s.module
    let (w, s) := if m.logLost == 0 then (0, s) else drawWord s
    let lost := if m.logLost == 0 then [] else [toBytes 8 w.toNat ++ toBytes 2 0xFFFF ++ toBytes 2 (Nat.min 65535 m.logLost)]
    let n := 16 - lost.length
    answer (onModule s fun m => { m with log := m.log.drop n, logLost := 0 }) 0 ((lost ++ m.log.take n).flatten)

/-! ### Firmware images (R24) -/

/-- Bytes of the staging buffer. -/
def stagingSize : Nat := 2 ^ 26

/-- Write a chunk into the staging buffer. -/
def stage (s : State) (o : Nat) (bs : List Byte) : State :=
  let bs := bs.take (stagingSize - o)
  onModule s fun m => { m with staging := writeBytes m.staging o bs, staged := m.staged ++ [(o, bs.length)] }

/-- Whether every byte from `a` to below `n` has been staged. -/
def covered (staged : List (Nat × Nat)) (n : Nat) : Nat → Nat → Bool
  | 0, a => n ≤ a
  | fuel + 1, a =>
    if n ≤ a then true
    else match staged.find? fun r => r.1 ≤ a && a < r.1 + r.2 with
      | some r => covered staged n fuel (r.1 + r.2)
      | none => false

/-- The checks of an image in staging: 0, or the code of the first that fails. -/
def imageCheck (s : State) (len : Nat) (crc : BitVec 32) : Nat :=
  let m := s.module
  if len == 0 || stagingSize < len || !covered m.staged len (m.staged.length + 1) 0 then 0x06
  else
    let image := readBytes m.staging 0 len
    if crc32 image != crc then 0x04 else if !Config.imageSigned image then 0x05 else 0

/-- The write of the staged image over the one in flash begins. -/
def startFlash (s : State) (len : Nat) (window : Bool) : State :=
  onModule s fun m => { m with
    flash := writeBytes [] 0 (readBytes m.staging 0 len), flashLen := len, flashPartial := true
    writing := some ⟨len, window⟩ }

/-- FW_STAGE. -/
def execFwStage (args : List (BitVec 8)) (s : State) : Host.Outcome State Fault Refusal :=
  request s fun s =>
    let o := imageAt args 0 4
    if args.length != 244 || o % 240 != 0 || stagingSize ≤ o then answer s 0x03 []
    else answer (stage s o (args.drop 4)) 0 []
/-- FW_ACTIVATE: refused by its first failing check, else answered when the write has ended. -/
def execFwActivate (args : List (BitVec 8)) (s : State) : Host.Outcome State Fault Refusal :=
  request s fun s =>
    let code := if args.length != 8 then 0x06 else imageCheck s (imageAt args 0 4) (BitVec.ofNat 32 (imageAt args 4 4))
    if code == 0 then startFlash s (imageAt args 0 4) false else answer s code []
/-- FLASH_WRITE_DONE: the image is whole, the write is logged, and its issuer learns of it. -/
def execFlashWriteDone (s : State) : Host.Outcome State Fault Refusal :=
  .next (match s.module.writing with
    | none => s
    | some w =>
      let s := logEvent (onModule s fun m => { m with writing := none, flashPartial := false }) 0x0009 0
      if w.window then onModule s fun m => { m with window := { m.window with busy := false, done := true } }
      else answer s 0 [])

/-! ### Boot and recovery (R27, R28) -/

/-- BOOT_ROM_CHECK: once after each cold reset, as soon as the management controller has power, and before the image or
the self-test runs; a failed or partly written image enters recovery. -/
def execBootRomCheck (s : State) : Host.Outcome State Fault Refusal :=
  .next (
    let m := s.module
    if m.bootChecked || !m.input then s
    else
      let s := onModule s fun m => { m with bootChecked := true }
      if !m.flashPartial && Config.imageSigned (readBytes m.flash 0 m.flashLen) then s
      else logEvent (onModule s fun m => { m with recovery := true }) 0x0008 0)

/-- The state with the recovery window changed. -/
def onWindow (s : State) (f : Recovery → Recovery) : State := onModule s fun m => { m with window := f m.window }
/-- Whether the window takes a write: it is decoded only in recovery, and BUSY ignores writes (R28). -/
def windowOpen (s : State) : Bool := s.module.recovery && !s.module.window.busy
/-- Whether a command of the window is taken. One written while a flash write of the mailbox runs is dropped without
FAIL, of which the spec says nothing (assumption 28, DESIGN CHOICE). -/
def windowFree (s : State) : Bool := windowOpen s && s.module.writing.isNone
/-- A refused command. -/
def windowFail (s : State) (code : Nat) : State := onWindow s fun w => { w with fail := true, err := code }

/-- RECOVERY_STAGE: RDATA is staged at ROFS, its bytes beyond RLEN ignored, or the offset is refused. -/
def execRecoveryStage (s : State) : Host.Outcome State Fault Refusal :=
  .next (
    let w := s.module.window
    let o := w.ofs.toNat
    if !windowFree s then s
    else if o % 2048 != 0 || stagingSize ≤ o then windowFail s 0x06
    else onWindow (stage s o (readBytes w.data 0 (Nat.min 2048 (w.len.toNat - o)))) fun w =>
      { w with busy := true, fail := false })
/-- RECOVERY_STAGE_DONE. -/
def execRecoveryStageDone (s : State) : Host.Outcome State Fault Refusal :=
  .next (if s.module.window.busy && s.module.writing.isNone then onWindow s fun w => { w with busy := false } else s)
/-- RECOVERY_COMMIT: the checks of FW_ACTIVATE, then the write. -/
def execRecoveryCommit (s : State) : Host.Outcome State Fault Refusal :=
  .next (
    let w := s.module.window
    if !windowFree s then s
    else
      let code := imageCheck s w.len.toNat w.crc
      if code == 0 then
        startFlash (onWindow s fun w => { w with busy := true, fail := false, done := false }) w.len.toNat true
      else windowFail s code)

/-- A write of the recovery window's plain registers; BUSY ignores it. RDATA takes 8 bytes at a time. -/
def writeWindow (s : State) (off : Nat) (v : BitVec 64) : State :=
  if !windowOpen s then s
  else match off with
    | 0x008 => onWindow s fun w => { w with len := v.setWidth 32 }
    | 0x010 => onWindow s fun w => { w with ofs := v.setWidth 32 }
    | 0x018 => onWindow s fun w => { w with crc := v.setWidth 32 }
    | _ => if 0x800 ≤ off && off + 8 ≤ 0x1000 then
        onWindow s fun w => { w with data := writeBytes w.data (off - 0x800) (toBytes 8 v.toNat) }
      else s

/-- RSTAT (Table 1.9). -/
def rstat (w : Recovery) : Nat := w.err * 2 ^ 8 + bit01 w.done * 4 + bit01 w.fail * 2 + bit01 w.busy

/-- A read of `n` bytes of the recovery window, which is decoded only in recovery; RCMD and every offset that is not
listed read as zero. -/
def windowBytes (s : State) (off n : Nat) : List Byte :=
  let w := s.module.window
  if !s.module.recovery then List.replicate n 0
  else (List.range n).map fun i =>
    let o := off + i
    if 0x800 ≤ o then readByte w.data (o - 0x800)
    else
      let v := match o / 8 with
        | 0 => rstat w | 1 => w.len.toNat | 2 => w.ofs.toNat | 3 => w.crc.toNat | _ => 0
      BitVec.ofNat 8 (v / 256 ^ (o % 8))

end Sys2Proof.Machine
end

