-- ==== Sys2Proof/Machine/Caldera.lean ====
section
/-! DEFINITION. The events of the optical ports: register writes, parking and waking, and flits received (02 R29-R39,
R394, R395). How deep the transmit queue stands, and for how long, the event itself states: the flits of memory and
collective traffic are not in the state (assumption 31). -/

namespace Sys2Proof.Machine

/-- A change of one of the 64 ports. -/
def portEvent (s : State) (i : Nat) (f : State → State) : Host.Outcome State Fault Refusal :=
  .next (if i < 64 then onPort (f s) i (settleDown s.mtime) else s)

/-- HTR_WRITE. -/
def execHtrWrite (port ring : Nat) (value : BitVec 32) (s : State) : Host.Outcome State Fault Refusal :=
  portEvent s port fun s => if ring < 18 then portWrite s port (4 * ring) value.toNat else s
/-- LMAP_WRITE. -/
def execLmapWrite (port : Nat) (rx : Bool) (value : BitVec 32) (s : State) : Host.Outcome State Fault Refusal :=
  portEvent s port fun s => portWrite s port (if rx then 0x208 else 0x200) value.toNat
/-- PARK_WRITE. -/
def execParkWrite (port : Nat) (value : BitVec 32) (s : State) : Host.Outcome State Fault Refusal :=
  portEvent s port fun s => portWrite s port 0x210 value.toNat
/-- PCTL_WRITE. -/
def execPctlWrite (port : Nat) (value : BitVec 32) (s : State) : Host.Outcome State Fault Refusal :=
  portEvent s port fun s => portWrite s port 0x21C value.toNat

/-- The upper half of a port's lanes. -/
def upperLanes (p : Port) : List Nat := (below 8 fun n => flag p.lanes.toNat n).drop (p.width / 2)
/-- Whether a transmit queue of `depth` flits makes the port idle. -/
def idleDepth (p : Port) (depth : Nat) : Bool := p.queue.length ≤ depth && depth ≤ field p.pctl.toNat 8 8
/-- IDLE_US in nanoseconds: 0 acts as 1 (Table 2.8). -/
def idleTime (p : Port) : Nat := 1000 * Nat.max 1 (field p.pctl.toNat 16 8)
/-- Whether the port parks (R37): AUTO, its queue no deeper than PARK_DEPTH for IDLE_US, and a width that has a half. -/
def idleOk (p : Port) (depth idle : Nat) : Bool :=
  flag p.pctl.toNat 31 && idleDepth p depth && idleTime p ≤ idle && 4 ≤ p.width

/-- PORT_IDLE_PARK: the upper half of the lanes parks. -/
def execPortIdlePark (queue : TransmitQueue) (s : State) : Host.Outcome State Fault Refusal :=
  portEvent s queue.port fun s =>
    if idleOk (portOf s queue.port) queue.depth queue.idle then
      restripePort (onPort s queue.port fun p => (upperLanes p).foldl (fun p n => parkRing p (txRing p n)) p) queue.port
    else s
/-- PORT_WAKE_TRIGGER: with AUTO and a transmit queue of WAKE_DEPTH flits every parked wavelength whose EN bit is 1
begins to wake (R37). -/
def execPortWakeTrigger (queue : TransmitQueue) (s : State) : Host.Outcome State Fault Refusal :=
  portEvent s queue.port fun s => onPort s queue.port fun p =>
    if flag p.pctl.toNat 31 && p.queue.length ≤ queue.depth && field p.pctl.toNat 0 8 ≤ queue.depth then wakeParked p
    else p
/-- WAKE_LOCK_END. -/
def execWakeLockEnd (port ring : Nat) (s : State) : Host.Outcome State Fault Refusal :=
  portEvent s port fun s => onPort s port fun p => lockEnd p ring
/-- WAKE_COMPLETE: the lanes that are ready form the new stripe, which a MARKER announces. -/
def execWakeComplete (port : Nat) (s : State) : Host.Outcome State Fault Refusal :=
  portEvent s port fun s => restripePort (onPort s port wakeEnd) port
/-- RING_LOCK_CHANGE: the temperatures of rings and of the die under the port move, and the stripe is formed anew. -/
def execRingLockChange (port : Nat) (change : RingChange) (s : State) : Host.Outcome State Fault Refusal :=
  portEvent s port fun s => restripePort (onPort s port fun p => { p with
    rise := (change.rise.filter fun e => e.1 < 18).foldl (fun m e => put m e.1 e.2) p.rise
    tsens := change.tsens }) port
/-- RING_LOCK_LOSS: a receive lane that has lost lock is paused at the sender. -/
def execRingLockLoss (port lane : Nat) (s : State) : Host.Outcome State Fault Refusal :=
  portEvent s port fun s => onPort s port fun p =>
    if lane < 8 && !ringLocked p (rxRing p lane) then sendFlit p (ownFlit p 6 true ((laneMask [lane]).toNat * 256)) else p

/-! ### Flits received (R33-R36, R38) -/

/-- A flit time at a port: its corrected symbols count, and what it brought, whole or not, is taken by `f`. -/
def flitEvent (s : State) (i : Nat) (r : Received) (f : Port → Option Flit → Port) : Host.Outcome State Fault Refusal :=
  portEvent s i fun s => onPort s i fun p => f (countErrors p r) (received p r)

/-- Take a flit of a type by `f`, one that is not accepted as `receive` does, and no flit of another type: its own row
takes it. -/
def ofType (n : Nat) (f : Port → Flit → Port) (p : Port) (r : Option Flit) : Port :=
  match r with
  | none => receive p r
  | some x => if x.type.toNat == n then f p x else p

/-- MARKER_RECEIVED: an accepted MARKER gives the width and lanes of the flits that follow. -/
def execMarkerReceived (port : Nat) (r : Received) (s : State) : Host.Outcome State Fault Refusal :=
  flitEvent s port r (ofType 2 fun p f =>
    if flitOk p (some f) then
      { receive p (some f) with peerWidth := (markerStripe f).1, peerLanes := (markerStripe f).2 }
    else receive p (some f))
/-- LANE_PAUSE: the lanes the peer names leave the stripe. -/
def execLanePause (port : Nat) (r : Received) (s : State) : Host.Outcome State Fault Refusal :=
  flitEvent s port r (ofType 6 fun p f =>
    if flitOk p (some f) then
      restripe s.mtime s.module.level { receive p (some f) with paused := p.paused ||| (markerStripe f).2 }
    else receive p (some f))
/-- DATA: a flit that carries data, IDLE or WITHDRAW, or one that is discarded. -/
def execData (port : Nat) (r : Received) (s : State) : Host.Outcome State Fault Refusal :=
  flitEvent s port r fun p x =>
    if flitOk p x && x.any (fun f => [2, 3, 4, 6].contains f.type.toNat) then p else receive p x
/-- ACK: flits held for replay are freed. -/
def execAck (port : Nat) (r : Received) (s : State) : Host.Outcome State Fault Refusal :=
  flitEvent s port r (ofType 3 takeAck)
/-- NAK: the sender replays from the SEQ it names. -/
def execNak (port : Nat) (r : Received) (s : State) : Host.Outcome State Fault Refusal :=
  flitEvent s port r (ofType 4 (replay s.mtime))

end Sys2Proof.Machine
end

