-- ==== Sys2Proof/Machine/Collective.lean ====
section
/-! DEFINITION. The collective engine: forming groups, the operations, withdrawal, and completion (02 R40-R46). What the
members on other modules contribute an event states (assumption 32); members on this one have their own commands and
memory in the state. -/

namespace Sys2Proof.Machine

/-! ### Commands (Table 2.12) -/

/-- OP. -/
def colOp (im : List Byte) : Nat := imageAt im 0 1
/-- TYPE. -/
def colType (im : List Byte) : Nat := imageAt im 1 1
/-- GROUP. -/
def colGroup (im : List Byte) : Nat := imageAt im 2 2
/-- COUNT. -/
def colCount (im : List Byte) : Nat := imageAt im 4 4
/-- SRC. -/
def colSrc (im : List Byte) : Nat := imageAt im 8 8
/-- DST. -/
def colDst (im : List Byte) : Nat := imageAt im 16 8
/-- CPLADDR. -/
def colCpl (im : List Byte) : Nat := imageAt im 40 8
/-- Bytes of an element of a TYPE. -/
def colBytes : Nat → Nat
  | 0 => 4 | 1 => 2 | 2 => 4 | _ => 16

/-- Whether an operation takes a TYPE. -/
def colTypeOk (op t : Nat) : Bool :=
  match op with
  | 1 => true
  | 2 | 4 => t < 3
  | 6 => t == 3
  | _ => t < 4
/-- The limits of Table 2.12 on the fields of a command. -/
def colFieldsOk (im : List Byte) : Bool :=
  1 ≤ colOp im && colOp im ≤ 6 && colTypeOk (colOp im) (colType im) && colGroup im < 256 && zeroAt im 36 4 &&
    zeroAt im 56 8 && colCpl im % 8 == 0 && (colOp im != 1 || (1 ≤ colCount im && colCount im ≤ 4096))

/-- The commands of a context at a tower. -/
def colsOf (s : State) (ctx tower : Nat) : List ColCmd := look [] (ctxOf s ctx).cols tower
/-- The operation that runs: the oldest without a result. -/
def colHead (s : State) (ctx tower : Nat) : Option ColCmd := (colsOf s ctx tower).find? (·.result.isNone)
/-- The state with the commands of a context at a tower changed. -/
def onCols (s : State) (ctx tower : Nat) (f : List ColCmd → List ColCmd) : State :=
  onCtx s ctx fun c => { c with cols := adjust [] c.cols tower f }
/-- Report what the walks of an operation that ends BAD_OP have met at its source and its destination (R88). -/
def colWalks (s : State) (ctx tower number : Nat) : State :=
  match (colsOf s ctx tower).find? fun c => c.number == number && c.result.isNone && colFieldsOk c.image with
  | none => s
  | some c =>
    let w := if colOp c.image == 1 then 8 else colBytes (colType c.image)
    let s := walkReport s ctx 9 0 (colSrc c.image) (w * colCount c.image)
    if colOp c.image == 1 then s else walkReport s ctx 9 1 (colDst c.image) (w * colCount c.image)
/-- End the operation of a number with a status. -/
def colEnd (s : State) (ctx tower number status : Nat) : State :=
  onCols (if status == 0x52 then colWalks s ctx tower number else s) ctx tower (List.map fun x =>
    if x.number == number && x.result.isNone then { x with result := some status } else x)
/-- The group a context numbers. -/
def groupOf (s : State) (ctx g : Nat) : Group := look {} (ctxOf s ctx).groups g

/-- The running operation of a tower, if it has an OP. -/
def colRun (s : State) (ctx tower op : Nat) (f : ColCmd → State) : Host.Outcome State Fault Refusal :=
  .next (if Config.contexts ≤ ctx then s
    else match colHead s ctx tower with
      | none => s
      | some c => if colOp c.image == op then f c else s)

/-! ### FORM (R40, R41) -/

/-- The entries of a member table: none for one out of its limits. -/
def memberEntry (t : List Byte) (i : Nat) : Option (Nat × Nat) :=
  let m := imageAt t (8 * i) 2
  let c := imageAt t (8 * i + 2) 2
  if m < 0xFFF && c < Config.contexts && zeroAt t (8 * i + 4) 4 then some (m, c) else none
/-- The members a table names, all distinct. -/
def memberTable (t : List Byte) (n : Nat) : Option (List (Nat × Nat)) :=
  let es := (List.range n).map (memberEntry t)
  let ms := es.filterMap id
  if ms.length == n && ms.eraseDups.length == n then some ms else none

/-- Whether a module can be reached: itself, or by a valid route over a port that is up. -/
def reachable (s : State) (m : Nat) : Bool :=
  m == s.module.modid.toNat || match routeOf s m with
    | some p => (portOf s p).width != 0
    | none => false

/-- Whether a member on another module lies behind a port that has been down for more than 1 ms (R40). -/
def cutOff (s : State) (m : Nat × Nat) : Bool :=
  m.1 != s.module.modid.toNat && (routeOf s m.1).any (downLong s)

/-- The contributions of the members on other modules: none while one is missing, or is cut off, whose group
PORT_DOWN_TIMEOUT then ends. -/
def contributions (s : State) (ms : List (Nat × Nat)) (peers : List Contribution) : Option (List Contribution) :=
  let cs := (ms.zipIdx.filter fun m => m.1.1 != s.module.modid.toNat).map fun m =>
    if cutOff s m.1 then none else peers.find? fun c => c.member == m.2
  if cs.any (·.isNone) then none else some (cs.filterMap id)

/-- A member that is a context of this module, with the operation it has outstanding: its position in ring order, its
context, the tower and the command. -/
structure Party where
  member : Nat
  ctx : Nat
  tower : Nat
  cmd : ColCmd
  deriving DecidableEq, Repr

/-- The member at a position of ring order, if it is a context of this module with an operation outstanding that `f`
accepts. -/
def partyOf (s : State) (f : Nat → ColCmd → Bool) (m : Nat × Nat) (j : Nat) : Option Party :=
  (List.range Config.towers).findSome? fun t => match colHead s m.2 t with
    | some c => if f m.2 c then some ⟨j, m.2, t, c⟩ else none
    | none => none

/-- The members on this module, the one whose event it is (`own`) with the command it names: none while one of them has
no operation that `f` accepts. -/
def parties (s : State) (ms : List (Nat × Nat)) (own : Party) (f : Nat → ColCmd → Bool) : Option (List Party) :=
  let ps := (ms.zipIdx.filter fun m => m.1.1 == s.module.modid.toNat).map fun m =>
    if m.2 == own.member then some own else partyOf s f m.1 m.2
  if ps.any (·.isNone) then none else some (ps.filterMap id)

/-- End the operation of every member on this module. -/
def endParties (s : State) (ps : List Party) (status : Nat) : State :=
  ps.foldl (fun s p => colEnd s p.ctx p.tower p.cmd.number status) s

/-- The table a FORM names, with its members, if it is within its limits. -/
def formTable (s : State) (ctx : Nat) (im : List Byte) : Option (List Byte × List (Nat × Nat)) :=
  let me := (s.module.modid.toNat, ctx)
  if !colFieldsOk im || colSrc im % 8 != 0 || me.1 == 0xFFF then none
  else match readVirtual s ctx (colSrc im) (8 * colCount im) with
    | none => none
    | some t => match memberTable t (colCount im) with
      | some ms => if ms.contains me then some (t, ms) else none
      | none => none

/-- Position of this context in a list of members. -/
def ownMember (s : State) (ctx : Nat) (ms : List (Nat × Nat)) : Nat := ms.findIdx (· == (s.module.modid.toNat, ctx))

/-- The contexts of parties with the numbers that their commands give the group. -/
def groupLocals (ps : List Party) : List (Nat × Nat) := ps.map fun p => (p.ctx, colGroup p.cmd.image)

/-- The group that a FORM of a context forms, by the context's own number. -/
def formGroup (g : Group) (s : State) (p : Party) : State :=
  onCtx s p.ctx fun x => { x with groups := put x.groups (colGroup p.cmd.image) g }

/-- FORM: BAD_OP, or the group, at every member on this module, once every member has issued the same table; until then
it stays outstanding, for 100 ms at most, when it ends as time passes (`expireForms`). -/
def execForm (ctx tower : Nat) (peers : List Contribution) (s : State) : Host.Outcome State Fault Refusal :=
  colRun s ctx tower 1 fun c =>
    if virtualWaits s ctx 0 (colSrc c.image) (8 * colCount c.image) then s
    else match formTable s ctx c.image with
    | none => colEnd s ctx tower c.number 0x52
    | some (t, ms) =>
      let own : Party := ⟨ownMember s ctx ms, ctx, tower, c⟩
      match parties s ms own fun x d => colOp d.image == 1 && formTable s x d.image == some (t, ms),
          contributions s ms peers with
      | some ps, some cs =>
        if ms.all (fun m => reachable s m.1) && cs.all (fun p => colOp p.command == 1 && p.data == t) then
          endParties (ps.foldl (formGroup ⟨ms, groupLocals ps, false⟩) s) ps 0
        else s
      | _, _ => s

/-- FORM_TIMEOUT: a FORM that has stood for 100 ms ends; its group is not formed. A group formed earlier under its
number stands, of which the spec says nothing (assumption 33, DESIGN CHOICE). -/
def execFormTimeout (ctx tower : Nat) (s : State) : Host.Outcome State Fault Refusal :=
  colRun s ctx tower 1 fun c => if c.since + 100000000 ≤ s.mtime then colEnd s ctx tower c.number 0x50 else s

/-! ### The data operations (R43, R44) -/

/-- The running sum of one element over the members, in ring order, f32 for b16 (R43). -/
def sumElement (type : Nat) : List Nat → Nat
  | [] => 0
  | x :: xs =>
    match type with
    | 0 => xs.foldl (fun a b => (faddR f32 0 a b).bits) x
    | 1 =>
      let up := fun (v : Nat) => (fconvert f32 0 (fval b16 v)).bits
      if xs.isEmpty then x else (fconvert b16 0 (fval f32 (xs.foldl (fun a b => (faddR f32 0 a (up b)).bits) (up x)))).bits
    | _ => xs.foldl (fun a b => (a + b) % 2 ^ 32) x

/-- The sums of members' sources, elements `lo` to `lo + n - 1`. -/
def sumSources (type lo n : Nat) (srcs : List (List Byte)) : List Byte :=
  let w := colBytes type
  (List.range n).flatMap fun i => toBytes w (sumElement type (srcs.map fun b => imageAt b (w * (lo + i)) w))

/-- A triple with an offset added to its index (R44). -/
def offsetTriple (t : Triple) (iofs : Nat) : Triple :=
  if t.index == noIndex then t else { t with index := (t.index + iofs) % 2 ^ 32 }

/-- DRAWMERGE over the members' commands, sources and member 0's uniforms: none for invalid operands. -/
def mergeRows (rows : Nat) (ms : List (List Byte × List Byte)) (uni : List Byte) : Option (List Byte) :=
  let first := (ms.head?.map (·.1)).getD []
  let p : DrawParams := ⟨tempOf (imageAt first 48 4), imageAt first 52 4⟩
  let n := ms.length
  let us := (List.range (rows * (n - 1))).map fun i => imageAt uni (4 * i) 4
  if !paramsOk p || !us.all uniformOk then none
  else some ((List.range rows).flatMap fun r =>
    let ts := ms.map fun m => offsetTriple (tripleFrom ((m.2.drop (16 * r)).take 16)) (imageAt m.1 32 4)
    tripleBytes (foldAll p ts ((us.drop (r * (n - 1))).take (n - 1))).t)

/-- The result of an operation for member `own`: BAD_OP where a COUNT does not divide or an operand is invalid. -/
def colResult (im : List Byte) (own : Nat) (ms : List (List Byte × List Byte)) (uni : List Byte) : Option (List Byte) :=
  let n := ms.length
  let w := colBytes (colType im)
  let count := colCount im
  let srcs := ms.map (·.2)
  match colOp im with
  | 2 => some (sumSources (colType im) 0 count srcs)
  | 3 => some srcs.flatten
  | 4 => if count % n != 0 then none else some (sumSources (colType im) (own * (count / n)) (count / n) srcs)
  | 5 => if count % n != 0 then none
    else some (srcs.flatMap fun b => (b.drop (own * (count / n) * w)).take (count / n * w))
  | _ => mergeRows count ms uni

/-- Whether another member's command agrees in OP, TYPE and COUNT. -/
def commandsAgree (a b : List Byte) : Bool := colOp a == colOp b && colType a == colType b && colCount a == colCount b

/-- Bytes of DRAWMERGE's uniform table. -/
def uniBytes (im : List Byte) (n : Nat) : Nat := if colOp im == 6 then 4 * colCount im * (n - 1) else 0

/-- The operands of this member: its source, and its uniforms where it is member 0. -/
def ownOperands (s : State) (ctx own n : Nat) (im : List Byte) : Option (List Byte × List Byte) :=
  match readVirtual s ctx (colSrc im) (colBytes (colType im) * colCount im) with
  | none => none
  | some src =>
    if own != 0 || uniBytes im n == 0 then some (src, [])
    else (readVirtual s ctx (imageAt im 24 8) (uniBytes im n)).map fun u => (src, u)

/-- Bytes an operation of `n` members writes at DST. -/
def resultBytes (im : List Byte) (n : Nat) : Nat :=
  let w := colBytes (colType im) * colCount im
  match colOp im with
  | 3 => n * w
  | 4 => w / Nat.max 1 n
  | _ => w

/-- Whether a member's accesses wait. -/
def partyWaits (s : State) (n : Nat) (p : Party) : Bool :=
  let im := p.cmd.image
  virtualWaits s p.ctx 0 (colSrc im) (colBytes (colType im) * colCount im) ||
    (p.member == 0 && 0 < uniBytes im n && virtualWaits s p.ctx 0 (imageAt im 24 8) (uniBytes im n)) ||
    virtualWaits s p.ctx 1 (colDst im) (resultBytes im n)

/-- Every member's command and source in ring order, and member 0's uniforms: none where a member of this module cannot
read its operands. -/
def operandsOf (s : State) (n : Nat) (ps : List Party) (cs : List Contribution) :
    Option (List (List Byte × List Byte) × List Byte) :=
  let ms := (List.range n).map fun j => match ps.find? (·.member == j) with
    | some p => (ownOperands s p.ctx j n p.cmd.image).map fun o => (p.cmd.image, o.1, o.2)
    | none => (cs.find? (·.member == j)).map fun c => (c.command, c.data, c.uniforms)
  if ms.any (·.isNone) then none
  else
    let ms := ms.filterMap id
    some (ms.map fun m => (m.1, m.2.1), (ms.head?.map (·.2.2)).getD [])

/-- One member of this module takes its result. -/
def takeResult (s : State) (r : Party × List Byte) : State :=
  match writeVirtual s r.1.ctx (colDst r.1.cmd.image) r.2 with
  | none => colEnd s r.1.ctx r.1.tower r.1.cmd.number 0x52
  | some t => colEnd t r.1.ctx r.1.tower r.1.cmd.number 0

/-- The operation of a group whose every member has issued it: MISMATCH, BAD_OP, or each member's result at its DST. -/
def colOutcome (s : State) (n : Nat) (ps : List Party) (cs : List Contribution) (im : List Byte) : State :=
  if !(ps.all (fun p => commandsAgree im p.cmd.image) && cs.all fun p => commandsAgree im p.command) then
    endParties s ps 0x51
  else match operandsOf s n ps cs with
    | none => endParties s ps 0x52
    | some (ms, uni) =>
      let rs := ps.map fun p => (colResult p.cmd.image p.member ms uni).map fun bs => (p, bs)
      if rs.any (·.isNone) then endParties s ps 0x52 else (rs.filterMap id).foldl takeResult s

/-- Whether a command of a context is an operation on a group: within its limits, of a COUNT, under the number that the
group has there. One out of its limits, or with COUNT = 0, ends by itself and takes no part (R42, assumption 33). A FORM
under the number of a formed group is not one of its operations, while a peer's command that is a FORM differs from this
member's: the spec says of neither whether it is a MISMATCH (assumption 33, DESIGN CHOICE). -/
def colJoins (s : State) (g : Group) (x : Nat) (d : ColCmd) : Bool :=
  colOp d.image != 1 && colFieldsOk d.image && colCount d.image != 0 &&
    g.locals.contains (x, colGroup d.image) && groupOf s x (colGroup d.image) == g

/-- An operation on a group: its limits, COUNT 0, a dead group, then, once every member has issued it, its outcome at
every member on this module. -/
def colData (op ctx tower : Nat) (peers : List Contribution) (s : State) : Host.Outcome State Fault Refusal :=
  colRun s ctx tower op fun c =>
    let stop := fun (code : Nat) => colEnd s ctx tower c.number code
    let g := groupOf s ctx (colGroup c.image)
    let own : Party := ⟨ownMember s ctx g.members, ctx, tower, c⟩
    if !colFieldsOk c.image then stop 0x52
    else if colCount c.image == 0 then stop 0
    else if g.dead then stop 0x55
    else match parties s g.members own (colJoins s g), contributions s g.members peers with
      | some ps, some cs =>
        if ps.any (partyWaits s g.members.length) then s else colOutcome s g.members.length ps cs c.image
      | _, _ => s

/-- ALLREDUCE. -/
def execAllreduce (ctx tower : Nat) (peers : List Contribution) (s : State) : Host.Outcome State Fault Refusal :=
  colData 2 ctx tower peers s
/-- ALLGATHER. -/
def execAllgather (ctx tower : Nat) (peers : List Contribution) (s : State) : Host.Outcome State Fault Refusal :=
  colData 3 ctx tower peers s
/-- REDSCATTER. -/
def execRedscatter (ctx tower : Nat) (peers : List Contribution) (s : State) : Host.Outcome State Fault Refusal :=
  colData 4 ctx tower peers s
/-- ALLTOALL. -/
def execAlltoall (ctx tower : Nat) (peers : List Contribution) (s : State) : Host.Outcome State Fault Refusal :=
  colData 5 ctx tower peers s
/-- DRAWMERGE. -/
def execDrawmerge (ctx tower : Nat) (peers : List Contribution) (s : State) : Host.Outcome State Fault Refusal :=
  colData 6 ctx tower peers s

/-- COLLECTIVE_BAD_OP: a command whose fields are out of their limits. -/
def execCollectiveBadOp (ctx tower : Nat) (s : State) : Host.Outcome State Fault Refusal :=
  .next (if Config.contexts ≤ ctx then s
    else match colHead s ctx tower with
      | none => s
      | some c => if colFieldsOk c.image then s else colEnd s ctx tower c.number 0x52)

/-! ### Completion (R46) -/

/-- The report of an ended operation: its completion word, or its item record, whose ADDR is CPLADDR and whose RECORD
and UNIT are 0, since no rule names them (assumption 33, DESIGN CHOICE). -/
def colReport (s : State) (ctx number status : Nat) (im : List Byte) : State :=
  let cpl := colCpl im
  let item : Item := ⟨status, 9, 0x7F, 0, 0, 8, number, cpl, 0⟩
  if cpl == 0 then if status == 0 then s else postItem s ctx item
  else if cpl % 8 != 0 then s
  else match writeVirtual s ctx cpl (toBytes 4 (status + bit01 (status != 0) * 2 ^ 16) ++ toBytes 4 number) with
    | some t => t
    | none => postItem (walkReport s ctx 9 1 cpl 8) ctx { item with reason := 0x63 }

/-- COLLECTIVE_COMPLETE: the oldest operation with a status ends; tl.col advances and input 9 pulses. -/
def execCollectiveComplete (ctx tower : Nat) (s : State) : Host.Outcome State Fault Refusal :=
  .next (if Config.contexts ≤ ctx then s
    else match (colsOf s ctx tower).find? (·.result.isSome) with
      | none => s
      | some c =>
        if colCpl c.image != 0 && colCpl c.image % 8 == 0 && virtualWaits s ctx 1 (colCpl c.image) 8 then s
        else
        let s := colReport s ctx c.number (c.result.getD 0) c.image
        let s := onCols s ctx tower (List.filter fun y => y.number != c.number)
        let s := tlDone s ctx (128 * 8 + tower) c.number
        pulseAll s ctx 9 (List.range Config.cores))

/-! ### Withdrawal (R40, R45) -/

/-- The destination of an operation that a withdrawal ends holds undefined bytes (assumption 2). -/
def scribble (s : State) (ctx n : Nat) (im : List Byte) : State :=
  if colOp im == 1 then s
  else
    let (bs, s) := drawBytes s (resultBytes im n)
    (writeVirtual s ctx (colDst im) bs).getD s

/-- End every outstanding operation of a group at one tower. An outstanding FORM that would form the group's number anew
ends with them, of which R45 does not speak (assumption 33, DESIGN CHOICE). -/
def endGroupAt (s : State) (ctx g status : Nat) (tower : Nat) : State :=
  (colsOf s ctx tower).foldl (fun s c =>
    if c.result.isNone && colGroup c.image == g then
      colEnd (scribble s ctx (groupOf s ctx g).members.length c.image) ctx tower c.number status
    else s) s

/-- A group ends: its outstanding operations with a status, later ones with GROUP_DEAD. -/
def endGroup (s : State) (ctx g status : Nat) : State :=
  let s := (List.range Config.towers).foldl (fun s t => endGroupAt s ctx g status t) s
  onCtx s ctx fun c => { c with groups := adjust {} c.groups g fun x => { x with dead := true } }

/-- WITHDRAW: a peer that is a member of the group has withdrawn. -/
def execWithdraw (ctx group module context : Nat) (s : State) : Host.Outcome State Fault Refusal :=
  let g := groupOf s ctx group
  .next (if Config.contexts ≤ ctx || g.dead || !g.members.contains (module, context) ||
      (module, context) == (s.module.modid.toNat, ctx) then s
    else endGroup s ctx group 0x53)

/-- PORT_DOWN_TIMEOUT: every group with a member behind a port that has been down for more than 1 ms ends with
LINK_FAILED. -/
def execPortDownTimeout (port : Nat) (s : State) : Host.Outcome State Fault Refusal :=
  .next (if 64 ≤ port || !downLong s port then s
    else s.ctxs.foldl (fun s e =>
      e.2.groups.foldl (fun s g =>
        if !g.2.dead && g.2.members.any (fun m => m.1 != s.module.modid.toNat && routeOf s m.1 == some port) then
          endGroup s e.1 g.1 0x54
        else s) s) s)

/-- A killed context's member withdraws: every peer on this module at once, under the number its group has there, and
one WITHDRAW flit to every peer elsewhere over its route (R45). -/
def sendWithdraw (s : State) (ctx : Nat) (g : Nat × Group) : State :=
  if g.2.dead then s
  else
    let s := (g.2.locals.filter (·.1 != ctx)).foldl (fun s m =>
      if groupOf s m.1 m.2 == g.2 then endGroup s m.1 m.2 0x53 else s) s
    (g.2.members.filter (·.1 != s.module.modid.toNat)).foldl (fun s m =>
      match routeOf s m.1 with
      | some p => onPort s p fun q => sendFlit q (ownFlit q 5 true g.1)
      | none => s) s

end Sys2Proof.Machine
end

