-- ==== Sys2Proof/Machine/Queues.lean ====
section
/-! DEFINITION. Submission queues: enabling, kicks and the stale-packet defence, the fetch of packets, and their completion
(03 R53-R57, R61-R65). -/

namespace Sys2Proof.Machine

/-! ### A queue and its registers (Table 3.3) -/

/-- Queue `q` of a context. -/
def queueOf (s : State) (ctx q : Nat) : Queue := look {} (ctxOf s ctx).queues q
/-- The state with a queue changed. -/
def onQueue (s : State) (ctx q : Nat) (f : Queue → Queue) : State :=
  onCtx s ctx fun c => { c with queues := adjust {} c.queues q f }
/-- QCTL of a queue. -/
def qctl (s : State) (ctx q : Nat) : Nat := reg (ctxOf s ctx) (0x40 * q + 8)
/-- Packets in the ring. -/
def ringSize (s : State) (ctx q : Nat) : Nat := 2 ^ field (qctl s ctx q) 0 4
/-- An event of one of a context's 64 queues. -/
def queueEvent (s : State) (ctx q : Nat) (f : State) : Host.Outcome State Fault Refusal :=
  .next (if ctx < Config.contexts && q < 64 then f else s)

/-- Whether a queue's ring lies in device virtual memory, and the address of an index's slot in it. -/
def slotAddress (s : State) (ctx q i : Nat) : Bool × Nat :=
  let base := reg (ctxOf s ctx) (0x40 * q)
  (flag base 0, field base 6 50 * 64 + 64 * (i % ringSize s ctx q))
/-- Whether the fetch of an index's packet waits. -/
def slotWaits (s : State) (ctx q i : Nat) : Bool :=
  spaceWaits s ctx (slotAddress s ctx q i).1 0 (slotAddress s ctx q i).2 64
/-- The packet in the slot of an index; one in a ring that does not translate reads as zero, and so as stale. -/
def slotImage (s : State) (ctx q i : Nat) : List Byte :=
  (readSpace s ctx (slotAddress s ctx q i).1 (slotAddress s ctx q i).2 64).getD (List.replicate 64 0)
/-- A poisoned slot is reported for the fetch that reads it, whose packet reads as 0xFF bytes (R88). -/
def slotPoison (s : State) (ctx q i : Nat) : State :=
  let p := slotAddress s ctx q i
  let s := if p.1 then walkReport s ctx 13 0 p.2 64 else s
  if poisonSpace s ctx p.1 p.2 64 then postItem s ctx ⟨0x60, 13, 0x7F, 0, 0, 0, 0, p.2, 0⟩ else s
/-- Whether a packet is stale at an index (R55). -/
def staleAt (im : List Byte) (i : Nat) : Bool := imageAt im 2 2 != i % 2 ^ 16 || imageAt im 0 1 == 0

/-- A queue stops (R57, R61, R62): kicks that wait are ignored; QUEUE_STALE raises EVEC. A kick in re-fetch that did not
stop the queue is dropped, and sets no KIGN, of which the spec says nothing (assumption 34, DESIGN CHOICE). -/
def stopQueue (s : State) (ctx q err : Nat) : State :=
  let s := onQueue s ctx q fun u => { u with
    state := 2, err := err, kicking := none, stale := none, kign := u.kign || !u.kicks.isEmpty, kicks := [] }
  if err == 1 then raiseIrq s ctx (field (qctl s ctx q) 4 11) else s

/-- A draining queue with nothing left that has started, or is to be aborted, is disabled (R63). -/
def settleQueue (u : Queue) : Queue :=
  if u.state == 3 && u.packets.isEmpty && !u.aborting then { u with state := 0 } else u

/-! ### Enabling and stopping (R53, R54, R63) -/

/-- The fields of QCTL that are stored. -/
def qctlMask (v : Nat) : Nat := field v 31 1 * 2 ^ 31 + field v 16 11 * 2 ^ 16 + field v 0 15

/-- QUEUE_ENABLE: refused for a bad LOG2SIZE; a disabled queue starts at HEAD = A = 0. ERR of an earlier stop is
cleared, though the spec names only RESUME for that (assumption 34, DESIGN CHOICE). -/
def execQueueEnable (ctx queue : Nat) (value : BitVec 32) (s : State) : Host.Outcome State Fault Refusal :=
  queueEvent s ctx queue (
    let v := value.toNat
    if !flag v 31 || field v 0 4 < 4 then s
    else
      let s := onCtx s ctx fun c => setReg c (0x40 * queue + 8) (qctlMask v)
      onQueue s ctx queue fun u =>
        if u.state != 0 then u
        else { u with state := 1, err := 0, head := 0, accepted := 0, base := u.line.value, kicks := [], kicking := none
                      stale := none })
/-- QUEUE_RESUME: a stopped queue runs again with A := HEAD. -/
def execQueueResume (ctx queue : Nat) (s : State) : Host.Outcome State Fault Refusal :=
  queueEvent s ctx queue (onQueue s ctx queue fun u =>
    if u.state != 2 then u else { u with state := 1, err := 0, accepted := u.head, stale := none })

/-- QCTL is written with EN = 0: no further packet starts. A kick that is being re-fetched is dropped, and KIGN is set
only for kicks that wait behind it, of which the spec says nothing (assumption 34, DESIGN CHOICE). -/
def drainQueue (s : State) (ctx q v : Nat) : State :=
  let s := onCtx s ctx fun c => setReg c (0x40 * q + 8) (qctlMask (field v 0 31))
  onQueue s ctx q fun u =>
    if u.state == 0 then u
    else settleQueue { u with state := 3, kicking := none, stale := none, kign := u.kign || !u.kicks.isEmpty, kicks := [] }
/-- QUEUE_DRAIN: a write of QCTL with EN = 0. -/
def execQueueDrain (ctx : Nat) (write : QctlWrite) (s : State) : Host.Outcome State Fault Refusal :=
  queueEvent s ctx write.queue (drainQueue s ctx write.queue write.value.toNat)

/-- The aborted packet of an index: its own bytes, or none of them where its slot is stale. -/
def abortedPacket (s : State) (ctx q i : Nat) : Packet :=
  let im := slotImage s ctx q i
  { index := i, number := (queueOf s ctx q).base + i + 1, status := some 0x30
    image := if staleAt im i then List.replicate 64 0 else im }
/-- The packets from HEAD to A − 1 of a queue with an ABORT end with ABORTED, once all their slots can be read. -/
def abortPackets (s : State) (ctx q : Nat) : State :=
  let u := queueOf s ctx q
  let slots := (List.range (u.accepted - u.head)).map fun k => u.head + k
  if !u.aborting || slots.any (slotWaits s ctx q) then s
  else
    let ps := slots.map (abortedPacket s ctx q)
    onQueue (slots.foldl (fun s i => slotPoison s ctx q i) s) ctx q fun u => settleQueue { u with
      packets := u.packets ++ ps, head := u.accepted, aborting := false }
/-- QUEUE_ABORT: no further packet starts, the packets from HEAD to A − 1 complete with ABORTED, and the queue is then
disabled. While a slot of theirs waits for its translation the ABORT is held. -/
def execQueueAbort (ctx queue : Nat) (s : State) : Host.Outcome State Fault Refusal :=
  queueEvent s ctx queue (
    if (queueOf s ctx queue).state == 0 then s
    else abortPackets (drainQueue (onQueue s ctx queue fun u => { u with aborting := true })
      ctx queue (qctl s ctx queue)) ctx queue)

/-! ### Kicks (R61) -/

/-- One kick. -/
def takeKick (s : State) (ctx q : Nat) (v : BitVec 64) : State :=
  let u := queueOf s ctx q
  let tail := field v.toNat 0 32
  let n := (tail + 2 ^ 32 - u.accepted % 2 ^ 32) % 2 ^ 32
  if u.state != 1 || field v.toNat 48 6 != q || field v.toNat 54 10 != 0 then
    onQueue s ctx q fun u => { u with kign := true }
  else if n == 0 then s
  else if ringSize s ctx q < n + (u.accepted - u.head) then stopQueue s ctx q 3
  else if field v.toNat 32 16 != (tail + 2 ^ 32 - 1) % 2 ^ 16 then stopQueue s ctx q 2
  else
    let stale := staleAt (slotImage s ctx q (u.accepted + n - 1)) (u.accepted + n - 1)
    onQueue (slotPoison s ctx q (u.accepted + n - 1)) ctx q fun u =>
      if stale then { u with kicking := some (0, v) } else { u with accepted := u.accepted + n }

/-- The index of the packet before a kick's TAIL. -/
def lastKicked (s : State) (ctx q : Nat) (v : BitVec 64) : Nat :=
  let u := queueOf s ctx q
  u.accepted + (field v.toNat 0 32 + 2 ^ 32 - u.accepted % 2 ^ 32) % 2 ^ 32 - 1
/-- Whether a kick comes to the fetch of its packet (R61 step 5). -/
def kickFetches (s : State) (ctx q : Nat) (v : BitVec 64) : Bool :=
  let u := queueOf s ctx q
  let n := (field v.toNat 0 32 + 2 ^ 32 - u.accepted % 2 ^ 32) % 2 ^ 32
  u.state == 1 && field v.toNat 48 6 == q && field v.toNat 54 10 == 0 && n != 0 &&
    n + (u.accepted - u.head) ≤ ringSize s ctx q && field v.toNat 32 16 == (field v.toNat 0 32 + 2 ^ 32 - 1) % 2 ^ 16
/-- Whether a kick waits for the fetch of its packet. -/
def kickWaits (s : State) (ctx q : Nat) (v : BitVec 64) : Bool :=
  kickFetches s ctx q v && slotWaits s ctx q (lastKicked s ctx q v)

/-- Kicks that wait are handled in arrival order, until one needs a re-fetch. -/
def nextKicks (ctx q : Nat) : Nat → State → State
  | 0, s => s
  | fuel + 1, s =>
    let u := queueOf s ctx q
    match (if u.kicking.isSome then [] else u.kicks) with
    | [] => s
    | v :: rest =>
      if kickWaits s ctx q v then s else nextKicks ctx q fuel (takeKick (onQueue s ctx q fun u => { u with kicks := rest }) ctx q v)
/-- Every waiting kick that can be handled. -/
def runKicks (s : State) (ctx q : Nat) : State := nextKicks ctx q (queueOf s ctx q).kicks.length s

/-- KICK. -/
def execKick (ctx queue : Nat) (value : BitVec 64) (s : State) : Host.Outcome State Fault Refusal :=
  queueEvent s ctx queue
    (runKicks (onQueue s ctx queue fun u => { u with kicks := u.kicks ++ [value] }) ctx queue)

/-- A re-fetch counts in RETRIES, saturating. -/
def countRetry (u : Queue) : Queue := { u with retries := Nat.min 0x7FFF (u.retries + 1) }

/-- A re-fetch for a kick: fresh, it sets A; stale for the eighth time, it stops the queue. -/
def refetchKick (s : State) (ctx q tries : Nat) (v : BitVec 64) : State :=
  let s := onQueue s ctx q countRetry
  let u := queueOf s ctx q
  let n := (field v.toNat 0 32 + 2 ^ 32 - u.accepted % 2 ^ 32) % 2 ^ 32
  let stale := staleAt (slotImage s ctx q (u.accepted + n - 1)) (u.accepted + n - 1)
  let s := slotPoison s ctx q (u.accepted + n - 1)
  if !stale then
    runKicks (onQueue s ctx q fun u => { u with accepted := u.accepted + n, kicking := none }) ctx q
  else if 7 ≤ tries then stopQueue s ctx q 1
  else onQueue s ctx q fun u => { u with kicking := some (tries + 1, v) }

/-- A re-fetch of a stale packet at HEAD (R62). -/
def refetchHead (s : State) (ctx q tries : Nat) : State :=
  let s := onQueue s ctx q countRetry
  let u := queueOf s ctx q
  let stale := staleAt (slotImage s ctx q u.head) u.head
  let s := slotPoison s ctx q u.head
  if !stale then onQueue s ctx q fun u => { u with stale := none }
  else if 7 ≤ tries then stopQueue s ctx q 1
  else onQueue s ctx q fun u => { u with stale := some (tries + 1) }

/-- KICK_REFETCH: 1 µs after a stale answer; kicks that waited for the host's translation of the ring go on. -/
def execKickRefetch (ctx queue : Nat) (s : State) : Host.Outcome State Fault Refusal :=
  queueEvent s ctx queue (match (queueOf s ctx queue).kicking, (queueOf s ctx queue).stale with
    | some (n, v), _ => if slotWaits s ctx queue (lastKicked s ctx queue v) then s else refetchKick s ctx queue n v
    | none, some n => if slotWaits s ctx queue (queueOf s ctx queue).head then s else refetchHead s ctx queue n
    | none, none => runKicks s ctx queue)

/-! ### Fetching a packet (R55-R57, R62) -/

/-- Whether the reserved bits of a packet are zero (Tables 3.7, 3.9, 3.10). -/
def packetOk (im : List Byte) : Bool :=
  imageAt im 1 1 < 8 && match imageAt im 0 1 with
  | 1 => imageAt im 23 1 < 8 && zeroAt im 46 2 && imageAt im 48 3 < 2 ^ 20 && zeroAt im 51 13
  | 2 => imageAt im 32 1 < 2 && imageAt im 33 1 < 2 && zeroAt im 34 30
  | 3 => zeroAt im 17 47
  | 4 => imageAt im 16 1 < 64 && zeroAt im 17 47
  | 5 => zeroAt im 21 43
  | 6 => zeroAt im 9 55
  | 7 => zeroAt im 8 56
  | _ => false

/-- Every packet of the queue before a number has completed. -/
def earlierDone (u : Queue) (number : Nat) : Bool := u.packets.all fun p => number ≤ p.number

/-- Whether the queue may start its next packet: running, accepted, no TLWAIT or re-fetch in the way, and room for the
completion entries of the context (R65). The rule's "fetch no new packets" is read of this fetch alone: the check of
R61 step 5, which starts no packet, goes on without room (assumption 34, DESIGN CHOICE). -/
def mayFetch (s : State) (ctx q : Nat) : Bool :=
  let u := queueOf s ctx q
  u.state == 1 && u.head < u.accepted && u.stale.isNone && (ctxOf s ctx).crwait.length ≤ 256 &&
    !u.packets.any fun p => imageAt p.image 0 1 == 3 && p.status.isNone

/-- PACKET_FETCH_RESPONSE: the packet at HEAD is checked again and started; BARRIER and FENCE wait for every earlier
one. -/
def execPacketFetchResponse (ctx queue : Nat) (s : State) : Host.Outcome State Fault Refusal :=
  queueEvent s ctx queue (
    let u := queueOf s ctx queue
    let im := slotImage s ctx queue u.head
    if !mayFetch s ctx queue || slotWaits s ctx queue u.head then s
    else if staleAt im u.head then onQueue (slotPoison s ctx queue u.head) ctx queue fun u => { u with stale := some 0 }
    else if !packetOk im then stopQueue (slotPoison s ctx queue u.head) ctx queue 4
    else if (flag (imageAt im 1 1) 0 || imageAt im 0 1 == 6) && !u.packets.isEmpty then s
    else onQueue s ctx queue fun u => { u with
      head := u.head + 1
      packets := u.packets ++ [{ index := u.head, number := u.base + u.head + 1, image := im, since := s.mtime
                                 slack := reg (ctxOf s ctx) 0x1828 }] })

/-! ### Completion (R56, R64, R65) -/

/-- A completion entry, without its PHASE (Table 3.11). -/
def completionEntry (q : Nat) (p : Packet) (status : Nat) : List Byte :=
  toBytes 6 p.number ++ toBytes 2 status ++ toBytes 4 (imageAt p.image 4 4) ++
    toBytes 3 (Nat.min 0xFFFFFF p.failed) ++ toBytes 1 (q + 64 * bit01 (status != 0))

/-- Post waiting entries in order while the ring is enabled, has room and can be written, each followed by its
interrupt; one that finds the ring full sets CRFULL. -/
def postEntries (s : State) (ctx : Nat) : List (List Byte × Option Nat) → State
  | [] => s
  | (e, irq) :: rest =>
    let c := ctxOf s ctx
    let ctl := reg c 0x1810
    if !flag ctl 31 then s
    else if ringFull c.crtail (reg c 0x1818) (field ctl 0 5) then onCtx s ctx fun c => { c with crfull := true }
    else
      let log := field ctl 0 5
      let im := overlay e 15 (toBytes 1 (imageAt e 15 1 + 128 * bit01 (lapPhase c.crtail log)))
      match writeSpace s ctx false (field (reg c 0x1808) 4 60 * 16 + 16 * (c.crtail % 2 ^ log)) im with
      | none => s
      | some s =>
        let s := onCtx s ctx fun c => { c with crtail := (c.crtail + 1) % 2 ^ 32, crwait := rest }
        postEntries (match irq with
          | some v => raiseIrq s ctx v
          | none => s) ctx rest
/-- Let waiting completion entries post. -/
def pumpEntries (s : State) (ctx : Nat) : State := postEntries s ctx (ctxOf s ctx).crwait

/-- The mirror of queue `q`'s timeline, if mirroring is enabled. -/
def mirrorAt (s : State) (ctx q : Nat) : Option Nat :=
  let base := reg (ctxOf s ctx) 0x1800
  if flag base 0 then some (field base 9 55 * 512 + 8 * q) else none

/-- Write queue `q`'s timeline value to its mirror (R64). -/
def mirror (s : State) (ctx q : Nat) : State :=
  match mirrorAt s ctx q with
  | none => s
  | some a => (writeSpace s ctx false a (toBytes 8 (queueOf s ctx q).line.value)).getD s

/-- The packet of a number that has started. -/
def packetOf (s : State) (ctx q number : Nat) : Option Packet := (queueOf s ctx q).packets.find? (·.number == number)

/-- Whether a packet may complete now: an aborted one after every aborted packet of a lower index (R63), and its mirror
can be written. -/
def mayComplete (s : State) (ctx q : Nat) (p : Packet) : Bool :=
  let u := queueOf s ctx q
  !(p.status == some 0x30 && u.packets.any fun o => o.status == some 0x30 && o.index < p.index) &&
    !((mirrorAt s ctx q).any fun a => spaceWaits s ctx false 1 a 8)

/-- The interrupts of completed packets without an entry that the timeline, and its mirror, now cover (R65). -/
def raiseOwed (s : State) (ctx q : Nat) : State :=
  let u := queueOf s ctx q
  let due := u.owed.filter (· ≤ u.line.value)
  if due.isEmpty then s
  else due.foldl (fun s _ => raiseIrq s ctx (field (qctl s ctx q) 16 11))
    (onQueue s ctx q fun u => { u with owed := u.owed.filter fun n => !(n ≤ u.line.value) })

/-- A packet's completion: the timeline, its mirror, the completion entry and the interrupt, in that order. Without an
entry the interrupt waits until the mirror covers the packet, or the timeline where none is enabled (R65). -/
def completePacket (s : State) (ctx q : Nat) (p : Packet) (status : Nat) : State :=
  let old := (queueOf s ctx q).line.value
  let s := onQueue s ctx q fun u =>
    settleQueue { u with packets := u.packets.filter (·.number != p.number), line := tlComplete u.line p.number }
  let s := if (queueOf s ctx q).line.value == old then s else mirror s ctx q
  let hdr := imageAt p.image 1 1
  let irq := if flag hdr 2 then some (field (qctl s ctx q) 16 11) else none
  if flag hdr 1 then
    pumpEntries (onCtx s ctx fun c => { c with crwait := c.crwait ++ [(completionEntry q p status, irq)] }) ctx
  else if irq.isSome then raiseOwed (onQueue s ctx q fun u => { u with owed := u.owed ++ [p.number] }) ctx q
  else s

/-- PACKET_COMPLETE. -/
def execPacketComplete (ctx queue number : Nat) (s : State) : Host.Outcome State Fault Refusal :=
  queueEvent s ctx queue (match packetOf s ctx queue number with
    | none => s
    | some p => match p.status with
      | none => s
      | some status => if mayComplete s ctx queue p then completePacket s ctx queue p status else s)

end Sys2Proof.Machine
end

