-- ==== Sys2Proof/Machine/Packets.lean ====
section
/-! DEFINITION. What each packet does once started (03 R58-R60, R85 for MAPUPDATE's markers). -/

namespace Sys2Proof.Machine

/-- The state with a started packet changed. -/
def onPacket (s : State) (ctx q number : Nat) (f : Packet → Packet) : State :=
  onQueue s ctx q fun u => { u with packets := u.packets.map fun p => if p.number == number then f p else p }
/-- The work of a packet is over with a status. -/
def packetEnd (s : State) (ctx q number status : Nat) : State :=
  onPacket s ctx q number fun p => { p with status := some status }

/-- A started packet of a TYPE whose work is not over. -/
def packetRun (s : State) (ctx q number type : Nat) (f : Packet → State) : Host.Outcome State Fault Refusal :=
  queueEvent s ctx q (match packetOf s ctx q number with
    | none => s
    | some p => if imageAt p.image 0 1 == type && p.status.isNone then f p else s)

/-! ### LAUNCH (R58) -/

/-- The checks of a launch in their order: a status, or none for a launch that creates units. -/
def launchCheck (s : State) (im : List Byte) : Option Nat :=
  let rows := imageAt im 14 1
  let cols := imageAt im 15 1
  if 2 ^ 24 < imageAt im 24 4 then some 2
  else if !(1 ≤ rows && rows ≤ 8 && 1 ≤ cols && cols ≤ 16) then some 3
  else if imageAt im 8 6 % 128 != 0 then some 4
  else if imageAt im 24 4 == 0 then some 0
  else if !placeable s rows cols then some 5
  else none

/-- LAUNCH. -/
def execLaunch (ctx queue number : Nat) (s : State) : Host.Outcome State Fault Refusal :=
  packetRun s ctx queue number 1 fun p =>
    if p.running then s
    else match launchCheck s p.image with
      | some code => packetEnd s ctx queue number code
      | none => onPacket s ctx queue number fun p => { p with running := true, uncreated := imageAt p.image 24 4 }

/-- The resolved deadline of a launch, which every unit carries (R58): resolved once, when the packet starts, or for one
that names none its arrival then plus DSLACK as it stood (R98, Table 3.9). -/
def launchLimit (p : Packet) : Int :=
  let d := imageAt p.image 32 5
  if d == 0 then (p.since : Int) + p.slack else resolveDeadline p.since d

/-- The record of one unit of a launch. -/
def unitRecord (q : Nat) (p : Packet) : Record :=
  let im := p.image
  let d := imageAt im 32 5
  { code := imageAt im 8 6, frame := imageAt im 16 6, join := 0, rows := imageAt im 14 1, cols := imageAt im 15 1
    deadline := d
    est := imageAt im 37 3, budget := imageAt im 28 4, prio := imageAt im 22 1, policy := imageAt im 23 1
    sctx := imageAt im 48 3, state := .waiting, limit := 0, ranges := imageAt im 40 6, submit := 0
    unit := imageAt im 24 4 - p.uncreated, launch := some (q, p.number) }

/-- A unit whose submission failed counts as failed. -/
def unitFailed (p : Packet) : Packet :=
  let p := { p with uncreated := p.uncreated - 1, failed := p.failed + 1 }
  if p.uncreated == 0 && p.live == 0 then { p with status := some 1 } else p

/-- LAUNCH_UNIT_CREATE: the next unit, in ascending order, once the store has a slot. -/
def execLaunchUnitCreate (ctx queue number : Nat) (s : State) : Host.Outcome State Fault Refusal :=
  packetRun s ctx queue number 1 fun p =>
    let r := unitRecord queue p
    if !p.running || p.uncreated == 0 || rangesWait s ctx r.ranges then s
    else
      match accept s ctx r (some (launchLimit p)) with
      | (.full, _) => s
      | (.badRanges, s) => onPacket (postItem s ctx ⟨0x74, 12, 0x7F, 0, r.unit, 0, 0, r.ranges, 0⟩) ctx queue number unitFailed
      | (.at _, s) => onPacket s ctx queue number fun p => { p with uncreated := p.uncreated - 1, live := p.live + 1 }

/-! ### COPY (R59) -/

/-- How a copy ends: done, at a page that does not translate with the bytes before it written, or waiting. -/
inductive CopyEnd where
  | done (s : State)
  | fault (s : State)
  | wait
  deriving DecidableEq, Repr

/-- Copy page by page, to a destination that began at `start`. -/
def copyPages (ctx : Nat) (sv dv : Bool) (start : Nat) : Nat → State → Nat → Nat → Nat → CopyEnd
  | 0, s, _, _, n => if n == 0 then .done s else .wait
  | fuel + 1, s, a, b, n =>
    if n == 0 then .done s
    else
      let m := Nat.min n (Nat.min (65536 - a % 65536) (65536 - b % 65536))
      if spaceWaits s ctx sv 0 a m then .wait
      else match readSpace s ctx sv a m with
      | none => .fault (if sv then walkReport s ctx 13 0 a m else s)
      | some bs =>
        if spaceWaits s ctx dv 1 b m then .wait
        else
          let t := if poisonSpace s ctx sv a m then postItem s ctx ⟨0x60, 13, 0x7F, 0, 0, 0, 0, a, 0⟩ else s
          match spaceSpan t ctx dv 1 b m with
          | .stop _ _ => .fault (if dv then walkReport s ctx 13 1 b m else s)
          | .ok ps =>
            copyPages ctx sv dv start fuel (cleanHead (writePieces t ps bs) ps b m start) (a + m) (b + m) (n - m)

/-- Copy page by page. -/
def copySpace (ctx : Nat) (sv dv : Bool) (fuel : Nat) (s : State) (a b n : Nat) : CopyEnd :=
  copyPages ctx sv dv b fuel s a b n

/-- COPY. -/
def execCopy (ctx queue number : Nat) (s : State) : Host.Outcome State Fault Refusal :=
  packetRun s ctx queue number 2 fun p =>
    let n := imageAt p.image 24 8
    if 2 ^ 40 < n then packetEnd s ctx queue number 0x10
    else match copySpace ctx (flag (imageAt p.image 32 1) 0) (flag (imageAt p.image 33 1) 0) (n / 32768 + 3) s
        (imageAt p.image 8 8) (imageAt p.image 16 8) n with
      | .done t => packetEnd t ctx queue number 0
      | .fault t => packetEnd t ctx queue number 0x11
      | .wait => s

/-! ### Timelines (R59, R60) -/

/-- The value of the timeline a TLWAIT selects: none for the kinds that select nothing. -/
def selected (s : State) (ctx sel : Nat) : Option Nat :=
  match sel / 64 with
  | 0 => some (queueOf s ctx (sel % 64)).line.value
  | 1 => some (reg (ctxOf s ctx) (0x1900 + 8 * (sel % 64)))
  | _ => none

/-- TLWAIT: a bad selector completes at once; else later packets of the queue wait. -/
def execTlwait (ctx queue number : Nat) (s : State) : Host.Outcome State Fault Refusal :=
  packetRun s ctx queue number 3 fun p =>
    match selected s ctx (imageAt p.image 16 1) with
    | none => packetEnd s ctx queue number 0x22
    | some _ => onPacket s ctx queue number fun p => { p with running := true }
/-- TLWAIT_SATISFIED. -/
def execTlwaitSatisfied (ctx queue number : Nat) (s : State) : Host.Outcome State Fault Refusal :=
  packetRun s ctx queue number 3 fun p =>
    match selected s ctx (imageAt p.image 16 1) with
    | some v => if imageAt p.image 8 8 ≤ v then packetEnd s ctx queue number 0 else s
    | none => s

/-- SWT[n] := max(SWT[n], v) (R60). -/
def raiseSwt (c : Ctx) (n v : Nat) : Ctx := setReg c (0x1900 + 8 * n) (Nat.max (reg c (0x1900 + 8 * n)) v)

/-- TLSIGNAL: once every earlier packet has completed. -/
def execTlsignal (ctx queue number : Nat) (s : State) : Host.Outcome State Fault Refusal :=
  packetRun s ctx queue number 4 fun p =>
    if !earlierDone (queueOf s ctx queue) number then s
    else packetEnd (onCtx s ctx fun c => raiseSwt c (imageAt p.image 16 1 % 64) (imageAt p.image 8 8)) ctx queue number 0
/-- SWT_WRITE. -/
def execSwtWrite (ctx n : Nat) (value : BitVec 64) (s : State) : Host.Outcome State Fault Refusal :=
  queueEvent s ctx n (onCtx s ctx fun c => raiseSwt c n value.toNat)

/-! ### MAPUPDATE, FENCE, NOPKT (R59, R75, R77, R87) -/

/-- The copy commands of a context that checkpoint slots hold, with their cores. -/
def savedCopies (s : State) (ctx : Nat) : List (Nat × CopyCmd) :=
  (ctxOf s ctx).slots.flatMap fun l => l.saved.copies.map fun c => (l.core, c)
/-- The copy commands of a context that a marker entered now is behind: those in copy queues, and of the saved ones
those that stand within a page (assumption 46). -/
def copiesAhead (s : State) (ctx : Nat) : List (Nat × Nat) :=
  (s.cores.flatMap fun (n, k) => (k.copies.filter fun c => c.ctx == ctx).map fun c => (n, c.number)) ++
    ((savedCopies s ctx).filter fun p => !p.2.held.isEmpty).map fun p => (p.1, p.2.number)
/-- Whether a copy command has not yet completed. -/
def copyStands (s : State) (ctx : Nat) (m : Nat × Nat) : Bool :=
  ((coreOf s m.1).copies.any fun c => c.ctx == ctx && c.number == m.2) ||
    (savedCopies s ctx).any fun p => p.1 == m.1 && p.2.number == m.2
/-- The copies ahead of a marker keep leaves whose pages change hands behind them (R85). -/
def pinLeaves (s : State) (ctx : Nat) (ahead : List (Nat × Nat)) (leaves : List TlbEntry) : State :=
  let pin := fun (core : Nat) (c : CopyCmd) =>
    if c.ctx == ctx && ahead.contains (core, c.number) then { c with pinned := c.pinned ++ leaves } else c
  onCtx { s with cores := s.cores.map fun (n, k) => (n, { k with copies := k.copies.map (pin n) }) } ctx fun c =>
    { c with slots := c.slots.map fun l => { l with saved := { l.saved with copies := l.saved.copies.map (pin l.core) } } }

/-- Bytes of a page size code: none for a reserved one. -/
def pgszBytes : Nat → Option Nat
  | 0 => some (2 ^ 16) | 1 => some (2 ^ 21) | 2 => some (2 ^ 30) | _ => none

/-- MAPUPDATE: the translations go at once; it completes when every copy ahead of its markers has. -/
def execMapupdate (ctx queue number : Nat) (s : State) : Host.Outcome State Fault Refusal :=
  packetRun s ctx queue number 5 fun p =>
    if p.running then
      if p.markers.any (copyStands s ctx) then s else packetEnd s ctx queue number 0
    else match pgszBytes (imageAt p.image 20 1) with
      | none => packetEnd s ctx queue number 0x20
      | some size =>
        let va := imageAt p.image 8 8
        let n := imageAt p.image 16 4 * size
        if n == 0 then packetEnd s ctx queue number 0
        else if va % size != 0 || 2 ^ 56 ≤ va || 2 ^ 56 < va + n then packetEnd s ctx queue number 0x23
        else
          let ms := copiesAhead s ctx
          let s := onPacket (invalidate s ctx va n) ctx queue number fun p => { p with running := true, markers := ms }
          if ms.isEmpty then packetEnd s ctx queue number 0 else s

/-- FENCE: a bad SCOPE, or every earlier packet's effects visible. -/
def execFencePacket (ctx queue number : Nat) (s : State) : Host.Outcome State Fault Refusal :=
  packetRun s ctx queue number 6 fun p =>
    let scope := imageAt p.image 8 1
    if scope != 4 && scope != 5 then packetEnd s ctx queue number 0x21
    else if earlierDone (queueOf s ctx queue) number then packetEnd s ctx queue number 0 else s
/-- NOPKT. -/
def execNopkt (ctx queue number : Nat) (s : State) : Host.Outcome State Fault Refusal :=
  packetRun s ctx queue number 7 fun _ => packetEnd s ctx queue number 0

end Sys2Proof.Machine
end

