-- ==== Sys2Proof/Machine/Kill.lean ====
section
/-! DEFINITION. The killing of a context: its slices and records, groups, queues and page (R45, R51, R113, R126), by a
Function Level Reset, a reset of the PF, or the driver. -/

namespace Sys2Proof.Machine

/-- Discard the Geyser queues a context owns at a tower, one item record each (R126), and what the tower holds for it.
-/
def killQueues (ctx tower : Nat) (s : State) : State :=
  let mine := (towerOf s tower).queues.filter fun e => !e.2.config.isEmpty && queueOwner e.2 == ctx
  let count := fun (g : GQueue) =>
    g.onchip.length + g.spilled.length + (g.batches.map fun b => (b.2.filter fun e => !e.taken).length).sum
  let s := mine.foldl (fun s e => postItem s ctx ⟨0x89, 10, 0x7F, 0, 0, 0, 0, e.1, count e.2⟩) s
  onTower s tower fun w => { w with
    queues := w.queues.filter fun e => !(mine.any fun m => m.1 == e.1)
    commands := w.commands.filter fun c => c.ctx != ctx
    ended := w.ended.filter fun e => e.ctx != ctx
    gram := w.gram.filter fun c => c.ctx != ctx
    masks := w.masks.filter fun m => m.ctx != ctx
    walks := w.walks.filter fun x => x.ctx != ctx
    nonleaf := w.nonleaf.filter fun e => e.ctx != ctx }

/-- A page that a swap command of a killed context had in transit keeps its old translation, of which the spec says
nothing (assumption 46, DESIGN CHOICE). -/
def endTransit (s : State) (c : SwapCmd) : State :=
  match c.transit with
  | none => s
  | some x => x.leaves.foldl (fun s l => writeAt s (.hbm l.2) (toBytes 8 l.1)) s

/-- The own outstanding collective and swap commands of a killed context are reported failed item by item. -/
def killCommands (ctx : Nat) (s : State) : State :=
  let c := ctxOf s ctx
  let s := c.cols.foldl (fun s e => e.2.foldl (fun s x => postItem s ctx ⟨0x73, 9, 0x7F, 0, 0, 8, x.number, 0, 0⟩) s) s
  c.swaps.foldl (fun s e => e.2.foldl (fun s x =>
    endTransit (postItem s ctx ⟨0x73, 8, x.core, 0, 0, 9, x.number, 0, 0⟩) x) s) s

/-- The context page at its reset values. Item records that wait for room keep the ring, with KILLED set, until they
have posted. -/
def resetPage (c : Ctx) : Ctx :=
  if unposted c == 0 || !flag (reg c 0x18B0) 31 then { itwait := c.itwait, itheld := c.itheld }
  else { killed := true, itwait := c.itwait, itheld := c.itheld, itfull := c.itfull, ittail := c.ittail
         regs := c.regs.filter fun e => [0x1820, 0x1840, 0x18A4, 0x18A8, 0x18B0, 0x18B4].contains e.1 }

/-- One record of a killed context fails. -/
def killRecord (ctx : Nat) (s : State) (i : Nat) : State :=
  match recordOf s ctx i with
  | none => s
  | some r =>
    let s := abortSaved s ctx i r.unit 0x73
    recordImage (postItem s ctx ⟨0x73, 12, r.home.getD 0x7F, i, r.unit, 0, 0, 0, 0⟩) ctx i { r with state := .failed }

/-- A core loses what a killed context had on it: signals, regions, descriptors, translations, tensor entries, and trace
entries not yet written. -/
def cleanCore (ctx : Nat) (k : Core) : Core :=
  { k with
    signals := k.signals.filter fun g => sigOwner g.1 != ctx
    regions := k.regions.filter fun g => g.ctx != ctx
    resident := k.resident.filter fun d => d / 2 ^ 20 != ctx
    traceBuffer := k.traceBuffer.filter fun e => e.1 != ctx
    traceLost := erase k.traceLost ctx
    tids := if k.tidCtx == ctx then [] else k.tids
    otherTids := k.otherTids.filter fun e => e.1 / 4096 != ctx
    tlb := k.tlb.filter fun t => t.ctx != ctx
    walked := k.walked.filter fun w => w.ctx != ctx }

/-- Kill a context. -/
def killContext (s : State) (ctx : Nat) : State :=
  let s := (coresOf s ctx).foldl (failCore ctx 0x73) s
  let s := ((ctxOf s ctx).records.map (·.1)).foldl (killRecord ctx) s
  let s := (ctxOf s ctx).groups.foldl (fun s g => sendWithdraw s ctx g) s
  let s := killCommands ctx s
  let s := (List.range Config.towers).foldl (fun s t => killQueues ctx t s) s
  let s := { s with
    cores := s.cores.map fun (n, k) => (n, cleanCore ctx k)
    reserved := s.reserved.filter fun v => v.ctx != ctx }
  onCtx s ctx resetPage

/-- FUNCTION_LEVEL_RESET of VF `ctx`. -/
def execFunctionLevelReset (ctx : Nat) (s : State) : Host.Outcome State Fault Refusal :=
  .next (if 1 ≤ ctx && ctx < Config.contexts then killContext s ctx else s)
/-- PF_RESET: every context. -/
def execPfReset (s : State) : Host.Outcome State Fault Refusal :=
  .next ((List.range Config.contexts).foldl killContext s)

end Sys2Proof.Machine
end

