-- ==== Sys2Proof/Machine/Registers.lean ====
section
/-! DEFINITION. Reads of the PF's and the VFs' BAR0, and writes to registers: the context page, ring controls and
heads, the driver's answer to a halt, BAR2, ATS, PRI and MSI-X (03 R49-R53, R60, R65-R67, 04 R70, R80, R92, 05 R95, 08
R163-R166, 16 R374). -/

namespace Sys2Proof.Machine

/-- An event of one context. -/
def ctxEvent (s : State) (ctx : Nat) (t : State) : Host.Outcome State Fault Refusal :=
  .next (if ctx < Config.contexts then t else s)

/-! ### Plain registers of the context page (Tables 3.3-3.6, 4.2, 5.1, 8.5, 16) -/

/-- Ones in bits `hi` to `lo`. -/
def bits (hi lo : Nat) : Nat := 2 ^ (hi + 1) - 2 ^ lo

/-- The bits a write stores in a register without a behaviour of its own, and whether only the PF's view writes it. -/
def plainReg (off : Nat) : Option (Nat × Bool) :=
  if off < 0x1000 && off % 0x40 == 0 then some (bits 55 6 + 1, false)
  else if 0x1C00 ≤ off && off < 0x1E00 && off % 0x20 == 0 then some (bits 63 4, false)
  else if 0x18E0 ≤ off && off < 0x1900 && off % 8 == 0 then some (bits 63 56 + bits 47 2, true)
  else match off with
    | 0x1800 => some (bits 63 9 + 1, false)
    | 0x1808 => some (bits 63 4, false)
    | 0x1820 => some (bits 19 0, true)
    | 0x1828 => some (bits 31 0, true)
    | 0x1830 => some (bits 63 30, false)
    | 0x1840 => some (bits 55 11 + 1, true)
    | 0x1850 => some (bits 55 6, true)
    | 0x1858 => some (bits 4 0, true)
    | 0x185C => some (bits 31 0, true)
    | 0x1860 => some (bits 55 6, true)
    | 0x1868 => some (bits 55 27, true)
    | 0x1870 => some (bits 11 0, true)
    | 0x1880 => some (bits 55 6, false)
    | 0x1888 => some (bits 55 7 + 1, true)
    | 0x1890 => some (bits 55 12, true)
    | 0x18A4 => some (bits 31 31 + bits 26 16 + bits 10 0, false)
    | 0x18A8 => some (bits 55 5 + 1, false)
    | 0x18C0 => some (bits 55 12, false)
    | 0x1E18 => some (bits 31 31 + bits 20 0, false)
    | _ => none

/-- Bits of a stored register that a write of ones clears: PROMO_LATE, and MISSES and BUDFAIL of SCHSTAT. -/
def clearedBits (off : Nat) : Nat :=
  match off with
  | 0x1848 => bits 31 0
  | 0x1878 => bits 63 16
  | _ => 0

/-! ### Reads (R49, R52, R69, Tables 3.2-3.6, 4.2, 4.9, 5.1, 8.5) -/

/-- QSTAT. -/
def qstat (u : Queue) : Nat :=
  u.state % 4 * 2 ^ 30 + u.err % 256 * 2 ^ 16 + bit01 u.kign * 2 ^ 15 + u.retries % 2 ^ 15
/-- CTXSTAT. -/
def ctxstat (c : Ctx) : Nat := bit01 c.killed * 8 + bit01 c.trfull * 4 + bit01 c.crfull * 2 + bit01 c.winfault
/-- FSTAT. Of a context that is not halted CORE and REASON read 0, which the spec does not state (assumption 34, DESIGN
CHOICE); HSEQ keeps the last number. -/
def fstat (c : Ctx) : Nat :=
  bit01 c.halt.isSome * 2 ^ 63 + bit01 (c.halt.any (·.drv)) * 2 ^ 62 + bit01 (c.halt.any (·.nested)) * 2 ^ 61 +
    bit01 (c.halt.any (·.lost)) * 2 ^ 60 + c.halt.elim 0 (·.origin) % 128 * 2 ^ 48 +
    c.halt.elim 0 (·.reason) % 2 ^ 16 * 2 ^ 32 + c.hseq % 2 ^ 32
/-- RMREQ: the last request presented, with PEND while it is pending (R93). -/
def rmreq (s : State) : Nat :=
  match s.module.lastRequest with
  | none => 0
  | some r => bit01 s.module.retirement.isSome * 2 ^ 63 + r.reason % 256 * 2 ^ 48 + r.site % 32 * 2 ^ 40 + r.unit % 64 * 2 ^ 32 + r.seq % 2 ^ 32

/-- A queue's register at an offset of its 64 bytes: width in bytes and value. -/
def queueReg (s : State) (ctx q off : Nat) : Option (Nat × Nat) :=
  match off with
  | 0x00 => some (8, reg (ctxOf s ctx) (0x40 * q))
  | 0x08 => some (4, qctl s ctx q)
  | 0x10 => some (4, (queueOf s ctx q).head)
  | 0x14 => some (4, qstat (queueOf s ctx q))
  | _ => none
/-- A token ring's register at an offset of its 32 bytes. -/
def tokenReg (c : Ctx) (m off : Nat) : Option (Nat × Nat) :=
  match off with
  | 0x00 => some (8, reg c (0x1C00 + 0x20 * m))
  | 0x08 => some (8, reg c (0x1C00 + 0x20 * m + 8))
  | 0x10 => some (4, reg c (0x1C00 + 0x20 * m + 16))
  | 0x18 => some (4, look 0 c.trtail m)
  | _ => none
/-- The register of a context page that begins at an offset: width in bytes and value. A bit that is only written reads
0. -/
def pageReg (s : State) (ctx : Nat) (pf : Bool) (off : Nat) : Option (Nat × Nat) :=
  let c := ctxOf s ctx
  if off < 0x1000 then queueReg s ctx (off / 0x40) (off % 0x40)
  else if 0x1C00 ≤ off && off < 0x1E00 then tokenReg c ((off - 0x1C00) / 0x20) (off % 0x20)
  else if 0x1B00 ≤ off && off < 0x1C00 && off % 8 == 0 then some (8, bamapOf s ((off - 0x1B00) / 8))
  else if off % 8 == 0 && ((0x1900 ≤ off && off < 0x1B00) || (0x18E0 ≤ off && off < 0x1900)) then some (8, reg c off)
  else match off with
    | 0x1800 | 0x1808 | 0x1830 | 0x1840 | 0x1850 | 0x1860 | 0x1868 | 0x1880 | 0x1888 | 0x1890 | 0x18A8 | 0x18C0 | 0x1E10 =>
      some (8, reg c off)
    | 0x1810 | 0x1818 | 0x1820 | 0x1828 | 0x1848 | 0x1858 | 0x185C | 0x1870 | 0x18A4 | 0x18B4 | 0x1E18 => some (4, reg c off)
    | 0x1838 => some (4, ctxstat c)
    | 0x1878 => some (8, setField (reg c off) 0 16 (c.tokens % 256))
    | 0x1898 => some (8, fstat c)
    | 0x18B0 => some (4, setField (reg c off) 30 1 (bit01 c.itfull))
    | 0x18B8 => some (4, c.ittail)
    | 0x18C8 => some (4, setField (reg c off) 29 1 (bit01 c.dtfull))
    | 0x18D0 => some (8, c.dtpos)
    | 0x1E00 => if ctx == 0 && pf then some (8, rmreq s) else none
    | _ => none

/-- Byte `i` of a number. -/
def byteOf (v i : Nat) : Byte := BitVec.ofNat 8 (v / 256 ^ i)
/-- A byte of a context page; an offset with no register reads 0. -/
def pageByte (s : State) (ctx : Nat) (pf : Bool) (off : Nat) : Byte :=
  match pageReg s ctx pf (off / 4 * 4) with
  | some (_, v) => byteOf v (off % 4)
  | none => match pageReg s ctx pf (off / 8 * 8) with
    | some (8, v) => byteOf v (off % 8)
    | _ => 0
/-- A read through a VF's BAR0, which is its context page (R49). -/
def vfRead (s : State) (ctx off n : Nat) : List Byte := (List.range n).map fun i => pageByte s ctx false (off + i)

/-- A byte of the PF's BAR0 outside the port windows (Table 3.1). DEVID is given no width: the model takes 4 bytes, and
the offsets after them read as zero (assumption 7, DESIGN CHOICE). -/
def bar0Byte (s : State) (off : Nat) : Byte :=
  if off < 4 then byteOf Config.devid.toNat off
  else if 0x40 ≤ off && off < 0x44 then byteOf (modstat s) (off - 0x40)
  else if 0x48 ≤ off && off < 0x50 then byteOf (capacity s) (off - 0x48)
  else if 0x50 ≤ off && off < 0x54 then byteOf s.module.modid.toNat (off - 0x50)
  else if 0x80 ≤ off && off < 0x90 then byteOf s.module.live.toNat (off - 0x80)
  else if 0x1000 ≤ off && off < 0x2000 then (windowBytes s (off - 0x1000) 1).headD 0
  else if 0x100000 ≤ off && off < 0x100008 then byteOf s.mtime (off - 0x100000)
  else if 0x1400000 ≤ off && off < 0x1401000 then look 0 s.module.routes (off - 0x1400000)
  else if 0x2000000 ≤ off && off < 0x2000000 + 0x10000 * Config.contexts then
    pageByte s ((off - 0x2000000) / 0x10000) true (off % 0x10000)
  else 0
/-- A read of `n` bytes of the PF's BAR0 (R49); a port window answers as R393 gives. -/
def bar0Read (s : State) (off n : Nat) : List Byte :=
  if 0x1000000 ≤ off && off < 0x1040000 then windowRead s (off - 0x1000000) n
  else (List.range n).map fun i => bar0Byte s (off + i)

/-! ### Writes -/

/-- CTXSTAT: WINFAULT, CRFULL and TRFULL are cleared by ones. -/
def clearStatus (c : Ctx) (v : Nat) : Ctx :=
  { c with winfault := c.winfault && !flag v 0, crfull := c.crfull && !flag v 1, trfull := c.trfull && !flag v 2 }
/-- QSTAT: KIGN and RETRIES. -/
def clearQueue (u : Queue) (v : Nat) : Queue :=
  { u with kign := u.kign && !flag v 15, retries := (BitVec.ofNat 15 u.retries &&& ~~~ BitVec.ofNat 15 v).toNat }

/-- PERIOD of a context in nanoseconds. -/
def refillPeriod (c : Ctx) : Nat := 1000 * Nat.max 1 (field (reg c 0x185C) 0 24)
/-- BUCKET takes CAP where a multiple of PERIOD has come since the module time up to which such multiples have been
counted (R104). -/
def refillBucket (s : State) (ctx : Nat) : State :=
  let p := refillPeriod (ctxOf s ctx)
  if s.mtime / p == (ctxOf s ctx).refilled / p then s
  else onCtx s ctx fun c => { c with tokens := field (reg c 0x185C) 24 8, refilled := s.mtime }
/-- A write of TOKCFG: multiples of its PERIOD count from then on. -/
def writeTokens (s : State) (ctx v : Nat) : State :=
  onCtx (refillBucket s ctx) ctx fun c => { setReg c 0x185C (v % 2 ^ 32) with refilled := s.mtime }

/-- A write to a context page; a write of QCTL with EN = 0 is QUEUE_DRAIN's. -/
def writePage (s : State) (ctx : Nat) (pf : Bool) (off v : Nat) : State :=
  match plainReg off with
  | some (mask, pfOnly) =>
    if pfOnly && !pf then s
    else if off == 0x185C then writeTokens s ctx v
    else onCtx s ctx fun c => setReg c off ((BitVec.ofNat 64 v &&& BitVec.ofNat 64 mask).toNat)
  | none =>
    if off == 0x1838 then onCtx s ctx fun c => clearStatus c v
    else if off < 0x1000 && off % 0x40 == 0x14 then onQueue s ctx (off / 0x40) fun u => clearQueue u v
    else if off < 0x1000 && off % 0x40 == 8 then
      if flag v 31 then s else drainQueue s ctx (off / 0x40) v
    else if clearedBits off == 0 then s
    else onCtx s ctx fun c =>
      setReg c off ((BitVec.ofNat 64 (reg c off) &&& ~~~ (BitVec.ofNat 64 v &&& BitVec.ofNat 64 (clearedBits off))).toNat)

/-- REGISTER_WRITE. -/
def execRegisterWrite (where_ : RegTarget) (value : BitVec 64) (s : State) : Host.Outcome State Fault Refusal :=
  .next (match where_ with
    | .context ctx pf off => if ctx < Config.contexts then writePage s ctx pf off value.toNat else s
    | .port p off => if p < 64 then portWrite s p off (value.toNat % 2 ^ 32) else s
    | .modid pf => if pf then onModule s fun m => { m with modid := value.setWidth 12 } else s
    | .route id =>
      if id < 4096 then onModule s fun m => { m with routes := put m.routes id (value.setWidth 8 &&& 0xBF) } else s
    | .recovery off => writeWindow s off value
    | .bar2Size =>
      if 30 ≤ value.toNat && value.toNat ≤ 36 then onModule s fun m => { m with bar2Log := value.toNat } else s)

/-- GFBASE_WRITE: the mask cache of every tower is invalidated. -/
def execGfbaseWrite (ctx : Nat) (value : BitVec 64) (s : State) : Host.Outcome State Fault Refusal :=
  ctxEvent s ctx (onCtx { s with towers := s.towers.map fun (t, w) => (t, { w with masks := [] }) } ctx fun c =>
    setReg c 0x1E10 (field value.toNat 5 51 * 32))

/-! ### Rings (R53, R65-R67, R163, R166) -/

/-- Whether a control value enables a ring with a LOG2SIZE outside 4-16. -/
def badRing (en v : Nat) : Bool := flag v en && !(4 ≤ field v 0 5 && field v 0 5 ≤ 16)

/-- Item records of a killed context that have all posted leave nothing of its page. -/
def endKilled (s : State) (ctx : Nat) : State :=
  let c := ctxOf s ctx
  if c.killed && unposted c == 0 then onCtx s ctx fun _ => {} else s

/-- CRHEAD_WRITE. -/
def execCrheadWrite (ctx : Nat) (value : BitVec 32) (s : State) : Host.Outcome State Fault Refusal :=
  ctxEvent s ctx (pumpEntries (onCtx s ctx fun c => setReg c 0x1818 value.toNat) ctx)
/-- CRCTL_WRITE. -/
def execCrctlWrite (ctx : Nat) (value : BitVec 32) (s : State) : Host.Outcome State Fault Refusal :=
  let v := value.toNat
  ctxEvent s ctx (if badRing 31 v then s
    else pumpEntries (onCtx s ctx fun c => setReg c 0x1810 (field v 31 1 * 2 ^ 31 + field v 0 5)) ctx)
/-- TRHEAD_WRITE. -/
def execTrheadWrite (ctx ring : Nat) (value : BitVec 32) (s : State) : Host.Outcome State Fault Refusal :=
  ctxEvent s ctx (if ring < 16 then onCtx s ctx fun c => setReg c (ringAt ring + 16) value.toNat else s)
/-- TRCTL_WRITE. EN cleared leaves the ring's count and timer as they are, and VEC is still raised at expiry, of which
the spec says nothing (assumption 34, DESIGN CHOICE). -/
def execTrctlWrite (ctx ring : Nat) (value : BitVec 64) (s : State) : Host.Outcome State Fault Refusal :=
  let v := value.toNat
  ctxEvent s ctx (if 16 ≤ ring || badRing 63 v then s
    else onCtx s ctx fun c => setReg c (ringAt ring + 8)
      (field v 63 1 * 2 ^ 63 + field v 32 11 * 2 ^ 32 + field v 13 19 * 2 ^ 13 + field v 0 5))
/-- ITHEAD_WRITE. -/
def execItheadWrite (ctx : Nat) (value : BitVec 32) (s : State) : Host.Outcome State Fault Refusal :=
  ctxEvent s ctx (endKilled (pumpItems (onCtx s ctx fun c => setReg c 0x18B4 value.toNat) ctx) ctx)
/-- ITCTL_WRITE: FULL is cleared by a one. -/
def execItctlWrite (ctx : Nat) (value : BitVec 32) (s : State) : Host.Outcome State Fault Refusal :=
  let v := value.toNat
  ctxEvent s ctx (if badRing 31 v then s
    else endKilled (pumpItems (onCtx s ctx fun c =>
      { setReg c 0x18B0 (field v 31 1 * 2 ^ 31 + field v 0 5) with itfull := c.itfull && !flag v 30 }) ctx) ctx)
/-- DTCTL_WRITE: refused for a LOG2SZ outside 16-30; buffered entries are then written if they can be. -/
def execDtctlWrite (ctx : Nat) (value : BitVec 32) (s : State) : Host.Outcome State Fault Refusal :=
  let v := value.toNat
  ctxEvent s ctx (if !(16 ≤ field v 0 5 && field v 0 5 ≤ 30) then s
    else
      let s := onCtx s ctx fun c =>
        { setReg c 0x18C8 (field v 30 2 * 2 ^ 30 + field v 0 5) with dtfull := c.dtfull && !flag v 29 }
      if flag v 31 then (coresOf s ctx).foldl flushCore s else s)

/-- TOKEN_RING_TIMER: the timer expires, VEC is raised and the count begins anew. -/
def execTokenRingTimer (ctx ring : Nat) (s : State) : Host.Outcome State Fault Refusal :=
  ctxEvent s ctx (match find (ctxOf s ctx).trtimer ring with
    | none => s
    | some t =>
      if s.mtime < t then s
      else raiseIrq (onCtx s ctx fun c => { c with trcount := put c.trcount ring 0, trtimer := erase c.trtimer ring })
        ctx (field (reg (ctxOf s ctx) (ringAt ring + 8)) 32 11))

/-- VECTOR_UNMASK: a pending interrupt is delivered. -/
def execVectorUnmask (function vector : Nat) (s : State) : Host.Outcome State Fault Refusal :=
  let v := (function, vector)
  let s := { s with masked := s.masked.filter (· != v) }
  .next (if s.msixPending.contains v then
    { s with msixPending := s.msixPending.filter (· != v), irqs := s.irqs ++ [v] } else s)

/-! ### The driver's answer to a halt (R163, R164) -/

/-- A write to FRES, which counts only while the driver is awaited. -/
def driverAnswer (s : State) (ctx : Nat) (t : State) : Host.Outcome State Fault Refusal :=
  ctxEvent s ctx (if ((ctxOf s ctx).halt.map (·.drv)).getD false then t else s)
/-- FRES with ACTION 0. -/
def execFresResume (ctx : Nat) (s : State) : Host.Outcome State Fault Refusal :=
  driverAnswer s ctx (returnFrom s ctx 0 false)
/-- ACTION 1. -/
def execFresFail (ctx : Nat) (s : State) : Host.Outcome State Fault Refusal :=
  driverAnswer s ctx (returnFrom s ctx 1 false)
/-- ACTION 2. -/
def execFresSkip (ctx : Nat) (s : State) : Host.Outcome State Fault Refusal :=
  driverAnswer s ctx (returnFrom s ctx 2 false)
/-- ACTION 3. -/
def execFresKill (ctx : Nat) (s : State) : Host.Outcome State Fault Refusal :=
  driverAnswer s ctx (killContext s ctx)

/-! ### BAR2 (R50, R71) -/

/-- The device virtual address of a BAR2 offset: none outside the window, or with WINBASE bits above 55 set. -/
def windowAddress (s : State) (ctx offset : Nat) : Option Nat :=
  let n := if ctx == 0 then s.module.bar2Log else 30
  let base := reg (ctxOf s ctx) 0x1830 / 2 ^ n * 2 ^ n
  if 2 ^ 56 ≤ reg (ctxOf s ctx) 0x1830 then none else some (base + offset % 2 ^ n)

/-- The pieces of a window access, with what its walks leave behind: none where it fails before its walk. -/
def windowSpan (s : State) (ctx : Nat) (w : WindowOp) : Option (Span × State) :=
  (windowAddress s ctx w.offset).map fun a =>
    if 2 ^ 56 < a + w.bytes then (.stop a (.fault 0x20 4), s)
    else spanBy (windowLook ctx w.via (bit01 w.data.isSome)) s (pages a w.bytes)

/-- A failed access sets WINFAULT. -/
def windowFault (s : State) (ctx : Nat) : State := onCtx s ctx fun c => { c with winfault := true }

/-- Report the poisoned table entry that a walk for a failed window access has read (R88). -/
def windowWalks (s : State) (ctx : Nat) (w : WindowOp) : State :=
  match windowSpan s ctx w with
  | some (.stop va (.fault _ _), _) =>
    if va < 2 ^ 56 && (tlbHit (coreOf s w.via) ctx va).isNone && readsPoison s (towerOfCore w.via) ctx va then
      leaveItem s ctx ⟨0x60, 13, 0x7F, 0, 0, 0, 0, va, 0⟩
    else s
  | _ => s

/-- The oldest window access of a context: none where it waits, for the swap engine, a link or the host (R50). -/
def windowAccess (s : State) (ctx : Nat) (w : WindowOp) : Option State :=
  match windowSpan s ctx w, w.data with
  | some (.stop _ .wait, _), _ | some (.stop _ .ask, _), _ => none
  | some (.ok ps, s), none =>
    let s := if poisonPieces s ps then postItem s ctx ⟨0x60, 13, 0x7F, 0, 0, 0, 0, w.offset, 0⟩ else s
    some { s with readData := some (readPieces s ps) }
  | some (.ok ps, s), some bs => some (writePieces s ps bs)
  | _, none => some { windowFault (windowWalks s ctx w) ctx with readData := some (List.replicate w.bytes 0xFF) }
  | _, some _ => some (windowFault (windowWalks s ctx w) ctx)

/-- The window accesses of a context perform in order, until one waits. -/
def windowOps (ctx : Nat) (s : State) : List WindowOp → State
  | [] => s
  | w :: rest => match windowAccess s ctx w with
    | none => s
    | some t => windowOps ctx (onCtx t ctx fun c => { c with window := rest }) rest
/-- Every window access that can perform. -/
def runWindow (s : State) (ctx : Nat) : State := windowOps ctx s (ctxOf s ctx).window
/-- A window access arrives; by which core's TLB it is translated is open (assumption 2). -/
def windowOp (s : State) (ctx : Nat) (w : WindowOp) : State :=
  let (v, s) := drawWord s
  runWindow (onCtx s ctx fun c => { c with window := c.window ++ [{ w with via := v.toNat % Config.cores }] }) ctx

/-- BAR2_READ. -/
def execBar2Read (ctx offset bytes : Nat) (s : State) : Host.Outcome State Fault Refusal :=
  ctxEvent s ctx (windowOp s ctx { offset := offset, bytes := bytes })
/-- BAR2_WRITE. -/
def execBar2Write (ctx offset : Nat) (data : List (BitVec 8)) (s : State) : Host.Outcome State Fault Refusal :=
  ctxEvent s ctx (windowOp s ctx { offset := offset, bytes := data.length, data := some data })

/-! ### ATS and PRI (R80) -/

/-- Whether a leaf of a page size maps a tier-2 frame that meets a range of I/O virtual addresses. -/
def leafMeets (e size a n : Nat) : Bool := pteTier e == 2 && pteFrame e < a + n && a < pteFrame e + size
/-- Whether what a walk returned does. -/
def walkedMeets (r : WalkResult) (a n : Nat) : Bool :=
  match r with
  | .leaf level e => leafMeets e.toNat (pageBytes level) a n
  | .fault _ _ => false

/-- Whether a seal that has begun is still to write its STAMP in a range of a context's I/O virtual addresses. -/
def hostSealed (s : State) (ctx a n : Nat) : Bool :=
  let base := (Loc.host (pasid (ctxOf s ctx)) 0).key
  s.cores.any fun (_, k) => k.signals.any fun (key, g) => sigOwner key == ctx && g.blocks.any fun b => b.2.sealing.any fun x =>
    x.1 < base + a + n && base + a < x.1 + 8

/-- The completions of a context's ATS invalidations are sent, each once every access by the entries it removed has
performed: of those only a seal outlasts its step (R80). -/
def sendInvalidations (s : State) (ctx : Nat) : State :=
  let left := (ctxOf s ctx).invalidating.filter fun r => hostSealed s ctx r.1 r.2
  onCtx s ctx fun c => { c with
    invalidating := left, invalidated := c.invalidated + (c.invalidating.length - left.length) }

/-- ATS_INVALIDATION: the matching entries go, and its completion is sent or awaits what has used them. -/
def execAtsInvalidation (ctx address length : Nat) (s : State) : Host.Outcome State Fault Refusal :=
  ctxEvent s ctx (sendInvalidations (
    let s := onCtx s ctx fun c => { c with
      invalidating := c.invalidating ++ [(address, length)]
      ats := c.ats.filter fun e => !(e.1 * 65536 < address + length && address < e.1 * 65536 + 65536) }
    { s with cores := s.cores.map fun (n, k) =>
        (n, { k with
          tlb := k.tlb.filter fun t => !(t.ctx == ctx && leafMeets t.leaf.toNat t.size address length)
          walked := k.walked.filter fun w => !(w.ctx == ctx && walkedMeets w.result address length) }) }) ctx)

/-- The page of I/O virtual addresses that an access of a core which asked leads to. -/
def askedPage (s : State) (ctx : Nat) (a : Ask) : Option Nat := ioPage { s with curStream := a.source } a.core ctx a.kind a.va

/-- Whether the host may answer for a page: it holds no translation, and no PRI response for it is awaited. -/
def mayAnswer (c : Ctx) (page : Nat) : Bool := !((find c.ats page).any (·.isSome)) && !inGroup c page

/-- Whether a core of a list stands in its context's halt. -/
def inScope (c : Ctx) (cores : List Nat) : Bool := c.halt.any fun h => cores.any h.cores.contains

/-- Put a page that cores need into the first of a list of groups that `fits`, or into one of its own. -/
def joinPage (fits : PageGroup → Bool) (page : Nat) (cores : List Nat) : List PageGroup → List PageGroup
  | [] => [⟨[page], cores⟩]
  | g :: rest =>
    if fits g then { g with pages := g.pages ++ [page], cores := g.cores ++ cores.filter (!g.cores.contains ·) } :: rest
    else g :: joinPage fits page cores rest

/-- A PRI Page Request for a page goes out: pages that cores of one halt need, or of none, form one group, and one that
an agent of no core needs a group of its own (R80, assumption 56). -/
def requestPage (c : Ctx) (page : Nat) (cores : List Nat) : Ctx :=
  let fits := fun (g : PageGroup) =>
    !cores.isEmpty && !g.cores.isEmpty && inScope c g.cores == inScope c cores
  { c with priGroups := joinPage fits page cores c.priGroups }

/-- Whether the oldest BAR2 access of a context waits for the host's answer for a page. -/
def windowAsks (s : State) (ctx page : Nat) : Bool :=
  match (ctxOf s ctx).window with
  | [] => false
  | w :: _ => match windowSpan s ctx w with
    | some (.stop va .ask, t) => windowPage t ctx w.via va == some page
    | _ => false

/-- The host has no translation for a page: for the cores that asked, or else the agent of no core, a Page Request goes
out; for BAR2 none does, and its access fails (R50). -/
def noTranslation (s : State) (ctx page : Nat) : State :=
  let cores := (((ctxOf s ctx).asked.filter fun a => askedPage s ctx a == some page).map (·.core)).eraseDups
  let failed := windowAsks s ctx page
  let s := onCtx s ctx fun c => { c with
    ats := put c.ats page none, asked := c.asked.filter fun a => askedPage s ctx a != some page }
  let t := if failed then runWindow s ctx else s
  if failed && cores.isEmpty then onCtx t ctx fun c => { c with ats := erase c.ats page }
  else onCtx t ctx fun c => requestPage c page cores

/-- The host has a translation for a page: the accesses that wait for it can proceed. -/
def hasTranslation (s : State) (ctx page : Nat) (t : HostTarget) : State :=
  onCtx s ctx fun c => { c with
    ats := put c.ats page (some t), asked := c.asked.filter fun a => askedPage s ctx a != some page }

/-- ATS_TRANSLATION_COMPLETION: the host's answer for a page; what waits inside the device for its rings posts. -/
def execAtsTranslationCompletion (ctx page : Nat) (target : Option HostTarget) (s : State) :
    Host.Outcome State Fault Refusal :=
  ctxEvent s ctx (
    if !mayAnswer (ctxOf s ctx) page then s
    else
      let t := match target with
        | some l => hasTranslation s ctx page l
        | none => noTranslation s ctx page
      endKilled (pumpEntries (pumpItems t ctx) ctx) ctx)

/-- HOST_PAGE entries become HOST_PAGE_FAIL. -/
def pageFailed (k : Core) : Core :=
  { k with
    faults := k.faults.map fun f => if f.reason == 0x26 then { f with reason := 0x27 } else f
    streams := k.streams.map fun (n, st) => (n, if st.reason == 0x26 then { st with reason := 0x27 } else st) }

/-- A core that stopped on a HOST_PAGE outside the scope of a halt resumes: its page has come (R80). -/
def resumePaged (ctx : Nat) (s : State) (core : Nat) : State :=
  let c := ctxOf s ctx
  let mine := c.pending.filter fun p => p.1 == core && (streamOf (coreOf s core) p.2).reason == 0x26
  let left := c.pending.filter (!mine.contains ·)
  let s := onCtx s ctx fun c => { c with pending := left }
  if mine.isEmpty || inScope c [core] || left.any (·.1 == core) then s else resumeCore c.hseq s core

/-- The pages of a group have come: the context resumes by itself (R80). -/
def groupServed (s : State) (ctx : Nat) (g : PageGroup) : State :=
  let s := onCtx s ctx fun c => { c with ats := g.pages.foldl erase c.ats }
  match (ctxOf s ctx).halt with
  | none => s
  | some h =>
    let s := g.cores.foldl (resumePaged ctx) s
    if h.paging && g.cores.contains h.origin then endHalt s ctx else s

/-- The streams of cores within a halt whose page a group has not brought, though the origin's is of another one: each
has an event that the end of the halt delivers by a new one (R80, R165). -/
def failedPages (s : State) (h : Halt) (pending : List (Nat × Nat)) (cores : List Nat) : List (Nat × Nat) :=
  ((cores.filter h.cores.contains).flatMap fun k =>
    ((coreOf s k).streams.filter fun e => e.2.reason == 0x27).map fun e => (k, e.1)).filter (!pending.contains ·)

/-- A group has failed: its HOST_PAGE entries become HOST_PAGE_FAIL, and the fault goes to software (R80). -/
def groupFailed (s : State) (ctx : Nat) (g : PageGroup) : State :=
  let s := g.cores.foldl (fun s k => onCore s k pageFailed) s
  match (ctxOf s ctx).halt with
  | none => s
  | some h =>
    if !h.paging then s
    else if !g.cores.contains h.origin then
      onCtx s ctx fun c => { c with pending := c.pending ++ failedPages s h c.pending g.cores }
    else
      let h := { h with paging := false, reason := 0x27 }
      let s := onCtx s ctx fun c => { c with halt := some h }
      if h.quiet then
        let (s, lost) := writeFrames s ctx h h.cores
        deliver s ctx h lost
      else s

/-- PRI_RESPONSE: the answer to the oldest Page Request Group of a context. -/
def execPriResponse (ctx : Nat) (success : Bool) (s : State) : Host.Outcome State Fault Refusal :=
  ctxEvent s ctx (match (ctxOf s ctx).priGroups with
    | [] => s
    | g :: rest =>
      let s := onCtx s ctx fun c => { c with priGroups := rest }
      if success then groupServed s ctx g else groupFailed s ctx g)

end Sys2Proof.Machine
end

