-- ==== Sys2Proof/Machine/Retire.lean ====
section
/-! DEFINITION. Errors of memory and registers, and bank units leaving service (01 R17, 04 R76, R88, R89, R92, R93). -/

namespace Sys2Proof.Machine

/-! ### Errors (R88, R89) -/

/-- The core whose physical core store holds a 64-byte granule, by its number in the memory key. -/
def granuleCore (g : Nat) : Option Nat :=
  let key := 64 * g
  if 2 ^ 48 ≤ key && key < 2 ^ 48 + Config.cores * 2 ^ 27 then some ((key - 2 ^ 48) / 2 ^ 27) else none
/-- Whether a granule lies in live HBM or in a core's store. -/
def granuleLive (s : State) (g : Nat) : Bool := live s (64 * g) || (granuleCore g).isSome
/-- Whether a granule lies in a peer module or a host, by its number in the memory key (`Loc.key`). -/
def granuleOutside (g : Nat) : Bool := 2 ^ 56 ≤ 64 * g && 64 * g < 2 ^ 112
/-- Whether a granule may become poisoned: poison received from a peer or a host is handled as one's own. -/
def poisonable (s : State) (g : Nat) : Bool := granuleLive s g || granuleOutside g

/-- A corrected granule counts at its site or at its core. -/
def countCorrected (s : State) (g : Nat) : State :=
  match granuleCore g with
  | some c => onCore s c fun k => { k with corrected := k.corrected + 1 }
  | none => onModule s fun m => { m with corrected := adjust 0 m.corrected (64 * g / 2 ^ 37) (· + 1) }
/-- A granule becomes poisoned. -/
def poisonGranule (s : State) (g : Nat) : State :=
  { s with poison := if s.poison.contains g then s.poison else s.poison ++ [g] }

/-- PATROL_SCRUB: the soft errors a pass over HBM, or a read of HBM or core store, has found: each corrected granule
counts at its site or core, each uncorrectable one is poisoned, as is one that a peer or a host delivers poisoned. -/
def execPatrolScrub (corrected uncorrectable : List Nat) (s : State) : Host.Outcome State Fault Refusal :=
  let s := (corrected.filter (granuleLive s)).foldl countCorrected s
  .next ((uncorrectable.filter (poisonable s)).foldl poisonGranule s)

/-- UNCORRECTABLE: an error in a register, tile or accumulator of a stream halts the partition. -/
def execUncorrectable (core stream : Nat) (s : State) : Host.Outcome State Fault Refusal :=
  .next (if (coreOf s core).slice.isSome && stream < 7 then
    let (info, s) := drawWord s
    takeException s core stream 0x15 info (streamOf (coreOf s core) stream).pc
  else s)

/-! ### The remap step (R92, R93) -/

/-- Firmware presents a request: REMAP_BUSY, RMREQ, the module event vector. What numbers requests is open, so SEQ is a
free value (assumption 2). -/
def presentRequest (s : State) (reason site unit : Nat) : State :=
  let (w, s) := drawWord s
  let r : Retirement := { reason := reason, site := site, unit := unit, seq := w.toNat % 2 ^ 32 }
  raiseIrq (onModule s fun m => { m with
    remapBusy := true, confirmed := false, retirement := some r, lastRequest := some r }) 0 2047

/-- Whether a unit is in service and not already asked for. -/
def retirable (s : State) (site unit : Nat) : Bool :=
  site < 32 && unit < 64 && flag (bamapOf s site) unit &&
    !((s.module.retirement.toList ++ s.module.retireQueue).any fun r => r.site == site && r.unit == unit)

/-- A request for a unit: presented, or held while another is pending. -/
def requestRetirement (s : State) (reason site unit : Nat) : State :=
  if !retirable s site unit then s
  else if s.module.retirement.isSome then
    onModule s fun m => { m with
      retireQueue := m.retireQueue ++ [{ reason := reason, site := site, unit := unit, seq := 0 }] }
  else presentRequest s reason site unit

/-- Whether a site has been at 95 °C or above for more than 1 s (R17). -/
def siteRetires (s : State) (site : Nat) : Bool :=
  (find s.module.hotSince site).any fun t => t + 1000000000 < s.elapsed

/-- REMAP_REQUEST: reason 1, or 2 for a site hot enough. -/
def execRemapRequest (reason site unit : Nat) (s : State) : Host.Outcome State Fault Refusal :=
  .next (if reason == 1 || (reason == 2 && siteRetires s site) then requestRetirement s reason site unit else s)

/-- HBM_THERMAL_RETIREMENT (R17). -/
def execHbmThermalRetirement (site unit : Nat) (s : State) : Host.Outcome State Fault Refusal :=
  .next (if siteRetires s site then requestRetirement s 2 site unit else s)

/-- RMCTL_WRITE: through the PF's view, with the request's SEQ. -/
def execRmctlWrite (pf : Bool) (value : BitVec 32) (s : State) : Host.Outcome State Fault Refusal :=
  .next (if pf && s.module.retirement.any (fun r => r.seq == value.toNat) then
    onModule s fun m => { m with confirmed := true }
  else s)

/-- The unit leaves BAMAP and HBM_GIB in one new epoch, and R21 is evaluated. -/
def publish (s : State) (r : Retirement) : State :=
  let units := BitVec.ofNat 64 (setField (bamapOf s r.site) r.unit 1 0)
  let s := newEpoch (onModule s fun m => { m with
    bamap := put m.bamap r.site units, retirement := none, confirmed := false, remapBusy := false })
  checkReplace (logEvent s 0x0005 (64 * r.site + r.unit))

/-- REMAP_PUBLISH; the next held request is then presented. -/
def execRemapPublish (s : State) : Host.Outcome State Fault Refusal :=
  .next (match s.module.retirement with
    | none => s
    | some r =>
      if !s.module.confirmed then s
      else
        let s := publish s r
        match s.module.retireQueue with
        | [] => s
        | q :: rest => presentRequest (onModule s fun m => { m with retireQueue := rest }) q.reason q.site q.unit)

/-! ### Table walks (R74-R76, R88) -/

/-- Whether a wait is one for the walk of a page. -/
def waitsOn (page : Nat) : Waiting → Bool
  | .page va _ | .transit va _ => va / 65536 == page
  | _ => false

/-- The wait of a stream that joined a walk ends, or with `held` goes on as one for the swap engine, a stall of its own
(R76, R85). -/
def walkMoves (page : Nat) (held : Bool) (s : State) (j : Joiner) : State :=
  asStream s j.core j.requester fun s =>
    match (me s).waiting with
    | some (.page va kind) =>
      if va / 65536 != page then s
      else onMe (traceWait s (me s)) fun st => { st with
        waiting := if held then some (.transit va kind) else none, since := (myCore s).cycle }
    | some (.transit va _) =>
      if held || va / 65536 != page then s else onMe (traceWait s (me s)) fun st => { st with waiting := none }
    | _ => s

/-- An access that joined a walk has what it returned, and the TLB of its core the leaf (R75, R76). -/
def takeWalk (w : Walking) (r : WalkResult) (s : State) (j : Joiner) : State :=
  let holds := (coreOf s j.core).slice.map (·.ctx) == some w.ctx
  let va := w.page * 65536
  let s := match r with
    | .leaf level e =>
      if holds && (tlbHit (coreOf s j.core) w.ctx va).isNone then tlbInsert s j.core w.ctx level e.toNat va else s
    | .fault _ _ => s
  if !holds then s
  else onCore s j.core fun k => { k with
    walked := (k.walked.filter fun x => !(x.requester == j.requester && x.ctx == w.ctx && x.page == w.page)) ++
      [⟨j.requester, w.ctx, w.page, r, j.va, j.kind⟩] }

/-- A tower's walks with one changed by `f`, or taken away. -/
def onWalk (s : State) (t : Nat) (w : Walking) (f : Walking → Option Walking) : State :=
  onTower s t fun k => { k with
    walks := k.walks.filterMap fun x => if x.ctx == w.ctx && x.page == w.page then f x else some x }

/-- A walk returns: with a leaf in transit it stays in flight; else every access that joined it has its result, and a
poisoned entry is reported for the first (R76, R88). -/
def endWalk (s : State) (t : Nat) (w : Walking) : State :=
  let va := w.page * 65536
  let r := walkBy s t w.ctx va
  let transit := match r.1 with
    | .leaf _ e => flag e.toNat 7
    | .fault _ _ => false
  if transit then
    w.joiners.foldl (walkMoves w.page true) (onWalk s t w fun x => some { x with transit := true })
  else
    let s := match w.joiners with
      | j :: _ =>
        if readsPoison s t w.ctx va then
          postItem s w.ctx (coreItem s j.core j.requester 0x60 va 0)
        else s
      | [] => s
    let s := cacheNonLeaf (onWalk s t w fun _ => none) t r.2
    w.joiners.foldl (walkMoves w.page false) (w.joiners.foldl (takeWalk w r.1) s)

/-- WALK_COMPLETE: the walk that an access of a stream, or of the copy engine (7), waits for has returned. -/
def execWalkComplete (core stream : Nat) (s : State) : Host.Outcome State Fault Refusal :=
  .next (if Config.cores ≤ core then s
    else match (towerOf s (towerOfCore core)).walks.find? fun w => hasJoined w core stream with
      | some w => endWalk s (towerOfCore core) w
      | none => s)

end Sys2Proof.Machine
end

