-- ==== Sys2Proof/Machine/Swap.lean ====
section
/-! DEFINITION. The swap engine of each tower (04 R82-R87): a command is checked, its pages change hands one by one, and
its completion is written. -/

namespace Sys2Proof.Machine

/-! ### The command (Table 4.7) -/

/-- OP. -/
def swapOp (im : List Byte) : Nat := imageAt im 0 1
/-- PGSZ, the level of its leaves. -/
def swapLevel (im : List Byte) : Nat := imageAt im 1 1
/-- CTX. -/
def swapCtx (im : List Byte) : Nat := imageAt im 2 2
/-- PAGES. -/
def swapPages (im : List Byte) : Nat := imageAt im 4 4
/-- VA. -/
def swapVa (im : List Byte) : Nat := imageAt im 8 8
/-- VB of an EXCHANGE, SRCF of a PROMOTE. -/
def swapVb (im : List Byte) : Nat := imageAt im 16 8
/-- DEST. -/
def swapDest (im : List Byte) : Nat := imageAt im 24 8
/-- WSEL. -/
def swapWsel (im : List Byte) : Nat := imageAt im 32 1
/-- CPLADDR. -/
def swapCpl (im : List Byte) : Nat := imageAt im 48 8
/-- The leaf DEST gives page `i`. -/
def destLeaf (im : List Byte) (i : Nat) : Nat := pteTransit (pteNext (swapDest im) (i * pageBytes (swapLevel im))) false

/-! ### The checks, in the order of R83 -/

/-- The fields of R82, in byte order. A CTX above 64 that context 0 names, and a PROMOTE's WSEL above 10, give SW_BADOP,
for which the spec states no status (assumption 45, DESIGN CHOICE). -/
def swapFields (ctx : Nat) (im : List Byte) : Option Nat :=
  let promote := swapOp im == 3
  if !(1 ≤ swapOp im && swapOp im ≤ 3) || 2 < swapLevel im then some 0x40
  else if ctx != 0 && swapCtx im != ctx then some 0x41
  else if Config.contexts ≤ swapCtx im || (promote && swapPages im != 1) || (promote && 10 < swapWsel im) ||
      !zeroAt im 33 7 || swapCpl im % 8 != 0 || !zeroAt im 56 8 then some 0x40
  else none

/-- A page range that is misaligned or passes 2^56. -/
def badRange (im : List Byte) (va : Nat) : Bool :=
  va % pageBytes (swapLevel im) != 0 || 2 ^ 56 < va + swapPages im * pageBytes (swapLevel im)

/-- The valid leaf of the command's page size at an address of the target, with the address of the entry. -/
def swapLeaf (s : State) (im : List Byte) (va : Nat) : Option (Nat × Nat) :=
  if !flag (ptroot s (swapCtx im)) 0 then none
  else match walk s (swapCtx im) va with
    | .leaf level e a => if level == swapLevel im then some (e, a) else none
    | .fault _ _ => none

/-- The first addresses of a range's pages. -/
def swapRange (im : List Byte) (va : Nat) : List Nat :=
  (List.range (swapPages im)).map fun i => va + i * pageBytes (swapLevel im)
/-- Every page whose leaf the command changes. -/
def swapTargets (im : List Byte) : List Nat :=
  swapRange im (swapVa im) ++ (if swapOp im == 2 then swapRange im (swapVb im) else [])

/-- A DEST that is no leaf of its size, or whose frame is not live. -/
def badDest (s : State) (im : List Byte) : Bool :=
  let e := swapDest im
  !flag e 0 || !flag e 1 || formFault (swapLevel im) e ||
    (pteTier e == 0 && (List.range (swapPages im)).any fun i => !live s (pteFrame (destLeaf im i)))

/-- A page with RS = 1. -/
def swapRs (s : State) (im : List Byte) : Bool :=
  (swapOp im != 2 && flag (swapDest im) 6) ||
    (swapTargets im).any fun va => (swapLeaf s im va).any fun p => flag p.1 6

/-- The status of the checks: none lets pages move. -/
def swapCheck (s : State) (ctx : Nat) (im : List Byte) : Option Nat :=
  match swapFields ctx im with
  | some code => some code
  | none =>
    if swapPages im == 0 then some 0
    else if badRange im (swapVa im) || (swapOp im == 2 && badRange im (swapVb im)) then some 0x40
    else if swapOp im != 2 && badDest s im then some 0x42
    else if swapOp im != 3 && (swapTargets im).any fun va => (swapLeaf s im va).isNone then some 0x43
    else if swapRs s im then some 0x44
    else none

/-! ### Pages (R85) -/

/-- The place of a 64 KiB piece under a leaf, for the engine itself, which raises no translation fault (R84): none while
the link to a peer or the host's translation is away. -/
def framePlace (s : State) (ctx level e offset : Nat) : Option Loc :=
  if pteTier e == 0 then some (.hbm (pteFrame e + offset))
  else match placeOf s .engine ctx level e offset with
    | .hit l => some l
    | _ => none

/-- The pieces of a page. -/
def pageOffsets (level : Nat) : List Nat := (List.range (pageBytes level / 65536)).map (· * 65536)
/-- Whether every piece of a page is in reach. -/
def pageReached (s : State) (ctx level e : Nat) : Bool := (pageOffsets level).all fun o => (framePlace s ctx level e o).isSome

/-- What a 64 KiB piece of a leaf's frame at a place holds: its listed bytes and its poisoned granules, both counted
from its start; for a port window its registers, for a refused page all ones; of a frame no longer live, free bytes,
since its data is lost (R93, assumption 2). -/
def lift (s : State) (e offset : Nat) (l : Loc) : (Memory × List Nat) × State :=
  if pteTier e == 0 && !live s (pteFrame e + offset) then
    let (bs, s) := drawBytes s 65536
    ((writeBytes [] 0 bs, []), s)
  else match l with
    | .bar0 _ | .refused => ((writeBytes [] 0 (fetchAt s l 65536), []), s)
    | _ => ((moveRange s.mem l.key 65536 0,
        (s.poison.filter fun g => l.key ≤ 64 * g && 64 * g < l.key + 65536).map fun g => g - l.key / 64), s)

/-- A 64 KiB piece takes what another held, the poison with the data. -/
def lay (s : State) (l : Loc) (v : Memory × List Nat) : State :=
  match l with
  | .bar0 _ => storeAt s l (readBytes v.1 0 65536)
  | .refused => s
  | _ => { s with
      mem := writeCells (clearRange s.mem l.key 65536) (v.1.map fun c => (c.1 + l.key, c.2))
      poison := (s.poison.filter fun g => !(l.key ≤ 64 * g && 64 * g < l.key + 65536)) ++ v.2.map (· + l.key / 64) }

/-- Copy a page's contents from one leaf's frame to another's. -/
def copyPage (ctx level old new : Nat) (s : State) (o : Nat) : State :=
  match framePlace s ctx level old o, framePlace s ctx level new o with
  | some a, some b =>
    let (v, s) := lift s old o a
    lay s b v
  | _, _ => s
/-- Swap the contents of two pages' frames. -/
def crossPage (ctx level ea eb : Nat) (s : State) (o : Nat) : State :=
  match framePlace s ctx level ea o, framePlace s ctx level eb o with
  | some a, some b =>
    let (v, s) := lift s ea o a
    let (w, s) := lift s eb o b
    lay (lay s b v) a w
  | _, _ => s
/-- Whether a page's frame holds poison. -/
def pagePoisoned (s : State) (ctx level e : Nat) : Bool :=
  (pageOffsets level).any fun o => (framePlace s ctx level e o).any fun l => poisonedAt s l 65536

/-- Write a leaf. -/
def putLeaf (s : State) (a e : Nat) : State := writeAt s (.hbm a) (toBytes 8 e)
/-- The bits of a leaf that an EXCHANGE carries: FRAME, MODULE, TIER. -/
def withPlace (e from_ : Nat) : Nat :=
  setField (setField (setField e 20 40 (field from_ 20 40)) 8 12 (pteModule from_)) 4 2 (pteTier from_)

/-! ### Running: the steps of R85 for the page at hand, each an event of the engine (assumption 46) -/

/-- The swap commands of a context at a tower. -/
def swapsOf (s : State) (ctx tower : Nat) : List SwapCmd := look [] (ctxOf s ctx).swaps tower
/-- Change them. -/
def onSwaps (s : State) (ctx tower : Nat) (f : List SwapCmd → List SwapCmd) : State :=
  onCtx s ctx fun c => { c with swaps := adjust [] c.swaps tower f }
/-- Change the head command. -/
def onHead (s : State) (ctx tower : Nat) (f : SwapCmd → SwapCmd) : State :=
  onSwaps s ctx tower fun l => match l with
    | [] => []
    | c :: rest => f c :: rest
/-- Report the poisoned table entries that the walks of a command's pages have read, where it has found no leaf of its
own (R88). -/
def swapWalks (s : State) (ctx tower : Nat) : State :=
  match swapsOf s ctx tower with
  | [] => s
  | c :: _ => ((swapTargets c.image).filter fun va => (swapLeaf s c.image va).isNone).foldl (fun s va =>
      if readsPoison s Config.towers (swapCtx c.image) va then
        leaveItem s ctx ⟨0x60, 8, c.core, 0, 0, 9, c.number, va, 0⟩
      else s) s
/-- The head command has ended with a status, LATE and pages moved. -/
def swapEnd (s : State) (ctx tower status : Nat) (late : Bool) (pages : Nat) : State :=
  onHead (if status == 0x43 || status == 0x45 then swapWalks s ctx tower else s) ctx tower fun c =>
    { c with result := some (status, late, pages) }

/-- The head command of a context at a tower, when it is the context's one command to run: none of its other towers'
commands is in progress, or stands ended and not completed. -/
def swapHead (s : State) (ctx tower : Nat) : Option SwapCmd :=
  match swapsOf s ctx tower with
  | [] => none
  | c :: _ =>
    let busy := fun (e : Nat × List SwapCmd) => e.2.any fun x =>
      x.result.isSome || (e.1 != tower && (x.page != 0 || x.transit.isSome))
    if (ctxOf s ctx).swaps.any busy then none else some c

/-- The first addresses of the pages that a command now changes: one, or two for an EXCHANGE. -/
def pageAddresses (c : SwapCmd) : List Nat :=
  let at_ := fun va => va + c.page * pageBytes (swapLevel c.image)
  at_ (swapVa c.image) :: (if swapOp c.image == 2 then [at_ (swapVb c.image)] else [])

/-- The valid leaves of those pages with the addresses of their entries: none if one has none. -/
def pageLeaves (s : State) (c : SwapCmd) : Option (List (Nat × Nat)) :=
  let ls := (pageAddresses c).map (swapLeaf s c.image)
  if ls.all (·.isSome) then some (ls.filterMap id) else none

/-- Steps 1 and 2: the leaves are written with TRANSIT = 1, and their translations leave the TLBs and the walkers'
caches. -/
def markPage (s : State) (c : SwapCmd) (leaves : List (Nat × Nat)) : State :=
  let s := leaves.foldl (fun s l => putLeaf s l.2 (pteTransit l.1 true)) s
  (pageAddresses c).foldl (fun s va => invalidate s (swapCtx c.image) va (pageBytes (swapLevel c.image))) s

/-- Whether an access that used the pages' old translations has yet to perform. -/
def pageUsed (s : State) (c : SwapCmd) : Bool :=
  (pageAddresses c).any fun va => outstanding s (swapCtx c.image) va (pageBytes (swapLevel c.image))

/-- The old translations of the pages, which the copies ahead of the markers keep. -/
def oldEntries (c : SwapCmd) (leaves : List (Nat × Nat)) : List TlbEntry :=
  ((pageAddresses c).zip leaves).map fun (va, l) =>
    ⟨swapCtx c.image, va, pageBytes (swapLevel c.image), BitVec.ofNat 64 l.1⟩

/-- Step 3: the markers enter the copy queues. -/
def enterMarkers (s : State) (ctx tower : Nat) (c : SwapCmd) (x : Transit) : State :=
  let target := swapCtx c.image
  let ahead := copiesAhead s target
  onHead (pinLeaves s target ahead (oldEntries c x.leaves)) ctx tower fun c =>
    { c with transit := some { x with ahead := some ahead } }

/-- The frames that step 4 reads and writes, as leaves. -/
def pageFrames (c : SwapCmd) (x : Transit) : List Nat :=
  x.leaves.map (·.1) ++ (if swapOp c.image == 2 then [] else [destLeaf c.image c.page])

/-- Steps 4 and 5: the contents move, and the new leaves are written with TRANSIT = 0. -/
def installPage (s : State) (c : SwapCmd) (x : Transit) : State :=
  let ctx := swapCtx c.image
  let level := swapLevel c.image
  match x.leaves with
  | [(e, a)] => putLeaf ((pageOffsets level).foldl (copyPage ctx level e (destLeaf c.image c.page)) s) a (destLeaf c.image c.page)
  | [(ea, a), (eb, b)] =>
    let s := (pageOffsets level).foldl (crossPage ctx level ea eb) s
    putLeaf (putLeaf s a (pteTransit (withPlace ea eb) false)) b (pteTransit (withPlace eb ea) false)
  | _ => s

/-- Whether a page that changes hands holds poison. -/
def oldPoisoned (s : State) (c : SwapCmd) (x : Transit) : Bool :=
  x.leaves.any fun l => pagePoisoned s (swapCtx c.image) (swapLevel c.image) l.1

/-- The head command has come past its page, and moved it or found no leaf there. -/
def pastPage (s : State) (ctx tower : Nat) (moved poison : Bool) : State :=
  onHead s ctx tower fun c =>
    { c with page := c.page + 1, moved := c.moved + bit01 moved, poison := c.poison || poison, transit := none }

/-- The timeline WSEL selects is at or above WVAL (R86). -/
def promoLate (s : State) (ctx : Nat) (c : SwapCmd) : Bool :=
  swapWsel c.image != 0 && imageAt c.image 40 8 ≤ (tlOf s ctx (tlKey (swapWsel c.image) c.core)).value

/-- PROMO_LATE counts, saturating. -/
def countLate (s : State) (ctx : Nat) : State :=
  onCtx s ctx fun c => setReg c 0x1848 (Nat.min (2 ^ 32 - 1) (reg c 0x1848 + 1))

/-- The command ends when its last page has changed hands: a PROMOTE then is late, or in time. -/
def swapLast (s : State) (ctx tower : Nat) : State :=
  match swapsOf s ctx tower with
  | [] => s
  | c :: _ =>
    if c.page < swapPages c.image then s
    else
      let late := swapOp c.image == 3 && promoLate s ctx c
      swapEnd (if late then countLate s ctx else s) ctx tower (if c.poison then 0x46 else 0) late c.moved

/-- One step of the head command, whose checks have passed: its page is marked, unless another command has it in
transit; then its markers enter, once every access by the old translation has performed; then it moves, once the copies
ahead of them have completed and its frames are in reach. -/
def swapStep (s : State) (ctx tower : Nat) (c : SwapCmd) : State :=
  match c.transit with
  | none => match pageLeaves s c with
    | none => swapLast (pastPage s ctx tower false false) ctx tower
    | some ls =>
      if ls.any fun l => flag l.1 7 then s
      else onHead (markPage s c ls) ctx tower fun c => { c with transit := some { leaves := ls } }
  | some x => match x.ahead with
    | none => if pageUsed s c then s else enterMarkers s ctx tower c x
    | some ahead =>
      if ahead.any (copyStands s (swapCtx c.image)) ||
          !(pageFrames c x).all (pageReached s (swapCtx c.image) (swapLevel c.image)) then s
      else swapLast (pastPage (installPage s c x) ctx tower true (oldPoisoned s c x)) ctx tower

/-- The page has a valid leaf that equals SRCF, TRANSIT clear (R86). -/
def srcStands (s : State) (im : List Byte) : Bool :=
  match swapLeaf s im (swapVa im) with
  | some (e, _) => pteTransit e false == swapVb im
  | none => false

/-- A swap command of an OP goes on, or starts: refused by its checks, a PROMOTE superseded, or with its first step. -/
def swapRun (s : State) (ctx tower op : Nat) : Host.Outcome State Fault Refusal :=
  .next (if Config.contexts ≤ ctx then s
    else match swapHead s ctx tower with
      | none => s
      | some c =>
        if swapOp c.image != op then s
        else if c.page != 0 || c.transit.isSome then swapStep s ctx tower c
        else match swapCheck s ctx c.image with
          | some 0x40 => s
          | some code => swapEnd s ctx tower code false 0
          | none => if op == 3 && !srcStands s c.image then swapEnd s ctx tower 0x45 false 0 else swapStep s ctx tower c)

/-- MIGRATE. -/
def execMigrate (ctx tower : Nat) (s : State) : Host.Outcome State Fault Refusal := swapRun s ctx tower 1
/-- EXCHANGE. -/
def execExchange (ctx tower : Nat) (s : State) : Host.Outcome State Fault Refusal := swapRun s ctx tower 2
/-- PROMOTE. -/
def execPromote (ctx tower : Nat) (s : State) : Host.Outcome State Fault Refusal := swapRun s ctx tower 3

/-- SWAP_BAD_OP. -/
def execSwapBadOp (ctx tower : Nat) (s : State) : Host.Outcome State Fault Refusal :=
  .next (if Config.contexts ≤ ctx then s
    else match swapHead s ctx tower with
      | none => s
      | some c =>
        if c.page == 0 && c.transit.isNone && swapCheck s ctx c.image == some 0x40 then swapEnd s ctx tower 0x40 false 0
        else s)

/-! ### Completion (R84) -/

/-- Whether a status has the error bit (Table 4.8). -/
def swapError (status : Nat) : Bool := status != 0 && status != 0x45

/-- Whether the completion word waits for the host's translation, a link or the swap engine. -/
def swapWaits (s : State) (ctx : Nat) (c : SwapCmd) : Bool :=
  let a := swapCpl c.image
  a != 0 && a % 8 == 0 && virtualWaits s ctx 1 a 8

/-- The completion word, or an item record where it cannot be written. A misaligned CPLADDR, for which the command ends
SW_BADOP, gets neither, of which the spec says nothing (assumption 45, DESIGN CHOICE). -/
def swapReport (s : State) (ctx : Nat) (c : SwapCmd) (status : Nat) (late : Bool) (pages : Nat) : State :=
  let a := swapCpl c.image
  let w := toBytes 4 (status + bit01 (swapError status) * 2 ^ 16 + bit01 late * 2 ^ 17) ++ toBytes 4 pages
  if a == 0 || a % 8 != 0 then s
  else match writeVirtual s ctx a w with
    | some s => s
    | none => postItem (walkReport s ctx 8 1 a 8) ctx ⟨0x62, 8, c.core, 0, 0, 9, c.number, a, 0⟩

/-- SWAP_COMPLETE: the word is written, tl.sw advances, input 8 pulses. -/
def execSwapComplete (ctx tower : Nat) (s : State) : Host.Outcome State Fault Refusal :=
  .next (if Config.contexts ≤ ctx then s
    else match swapsOf s ctx tower with
      | [] => s
      | c :: rest => match c.result with
        | none => s
        | some (status, late, pages) =>
          if swapWaits s ctx c then s
          else
          let s := onSwaps (swapReport s ctx c status late pages) ctx tower fun _ => rest
          let s := tlDone s ctx (128 * 9 + tower) c.number
          pulseAll s ctx 8 (towerCores tower))

end Sys2Proof.Machine
end

