-- ==== Sys2Proof/Machine/Scheduler.lean ====
section
/-! DEFINITION. The hardware scheduler (05 R99-R112, R133, R135, R158): rounds, the start of a slice, checkpoints and
kills, token buckets, deadlines and budgets. -/

namespace Sys2Proof.Machine

/-! ### Records by context -/

/-- A record with its context and index. -/
structure Ticket where
  ctx : Nat
  index : Nat
  record : Record
  deriving DecidableEq, Repr

/-- Every record that satisfies `p`. -/
def tickets (s : State) (p : Record → Bool) : List Ticket :=
  s.ctxs.flatMap fun (c, x) => (x.records.filter fun e => p e.2).map fun e => ⟨c, e.1, e.2⟩

/-- Issue order (R102): earlier deadline, then more PRIO, then lower SUBMIT. -/
def issuesBefore (a b : Record) : Bool :=
  a.limit < b.limit || (a.limit == b.limit && (b.prio < a.prio || (a.prio == b.prio && a.submit < b.submit)))

/-- Insert a ticket in issue order. -/
def insertTicket (t : Ticket) : List Ticket → List Ticket
  | [] => [t]
  | u :: us => if issuesBefore u.record t.record then u :: insertTicket t us else t :: u :: us
/-- Tickets in issue order. -/
def issueOrder (ts : List Ticket) : List Ticket := ts.foldr insertTicket []

/-- Whether a record's slice occupies cores. -/
def onCores (r : Record) : Bool := r.state == .running || r.state == .draining
/-- Whether a record waits to be placed. -/
def unplaced (r : Record) : Bool := r.state == .ready || r.state == .checkpointed

/-! ### The start of a slice (R102, R105, R132, R133) -/

/-- The saved state of a core of a checkpointed record: that of the slot taken last. -/
def savedCore (s : State) (ctx i core : Nat) : Option Core :=
  ((ctxOf s ctx).slots.filter fun l => l.record == i && l.core == core && l.saved.slice.isSome).getLast?.map (·.saved)

/-- Forget the saved states of a record, and with `regions` the regions its slots hold. -/
def clearSaved (s : State) (ctx i : Nat) (regions : Bool) : State :=
  onCtx s ctx fun c => { c with slots := c.slots.map fun l =>
    if l.record == i then { l with saved := {}, regions := if regions then [] else l.regions } else l }

/-- The `cc` stream of a slice that starts afresh: word 2 of the line at CODE, a function entry, g2 = FRAME, g8 = UNIT.
-/
def firstStream (r : Record) : Stream :=
  { status := .running, pc := word (r.code + 8), entering := true, g := [(2, word r.frame), (8, word r.unit)] }

/-- A core that starts a slice afresh. -/
def freshSlice (ctx i : Nat) (r : Record) (k : Core) : Core :=
  { freshCore k with slice := some ⟨ctx, i⟩, streams := [(0, firstStream r)] }

/-- A core that takes a saved state up again: a stream that yielded runs on, and an operation that stopped part-way goes
on at its PROGRESS. Its caches, its resident descriptors and its trace are those the core has. -/
def resumedSlice (ctx i : Nat) (v k : Core) : Core :=
  { v with
    cycle := k.cycle, signals := k.signals, regions := k.regions, resident := k.resident, tids := k.tids
    tidCtx := k.tidCtx, otherTids := k.otherTids, tlb := k.tlb, fetched := k.fetched, lastTrace := k.lastTrace
    traceBuffer := k.traceBuffer, traceLost := k.traceLost
    synced := k.synced, corrected := k.corrected
    halted := false, slice := some ⟨ctx, i⟩
    streams := v.streams.map fun (n, st) =>
      (n, cutLatch (if st.status == .yielded then { st with status := .running } else st)) }

/-- A core's cache of tensor entries for a slice of a context: each context has its own identifiers (R148). -/
def turnTids (ctx : Nat) (k : Core) : Core :=
  if k.tidCtx == ctx then k
  else
    let mine := k.otherTids.filter fun e => e.1 / 4096 == ctx
    { k with
      tids := mine.map fun e => (e.1 % 4096, e.2)
      tidCtx := ctx
      otherTids := k.tids.foldl (fun m e => put m (4096 * k.tidCtx + e.1) e.2) (k.otherTids.filter (!mine.contains ·)) }

/-- Start one core of a slice. -/
def startCore (ctx i : Nat) (r : Record) (s : State) (core : Nat) : State :=
  let start := 2 ^ 24 * r.unit + i
  let s := onCore s core fun k => turnTids ctx { k with synced := k.cycle / 65536 }
  match savedCore s ctx i core with
  | some v =>
    let s := trace (onCore s core (resumedSlice ctx i v)) core 2 0 start
    let s := if v.halted then trace s core 8 0 ((ctxOf s ctx).hseq % 2 ^ 32) else s
    if v.sctx == 0 then s else asStream s core 0 fun s => fetchDesc s core ctx v.sctx
  | none =>
    let s := trace (onCore s core (freshSlice ctx i r)) core 2 0 start
    if r.sctx == 0 then s else asStream s core 0 fun s => switchSctx s core ctx r.sctx

/-- Start a placed record's slice on every core of its rectangle. -/
def startSlice (s : State) (t : Ticket) : State :=
  let s := (recordCores t.record).foldl (startCore t.ctx t.index t.record) s
  onRecord (clearSaved s t.ctx t.index false) t.ctx t.index fun r => { r with placed := false, started := s.mtime }

/-- SLICE_START. -/
def execSliceStart (ctx index : Nat) (s : State) : Host.Outcome State Fault Refusal :=
  .next (match recordOf s ctx index with
    | some r => if r.placed then startSlice s ⟨ctx, index, r⟩ else s
    | none => s)

/-! ### Checkpoints and kills (R104, R105, R107) -/

/-- Free checkpoint slots of a context, lowest first. -/
def freeSlots (s : State) (ctx : Nat) : List Nat :=
  let c := ctxOf s ctx
  below (field (reg c 0x1870) 0 12) fun n => !c.slots.any fun l => l.number == n

/-- Take a slot for each core of a record and mark it to be checkpointed: none without enough free slots. -/
def markCheckpoint (s : State) (t : Ticket) : Option State :=
  let cs := recordCores t.record
  let free := freeSlots s t.ctx
  if free.length < cs.length then none
  else
    let new := (free.zip cs).map fun (n, c) => { number := n, record := t.index, core := c, saved := {} : Slot }
    some (onRecord (onCtx s t.ctx fun c => { c with slots := c.slots ++ new }) t.ctx t.index fun r =>
      { r with stopping := some true })

/-- rem(V) (R104). -/
def remaining (s : State) (r : Record) : Nat := r.est - (s.mtime - r.started)

/-- Every outstanding load of a core returns (R159). -/
def returnLoads (s : State) (core : Nat) : State :=
  (coreOf s core).streams.foldl (fun s (n, st) => st.loads.foldl (fun s l => returnLoad s core n l) s) s

/-- The state of a core that a checkpoint saves: what a slice owns; F of every accumulator is restored as 0 (R146). -/
def ownState (k : Core) (stopped : Bool) : Core :=
  { k with cycle := 0, signals := [], regions := [], resident := [], tids := [], tidCtx := 0, otherTids := [], tlb := []
           fetched := [], lastTrace := 0
           traceBuffer := [], traceLost := [], synced := 0, corrected := 0, walked := [], copyLeaves := [], accF := 0
           halted := stopped }

/-- Bytes of a slot's memory, by offset in the MiB of the slot after those of its regions. -/
abbrev Image := List (Nat × List Byte)

/-- The entries of a table, each of `n` bytes, from an offset on. -/
def tableImage (o n : Nat) (m : Map Nat) : Image := m.map fun e => (o + n * e.1, toBytes n e.2)

/-- The registers of a stream in a slot: g, the q that are live, and the rest (R105 step 4). -/
def streamImage (e : Nat × Stream) : Image :=
  let o := 0x1000 * (e.1 + 1)
  let st := e.2
  tableImage o 8 (st.g.map fun r => (r.1, r.2.toNat)) ++
    tableImage (o + 0x400) 8 ((st.q.filter fun r => flag st.qlive.toNat r.1).map fun r => (r.1, r.2.toNat)) ++
    [(o + 0x480, toBytes 2 st.qlive.toNat ++ toBytes 2 st.c.toNat ++ toBytes 1 st.lstage.toNat ++ toBytes 1 st.fflags.toNat ++
      toBytes 1 st.dflags.toNat ++ toBytes 1 st.rmode.toNat ++ toBytes 8 st.lr.toNat ++ toBytes 8 st.lpass.toNat ++
      toBytes 8 st.ltrip.toNat)]

/-- A counter of the crossbar in a slot. -/
def counterBytes (c : Counter) : List Byte := toBytes 2 c.count ++ toBytes 2 c.thresh ++ toBytes 1 (bit01 c.en) ++ toBytes 1 c.sel
/-- A reply in a slot. -/
def replyBytes (e : Reply) : List Byte :=
  toBytes 4 e.token.toNat ++ toBytes 4 e.seq.toNat ++ toBytes 4 e.step.toNat ++ toBytes 2 e.reason.toNat ++
    toBytes 2 (bit01 e.fail + 2 * bit01 e.grammar)

/-- Tiles, the lanes of dirty accumulators and scales in a slot (R105 steps 2 and 3). -/
def tileImage (v : Core) : Image :=
  tableImage 0x20000 2 (v.tiles.map fun e => (e.1, e.2.toNat)) ++
    tableImage 0x40000 8 ((v.acc.filter fun e => v.accD.getLsbD (e.1 / 4096)).map fun e => (e.1, e.2.toNat)) ++
    tableImage 0x80000 2 (v.scales.map fun e => (e.1, e.2.toNat)) ++ tableImage 0x9000 4 (v.tshp.map fun e => (e.1, e.2.toNat)) ++
    [(0x9080, toBytes 1 v.accV.toNat ++ toBytes 1 v.accD.toNat ++ toBytes 1 v.accM.toNat ++ toBytes 1 0 ++
      toBytes 4 v.vn.toNat ++ toBytes 2 v.scbase.toNat ++ toBytes 4 v.cbook.toNat ++ toBytes 4 v.sctx ++
      toBytes 8 v.key.toNat ++ toBytes 8 v.ctr.toNat)] ++
    tableImage 0x90C0 4 (v.vs.map fun e => (e.1, e.2.toNat)) ++ tableImage 0x90E0 2 (v.vo.map fun e => (e.1, e.2.toNat))

/-- The rest of the core-wide state in a slot: crossbar, stream registers, replies, engines (R105 step 4, R133), and the
copy commands with their numbers (step 5). -/
def engineImage (v : Core) : Image :=
  (v.counters.map fun e => (0xA000 + 8 * e.1, counterBytes e.2)) ++ tableImage 0xA200 4 (v.terms.map fun e => (e.1, e.2.toNat)) ++
    tableImage 0xA300 8 (v.gates.map fun e => (e.1, e.2.toNat)) ++
    (v.dregs.map fun e => (0xB000 + 0x200 * e.1, e.2.fifo.flatMap fun w => toBytes 8 w.toNat)) ++
    (v.replies.zipIdx.map fun e => (0xC000 + 16 * e.2, replyBytes e.1)) ++
    (v.engines.flatMap fun e => tableImage (0xE000 + 0x800 * e.1) 8 (e.2.regs.map fun r => (r.1 % 256, r.2.toNat))) ++
    (v.copies.zipIdx.map fun e => (0x90000 + 128 * e.2, toBytes 8 e.1.number ++ toBytes 8 e.1.done ++ e.1.image))

/-- What the memory of a slot holds of a core. -/
def coreImage (v : Core) : Image :=
  (0, (List.range 8).flatMap (stopRecord v)) :: v.streams.flatMap streamImage ++ tileImage v ++ engineImage v

/-- Put a core's state into the slot taken last for it, and its image into that slot's memory, whose layout no rule
states; the slot's own copy is what a resume reloads (assumption 47, DESIGN CHOICE). -/
def fillSlot (s : State) (ctx i core : Nat) (v : Core) : State :=
  match lastSlot (ctxOf s ctx) i core with
  | none => s
  | some l =>
    let a := slotKey s ctx l.number + 127 * 2 ^ 20
    let mem := (coreImage v).foldl (fun m e => writeBytes m (a + e.1) e.2) (clearRange s.mem a (2 ^ 20))
    let clear := s.poison.filter fun g => !(a ≤ 64 * g && 64 * g < a + 2 ^ 20)
    onSlots { s with mem := mem, poison := clear } ctx i core fun x =>
      if x.number == l.number then { x with saved := v } else x

/-- Every seal of a signal that has begun reaches HBM. -/
def sealsDone (core : Nat) (s : State) (key : Nat) : State :=
  match find (coreOf s core).signals key with
  | none => s
  | some g => (openSeals g).foldl (fun s b => sealDone s core key b) s

/-- The SIGSEALs of a core that have begun their seal complete (R331). -/
def settleSeals (s : State) (core : Nat) : State :=
  (List.range 7).foldl (fun s n =>
    match (streamOf (coreOf s core) n).waiting with
    | some (.seal m) => retire (asStream s core n fun s => sealsDone core s (myKey s m)) core n 0 0
    | _ => s) s

/-- Whether `cc` of a core runs, so that a checkpoint or a kill stops it. -/
def stopsRunning (s : State) (core : Nat) : Bool := (streamOf (coreOf s core) 0).status == .running
/-- The stop of a core for a checkpoint or a kill is traced (R168). -/
def traceStop (ctx : Nat) (s : State) (core : Nat) : State :=
  if stopsRunning s core then trace s core 7 0 (0x17 + (ctxOf s ctx).hseq % 2 ^ 32 * 2 ^ 16) else s

/-- Checkpoint one core: its loads return, write-backs whose shadow has ended land, its begun seals complete, NOW is
written back, what the slice owns goes to the slot. -/
def saveCore (ctx i : Nat) (s : State) (core : Nat) : State :=
  let s := settleSeals (settleShadows (returnLoads s core) core) core
  let stopped := stopsRunning s core
  let s := traceStop ctx s core
  let k := coreOf s core
  vacate (fillSlot (if k.sctx == 0 then s else writeDesc s ctx k.sctx) ctx i core (ownState k stopped)) core

/-- Whether a slice that is to stop can: no halt stands on its cores, none of its regions moves, and no stream waits for
Geyser's decision. -/
def stoppable (s : State) (ctx i : Nat) (r : Record) : Bool :=
  (recordCores r).all fun c =>
    let k := coreOf s c
    !k.halted && !(k.regions.any fun g => g.moving && g.ctx == ctx && g.record == some i) && !k.streams.any fun e => match e.2.waiting with
      | some (.geyser _ _) | some (.eqstat _ _ _) => true
      | _ => false

/-- CHECKPOINT_COMPLETE. -/
def execCheckpointComplete (ctx index : Nat) (s : State) : Host.Outcome State Fault Refusal :=
  .next (match recordOf s ctx index with
    | none => s
    | some r =>
      if r.stopping != some true || !stoppable s ctx index r then s
      else
        let s := (recordCores r).foldl (saveCore ctx index) s
        onRecord s ctx index fun v => { v with state := .checkpointed, stopping := none, est := remaining s v })

/-- The FEEDs of a killed slice end with the stream registers they fill. -/
def endFeeds (s : State) (ctx core : Nat) : State :=
  let feeds := (coreOf s core).copies.filter fun c => imageAt c.image 0 1 == 4
  let s := feeds.foldl (fun s c => tlDone s ctx (tlKey 7 core) c.number) s
  onCore s core fun k => { k with copies := k.copies.filter fun c => imageAt c.image 0 1 != 4 }

/-- Mark a slice to be killed; its other copy commands stand. -/
def markKill (s : State) (t : Ticket) : State :=
  onRecord ((recordCores t.record).foldl (fun s c => endFeeds s t.ctx c) s) t.ctx t.index fun r =>
    { r with stopping := some false }

/-- Whether a nest waits for what a slice that issues nothing more cannot bring: room in the reply queue, or an
accumulator that a stopped product holds. -/
def nestStuck (n : Nest) : Bool := n.stall.any fun x => x.1 == 3 || x.1 == 11
/-- Whether the nests of a core have ended, but for those stuck. -/
def nestsOver (k : Core) : Bool := k.engines.all fun e => e.2.nest.all nestStuck

/-- A killed core: its loads return, the numbers that a stuck nest and a stopped `.pulse` have taken are complete, and
the stop and the stalls it ends are traced (R104, R168; assumption 48, DESIGN CHOICE, for the numbers). -/
def killCore (ctx : Nat) (s : State) (core : Nat) : State :=
  let s := returnLoads s core
  let s := (coreOf s core).streams.foldl (fun s e => (failPulse ctx core s e).2) s
  let s := (coreOf s core).engines.foldl (fun s e => match e.2.nest with
    | some n => tlDone s ctx (tlKey (e.1 + 3) core) n.number
    | none => s) s
  vacate (traceStop ctx (endStalls s core) core) core

/-- Kill and requeue a slice whose copies and nests have ended: its private regions go, its batch returns to its queue at
the next Geyser round (R126), and its record is READY as it was submitted. -/
def killSlice (s : State) (t : Ticket) : State :=
  let r := t.record
  let s := (recordCores r).foldl (killCore t.ctx) s
  let s := clearSaved s t.ctx t.index true
  let s := { s with cores := s.cores.map fun (n, k) => (n, releaseRegions k t.ctx t.index) }
  let s := match r.batch with
    | some (w, q, b) => onTower s w fun x => { x with killed := x.killed ++ [(q, b)] }
    | none => s
  onRecord s t.ctx t.index fun v => { v with
    state := .ready, stopping := none, home := none, used := 0, extended := false, est := v.est0, prio := v.prio0 }

/-- Whether a slice marked to be killed can be: the copies and nests that it has issued stand, and end first (R104). -/
def killable (s : State) (r : Record) : Bool :=
  r.stopping == some false && (recordCores r).all fun c =>
    !(coreOf s c).halted && (coreOf s c).copies.isEmpty && nestsOver (coreOf s c)

/-! ### Step 1: ends and fencing -/

/-- Whether a core's part of a slice has ended, its copies with it. -/
def partOver (s : State) (core : Nat) : Bool :=
  let k := coreOf s core
  !k.halted && k.copies.isEmpty && ((streamOf k 0).status == .done || (streamOf k 0).status == .yielded)

/-- A core leaves its slice at its end; its loads return first. -/
def leaveCore (ctx : Nat) (s : State) (core : Nat) : State :=
  vacate (leaveDesc (returnLoads s core) core ctx (coreOf s core).sctx) core

/-- A YIELD without a free slot stalls, as for a full ring. -/
def yieldWaits (s : State) (core : Nat) : State :=
  onStream s core 0 fun st =>
    if st.status == .yielded && st.waiting.isNone then { st with waiting := some (.cause 4), since := (coreOf s core).cycle }
    else st
/-- A YIELD that waited goes on. -/
def yieldGoes (s : State) (core : Nat) : State :=
  let st := streamOf (coreOf s core) 0
  if st.waiting.isNone then s
  else asStream s core 0 fun s => onStream (traceWait s st) core 0 fun st => { st with waiting := none }

/-- End a slice whose every part has ended: by a checkpoint if one yielded, else its record ends. -/
def endSlice (s : State) (t : Ticket) : State :=
  let cs := recordCores t.record
  if t.record.stopping.isSome || !cs.all (partOver s) then s
  else if cs.any fun c => (streamOf (coreOf s c) 0).status == .yielded then
    match markCheckpoint s t with
    | some s => cs.foldl yieldGoes s
    | none => cs.foldl yieldWaits s
  else endRecord (cs.foldl (leaveCore t.ctx) s) t.ctx t.index false

/-- Fence every marked core that runs no slice. -/
def fenceIdle (s : State) : State :=
  (List.range Config.cores).foldl (fun s c =>
    if fenceMarked s c && (coreOf s c).slice.isNone then fenceNow s c else s) s

/-! ### Step 3: placement (R20, R102, R105, R110) -/

/-- Origins a record may be placed at, or the reason it fails. -/
def candidates (s : State) (t : Ticket) : Except Nat (List Nat) :=
  let r := t.record
  let whole := fun o => fitsGrid o r.rows r.cols && (rectangle o r.rows r.cols).all (coreLive s)
  if r.state == .checkpointed then
    let o := r.home.getD 0
    if whole o then .ok [o] else .error 0x72
  else
    let d := descOf s t.ctx r.sctx
    if r.sctx != 0 && d.bound then if whole d.bcore then .ok [d.bcore] else .error 0x75
    else if !placeable s r.rows r.cols then .error 0x75
    else .ok (below Config.cores fun o => fitsGrid o r.rows r.cols)

/-- Whether a core is reserved for another record. -/
def reservedFrom (s : State) (t : Ticket) (core : Nat) : Bool :=
  s.reserved.any fun v => !(v.ctx == t.ctx && v.index == t.index) && (rectangle v.origin v.rows v.cols).contains core
/-- Whether a core takes a new slice: live and not marked for fencing. -/
def takesSlice (s : State) (core : Nat) : Bool := coreLive s core && !fenceMarked s core
/-- Whether a core is free for a record; one whose agents have item records to post is not (R166). -/
def coreFree (s : State) (t : Ticket) (core : Nat) : Bool :=
  takesSlice s core && (coreOf s core).slice.isNone && !anyHeld s core && !reservedFrom s t core

/-- Place a record at an origin; its reservation ends. -/
def placeAt (s : State) (t : Ticket) (o : Nat) : State :=
  let cs := rectangle o t.record.rows t.record.cols
  let s := cs.foldl (fun s c => onCore s c fun k => { k with slice := some ⟨t.ctx, t.index⟩ }) s
  let s := { s with reserved := s.reserved.filter fun v => !(v.ctx == t.ctx && v.index == t.index) }
  onRecord s t.ctx t.index fun r => { r with state := .running, home := some o, placed := true, started := s.mtime }

/-- The records placed in a round, and its newcomer with its candidates. -/
structure Round where
  state : State
  placed : List (Nat × Nat) := []
  newcomer : Option (Ticket × List Nat) := none
  deriving DecidableEq, Repr

/-- The origin a record takes: its reserved rectangle once every core of it is idle, else the first free candidate
(R102, R103), whereupon its reservation ends. The reserved rectangle is taken though it may no longer be a candidate,
its stream context having become bound to another core since. The spec says neither (assumption 47, DESIGN CHOICE). -/
def placeFor (s : State) (t : Ticket) (os : List Nat) : Option Nat :=
  let free := fun o => (rectangle o t.record.rows t.record.cols).all (coreFree s t)
  let own := (s.reserved.find? fun v => v.ctx == t.ctx && v.index == t.index).map (·.origin)
  (own.filter free).or (os.find? free)

/-- Whether Geyser has yet to take back the batch of a killed firing record (R126). -/
def batchOut (s : State) (r : Record) : Bool := r.batch.any fun (w, q, b) => (towerOf s w).killed.contains (q, b)

/-- Consider one record; a killed firing record is placed once its batch has been taken back. -/
def considerRecord (m : Round) (t : Ticket) : Round :=
  match recordOf m.state t.ctx t.index with
  | none => m
  | some r =>
    let t := { t with record := r }
    if batchOut m.state r then m
    else match candidates m.state t with
    | .error reason => { m with state := failRecord m.state t.ctx t.index reason }
    | .ok os =>
      match placeFor m.state t os with
      | some o => { m with state := placeAt m.state t o, placed := m.placed ++ [(t.ctx, t.index)] }
      | none => if m.newcomer.isSome then m else { m with newcomer := some (t, os) }

/-! ### Pre-emption (R103, R104) -/

/-- The records whose slices occupy cores of a rectangle, in ascending order of origin core. -/
def occupants (s : State) (cs : List Nat) : List Ticket :=
  let own := fun (a : List Ticket) (c : Nat) =>
    match (coreOf s c).slice with
    | none => a
    | some l => if a.any fun t => t.ctx == l.ctx && t.index == l.index then a
      else match recordOf s l.ctx l.index with
        | some r => a ++ [⟨l.ctx, l.index, r⟩]
        | none => a
  let all := cs.foldl own []
  (List.range Config.cores).flatMap fun o => all.filter fun t => t.record.home == some o

/-- Whether a slice is an eligible victim. One that is already to be checkpointed or killed, its record still RUNNING,
is none, of which R103 does not speak (assumption 47, DESIGN CHOICE). -/
def eligible (placed : List (Nat × Nat)) (n v : Ticket) : Bool :=
  v.record.state == .running && v.record.stopping.isNone && !placed.contains (v.ctx, v.index) &&
    n.record.limit < v.record.limit && v.record.prio < n.record.prio

/-- The victims of a rectangle that qualifies for N. -/
def victims (s : State) (placed : List (Nat × Nat)) (n : Ticket) (o : Nat) : Option (List Ticket) :=
  let cs := rectangle o n.record.rows n.record.cols
  let vs := occupants s cs
  if cs.all (fun c => takesSlice s c && !reservedFrom s n c) && !vs.isEmpty && vs.all (eligible placed n) then some vs
  else none

/-- The earliest deadline of a list of victims. -/
def earliest : List Ticket → Int
  | [] => 0
  | [t] => t.record.limit
  | t :: ts => min t.record.limit (earliest ts)
/-- Their total PRIO. -/
def totalPrio (ts : List Ticket) : Nat := (ts.map fun t => t.record.prio).sum

/-- The better of two qualifying rectangles: the later earliest deadline, then the lower total PRIO, then the first. -/
def betterRect (a b : Nat × List Ticket) : Nat × List Ticket :=
  if earliest a.2 < earliest b.2 || (earliest a.2 == earliest b.2 && totalPrio b.2 < totalPrio a.2) then b else a
/-- The rectangle to clear. -/
def chooseRect : List (Nat × List Ticket) → Option (Nat × List Ticket)
  | [] => none
  | q :: qs => some (qs.foldl betterRect q)

/-- Spend one token of N's PRIO and one of its context's bucket. -/
def spend (s : State) (n : Ticket) : State :=
  onRecord (onCtx s n.ctx fun c => { c with tokens := c.tokens - 1 }) n.ctx n.index fun r => { r with prio := r.prio - 1 }

/-- The first row of R104 that applies to a victim. -/
def actOn (n : Ticket) (slack : Int) (s : State) (v : Ticket) : State :=
  let drain := onRecord s v.ctx v.index fun r => { r with state := .draining }
  let policy := v.record.policy
  if flag policy 2 || (remaining s v.record : Int) ≤ slack then drain
  else match (if flag policy 1 then markCheckpoint s v else none) with
    | some s => spend s n
    | none => if flag policy 0 then spend (markKill s v) n else drain

/-- Whether N's PRIO and its context's bucket hold a token for each victim. -/
def hasTokens (s : State) (n : Ticket) (k : Nat) : Bool := k ≤ n.record.prio && k ≤ (ctxOf s n.ctx).tokens

/-- Pre-emption for the round's newcomer, which waits where the chosen rectangle takes more tokens than there are. A
newcomer that holds a reservation already pre-empts nothing more, and no other record is the round's newcomer in its
place, of which R103 does not speak (assumption 47, DESIGN CHOICE). -/
def preempt (m : Round) : State :=
  let s := m.state
  match m.newcomer with
  | none => s
  | some (n, os) =>
    if s.reserved.any fun v => v.ctx == n.ctx && v.index == n.index then s
    else match chooseRect (os.filterMap fun o => (victims s m.placed n o).map fun vs => (o, vs)) with
      | none => s
      | some (o, vs) =>
        if !hasTokens s n vs.length then s
        else
        let s := { s with reserved := s.reserved ++ [⟨n.ctx, n.index, o, n.record.rows, n.record.cols⟩] }
        let slack : Int := n.record.limit - s.mtime - n.record.est
        vs.foldl (actOn n slack) s

/-! ### The round (R102, R112) -/

/-- Cores lent to the test engine: idle and not reserved. -/
def idleCores (s : State) : BitVec 128 :=
  BitVec.ofNat 128 ((below Config.cores fun c => coreLive s c && (coreOf s c).slice.isNone &&
    !s.reserved.any fun v => (rectangle v.origin v.rows v.cols).contains c).map fun c => 2 ^ c).sum

/-- One round; a slice placed by the round before has started by now. -/
def round (s : State) : State :=
  let s := (tickets s fun r => r.placed).foldl startSlice s
  let s := (tickets s onCores).foldl endSlice s
  let s := (tickets s (killable s)).foldl killSlice s
  let s := fenceIdle s
  let m := (issueOrder (tickets s unplaced)).foldl considerRecord { state := s }
  let s := preempt m
  { s with lent := idleCores s }

/-- SCHEDULER_ROUND. -/
def execSchedulerRound (s : State) : Host.Outcome State Fault Refusal := .next (round s)

/-! ### Tokens, deadlines, budgets (R104, R106, R108, R158, R164) -/

/-- BUCKET_REFILL: the bucket takes CAP if a multiple of PERIOD has come since it last did, or since TOKCFG was last
written. -/
def execBucketRefill (ctx : Nat) (s : State) : Host.Outcome State Fault Refusal := ctxEvent s ctx (refillBucket s ctx)

/-- SCHSTAT.MISSES counts, saturating. -/
def countMiss (s : State) (ctx : Nat) : State :=
  onCtx s ctx fun c =>
    let v := reg c 0x1878
    setReg c 0x1878 (setField v 32 32 (Nat.min (2 ^ 32 - 1) (field v 32 32 + 1)))

/-- DEADLINE_MISS. -/
def execDeadlineMiss (ctx index : Nat) (s : State) : Host.Outcome State Fault Refusal :=
  .next (match recordOf s ctx index with
    | none => s
    | some r =>
      if r.missed || (s.mtime : Int) ≤ r.limit then s
      else countMiss (onRecord s ctx index fun r => { r with missed := true }) ctx)

/-- BUDGET_EXHAUSTED: not while the slice is halted, when the fault comes first. -/
def execBudgetExhausted (ctx index : Nat) (s : State) : Host.Outcome State Fault Refusal :=
  .next (match recordOf s ctx index with
    | none => s
    | some r =>
      let o := r.home.getD 0
      if !onCores r || r.placed || r.used < budgetOf r || (coreOf s o).halted then s
      else if r.extended then failSlice (countBudget s ctx) ctx index 0x71
      else
        let (info, s) := drawWord s
        takeException s o 0 0x11 info (streamOf (coreOf s o) 0).pc)

/-- HANDLER_ALLOWANCE_EXHAUSTED: the result is as ACTION 1. -/
def execHandlerAllowanceExhausted (ctx : Nat) (s : State) : Host.Outcome State Fault Refusal :=
  ctxEvent s ctx (match (ctxOf s ctx).halt with
    | none => s
    | some h =>
      match (coreOf s h.origin).handler with
      | none => s
      | some v => if v.used < Config.allowance then s else returnFrom s ctx 1 v.refused)

/-! ### Core-store regions (R105, R135) -/

/-- REGION_FIRST_TOUCH, by `cc` of the core's slice: a region is mapped, or CS_FULL faults. -/
def execRegionFirstTouch (core region : Nat) (s : State) : Host.Outcome State Fault Refusal :=
  .next (if regionCount ≤ region || (coreOf s core).slice.isNone then s
    else match touchRegion s core region with
      | some s => s
      | none =>
        let (info, s) := drawWord s
        takeException s core 0 0x92 info (streamOf (coreOf s core) 0).pc)

/-- REGION_TRANSFER_DONE. -/
def execRegionTransferDone (core region : Nat) (s : State) : Host.Outcome State Fault Refusal :=
  .next (onCore s core fun k => { k with regions := k.regions.map fun g =>
    if g.index == region then { g with moving := false } else g })

end Sys2Proof.Machine
end

