-- ==== Sys2Proof/Machine/Geyser.lean ====
section
/-! DEFINITION. The Geyser round of a tower (06 R114-R128, 16 R378-R382). -/

namespace Sys2Proof.Machine

/-! ### Entries (Table 6.1) -/

/-- An entry from its 32 bytes, accepted as number `order`. -/
def entryFrom (im : List Byte) (order : Nat) : Entry :=
  { tick := word (imageAt im 0 8), gate := BitVec.ofNat 32 (imageAt im 8 4), sctx := imageAt im 12 3 % 2 ^ 20
    sig := imageAt im 15 2 % 1024, pclass := field (imageAt im 16 1) 2 2, promo := flag (imageAt im 16 1) 4
    crec := imageAt im 17 3 % 2 ^ 22, arrive := imageAt im 20 4, byp := imageAt im 24 1, ctx := imageAt im 25 1 % 128
    kslot := imageAt im 26 1 % 8, order := order }

/-- The 32 bytes of an entry; one read from poison is FAILED, and DONE by Geyser's own JOIN (R125). -/
def entryBytes (e : Entry) : List Byte :=
  toBytes 8 e.tick.toNat ++ toBytes 4 e.gate.toNat ++ toBytes 3 e.sctx ++
    toBytes 2 (e.sig + 2 ^ 10 * e.pclass + 2 ^ 12 * bit01 e.promo) ++ toBytes 3 e.crec ++ toBytes 4 e.arrive ++
    toBytes 1 e.byp ++ toBytes 1 e.ctx ++ toBytes 1 e.kslot ++ toBytes 1 (if e.bad then 3 else 0) ++ toBytes 4 0

/-- Age of an entry at a tower, in cycles modulo 2^32 (R115). -/
def ageOf (s : State) (t : Nat) (e : Entry) : Nat := ((towerOf s t).cycle + 2 ^ 32 - e.arrive % 2 ^ 32) % 2 ^ 32

/-! ### The configuration (Table 6.2) -/

/-- F. -/
def gqF (g : GQueue) : Nat := imageAt g.config 6 2
/-- T. -/
def gqT (g : GQueue) : Nat := imageAt g.config 8 4
/-- B. -/
def gqB (g : GQueue) : Nat := imageAt g.config 12 2
/-- G. -/
def gqG (g : GQueue) : Nat := imageAt g.config 14 1
/-- NBUF. -/
def gqNbuf (g : GQueue) : Nat := imageAt g.config 15 1
/-- EN. -/
def gqEn (g : GQueue) : Bool := flag (imageAt g.config 2 1) 0
/-- Spill slot `n`. -/
def spillAt (g : GQueue) (n : Nat) : Nat := imageAt g.config 32 6 + 32 * n
/-- Spill capacity in entries. -/
def spillSize (g : GQueue) : Nat := 2 ^ imageAt g.config 38 1

/-- The checks of a block in table order: a refusal, or none. -/
def configCheck (im : List Byte) (ctx : Nat) : Option Nat :=
  let at_ := imageAt im
  let within := fun (v lo hi : Nat) => lo ≤ v && v ≤ hi
  if 4096 ≤ at_ 0 2 || 2 ≤ at_ 2 1 || Config.contexts ≤ at_ 3 1 then some 0x81
  else if at_ 3 1 != ctx && ctx != 0 then some 0x86
  else if within (at_ 6 2) 1 4096 && within (at_ 12 2) 1 4096 && 1 ≤ at_ 14 1 && within (at_ 15 1) 1 64 &&
      at_ 16 6 % 128 == 0 && within (at_ 22 1) 1 8 && within (at_ 23 1) 1 16 && at_ 24 6 % 64 == 0 && at_ 31 1 < 8 &&
      at_ 32 6 % 65536 == 0 && at_ 38 1 ≤ 20 && at_ 39 1 == 0 && at_ 47 1 == 0 && zeroAt im 52 12 then none
  else some 0x81

/-- Whether bytes of two blocks differ. -/
def differs (a b : List Byte) (at_ n : Nat) : Bool := imageAt a at_ n != imageAt b at_ n

/-- What a configured queue refuses while it is in use (R117). -/
def configBusy (g : GQueue) (im : List Byte) : Bool :=
  let d := differs g.config im
  !g.config.isEmpty &&
    ((!g.buffers.isEmpty && (d 12 2 || d 15 1 || d 24 6)) || (!g.spilled.isEmpty && (d 32 6 || d 38 1)) ||
      (!(g.onchip.isEmpty && g.spilled.isEmpty && g.buffers.isEmpty) && d 3 1))

/-- Apply an EQCFG block: its status. -/
def configure (s : State) (t ctx address : Nat) : Nat × State :=
  match (if poisonVirtual s ctx address 64 then none else readVirtual s ctx address 64) with
  | none => (0x81, s)
  | some im =>
    match configCheck im ctx with
    | some code => (code, s)
    | none =>
      let q := imageAt im 0 2
      let g := gqueueOf s t q
      if configBusy g im then (0x82, s)
      else (0x80, onGQueue s t q fun g => { g with config := im, posted := g.posted && !differs g.config im 24 6 })

/-! ### Placing entries (R118, R126) -/

/-- On-chip entries of a tower. -/
def poolUsed (s : State) (t : Nat) : Nat := ((towerOf s t).queues.map fun e => e.2.onchip.length).sum
/-- Whether a queue may take one more entry on chip. -/
def chipRoom (s : State) (t q : Nat) : Bool := (gqueueOf s t q).onchip.length < 512 && poolUsed s t < 32768
/-- Put an entry on chip. -/
def onChip (s : State) (t q : Nat) (e : Entry) : State := onGQueue s t q fun g => { g with onchip := g.onchip ++ [e] }

/-- The lowest free spill slot (assumption 22). -/
def freeSpill (g : GQueue) : Option Nat := firstBelow (spillSize g) fun n => !g.spilled.any fun e => e.slot == n

/-- A spill write failed (R129). -/
def spillFault (s : State) (t q : Nat) : State :=
  postItem s (queueOwner (gqueueOf s t q)) ⟨0x8A, 10, 0x7F, 0, 0, 0, 0, q, 0⟩

/-- Spill an entry as the `pos`-th of the spilled ones: true if it was. -/
def spill (s : State) (t q : Nat) (e : Entry) (pos : Nat) : Bool × State :=
  let g := gqueueOf s t q
  match freeSpill g with
  | none => (false, s)
  | some n =>
    match writeVirtual s (queueOwner g) (spillAt g n) (entryBytes e) with
    | none => (false, spillFault (walkReport s (queueOwner g) 10 1 (spillAt g n) 32) t q)
    | some s => (true, onGQueue s t q fun g => { g with spilled := g.spilled.take pos ++ { e with slot := n } :: g.spilled.drop pos })

/-- Decide a push (R118): its code. -/
def decidePush (s : State) (t : Nat) (c : GeyCmd) : Nat × State :=
  let g := gqueueOf s t c.queue
  if !gqEn g then (0x85, s)
  else if queueOwner g != c.ctx then (0x86, s)
  else
    let w := towerOf s t
    let e := { entryFrom c.entry w.order with arrive := w.cycle % 2 ^ 32, byp := 0, promo := false, ctx := c.ctx }
    let s := onTower s t fun w => { w with order := w.order + 1 }
    if g.spilled.isEmpty && chipRoom s t c.queue then (0x80, onChip s t c.queue e)
    else match spill s t c.queue e g.spilled.length with
      | (true, s) => (0x80, s)
      | (false, s) => (0x84, s)

/-- Move spilled entries on chip in order; one that cannot be read back counts as poisoned (R125). -/
def unspill (t q : Nat) : Nat → State → State
  | 0, s => s
  | fuel + 1, s =>
    let g := gqueueOf s t q
    match g.spilled with
    | [] => s
    | e :: rest =>
      let a := spillAt g e.slot
      let ctx := queueOwner g
      if !chipRoom s t q || virtualWaits s ctx 0 a 32 then s
      else
        let back := match (if poisonVirtual s ctx a 32 then none else readVirtual s ctx a 32) with
          | some im => entryFrom im e.order
          | none => { e with bad := true }
        let s := walkReport s ctx 10 0 a 32
        unspill t q fuel (onChip (onGQueue s t q fun g => { g with spilled := rest }) t q back)

/-! ### Taking entries (R121) -/

/-- Whether an entry is popped before another. -/
def popsBefore (s : State) (t : Nat) (a b : Entry) : Bool :=
  if a.promo != b.promo then a.promo
  else if a.pclass != b.pclass then b.pclass < a.pclass
  else if ageOf s t a != ageOf s t b then ageOf s t b < ageOf s t a
  else a.order ≤ b.order

/-- Insert into a list sorted by an order. -/
def insertBy {α : Type} (before : α → α → Bool) (x : α) : List α → List α
  | [] => [x]
  | y :: ys => if before x y then x :: y :: ys else y :: insertBy before x ys
/-- Sort by an order. -/
def sortBy {α : Type} (before : α → α → Bool) (xs : List α) : List α := xs.foldr (insertBy before) []

/-- The first `n` entries of a queue in pop order. -/
def popped (s : State) (t q n : Nat) : List Entry := (sortBy (popsBefore s t) (gqueueOf s t q).onchip).take n

/-- An entry that a firing of a younger one passes over. -/
def passOver (g : GQueue) (e : Entry) : Entry :=
  let byp := Nat.min 255 (e.byp + 1)
  { e with byp := byp, promo := e.promo || gqG g ≤ byp }

/-- Take popped entries out of a queue; those left that are older than some popped one are passed over. -/
def leaveQueue (s : State) (t q : Nat) (es : List Entry) : State :=
  let last := es.foldl (fun a e => Nat.max a e.order) 0
  onGQueue s t q fun g => { g with onchip :=
    (g.onchip.filter fun e => !es.any fun x => x.order == e.order).map fun e => if e.order < last then passOver g e else e }

/-- A batch: header and entries (Table 6.3). -/
def batchBytes (s : State) (q : Nat) (es : List Entry) (cause buf seq : Nat) : List Byte :=
  toBytes 4 es.length ++ toBytes 2 q ++ toBytes 1 cause ++ toBytes 1 buf ++ toBytes 8 s.mtime ++ toBytes 4 seq ++
    List.replicate 44 0 ++ es.flatMap entryBytes

/-- Geyser's JOIN and report for the poisoned entries of a batch written at an address. -/
def joinPoisoned (s : State) (ctx index unit frame : Nat) (es : List Entry) : State :=
  es.zipIdx.foldl (fun s p =>
    if p.1.bad then takeToken s ctx index unit (batchEntry frame p.2) p.1 true else s) s

/-- Decide a pop: its code and count. -/
def decidePop (s : State) (t : Nat) (c : GeyCmd) : Nat × Nat × State :=
  let g := gqueueOf s t c.queue
  if g.onchip.isEmpty then (0x83, 0, s)
  else
    let es := popped s t c.queue (Nat.min (gqB g) g.onchip.length)
    match writeVirtual s c.ctx c.address (batchBytes s c.queue es 3 0xFF 0) with
    | none => (0x8A, 0, walkReport s c.ctx 10 1 c.address (64 + 32 * es.length))
    | some s => (0x80, es.length, joinPoisoned (leaveQueue s t c.queue es) c.ctx 0 0 c.address es)

/-! ### Commands (R119 steps 2 and 3) -/

/-- A command is decided: its number completes, input 10 pulses, its stream or an item record learns the outcome. -/
def decided (s : State) (t : Nat) (c : GeyCmd) (code count : Nat) : State :=
  let s := reply s t c code count
  pulseAll (tlDone s c.ctx (128 * 10 + t) c.number) c.ctx 10 (List.range Config.cores)

/-- Apply a configuration command. -/
def configCommand (t : Nat) (s : State) (c : GeyCmd) : State :=
  let (code, s) := if c.bad then (0x81, s) else configure s t c.ctx c.address
  decided s t c code 0

/-- Decide a push, fire or pop. -/
def entryCommand (t : Nat) (s : State) (c : GeyCmd) : State :=
  let g := gqueueOf s t c.queue
  if c.bad then decided s t c 0x81 0
  else if c.op == 1 then
    let (code, s) := decidePush s t c
    decided s t c code 0
  else if g.config.isEmpty || queueOwner g != c.ctx then decided s t c 0x86 0
  else if c.op == 3 then
    if g.onchip.isEmpty && g.spilled.isEmpty then decided s t c 0x83 0
    else decided (onGQueue s t c.queue fun g => { g with forced := true }) t c 0x80 0
  else
    let (code, count, s) := decidePop s t c
    decided s t c code count

/-- Whether a command waits for the host's translation, a link or the swap engine: EQCFG for its block, a push that
spills for its slot, a pop for its buffer. -/
def commandWaits (s : State) (t : Nat) (c : GeyCmd) : Bool :=
  let g := gqueueOf s t c.queue
  if c.bad then false
  else match c.op with
    | 2 => virtualWaits s c.ctx 0 c.address 64
    | 1 => gqEn g && queueOwner g == c.ctx && !(g.spilled.isEmpty && chipRoom s t c.queue) &&
        (freeSpill g).any fun n => virtualWaits s c.ctx 1 (spillAt g n) 32
    | 4 => !g.config.isEmpty && queueOwner g == c.ctx && !g.onchip.isEmpty &&
        virtualWaits s c.ctx 1 c.address (64 + 32 * Nat.min (gqB g) g.onchip.length)
    | _ => false

/-- Carry out commands in order, until one waits; those left stay in the tower's queue. -/
def runCommands (t : Nat) (f : Nat → State → GeyCmd → State) : State → List GeyCmd → State
  | s, [] => s
  | s, c :: cs =>
    if commandWaits s t c then onTower s t fun w => { w with commands := w.commands ++ c :: cs }
    else runCommands t f (f t s c) cs

/-! ### Killed batches (R126, step 1) -/

/-- How many spilled entries are at least as old as an entry. -/
def olderSpilled (s : State) (t q : Nat) (e : Entry) : Nat :=
  ((gqueueOf s t q).spilled.takeWhile fun x => ageOf s t e ≤ ageOf s t x).length

/-- An entry returns to its queue: on chip, else to the spill area in order of age, else on chip beyond the limit. -/
def returnEntry (s : State) (t q : Nat) (e : Entry) : State :=
  if chipRoom s t q then onChip s t q e
  else match spill s t q e (olderSpilled s t q e) with
    | (true, s) => s
    | (false, s) => onChip s t q e

/-- One entry of a killed batch: DONE, poisoned, or returned. -/
def returnToken (t q : Nat) (ctx index unit frame : Nat) (s : State) (p : Entry × Nat) : State :=
  let a := batchEntry frame p.2
  if p.1.taken then s
  else match readToken s ctx a with
    | none => takeToken s ctx index unit a p.1 true
    | some true => s
    | some false =>
      let e := match readVirtual s ctx a 32 with
        | some im => entryFrom im p.1.order
        | none => p.1
      returnEntry s t q e

/-- Bytes of a batch buffer. -/
def bufferBytes (g : GQueue) : Nat := 64 + 32 * gqB g

/-- Take a killed batch back; its COUNT becomes 0. One whose buffer waits for a translation is taken back at a later
round. -/
def returnBatch (t : Nat) (s : State) (p : Nat × Nat) : State :=
  let g := gqueueOf s t p.1
  match find g.buffers p.2 with
  | none => s
  | some index =>
    let ctx := queueOwner g
    let frame := bufferAt g p.2
    if virtualWaits s ctx 1 frame (bufferBytes g) then onTower s t fun w => { w with killed := w.killed ++ [p] }
    else
    let unit := ((recordOf s ctx index).map (·.unit)).getD 0
    let s := (look [] g.batches p.2).zipIdx.foldl (returnToken t p.1 ctx index unit frame) s
    let s := onGQueue s t p.1 fun g => { g with batches := put g.batches p.2 [] }
    (writeVirtual s ctx frame (toBytes 4 0)).getD s

/-! ### Firing (R119-R121, step 5) -/

/-- Entries of a queue, on chip and spilled. -/
def allEntries (g : GQueue) : List Entry := g.onchip ++ g.spilled
/-- Age of the oldest entry. -/
def oldestAge (s : State) (t : Nat) (g : GQueue) : Nat := (allEntries g).foldl (fun a e => Nat.max a (ageOf s t e)) 0

/-- A ready queue: cause 0, 1 or 2, its rank within the cause, and its number. -/
structure Ready where
  cause : Nat
  rank : Nat
  queue : Nat
  deriving DecidableEq, Repr

/-- Why a queue is ready, by its first rank (R119, R120). -/
def readyOf (s : State) (t q : Nat) (g : GQueue) : Option Ready :=
  let n := (allEntries g).length
  if n == 0 then none
  else if g.forced then some ⟨0, 0, q⟩
  else if gqT g != 0 && gqT g ≤ oldestAge s t g then some ⟨1, oldestAge s t g, q⟩
  else if gqF g ≤ n then some ⟨2, n, q⟩
  else none

/-- The order of firing. -/
def firesBefore (a b : Ready) : Bool :=
  a.cause < b.cause || (a.cause == b.cause && (b.rank < a.rank || (a.rank == b.rank && a.queue ≤ b.queue)))

/-- The deadline of a firing: DREL after it, or DSLACK. -/
def firingLimit (s : State) (g : GQueue) : Nat :=
  let drel := imageAt g.config 48 4
  s.mtime + (if drel == 0 then reg (ctxOf s (queueOwner g)) 0x1828 else drel)

/-- The record of a firing (Table 6.4). -/
def firingRecord (s : State) (t q b : Nat) (g : GQueue) : Record :=
  let c := g.config
  { code := imageAt c 16 6, frame := bufferAt g b, join := 0, rows := imageAt c 22 1, cols := imageAt c 23 1
    deadline := firingLimit s g % 2 ^ 40
    est := imageAt c 44 3, budget := imageAt c 40 4, prio := imageAt c 30 1, policy := imageAt c 31 1
    sctx := 0, state := .waiting, limit := 0, ranges := 0, submit := 0
    unit := g.firing % 4096 * 4096 + q, batch := some (t, q, b) }

/-- A batch buffer that cannot be written is reported once per queue (R129). -/
def bufferFault (s : State) (t q : Nat) : State :=
  if (gqueueOf s t q).posted then s else onGQueue (spillFault s t q) t q fun g => { g with posted := true }

/-- The firing of a queue into buffer `b`. -/
def fireInto (s : State) (t : Nat) (r : Ready) (b : Nat) : Bool × State :=
  let g := gqueueOf s t r.queue
  let ctx := queueOwner g
  let es := popped s t r.queue (Nat.min (gqB g) g.onchip.length)
  match writeVirtual s ctx (bufferAt g b) (batchBytes s r.queue es r.cause b (g.firing % 2 ^ 32)) with
  | none => (false, bufferFault (walkReport s ctx 10 1 (bufferAt g b) (64 + 32 * es.length)) t r.queue)
  | some s =>
    match accept s ctx (firingRecord s t r.queue b g) (some (firingLimit s g)) with
    | (.at i, s) =>
      let s := onGQueue (leaveQueue s t r.queue es) t r.queue fun g => { g with
        forced := false, firing := g.firing + 1, buffers := put g.buffers b i
        batches := put g.batches b (es.map fun e => { e with slot := 0 }) }
      (true, joinPoisoned s ctx i (firingRecord s t r.queue b g).unit (bufferAt g b) es)
    | (_, s) => (false, s)

/-- Fire a ready queue, or skip it (R120). -/
def fireQueue (s : State) (t : Nat) (r : Ready) : Bool × State :=
  let g := gqueueOf s t r.queue
  match firstBelow (gqNbuf g) fun b => (find g.buffers b).isNone with
  | none => (false, s)
  | some b =>
    if g.onchip.isEmpty || !storeFree s (queueOwner g) || virtualWaits s (queueOwner g) 1 (bufferAt g b) (bufferBytes g) then
      (false, s)
    else fireInto s t r b

/-- Fire ready queues in order, at most `n` of them. -/
def fireAll (t : Nat) : Nat → State → List Ready → State
  | _, s, [] => s
  | n, s, r :: rest =>
    if n == 0 then s
    else
      let (done, s) := fireQueue s t r
      fireAll t (if done then n - 1 else n) s rest

/-! ### Status words (R128, R381) -/

/-- The queue status word of Table 6.5. -/
def queueStatus (s : State) (t q : Nat) : Word :=
  let g := gqueueOf s t q
  word (bit01 (gqEn g) * 2 ^ 63 + bit01 g.forced * 2 ^ 62 + g.buffers.length % 128 * 2 ^ 55 +
    Nat.min 1023 g.onchip.length * 2 ^ 45 + g.spilled.length % 2 ^ 21 * 2 ^ 24 +
    Nat.min (2 ^ 24 - 1) (oldestAge s t g / 256))

/-- Answer a stream that waits for a queue's status at this tower. -/
def answerStatus (t : Nat) (s : State) (core : Nat) : State :=
  match (me { s with curCore := core, curStream := 0 }).waiting with
  | some (.eqstat tower q dst) =>
    if tower != t then s
    else
      let g := gqueueOf s t q
      let ctx := coreCtx s core
      retire s core 0 dst (if g.config.isEmpty || (ctx != 0 && queueOwner g != ctx) then 0 else queueStatus s t q)
  | _ => s

/-! ### The round -/

/-- One round of a tower. Where the pool has no room for every spilled entry, those of the queue of the lowest number go
on chip first, of which the spec says nothing (assumption 22, DESIGN CHOICE). -/
def geyserRound (s : State) (t : Nat) : State :=
  let w := towerOf s t
  let s := onTower s t fun w => { w with killed := [], commands := [] }
  let s := w.killed.foldl (returnBatch t) s
  let s := runCommands t configCommand s (w.commands.filter fun c => c.op == 2)
  let s := runCommands t entryCommand s (w.commands.filter fun c => c.op != 2)
  let s := (towerOf s t).queues.foldl (fun s e => unspill t e.1 (e.2.spilled.length) s) s
  let ready := (towerOf s t).queues.filterMap fun e => readyOf s t e.1 e.2
  let s := fireAll t 4 s (sortBy firesBefore ready)
  (List.range Config.cores).foldl (answerStatus t) s

/-- GEYSER_ROUND. -/
def execGeyserRound (tower : Nat) (s : State) : Host.Outcome State Fault Refusal :=
  .next (if tower < Config.towers then geyserRound s tower else s)

end Sys2Proof.Machine
end

