-- ==== Sys2Proof/Machine/Copies.lean ====
section
/-! DEFINITION. The copy engine of a core (07 R138-R141, R161): commands start in queue order, move their bytes piece by
piece, and complete. Its accesses are those of source 7, whose stop record is the eighth (Table 8.4). -/

namespace Sys2Proof.Machine

/-! ### The command (Table 7.3) -/

/-- OP. -/
def cpOp (im : List Byte) : Nat := imageAt im 0 1
/-- Bit `n` of byte 1: SRCSP, DSTSP, ORDER, SKS, SKD, PULSE. -/
def cpFlag (im : List Byte) (n : Nat) : Bool := flag (imageAt im 1 1) n
/-- W in bits. -/
def cpBits (im : List Byte) : Nat := 4 * 2 ^ (imageAt im 2 1 % 8)
/-- DSEL. -/
def cpDsel (im : List Byte) : Nat := field (imageAt im 2 1) 3 3
/-- LEN. -/
def cpLen (im : List Byte) : Nat := imageAt im 4 4
/-- ROWS. -/
def cpRows (im : List Byte) : Nat := imageAt im 8 1
/-- COLS. -/
def cpCols (im : List Byte) : Nat := imageAt im 9 1
/-- SRC. -/
def cpSrc (im : List Byte) : Nat := imageAt im 16 8
/-- DST. -/
def cpDst (im : List Byte) : Nat := imageAt im 24 8
/-- Whether the source is in core store. -/
def cpSrcCs (im : List Byte) : Bool := cpFlag im 0
/-- Whether the destination is. -/
def cpDstCs (im : List Byte) : Bool := cpFlag im 1

/-- One side of a TILE: where its tile lies, its shape there, its pitch, and whether it is skewed. -/
structure Side where
  cs : Bool
  base : Nat
  rows : Nat
  cols : Nat
  pitch : Nat
  skewed : Bool
  deriving DecidableEq, Repr

/-- A side with its packed pitch for a PITCH of 0. -/
def sideOf (im : List Byte) (cs : Bool) (base rows cols : Nat) (skewed : Bool) : Side :=
  let p := imageAt im 10 4
  ⟨cs, base, rows, cols, if p == 0 then (cols * cpBits im + 7) / 8 else p, skewed⟩
/-- The source side. -/
def srcSide (im : List Byte) : Side := sideOf im (cpSrcCs im) (cpSrc im) (cpRows im) (cpCols im) (cpFlag im 3)
/-- The destination side: transposed in column order. -/
def dstSide (im : List Byte) : Side :=
  if cpFlag im 2 then sideOf im (cpDstCs im) (cpDst im) (cpCols im) (cpRows im) (cpFlag im 4)
  else sideOf im (cpDstCs im) (cpDst im) (cpRows im) (cpCols im) (cpFlag im 4)
/-- Bytes from a side's base to its end. -/
def sideBytes (w : Nat) (d : Side) : Nat :=
  if d.skewed then 4096 * Nat.max 1 (w / 8) else (d.rows - 1) * d.pitch + (d.cols * w + 7) / 8

/-- The ranges a command reads, then those it writes: each with whether it is in core store. -/
def cpReads (im : List Byte) : List (Bool × Nat × Nat) :=
  match cpOp im with
  | 1 | 4 => [(cpSrcCs im, cpSrc im, cpLen im)]
  | 2 => [(cpSrcCs im, cpSrc im, sideBytes (cpBits im) (srcSide im))]
  | _ => []
/-- The ranges it writes. -/
def cpWrites (im : List Byte) : List (Bool × Nat × Nat) :=
  match cpOp im with
  | 1 | 3 => [(cpDstCs im, cpDst im, cpLen im)]
  | 2 => [(cpDstCs im, cpDst im, sideBytes (cpBits im) (dstSide im))]
  | _ => []

/-- A range outside the mapped core store (R134) or, DEDUCED (assumption 23), outside the 56-bit device virtual space. A
range of LEN 0 is outside of neither, wherever it begins: it completes at once with OK (Table 7.3). -/
def outside (p : Bool × Nat × Nat) : Bool := p.2.2 != 0 && (if p.1 then Config.csTop else 2 ^ 56) < p.2.1 + p.2.2
/-- A skewed side that is misaligned or not in core store. -/
def badSkew (d : Side) : Bool := d.skewed && (!d.cs || d.base % 4096 != 0)

/-- The checks of R139. -/
def copyBad (im : List Byte) : Bool :=
  !(1 ≤ cpOp im && cpOp im ≤ 4) || 2 ^ 6 ≤ imageAt im 1 1 || 2 ^ 6 ≤ imageAt im 2 1 || !zeroAt im 3 1 ||
    !zeroAt im 14 2 || !zeroAt im 40 24 || ((cpOp im == 2 || cpOp im == 4) && 4 < imageAt im 2 1 % 8) ||
    (cpOp im == 2 && !(1 ≤ cpRows im && cpRows im ≤ 64 && 1 ≤ cpCols im && cpCols im ≤ 64)) ||
    (cpOp im == 2 && (badSkew (srcSide im) || badSkew (dstSide im))) || (cpReads im ++ cpWrites im).any outside

/-! ### Order (R140) -/

/-- The core-store ranges of a list. -/
def csRanges (l : List (Bool × Nat × Nat)) : List (Nat × Nat) := (l.filter (·.1)).map (·.2)
/-- Whether a later command overlaps an earlier one in core store, by the three kinds of R100. -/
def copyMeets (later earlier : List Byte) : Bool :=
  !copyBad earlier && conflicts (csRanges (cpReads later)) (csRanges (cpWrites later)) (csRanges (cpReads earlier))
    (csRanges (cpWrites earlier))

/-- The commands of a queue before number `n`. -/
def copiesBefore (k : Core) (n : Nat) : List CopyCmd := k.copies.takeWhile fun c => c.number != n
/-- Whether a command has started, or may: every earlier one has, fewer than four run, and none of those overlaps it. -/
def mayStart (k : Core) (c : CopyCmd) : Bool :=
  c.started || ((copiesBefore k c.number).all (·.started) && (k.copies.filter (·.started)).length < 4 &&
    !(copiesBefore k c.number).any fun e => copyMeets c.image e.image)

/-! ### Moving bytes -/

/-- The effective address of an offset or a device virtual address. -/
def sideEa (cs : Bool) (a : Nat) : Word := if cs then csAddress a else word a

/-- Read bytes: with whether they hold poison. -/
def cpRead (s : State) (cs : Bool) (a n : Nat) : Act (List Byte × Bool × State) := do
  let (ps, s) ← places s 6 (sideEa cs a) n
  return (readPieces s ps, poisonPieces s ps, s)

/-- How far a command came. -/
structure Progress where
  state : State
  done : Nat
  poison : Bool
  stop : Option Trap := none
  deriving DecidableEq, Repr

/-- Bytes to the next page or region boundary. -/
def toEdge (cs : Bool) (a : Nat) : Nat := if cs then 2 ^ 20 - a % 2 ^ 20 else 65536 - a % 65536

/-- The bytes of a FILL from a byte count on. -/
def fillBytes (im : List Byte) (at_ n : Nat) : List Byte :=
  (List.range n).map fun i => im.getD (32 + (at_ + i) % 8) 0

/-- One piece of a COPY or FILL. -/
def copyPiece (s : State) (im : List Byte) (done n : Nat) : Act (Bool × State) := do
  let (bs, bad, s) ← if cpOp im == 3 then .ok (fillBytes im done n, false, s) else cpRead s (cpSrcCs im) (cpSrc im + done) n
  let (ps, s) ← places s 7 (sideEa (cpDstCs im) (cpDst im + done)) n
  return (bad, cleanHead (writePieces s ps bs) ps (cpDst im + done) n (cpDst im))

/-- COPY and FILL: pieces that cross no page or region, each translated as it is reached (R87). -/
def copyBytes (im : List Byte) : Nat → Progress → Progress
  | 0, p => p
  | fuel + 1, p =>
    let left := cpLen im - p.done
    if left == 0 then p
    else
      let e := toEdge (cpDstCs im) (cpDst im + p.done)
      let n := Nat.min left (if cpOp im == 3 then e else Nat.min e (toEdge (cpSrcCs im) (cpSrc im + p.done)))
      match copyPiece p.state im p.done n with
      | .error t => { p with stop := some t }
      | .ok (bad, s) => copyBytes im fuel ⟨s, p.done + n, p.poison || bad, none⟩

/-- The cell of element (i, j) of a side (R137). -/
def sideCell (w : Nat) (d : Side) (i j : Nat) : Cell :=
  if d.skewed then skewedCell (sideEa d.cs d.base) w i j else linearCell (sideEa d.cs d.base) d.pitch w i j

/-- The elements of the source tile in row order: values, and whether one was poisoned. -/
def readTile (s : State) (w : Nat) (d : Side) : List (Nat × Nat) → Act (List Nat × Bool × State)
  | [] => .ok ([], false, s)
  | (i, j) :: rest => do
    let (v, bad, s) ← readCell s 6 w (sideCell w d i j)
    let (vs, b, s) ← readTile s w d rest
    return (v :: vs, !bad.isEmpty || b, s)

/-- The cell of element (i, j) of the source tile on the destination side, in column order transposed. -/
def destCell (w : Nat) (d : Side) (col : Bool) (c : Nat × Nat) : Cell :=
  if col then sideCell w d c.2 c.1 else sideCell w d c.1 c.2

/-- Write the elements of the destination tile, one after another. -/
def writeTileEach (s : State) (w : Nat) (d : Side) (col : Bool) : List ((Nat × Nat) × Nat) → Act State
  | [] => .ok s
  | (c, v) :: rest => do
    let s ← writeCell s 7 w (destCell w d col c) v
    writeTileEach s w d col rest

/-- Write the elements of the destination tile. -/
def writeTile (s : State) (w : Nat) (d : Side) (col : Bool) (es : List ((Nat × Nat) × Nat)) : Act State :=
  (writeTileEach s w d col es).map fun s => cleanCells s 7 w (es.map fun e => destCell w d col e.1)

/-- TILE: one step. -/
def copyTile (im : List Byte) (p : Progress) : Progress :=
  let w := cpBits im
  let cells := cellsOf (cpRows im) (cpCols im)
  let run : Act (Bool × State) := do
    let (vs, bad, s) ← readTile p.state w (srcSide im) cells
    let s ← writeTile s w (dstSide im) (cpFlag im 2) (cells.zip vs)
    return (bad, s)
  match run with
  | .error t => { p with stop := some t }
  | .ok (bad, s) => ⟨s, (cells.length * w + 7) / 8, p.poison || bad, none⟩

/-- Elements of a FEED, the last one with what bytes remain. -/
def feedCount (im : List Byte) : Nat := (8 * cpLen im + cpBits im - 1) / cpBits im

/-- Element `i` of a FEED: its value and whether it was poisoned. -/
def feedElement (s : State) (im : List Byte) (i : Nat) : Act (Nat × Bool × State) := do
  let w := cpBits im
  let at_ := i * w / 8
  let (bs, bad, s) ← cpRead s (cpSrcCs im) (cpSrc im + at_) (Nat.min (Nat.max 1 (w / 8)) (cpLen im - at_))
  let v := fromBytes bs
  return (if w == 4 then field v (i * 4 % 8) 4 else v, bad, s)

/-- A stream register with one element more. -/
def pushElement (k : Core) (d v : Nat) : Core :=
  { k with dregs := adjust {} k.dregs d fun r => { r with fifo := r.fifo ++ [word v] } }

/-- FEED: elements while the FIFO has room; `done` counts elements. -/
def feedElements (core : Nat) (im : List Byte) : Nat → Progress → Progress
  | 0, p => p
  | fuel + 1, p =>
    if feedCount im ≤ p.done then p
    else if 64 ≤ (look {} (coreOf p.state core).dregs (cpDsel im)).fifo.length then { p with stop := some (.wait (.cause 1)) }
    else match feedElement p.state im p.done with
      | .error t => { p with stop := some t }
      | .ok (v, bad, s) =>
        feedElements core im fuel ⟨onCore s core fun k => pushElement k (cpDsel im) v, p.done + 1, p.poison || bad, none⟩

/-! ### Running -/

/-- The command of a number in a core's queue. -/
def copyOf (s : State) (core number : Nat) : Option CopyCmd := (coreOf s core).copies.find? fun c => c.number == number
/-- Change it. -/
def onCopy (s : State) (core number : Nat) (f : CopyCmd → CopyCmd) : State :=
  onCore s core fun k => { k with copies := k.copies.map fun c => if c.number == number then f c else c }

/-- Whether all of a command's work is done. -/
def copyOver (im : List Byte) (done : Nat) : Bool :=
  match cpOp im with
  | 2 => 0 < done
  | 4 => feedCount im ≤ done
  | _ => cpLen im ≤ done

/-- The STALL cause of what keeps a command: none for what stops it. -/
def copyCause (s : State) (core : Nat) : Trap → Option Nat
  | .walk va kind => some (waitCause (missWait s core (coreCtx s core) va kind))
  | .ask _ _ => some 2
  | .claim _ => some 7
  | .wait w => some (waitCause w)
  | .unready => some 9
  | .page _ _ _ _ | .event _ _ | .signal _ _ _ => none

/-- A command of the copy engine stands in a stall of a cause, or in none; one that ends is traced (R168). -/
def copyStall (s : State) (core : Nat) (c : CopyCmd) (cause : Option Nat) : State :=
  let now := (coreOf s core).cycle
  if c.stall.map (·.1) == cause then s
  else
    let s := match c.stall with
      | some (n, t) => trace s core 3 7 ((now - t) % 2 ^ 32 + n * 2 ^ 32)
      | none => s
    onCopy s core c.number fun c => { c with stall := cause.map fun n => (n, now) }

/-- A command stops at a trap: a translation fault is a copy's, CS_FULL the copy engine's; what waits is tried again. -/
def copyTrap (s : State) (core : Nat) : Trap → State
  | .page va kind r l => takePage (joinGroup s core va kind r) core 7 7 va kind r l 0
  | .event r i =>
    let (w, s) := drawWord s
    takeException s core 7 r (i.getD w) 0
  | .signal r n lag =>
    let (w, s) := drawWord s
    takeException s core 7 r (signalInfo n lag w) 0
  | .walk va kind => joinWalk s core 7 (coreCtx s core) va kind
  | .ask va kind => askHost s core 7 va kind
  | .claim i => (touchRegion s core i).getD s
  | .wait _ | .unready => s

/-- The bits of its data that a command has moved. -/
def copiedBits (im : List Byte) (done : Nat) : Nat := if cpOp im == 4 then done * cpBits im else 8 * done

/-- The leaf of the page that a side of a command which goes on stands within: it holds the last byte moved and the
next. -/
def sideLeaf (s : State) (core : Nat) (im : List Byte) (done kind : Nat) (p : Bool × Nat × Nat) : Option TlbEntry :=
  let n := copiedBits im done
  let ctx := coreCtx s core
  let last := p.2.1 + (n - 1) / 8
  if p.1 || n == 0 then none
  else match coreLeaf s core ctx kind last with
    | some (.leaf level e) =>
      let t : TlbEntry := ⟨ctx, last / pageBytes level * pageBytes level, pageBytes level, e⟩
      if p.2.1 + n / 8 < t.base + t.size then some t else none
    | _ => none

/-- The leaves a command keeps while it stands within pages: it sees each of them under one translation (R87, R235). -/
def heldLeaves (s : State) (core : Nat) (im : List Byte) (done : Nat) : List TlbEntry :=
  if copyOver im done || cpOp im == 2 then []
  else (cpReads im).filterMap (sideLeaf s core im done 6) ++ (cpWrites im).filterMap (sideLeaf s core im done 7)

/-- Advance a command by `f`: it has started, its progress is kept, and it has a status once its work is over. It uses
the leaves it keeps, and what its walks returned is used up, unless it still waits. -/
def advanceCopy (s : State) (core : Nat) (c : CopyCmd) (f : Progress → Progress) : State :=
  asStream s core 7 fun s =>
    let p := f ⟨onCore s core fun k => { k with copyLeaves := c.held ++ c.pinned }, c.done, c.poison, none⟩
    let held := heldLeaves p.state core c.image p.done
    let t := onCopy p.state core c.number fun c => { c with
      started := true, done := p.done, poison := p.poison, held := held
      status := if copyOver c.image p.done then some (if p.poison then 0xA2 else 0) else none }
    let cause := p.stop.bind (copyCause t core)
    let t := copyStall (if cause.isSome then t else onCore t core fun k => dropWalked k 7) core c cause
    let t := match p.stop with
      | none => t
      | some e => copyTrap t core e
    onCore t core fun k => { k with copyLeaves := [] }

/-- A command of an OP that has started or may start, on a core that is not halted. -/
def copyRun (core number op : Nat) (s : State) (f : List Byte → Progress → Progress) : Host.Outcome State Fault Refusal :=
  .next (match copyOf s core number with
    | none => s
    | some c =>
      let k := coreOf s core
      if cpOp c.image != op || copyBad c.image || c.status.isSome || k.halted || k.slice.isNone || !mayStart k c then s
      else advanceCopy s core c (f c.image))

/-- COPY_CMD. -/
def execCopyCmd (core number : Nat) (s : State) : Host.Outcome State Fault Refusal :=
  copyRun core number 1 s fun im => copyBytes im (cpLen im / 32768 + 3)
/-- TILE_CMD. -/
def execTileCmd (core number : Nat) (s : State) : Host.Outcome State Fault Refusal := copyRun core number 2 s copyTile
/-- FILL_CMD. -/
def execFillCmd (core number : Nat) (s : State) : Host.Outcome State Fault Refusal :=
  copyRun core number 3 s fun im => copyBytes im (cpLen im / 32768 + 3)

/-- Whether a FEED is the oldest bound to its stream register. -/
def feedFirst (s : State) (core number : Nat) (im : List Byte) : Bool :=
  (look {} (coreOf s core).dregs (cpDsel im)).feeds.head? == some number

/-- FEED_CMD: fills its stream register behind the elements of earlier FEEDs (R141). -/
def execFeedCmd (core number : Nat) (s : State) : Host.Outcome State Fault Refusal :=
  copyRun core number 4 s fun im p =>
    if feedFirst p.state core number im then feedElements core im 64 p else { p with stop := some (.wait (.cause 1)) }

/-- The item record of a command that failed (R140). -/
def copyItem (s : State) (core : Nat) (c : CopyCmd) (status : Nat) : State :=
  if status == 0 then s
  else postItem s c.ctx { coreItem s core 7 (if status == 0xA2 then 0x60 else status) (cpDst c.image) 0 with
    tlsel := 7, tlnum := c.number }

/-- A FEED that has ended no longer binds its stream register. -/
def unbindFeed (k : Core) (c : CopyCmd) : Core :=
  if cpOp c.image == 4 then
    { k with dregs := adjust {} k.dregs (cpDsel c.image) fun d => { d with feeds := d.feeds.filter (· != c.number) } }
  else k

/-- A command leaves the queue with a status. -/
def copyEnd (s : State) (core : Nat) (c : CopyCmd) (status : Nat) : State :=
  let s := onCore s core fun k =>
    unbindFeed { k with copies := k.copies.filter fun x => !(x.ctx == c.ctx && x.number == c.number) } c
  let s := tlDone (copyItem s core c status) c.ctx (tlKey 7 core) c.number
  if cpFlag c.image 5 then pulse s core 7 else s

/-- The status a command is to complete with: that of its work, or of its failing checks once it is at the head (R139).
-/
def copyStatus (k : Core) (c : CopyCmd) : Option Nat :=
  c.status.or (if copyBad c.image && (copiesBefore k c.number).all (·.started) && !k.halted then some 0xA1 else none)

/-- COPY_CMD_COMPLETE; an item record for which the device has no room stalls the engine (R166). -/
def execCopyCmdComplete (core number : Nat) (s : State) : Host.Outcome State Fault Refusal :=
  .next (match copyOf s core number with
    | none => s
    | some c => match copyStatus (coreOf s core) c with
      | none => s
      | some code =>
        let t := copyEnd (copyStall s core c none) core c code
        if itemsOver s t then copyStall s core c (some 4) else t)

end Sys2Proof.Machine
end

