-- ==== Sys2Proof/Machine/Grammar.lean ====
section
/-! DEFINITION. The grammar engine of a tower (07 R155, 16 R372, R374). -/

namespace Sys2Proof.Machine

/-- State 0xFFFFFFFF. -/
def deadState : BitVec 32 := 0xFFFFFFFF
/-- A slot's state and DEAD flag; after reset DEAD with the flag set. -/
def slotOf (s : State) (t slot : Nat) : BitVec 32 × Bool := look (deadState, true) (towerOf s t).slots slot
/-- Set a slot. -/
def setSlot (s : State) (t slot : Nat) (v : BitVec 32) (dead : Bool) : State :=
  onTower s t fun w => { w with slots := put w.slots slot (v, dead) }

/-! ### Descriptors -/

/-- A read by the engine: none where it does not translate or holds poison. -/
def gramRead (s : State) (ctx a n : Nat) : Option (List Byte) :=
  if n == 0 then some [] else if poisonVirtual s ctx a n then none else readVirtual s ctx a n

/-- Bytes of a tower's mask cache (R155). -/
def maskCacheSize : Nat := 2 ^ 22
/-- Bytes that cached run lists take. -/
def maskBytesHeld (l : List MaskRuns) : Nat := (l.map fun m => m.runs.length).sum
/-- A run list that has been read enters the mask cache; which of all it holds stay is open (R155, assumption 2). -/
def cacheMask (s : State) (t : Nat) (m : MaskRuns) : State :=
  let (w, s) := drawWord s
  onTower s t fun k =>
    let l := ((k.masks ++ [m]).zipIdx.filter fun p => flag w.toNat (p.2 % 64)).map (·.1)
    { k with masks := if maskBytesHeld l ≤ maskCacheSize then l else [] }

/-- A run list, through a tower's mask cache. -/
def readRuns (s : State) (t ctx a n : Nat) : Option (List Byte × State) :=
  match (towerOf s t).masks.find? fun m => m.ctx == ctx && m.address == a && m.runs.length == n with
  | some m => some (m.runs, s)
  | none => (gramRead s ctx a n).map fun bs => (bs, if n == 0 then s else cacheMask s t ⟨ctx, a, bs⟩)

/-- The allowed stretches of a run list: runs alternate, the first disallowed. -/
def allowedRuns (allowed : Bool) (at_ : Nat) : List Byte → List (Nat × Nat)
  | lo :: hi :: rest =>
    let n := fromBytes [lo, hi]
    let later := allowedRuns (!allowed) (at_ + n) rest
    if allowed then (at_, n) :: later else later
  | _ => []

/-- Address of a state's descriptor. -/
def descriptorAt (s : State) (ctx : Nat) (v : BitVec 32) : Nat := reg (ctxOf s ctx) 0x1E10 + 32 * v.toNat

/-- A state's descriptor and its allowed stretches, and the tower with its mask cache. -/
def descriptor (s : State) (t ctx : Nat) (v : BitVec 32) : Option (List Byte × List (Nat × Nat) × State) :=
  match gramRead s ctx (descriptorAt s ctx v) 32 with
  | none => none
  | some d => (readRuns s t ctx (imageAt d 0 8) (2 * imageAt d 8 4)).map fun r => (d, allowedRuns false 0 r.1, r.2)

/-- Whether a read of the engine waits for the host's translation, a link or the swap engine. -/
def gramWaits (s : State) (ctx a n : Nat) : Bool := n != 0 && virtualWaits s ctx 0 a n
/-- Whether the reads of a state's descriptor, runs and transitions wait. -/
def descriptorWaits (s : State) (ctx : Nat) (v : BitVec 32) : Bool :=
  gramWaits s ctx (descriptorAt s ctx v) 32 || match gramRead s ctx (descriptorAt s ctx v) 32 with
    | none => false
    | some d => gramWaits s ctx (imageAt d 0 8) (2 * imageAt d 8 4) || gramWaits s ctx (imageAt d 16 8) (8 * imageAt d 24 4)

/-- Whether a token is allowed. -/
def allows (runs : List (Nat × Nat)) (vocab t : Nat) : Bool := t < vocab && runs.any fun r => r.1 ≤ t && t < r.1 + r.2

/-- The next state among transitions: the listed one, else the default. -/
def nextState (token dflt : Nat) : Nat → List Byte → Nat
  | 0, _ => dflt
  | fuel + 1, ts =>
    if imageAt ts 0 4 == token then imageAt ts 4 4 else nextState token dflt fuel (ts.drop 8)

/-- The state a step leads to: none where a descriptor cannot be read. -/
def stepState (s : State) (t ctx vocab token : Nat) (v : BitVec 32) : Option (BitVec 32 × State) :=
  if vocab ≤ token then some (deadState, s)
  else match descriptor s t ctx v with
    | none => none
    | some (d, runs, s) =>
      if !allows runs vocab token then some (deadState, s)
      else (gramRead s ctx (imageAt d 16 8) (8 * imageAt d 24 4)).map fun ts =>
        (BitVec.ofNat 32 (nextState token (imageAt d 12 4) (imageAt d 24 4) ts), s)

/-- The mask bytes of a list of allowed stretches. -/
def maskBytesOf (runs : List (Nat × Nat)) (vocab : Nat) : List Byte :=
  (List.range (8 * maskWords vocab)).map fun i =>
    BitVec.ofNat 8 ((below 8 fun b => allows runs vocab (8 * i + b)).map fun b => 2 ^ b).sum

/-! ### Commands -/

/-- VOCAB of a command: as of its issue, or as GFCTL now has it. -/
def commandVocab (s : State) (c : GramCmd) : Nat := c.vocab.getD (vocabOf (ctxOf s c.ctx))
/-- Whether a pushed command is malformed. -/
def malformed (s : State) (c : GramCmd) : Bool :=
  c.vocab.isNone && (c.bad || 65535 < c.slot || !grammarOn (ctxOf s c.ctx) ||
    (c.op == 2 && (c.arg.toNat % 8 != 0 || Config.csTop < c.arg.toNat + 8 * maskWords (commandVocab s c))))

/-- Whether the record that sent a command runs on its core. -/
def atHome (s : State) (c : GramCmd) : Bool :=
  (coreOf s c.core).slice.isSome && coreCtx s c.core == c.ctx && submitOn s c.core == c.record
/-- Whether that record has ended. -/
def orphan (s : State) (c : GramCmd) : Bool :=
  !atHome s c && !(ctxOf s c.ctx).records.any fun e => e.2.submit == c.record

/-- GRAM_FAULT for a command (R374). -/
def gramFault (s : State) (c : GramCmd) : State :=
  postItem s c.ctx { coreItem s c.core 11 0x8C c.slot 0 with record := 0, unit := 0 }

/-- Take the `i`-th command out of a tower's queue, or put another in its place. -/
def replaceCommand (s : State) (t i : Nat) (c : Option GramCmd) : State :=
  onTower s t fun w => { w with gram := w.gram.take i ++ c.toList ++ w.gram.drop (i + 1) }

/-- Complete a command: its entry, once there is room, then its pulse of input 11. Nothing reaches a record that has
ended. -/
def completeCommand (s : State) (t i : Nat) (c : GramCmd) (e : Option Reply) : State :=
  if !atHome s c then replaceCommand s t i none
  else match e with
    | none => pulse (replaceCommand s t i none) c.core 11
    | some e =>
      match appendReplies s c.core [e] with
      | (s, []) => pulse (replaceCommand s t i none) c.core 11
      | (s, _) => replaceCommand s t i (some { c with owed := some e })

/-- The entry a command owes: none without NOTIFY. -/
def commandEntry (s : State) (t : Nat) (c : GramCmd) : Option Reply :=
  if !c.notify then none
  else
    let (v, dead) := slotOf s t c.slot
    some ⟨true, v, BitVec.ofNat 32 c.slot, BitVec.ofNat 32 c.op, dead, 0⟩

/-- The slot after a command, with GRAM_FAULT where a descriptor cannot be read, and the allowed stretches for a mask.
-/
def slotEffect (s : State) (t : Nat) (c : GramCmd) : List (Nat × Nat) × State :=
  let (v, dead) := slotOf s t c.slot
  let lost := gramFault (setSlot s t c.slot deadState true) c
  match c.op with
  | 1 =>
    if v == deadState then ([], s)
    else match stepState s t c.ctx (commandVocab s c) c.arg.toNat v with
      | some (n, s) => ([], setSlot s t c.slot n (dead || n == deadState))
      | none => ([], lost)
  | 2 =>
    if v == deadState then ([], s)
    else match descriptor s t c.ctx v with
      | some (_, runs, s) => (runs, s)
      | none => ([], lost)
  | _ => ([], setSlot s t c.slot (c.arg.setWidth 32) false)

/-- Write a mask to the core store of a command's core; an offset that finds no region is a GRAM_FAULT (assumption 24).
-/
def writeMask (s : State) (c : GramCmd) (bs : List Byte) : State :=
  match csSpan s c.core c.arg.toNat bs.length 0 with
  | .ok (ps, s) => writePieces s ps bs
  | .error _ => gramFault s c

/-- What keeps a mask from being written now: a region that is moving or must first be claimed. -/
def maskHeld (s : State) (c : GramCmd) : Option State :=
  match csSpan s c.core c.arg.toNat (8 * maskWords (commandVocab s c)) 0 with
  | .error (.claim i) => some ((touchRegion s c.core i).getD s)
  | .error (.wait _) => some s
  | _ => none

/-- Whether a command waits for its descriptor. -/
def commandHeld (s : State) (t : Nat) (c : GramCmd) : Bool :=
  let v := (slotOf s t c.slot).1
  (c.op == 1 || c.op == 2) && v != deadState && descriptorWaits s c.ctx v

/-- The effect of a command and its completion. -/
def effectCommand (s : State) (t i : Nat) (c : GramCmd) : State :=
  let (runs, u) := slotEffect s t c
  let u := if c.op == 2 && atHome s c then writeMask u c (maskBytesOf runs (commandVocab s c)) else u
  completeCommand u t i c (commandEntry u t c)

/-- Execute the `i`-th command. -/
def runCommand (s : State) (t i : Nat) (c : GramCmd) : State :=
  match c.owed with
  | some e => completeCommand s t i c (some e)
  | none =>
    if malformed s c then completeCommand (gramFault s c) t i c none
    else if commandHeld s t c then s
    else if c.op == 2 && atHome s c then (maskHeld s c).getD (effectCommand s t i c)
    else effectCommand s t i c

/-- Whether a command whose effect is done waits for room in its core's reply queue: it holds no other core's command.
-/
def entryWaits (s : State) (c : GramCmd) : Bool :=
  match c.owed with
  | some e => atHome s c && !(appendReplies s c.core [e]).2.isEmpty
  | none => false

/-- Whether a command may go now: its record runs on its core or has ended, its entry does not wait for room, and no
earlier command of that record on that core, nor an unexecuted one on its slot, stands before it (R374). -/
def mayGo (s : State) (before : List GramCmd) (c : GramCmd) : Bool :=
  (atHome s c || orphan s c) && !entryWaits s c && !before.any fun b =>
    (b.core == c.core && b.ctx == c.ctx && b.record == c.record) || (b.owed.isNone && c.owed.isNone && b.slot == c.slot)

/-- The first command that may go, with its place. -/
def firstCommand (s : State) (before : List GramCmd) : List GramCmd → Option (Nat × GramCmd)
  | [] => none
  | c :: cs => if mayGo s before c then some (before.length, c) else firstCommand s (before ++ [c]) cs

/-- The engine executes its next command, if it is of an operation. -/
def grammarEvent (tower op : Nat) (s : State) : Host.Outcome State Fault Refusal :=
  .next (if Config.towers ≤ tower then s
    else match firstCommand s [] (towerOf s tower).gram with
      | none => s
      | some (i, c) => if c.op == op || (op == 1 && !(1 ≤ c.op && c.op ≤ 3)) then runCommand s tower i c else s)

/-- GRAMMAR_STEP; a pushed command of a reserved OP is turned away here too. -/
def execGrammarStep (tower : Nat) (s : State) : Host.Outcome State Fault Refusal := grammarEvent tower 1 s
/-- GRAMMAR_MASK. -/
def execGrammarMask (tower : Nat) (s : State) : Host.Outcome State Fault Refusal := grammarEvent tower 2 s
/-- GRAMMAR_SET. -/
def execGrammarSet (tower : Nat) (s : State) : Host.Outcome State Fault Refusal := grammarEvent tower 3 s

end Sys2Proof.Machine
end

