-- ==== Sys2Proof/Machine/Tasks.lean ====
section
/-! DEFINITION. The task and trap instructions: SPAWN, JOIN, YIELD, DONE, GBAR, BUDGET, TRAP, ERET, BKPT, TLBINV (14
R314-R321). -/

namespace Sys2Proof.Machine

/-! ### SPAWN and JOIN (R315, R316) -/

/-- The item of a submission whose range descriptor fails (R315; its fields, assumption 21). -/
def rangeItem (s : State) (ranges : Nat) : State := postCore s s.curCore 12 0x74 ranges 0

/-- SPAWN. -/
def execSpawn (f : EFields) (s : State) : Host.Outcome State Fault Refusal :=
  guarded s 8 do
    let im ← readImage s f.a.toNat 8
    if !recordFieldsOk im then stopWith 0x09
    else if rangesWait s (myCtx s) (imageAt im 34 6) then .error (.wait (.page (imageAt im 34 6) 0))
    else
      match accept s (myCtx s) (recordFrom im) with
      | (.full, _) => .error (.wait (.cause 4))
      | (.badRanges, s) => writeReg (rangeItem s (imageAt im 34 6)) f.dst 0xFFFFFFFF
      | (.at i, s) => writeReg s f.dst (word i)

/-- JOIN, plain form: the refused predicate is false when a WAITING record was decremented. -/
def execJoin (f : EFields) (s : State) : Host.Outcome State Fault Refusal :=
  guarded s 8 do
    let v ← readGQ s f.a
    let i := v.toNat
    if 2 ^ 22 ≤ i || storeSize (ctxOf s (myCtx s)) ≤ i then stopWith 0x09
    else
      let took := (recordOf s (myCtx s) i).map (·.state) == some .waiting
      return writePred (joinDown s (myCtx s) i) f.dst (!took)

/-- Geyser takes the JOIN of a poisoned entry of a batch itself (R125). -/
def joinLost (s : State) (ctx a : Nat) : Option State :=
  if !poisonVirtual s ctx a 32 then none
  else (entryAt s ctx a).map fun (i, e) =>
    if e.taken then s else takeToken s ctx i (((recordOf s ctx i).map (·.unit)).getD 0) a e true

/-- JOIN, batch form: the entry's JOIN and its DONE in one step, refused when DONE is set (R122), as it is for a
poisoned entry, whose JOIN Geyser takes. -/
def execJoinBatch (f : EFields) (s : State) : Host.Outcome State Fault Refusal :=
  guarded s 8 do
    let ea ← readGQ s f.a
    aligned ea 32
    if eaSpace ea != 0 then invalid ea
    else match joinLost s (myCtx s) ea.toNat with
    | some s => return writePred s f.dst true
    | none =>
      let (im, s) ← loadBytes s 2 ea 32
      if imageAt im 25 1 % 128 != myCtx s then stopWith 0x09
      else if imageAt im 27 1 % 2 == 1 then return writePred s f.dst true
      else
        let s ← storeBytes s 2 (ea + 27) (toBytes 1 (imageAt im 27 1 + 1))
        return writePred (joinDown (markTaken s (myCtx s) ea.toNat) (myCtx s) (imageAt im 17 3 % 2 ^ 22)) f.dst false

/-! ### YIELD and DONE (R132, R317) -/

/-- The waits of R132: every other stream idle, and every copy command in the core's own queue completed. -/
def slicePart (s : State) : Act State :=
  let k := myCore s
  if (List.range 6).any fun n => (streamOf k (n + 1)).status != .idle then .error (.wait (.cause 10))
  else if !k.copies.isEmpty then .error (.wait (.cause 10))
  else .ok s

/-- The core's part of the slice ends; the next scheduler round ends the slice once every core's has. -/
def endPart (s : State) (how : Status) (keep : Bool) : Host.Outcome State Fault Refusal :=
  guarded s 8 do
    let s ← slicePart s
    return onMe s fun st => { st with status := how, wbs := if keep then st.wbs else [] }

/-- YIELD. -/
def execYield (s : State) : Host.Outcome State Fault Refusal := endPart s .yielded true
/-- DONE: pending write-backs are discarded. -/
def execDone (s : State) : Host.Outcome State Fault Refusal := endPart s .done false

/-! ### GBAR (R318) -/

/-- The core's arrival at barrier `n`, counted once. -/
def arrive (k : Core) (n : Nat) : Core :=
  if k.arrived == some n then k else { k with arrived := some n, gbar := adjust 0 k.gbar n (· + 1) }

/-- Whether the barrier a core stands at is decided: every core of the slice has issued as many of it. -/
def barrierDone (s : State) (core n : Nat) : Bool :=
  (sliceCores s core).all fun c => look 0 (coreOf s core).gbar n ≤ look 0 (coreOf s c).gbar n

/-- GBAR. -/
def execGbar (f : EFields) (s : State) : Host.Outcome State Fault Refusal :=
  if !guardHolds s then skip s 8
  else if !(me s).loads.isEmpty then .next (trapState s (.wait (.cause 10)))
  else
    let n := f.n12.toNat
    let s := onCore s s.curCore fun k => arrive k n
    if barrierDone s s.curCore n then .next (finish (onCore s s.curCore fun k => { k with arrived := none }) 8 none)
    else .next (hold s (.cause 10))

/-! ### BUDGET (R319) -/

/-- BUDGET: legal only in handler mode, which the decode checks. -/
def execBudget (f : EFields) (s : State) : Host.Outcome State Fault Refusal :=
  guarded s 8 (
    let extended := ((myRecord s).map (·.extended)).getD false
    let s := match (myCore s).slice with
      | some l =>
        if extended then onCore s s.curCore fun k => { k with handler := k.handler.map fun h => { h with refused := true } }
        else onRecord s l.ctx l.index fun r => { r with extended := true }
      | none => s
    .ok (writePred s f.dst extended))

/-! ### Traps (R164, R320) -/

/-- An exception the instruction itself is: it restarts after the instruction. -/
def raise (s : State) (reason code : Nat) : Host.Outcome State Fault Refusal :=
  if guardHolds s then
    let pc := (me s).pc
    let t := finish s 8 none
    .next (takeException t s.curCore s.curStream reason (word code) pc)
  else skip s 8

/-- TRAP. -/
def execTrap (f : EFields) (s : State) : Host.Outcome State Fault Refusal := raise s 0x10 f.n12.toNat
/-- BKPT. -/
def execBkpt (f : EFields) (s : State) : Host.Outcome State Fault Refusal := raise s 0x12 f.n12.toNat

/-- ACTION of the origin frame, a poisoned one reported for the handler that ends (R88); one that can no longer be read
is a free value (assumption 2). -/
def frameAction (s : State) (ctx core : Nat) : Nat × State :=
  let a := frameAt s ctx core + 32
  match readVirtual s ctx a 1 with
  | some bs => (fromBytes bs % 4, if poisonVirtual s ctx a 1 then postCore s core 0 0x60 a 0 else s)
  | none =>
    let (w, s) := drawWord (walkReport s ctx 13 0 a 1)
    (w.toNat % 4, s)

/-- ERET: the handler ends with the origin frame's ACTION. -/
def execEret (s : State) : Host.Outcome State Fault Refusal :=
  if !guardHolds s then skip s 8
  else if virtualWaits s (myCtx s) 0 (frameAt s (myCtx s) s.curCore + 32) 1 then
    .next (hold s (.page (frameAt s (myCtx s) s.curCore + 32) 0))
  else
    let ctx := myCtx s
    let core := s.curCore
    let refused := ((myCore s).handler.map (·.refused)).getD false
    let t := finish s 8 none
    let (a, t) := frameAction t ctx core
    let r := returnFrom t ctx a refused
    .next (if itemsOver s r then hold s (.cause 4) else r)

/-- Bytes of a TLBINV page size code. -/
def pageSize (code : Nat) : Nat := 2 ^ (match code with
  | 0 => 16 | 1 => 21 | _ => 30)

/-- The range TLBINV removes: `n` pages from `a`, or every page of the context. -/
def tlbRange (a n size : Nat) : Nat × Nat := if n == 0 then (0, 2 ^ 56) else (a, n * size)

/-- TLBINV: every core and walker cache loses the context's translations of the range, or with a count of 0 all of them,
once every access by them, loads, seals and the copies that stand within their pages, has been performed; that wait is
one of synchronisation (R300). -/
def execTlbinv (f : EFields) (s : State) : Host.Outcome State Fault Refusal :=
  guarded s 8 do
    let a ← readGQ s f.a
    let n ← readGQ s f.b
    let size := pageSize f.opt.toNat
    let r := tlbRange a.toNat n.toNat size
    if eaSpace a != 0 then invalid a
    else if a.toNat % size != 0 || 2 ^ 56 < a.toNat + n.toNat * size then stopWith 0x09
    else if loadsMeet s (myCtx s) r.1 r.2 then .error (.wait (.cause 10))
    else return invalidate s (myCtx s) r.1 r.2

end Sys2Proof.Machine
end

