-- ==== Sys2Proof/Machine/Quiesce.lean ====
section
/-! DEFINITION. What the streams of a core wait for and how it comes: fetched lines, loads, write-backs, nests, seals,
waits released, the quiescence of a halt and the SYNC trace (07, 08 R159-R165, R168, 09, 14 R300, R308). -/

namespace Sys2Proof.Machine

/-- An event of a stream that may issue. -/
def streamEvent (s : State) (core stream : Nat) (f : State → State) : Host.Outcome State Fault Refusal :=
  .next (if stream < 7 && canIssue s core stream then asStream s core stream f else s)

/-! ### Fetch, loads, write-backs -/

/-- FETCH_LINE: the line at the stream's program counter is fetched and checked against its header (R244). -/
def execFetchLine (core stream : Nat) (s : State) : Host.Outcome State Fault Refusal :=
  streamEvent s core stream fun s =>
    match heldLine s with
    | .error e => trapAs false s e
    | .ok (line, s) =>
      if lineOk line then s
      else trapState (onMe s fun st => { st with pc := word (lineOf st.pc.toNat + 8), line := none }) (.event 0x06 none)

/-- LOAD_DATA_RETURN: the oldest outstanding load of a stream. -/
def execLoadDataReturn (core stream : Nat) (s : State) : Host.Outcome State Fault Refusal :=
  .next (match (me { s with curCore := core, curStream := stream }).loads with
    | [] => s
    | l :: _ => returnLoad s core stream l)

/-- WRITEBACK_LAND: every write-back whose shadow has ended (R162). -/
def execWritebackLand (core stream : Nat) (s : State) : Host.Outcome State Fault Refusal :=
  .next (asStream s core stream fun s => onMe s landDue)

/-! ### Nests, deep blocks, seals -/

/-- NEST_DRAIN. -/
def execNestDrain (core engine : Nat) (s : State) : Host.Outcome State Fault Refusal := .next (nestDrainStep s core engine)
/-- NEST_COMPLETE. -/
def execNestComplete (core engine : Nat) (s : State) : Host.Outcome State Fault Refusal :=
  .next (nestCompleteStep s core engine)

/-- DEEP_BLOCK_READ_DONE: the blocks that the stream's tap waits for have come. -/
def execDeepBlockReadDone (core stream : Nat) (s : State) : Host.Outcome State Fault Refusal :=
  .next (asStream s core stream fun s =>
    match (me s).waiting with
    | some (.block _ _) => onMe s fun st => { st with served := true }
    | _ => s)

/-- The signals whose seals the issuing stream waits for: SIGSEAL's, or every one of TICK's context. -/
def awaitedSeals (s : State) : List Nat :=
  match (me s).waiting with
  | some (.seal n) => [myKey s n]
  | some (.cause 8) => (contextSignals s).map (·.1)
  | _ => []

/-- SEALED_BLOCK_WRITE_DONE: the STAMPs are set; the SIGSEAL or TICK goes on at its next issue. -/
def execSealedBlockWriteDone (core stream : Nat) (s : State) : Host.Outcome State Fault Refusal :=
  .next (asStream s core stream fun s => (awaitedSeals s).foldl (sealsDone core) s)

/-! ### Waits released -/

/-- TIMELINE_WAIT_RELEASE: the value is reached and the WAIT completes (R308). -/
def execTimelineWaitRelease (core stream : Nat) (s : State) : Host.Outcome State Fault Refusal :=
  streamEvent s core stream fun s =>
    match (me s).waiting with
    | some (.timeline sel place value) => if value ≤ counterValue s sel place then retire s core stream 0 0 else s
    | _ => s

/-- GATE_WAIT_RELEASE: the gate is open; the thresholds of its lowest true term are taken (R143). -/
def execGateWaitRelease (core stream : Nat) (s : State) : Host.Outcome State Fault Refusal :=
  streamEvent s core stream fun s =>
    match (me s).waiting with
    | some (.gate k) => match openTerm (myCore s) k with
      | some m => retire (onCore s core fun k => consume k m) core stream 0 0
      | none => s
    | _ => s

/-- FRONT_WAIT_RELEASE: the front has passed the sample; the read proceeds at its next issue (R182). -/
def execFrontWaitRelease (core stream : Nat) (s : State) : Host.Outcome State Fault Refusal :=
  streamEvent s core stream fun s =>
    match (me s).waiting with
    | some (.front n j) => match sigOf s (myKey s n) with
      | some g => if j < g.front then onMe (traceWait s (me s)) fun st => { st with waiting := none } else s
      | none => s
    | _ => s

/-! ### Quiescence (R159, R160, R164) -/

/-- Whether a stream of a core still waits for Geyser's decision (R382), or for an access that it performs again (R165).
-/
def awaitsGeyser (s : State) (core : Nat) : Bool :=
  (coreOf s core).streams.any fun e => e.2.replay || match e.2.waiting with
    | some (.geyser _ _) | some (.eqstat _ _ _) => true
    | _ => false

/-- A barrier a core stands at: complete if it is decided, else the arrival is withdrawn, for the GBAR is executed again
(R165). -/
def settleBarrier (decided : List Nat) (s : State) (core : Nat) : State :=
  match (coreOf s core).arrived with
  | none => s
  | some n =>
    let t := onCore s core fun k => { k with arrived := none }
    if decided.contains core then retire t core 0 0 0
    else onCore t core fun k => { k with gbar := adjust 0 k.gbar n (· - 1) }

/-- Walks in flight that accesses of halted cores have joined return, but for those that wait for a page in transit. -/
def settleWalks (cores : List Nat) (s : State) (t : Nat) : State :=
  ((towerOf s t).walks.filter fun w => w.joiners.any fun j => cores.contains j.core).foldl (fun s w => endWalk s t w) s

/-- How an access of a halted core ends by what its walk has returned, if by a fault: reason and level. -/
def walkedFault (s : State) (ctx : Nat) (w : Walked) : Option (Nat × Nat) :=
  match w.result with
  | .fault r l => some (r, l)
  | .leaf level e => match checkLeaf s .core ctx w.kind level e.toNat w.va with
    | .fault r l => some (r, l)
    | _ => none

/-- An access that had been issued when its core stopped, and faults, is listed beside the first one, and its stream's
stop record holds it unless it holds an event already (R78). -/
def settleFault (ctx core : Nat) (s : State) (w : Walked) : State :=
  match (if w.ctx == ctx && w.requester < 8 then walkedFault s ctx w else none) with
  | none => s
  | some (r, l) =>
    let s := asStream s core w.requester fun s => joinGroup s core w.va w.kind r
    let s := recordFault s core (sourceOf w.requester w.kind) w.va w.kind r l
    let s := if (streamOf (coreOf s core) w.requester).faulted then s
      else recordStop s core w.requester r (word w.va)
        (if w.requester == 7 then 0 else (streamOf (coreOf s core) w.requester).pc)
    onCore s core fun k => { k with walked := k.walked.filter (· != w) }

/-- Every faulting access of a halted core. -/
def settleFaults (ctx : Nat) (s : State) (core : Nat) : State := (coreOf s core).walked.foldl (settleFault ctx core) s

/-- Everything that the cores of a context's halt have issued completes. -/
def settle (s : State) (ctx : Nat) (cores : List Nat) : State :=
  let s := (List.range Config.towers).foldl (settleWalks cores) s
  let s := cores.foldl (settleFaults ctx) s
  let s := cores.foldl returnLoads s
  let s := cores.foldl settleShadows s
  let decided := cores.filter fun c => (coreOf s c).arrived.any fun n => barrierDone s c n
  let s := cores.foldl (settleBarrier decided) s
  cores.foldl settleSeals s

/-- Whether a core's fault frame waits for the host's translation, a link or the swap engine. -/
def frameWaits (s : State) (ctx core : Nat) : Bool := virtualWaits s ctx 1 (frameAt s ctx core) 0xA00

/-- HALT_QUIESCENCE: the frames are written and the halt is delivered. -/
def execHaltQuiescence (ctx : Nat) (s : State) : Host.Outcome State Fault Refusal :=
  ctxEvent s ctx (match (ctxOf s ctx).halt with
    | none => s
    | some h =>
      if h.quiet || h.reason == 0x16 || h.cores.any (awaitsGeyser s) || h.cores.any (frameWaits s ctx) then s
      else
        let h := { h with quiet := true }
        let (s, lost) := writeFrames (settle s ctx h.cores) ctx h h.cores
        deliver (onCtx s ctx fun c => { c with halt := some h }) ctx h lost)

/-! ### The trace -/

/-- TRACE_SYNC: one for each span of 65,536 cycles. -/
def execTraceSync (core : Nat) (s : State) : Host.Outcome State Fault Refusal :=
  .next (
    let k := coreOf s core
    if k.slice.isNone || k.cycle / 65536 == k.synced then s
    else onCore (trace s core 1 0 k.cycle) core fun k => { k with synced := k.cycle / 65536 })

end Sys2Proof.Machine
end

