-- ==== Sys2Proof/Machine/Trip.lean ====
section
/-! DEFINITION. Trip: every partition halts, every operation in flight reports a failed status, and the clock stops
(01 R16, Table 1.3). Which code of its table a failed operation reports no rule says: a free value among those that the
table gives for a failure (assumption 70). -/

namespace Sys2Proof.Machine

/-- Status codes with the error bit of Table 4.8. -/
def swapFailures : List Nat := [0x40, 0x41, 0x42, 0x43, 0x44, 0x46]
/-- Status codes other than OK of Table 2.13. -/
def colFailures : List Nat := [0x50, 0x51, 0x52, 0x53, 0x54, 0x55]
/-- Codes of Table 6.6 that are a failed status of a command. -/
def geyserFailures : List Nat := [0x81, 0x82, 0x83, 0x84, 0x85, 0x86]
/-- A failed status for an operation in flight at Trip. -/
def failedStatus (s : State) (codes : List Nat) : Nat × State :=
  let (w, s) := drawWord s
  (codes.getD (w.toNat % codes.length) 0x40, s)

/-- Every packet, swap command and collective command of a context that is in flight ends with a failed status, which
its completion then writes. -/
def failFlight (ctx : Nat) (s : State) : State :=
  let (w, s) := failedStatus s swapFailures
  let (c, s) := failedStatus s colFailures
  onCtx s ctx fun x => { x with
    queues := x.queues.map fun (q, u) => (q, { u with packets := u.packets.map fun p =>
      { p with status := some (p.status.getD 0x30) } })
    swaps := x.swaps.map fun (t, l) => (t, l.map fun v => { v with result := some (v.result.getD (w, false, 0)) })
    cols := x.cols.map fun (t, l) => (t, l.map fun v => { v with result := some (v.result.getD c) }) }

/-- A Geyser command that no round will decide: its number completes, and a pushed command or an instruction that takes
a status learns a failed one. The plain EQPUSH, whose failure is a fault, stands stopped under the halt. -/
def tripGeyser (t : Nat) (s : State) (c : GeyCmd) : State :=
  if c.waiter.isSome && c.op == 1 && !c.nf then tlDone s c.ctx (128 * 10 + t) c.number
  else
    let (code, s) := failedStatus s geyserFailures
    decided s t c code 0

/-- A grammar command that its engine will not execute: GRAM_FAULT, and with NOTIFY an entry with FAIL = 1 where the
reply queue has room. -/
def tripGrammar (t : Nat) (s : State) (c : GramCmd) : State :=
  let s := gramFault s c
  match c.owed.or (commandEntry s t c) with
  | some e => if atHome s c then (appendReplies s c.core [{ e with fail := true }]).1 else s
  | none => s

/-- The commands of a context that a tower holds. -/
def tripTower (ctx : Nat) (s : State) (t : Nat) : State :=
  let w := towerOf s t
  let s := onTower s t fun w => { w with
    commands := w.commands.filter (·.ctx != ctx), gram := w.gram.filter (·.ctx != ctx) }
  let s := (w.commands.filter (·.ctx == ctx)).foldl (tripGeyser t) s
  (w.gram.filter (·.ctx == ctx)).foldl (tripGrammar t) s

/-- What a core has in flight for a context: copy commands of its queue, and, where it runs a slice of the context, the
numbers of outstanding loads, partly done region operations and nests. -/
def tripCore (ctx : Nat) (s : State) (core : Nat) : State :=
  let s := abortCopies s core ctx (coreOf s core).copies
  if (coreOf s core).slice.map (·.ctx) != some ctx then s
  else
    let i := coreItem s core 0 0 0 0
    let s := (coreOf s core).streams.foldl (reportRegions ctx i.record i.unit 0x16 core) (failLoads s core)
    let s := (coreOf s core).engines.foldl (failNest ctx i.record i.unit 0x16 core) s
    onCore s core fun k => { k with
      engines := k.engines.map fun (n, e) => (n, { e with nest := none })
      streams := k.streams.map fun (n, st) => (n, { st with loads := [] }) }

/-- What the checkpoint slots of a context hold in flight. -/
def tripSlots (ctx : Nat) (s : State) : State :=
  let s := (ctxOf s ctx).records.foldl (fun s r => abortSaved s ctx r.1 r.2.unit 0x16) s
  onCtx s ctx fun c => { c with slots := c.slots.map fun l => { l with saved := { l.saved with copies := [], engines := [] } } }

/-- BAR2 accesses that have not completed fail as R50 says: a read answers all ones. -/
def tripWindow (ctx : Nat) (s : State) : State :=
  match (ctxOf s ctx).window with
  | [] => s
  | w :: _ =>
    let s := onCtx (windowFault s ctx) ctx fun c => { c with window := [] }
    if w.data.isNone then { s with readData := some (List.replicate w.bytes 0xFF) } else s

/-- A context at Trip: its partition halts as by a fault, which no handler or halt that stood outlasts, and what it has
in flight reports a failed status. -/
def tripContext (s : State) (ctx : Nat) : State :=
  let s := { s with cores := s.cores.map fun (n, k) =>
    (n, if k.slice.map (·.ctx) == some ctx then { k with handler := none } else k) }
  let s := match coresOf s ctx with
    | [] => s
    | c :: _ => startHalt s ctx c 0 0x16 0
  let s := (List.range Config.cores).foldl (tripCore ctx) (failFlight ctx s)
  tripWindow ctx ((List.range Config.towers).foldl (tripTower ctx) (tripSlots ctx s))

/-- Whether Trip is due: its trigger holds, or has held (Table 1.3). -/
def tripDue (s : State) : Bool := s.module.input && !s.module.tripped && (s.module.tripHeld || tripTrigger s)

/-- THERMAL_TRIP: every partition halts, every operation in flight reports failed status, and the clock stops; a halt
that stood is overtaken. -/
def execThermalTrip (s : State) : Host.Outcome State Fault Refusal :=
  .next (if tripDue s then
    (List.range Config.contexts).foldl tripContext (logEvent (onModule s fun m => { m with tripped := true }) 0x0002 0)
  else s)

end Sys2Proof.Machine
end

