-- ==== Sys2Proof/Machine/Background.lean ====
section
/-! DEFINITION. What moves when the agenda lists nothing: the events that are due by themselves, and the streams in turn
(assumption 1); and the placing of one instruction for `step` to fetch. -/

namespace Sys2Proof.Machine

/-- The start of an issue: the stream's turn, its cycle, and the write-backs whose shadow has ended (R162). -/
def begin (s : State) (core stream : Nat) : State :=
  onMe (tick { s with curCore := core, curStream := stream, guard := {} } core) landDue

/-- Number of a stream among all streams of the module. -/
def streamNumber (core stream : Nat) : Nat := 7 * core + stream

/-- The next stream after the one that issued last, in core and stream order, that may issue (assumption 1). -/
def nextStream (s : State) : Option (Nat × Nat) :=
  let n := 7 * Config.cores
  let from_ := streamNumber s.curCore s.curStream + 1
  ((List.range n).map fun i => ((from_ + i) % n / 7, (from_ + i) % n % 7)).find? fun p => canIssue s p.1 p.2

/-- Whose event a row is: of no one, for an instruction, which only a stream issues; of power, sensors and the
management controller; of the optical ports; of the host through the PF, or for a context; or of an engine that the
arithmetic clock runs, with those that still write the completions of what Trip has ended. -/
inductive Agent where
  | stream
  | management
  | port
  | physical
  | context
  | engine
  | completion
  deriving DecidableEq, Repr

/-- The agent of a row of the opcode table. -/
def agentOf : Instr → Agent
  | .powerInputApplied | .coolantOkAsserted | .railSequenceStep _ | .selfTestDone _ | .perstRelease | .railFault _
  | .throttleUp | .throttleDown | .thermalTrip | .hbmSiteHot _ | .hbmThermalRetirement _ _ | .sensorRefresh _
  | .bootRomCheck | .readSensors | .readModstat | .readCapacity | .setPowerLimit _ | .fwStage _ | .fwActivate _
  | .flashWriteDone | .eventLog | .mailboxUnknownCommand _ | .mailboxResponseRead | .recoveryStageDone
  | .patrolScrub _ _ | .remapRequest _ _ _ | .remapPublish | .coreFence _ | .powerInputLost | .sramRowSparing _ _ =>
    .management
  | .portIdlePark _ | .portWakeTrigger _ | .wakeLockEnd _ _ | .wakeComplete _ | .markerReceived _ _
  | .ringLockLoss _ _ | .lanePause _ _ | .data _ _ | .ack _ _ | .nak _ _ | .portDownTimeout _ | .withdraw _ _ _ _
  | .ringLockChange _ _ => .port
  | .recoveryStage | .recoveryCommit | .htrWrite _ _ _ | .lmapWrite _ _ _ | .parkWrite _ _ | .pctlWrite _ _ | .pfReset
  | .registerWrite (.port _ _) _ | .registerWrite (.modid _) _ | .registerWrite (.route _) _
  | .registerWrite (.recovery _) _ | .registerWrite .bar2Size _ => .physical
  | .rmctlWrite _ _ | .functionLevelReset _ | .queueEnable _ _ _ | .queueResume _ _ | .queueAbort _ _
  | .queueDrain _ _ | .kick _ _ _ | .swtWrite _ _ _ | .crheadWrite _ _ | .trheadWrite _ _ _ | .itheadWrite _ _
  | .crctlWrite _ _ | .trctlWrite _ _ _ | .itctlWrite _ _ | .dtctlWrite _ _ | .fresResume _ | .fresFail _ | .fresSkip _
  | .fresKill _ | .gfbaseWrite _ _ | .bar2Read _ _ _ | .bar2Write _ _ _ | .atsInvalidation _ _ _ | .priResponse _ _
  | .registerWrite (.context _ _ _) _ | .vectorUnmask _ _ | .atsTranslationCompletion _ _ _ => .context
  | .form _ _ _ | .formTimeout _ _ | .allreduce _ _ _ | .allgather _ _ _ | .redscatter _ _ _ | .alltoall _ _ _
  | .drawmerge _ _ _ | .collectiveBadOp _ _ | .kickRefetch _ _ | .packetFetchResponse _ _ | .launch _ _ _
  | .launchUnitCreate _ _ _ | .copy _ _ _ | .tlwait _ _ _ | .tlwaitSatisfied _ _ _ | .tlsignal _ _ _
  | .mapupdate _ _ _ | .fencePacket _ _ _ | .nopkt _ _ _ | .tokenRingTimer _ _ | .walkComplete _ _ | .migrate _ _
  | .exchange _ _ | .promote _ _ | .swapBadOp _ _ | .schedulerRound | .sliceStart _ _ | .checkpointComplete _ _
  | .bucketRefill _ | .deadlineMiss _ _ | .budgetExhausted _ _ | .handlerAllowanceExhausted _ | .regionFirstTouch _ _
  | .regionTransferDone _ _ | .geyserRound _ | .fetchLine _ _ | .loadDataReturn _ _ | .writebackLand _ _
  | .copyCmd _ _ | .tileCmd _ _ | .fillCmd _ _ | .feedCmd _ _ | .copyCmdComplete _ _ | .grammarStep _
  | .grammarMask _ | .grammarSet _ | .nestDrain _ _ | .nestComplete _ _ | .deepBlockReadDone _ _ | .haltQuiescence _
  | .traceSync _ | .timelineWaitRelease _ _ | .gateWaitRelease _ _ | .frontWaitRelease _ _ | .uncorrectable _ _
  | .sealedBlockWriteDone _ _ => .engine
  | .packetComplete _ _ _ | .swapComplete _ _ | .collectiveComplete _ _ => .completion
  | _ => .stream

/-- Whether an agent can act: the host once the link is up (R12), for contexts and virtual functions only from an image
that the boot ROM has let run, not in recovery (R27); a port while the rails are up; an engine while the clock runs, and
until the rails fall for a completion (R14, R16). -/
def admitted (s : State) : Agent → Bool
  | .stream => false
  | .management => true
  | .port | .completion => s.module.step == 4
  | .physical => linkUp s
  | .context => linkUp s && s.module.bootChecked && !s.module.recovery
  | .engine => clockRuns s

/-- Whether an agent stalls rather than post an item record for which the device has no room (R166). -/
def posts : Agent → Bool
  | .engine | .completion => true
  | _ => false

/-- An event of an agent: nothing where the agent cannot act, or stalls. -/
def eventOf (s : State) (a : Agent) (t : Host.Outcome State Fault Refusal) : Host.Outcome State Fault Refusal :=
  if !admitted s a then .next s
  else match t with
    | .next t => if posts a && itemsOver s t then .next s else .next t
    | r => r

/-- A nanosecond passes with nothing to issue (assumption 17). -/
def idle (s : State) : State := passTime s

/-! ### What is due by itself (assumption 1) -/

/-- A move that may be due. -/
abbrev Due := State → Host.Outcome State Fault Refusal

/-- The state a move leads to, if it changes anything. -/
def changed (s : State) (d : Due) : Option State :=
  match d s with
  | .next t => if t == s then none else some t
  | _ => none

/-- `changed` for a move of an engine, which stalls before an item record for which the device has no room (R166). -/
def moved (s : State) (d : Due) : Option State := (changed s d).filter fun t => !itemsOver s t

/-- A started packet of a queue. -/
def duePacket (c q n : Nat) : List Due :=
  [execLaunch c q n, execLaunchUnitCreate c q n, execCopy c q n, execTlwait c q n, execTlwaitSatisfied c q n,
   execTlsignal c q n, execMapupdate c q n, execFencePacket c q n, execNopkt c q n, execPacketComplete c q n]

/-- Moves of an agent that has no item record to post; one that has stalls (R166). -/
def unheld (held : Bool) (l : List Due) : List Due := if held then [] else l

/-- A tower's swap and collective commands of a context. -/
def dueEngines (s : State) (c t : Nat) : List Due :=
  unheld (engineHeld s 8) [execSwapBadOp c t, execMigrate c t, execExchange c t, execPromote c t, execSwapComplete c t] ++
    unheld (engineHeld s 9) [execCollectiveBadOp c t, execCollectiveComplete c t]

/-- A context: its halt, its records, its queues, its engines' commands, its timers. -/
def dueContext (s : State) (c : Nat) (x : Ctx) : List Due :=
  [execHaltQuiescence c, execHandlerAllowanceExhausted c, execBucketRefill c] ++
    (x.records.flatMap fun r =>
      [execSliceStart c r.1, execCheckpointComplete c r.1, execDeadlineMiss c r.1, execBudgetExhausted c r.1]) ++
    (x.queues.flatMap fun q =>
        (fun s => .next (abortPackets s c q.1)) :: (fun s => .next (raiseOwed s c q.1)) ::
          execPacketFetchResponse c q.1 :: q.2.packets.flatMap fun p => duePacket c q.1 p.number) ++
    (List.range Config.towers).flatMap (dueEngines s c) ++ (x.trtimer.map fun r => execTokenRingTimer c r.1) ++
    [fun s => .next (sendInvalidations s c), fun s => .next (runWindow s c), fun s => .next (endKilled (pumpEntries (pumpItems s c) c) c)]

/-- The buffered trace entries of a core that can be written (R168). -/
def flushTrace (core : Nat) : Due := fun s => .next (flushCore s core)

/-- A core: its copies, streams, nests, regions and trace. -/
def dueCore (s : State) (c : Nat) (k : Core) : List Due :=
  unheld (coreHeld s c 7) (k.copies.flatMap fun x =>
    [execCopyCmd c x.number, execTileCmd c x.number, execFillCmd c x.number, execFeedCmd c x.number,
     execCopyCmdComplete c x.number]) ++
    ((List.range 7).flatMap fun n =>
      [execLoadDataReturn c n, execWalkComplete c n, execDeepBlockReadDone c n, execSealedBlockWriteDone c n,
       execTimelineWaitRelease c n, execGateWaitRelease c n, execFrontWaitRelease c n]) ++
    [execWalkComplete c 7] ++ ((List.range 4).flatMap fun e => unheld (coreHeld s c (e + 2)) [execNestDrain c e, execNestComplete c e]) ++
    ((k.regions.filter (·.moving)).map fun g => execRegionTransferDone c g.index) ++
    [execTraceSync c, flushTrace c]

/-- The module, whether its clock runs or not. -/
def dueModule : List Due :=
  [execBootRomCheck, execThermalTrip, execRailSequenceStep true, execRailSequenceStep false, execThrottleUp, execThrottleDown, execRemapPublish]

/-- The grammar engines, and the batches whose records have ended. -/
def dueTowers (s : State) : List Due :=
  unheld (engineHeld s 11) ((List.range Config.towers).flatMap fun t =>
    [execGrammarStep t, execGrammarMask t, execGrammarSet t]) ++
    unheld (engineHeld s 10) ((List.range Config.towers).map fun t s => .next (settleBatches s t))

/-- The completions that Trip leaves to be written before the rails fall (R16). -/
def dueTrip (c : Nat) (x : Ctx) : List Due :=
  (x.queues.flatMap fun q => q.2.packets.map fun p => execPacketComplete c q.1 p.number) ++
    (List.range Config.towers).flatMap fun t => [execSwapComplete c t, execCollectiveComplete c t]

/-- Every move of an engine that may be due while the clock runs, in order. -/
def dueMoves (s : State) : List Due :=
  dueTowers s ++ (s.ports.map fun p => execPortDownTimeout p.1) ++ (s.ctxs.flatMap fun c => dueContext s c.1 c.2) ++
    s.cores.flatMap fun c => dueCore s c.1 c.2
/-- The completions that may be due when it does not run. -/
def dueCompletions (s : State) : List Due :=
  if s.module.step == 4 then s.ctxs.flatMap fun c => dueTrip c.1 c.2 else []

/-- The rounds of the scheduler and of every Geyser, one every 16 cycles (R102, R119), unless they have an item record
to post (R166). -/
def rounds (s : State) : State :=
  let s := if engineHeld s 12 then s else round s
  if engineHeld s 10 then s else (List.range Config.towers).foldl geyserRound s

/-- The re-fetches of stale packets, every microsecond (R61, R62). -/
def refetches (s : State) : State :=
  s.ctxs.foldl (fun s c => c.2.queues.foldl (fun s q =>
    match execKickRefetch c.1 q.1 s with
    | .next t => t
    | _ => s) s) s

/-- What comes by the clock, with the nanosecond it takes; a round that finds no room for an item record stalls (R166).
-/
def clocked (s : State) : Option State :=
  if !clockRuns s then none
  else
    let t := if s.mtime % 16 == 0 && !itemsOver s (rounds s) then rounds s else s
    let t := if s.mtime % 1000 == 0 then refetches t else t
    if t == s then none else some (passTime t)

/-- What is due by itself, if anything: of the module first, which no item record holds back, or after the completions
that Trip leaves; else of an engine, or by the clock. -/
def due (s : State) : Option State :=
  if clockRuns s then (dueModule.findSome? (changed s)).or (((dueMoves s).findSome? (moved s)).or (clocked s))
  else ((dueCompletions s).findSome? (moved s)).or (dueModule.findSome? (changed s))

/-- The stream `placeWord` chooses for an instruction: `cc`, or where Table 7.1 asks for another, `ve` or `me3`. -/
def placeStream (i : Instr) : Nat := if streamOk 0 i then 0 else if streamOk 1 i then 1 else 5

/-- A fetch line whose word 2 holds one instruction of `len` words, every word after it NOP; every instruction start is
a target, and word 2 a function entry. -/
def placeLine (len w : Nat) : Nat :=
  let starts := ((List.range 30).filter fun i => i == 0 || len ≤ i).map fun i => 2 ^ i
  let body := ((List.range 30).filter fun i => len ≤ i).map fun i => 0xFC * 2 ^ (32 * (i + 2))
  starts.sum + (2 ^ 30 + starts.sum) * 2 ^ 32 + w * 2 ^ 64 + body.sum

/-- The state with an instruction stored where `step` fetches next: line 0 of local HBM under context 0, whose identity
translation needs no table (R71), in a module whose rails are up and whose self-test is done (R12), with a slice of
context 0 on core 0 whose chosen stream stands at word 2 and issues next. -/
def placeWord (s : State) (nbits w : Nat) : State :=
  let w := w % 2 ^ nbits
  let stream := match decodeTableWord nbits w with
    | some i => placeStream i
    | none => 0
  let line := placeLine (lengthOf (w % 256) / 4) (w % 2 ^ (8 * lengthOf (w % 256)))
  let s := onModule { s with mem := writeBytes s.mem (Loc.hbm 0).key (leBytes 128 line), agenda := [.issue 0 stream] }
    fun m => { m with input := true, coolant := true, bootChecked := true, step := 4, started := true, ready := true }
  let s := onCore s 0 fun k => { k with slice := some (k.slice.getD ⟨0, 0⟩), halted := false, fetched := [] }
  onStream s 0 stream fun st => { st with status := .running, pc := 8, line := none, waiting := none }

end Sys2Proof.Machine
end

