-- ==== Sys2Proof/Machine/Control.lean ====
section
/-! DEFINITION. Branches, calls, indirect jumps and loops (13 R284-R291). -/

namespace Sys2Proof.Machine

/-- One BRANCH bit in the trace (R168, R287). -/
def traceBranch (s : State) (taken : Bool) : State :=
  trace s s.curCore 4 s.curStream (2 ^ 58 + bit01 taken)

/-- The address `offset` words from the issuing instruction (R246). -/
def branchTo (s : State) (offset : Int) : Word := (me s).pc + BitVec.ofInt 64 (4 * offset)

/-- Check a target of the issuing stream (R245). -/
def target (s : State) (entry : Bool) (t : Word) : Act State :=
  -- a target below zero or above 2^56 lies outside the address space
  checkTarget s s.curCore (myCtx s) entry t

/-- The link address: the instruction after this one (assumption 18). -/
def linkAfter (s : State) (len : Nat) : Word := nextPc (me s).pc len

/-- BR: to p + 4·IMM20 when c PRED is true (R284). -/
def execBr (f : JFields) (s : State) : Host.Outcome State Fault Refusal :=
  conclude s 4 do
    if cValue (me s) f.pred.toNat then
      let t := branchTo s f.imm.toInt
      let s ← target s false t
      return (traceBranch s true, some t)
    else return (traceBranch s false, none)

/-- JMP (R284). -/
def execJmp (f : JFields) (s : State) : Host.Outcome State Fault Refusal :=
  conclude s 4 do
    let t := branchTo s f.imm.toInt
    let s ← target s false t
    return (s, some t)

/-- JAL: link and branch to a function entry (R285). -/
def execJal (f : JFields) (s : State) : Host.Outcome State Fault Refusal :=
  conclude s 4 do
    let t := branchTo s f.imm.toInt
    let s ← target s true t
    return (onMe s fun st => { st with lr := linkAfter s 4 }, some t)

/-- JMPL: to p + 4·LIT, with IMM18[0] a call (R284); predicated on another register than c0 it is traced as a branch
(R287). -/
def execJmpl (f : LFields) (s : State) : Host.Outcome State Fault Refusal :=
  let traced := fun (s : State) b => if s.guard.pred == 0 then s else traceBranch s b
  if guardHolds s then
    conclude s 12 do
      let link := f.imm == 1
      let t := branchTo s f.lit.toInt
      let s ← target s link t
      let s := if link then onMe s fun st => { st with lr := linkAfter s 12 } else s
      return (traced s true, some t)
  else skip (traced s false) 12

/-- JALR (R285): to A, or to `lr` for A = g0; the old `lr` to DST; the link bit makes it a call. -/
def execJalr (f : GFields) (s : State) : Host.Outcome State Fault Refusal :=
  if guardHolds s then
    conclude s 8 do
      let (a, s) ← if f.a == 0 then pure ((me s).lr, s) else readReg s f.a
      let s := emptyIf s f.lu f.a
      let link := f.imm == 1
      let s ← target s link a
      let old := (me s).lr
      let s := if link then onMe s fun st => { st with lr := linkAfter s 8 } else s
      let s ← writeReg s f.dst old
      return (trace s s.curCore 5 s.curStream (a.toNat % 2 ^ 48), some a)
  else skipSources s 8 f.lu f.a (.value 0)

/-! ### Loops -/

/-- guards(P) of R289 for a stream with the given trip and stage counts. -/
def guards (st : Stream) (p : Nat) : Stream :=
  let bits := (List.range 8).map fun j =>
    if j < st.lstage.toNat && j ≤ p && p < st.ltrip.toNat + j then 2 ^ (8 + j) else 0
  { st with c := BitVec.ofNat 16 (st.c.toNat % 256 + bits.sum) }

/-- LOOP (R289). -/
def execLoop (f : GFields) (s : State) : Host.Outcome State Fault Refusal :=
  if guardHolds s then
    conclude s 8 do
      let (n, st, s) ← readTwo s f.a (.reg f.b)
      let s := emptySources s f.lu f.a (.reg f.b)
      if st == 0 || 8 < st.toNat then stopWith 0x09
      else
        let enter := fun s => onMe s fun x =>
          guards { x with ltrip := n, lstage := BitVec.ofNat 4 st.toNat, lpass := 0 } 0
        if n == 0 then
          let t := branchTo s f.imm.toInt
          let s ← target s false t
          return (traceBranch (enter s) true, some t)
        else return (traceBranch (enter s) false, none)
  else skipSources s 8 f.lu f.a (.reg f.b)

/-- BRL (R290): the pass count rises, the guards are formed, and the body runs again while passes remain. -/
def execBrl (f : JFields) (s : State) : Host.Outcome State Fault Refusal :=
  conclude s 4 do
    let st := me s
    let p := st.lpass.toNat + 1
    let again := (p : Int) < (st.ltrip.toNat : Int) + st.lstage.toNat - 1
    let t := branchTo s f.imm.toInt
    let s ← if again then target s false t else pure s
    let s := onMe s fun st => guards { st with lpass := word p } p
    return (traceBranch s again, if again then some t else none)

end Sys2Proof.Machine
end

