-- ==== Sys2Proof/Machine/Dispatch.lean ====
section
/-! DEFINITION. One arm for each constructor of `Instr`: its meaning. -/

namespace Sys2Proof.Machine

def exec (i : Instr) (s : State) : Host.Outcome State Fault Refusal :=
  match i with
  | .addQ f => Sys2Proof.Machine.execAddQ f s
  | .subQ f => Sys2Proof.Machine.execSubQ f s
  | .andQ f => Sys2Proof.Machine.execAndQ f s
  | .orQ f => Sys2Proof.Machine.execOrQ f s
  | .xorQ f => Sys2Proof.Machine.execXorQ f s
  | .andnQ f => Sys2Proof.Machine.execAndnQ f s
  | .shlQ f => Sys2Proof.Machine.execShlQ f s
  | .shrQ f => Sys2Proof.Machine.execShrQ f s
  | .sraQ f => Sys2Proof.Machine.execSraQ f s
  | .minQ f => Sys2Proof.Machine.execMinQ f s
  | .maxQ f => Sys2Proof.Machine.execMaxQ f s
  | .minuQ f => Sys2Proof.Machine.execMinuQ f s
  | .maxuQ f => Sys2Proof.Machine.execMaxuQ f s
  | .mulQ f => Sys2Proof.Machine.execMulQ f s
  | .movQ f => Sys2Proof.Machine.execMovQ f s
  | .addiQ f => Sys2Proof.Machine.execAddiQ f s
  | .andiQ f => Sys2Proof.Machine.execAndiQ f s
  | .oriQ f => Sys2Proof.Machine.execOriQ f s
  | .xoriQ f => Sys2Proof.Machine.execXoriQ f s
  | .shliQ f => Sys2Proof.Machine.execShliQ f s
  | .shriQ f => Sys2Proof.Machine.execShriQ f s
  | .sraiQ f => Sys2Proof.Machine.execSraiQ f s
  | .cmpeqQ f => Sys2Proof.Machine.execCmpeqQ f s
  | .cmpneQ f => Sys2Proof.Machine.execCmpneQ f s
  | .cmpltQ f => Sys2Proof.Machine.execCmpltQ f s
  | .cmpgeQ f => Sys2Proof.Machine.execCmpgeQ f s
  | .cmpltuQ f => Sys2Proof.Machine.execCmpltuQ f s
  | .cmpgeuQ f => Sys2Proof.Machine.execCmpgeuQ f s
  | .cmpleQ f => Sys2Proof.Machine.execCmpleQ f s
  | .cmpgtQ f => Sys2Proof.Machine.execCmpgtQ f s
  | .movq f => Sys2Proof.Machine.execMovq f s
  | .movg f => Sys2Proof.Machine.execMovg f s
  | .pand f => Sys2Proof.Machine.execPand f s
  | .por f => Sys2Proof.Machine.execPor f s
  | .pxor f => Sys2Proof.Machine.execPxor f s
  | .pnot f => Sys2Proof.Machine.execPnot f s
  | .li f => Sys2Proof.Machine.execLi f s
  | .br f => Sys2Proof.Machine.execBr f s
  | .jmp f => Sys2Proof.Machine.execJmp f s
  | .jal f => Sys2Proof.Machine.execJal f s
  | .brl f => Sys2Proof.Machine.execBrl f s
  | .addG f => Sys2Proof.Machine.execAddG f s
  | .subG f => Sys2Proof.Machine.execSubG f s
  | .andG f => Sys2Proof.Machine.execAndG f s
  | .orG f => Sys2Proof.Machine.execOrG f s
  | .xorG f => Sys2Proof.Machine.execXorG f s
  | .andnG f => Sys2Proof.Machine.execAndnG f s
  | .shlG f => Sys2Proof.Machine.execShlG f s
  | .shrG f => Sys2Proof.Machine.execShrG f s
  | .sraG f => Sys2Proof.Machine.execSraG f s
  | .minG f => Sys2Proof.Machine.execMinG f s
  | .maxG f => Sys2Proof.Machine.execMaxG f s
  | .minuG f => Sys2Proof.Machine.execMinuG f s
  | .maxuG f => Sys2Proof.Machine.execMaxuG f s
  | .mulG f => Sys2Proof.Machine.execMulG f s
  | .movG f => Sys2Proof.Machine.execMovG f s
  | .mulhG f => Sys2Proof.Machine.execMulhG f s
  | .mulhuG f => Sys2Proof.Machine.execMulhuG f s
  | .divG f => Sys2Proof.Machine.execDivG f s
  | .divuG f => Sys2Proof.Machine.execDivuG f s
  | .remG f => Sys2Proof.Machine.execRemG f s
  | .remuG f => Sys2Proof.Machine.execRemuG f s
  | .rotG f => Sys2Proof.Machine.execRotG f s
  | .clzG f => Sys2Proof.Machine.execClzG f s
  | .ctzG f => Sys2Proof.Machine.execCtzG f s
  | .popcG f => Sys2Proof.Machine.execPopcG f s
  | .sextG f => Sys2Proof.Machine.execSextG f s
  | .zextG f => Sys2Proof.Machine.execZextG f s
  | .bfxG f => Sys2Proof.Machine.execBfxG f s
  | .bfiG f => Sys2Proof.Machine.execBfiG f s
  | .selG f => Sys2Proof.Machine.execSelG f s
  | .addiG f => Sys2Proof.Machine.execAddiG f s
  | .andiG f => Sys2Proof.Machine.execAndiG f s
  | .oriG f => Sys2Proof.Machine.execOriG f s
  | .xoriG f => Sys2Proof.Machine.execXoriG f s
  | .shliG f => Sys2Proof.Machine.execShliG f s
  | .shriG f => Sys2Proof.Machine.execShriG f s
  | .sraiG f => Sys2Proof.Machine.execSraiG f s
  | .addL f => Sys2Proof.Machine.execAddL f s
  | .subL f => Sys2Proof.Machine.execSubL f s
  | .andL f => Sys2Proof.Machine.execAndL f s
  | .orL f => Sys2Proof.Machine.execOrL f s
  | .xorL f => Sys2Proof.Machine.execXorL f s
  | .andnL f => Sys2Proof.Machine.execAndnL f s
  | .shlL f => Sys2Proof.Machine.execShlL f s
  | .shrL f => Sys2Proof.Machine.execShrL f s
  | .sraL f => Sys2Proof.Machine.execSraL f s
  | .minL f => Sys2Proof.Machine.execMinL f s
  | .maxL f => Sys2Proof.Machine.execMaxL f s
  | .minuL f => Sys2Proof.Machine.execMinuL f s
  | .maxuL f => Sys2Proof.Machine.execMaxuL f s
  | .mulL f => Sys2Proof.Machine.execMulL f s
  | .mulhL f => Sys2Proof.Machine.execMulhL f s
  | .mulhuL f => Sys2Proof.Machine.execMulhuL f s
  | .divL f => Sys2Proof.Machine.execDivL f s
  | .divuL f => Sys2Proof.Machine.execDivuL f s
  | .remL f => Sys2Proof.Machine.execRemL f s
  | .remuL f => Sys2Proof.Machine.execRemuL f s
  | .rotL f => Sys2Proof.Machine.execRotL f s
  | .sextL f => Sys2Proof.Machine.execSextL f s
  | .zextL f => Sys2Proof.Machine.execZextL f s
  | .selL f => Sys2Proof.Machine.execSelL f s
  | .cmpeqG f immForm => Sys2Proof.Machine.execCmpeqG f immForm s
  | .cmpneG f immForm => Sys2Proof.Machine.execCmpneG f immForm s
  | .cmpltG f immForm => Sys2Proof.Machine.execCmpltG f immForm s
  | .cmpgeG f immForm => Sys2Proof.Machine.execCmpgeG f immForm s
  | .cmpltuG f immForm => Sys2Proof.Machine.execCmpltuG f immForm s
  | .cmpgeuG f immForm => Sys2Proof.Machine.execCmpgeuG f immForm s
  | .cmpleG f immForm => Sys2Proof.Machine.execCmpleG f immForm s
  | .cmpgtG f immForm => Sys2Proof.Machine.execCmpgtG f immForm s
  | .fadd f => Sys2Proof.Machine.execFadd f s
  | .fsub f => Sys2Proof.Machine.execFsub f s
  | .fmul f => Sys2Proof.Machine.execFmul f s
  | .fma f => Sys2Proof.Machine.execFma f s
  | .fmin f => Sys2Proof.Machine.execFmin f s
  | .fmax f => Sys2Proof.Machine.execFmax f s
  | .fsgn f => Sys2Proof.Machine.execFsgn f s
  | .fcmp f => Sys2Proof.Machine.execFcmp f s
  | .fcvt f => Sys2Proof.Machine.execFcvt f s
  | .frcp f => Sys2Proof.Machine.execFrcp f s
  | .frsq f => Sys2Proof.Machine.execFrsq f s
  | .frcps f => Sys2Proof.Machine.execFrcps f s
  | .frsqs f => Sys2Proof.Machine.execFrsqs f s
  | .fexp2 f => Sys2Proof.Machine.execFexp2 f s
  | .flog2 f => Sys2Proof.Machine.execFlog2 f s
  | .mfs f => Sys2Proof.Machine.execMfs f s
  | .mts f => Sys2Proof.Machine.execMts f s
  | .mfc f => Sys2Proof.Machine.execMfc f s
  | .mtc f => Sys2Proof.Machine.execMtc f s
  | .ld f => Sys2Proof.Machine.execLd f s
  | .st f => Sys2Proof.Machine.execSt f s
  | .lda f => Sys2Proof.Machine.execLda f s
  | .stl f => Sys2Proof.Machine.execStl f s
  | .amoadd f => Sys2Proof.Machine.execAmoadd f s
  | .amoand f => Sys2Proof.Machine.execAmoand f s
  | .amoor f => Sys2Proof.Machine.execAmoor f s
  | .amoxor f => Sys2Proof.Machine.execAmoxor f s
  | .amomin f => Sys2Proof.Machine.execAmomin f s
  | .amomax f => Sys2Proof.Machine.execAmomax f s
  | .amoswp f => Sys2Proof.Machine.execAmoswp f s
  | .amocas f => Sys2Proof.Machine.execAmocas f s
  | .fence f => Sys2Proof.Machine.execFence f s
  | .cflush f => Sys2Proof.Machine.execCflush f s
  | .icinv f => Sys2Proof.Machine.execIcinv f s
  | .prf f => Sys2Proof.Machine.execPrf f s
  | .ldp f => Sys2Proof.Machine.execLdp f s
  | .stp f => Sys2Proof.Machine.execStp f s
  | .jalr f => Sys2Proof.Machine.execJalr f s
  | .loop f => Sys2Proof.Machine.execLoop f s
  | .sigdef f => Sys2Proof.Machine.execSigdef f s
  | .sigdrop f => Sys2Proof.Machine.execSigdrop f s
  | .tapld f => Sys2Proof.Machine.execTapld f s
  | .tapst f => Sys2Proof.Machine.execTapst f s
  | .tapstTick f => Sys2Proof.Machine.execTapstTick f s
  | .sighead f => Sys2Proof.Machine.execSighead f s
  | .sigrst f => Sys2Proof.Machine.execSigrst f s
  | .sigseal f => Sys2Proof.Machine.execSigseal f s
  | .sigevict f => Sys2Proof.Machine.execSigevict f s
  | .sigpos f => Sys2Proof.Machine.execSigpos f s
  | .sctx f => Sys2Proof.Machine.execSctx f s
  | .push f => Sys2Proof.Machine.execPush f s
  | .wait f => Sys2Proof.Machine.execWait f s
  | .tlread f => Sys2Proof.Machine.execTlread f s
  | .fork f => Sys2Proof.Machine.execFork f s
  | .rdv f => Sys2Proof.Machine.execRdv f s
  | .evset f => Sys2Proof.Machine.execEvset f s
  | .evpulse f => Sys2Proof.Machine.execEvpulse f s
  | .wfe f => Sys2Proof.Machine.execWfe f s
  | .sbind f => Sys2Proof.Machine.execSbind f s
  | .spawn f => Sys2Proof.Machine.execSpawn f s
  | .join f => Sys2Proof.Machine.execJoin f s
  | .joinBatch f => Sys2Proof.Machine.execJoinBatch f s
  | .gbar f => Sys2Proof.Machine.execGbar f s
  | .budget f => Sys2Proof.Machine.execBudget f s
  | .eqpush f => Sys2Proof.Machine.execEqpush f s
  | .eqcfg f => Sys2Proof.Machine.execEqcfg f s
  | .eqfire f => Sys2Proof.Machine.execEqfire f s
  | .eqpop f => Sys2Proof.Machine.execEqpop f s
  | .eqstat f => Sys2Proof.Machine.execEqstat f s
  | .gfstep f => Sys2Proof.Machine.execGfstep f s
  | .gfstepSet f => Sys2Proof.Machine.execGfstepSet f s
  | .gfmask f => Sys2Proof.Machine.execGfmask f s
  | .rply f => Sys2Proof.Machine.execRply f s
  | .rplyTake f => Sys2Proof.Machine.execRplyTake f s
  | .embld f => Sys2Proof.Machine.execEmbld f s
  | .vrandk f => Sys2Proof.Machine.execVrandk f s
  | .tld f => Sys2Proof.Machine.execTld f s
  | .tst f => Sys2Proof.Machine.execTst f s
  | .mma f => Sys2Proof.Machine.execMma f s
  | .mmaz f => Sys2Proof.Machine.execMmaz f s
  | .scld f => Sys2Proof.Machine.execScld f s
  | .nestgo f => Sys2Proof.Machine.execNestgo f s
  | .accmov f => Sys2Proof.Machine.execAccmov f s
  | .accz f => Sys2Proof.Machine.execAccz f s
  | .tidset f => Sys2Proof.Machine.execTidset f s
  | .tidinv f => Sys2Proof.Machine.execTidinv f s
  | .trap f => Sys2Proof.Machine.execTrap f s
  | .bkpt f => Sys2Proof.Machine.execBkpt f s
  | .tlbinv f => Sys2Proof.Machine.execTlbinv f s
  | .liw f => Sys2Proof.Machine.execLiw f s
  | .jmpl f => Sys2Proof.Machine.execJmpl f s
  | .vshape f => Sys2Proof.Machine.execVshape f s
  | .fli f => Sys2Proof.Machine.execFli f s
  | .vadd f => Sys2Proof.Machine.execVadd f s
  | .vsub f => Sys2Proof.Machine.execVsub f s
  | .vmul f => Sys2Proof.Machine.execVmul f s
  | .vfma f => Sys2Proof.Machine.execVfma f s
  | .vmac f => Sys2Proof.Machine.execVmac f s
  | .vmin f => Sys2Proof.Machine.execVmin f s
  | .vmax f => Sys2Proof.Machine.execVmax f s
  | .vabs f => Sys2Proof.Machine.execVabs f s
  | .vneg f => Sys2Proof.Machine.execVneg f s
  | .vand f => Sys2Proof.Machine.execVand f s
  | .vor f => Sys2Proof.Machine.execVor f s
  | .vxor f => Sys2Proof.Machine.execVxor f s
  | .vshl f => Sys2Proof.Machine.execVshl f s
  | .vshr f => Sys2Proof.Machine.execVshr f s
  | .vsra f => Sys2Proof.Machine.execVsra f s
  | .vcvt f => Sys2Proof.Machine.execVcvt f s
  | .vsel f => Sys2Proof.Machine.execVsel f s
  | .vcmp f => Sys2Proof.Machine.execVcmp f s
  | .vrcp f => Sys2Proof.Machine.execVrcp f s
  | .vrsq f => Sys2Proof.Machine.execVrsq f s
  | .vexp f => Sys2Proof.Machine.execVexp f s
  | .vlog f => Sys2Proof.Machine.execVlog f s
  | .vtanh f => Sys2Proof.Machine.execVtanh f s
  | .vsum f => Sys2Proof.Machine.execVsum f s
  | .vmaxr f => Sys2Proof.Machine.execVmaxr f s
  | .vdraw f => Sys2Proof.Machine.execVdraw f s
  | .vdrawm f => Sys2Proof.Machine.execVdrawm f s
  | .vscan f => Sys2Proof.Machine.execVscan f s
  | .vpopc f => Sys2Proof.Machine.execVpopc f s
  | .vdot f => Sys2Proof.Machine.execVdot f s
  | .vrand f => Sys2Proof.Machine.execVrand f s
  | .vcopy f => Sys2Proof.Machine.execVcopy f s
  | .vfill f => Sys2Proof.Machine.execVfill f s
  | .vgather f => Sys2Proof.Machine.execVgather f s
  | .vscatter f => Sys2Proof.Machine.execVscatter f s
  | .vperm f => Sys2Proof.Machine.execVperm f s
  | .vexpand f => Sys2Proof.Machine.execVexpand f s
  | .vfir f => Sys2Proof.Machine.execVfir f s
  | .cspush f => Sys2Proof.Machine.execCspush f s
  | .cspop f => Sys2Proof.Machine.execCspop f s
  | .csroute f => Sys2Proof.Machine.execCsroute f s
  | .nop => Sys2Proof.Machine.execNop s
  | .mark => Sys2Proof.Machine.execMark s
  | .fbar => Sys2Proof.Machine.execFbar s
  | .tick => Sys2Proof.Machine.execTick s
  | .yield => Sys2Proof.Machine.execYield s
  | .done => Sys2Proof.Machine.execDone s
  | .eret => Sys2Proof.Machine.execEret s
  | .powerInputApplied => Sys2Proof.Machine.execPowerInputApplied s
  | .coolantOkAsserted => Sys2Proof.Machine.execCoolantOkAsserted s
  | .railSequenceStep up => Sys2Proof.Machine.execRailSequenceStep up s
  | .selfTestDone t => Sys2Proof.Machine.execSelfTestDone t s
  | .perstRelease => Sys2Proof.Machine.execPerstRelease s
  | .railFault row => Sys2Proof.Machine.execRailFault row s
  | .throttleUp => Sys2Proof.Machine.execThrottleUp s
  | .throttleDown => Sys2Proof.Machine.execThrottleDown s
  | .thermalTrip => Sys2Proof.Machine.execThermalTrip s
  | .hbmSiteHot site => Sys2Proof.Machine.execHbmSiteHot site s
  | .hbmThermalRetirement site unit => Sys2Proof.Machine.execHbmThermalRetirement site unit s
  | .sensorRefresh r => Sys2Proof.Machine.execSensorRefresh r s
  | .bootRomCheck => Sys2Proof.Machine.execBootRomCheck s
  | .readSensors => Sys2Proof.Machine.execReadSensors s
  | .readModstat => Sys2Proof.Machine.execReadModstat s
  | .readCapacity => Sys2Proof.Machine.execReadCapacity s
  | .setPowerLimit args => Sys2Proof.Machine.execSetPowerLimit args s
  | .fwStage args => Sys2Proof.Machine.execFwStage args s
  | .fwActivate args => Sys2Proof.Machine.execFwActivate args s
  | .flashWriteDone => Sys2Proof.Machine.execFlashWriteDone s
  | .eventLog => Sys2Proof.Machine.execEventLog s
  | .mailboxUnknownCommand code => Sys2Proof.Machine.execMailboxUnknownCommand code s
  | .mailboxResponseRead => Sys2Proof.Machine.execMailboxResponseRead s
  | .recoveryStage => Sys2Proof.Machine.execRecoveryStage s
  | .recoveryStageDone => Sys2Proof.Machine.execRecoveryStageDone s
  | .recoveryCommit => Sys2Proof.Machine.execRecoveryCommit s
  | .patrolScrub corrected uncorrectable => Sys2Proof.Machine.execPatrolScrub corrected uncorrectable s
  | .remapRequest reason site unit => Sys2Proof.Machine.execRemapRequest reason site unit s
  | .rmctlWrite pf value => Sys2Proof.Machine.execRmctlWrite pf value s
  | .remapPublish => Sys2Proof.Machine.execRemapPublish s
  | .coreFence core => Sys2Proof.Machine.execCoreFence core s
  | .htrWrite port ring value => Sys2Proof.Machine.execHtrWrite port ring value s
  | .lmapWrite port rx value => Sys2Proof.Machine.execLmapWrite port rx value s
  | .parkWrite port value => Sys2Proof.Machine.execParkWrite port value s
  | .portIdlePark queue => Sys2Proof.Machine.execPortIdlePark queue s
  | .portWakeTrigger queue => Sys2Proof.Machine.execPortWakeTrigger queue s
  | .wakeLockEnd port ring => Sys2Proof.Machine.execWakeLockEnd port ring s
  | .wakeComplete port => Sys2Proof.Machine.execWakeComplete port s
  | .markerReceived port r => Sys2Proof.Machine.execMarkerReceived port r s
  | .ringLockLoss port lane => Sys2Proof.Machine.execRingLockLoss port lane s
  | .lanePause port r => Sys2Proof.Machine.execLanePause port r s
  | .data port r => Sys2Proof.Machine.execData port r s
  | .ack port r => Sys2Proof.Machine.execAck port r s
  | .nak port r => Sys2Proof.Machine.execNak port r s
  | .portDownTimeout port => Sys2Proof.Machine.execPortDownTimeout port s
  | .withdraw ctx group module context => Sys2Proof.Machine.execWithdraw ctx group module context s
  | .form ctx tower peers => Sys2Proof.Machine.execForm ctx tower peers s
  | .formTimeout ctx tower => Sys2Proof.Machine.execFormTimeout ctx tower s
  | .allreduce ctx tower peers => Sys2Proof.Machine.execAllreduce ctx tower peers s
  | .allgather ctx tower peers => Sys2Proof.Machine.execAllgather ctx tower peers s
  | .redscatter ctx tower peers => Sys2Proof.Machine.execRedscatter ctx tower peers s
  | .alltoall ctx tower peers => Sys2Proof.Machine.execAlltoall ctx tower peers s
  | .drawmerge ctx tower peers => Sys2Proof.Machine.execDrawmerge ctx tower peers s
  | .collectiveBadOp ctx tower => Sys2Proof.Machine.execCollectiveBadOp ctx tower s
  | .collectiveComplete ctx tower => Sys2Proof.Machine.execCollectiveComplete ctx tower s
  | .functionLevelReset ctx => Sys2Proof.Machine.execFunctionLevelReset ctx s
  | .pfReset => Sys2Proof.Machine.execPfReset s
  | .queueEnable ctx queue value => Sys2Proof.Machine.execQueueEnable ctx queue value s
  | .queueResume ctx queue => Sys2Proof.Machine.execQueueResume ctx queue s
  | .queueAbort ctx queue => Sys2Proof.Machine.execQueueAbort ctx queue s
  | .queueDrain ctx write => Sys2Proof.Machine.execQueueDrain ctx write s
  | .kick ctx queue value => Sys2Proof.Machine.execKick ctx queue value s
  | .kickRefetch ctx queue => Sys2Proof.Machine.execKickRefetch ctx queue s
  | .packetFetchResponse ctx queue => Sys2Proof.Machine.execPacketFetchResponse ctx queue s
  | .launch ctx queue number => Sys2Proof.Machine.execLaunch ctx queue number s
  | .launchUnitCreate ctx queue number => Sys2Proof.Machine.execLaunchUnitCreate ctx queue number s
  | .copy ctx queue number => Sys2Proof.Machine.execCopy ctx queue number s
  | .tlwait ctx queue number => Sys2Proof.Machine.execTlwait ctx queue number s
  | .tlwaitSatisfied ctx queue number => Sys2Proof.Machine.execTlwaitSatisfied ctx queue number s
  | .tlsignal ctx queue number => Sys2Proof.Machine.execTlsignal ctx queue number s
  | .mapupdate ctx queue number => Sys2Proof.Machine.execMapupdate ctx queue number s
  | .fencePacket ctx queue number => Sys2Proof.Machine.execFencePacket ctx queue number s
  | .nopkt ctx queue number => Sys2Proof.Machine.execNopkt ctx queue number s
  | .packetComplete ctx queue number => Sys2Proof.Machine.execPacketComplete ctx queue number s
  | .swtWrite ctx n value => Sys2Proof.Machine.execSwtWrite ctx n value s
  | .crheadWrite ctx value => Sys2Proof.Machine.execCrheadWrite ctx value s
  | .trheadWrite ctx ring value => Sys2Proof.Machine.execTrheadWrite ctx ring value s
  | .itheadWrite ctx value => Sys2Proof.Machine.execItheadWrite ctx value s
  | .crctlWrite ctx value => Sys2Proof.Machine.execCrctlWrite ctx value s
  | .trctlWrite ctx ring value => Sys2Proof.Machine.execTrctlWrite ctx ring value s
  | .itctlWrite ctx value => Sys2Proof.Machine.execItctlWrite ctx value s
  | .dtctlWrite ctx value => Sys2Proof.Machine.execDtctlWrite ctx value s
  | .tokenRingTimer ctx ring => Sys2Proof.Machine.execTokenRingTimer ctx ring s
  | .fresResume ctx => Sys2Proof.Machine.execFresResume ctx s
  | .fresFail ctx => Sys2Proof.Machine.execFresFail ctx s
  | .fresSkip ctx => Sys2Proof.Machine.execFresSkip ctx s
  | .fresKill ctx => Sys2Proof.Machine.execFresKill ctx s
  | .gfbaseWrite ctx value => Sys2Proof.Machine.execGfbaseWrite ctx value s
  | .bar2Read ctx offset bytes => Sys2Proof.Machine.execBar2Read ctx offset bytes s
  | .bar2Write ctx offset data => Sys2Proof.Machine.execBar2Write ctx offset data s
  | .atsInvalidation ctx address length => Sys2Proof.Machine.execAtsInvalidation ctx address length s
  | .priResponse ctx success => Sys2Proof.Machine.execPriResponse ctx success s
  | .registerWrite where_ value => Sys2Proof.Machine.execRegisterWrite where_ value s
  | .walkComplete core stream => Sys2Proof.Machine.execWalkComplete core stream s
  | .migrate ctx tower => Sys2Proof.Machine.execMigrate ctx tower s
  | .exchange ctx tower => Sys2Proof.Machine.execExchange ctx tower s
  | .promote ctx tower => Sys2Proof.Machine.execPromote ctx tower s
  | .swapBadOp ctx tower => Sys2Proof.Machine.execSwapBadOp ctx tower s
  | .swapComplete ctx tower => Sys2Proof.Machine.execSwapComplete ctx tower s
  | .schedulerRound => Sys2Proof.Machine.execSchedulerRound s
  | .sliceStart ctx index => Sys2Proof.Machine.execSliceStart ctx index s
  | .checkpointComplete ctx index => Sys2Proof.Machine.execCheckpointComplete ctx index s
  | .bucketRefill ctx => Sys2Proof.Machine.execBucketRefill ctx s
  | .deadlineMiss ctx index => Sys2Proof.Machine.execDeadlineMiss ctx index s
  | .budgetExhausted ctx index => Sys2Proof.Machine.execBudgetExhausted ctx index s
  | .handlerAllowanceExhausted ctx => Sys2Proof.Machine.execHandlerAllowanceExhausted ctx s
  | .regionFirstTouch core region => Sys2Proof.Machine.execRegionFirstTouch core region s
  | .regionTransferDone core region => Sys2Proof.Machine.execRegionTransferDone core region s
  | .geyserRound tower => Sys2Proof.Machine.execGeyserRound tower s
  | .fetchLine core stream => Sys2Proof.Machine.execFetchLine core stream s
  | .loadDataReturn core stream => Sys2Proof.Machine.execLoadDataReturn core stream s
  | .writebackLand core stream => Sys2Proof.Machine.execWritebackLand core stream s
  | .copyCmd core number => Sys2Proof.Machine.execCopyCmd core number s
  | .tileCmd core number => Sys2Proof.Machine.execTileCmd core number s
  | .fillCmd core number => Sys2Proof.Machine.execFillCmd core number s
  | .feedCmd core number => Sys2Proof.Machine.execFeedCmd core number s
  | .copyCmdComplete core number => Sys2Proof.Machine.execCopyCmdComplete core number s
  | .grammarStep tower => Sys2Proof.Machine.execGrammarStep tower s
  | .grammarMask tower => Sys2Proof.Machine.execGrammarMask tower s
  | .grammarSet tower => Sys2Proof.Machine.execGrammarSet tower s
  | .nestDrain core engine => Sys2Proof.Machine.execNestDrain core engine s
  | .nestComplete core engine => Sys2Proof.Machine.execNestComplete core engine s
  | .deepBlockReadDone core stream => Sys2Proof.Machine.execDeepBlockReadDone core stream s
  | .haltQuiescence ctx => Sys2Proof.Machine.execHaltQuiescence ctx s
  | .traceSync core => Sys2Proof.Machine.execTraceSync core s
  | .timelineWaitRelease core stream => Sys2Proof.Machine.execTimelineWaitRelease core stream s
  | .gateWaitRelease core stream => Sys2Proof.Machine.execGateWaitRelease core stream s
  | .frontWaitRelease core stream => Sys2Proof.Machine.execFrontWaitRelease core stream s
  | .powerInputLost => Sys2Proof.Machine.execPowerInputLost s
  | .uncorrectable core stream => Sys2Proof.Machine.execUncorrectable core stream s
  | .ringLockChange port change => Sys2Proof.Machine.execRingLockChange port change s
  | .sealedBlockWriteDone core stream => Sys2Proof.Machine.execSealedBlockWriteDone core stream s
  | .vectorUnmask function vector => Sys2Proof.Machine.execVectorUnmask function vector s
  | .pctlWrite port value => Sys2Proof.Machine.execPctlWrite port value s
  | .sramRowSparing core bank => Sys2Proof.Machine.execSramRowSparing core bank s
  | .atsTranslationCompletion ctx page target => Sys2Proof.Machine.execAtsTranslationCompletion ctx page target s

end Sys2Proof.Machine
end

