-- ==== Sys2Proof/Machine/Step.lean ====
section
/-! DEFINITION. One step: the next move of the agenda, an issue of a stream or an event; with no move listed, what is due
by itself, else the next running stream in turn, else the passing of time (assumption 1). And the placing of one
instruction where the next step fetches it. -/

namespace Sys2Proof.Machine

/-- A stream issues: its cycle passes, write-backs due land, its instruction is fetched and executed. -/
def issue (s : State) (core stream : Nat) : Host.Outcome State Fault Refusal :=
  let s := begin s core stream
  match fetchInstr s with
  | (s, .ok (g, i)) => exec i { s with guard := g }
  | (s, .error e) => .next (trapAs false { s with guard := {} } e)

/-- Stream `n` of core `c` issues, if it may. -/
def issueOf (s : State) (c n : Nat) : Host.Outcome State Fault Refusal :=
  if (coreOf s c).slice.isNone then .fault .noSlice
  else if canIssue s c n then issue s c n
  else .next (if clockRuns s then tick s c else passTime s)

/-- One step of the machine. -/
def step (s : State) : Host.Outcome State Fault Refusal :=
  match s.agenda with
  | .event i :: rest =>
    let s := { s with agenda := rest, guard := {} }
    eventOf s (agentOf i) (exec i s)
  | .issue c n :: rest => issueOf { s with agenda := rest } c n
  | [] =>
    match due s with
    | some t => .next t
    | none =>
      match nextStream s with
      | some (c, n) => issueOf s c n
      | none => .next (idle s)

/-- The state in which the next step fetches and runs exactly this instruction (assumption 37). -/
def State.withFetchWord (s : State) (nbits w : Nat) : State := placeWord s nbits w

end Sys2Proof.Machine
end

