-- ==== Sys2Proof/Safety.lean ====
section
/-! DEFINITION. What the statements call safe: a machine whose memory is canonical, and a step that answers a next
state. -/

namespace Sys2Proof

/-- The memory of a state is in its canonical form. -/
def Canonical (s : Machine.State) : Prop := s.mem.wf = true

/-- The machine's next step answers a next state: no fault, no refusal. -/
def Advances (s : Machine.State) : Prop := ∃ t, Machine.step s = .next t

/-- An instruction completes at a state: `exec` answers a next state. -/
def Completes (i : Instr) (s : Machine.State) : Prop := ∃ t, Machine.exec i s = .next t

end Sys2Proof
end

