-- ==== Sys2Proof/Certificates/Slice0/Obligations.lean ====
section
/-! DEFINITION. The statements for the provers. -/

namespace Sys2Proof.Slice0
open Sys2Proof.Machine

/-- The last entry of the event log: time, 0 before MTIME starts, code and detail (R26). -/
def logged (s t : State) (code detail : Nat) : Prop :=
  t.module.log.getLast? =
    some (toBytes 8 (if s.module.started then s.mtime else 0) ++ toBytes 2 code ++ toBytes 2 detail)

/-- Every context has room for one more item record to wait (R166): no instruction stalls before a record it must post.
-/
abbrev roomForItems (s : State) : Prop := ∀ x, (ctxOf s x).itwait.length < itemRoom

/-- A byte that a state reads at a key of the one address space. -/
abbrev byteAt (s : State) (a : Nat) : Byte := readByte s.mem a

/-- A BAR2 access as it arrives, with the core by whose TLB it is translated (R50). -/
def windowCalled (s : State) (offset n : Nat) (data : Option (List (BitVec 8))) : WindowOp :=
  { offset := offset, bytes := n, data := data, via := (drawWord s).1.toNat % Config.cores }

/-- The state in which it stands alone in its context's window. -/
def withWindow (s : State) (ctx offset n : Nat) (data : Option (List (BitVec 8))) : State :=
  onCtx (drawWord s).2 ctx fun c => { c with window := [windowCalled s offset n data] }

/-- A context's group ends with LINK_FAILED when a member lies behind a port (R45). -/
def endBehind (port ctx : Nat) (s : State) (g : Nat × Group) : State :=
  if !g.2.dead && g.2.members.any (fun m => m.1 != s.module.modid.toNat && routeOf s m.1 == some port) then
    endGroup s ctx g.1 0x54
  else s

/-- A group all of whose other members lie on other modules: what a collective of a context takes into account (R42,
R43). -/
def aloneHere (s : State) (ctx : Nat) (ms : List (Nat × Nat)) : Prop :=
  ms.Nodup ∧ (s.module.modid.toNat, ctx) ∈ ms ∧ ∀ m ∈ ms, m.1 = s.module.modid.toNat → m.2 = ctx

/-- The members' commands and sources of a collective, in ring order, this member's own among them (R42, R43). -/
def ringOrder (n own : Nat) (im src : List Byte) (cs : List Contribution) : List (List Byte × List Byte) :=
  (List.range n).map fun j =>
    if j == own then (im, src)
    else match cs.find? fun p => p.member == j with
      | some p => (p.command, p.data)
      | none => (im, [])

/-- Member 0's uniforms (R44). -/
def memberUniforms (own : Nat) (u : List Byte) (cs : List Contribution) : List Byte :=
  if own == 0 then u else match cs.find? fun p => p.member == 0 with
    | some p => p.uniforms
    | none => []

/-- The state as the copy engine of a core makes the accesses of a command in it that keeps some leaves (R87). -/
abbrev onEngine (s : State) (core : Nat) (leaves : List TlbEntry) : State :=
  onCore { s with curCore := core, curStream := 7 } core fun k => { k with copyLeaves := leaves }

/-- The copy engine of a core reaches `n` bytes of one side: they translate, every core-store region of them is there,
and none lies in a port window. -/
def engineReaches (s : State) (core : Nat) (leaves : List TlbEntry) (kind : Nat) (cs : Bool) (a n : Nat) : Prop :=
  ∃ ps, places (onEngine s core leaves) kind (sideEa cs a) n = .ok (ps, onEngine s core leaves) ∧
    ∀ p ∈ ps, ∀ o, p.1 ≠ .bar0 o

/-- A command stands in a core's queue with its work over: all its bytes or elements done, and the status of clean or of
poisoned data. -/
def copyDone (t : State) (core number done : Nat) : Prop :=
  ∃ c, copyOf t core number = some c ∧ c.started = true ∧ c.done = done ∧ (c.status = some 0 ∨ c.status = some 0xA2)

/-- The queue that PUSH offers a command of an engine number to, at a target core, is full (R82, R114, R138, R140). -/
def queueFull (s : State) (engine c : Nat) : Prop :=
  match engine with
  | 0 => 64 ≤ (coreOf s c).copies.length
  | 1 => Config.engineDepth + 1 ≤ (look [] (ctxOf s (myCtx s)).swaps (towerOfCore c)).length
  | 2 => Config.engineDepth + 1 ≤ (look [] (ctxOf s (myCtx s)).cols (towerOfCore c)).length
  | 3 => 256 ≤ (towerOf s (towerOfCore c)).commands.length
  | _ => 256 ≤ (towerOf s (towerOfCore c)).gram.length

/-- The command a PUSH has put at the end of its queue, under the number it took (R138, R307). -/
def enqueued (s t : State) (engine c n : Nat) (im : List Byte) : Prop :=
  match engine with
  | 0 => (coreOf t c).copies = (coreOf s c).copies ++ [{ ctx := myCtx s, number := n, image := im }]
  | 1 => look [] (ctxOf t (myCtx s)).swaps (towerOfCore c) =
      look [] (ctxOf s (myCtx s)).swaps (towerOfCore c) ++ [{ number := n, core := s.curCore, image := im }]
  | 2 => look [] (ctxOf t (myCtx s)).cols (towerOfCore c) =
      look [] (ctxOf s (myCtx s)).cols (towerOfCore c) ++ [{ number := n, image := im, since := s.mtime }]
  | 3 => (towerOf t (towerOfCore c)).commands =
      (towerOf s (towerOfCore c)).commands ++ [{ geyserFrom (myCtx s) s.curCore im with number := n }]
  | _ => (towerOf t (towerOfCore c)).gram =
      (towerOf s (towerOfCore c)).gram ++ [grammarFrom (myCtx s) s.curCore (submitOn s s.curCore) im]

/-- The selector of the timeline whose numbers the commands of an engine number take (Table 7.2); the grammar engine's
take none. -/
def engineTimeline (engine : Nat) : Option Nat :=
  match engine with
  | 0 => some 7
  | 1 => some 9
  | 2 => some 8
  | 3 => some 10
  | _ => none

/-- A port after an event at time `now`: how long it has been down is kept or begins. -/
abbrev portSettled (now : Nat) (p : Port) : Port := settleDown now p

/-- The integer operations of two operands as Table 13.1 gives them, by their G form, L form where there is one, and Q
form where there is one. -/
def integerOps : List ((GFields → Instr) × Option (LFields → Instr) × Option (QFields → Instr) × (Word → Word →
  Word)) :=
  [(.addG, some .addL, some .addQ, fun a b => a + b), (.subG, some .subL, some .subQ, fun a b => a - b),
   (.andG, some .andL, some .andQ, fun a b => a &&& b), (.orG, some .orL, some .orQ, fun a b => a ||| b),
   (.xorG, some .xorL, some .xorQ, fun a b => a ^^^ b), (.andnG, some .andnL, some .andnQ, fun a b => a &&& ~~~b),
   (.shlG, some .shlL, some .shlQ, fun a b => a <<< (b.toNat % 64)),
   (.shrG, some .shrL, some .shrQ, fun a b => a >>> (b.toNat % 64)),
   (.sraG, some .sraL, some .sraQ, fun a b => a.sshiftRight (b.toNat % 64)),
   (.minG, some .minL, some .minQ, fun a b => if a.toInt ≤ b.toInt then a else b),
   (.maxG, some .maxL, some .maxQ, fun a b => if a.toInt ≤ b.toInt then b else a),
   (.minuG, some .minuL, some .minuQ, fun a b => if a.toNat ≤ b.toNat then a else b),
   (.maxuG, some .maxuL, some .maxuQ, fun a b => if a.toNat ≤ b.toNat then b else a),
   (.mulG, some .mulL, some .mulQ, fun a b => a * b),
   (.mulhG, some .mulhL, none, fun a b => BitVec.ofInt 64 (a.toInt * b.toInt / 2 ^ 64)),
   (.mulhuG, some .mulhuL, none, fun a b => BitVec.ofNat 64 (a.toNat * b.toNat / 2 ^ 64)),
   (.rotG, some .rotL, none, fun a b => a.rotateLeft (b.toNat % 64)),
   (.sextG, some .sextL, none, fun a b => BitVec.ofInt 64 (signed (b.toNat % 64 + 1) a.toNat)),
   (.zextG, some .zextL, none, fun a b => BitVec.ofNat 64 (a.toNat % 2 ^ (b.toNat % 64 + 1)))]

/-- The integer operations whose result depends on a alone (Table 13.1), G form. -/
def unaryOps : List ((GFields → Instr) × (Word → Word)) :=
  [(.movG, fun a => a), (.clzG, opClz), (.ctzG, opCtz), (.popcG, opPopc)]

/-- The operations with an immediate b: IMM18 in the G form, IMM6 in the Q form, both sign-extended. -/
def immediateOps : List ((GFields → Instr) × (QFields → Instr) × (Word → Word → Word)) :=
  [(.addiG, .addiQ, fun a b => a + b), (.andiG, .andiQ, fun a b => a &&& b), (.oriG, .oriQ, fun a b => a ||| b),
   (.xoriG, .xoriQ, fun a b => a ^^^ b), (.shliG, .shliQ, fun a b => a <<< (b.toNat % 64)),
   (.shriG, .shriQ, fun a b => a >>> (b.toNat % 64)), (.sraiG, .sraiQ, fun a b => a.sshiftRight (b.toNat % 64))]

/-- The conditions of Table 13.2, by their G form and Q form. -/
def compareOps : List ((GFields → Bool → Instr) × (QFields → Instr) × (Word → Word → Bool)) :=
  [(.cmpeqG, .cmpeqQ, fun a b => decide (a = b)), (.cmpneG, .cmpneQ, fun a b => decide (a ≠ b)),
   (.cmpltG, .cmpltQ, fun a b => decide (a.toInt < b.toInt)), (.cmpgeG, .cmpgeQ, fun a b => decide (b.toInt ≤ a.toInt)),
   (.cmpltuG, .cmpltuQ, fun a b => decide (a.toNat < b.toNat)),
   (.cmpgeuG, .cmpgeuQ, fun a b => decide (b.toNat ≤ a.toNat)),
   (.cmpleG, .cmpleQ, fun a b => decide (a.toInt ≤ b.toInt)), (.cmpgtG, .cmpgtQ, fun a b => decide (b.toInt < a.toInt))]

/-- The divisions of R272 by their G form and L form, with the value for b = 0. -/
def divideOps : List ((GFields → Instr) × (LFields → Instr) × (Word → Word → Word)) :=
  [(.divG, .divL, fun a b => if b = 0 then BitVec.allOnes 64 else BitVec.ofInt 64 (a.toInt.tdiv b.toInt)),
   (.divuG, .divuL, fun a b => if b = 0 then BitVec.allOnes 64 else BitVec.ofNat 64 (a.toNat / b.toNat)),
   (.remG, .remL, fun a b => if b = 0 then a else BitVec.ofInt 64 (a.toInt.tmod b.toInt)),
   (.remuG, .remuL, fun a b => if b = 0 then a else BitVec.ofNat 64 (a.toNat % b.toNat))]

/-- A register of the issuing stream written, in a state whose sources have been read and emptied. -/
abbrev written (s : State) (r : BitVec 8) (v : Word) : State := onMe s fun st => putReg st r v

/-- The register number of q(`n`). -/
abbrev qReg (n : BitVec 4) : BitVec 8 := BitVec.ofNat 8 (0x80 + n.toNat)

/-- The register number of c(`n`). -/
abbrev cReg (n : BitVec 4) : BitVec 8 := BitVec.ofNat 8 (0x90 + n.toNat)

/-- Empty the q sources of a Q-class instruction whose last use is marked. -/
def emptyQs (f : QFields) (two : Bool) (s : State) : State :=
  let s := if f.alast then emptyQ s f.a.toNat else s
  if two && f.blast then emptyQ s f.b.toNat else s

/-- The state after an instruction of `n` bytes that is predicated off (R253): it issues and emits no pulse. -/
def skipped (s : State) (n : Nat) : State := finish { s with guard := { s.guard with pulse := false } } n none

/-- An instruction that is predicated off: it skips as `t`, or waits as `ready` says. -/
def skips (s : State) (i : Instr) (t : State) (n : Nat) (ready : Act Unit) : Prop :=
  match ready with
  | .ok _ => exec i s = .next (skipped t n)
  | .error e => exec i s = .next (trapState s e)

end Sys2Proof.Slice0

open Sys2Proof Sys2Proof.Machine Sys2Proof.Slice0
open Host (Outcome)


/-- R11, R12, R18, R25, R26: input power restarts the rail sequence; COOLANT_OK is recorded; the rails step up one at a
time, 1 ms apart, while input power and COOLANT_OK stand, the fourth step starting MTIME (assumption 69); they step
down, and READY falls, once the module has tripped, as it does for a COOLANT_OK that is lost (R16), and not before (the
model's order, assumption 29); PERST# is released; a rail fault removes every rail, logs the row, halts every core that
runs a slice, and (the model's choice, assumption 29) leaves memory and registers as they were and makes READY fall
until a self-test has followed the new sequence. -/
def Sys2Proof.Slice0.RailsSequenceAndFault : Prop :=
  (∀ s : State, s.module.input = false →
    exec .powerInputApplied s =
      .next (onModule s fun m => { m with input := true, step := 0, stepTime := s.elapsed })) ∧
  (∀ s : State, exec .coolantOkAsserted s = .next (onModule s fun m => { m with coolant := true })) ∧
  (∀ s : State, s.module.input = true → s.module.coolant = true → s.module.tripped = false → s.module.step < 4 →
    s.module.stepTime + 1000000 ≤ s.elapsed →
    exec (.railSequenceStep true) s =
      .next (onModule s fun m => { m with
        step := m.step + 1, stepTime := s.elapsed, started := m.started || m.step == 3 })) ∧
  (∀ s : State, 0 < s.module.step → s.module.tripped = true →
    exec (.railSequenceStep false) s =
      .next (onModule s fun m => { m with step := m.step - 1, stepTime := s.elapsed, ready := false })) ∧
  (∀ s : State, s.module.tripped = false → exec (.railSequenceStep false) s = .next s) ∧
  (∀ s : State, exec .perstRelease s = .next (onModule s fun m => { m with perst := false })) ∧
  (∀ (s : State) (row : Nat), s.module.step = 4 → row < 8 →
    ∃ t, exec (.railFault row) s = .next t ∧ t.module.step = 0 ∧ t.module.ready = false ∧ t.module.input =
      s.module.input ∧ logged s t 0x0001 row ∧ t.mem = s.mem ∧ t.ctxs = s.ctxs ∧
      ∀ c, (coreOf s c).slice.isSome = true → (coreOf t c).halted = true)

/-- R11, R24 (and assumption 9): losing input power leaves the flash, host memory and the memory of peers, and nothing
else of the module: but for the flash and the COOLANT_OK pin, its own state (staging buffer, event log, recovery window,
mailbox, sensors) is that of the reset. -/
def Sys2Proof.Slice0.PowerLossClearsModule : Prop :=
  ∀ s : State, ∃ t, exec .powerInputLost s = .next t ∧ t.module.input = false ∧ t.module.step = 0 ∧
    t.module.ready = false ∧ t.module.staging = [] ∧
    t.module = { State.reset.module with
      coolant := s.module.coolant, flash := s.module.flash, flashLen := s.module.flashLen
      flashPartial := s.module.flashPartial } ∧ t.cores = [] ∧ t.towers = [] ∧ t.ports = [] ∧ t.ctxs = [] ∧
    (∀ a, a < 2 ^ 56 → byteAt t a = 0) ∧ ∀ a, 2 ^ 56 ≤ a → byteAt t a = byteAt s a

/-- R12, R14-R17, R25, R27: the end of the self-test, from an image that the boot ROM has checked, takes its findings
and raises READY; the throttle rises to its trigger level and falls to its held level, each logged; a sensor refresh
takes the readings and the COOLANT_OK pin (assumption 29) and sets the hot mark exactly when a site is above 85 °C; a
site above 85 °C sets it. That the reading 0xFFFF of a failed site sensor counts as above 85 °C in both is the model's
choice (assumption 4, DESIGN CHOICE), and so is how level 4 narrows a port (assumption 71, DESIGN CHOICE). -/
def Obligations.SelfTestThrottleAndSensors : Prop :=
  (∀ (s : State) (r : SelfTest), s.module.step = 4 → s.module.bootChecked = true → s.module.ready = false →
    ∃ t, exec (.selfTestDone r) s = .next t ∧ t.module.ready = true ∧ t.module.live = r.liveCores ∧
      t.module.spares = r.spares ∧ (∀ k v, k < 32 → r.bamap[k]? = some v → bamapOf t k = v.toNat) ∧
      (∀ i, i < 64 → portOf t i = restripe s.mtime s.module.level (testedPort r (portOf s i) i)) ∧ t.cores = s.cores ∧
        t.mem = s.mem ∧ t.ctxs = s.ctxs) ∧
  (∀ s : State, s.module.level < triggerLevel s →
    ∃ t, exec .throttleUp s = .next t ∧ t.module.level = triggerLevel s ∧ logged s t 0x0003 (triggerLevel s) ∧
      ∀ i, i < 64 → portOf t i = restripe s.mtime (triggerLevel s) (portOf s i)) ∧
  (∀ s : State, heldLevel s < s.module.level →
    ∃ t, exec .throttleDown s = .next t ∧ t.module.level = heldLevel s ∧ logged s t 0x0003 (heldLevel s)) ∧
  (∀ (s : State) (r : Readings),
    ∃ t, exec (.sensorRefresh r) s = .next t ∧ t.module.sensors = r ∧ t.module.level = s.module.level ∧
      t.module.coolant = r.coolant ∧ (∀ i v, i < 64 → r.tsens[i]? = some v → (portOf t i).tsens = v) ∧
      (t.module.hot = true ↔ ∃ k, k < 32 ∧ 1600 * 85 + 437040 < 100 * (r.site.getD k 0).toNat)) ∧
  (∀ (s : State) (site : Nat), site < 32 → 1600 * 85 + 437040 < 100 * (s.module.sensors.site.getD site 0).toNat →
    exec (.hbmSiteHot site) s = .next (onModule s fun m => { m with hot := true }))

/-- R16, R20, R21, R112: the first thermal trip is logged and takes every context, whose cores it halts (with which code
an operation in flight then reports its failed status is the model's free value, assumption 70); a core without a slice
is fenced at once in a new epoch, one with a slice is only marked; an SRAM row spared uses one spare of its bank and
nothing else. -/
def Obligations.TripFenceAndSparing : Prop :=
  (∀ s : State, s.module.input = true → s.module.tripped = false →
    (0 < s.module.step ∧ s.module.coolant = false) ∨ atLeast (hottest s) 120 = true →
    exec .thermalTrip s = .next ((List.range Config.contexts).foldl tripContext
      (logEvent (onModule s fun m => { m with tripped := true }) 0x0002 0))) ∧
  (∀ (s : State) (ctx c : Nat), c ∈ coresOf s ctx → (coreOf (tripContext s ctx) c).halted = true) ∧
  (∀ (s : State) (core : Nat), coreLive s core = true → (coreOf s core).slice = none →
    ∃ t, exec (.coreFence core) s = .next t ∧ coreLive t core = false ∧
      (∀ c, c ≠ core → coreLive t c = coreLive s c) ∧ t.module.epoch = s.module.epoch + 1 ∧ t.cores = s.cores) ∧
  (∀ (s : State) (core : Nat), coreLive s core = true → (coreOf s core).slice.isSome = true →
    ∃ t, exec (.coreFence core) s = .next t ∧ fenceMarked t core = true ∧ t.module.live = s.module.live) ∧
  (∀ (s : State) (core bank : Nat), core < 128 → bank < 64 → 0 < sparesOf s (64 * core + bank) →
    ∃ t, exec (.sramRowSparing core bank) s = .next t ∧
      sparesOf t (64 * core + bank) = sparesOf s (64 * core + bank) - 1 ∧
      (∀ b, b ≠ 64 * core + bank → sparesOf t b = sparesOf s b) ∧ t.module.live = s.module.live)

/-- R22, R23, R25, R26: a mailbox that is not busy answers MODSTAT, CAPACITY, the sensors and the log, takes a power
limit from 2000 to 3400 W and refuses any other, and refuses an unknown command; a busy one marks the refusal; a
response read gives the answer, or the refusal. That a request to a busy mailbox only marks the refusal, that the next
read then answers BUSY and keeps the pending response, and that SET_POWER_LIMIT takes arguments of any length are the
model's choices (assumption 28). -/
def Sys2Proof.Slice0.MailboxAnswersRequests : Prop :=
  (∀ s : State, s.module.input = true → mailboxBusy s = false →
    (exec .readModstat s = .next (answer s 0 (toBytes 4 (modstat s)))) ∧
    (exec .readCapacity s = .next (answer s 0 (toBytes 8 (capacity s) ++ toBytes 16 s.module.live.toNat))) ∧
    (∃ bs, exec .readSensors s = .next (answer s 0 bs) ∧ bs.length = 162 ∧
      (∀ i, i < 8 → imageAt bs (2 * i) 2 = (s.module.sensors.die.getD i 0).toNat ∧
        imageAt bs (16 + 2 * i) 2 = (s.module.sensors.towerCurrent.getD i 0).toNat) ∧
      (∀ i, i < 32 → imageAt bs (32 + 2 * i) 2 = (s.module.sensors.site.getD i 0).toNat ∧
        imageAt bs (96 + 2 * i) 2 = (s.module.sensors.siteCurrent.getD i 0).toNat) ∧
      imageAt bs 160 2 = s.module.sensors.power.toNat) ∧
    (∀ args, 2000 ≤ imageAt args 0 2 → imageAt args 0 2 ≤ 3400 →
      ∃ t, exec (.setPowerLimit args) s = .next (answer t 0 []) ∧ t.module.limit = imageAt args 0 2 ∧
        t.module.coolSince = coolTimes (onModule s fun m => { m with limit := imageAt args 0 2 }) ∧
        t.module.sensors = s.module.sensors ∧ t.module.level = s.module.level ∧ t.mem = s.mem) ∧
    (∀ args, imageAt args 0 2 < 2000 ∨ 3400 < imageAt args 0 2 →
      exec (.setPowerLimit args) s = .next (answer s 0x03 [])) ∧
    (∀ code : BitVec 8, code.toNat ∉ [0x01, 0x02, 0x03, 0x10, 0x20, 0x21, 0x30] →
      exec (.mailboxUnknownCommand code) s = .next (answer s 0x01 [])) ∧
    (s.module.logLost = 0 →
      exec .eventLog s = .next (answer (onModule s fun m => { m with log := m.log.drop 16, logLost := 0 }) 0
        (s.module.log.take 16).flatten))) ∧
  (∀ s : State, s.module.input = true → mailboxBusy s = true →
    ∀ i ∈ [Instr.readModstat, .readCapacity, .readSensors, .eventLog],
    exec i s = .next (onModule s fun m => { m with refused := true })) ∧
  (∀ (s : State) (r : List Byte), s.module.input = true → s.module.refused = false → s.module.response = some r →
    exec .mailboxResponseRead s = .next (onModule s fun m => { m with response := none, answer := r })) ∧
  (∀ s : State, s.module.input = true → s.module.refused = true →
    exec .mailboxResponseRead s =
      .next (onModule s fun m => { m with refused := false, answer := [0x02, 0x00] }))

/-- R24, R26-R28 (the signature check is free, assumption 11): FW_STAGE stores its 240 bytes, or answers 0x03 for a
wrong length or offset; FW_ACTIVATE of a covered image with the right CRC begins a flash write of it if its signature
passes, else answers 0x05, and answers 0x06 for a length or a byte never staged and 0x04 for another CRC; the end of the
write, when flash holds the whole image, is logged and answered; a boot check of a partial image enters recovery; the
recovery window stages RDATA at ROFS, the bytes beyond RLEN ignored, or fails with 0x06 for a wrong offset, and commits
such an image likewise, or fails with the check's code. That FW_ACTIVATE of another length than 8 answers 0x06 is the
model's choice (assumption 28, DESIGN CHOICE). -/
def Sys2Proof.Slice0.FirmwareAndRecovery : Prop :=
  (∀ (s : State) (args : List (BitVec 8)), s.module.input = true → mailboxBusy s = false → args.length = 244 →
    imageAt args 0 4 % 240 = 0 →
    imageAt args 0 4 + 240 ≤ 2 ^ 26 → Memory.wf s.module.staging = true →
    ∃ t, exec (.fwStage args) s = .next t ∧ t.module.response = some [0, 0] ∧
      readBytes t.module.staging (imageAt args 0 4) 240 = args.drop 4 ∧ t.module.flash = s.module.flash) ∧
  (∀ (s : State) (args : List (BitVec 8)), s.module.input = true → mailboxBusy s = false →
    args.length ≠ 244 ∨ imageAt args 0 4 % 240 ≠ 0 ∨ 2 ^ 26 ≤ imageAt args 0 4 →
    exec (.fwStage args) s = .next (answer s 0x03 [])) ∧
  (∀ (s : State) (args : List (BitVec 8)), s.module.input = true → mailboxBusy s = false →
    (args.length ≠ 8 ∨ imageAt args 0 4 = 0 ∨ 2 ^ 26 < imageAt args 0 4 ∨
      covered s.module.staged (imageAt args 0 4) (s.module.staged.length + 1) 0 = false →
      exec (.fwActivate args) s = .next (answer s 0x06 [])) ∧
    (args.length = 8 → 0 < imageAt args 0 4 → imageAt args 0 4 ≤ 2 ^ 26 →
      covered s.module.staged (imageAt args 0 4) (s.module.staged.length + 1) 0 = true →
      crc32 (readBytes s.module.staging 0 (imageAt args 0 4)) ≠ BitVec.ofNat 32 (imageAt args 4 4) →
      exec (.fwActivate args) s = .next (answer s 0x04 []))) ∧
  (∀ (s : State) (args : List (BitVec 8)) (n : Nat) (im : List Byte), s.module.input = true →
    mailboxBusy s = false → args.length = 8 →
    n = imageAt args 0 4 → 0 < n → n ≤ 2 ^ 26 → covered s.module.staged n (s.module.staged.length + 1) 0 = true →
    im = readBytes s.module.staging 0 n → crc32 im = BitVec.ofNat 32 (imageAt args 4 4) →
    ∃ t, exec (.fwActivate args) s = .next t ∧
      (Config.imageSigned im = true → t.module.writing = some ⟨n, false⟩ ∧ t.module.flashPartial = true ∧
        t.module.response = none ∧ readBytes t.module.flash 0 n = im ∧ t.module.flashLen = n) ∧
      (Config.imageSigned im = false → t.module.writing = none ∧ t.module.response = some [5, 0] ∧
        t.module.flash = s.module.flash)) ∧
  (∀ (s : State) (w : FlashWrite), s.module.writing = some w →
    ∃ t, exec .flashWriteDone s = .next t ∧ t.module.writing = none ∧ t.module.flashPartial = false ∧
      t.module.flash = s.module.flash ∧ t.module.flashLen = s.module.flashLen ∧ logged s t 0x0009 0 ∧ (w.window = false → t.module.response = some [0, 0]) ∧
      (w.window = true → t.module.window.done = true ∧ t.module.window.busy = false)) ∧
  (∀ s : State, s.module.bootChecked = false → s.module.input = true → s.module.flashPartial = true →
    ∃ t, exec .bootRomCheck s = .next t ∧ t.module.bootChecked = true ∧ t.module.recovery = true ∧
      logged s t 0x0008 0) ∧
  (∀ (s : State) (ofs n : Nat), windowFree s = true → ofs = s.module.window.ofs.toNat →
    n = Nat.min 2048 (s.module.window.len.toNat - ofs) → ofs % 2048 = 0 → ofs < 2 ^ 26 →
    Memory.wf s.module.staging = true →
    ∃ t, exec .recoveryStage s = .next t ∧ t.module.window.busy = true ∧ t.module.window.fail = false ∧
      readBytes t.module.staging ofs n = readBytes s.module.window.data 0 n ∧
      (∀ a, a < ofs ∨ ofs + n ≤ a → readByte t.module.staging a = readByte s.module.staging a) ∧
      t.module.staged = s.module.staged ++ [(ofs, n)] ∧ t.module.flash = s.module.flash) ∧
  (∀ s : State, windowFree s = true →
    s.module.window.ofs.toNat % 2048 ≠ 0 ∨ 2 ^ 26 ≤ s.module.window.ofs.toNat →
    ∃ t, exec .recoveryStage s = .next t ∧ t.module.window.fail = true ∧ t.module.window.err = 6 ∧
      t.module.staging = s.module.staging) ∧
  (∀ s : State, s.module.window.busy = true → s.module.writing = none →
    exec .recoveryStageDone s = .next (onModule s fun m => { m with window := { m.window with busy := false } })) ∧
  (∀ (s : State) (n : Nat) (im : List Byte), windowFree s = true → n = s.module.window.len.toNat → 0 < n →
    n ≤ 2 ^ 26 → covered s.module.staged n (s.module.staged.length + 1) 0 = true →
    im = readBytes s.module.staging 0 n → crc32 im = s.module.window.crc →
    ∃ t, exec .recoveryCommit s = .next t ∧
      (Config.imageSigned im = true → t.module.writing = some ⟨n, true⟩ ∧ t.module.window.busy = true ∧
        readBytes t.module.flash 0 n = im ∧ t.module.flashLen = n) ∧
      (Config.imageSigned im = false → t.module.writing = none ∧ t.module.window.err = 5 ∧
        t.module.window.fail = true)) ∧
  (∀ s : State, windowFree s = true → imageCheck s s.module.window.len.toNat s.module.window.crc ≠ 0 →
    ∃ t, exec .recoveryCommit s = .next t ∧ t.module.writing = none ∧ t.module.window.fail = true ∧
      t.module.window.err = imageCheck s s.module.window.len.toNat s.module.window.crc)

/-- R11-R14: the rails come up in their order and fall on a fault, and a loss of power clears the module. -/
def Obligations.RailsAndPowerLoss : Prop := RailsSequenceAndFault ∧ PowerLossClearsModule

/-- R21-R28: the mailbox, firmware images and the recovery window. -/
def Obligations.MailboxAndFirmware : Prop := MailboxAnswersRequests ∧ FirmwareAndRecovery

/-- R29-R31, R37, R395: writes of HTR, LMAP, PARK and PCTL store their fields, a bad lane map of either side only sets
MAPERR; an idle port parks its upper lanes; a wake trigger wakes what is parked, a ring that locks takes its heater
code, and the end of a wake or a change of ring temperatures restripes the port; a receive ring that loses lock sends a
LANE_PAUSE. That the LANE_PAUSE names its lanes in SPEC[15:8] and that pauses end at a wake trigger are the model's
choices (assumption 13); the code nearest to what a ring needs, a tie going to the even one, is
deduced (assumption 14). -/
def Obligations.PortRegistersAndWakes : Prop :=
  (∀ (s : State) (port ring : Nat) (v : BitVec 32), port < 64 → ring < 18 → ringWaking (portOf s port) ring = false →
    ∃ t, exec (.htrWrite port ring v) s = .next t ∧ look 0 (portOf t port).htr ring = v.setWidth 12 ∧
      (∀ r, r ≠ ring → look 0 (portOf t port).htr r = look 0 (portOf s port).htr r) ∧
      ∀ p, p ≠ port → portOf t p = portOf s p) ∧
  (∀ (s : State) (port : Nat) (v : BitVec 32), port < 64 →
    (mapOk v.toNat = true → ∃ t, exec (.lmapWrite port false v) s = .next t ∧ (portOf t port).lmapTx = v) ∧
    (mapOk v.toNat = true → ∃ t, exec (.lmapWrite port true v) s = .next t ∧ (portOf t port).lmapRx = v) ∧
    (mapOk v.toNat = false → ∀ rx, ∃ t, exec (.lmapWrite port rx v) s = .next t ∧ (portOf t port).maperr = true ∧
      (portOf t port).lmapTx = (portOf s port).lmapTx ∧ (portOf t port).lmapRx = (portOf s port).lmapRx)) ∧
  (∀ (s : State) (port : Nat) (v : BitVec 32), port < 64 →
    ∃ t, exec (.parkWrite port v) s = .next t ∧ (portOf t port).en = BitVec.ofNat 8 v.toNat ∧
      (portOf t port).drop = (portOf s port).drop ||| BitVec.ofNat 8 (v.toNat / 256)) ∧
  (∀ (s : State) (port : Nat) (v : BitVec 32), port < 64 →
    ∃ t, exec (.pctlWrite port v) s = .next t ∧
      (portOf t port).pctl.toNat = v.toNat - field v.toNat 24 7 * 2 ^ 24) ∧
  (∀ (s : State) (port depth idle : Nat), port < 64 → flag (portOf s port).pctl.toNat 31 = true →
    (portOf s port).queue.length ≤ depth → depth ≤ field (portOf s port).pctl.toNat 8 8 →
    1000 * Nat.max 1 (field (portOf s port).pctl.toNat 16 8) ≤ idle → 4 ≤ (portOf s port).width →
    ∃ t, exec (.portIdlePark ⟨port, depth, idle⟩) s = .next t ∧
      portOf t port = portSettled s.mtime (restripe s.mtime s.module.level
        ((upperLanes (portOf s port)).foldl (fun p n => parkRing p (txRing p n)) (portOf s port))) ∧
      ∀ p, p ≠ port → portOf t p = portOf s p) ∧
  (∀ (s : State) (port depth idle : Nat), port < 64 → flag (portOf s port).pctl.toNat 31 = true →
    (portOf s port).queue.length ≤ depth → field (portOf s port).pctl.toNat 0 8 ≤ depth →
    ∃ t, exec (.portWakeTrigger ⟨port, depth, idle⟩) s = .next t ∧
      portOf t port = portSettled s.mtime (wakeParked (portOf s port)) ∧ ∀ p, p ≠ port → portOf t p = portOf s p) ∧
  (∀ (s : State) (port ring : Nat) (w : Wake), port < 64 →
    (portOf s port).waking.find? (fun w => w.ring == ring && !w.ended) = some w →
    0 ≤ rneDiv (needOf (portOf s port) ring).num (Nat.max (needOf (portOf s port) ring).den 1) →
    rneDiv (needOf (portOf s port) ring).num (Nat.max (needOf (portOf s port) ring).den 1) ≤ 4095 →
    ∃ t, exec (.wakeLockEnd port ring) s = .next t ∧
      ((look 0 (portOf t port).htr ring).toNat : Int) =
        rneDiv (needOf (portOf s port) ring).num (Nat.max (needOf (portOf s port) ring).den 1) ∧
      (ring < 18 → ringParked (portOf t port) ring = false)) ∧
  (∀ (s : State) (port : Nat), port < 64 →
    ∃ t, exec (.wakeComplete port) s = .next t ∧
      portOf t port = portSettled s.mtime (restripe s.mtime s.module.level (wakeEnd (portOf s port))) ∧
      ∀ p, p ≠ port → portOf t p = portOf s p) ∧
  (∀ (s : State) (port : Nat) (rise : List (Nat × Ratio)) (ts : BitVec 16), port < 64 →
    ∃ t, exec (.ringLockChange port ⟨rise, ts⟩) s = .next t ∧ (portOf t port).tsens = ts ∧
      (portOf t port).base = (portOf s port).base ∧
      (portOf t port).rise = (rise.filter fun e => e.1 < 18).foldl (fun m e => put m e.1 e.2) (portOf s port).rise) ∧
  (∀ (s : State) (port lane : Nat), port < 64 → lane < 8 →
    ringLocked (portOf s port) (rxRing (portOf s port) lane) = false →
    ∃ t, exec (.ringLockLoss port lane) s = .next t ∧ portOf t port = portSettled s.mtime
      (sendFlit (portOf s port) (ownFlit (portOf s port) 6 true ((laneMask [lane]).toNat * 256))))

/-- R33-R36, R38: what a flit time brings is put together beat by beat and checked; a flit that the port accepts is
taken in sequence: data is delivered, a marker gives the peer's stripe, a LANE_PAUSE pauses lanes; anything else is
answered with one NAK, which ACKSEQ + 1 names, and delivers nothing; ACK releases and NAK replays what was sent;
corrected symbols count in FECC; a port long down ends the groups with a member behind it. A NAK that names the next SEQ
as ACKSEQ + 1 and control flits without a number are the model's choices (assumption 30), and so is the layout of
LANE_PAUSE's mask (assumption 13). -/
def Obligations.FlitsTakenInSequence : Prop :=
  (∀ (s : State) (port : Nat) (r : Received) (f : Flit), port < 64 → received (portOf s port) r = some f → f.type = 1 →
    flitOk (portOf s port) (some f) = true →
    ∃ t, exec (.data port r) s = .next t ∧ (portOf t port).delivered = (portOf s port).delivered ++ [f] ∧
      (portOf t port).expect = (portOf s port).expect + 1) ∧
  (∀ (s : State) (port : Nat) (r : Received), port < 64 → flitOk (portOf s port) (received (portOf s port) r) = false →
    ∃ t, exec (.data port r) s = .next t ∧ (portOf t port).delivered = (portOf s port).delivered ∧
      (portOf t port).expect = (portOf s port).expect ∧
      (portOf t port).control = (portOf s port).control ++ [ownFlit (portOf s port) 4 true 0]) ∧
  (∀ (s : State) (port : Nat) (r : Received) (f : Flit), port < 64 → received (portOf s port) r = some f → f.type = 2 →
    flitOk (portOf s port) (some f) = true →
    ∃ t, exec (.markerReceived port r) s = .next t ∧ (portOf t port).peerWidth = field f.spec.toNat 0 4 ∧
      (portOf t port).peerLanes = BitVec.ofNat 8 (field f.spec.toNat 8 8) ∧
      (portOf t port).expect = (portOf s port).expect + 1) ∧
  (∀ (s : State) (port : Nat) (r : Received) (f : Flit), port < 64 → received (portOf s port) r = some f → f.type = 6 →
    flitOk (portOf s port) (some f) = true →
    ∃ t, exec (.lanePause port r) s = .next t ∧ (portOf t port).expect = (portOf s port).expect + 1 ∧
      (portOf t port).paused = (portOf s port).paused ||| BitVec.ofNat 8 (field f.spec.toNat 8 8)) ∧
  (∀ (s : State) (port : Nat) (r : Received) (f : Flit), port < 64 → received (portOf s port) r = some f → f.type = 3 →
    ∃ t, exec (.ack port r) s = .next t ∧
      portOf t port = portSettled s.mtime (takeAck (countErrors (portOf s port) r) f)) ∧
  (∀ (s : State) (port : Nat) (r : Received) (f : Flit), port < 64 → received (portOf s port) r = some f → f.type = 4 →
    ∃ t, exec (.nak port r) s = .next t ∧
      portOf t port = portSettled s.mtime (replay s.mtime (countErrors (portOf s port) r) f)) ∧
  (∀ (s : State) (port n k : Nat) (r : Received), port < 64 → n < 8 → k ≤ 15 → r.errors = [(n, k)] →
    ∃ t, exec (.data port r) s = .next t ∧ (look 0 (portOf t port).fecc n).toNat =
      Nat.min (2 ^ 32 - 1) ((look 0 (portOf s port).fecc n).toNat + k)) ∧
  (∀ (s : State) (port : Nat), port < 64 → downLong s port = true →
    exec (.portDownTimeout port) s =
      .next (s.ctxs.foldl (fun s e => e.2.groups.foldl (endBehind port e.1) s) s))

/-- R40, R41, R45: a FORM that every member has issued with the same table forms its group and writes no memory; one
not answered for 100 ms ends with FORM_TIMEOUT; the withdrawal of a member ends its group. -/
def Obligations.GroupsFormAndEnd : Prop :=
  (∀ (s : State) (ctx tower : Nat) (peers cs : List Contribution) (c : ColCmd) (tab : List Byte)
      (ms : List (Nat × Nat)), ctx < Config.contexts → colHead s ctx tower = some c → colOp c.image = 1 →
    virtualWaits s ctx 0 (colSrc c.image) (8 * colCount c.image) = false →
    formTable s ctx c.image = some (tab, ms) → aloneHere s ctx ms → contributions s ms peers = some cs →
    (∀ m ∈ ms, reachable s m.1 = true) → (∀ p ∈ cs, colOp p.command = 1 ∧ p.data = tab) →
    ∃ t, exec (.form ctx tower peers) s = .next t ∧ groupOf t ctx (colGroup c.image) =
        ⟨ms, [(ctx, colGroup c.image)], false⟩ ∧
      t.mem = s.mem ∧ ∀ x ∈ colsOf t ctx tower, x.number = c.number → x.result.isSome = true) ∧
  (∀ (s : State) (ctx tower : Nat) (c : ColCmd), ctx < Config.contexts → colHead s ctx tower = some c →
    colOp c.image = 1 → c.since + 100000000 ≤ s.mtime →
    exec (.formTimeout ctx tower) s = .next (colEnd s ctx tower c.number 0x50)) ∧
  (∀ (s : State) (ctx g m c : Nat), ctx < Config.contexts → (groupOf s ctx g).dead = false →
    (m, c) ∈ (groupOf s ctx g).members → (m, c) ≠ (s.module.modid.toNat, ctx) →
    ∃ t, exec (.withdraw ctx g m c) s = .next t ∧ t = endGroup s ctx g 0x53 ∧ (groupOf t ctx g).dead = true)

/-- R42-R46: each data operation writes the result for this member at DST and ends with status 0; that result is, in
ring order, for ALLREDUCE of i32 the sums modulo 2^32 and of f32 the sums rounded one member after another, for
REDSCATTER of i32 the sums of this member's part, for ALLGATHER the members' data one after another, and for ALLTOALL
this member's part of each; a command out of its limits ends with BAD_OP; an ended one is reported, tl.col advances and
input 9 pulses. That ALLTOALL, as REDSCATTER, needs a COUNT which the number of members divides is the model's choice
(log entry 33, DESIGN CHOICE). -/
def Obligations.CollectivesWriteResult : Prop :=
  (∀ (s : State) (ctx tower op : Nat) (i : Nat → Nat → List Contribution → Instr) (peers cs : List Contribution)
      (c : ColCmd) (src u bs : List Byte) (t : State),
    (op, i) ∈ [(2, Instr.allreduce), (3, Instr.allgather), (4, Instr.redscatter), (5, Instr.alltoall),
      (6, Instr.drawmerge)] →
    ctx < Config.contexts → colHead s ctx tower = some c → colOp c.image = op → colFieldsOk c.image = true →
    colCount c.image ≠ 0 → (groupOf s ctx (colGroup c.image)).dead = false →
    aloneHere s ctx (groupOf s ctx (colGroup c.image)).members →
    contributions s (groupOf s ctx (colGroup c.image)).members peers = some cs →
    partyWaits s (groupOf s ctx (colGroup c.image)).members.length
      ⟨ownMember s ctx (groupOf s ctx (colGroup c.image)).members, ctx, tower, c⟩ = false →
    (∀ p ∈ cs, commandsAgree c.image p.command = true) →
    ownOperands s ctx (ownMember s ctx (groupOf s ctx (colGroup c.image)).members)
      (groupOf s ctx (colGroup c.image)).members.length c.image = some (src, u) →
    colResult c.image (ownMember s ctx (groupOf s ctx (colGroup c.image)).members)
      (ringOrder (groupOf s ctx (colGroup c.image)).members.length
        (ownMember s ctx (groupOf s ctx (colGroup c.image)).members) c.image src cs)
      (memberUniforms (ownMember s ctx (groupOf s ctx (colGroup c.image)).members) u cs) = some bs →
    writeVirtual s ctx (colDst c.image) bs = some t →
    exec (i ctx tower peers) s = .next (colEnd t ctx tower c.number 0)) ∧
  (∀ (im : List Byte) (own : Nat) (ms : List (List Byte × List Byte)) (uni : List Byte), ms ≠ [] →
    let element := fun (i : Nat) (m : List Byte × List Byte) => imageAt m.2 (4 * i) 4
    let sum32 := fun (i : Nat) => toBytes 4 ((ms.map (element i)).sum % 2 ^ 32)
    let part := colCount im / ms.length
    (colOp im = 2 → colType im = 2 → colResult im own ms uni = some ((List.range (colCount im)).flatMap sum32)) ∧
    (colOp im = 2 → colType im = 0 → colResult im own ms uni = some ((List.range (colCount im)).flatMap fun i =>
      toBytes 4 ((ms.tail.map (element i)).foldl (fun a b => (faddR f32 0 a b).bits)
        ((ms.head?.map (element i)).getD 0)))) ∧
    (colOp im = 4 → colType im = 2 → colCount im % ms.length = 0 →
      colResult im own ms uni = some ((List.range part).flatMap fun i => sum32 (own * part + i))) ∧
    (colOp im = 4 ∨ colOp im = 5 → colCount im % ms.length ≠ 0 → colResult im own ms uni = none) ∧
    (colOp im = 3 → colResult im own ms uni = some (ms.flatMap (·.2))) ∧
    (colOp im = 5 → colCount im % ms.length = 0 → colResult im own ms uni = some (ms.flatMap fun m =>
      (m.2.drop (own * part * colBytes (colType im))).take (part * colBytes (colType im))))) ∧
  (∀ (s : State) (ctx tower : Nat) (c : ColCmd), ctx < Config.contexts → colHead s ctx tower = some c →
    colFieldsOk c.image = false →
    exec (.collectiveBadOp ctx tower) s = .next (colEnd s ctx tower c.number 0x52)) ∧
  (∀ (s : State) (ctx tower : Nat) (c : ColCmd), ctx < Config.contexts →
    (colsOf s ctx tower).find? (·.result.isSome) = some c →
    (colCpl c.image ≠ 0 → colCpl c.image % 8 = 0 → virtualWaits s ctx 1 (colCpl c.image) 8 = false) →
    exec (.collectiveComplete ctx tower) s = .next (pulseAll (tlDone
      (onCols (colReport s ctx c.number (c.result.getD 0) c.image) ctx tower
        (List.filter fun y => y.number != c.number)) ctx (128 * 8 + tower) c.number) ctx 9
      (List.range Config.cores)))

/-- R53, R54, R57, R63: enabling a disabled queue starts it empty with the size written; a resume goes on at HEAD; a
drain stops once no packet stands; an abort gives every accepted slot an aborted packet. That enabling a disabled queue
clears ERR, and that a write with a size below 2^4 changes nothing at all, are the model's choices (log entry 34, DESIGN
CHOICE). -/
def Obligations.QueuesEnableAndStop : Prop :=
  (∀ (s : State) (ctx q : Nat) (v : BitVec 32), ctx < Config.contexts → q < 64 → flag v.toNat 31 = true →
    4 ≤ field v.toNat 0 4 → (queueOf s ctx q).state = 0 →
    ∃ t, exec (.queueEnable ctx q v) s = .next t ∧ (queueOf t ctx q).state = 1 ∧ (queueOf t ctx q).err = 0 ∧
      (queueOf t ctx q).head = 0 ∧ (queueOf t ctx q).accepted = 0 ∧ ringSize t ctx q = 2 ^ field v.toNat 0 4) ∧
  (∀ (s : State) (ctx q : Nat) (v : BitVec 32), field v.toNat 0 4 < 4 →
    exec (.queueEnable ctx q v) s = .next s) ∧
  (∀ (s : State) (ctx q : Nat), ctx < Config.contexts → q < 64 → (queueOf s ctx q).state = 2 →
    ∃ t, exec (.queueResume ctx q) s = .next t ∧ (queueOf t ctx q).state = 1 ∧ (queueOf t ctx q).err = 0 ∧
      (queueOf t ctx q).accepted = (queueOf s ctx q).head ∧ (queueOf t ctx q).head = (queueOf s ctx q).head) ∧
  (∀ (s : State) (ctx q : Nat) (v : BitVec 32), ctx < Config.contexts → q < 64 → (queueOf s ctx q).state ≠ 0 →
    ∃ t, exec (.queueDrain ctx ⟨q, v⟩) s = .next t ∧ (queueOf t ctx q).packets = (queueOf s ctx q).packets ∧
      (queueOf t ctx q).state = (if (queueOf s ctx q).packets = [] ∧ (queueOf s ctx q).aborting = false then 0 else 3) ∧
      field (qctl t ctx q) 0 15 = field v.toNat 0 15 ∧ field (qctl t ctx q) 16 11 = field v.toNat 16 11 ∧
      flag (qctl t ctx q) 31 = false) ∧
  (∀ (s : State) (ctx q : Nat), ctx < Config.contexts → q < 64 → (queueOf s ctx q).state ≠ 0 →
    (queueOf s ctx q).head < (queueOf s ctx q).accepted →
    (∀ k, k < (queueOf s ctx q).accepted - (queueOf s ctx q).head →
      slotWaits s ctx q ((queueOf s ctx q).head + k) = false) →
    ∃ t, exec (.queueAbort ctx q) s = .next t ∧ (queueOf t ctx q).state = 3 ∧
      (queueOf t ctx q).head = (queueOf s ctx q).accepted ∧
      (queueOf t ctx q).packets = (queueOf s ctx q).packets ++
        (List.range ((queueOf s ctx q).accepted - (queueOf s ctx q).head)).map fun k =>
          abortedPacket s ctx q ((queueOf s ctx q).head + k))

/-- R55-R57, R61, R62, R64, R65: a kick whose tail, check field and last slot agree accepts its packets; without a
stale packet a re-fetch changes nothing, with one it looks again; a fetch of a good packet takes it into the queue
under its number; a packet's completion removes it and completes its number. -/
def Obligations.KicksFetchAndCompletion : Prop :=
  (∀ (s : State) (ctx q n : Nat) (v : BitVec 64), ctx < Config.contexts → q < 64 → (queueOf s ctx q).state = 1 →
    (queueOf s ctx q).kicks = [] → (queueOf s ctx q).kicking = none → field v.toNat 48 6 = q →
    field v.toNat 54 10 = 0 →
    n = (field v.toNat 0 32 + 2 ^ 32 - (queueOf s ctx q).accepted % 2 ^ 32) % 2 ^ 32 → n ≠ 0 →
    n + ((queueOf s ctx q).accepted - (queueOf s ctx q).head) ≤ ringSize s ctx q →
    field v.toNat 32 16 = (field v.toNat 0 32 + 2 ^ 32 - 1) % 2 ^ 16 →
    slotWaits s ctx q ((queueOf s ctx q).accepted + n - 1) = false →
    staleAt (slotImage s ctx q ((queueOf s ctx q).accepted + n - 1)) ((queueOf s ctx q).accepted + n - 1) = false →
    ∃ t, exec (.kick ctx q v) s = .next t ∧ (queueOf t ctx q).accepted = (queueOf s ctx q).accepted + n ∧
      (queueOf t ctx q).head = (queueOf s ctx q).head ∧
      (slotPoison s ctx q ((queueOf s ctx q).accepted + n - 1) = s → t.mem = s.mem)) ∧
  (∀ (s : State) (ctx q : Nat), ctx < Config.contexts → q < 64 → (queueOf s ctx q).kicking = none →
    (queueOf s ctx q).stale = none → (queueOf s ctx q).kicks = [] → exec (.kickRefetch ctx q) s = .next s) ∧
  (∀ (s : State) (ctx q n : Nat) (v : BitVec 64), ctx < Config.contexts → q < 64 →
    (queueOf s ctx q).kicking = some (n, v) → slotWaits s ctx q (lastKicked s ctx q v) = false →
    exec (.kickRefetch ctx q) s = .next (refetchKick s ctx q n v)) ∧
  (∀ (s : State) (ctx q n : Nat), ctx < Config.contexts → q < 64 → (queueOf s ctx q).kicking = none →
    (queueOf s ctx q).stale = some n → slotWaits s ctx q (queueOf s ctx q).head = false →
    exec (.kickRefetch ctx q) s = .next (refetchHead s ctx q n)) ∧
  (∀ (s : State) (ctx q : Nat), ctx < Config.contexts → q < 64 → mayFetch s ctx q = true →
    slotWaits s ctx q (queueOf s ctx q).head = false →
    staleAt (slotImage s ctx q (queueOf s ctx q).head) (queueOf s ctx q).head = false →
    packetOk (slotImage s ctx q (queueOf s ctx q).head) = true →
    ((queueOf s ctx q).packets = [] ∨ (flag (imageAt (slotImage s ctx q (queueOf s ctx q).head) 1 1) 0 = false ∧
      imageAt (slotImage s ctx q (queueOf s ctx q).head) 0 1 ≠ 6)) →
    ∃ t, exec (.packetFetchResponse ctx q) s = .next t ∧ (queueOf t ctx q).head = (queueOf s ctx q).head + 1 ∧
      (queueOf t ctx q).packets = (queueOf s ctx q).packets ++
        [{ index := (queueOf s ctx q).head, number := (queueOf s ctx q).base + (queueOf s ctx q).head + 1,
           image := slotImage s ctx q (queueOf s ctx q).head, since := s.mtime
           slack := reg (ctxOf s ctx) 0x1828 }]) ∧
  (∀ (s : State) (ctx q number status : Nat) (p : Packet), ctx < Config.contexts → q < 64 →
    packetOf s ctx q number = some p → p.status = some status → mayComplete s ctx q p = true →
      flag (imageAt p.image 1 1) 1 = false →
    flag (imageAt p.image 1 1) 2 = false →
    ∃ t, exec (.packetComplete ctx q number) s = .next t ∧ packetOf t ctx q number = none ∧
      (queueOf t ctx q).line = tlComplete (queueOf s ctx q).line number ∧ t.irqs = s.irqs)

/-- R58-R60, R85, R87, R98: LAUNCH that passes its checks starts, one that fails them ends with their code, and each
unit is a record accepted; COPY copies and ends by whether it could; TLWAIT starts and ends when its timeline has
come; TLSIGNAL and a write of SWT set SWT[n] to the greater of its value and theirs, and no other register changes;
MAPUPDATE drops every TLB entry that meets its range, enters its markers and ends when the copies ahead of them have;
FENCE and NOP end when they may. -/
def Obligations.PacketsDoTheirWork : Prop :=
  (∀ (s : State) (ctx q number : Nat) (p : Packet), ctx < Config.contexts → q < 64 →
    packetOf s ctx q number = some p → p.status = none →
    (imageAt p.image 0 1 = 1 → p.running = false →
      (launchCheck s p.image = none → exec (.launch ctx q number) s =
        .next (onPacket s ctx q number fun p => { p with running := true, uncreated := imageAt p.image 24 4 })) ∧
      (∀ code, launchCheck s p.image = some code →
        exec (.launch ctx q number) s = .next (packetEnd s ctx q number code))) ∧
    (imageAt p.image 0 1 = 1 → p.running = true → p.uncreated ≠ 0 →
      rangesWait s ctx (unitRecord q p).ranges = false →
      ∀ i t, accept s ctx (unitRecord q p) (launchLimit p) = (.at i, t) →
        exec (.launchUnitCreate ctx q number) s =
          .next (onPacket t ctx q number fun p => { p with uncreated := p.uncreated - 1, live := p.live + 1 })) ∧
    (imageAt p.image 0 1 = 2 → imageAt p.image 24 8 ≤ 2 ^ 40 →
      ∀ t, (copySpace ctx (flag (imageAt p.image 32 1) 0) (flag (imageAt p.image 33 1) 0)
          (imageAt p.image 24 8 / 32768 + 3) s (imageAt p.image 8 8) (imageAt p.image 16 8) (imageAt p.image 24 8) =
          .done t → exec (.copy ctx q number) s = .next (packetEnd t ctx q number 0)) ∧
        (copySpace ctx (flag (imageAt p.image 32 1) 0) (flag (imageAt p.image 33 1) 0)
          (imageAt p.image 24 8 / 32768 + 3) s (imageAt p.image 8 8) (imageAt p.image 16 8) (imageAt p.image 24 8) =
          .fault t → exec (.copy ctx q number) s = .next (packetEnd t ctx q number 0x11))) ∧
    (imageAt p.image 0 1 = 3 → imageAt p.image 16 1 < 128 →
      exec (.tlwait ctx q number) s = .next (onPacket s ctx q number fun p => { p with running := true })) ∧
    (imageAt p.image 0 1 = 3 → ∀ v, selected s ctx (imageAt p.image 16 1) = some v → imageAt p.image 8 8 ≤ v →
      exec (.tlwaitSatisfied ctx q number) s = .next (packetEnd s ctx q number 0)) ∧
    (imageAt p.image 0 1 = 4 → earlierDone (queueOf s ctx q) number = true →
      ∃ t, exec (.tlsignal ctx q number) s = .next t ∧
        reg (ctxOf t ctx) (0x1900 + 8 * (imageAt p.image 16 1 % 64)) =
          Nat.max (reg (ctxOf s ctx) (0x1900 + 8 * (imageAt p.image 16 1 % 64))) (imageAt p.image 8 8) ∧
        ∃ p', packetOf t ctx q number = some p' ∧ p'.status = some 0) ∧
    (imageAt p.image 0 1 = 5 → p.running = false → ∀ size, pgszBytes (imageAt p.image 20 1) = some size →
      imageAt p.image 16 4 ≠ 0 → imageAt p.image 8 8 % size = 0 →
      imageAt p.image 8 8 + imageAt p.image 16 4 * size ≤ 2 ^ 56 →
      ∃ t, exec (.mapupdate ctx q number) s = .next t ∧ t.mem = s.mem ∧
        (∀ e ∈ t.cores, ∀ x ∈ e.2.tlb, x.ctx = ctx →
          x.base + x.size ≤ imageAt p.image 8 8 ∨ imageAt p.image 8 8 + imageAt p.image 16 4 * size ≤ x.base) ∧
        ∃ p', packetOf t ctx q number = some p' ∧ p'.running = true ∧ p'.markers = copiesAhead s ctx ∧
          p'.status = (if copiesAhead s ctx = [] then some 0 else none)) ∧
    (imageAt p.image 0 1 = 5 → p.running = true → (∀ m ∈ p.markers, copyStands s ctx m = false) →
      exec (.mapupdate ctx q number) s = .next (packetEnd s ctx q number 0)) ∧
    (imageAt p.image 0 1 = 6 → earlierDone (queueOf s ctx q) number = true →
      imageAt p.image 8 1 = 4 ∨ imageAt p.image 8 1 = 5 →
      exec (.fencePacket ctx q number) s = .next (packetEnd s ctx q number 0)) ∧
    (imageAt p.image 0 1 = 7 → exec (.nopkt ctx q number) s = .next (packetEnd s ctx q number 0))) ∧
  (∀ (s : State) (ctx n : Nat) (v : BitVec 64), ctx < Config.contexts → n < 64 →
    ∃ t, exec (.swtWrite ctx n v) s = .next t ∧
      reg (ctxOf t ctx) (0x1900 + 8 * n) = Nat.max (reg (ctxOf s ctx) (0x1900 + 8 * n)) v.toNat ∧
      ∀ off, off ≠ 0x1900 + 8 * n → reg (ctxOf t ctx) off = reg (ctxOf s ctx) off)

/-- R49-R53, R65-R67, R163, R166, R374: a plain register of a context page stores the written value under its mask and
nothing else changes, a privileged one only from the physical function; TOKCFG refills nothing by
itself (R104); MODID, GFBASE, ring heads and controls store
their fields; a token ring's timer raises its vector; unmasking a vector raises what is pending. -/
def Obligations.RegisterWritesStore : Prop :=
  (∀ (s : State) (ctx off mask : Nat) (pf : Bool) (v : BitVec 64), ctx < Config.contexts → off ≠ 0x185C →
    (plainReg off = some (mask, false) ∨ (plainReg off = some (mask, true) ∧ pf = true)) →
    ∃ t, exec (.registerWrite (.context ctx pf off) v) s = .next t ∧
      reg (ctxOf t ctx) off = (v &&& BitVec.ofNat 64 mask).toNat ∧
      (∀ o, o ≠ off → reg (ctxOf t ctx) o = reg (ctxOf s ctx) o) ∧ ∀ c, c ≠ ctx → ctxOf t c = ctxOf s c) ∧
  (∀ (s : State) (ctx off mask : Nat) (v : BitVec 64), plainReg off = some (mask, true) →
    exec (.registerWrite (.context ctx false off) v) s = .next s) ∧
  (∀ (s : State) (v : BitVec 64), ∃ t, exec (.registerWrite (.modid true) v) s = .next t ∧
    t.module.modid = v.setWidth 12) ∧
  (∀ (s : State) (ctx : Nat) (v : BitVec 64), ctx < Config.contexts →
    ∃ t, exec (.registerWrite (.context ctx true 0x185C) v) s = .next t ∧
      reg (ctxOf t ctx) 0x185C = v.toNat % 2 ^ 32 ∧ (ctxOf t ctx).refilled = s.mtime ∧
      exec (.bucketRefill ctx) t = .next t) ∧
  (∀ (s : State) (ctx : Nat) (v : BitVec 64), ctx < Config.contexts →
    ∃ t, exec (.gfbaseWrite ctx v) s = .next t ∧ reg (ctxOf t ctx) 0x1E10 = field v.toNat 5 51 * 32 ∧
      ∀ e ∈ t.towers, e.2.masks = []) ∧
  (∀ (s : State) (ctx : Nat) (v : BitVec 32), ctx < Config.contexts → (ctxOf s ctx).crwait = [] →
    ∃ t, exec (.crheadWrite ctx v) s = .next t ∧ reg (ctxOf t ctx) 0x1818 = v.toNat ∧ t.mem = s.mem) ∧
  (∀ (s : State) (ctx : Nat) (v : BitVec 32), ctx < Config.contexts → (ctxOf s ctx).crwait = [] →
    4 ≤ field v.toNat 0 5 → field v.toNat 0 5 ≤ 16 →
    ∃ t, exec (.crctlWrite ctx v) s = .next t ∧
      reg (ctxOf t ctx) 0x1810 = field v.toNat 31 1 * 2 ^ 31 + field v.toNat 0 5) ∧
  (∀ (s : State) (ctx ring : Nat) (v : BitVec 32), ctx < Config.contexts → ring < 16 →
    ∃ t, exec (.trheadWrite ctx ring v) s = .next t ∧ reg (ctxOf t ctx) (ringAt ring + 16) = v.toNat) ∧
  (∀ (s : State) (ctx ring : Nat) (v : BitVec 64), ctx < Config.contexts → ring < 16 → 4 ≤ field v.toNat 0 5 →
    field v.toNat 0 5 ≤ 16 →
    ∃ t, exec (.trctlWrite ctx ring v) s = .next t ∧ reg (ctxOf t ctx) (ringAt ring + 8) =
      field v.toNat 63 1 * 2 ^ 63 + field v.toNat 32 11 * 2 ^ 32 + field v.toNat 13 19 * 2 ^ 13 + field v.toNat 0 5) ∧
  (∀ (s : State) (ctx : Nat) (v : BitVec 32), ctx < Config.contexts → (ctxOf s ctx).itwait = [] →
    (ctxOf s ctx).itheld = [] → (ctxOf s ctx).killed = false →
    ∃ t, exec (.itheadWrite ctx v) s = .next t ∧ reg (ctxOf t ctx) 0x18B4 = v.toNat) ∧
  (∀ (s : State) (ctx : Nat) (v : BitVec 32), ctx < Config.contexts → (ctxOf s ctx).itwait = [] →
    (ctxOf s ctx).itheld = [] → (ctxOf s ctx).killed = false → 4 ≤ field v.toNat 0 5 → field v.toNat 0 5 ≤ 16 →
    ∃ t, exec (.itctlWrite ctx v) s = .next t ∧
      reg (ctxOf t ctx) 0x18B0 = field v.toNat 31 1 * 2 ^ 31 + field v.toNat 0 5 ∧
      (flag v.toNat 30 = true → (ctxOf t ctx).itfull = false)) ∧
  (∀ (s : State) (ctx : Nat) (v : BitVec 32), ctx < Config.contexts → 16 ≤ field v.toNat 0 5 →
    field v.toNat 0 5 ≤ 30 → flag v.toNat 31 = false →
    ∃ t, exec (.dtctlWrite ctx v) s = .next t ∧
      reg (ctxOf t ctx) 0x18C8 = field v.toNat 30 2 * 2 ^ 30 + field v.toNat 0 5) ∧
  (∀ (s : State) (ctx ring at_ : Nat), ctx < Config.contexts → find (ctxOf s ctx).trtimer ring = some at_ →
    at_ ≤ s.mtime → exec (.tokenRingTimer ctx ring) s =
      .next (raiseIrq (onCtx s ctx fun c => { c with trcount := put c.trcount ring 0, trtimer := erase c.trtimer ring })
        ctx (field (reg (ctxOf s ctx) (ringAt ring + 8)) 32 11))) ∧
  (∀ (s : State) (fn vec : Nat), (fn, vec) ∈ s.msixPending →
    ∃ t, exec (.vectorUnmask fn vec) s = .next t ∧ t.irqs = s.irqs ++ [(fn, vec)] ∧ (fn, vec) ∉ t.msixPending ∧
      (fn, vec) ∉ t.masked)

/-- R50, R71, R80: a BAR2 read gives the bytes its window translates to, and 0xFF with WINFAULT where it does not, and
waits while it must; a write stores them; an ATS invalidation drops every translation that meets its range; a
translation completion is recorded and, without a target, joins a page request group; a PRI response answers the oldest
group: served, its pages are asked for again and a paging halt of its cores ends; failed, their HOST_PAGE entries become
HOST_PAGE_FAIL and the halt goes to software. By which core's TLB a BAR2 access is translated is a free value (log entry
2), and that groups are answered in order is the model's choice (log entry 56, DESIGN CHOICE). -/
def Obligations.WindowAndHostAnswers : Prop :=
  (∀ (s u : State) (ctx offset n : Nat) (ps : List (Loc × Nat)), ctx < Config.contexts → (ctxOf s ctx).window = [] →
    windowSpan (withWindow s ctx offset n none) ctx (windowCalled s offset n none) = some (.ok ps, u) →
    poisonPieces u ps = false →
    ∃ t, exec (.bar2Read ctx offset n) s = .next t ∧ t.readData = some (readPieces u ps) ∧ t.mem = s.mem ∧
      (ctxOf t ctx).window = []) ∧
  (∀ (s : State) (ctx offset n : Nat), ctx < Config.contexts → (ctxOf s ctx).window = [] →
    (windowSpan (withWindow s ctx offset n none) ctx (windowCalled s offset n none) = none ∨
      ∃ va r l u, windowSpan (withWindow s ctx offset n none) ctx (windowCalled s offset n none) =
        some (.stop va (.fault r l), u)) →
    ∃ t, exec (.bar2Read ctx offset n) s = .next t ∧ t.readData = some (List.replicate n 0xFF) ∧
      (ctxOf t ctx).winfault = true ∧ t.mem = s.mem) ∧
  (∀ (s u : State) (ctx offset : Nat) (data : List (BitVec 8)) (ps : List (Loc × Nat)), ctx < Config.contexts →
    (ctxOf s ctx).window = [] →
    windowSpan (withWindow s ctx offset data.length (some data)) ctx (windowCalled s offset data.length (some data)) =
      some (.ok ps, u) →
    ∃ t, exec (.bar2Write ctx offset data) s = .next t ∧ t.mem = (writePieces u ps data).mem) ∧
  (∀ (s u : State) (ctx offset n va : Nat) (l : Look), ctx < Config.contexts → (ctxOf s ctx).window = [] →
    l = .wait ∨ l = .ask →
    windowSpan (withWindow s ctx offset n none) ctx (windowCalled s offset n none) = some (.stop va l, u) →
    exec (.bar2Read ctx offset n) s = .next (withWindow s ctx offset n none)) ∧
  (∀ (s : State) (ctx a n : Nat), ctx < Config.contexts →
    ∃ t, exec (.atsInvalidation ctx a n) s = .next t ∧ t.mem = s.mem ∧
      (∀ c, ∀ e ∈ (coreOf t c).tlb, e.ctx = ctx → leafMeets e.leaf.toNat e.size a n = false) ∧
      ∀ p v, (p, v) ∈ (ctxOf t ctx).ats → ¬(p * 65536 < a + n ∧ a < p * 65536 + 65536)) ∧
  (∀ (s : State) (ctx page : Nat) (target : Option HostTarget) (a : Ask), ctx < Config.contexts →
    a ∈ (ctxOf s ctx).asked → askedPage s ctx a = some page → find (ctxOf s ctx).ats page = none →
    inGroup (ctxOf s ctx) page = false → (ctxOf s ctx).window = [] → (ctxOf s ctx).itwait = [] →
    (ctxOf s ctx).itheld = [] → (ctxOf s ctx).crwait = [] → (ctxOf s ctx).killed = false →
    ∃ t, exec (.atsTranslationCompletion ctx page target) s = .next t ∧
      find (ctxOf t ctx).ats page = some target ∧ a ∉ (ctxOf t ctx).asked ∧
      inGroup (ctxOf t ctx) page = target.isNone) ∧
  (∀ (s : State) (ctx : Nat) (g : PageGroup) (rest : List PageGroup), ctx < Config.contexts →
    (ctxOf s ctx).priGroups = g :: rest →
    ((ctxOf s ctx).halt = none → ∃ t, exec (.priResponse ctx true) s = .next t ∧ (ctxOf t ctx).priGroups = rest ∧
      (((ctxOf s ctx).ats.map (·.1)).Nodup → ∀ page ∈ g.pages, find (ctxOf t ctx).ats page = none)) ∧
    (∀ h, (ctxOf s ctx).halt = some h → h.paging = true → h.origin ∈ g.cores →
      exec (.priResponse ctx true) s = .next (endHalt (g.cores.foldl (resumePaged ctx) (onCtx (onCtx s ctx fun c =>
        { c with priGroups := rest }) ctx fun c => { c with ats := g.pages.foldl erase c.ats })) ctx)) ∧
    (∀ h, (ctxOf s ctx).halt = some h → h.paging = true → h.origin ∈ g.cores → h.quiet = false →
      ∃ t, exec (.priResponse ctx false) s = .next t ∧
        (ctxOf t ctx).halt = some { h with paging := false, reason := 0x27 } ∧
        ∀ k ∈ g.cores, ∀ f ∈ (coreOf t k).faults, f.reason ≠ 0x26))

/-- R51, R106, R113, R163, R164, R319: the driver resumes, fails, skips or kills a halt given to it, a budget trap
that was not extended (R106 as assumption 51 reads it) fails its slice whatever the answer but a kill, and answers
change nothing where there is no halt; a function-level reset kills its context, a PF reset every context. -/
def Obligations.DriverAnswersAndResets : Prop :=
  (∀ (s : State) (ctx : Nat) (h : Halt), ctx < Config.contexts → (ctxOf s ctx).halt = some h → h.drv = true →
    h.refused = false → budgetStands s h = false →
    exec (.fresResume ctx) s = .next (endHalt (onCore s h.origin fun k => { k with handler := none }) ctx) ∧
    exec (.fresFail ctx) s = .next (failOrigin (onCore s h.origin fun k => { k with handler := none }) ctx h
      (if originReason s h = 0x11 then 0x71 else 0x70)) ∧
    exec (.fresSkip ctx) s =
      .next (endHalt (skipOrigin (onCore s h.origin fun k => { k with handler := none }) ctx h) ctx) ∧
    exec (.fresKill ctx) s = .next (killContext s ctx)) ∧
  (∀ (s : State) (ctx : Nat) (h : Halt), ctx < Config.contexts → (ctxOf s ctx).halt = some h → h.drv = true →
    (h.refused = true ∨ budgetStands s h = true) → ∀ i ∈ [Instr.fresResume ctx, .fresFail ctx, .fresSkip ctx],
    exec i s = .next (failOrigin (onCore s h.origin fun k => { k with handler := none }) ctx h 0x71)) ∧
  (∀ (s : State) (ctx : Nat), ((ctxOf s ctx).halt = none ∨ ∃ h, (ctxOf s ctx).halt = some h ∧ h.drv = false) →
    ∀ i ∈ [Instr.fresResume ctx, .fresFail ctx, .fresSkip ctx, .fresKill ctx], exec i s = .next s) ∧
  (∀ (s : State) (ctx : Nat), 1 ≤ ctx → ctx < Config.contexts →
    ∃ t, exec (.functionLevelReset ctx) s = .next t ∧ t = killContext s ctx ∧ (ctxOf t ctx).records = [] ∧
      (ctxOf t ctx).queues = [] ∧ (ctxOf t ctx).halt = none ∧ (ctxOf t ctx).timelines = [] ∧
      ∀ c, ∀ e ∈ (coreOf t c).tlb, e.ctx ≠ ctx) ∧
  (∀ s : State, exec .pfReset s = .next ((List.range Config.contexts).foldl killContext s))

/-- R17, R75, R76, R88, R89, R92, R93: a patrol scrub poisons exactly the bad granules of live HBM, core stores, peers
and hosts, counts the corrected ones of a store at its core, and moves no byte; an uncorrectable error in a core raises
UNCORRECTABLE with a free INFO (log entries 2 and 54: the spec gives it none); a retirement request waits for its
confirmation by number; the remap publishes a new epoch with the unit's bit cleared and no other; a walk that returns
gives every access that joined it its result and ends their waits. -/
def Sys2Proof.Slice0.ErrorsAndRetirement : Prop :=
  (∀ (s : State) (corrected bad : List Nat), ∃ t, exec (.patrolScrub corrected bad) s = .next t ∧ t.mem = s.mem ∧
    (∀ g ∈ bad, poisonable s g = true → g ∈ t.poison) ∧ (∀ g ∈ s.poison, g ∈ t.poison) ∧
    (∀ g ∈ t.poison, g ∈ s.poison ∨ (g ∈ bad ∧ poisonable s g = true)) ∧
    ∀ c, (coreOf t c).corrected = (coreOf s c).corrected + (corrected.filter fun g => granuleCore g == some c).length) ∧
  (∀ (s : State) (core stream : Nat), (coreOf s core).slice.isSome = true → stream < 7 →
    exec (.uncorrectable core stream) s = .next (takeException (drawWord s).2 core stream 0x15 (drawWord s).1
      (streamOf (coreOf s core) stream).pc)) ∧
  (∀ (s : State) (reason site unit : Nat), reason = 1 ∨ (reason = 2 ∧ siteRetires s site = true) →
    retirable s site unit = true →
    s.module.retirement = none →
    ∃ t q, exec (.remapRequest reason site unit) s = .next t ∧ t.module.remapBusy = true ∧
      t.module.retirement = some ⟨reason, site, unit, q⟩ ∧ t.module.bamap = s.module.bamap ∧
      rmreq t = 2 ^ 63 + reason % 256 * 2 ^ 48 + site % 32 * 2 ^ 40 + unit % 64 * 2 ^ 32 + q % 2 ^ 32) ∧
  (∀ (s : State) (site unit since : Nat), find s.module.hotSince site = some since → since + 1000000000 < s.elapsed →
    retirable s site unit = true → s.module.retirement = none →
    ∃ t q, exec (.hbmThermalRetirement site unit) s = .next t ∧
      t.module.retirement = some ⟨2, site, unit, q⟩) ∧
  (∀ (s : State) (v : BitVec 32) (r : Retirement), s.module.retirement = some r → r.seq = v.toNat →
    exec (.rmctlWrite true v) s = .next (onModule s fun m => { m with confirmed := true })) ∧
  (∀ (s : State) (v : BitVec 32), exec (.rmctlWrite false v) s = .next s) ∧
  (∀ (s : State) (r : Retirement), s.module.retirement = some r → s.module.confirmed = true →
    s.module.retireQueue = [] → r.unit < 64 →
    ∃ t, exec .remapPublish s = .next t ∧ t.module.remapBusy = false ∧ t.module.retirement = none ∧
      t.module.epoch = s.module.epoch + 1 ∧ bamapOf t r.site = setField (bamapOf s r.site) r.unit 1 0 ∧
      ∀ k, k ≠ r.site → bamapOf t k = bamapOf s k) ∧
  (∀ (s : State) (core stream : Nat) (w : Walking) (r : WalkResult), core < Config.cores →
    (towerOf s (towerOfCore core)).walks.find? (fun w => hasJoined w core stream) = some w →
    (walkBy s (towerOfCore core) w.ctx (w.page * 65536)).1 = r →
    (∀ level e, r = .leaf level e → flag e.toNat 7 = false) →
    ∃ t, exec (.walkComplete core stream) s = .next t ∧ walkingAt t (towerOfCore core) w.ctx w.page = none ∧
      ∀ j ∈ w.joiners, (coreOf s j.core).slice.map (·.ctx) = some w.ctx →
        walkedAt (coreOf t j.core) j.requester w.ctx (w.page * 65536) = some r ∧
        ∀ va kind, (me { s with curCore := j.core, curStream := j.requester }).waiting = some (.page va kind) →
          va / 65536 = w.page → (me { t with curCore := j.core, curStream := j.requester }).waiting = none)

/-- R82-R87: the swap engine refuses a command by its checks, and a superseded promotion, with no step. It then takes
its pages one by one: a page's leaves get TRANSIT and its translations leave every TLB; once no access by them is
outstanding the markers enter the copy queues; once no copy ahead of those stands, and the frames are in reach, the
contents move and the new leaf is written. The last page ends the command, which is reported and advances its timeline.
That these steps of a page are events of their own, and that a copy which a checkpoint slot holds within a page counts
as ahead, are the model's choices (log entry 46, DESIGN CHOICE). -/
def Sys2Proof.Slice0.SwapEngineMovesPages : Prop :=
  (∀ (s : State) (ctx tower : Nat) (c : SwapCmd), ctx < Config.contexts → swapHead s ctx tower = some c →
    c.page = 0 → c.transit = none → swapCheck s ctx c.image = none → swapOp c.image = 3 → srcStands s c.image = false →
      exec (.promote ctx tower) s = .next (swapEnd s ctx tower 0x45 false 0)) ∧
  (∀ (s : State) (ctx tower : Nat) (c : SwapCmd) (ls : List (Nat × Nat)), ctx < Config.contexts →
    swapHead s ctx tower = some c → c.page = 0 → c.transit = none → swapCheck s ctx c.image = none → Canonical s →
    (swapOp c.image = 3 → srcStands s c.image = true) → pageLeaves s c = some ls → (∀ l ∈ ls, flag l.1 7 = false) →
    ∀ p ∈ [(1, Instr.migrate ctx tower), (2, .exchange ctx tower), (3, .promote ctx tower)], swapOp c.image = p.1 →
      ∃ t, exec p.2 s = .next t ∧ swapHead t ctx tower = some { c with transit := some { leaves := ls } } ∧
        (∀ l ∈ ls, fromBytes (readBytes t.mem (Loc.hbm l.2).key 8) = pteTransit l.1 true) ∧
        ∀ n, ∀ e ∈ (coreOf t n).tlb, e.ctx = swapCtx c.image → ∀ va ∈ pageAddresses c,
          e.base + e.size ≤ va ∨ va + pageBytes (swapLevel c.image) ≤ e.base) ∧
  (∀ (s : State) (ctx tower : Nat) (c : SwapCmd) (x : Transit), ctx < Config.contexts →
    swapHead s ctx tower = some c → c.transit = some x →
    ∀ p ∈ [(1, Instr.migrate ctx tower), (2, .exchange ctx tower), (3, .promote ctx tower)], swapOp c.image = p.1 →
      (x.ahead = none → exec p.2 s = .next (if pageUsed s c then s else enterMarkers s ctx tower c x)) ∧
      (∀ ahead, x.ahead = some ahead → (∃ m ∈ ahead, copyStands s (swapCtx c.image) m = true) →
        exec p.2 s = .next s) ∧
      ∀ ahead, x.ahead = some ahead → (∀ m ∈ ahead, copyStands s (swapCtx c.image) m = false) →
        (∀ e ∈ pageFrames c x, pageReached s (swapCtx c.image) (swapLevel c.image) e = true) →
        exec p.2 s = .next (swapLast (pastPage (installPage s c x) ctx tower true (oldPoisoned s c x)) ctx tower)) ∧
  (∀ (s : State) (c : SwapCmd) (x : Transit) (e a : Nat), Canonical s → x.leaves = [(e, a)] →
    fromBytes (readBytes (installPage s c x).mem (Loc.hbm a).key 8) = destLeaf c.image c.page % 2 ^ 64) ∧
  (∀ (s : State) (ctx tower : Nat) (c : SwapCmd) (rest : List SwapCmd), swapsOf s ctx tower = c :: rest →
    swapPages c.image ≤ c.page → swapOp c.image ≠ 3 →
    swapLast s ctx tower = swapEnd s ctx tower (if c.poison then 0x46 else 0) false c.moved) ∧
  (∀ (s : State) (ctx tower code : Nat) (c : SwapCmd), ctx < Config.contexts → swapHead s ctx tower = some c →
    c.page = 0 → c.transit = none → swapCheck s ctx c.image = some code → code ≠ 0x40 →
    ∀ p ∈ [(1, Instr.migrate ctx tower), (2, .exchange ctx tower), (3, .promote ctx tower)],
      swapOp c.image = p.1 → exec p.2 s = .next (swapEnd s ctx tower code false 0)) ∧
  (∀ (s : State) (ctx tower : Nat) (c : SwapCmd), ctx < Config.contexts → swapHead s ctx tower = some c →
    c.page = 0 → c.transit = none → swapCheck s ctx c.image = some 0x40 →
    exec (.swapBadOp ctx tower) s = .next (swapEnd s ctx tower 0x40 false 0)) ∧
  (∀ (s : State) (ctx tower status pages : Nat) (late : Bool) (c : SwapCmd) (rest : List SwapCmd),
    ctx < Config.contexts → swapsOf s ctx tower = c :: rest → c.result = some (status, late, pages) →
    swapWaits s ctx c = false →
    exec (.swapComplete ctx tower) s = .next (pulseAll (tlDone
      (onSwaps (swapReport s ctx c status late pages) ctx tower fun _ => rest) ctx (128 * 9 + tower) c.number)
      ctx 8 (towerCores tower)))

/-- R82-R86, R88-R93: memory errors, retirement and remapping, and the swap engine. -/
def Obligations.MemoryErrorsAndSwaps : Prop := ErrorsAndRetirement ∧ SwapEngineMovesPages

/-- R102-R108, R112, R133, R135: a round ends slices, places records in issue order, pre-empts and lends what is idle; a
placed slice starts; a slice that may stop is checkpointed; the bucket refills; a passed deadline is counted once; an
exhausted budget traps, or fails a slice already extended; an exhausted handler allowance fails the slice; a first touch
maps a region, and a transfer's end frees it to be used. That a round starts the slices placed before, kills and fences
in this order between those steps, and that it lends every idle core without a reservation, are the model's choices (log
entry 47, DESIGN CHOICE); the INFO of a budget trap, which no rule gives, is a free value (log entry 2). -/
def Sys2Proof.Slice0.SchedulerEventsTakeEffect : Prop :=
  (∀ s : State, ∃ t, exec .schedulerRound s = .next t ∧
    t = (let s := (tickets s fun r => r.placed).foldl startSlice s
         let s := (tickets s onCores).foldl endSlice s
         let s := (tickets s (killable s)).foldl killSlice s
         let s := preempt ((issueOrder (tickets (fenceIdle s) unplaced)).foldl considerRecord { state := fenceIdle s })
         { s with lent := idleCores s })) ∧
  (∀ (s : State) (ctx i : Nat) (r : Record), recordOf s ctx i = some r → r.placed = true →
    ∃ t, exec (.sliceStart ctx i) s = .next t ∧ t = startSlice s ⟨ctx, i, r⟩) ∧
  (∀ (s : State) (ctx i : Nat) (r : Record), recordOf s ctx i = some r → r.stopping = some true →
    stoppable s ctx i r = true →
    ∃ t, exec (.checkpointComplete ctx i) s = .next t ∧
      t = onRecord ((recordCores r).foldl (saveCore ctx i) s) ctx i fun v => { v with
        state := .checkpointed, stopping := none, est := remaining ((recordCores r).foldl (saveCore ctx i) s) v }) ∧
  (∀ (s : State) (ctx : Nat), ctx < Config.contexts →
    s.mtime / refillPeriod (ctxOf s ctx) ≠ (ctxOf s ctx).refilled / refillPeriod (ctxOf s ctx) →
    ∃ t, exec (.bucketRefill ctx) s = .next t ∧ (ctxOf t ctx).tokens = field (reg (ctxOf s ctx) 0x185C) 24 8 ∧
      ∀ c, c ≠ ctx → ctxOf t c = ctxOf s c) ∧
  (∀ (s : State) (ctx i : Nat) (r : Record), recordOf s ctx i = some r → r.missed = false → r.limit < s.mtime →
    exec (.deadlineMiss ctx i) s = .next (countMiss (onRecord s ctx i fun r => { r with missed := true }) ctx)) ∧
  (∀ (s : State) (ctx i : Nat) (r : Record), recordOf s ctx i = some r → onCores r = true → r.placed = false →
    budgetOf r ≤ r.used → (coreOf s (r.home.getD 0)).halted = false →
    (r.extended = true →
      exec (.budgetExhausted ctx i) s = .next (failSlice (countBudget s ctx) ctx i 0x71)) ∧
    (r.extended = false → exec (.budgetExhausted ctx i) s = .next (takeException (drawWord s).2 (r.home.getD 0) 0 0x11
      (drawWord s).1 (streamOf (coreOf (drawWord s).2 (r.home.getD 0)) 0).pc))) ∧
  (∀ (s : State) (ctx : Nat) (h : Halt) (v : Handler), ctx < Config.contexts → (ctxOf s ctx).halt = some h →
    (coreOf s h.origin).handler = some v → Config.allowance ≤ v.used →
    exec (.handlerAllowanceExhausted ctx) s = .next (returnFrom s ctx 1 v.refused)) ∧
  (∀ (s t : State) (core region : Nat), region < regionCount → (coreOf s core).slice.isSome = true →
    touchRegion s core region = some t → exec (.regionFirstTouch core region) s = .next t) ∧
  (∀ (s : State) (core region : Nat), ∃ t, exec (.regionTransferDone core region) s = .next t ∧ t.mem = s.mem ∧
    ∀ g ∈ (coreOf t core).regions, g.index = region → g.moving = false)

/-- R102, R132, R133: a slice that starts afresh runs `cc` at word 2 of the line at CODE with g2 = FRAME and g8 = UNIT,
every other stream idle, and its record is no longer waiting to start. -/
def Sys2Proof.Slice0.FreshSliceStartsAtCode : Prop :=
  ∀ (s : State) (ctx i : Nat) (r : Record), recordOf s ctx i = some r → r.placed = true → r.rows = 1 → r.cols = 1 →
    r.sctx = 0 → savedCore s ctx i (r.home.getD 0) = none → r.home.getD 0 < Config.cores → r.code + 8 < 2 ^ 64 →
    ∃ t, exec (.sliceStart ctx i) s = .next t ∧ (coreOf t (r.home.getD 0)).slice = some ⟨ctx, i⟩ ∧
      (streamOf (coreOf t (r.home.getD 0)) 0).status = .running ∧
      (streamOf (coreOf t (r.home.getD 0)) 0).pc.toNat = r.code + 8 ∧
      gValue (streamOf (coreOf t (r.home.getD 0)) 0) 2 = word r.frame ∧
      gValue (streamOf (coreOf t (r.home.getD 0)) 0) 8 = word r.unit ∧
      (∀ n, n ≠ 0 → streamOf (coreOf t (r.home.getD 0)) n = {}) ∧
      ∃ r', recordOf t ctx i = some r' ∧ r'.placed = false ∧ r'.started = s.mtime

/-- R96-R112: the scheduler's events, and the stream a fresh slice starts. -/
def Obligations.SchedulerAndFreshSlices : Prop := SchedulerEventsTakeEffect ∧ FreshSliceStartsAtCode

/-- R119: a Geyser round takes killed batches back, applies configurations, decides pushes, fires and pops, moves
spilled entries on chip, fires at most four ready queues, and answers the streams that wait for a status word. That it
takes the queues in ascending number where the pool has no room for every spilled entry is the model's choice (log entry
22, DESIGN CHOICE). -/
def Sys2Proof.Slice0.GeyserRoundStepsInOrder : Prop :=
  ∀ (s : State) (w : Nat), w < Config.towers →
    exec (.geyserRound w) s = .next (
      let old := towerOf s w
      let s := onTower s w fun x => { x with killed := [], commands := [] }
      let s := old.killed.foldl (returnBatch w) s
      let s := runCommands w configCommand s (old.commands.filter fun c => c.op == 2)
      let s := runCommands w entryCommand s (old.commands.filter fun c => c.op != 2)
      let s := (towerOf s w).queues.foldl (fun s e => unspill w e.1 e.2.spilled.length s) s
      let s := fireAll w 4 s (sortBy firesBefore ((towerOf s w).queues.filterMap fun e => readyOf s w e.1 e.2))
      (List.range Config.cores).foldl (answerStatus w) s)

/-- R118: a push into an enabled queue of the pusher's context, with nothing spilled and room on chip, is accepted: the
entry goes on chip with the next acceptance number, BYP 0 and PROMO clear, and the code is 0x80. -/
def Sys2Proof.Slice0.PushAccepted : Prop :=
  ∀ (s : State) (w : Nat) (c : GeyCmd), gqEn (gqueueOf s w c.queue) = true →
    queueOwner (gqueueOf s w c.queue) = c.ctx → (gqueueOf s w c.queue).spilled = [] →
    chipRoom s w c.queue = true →
    (decidePush s w c).1 = 0x80 ∧ ∃ e, e.order = (towerOf s w).order ∧ e.byp = 0 ∧ e.promo = false ∧
      e.ctx = c.ctx ∧ e.arrive = (towerOf s w).cycle % 2 ^ 32 ∧
      (gqueueOf (decidePush s w c).2 w c.queue).onchip = (gqueueOf s w c.queue).onchip ++ [e] ∧
      (towerOf (decidePush s w c).2 w).order = (towerOf s w).order + 1 ∧ (decidePush s w c).2.mem = s.mem

/-- R138-R141, R161: a copy command that may start moves its bytes. Where both sides translate and their regions are
there, COPY and FILL do all LEN bytes and TILE all its elements in one event, the data at DST being that of SRC, or the
fill; FEED appends its elements to its stream register while the register has room, and else waits; each then has its
status. One whose work is over leaves the queue, its tl.ce number done, with an item record unless it succeeded; one at
the head that fails its checks ends with CP_BADOP. -/
def Sys2Proof.Slice0.CopyCommandsRun : Prop :=
  (∀ (s : State) (core number : Nat) (c : CopyCmd), copyOf s core number = some c → copyBad c.image = false →
    c.status = none → (coreOf s core).halted = false → (coreOf s core).slice.isSome = true →
    mayStart (coreOf s core) c = true →
    (cpOp c.image = 1 → exec (.copyCmd core number) s =
      .next (advanceCopy s core c (copyBytes c.image (cpLen c.image / 32768 + 3)))) ∧
    (cpOp c.image = 2 → exec (.tileCmd core number) s = .next (advanceCopy s core c (copyTile c.image))) ∧
    (cpOp c.image = 3 → exec (.fillCmd core number) s =
      .next (advanceCopy s core c (copyBytes c.image (cpLen c.image / 32768 + 3)))) ∧
    (cpOp c.image = 4 → exec (.feedCmd core number) s = .next (advanceCopy s core c fun p =>
      if feedFirst p.state core number c.image then feedElements core c.image 64 p
      else { p with stop := some (.wait (.cause 1)) })) ∧
    (c.done = 0 → c.poison = false → c.stall = none →
      (cpOp c.image = 1 →
        (∀ o n, 0 < n → o + n ≤ cpLen c.image → n ≤ toEdge (cpSrcCs c.image) (cpSrc c.image + o) →
          n ≤ toEdge (cpDstCs c.image) (cpDst c.image + o) →
          engineReaches s core (c.held ++ c.pinned) 6 (cpSrcCs c.image) (cpSrc c.image + o) n ∧
            engineReaches s core (c.held ++ c.pinned) 7 (cpDstCs c.image) (cpDst c.image + o) n) →
        ∃ t, exec (.copyCmd core number) s = .next t ∧ copyDone t core number (cpLen c.image) ∧
          ∀ ps qs, 0 < cpLen c.image → cpLen c.image ≤ toEdge (cpSrcCs c.image) (cpSrc c.image) →
            cpLen c.image ≤ toEdge (cpDstCs c.image) (cpDst c.image) →
            places (onEngine s core (c.held ++ c.pinned)) 6 (sideEa (cpSrcCs c.image) (cpSrc c.image)) (cpLen c.image) =
              .ok (ps, onEngine s core (c.held ++ c.pinned)) →
            places (onEngine s core (c.held ++ c.pinned)) 7 (sideEa (cpDstCs c.image) (cpDst c.image)) (cpLen c.image) =
              .ok (qs, onEngine s core (c.held ++ c.pinned)) →
            t.mem = (writePieces (onEngine s core (c.held ++ c.pinned)) qs
              (readPieces (onEngine s core (c.held ++ c.pinned)) ps)).mem) ∧
      (cpOp c.image = 3 →
        (∀ o n, 0 < n → o + n ≤ cpLen c.image → n ≤ toEdge (cpDstCs c.image) (cpDst c.image + o) →
          engineReaches s core (c.held ++ c.pinned) 7 (cpDstCs c.image) (cpDst c.image + o) n) →
        ∃ t, exec (.fillCmd core number) s = .next t ∧ copyDone t core number (cpLen c.image) ∧
          ∀ qs, 0 < cpLen c.image → cpLen c.image ≤ toEdge (cpDstCs c.image) (cpDst c.image) →
            places (onEngine s core (c.held ++ c.pinned)) 7 (sideEa (cpDstCs c.image) (cpDst c.image)) (cpLen c.image) =
              .ok (qs, onEngine s core (c.held ++ c.pinned)) →
            t.mem = (writePieces (onEngine s core (c.held ++ c.pinned)) qs (fillBytes c.image 0 (cpLen c.image))).mem) ∧
      (cpOp c.image = 2 → ∀ vs bad s1 s2,
        readTile (onEngine s core (c.held ++ c.pinned)) (cpBits c.image) (srcSide c.image)
          (cellsOf (cpRows c.image) (cpCols c.image)) =
          .ok (vs, bad, s1) →
        writeTile s1 (cpBits c.image) (dstSide c.image) (cpFlag c.image 2)
          ((cellsOf (cpRows c.image) (cpCols c.image)).zip vs) = .ok s2 →
        ∃ t, exec (.tileCmd core number) s = .next t ∧ t.mem = s2.mem ∧
          copyDone t core number ((cpRows c.image * cpCols c.image * cpBits c.image + 7) / 8)) ∧
      (cpOp c.image = 4 → feedFirst s core number c.image = true →
        (look {} (coreOf s core).dregs (cpDsel c.image)).fifo.length + feedCount c.image ≤ 64 →
        ∀ (v : Nat → Nat) (bad : Nat → Bool), (∀ i, i < feedCount c.image →
          feedElement (onEngine s core (c.held ++ c.pinned)) c.image i =
            .ok (v i, bad i, onEngine s core (c.held ++ c.pinned))) →
        ∃ t, exec (.feedCmd core number) s = .next t ∧ copyDone t core number (feedCount c.image) ∧
          (look {} (coreOf t core).dregs (cpDsel c.image)).fifo =
            (look {} (coreOf s core).dregs (cpDsel c.image)).fifo ++
              (List.range (feedCount c.image)).map fun i => word (v i)))) ∧
  (∀ (s : State) (core number code : Nat) (c : CopyCmd), copyOf s core number = some c → c.status = some code →
    c.stall = none → code = 0 ∨ roomForItems s →
    exec (.copyCmdComplete core number) s = .next (copyEnd s core c code) ∧
    (∀ x ∈ (coreOf (copyEnd s core c code) core).copies, x.ctx = c.ctx → x.number ≠ c.number) ∧
    tlOf (copyEnd s core c code) c.ctx (tlKey 7 core) = tlComplete (tlOf s c.ctx (tlKey 7 core)) c.number) ∧
  (∀ (s : State) (core number : Nat) (c : CopyCmd), copyOf s core number = some c → c.status = none → c.stall = none →
    copyBad c.image = true → (∀ b ∈ copiesBefore (coreOf s core) number, b.started = true) →
    (coreOf s core).halted = false → roomForItems s →
    exec (.copyCmdComplete core number) s = .next (copyEnd s core c 0xA1))

/-- R374: the grammar engine executes the first command that may go, when its operation is the event's. -/
def Sys2Proof.Slice0.GrammarEngineRuns : Prop :=
  ∀ (s : State) (w i : Nat) (c : GramCmd), w < Config.towers → firstCommand s [] (towerOf s w).gram = some (i, c) →
    (c.op = 1 → exec (.grammarStep w) s = .next (runCommand s w i c)) ∧
    (c.op = 2 → exec (.grammarMask w) s = .next (runCommand s w i c)) ∧
    (c.op = 3 → exec (.grammarSet w) s = .next (runCommand s w i c)) ∧
    (c.op = 3 → c.owed = none → malformed s c = false →
      runCommand s w i c = completeCommand (setSlot s w c.slot (c.arg.setWidth 32) false) w i c
        (commandEntry (setSlot s w c.slot (c.arg.setWidth 32) false) w c))

/-- R143, R150, R162, R165, R168, R182, R244, R300, R308: a fetch fills the stream's line, a load's data returns, a
write-back lands, a nest runs its iterations up to its next drain and drains, and completes its number once none is
left, deep blocks and seals come, a timeline, gate or front that has come ends its wait, a halt becomes quiescent, and a
trace span gets its SYNC. That one event makes all the iterations up to and with the next drain is the model's choice
(log entry 63, DESIGN CHOICE), and so is that a drain counts as done while replies for which the queue has no room are
owed (log entry 55, DESIGN CHOICE; R153 says that the drain stalls). -/
def Obligations.WaitsAreReleased : Prop :=
  (∀ (s : State) (core stream line : Nat) (t : State), stream < 7 → canIssue s core stream = true →
    heldLine { s with curCore := core, curStream := stream } = .ok (line, t) → lineOk line = true →
    exec (.fetchLine core stream) s = .next { t with curCore := s.curCore, curStream := s.curStream }) ∧
  (∀ (s : State) (core stream : Nat) (l : Load) (rest : List Load),
    (me { s with curCore := core, curStream := stream }).loads = l :: rest →
    exec (.loadDataReturn core stream) s = .next (returnLoad s core stream l)) ∧
  (∀ (s : State) (core stream : Nat), exec (.writebackLand core stream) s =
    .next (asStream s core stream fun s => onMe s landDue)) ∧
  (∀ (s u : State) (core engine k : Nat) (n m : Nest) (f : Nat → State),
    (look {} (coreOf s core).engines engine).nest = some n → n.stall = none → n.owed = [] →
    (coreOf s core).halted = false → (coreOf s core).slice.isSome = true → roomForItems s →
    n.iteration < nestTotal n.regs → k + n.iteration % nestTrip n.regs 0 = nestTrip n.regs 0 →
    f 0 = { s with curCore := core, curStream := engine + 2 } →
    (∀ i < k, nestStep (f i) { n with iteration := n.iteration + i } = .ok (f (i + 1))) →
    drainRows (f k) { n with iteration := n.iteration + k } (nestAcc n.regs (nestIndex n.regs (n.iteration + k - 1)))
      n.drains (shapeRows n.shapeA.toNat) 0 = .ok (u, m) →
    ∃ t e, exec (.nestDrain core engine) s = .next t ∧ (look {} (coreOf t core).engines engine).nest = some e ∧
      e.iteration = n.iteration + k ∧ e.drains = n.drains + 1 ∧ t.mem = u.mem ∧
      (coreOf t core).replies =
        (coreOf u core).replies ++ m.owed.take (256 - (coreOf u core).replies.length) ∧
      e.owed = m.owed.drop (256 - (coreOf u core).replies.length)) ∧
  (∀ (s : State) (core engine : Nat) (n : Nest), (look {} (coreOf s core).engines engine).nest = some n →
    nestTotal n.regs ≤ n.iteration → n.owed = [] → (coreOf s core).halted = false →
    ∃ t, exec (.nestComplete core engine) s = .next t ∧ (look {} (coreOf t core).engines engine).nest = none ∧
      tlOf t (coreCtx s core) (tlKey (engine + 3) core) =
        tlComplete (tlOf s (coreCtx s core) (tlKey (engine + 3) core)) n.number ∧
      (coreOf t core).counters =
        (if n.pulse then (pulseCore (coreOf s core) (engine + 2)).counters else (coreOf s core).counters) ∧
      t.mem = s.mem) ∧
  (∀ (s : State) (core stream n j : Nat),
    (me { s with curCore := core, curStream := stream }).waiting = some (.block n j) →
    exec (.deepBlockReadDone core stream) s =
      .next (asStream s core stream fun s => onMe s fun st => { st with served := true })) ∧
  (∀ (s : State) (core stream n : Nat),
    (me { s with curCore := core, curStream := stream }).waiting = some (.seal n) →
    exec (.sealedBlockWriteDone core stream) s =
      .next (asStream s core stream fun s => sealsDone core s (myKey s n))) ∧
  (∀ (s : State) (core stream sel place value : Nat), stream < 7 → canIssue s core stream = true →
    (me { s with curCore := core, curStream := stream }).waiting = some (.timeline sel place value) →
    value ≤ counterValue { s with curCore := core, curStream := stream } sel place →
    exec (.timelineWaitRelease core stream) s = .next (asStream s core stream fun s => retire s core stream 0 0)) ∧
  (∀ (s : State) (core stream k m : Nat), stream < 7 → canIssue s core stream = true →
    (me { s with curCore := core, curStream := stream }).waiting = some (.gate k) →
    openTerm (coreOf s core) k = some m →
    exec (.gateWaitRelease core stream) s = .next (asStream s core stream fun s =>
      retire (onCore s core fun k => consume k m) core stream 0 0)) ∧
  (∀ (s : State) (core stream n j : Nat) (g : Signal), stream < 7 → canIssue s core stream = true →
    (me { s with curCore := core, curStream := stream }).waiting = some (.front n j) →
    sigOf { s with curCore := core, curStream := stream } (myKey { s with curCore := core, curStream := stream } n) =
      some g → j < g.front →
    exec (.frontWaitRelease core stream) s = .next (asStream s core stream fun s =>
      onMe (traceWait s (me s)) fun st => { st with waiting := none })) ∧
  (∀ (s : State) (ctx : Nat) (h : Halt), ctx < Config.contexts → (ctxOf s ctx).halt = some h → h.quiet = false →
    h.reason ≠ 0x16 → (∀ c ∈ h.cores, awaitsGeyser s c = false) →
    (∀ c ∈ h.cores, frameWaits s ctx c = false) →
    exec (.haltQuiescence ctx) s = .next (deliver
      (onCtx (writeFrames (settle s ctx h.cores) ctx { h with quiet := true } h.cores).1 ctx fun c =>
        { c with halt := some { h with quiet := true } }) ctx { h with quiet := true }
      (writeFrames (settle s ctx h.cores) ctx { h with quiet := true } h.cores).2)) ∧
  (∀ (s : State) (core : Nat), (coreOf s core).slice.isSome = true →
    (coreOf s core).cycle / 65536 ≠ (coreOf s core).synced →
    ∃ t, exec (.traceSync core) s = .next t ∧ (coreOf t core).synced = (coreOf s core).cycle / 65536)

/-- R113-R129, R373-R374: a Geyser round, a push it accepts, and the commands of the grammar engine. -/
def Obligations.TowerEnginesRun : Prop := PushAccepted ∧ GeyserRoundStepsInOrder ∧ GrammarEngineRuns

/-- R269-R271: the integer operations of two operands write op(a, b) in every form: G and L after reading a then b, with
an L form's b the sign-extended LIT; the operations of one operand; those with an immediate. -/
def Obligations.IntegerGResults : Prop :=
  (∀ p ∈ integerOps, ∀ (f : GFields) (s s1 s2 : State) (x y : Word), guardHolds s = true →
    readReg s f.a = .ok (x, s1) → readReg s1 f.b = .ok (y, s2) → settled (me s2) f.dst = .ok () →
    exec (p.1 f) s = .next (finish (written (emptySources s2 f.lu f.a (.reg f.b)) f.dst (p.2.2.2 x y)) 8 none)) ∧
  (∀ p ∈ integerOps, ∀ i, p.2.1 = some i → ∀ (f : LFields) (s s1 : State) (x : Word), guardHolds s = true →
    readReg s f.a = .ok (x, s1) → settled (me s1) f.dst = .ok () →
    exec (i f) s = .next (finish (written (emptyIf s1 f.lu f.a) f.dst (p.2.2.2 x (f.lit.signExtend 64))) 12 none)) ∧
  (∀ p ∈ unaryOps, ∀ (f : GFields) (s s1 s2 : State) (x y : Word), guardHolds s = true →
    readReg s f.a = .ok (x, s1) → readReg s1 f.b = .ok (y, s2) → settled (me s2) f.dst = .ok () →
    exec (p.1 f) s = .next (finish (written (emptySources s2 f.lu f.a (.reg f.b)) f.dst (p.2 x)) 8 none)) ∧
  (∀ p ∈ immediateOps, ∀ (f : GFields) (s s1 : State) (x : Word), guardHolds s = true →
    readReg s f.a = .ok (x, s1) → settled (me s1) f.dst = .ok () →
    exec (p.1 f) s = .next (finish (written (emptyIf s1 f.lu f.a) f.dst (p.2.2 x (f.imm.signExtend 64))) 8 none))

/-- R269-R271, R275, R276: the Q-class operations write op(a, b) to q DST, unpredicated, with an immediate b the
sign-extended IMM6; MOV, MOVQ, MOVG and LI move a value. -/
def Obligations.IntegerQResults : Prop :=
  (∀ p ∈ integerOps, ∀ i, p.2.2.1 = some i → ∀ (f : QFields) (s : State) (x y : Word),
    readQ s f.a.toNat = .ok x → readQ s f.b.toNat = .ok y → settled (me s) (qReg f.dst) = .ok () →
    exec (i f) s = .next (finish (written (emptyQs f true s) (qReg f.dst) (p.2.2.2 x y)) 4 none)) ∧
  (∀ p ∈ immediateOps, ∀ (f : QFields) (s : State) (x : Word), readQ s f.a.toNat = .ok x →
    settled (me s) (qReg f.dst) = .ok () →
    exec (p.2.1 f) s =
      .next (finish (written (emptyQs f false s) (qReg f.dst) (p.2.2 x (f.imm.signExtend 64))) 4 none)) ∧
  (∀ (f : QFields) (s : State) (x : Word), readQ s f.a.toNat = .ok x → settled (me s) (qReg f.dst) = .ok () →
    exec (.movQ f) s = .next (finish (written (emptyQs f false s) (qReg f.dst) x) 4 none)) ∧
  (∀ (f : QFields) (s : State) (x : Word), readG s (2 * f.imm.toNat + bit01 f.blast) = .ok x →
    settled (me s) (qReg f.dst) = .ok () → exec (.movq f) s = .next (finish (written s (qReg f.dst) x) 4 none)) ∧
  (∀ (f : QFields) (s : State) (x : Word), readQ s f.a.toNat = .ok x →
    settled (me s) (BitVec.ofNat 8 (2 * f.imm.toNat + bit01 f.blast)) = .ok () →
    exec (.movg f) s =
      .next (finish (written (emptyQs f false s) (BitVec.ofNat 8 (2 * f.imm.toNat + bit01 f.blast)) x) 4 none)) ∧
  (∀ (f : JFields) (s : State), settled (me s) (qReg f.pred) = .ok () →
    exec (.li f) s = .next (finish (written s (qReg f.pred) (f.imm.signExtend 64)) 4 none))

/-- R272: a division by zero gives the values of the rule and sets DZ; every other division rounds toward zero, with a
remainder of the sign of a and a = q·b + r, and sets no flag; −2^63 by −1 gives −2^63 and 0; a division never faults. -/
def Obligations.DivisionResults : Prop :=
  (∀ p ∈ divideOps, ∀ (f : GFields) (s s1 s2 : State) (x y : Word), guardHolds s = true →
    readReg s f.a = .ok (x, s1) → readReg s1 f.b = .ok (y, s2) → settled (me s2) f.dst = .ok () →
    ∃ t, exec (p.1 f) s = .next (finish (written t f.dst (p.2.2 x y)) 8 none) ∧
      t = (onMe (emptySources s2 f.lu f.a (.reg f.b)) fun st =>
        { st with fflags := st.fflags ||| (if y = 0 then 0x08 else 0) })) ∧
  (∀ p ∈ divideOps, ∀ (f : LFields) (s s1 : State) (x : Word), guardHolds s = true → readReg s f.a = .ok (x, s1) →
    settled (me s1) f.dst = .ok () →
    ∃ t, exec (p.2.1 f) s = .next (finish (written t f.dst (p.2.2 x (f.lit.signExtend 64))) 12 none) ∧
      t = (onMe (emptyIf s1 f.lu f.a) fun st =>
        { st with fflags := st.fflags ||| (if (f.lit.signExtend 64 : Word) = 0 then 0x08 else 0) })) ∧
  (∀ a b : Word, b ≠ 0 →
    (BitVec.ofInt 64 (a.toInt.tdiv b.toInt)) * b + BitVec.ofInt 64 (a.toInt.tmod b.toInt) = a ∧
    (0 ≤ a.toInt → 0 ≤ (BitVec.ofInt 64 (a.toInt.tmod b.toInt)).toInt) ∧
    (a.toInt ≤ 0 → (BitVec.ofInt 64 (a.toInt.tmod b.toInt)).toInt ≤ 0) ∧
    (BitVec.ofInt 64 (a.toInt.tmod b.toInt)).toInt.natAbs < b.toInt.natAbs) ∧
  (∀ a b : Word, a.toInt = -2 ^ 63 → b.toInt = -1 →
    BitVec.ofInt 64 (a.toInt.tdiv b.toInt) = a ∧ BitVec.ofInt 64 (a.toInt.tmod b.toInt) = 0)

/-- R270, R273, R276, R277, R292: selection and bit fields, comparisons into predicates, constants and NOP. -/
def Sys2Proof.Slice0.SelectCompareAndConstants : Prop :=
  (∀ (f : GFields) (s s1 s2 : State) (x y : Word), guardHolds s = true → readReg s f.a = .ok (x, s1) →
    readReg s1 f.b = .ok (y, s2) → settled (me s2) f.dst = .ok () →
    (exec (.bfxG f) s = .next (finish (written (emptySources s2 f.lu f.a (.reg f.b)) f.dst
      (word (field x.toNat (f.imm.toNat % 64) (f.imm.toNat / 64 % 64 + 1)))) 8 none)) ∧
    (exec (.bfiG f) s = .next (finish (written (emptySources s2 f.lu f.a (.reg f.b)) f.dst
      (word (setField y.toNat (f.imm.toNat % 64) (f.imm.toNat / 64 % 64 + 1) x.toNat))) 8 none)) ∧
    (∀ old, readOld s f.dst = .ok old → exec (.selG f) s = .next (finish
      (written (emptySources s2 f.lu f.a (.reg f.b)) f.dst (if old = 0 then y else x)) 8 none))) ∧
  (∀ (f : LFields) (s s1 : State) (x old : Word), guardHolds s = true → readOld s f.dst = .ok old →
    readReg s f.a = .ok (x, s1) → settled (me s1) f.dst = .ok () →
    exec (.selL f) s = .next (finish
      (written (emptyIf s1 f.lu f.a) f.dst (if old = 0 then f.lit.signExtend 64 else x)) 12 none)) ∧
  (∀ p ∈ compareOps, ∀ (f : GFields) (s s1 s2 : State) (x y : Word), guardHolds s = true →
    readReg s f.a = .ok (x, s1) → readReg s1 f.b = .ok (y, s2) → exec (p.1 f false) s = .next (finish
      (written (emptySources s2 f.lu f.a (.reg f.b)) f.dst (word (bit01 (p.2.2 x y)))) 8 none)) ∧
  (∀ p ∈ compareOps, ∀ (f : GFields) (s s1 : State) (x : Word), guardHolds s = true →
    readReg s f.a = .ok (x, s1) → exec (p.1 f true) s = .next (finish
      (written (emptyIf s1 f.lu f.a) f.dst (word (bit01 (p.2.2 x (f.imm.signExtend 64))))) 8 none)) ∧
  (∀ p ∈ compareOps, ∀ (f : QFields) (s : State) (x y : Word), readQ s f.a.toNat = .ok x →
    readQ s f.b.toNat = .ok y → exec (p.2.1 f) s = .next (finish
      (written (emptyQs f true s) (cReg f.dst) (word (bit01 (p.2.2 x y)))) 4 none)) ∧
  (∀ (f : LFields) (s : State), guardHolds s = true → settled (me s) f.dst = .ok () →
    exec (.liw f) s = .next (finish (written s f.dst ((f.imm ++ f.lit).signExtend 64)) 12 none) ∧
    exec (.fli f) s = .next (finish (written s f.dst
      (word (fconvert (scalarFmt f.imm.toNat) 0 (fval f32 f.lit.toNat)).bits)) 12 none)) ∧
  (∀ s : State, exec .nop s = .next (finish s 4 none))

/-- Table 13.1: what CLZ, CTZ and POPC count. -/
def Sys2Proof.Slice0.BitCountsAreRight : Prop :=
  (∀ a : Word, a = 0 → opClz a = 64 ∧ opCtz a = 64 ∧ opPopc a = 0) ∧
  (∀ a : Word, a ≠ 0 → (opClz a).toNat < 64 ∧ a.getLsbD (63 - (opClz a).toNat) = true ∧
    ∀ i, 63 - (opClz a).toNat < i → a.getLsbD i = false) ∧
  (∀ a : Word, a ≠ 0 → (opCtz a).toNat < 64 ∧ a.getLsbD (opCtz a).toNat = true ∧
    ∀ i, i < (opCtz a).toNat → a.getLsbD i = false) ∧
  (∀ a : Word, (opPopc a).toNat = ((List.range 64).filter fun i => a.getLsbD i).length)

/-- R270, R271, R273, R276, R292: selects, bit fields, compares, constants, NOP and bit counts. -/
def Obligations.SelectCompareAndCounts : Prop := SelectCompareAndConstants ∧ BitCountsAreRight

/-- R278-R281: the float operations act on the low bits of their type under `sr.rmode`, write the result with the bits
above its type cleared, and set its flags. -/
def Sys2Proof.Slice0.FloatResults : Prop :=
  (∀ p ∈ [(Instr.fadd, faddR), (.fsub, fsubR), (.fmul, fmulR), (.fmin, fun m _ a b => minMax m false a b),
      (.fmax, fun m _ a b => minMax m true a b),
      (.fsgn, fun m _ a b => ⟨a % signBit m + b / signBit m * signBit m, 0⟩)],
    ∀ (f : GFields) (s s1 s2 : State) (x y : Word) (r : FRes), guardHolds s = true →
    readReg s f.a = .ok (x, s1) → readReg s1 f.b = .ok (y, s2) → settled (me s2) f.dst = .ok () →
    r = p.2 (opFmt f) (me s2).rmode.toNat (lowBits (opFmt f) x) (lowBits (opFmt f) y) →
    exec (p.1 f) s = .next (finish
      (written (setFlags (emptySources s2 f.lu f.a (.reg f.b)) r.flags) f.dst (word r.bits)) 8 none)) ∧
  (∀ (f : GFields) (s s1 s2 : State) (x y old : Word) (r : FRes), guardHolds s = true →
    readOld s f.dst = .ok old → readReg s f.a = .ok (x, s1) → readReg s1 f.b = .ok (y, s2) →
    settled (me s2) f.dst = .ok () →
    r = fmaR (opFmt f) (me s2).rmode.toNat (lowBits (opFmt f) x) (lowBits (opFmt f) y) (lowBits (opFmt f) old) →
    exec (.fma f) s = .next (finish
      (written (setFlags (emptySources s2 f.lu f.a (.reg f.b)) r.flags) f.dst (word r.bits)) 8 none)) ∧
  (∀ (f : GFields) (s s1 s2 : State) (x y : Word), guardHolds s = true → readReg s f.a = .ok (x, s1) →
    readReg s1 f.b = .ok (y, s2) →
    ∃ u v cond, u = fval (opFmt f) (lowBits (opFmt f) x) ∧ v = fval (opFmt f) (lowBits (opFmt f) y) ∧
      cond = floatCond (f.imm.toNat / 16 % 8) u v ∧
      exec (.fcmp f) s = .next (finish (written (setFlags (emptySources s2 f.lu f.a (.reg f.b))
        (signalFlag u ||| signalFlag v ||| flagIf cond.2 flagNV)) f.dst (word (bit01 cond.1))) 8 none)) ∧
  (∀ (f : GFields) (s s1 s2 : State) (x y : Word), guardHolds s = true → readReg s f.a = .ok (x, s1) →
    readReg s1 f.b = .ok (y, s2) → settled (me s2) f.dst = .ok () →
    ∃ r, r = convertScalar (me s2).rmode.toNat (f.imm.toNat % 16) (f.imm.toNat / 16 % 16) x ∧
      exec (.fcvt f) s = .next (finish
        (written (setFlags (emptySources s2 f.lu f.a (.reg f.b)) r.2) f.dst r.1) 8 none))

/-- R282, R283, R162: a special function reads its sources at issue and writes nothing; its result becomes a pending
write-back of its latency, naming the physical slot of a staged destination. Every issue counts the pending ones down;
one whose count is over lands before the next issue, and with it its value and its flags, no other register changing;
until then nothing of it shows. -/
def Obligations.SpecialFunctionsWriteBackLate : Prop :=
  (∀ p ∈ [(Instr.frcp, 8, fun m _ a _ => fixedIn m 0 recip a), (.frsq, 8, fun m _ a _ => fixedIn m 0 recipSqrt a),
      (.frcps, 4, recipStep), (.frsqs, 4, recipSqrtStep), (.fexp2, 8,
        fun m _ a _ => fixedIn m 0 (fun x => exp2R 2 x 14) a),
      (.flog2, 8, fun m _ a _ => fixedIn m 0 log2R a)],
    ∀ (f : GFields) (s s1 s2 : State) (x y : Word), guardHolds s = true → readReg s f.a = .ok (x, s1) →
    readReg s1 f.b = .ok (y, s2) → settled (me s2) f.dst = .ok () →
    ∃ r : FRes, r = p.2.2 (opFmt f) (me s2).rmode.toNat (lowBits (opFmt f) x) (lowBits (opFmt f) y) ∧
      exec (p.1 f) s = .next (finish (onMe (emptySources s2 f.lu f.a (.reg f.b)) fun st => { st with wbs := st.wbs ++
        [if 96 ≤ f.dst.toNat ∧ f.dst.toNat < 128 then ⟨stagedSlot st f.dst.toNat, true, word r.bits, r.flags, p.2.1⟩
         else ⟨f.dst.toNat, false, word r.bits, r.flags, p.2.1⟩] }) 8 none)) ∧
  (∀ (s : State) (n : Nat) (target : Option Word), (me (finish s n target)).wbs =
    (me s).wbs.map fun w => { w with remaining := w.remaining - 1 }) ∧
  (∀ st : Stream, (∀ w ∈ st.wbs, w.remaining ≠ 0) → landDue st = st) ∧
  (∀ st : Stream, (landDue st).wbs = st.wbs.filter (·.remaining != 0) ∧
    (landDue st).fflags = (st.wbs.filter (·.remaining == 0)).foldl (fun fl w => fl ||| w.flags) st.fflags) ∧
  (∀ (st : Stream) (w : WriteBack), st.wbs.filter (·.remaining == 0) = [w] →
    (w.slot = false → 0 < w.reg → w.reg < 96 → ∀ n, n < 128 →
      gValue (landDue st) n = if n = w.reg then w.value else gValue st n) ∧
    (w.slot = true → w.reg < 32 → ∀ n, n < 128 →
      gValue (landDue st) n = if 96 ≤ n ∧ stagedSlot st n = w.reg then w.value else gValue st n) ∧
    (w.slot = false → 0x80 ≤ w.reg → w.reg < 0x90 → ∀ n, n < 16 →
      qValue (landDue st) n = (if n = w.reg - 0x80 then w.value else qValue st n) ∧
      qLive (landDue st) n = (decide (n = w.reg - 0x80) || qLive st n))) ∧
  (∀ (s : State) (core stream : Nat), ∀ w ∈ (me (begin s core stream)).wbs, w.remaining ≠ 0)

/-- Table 10.3: each rounding mode gives the integer it names for m / 2^k of a given sign. -/
def Sys2Proof.Slice0.RoundingModesAreRight : Prop :=
  ∀ (negative : Bool) (m k : Nat),
    (2 * (roundShift 0 negative m k * 2 ^ k) ≤ 2 * m + 2 ^ k ∧ 2 * m ≤ 2 * (roundShift 0 negative m k * 2 ^ k) + 2 ^ k ∧
      (2 * (roundShift 0 negative m k * 2 ^ k) = 2 * m + 2 ^ k ∨
        2 * m = 2 * (roundShift 0 negative m k * 2 ^ k) + 2 ^ k → roundShift 0 negative m k % 2 = 0)) ∧
    roundShift 1 negative m k = m / 2 ^ k ∧
    roundShift 2 negative m k = (if negative then (m + 2 ^ k - 1) / 2 ^ k else m / 2 ^ k) ∧
    roundShift 3 negative m k = (if negative then m / 2 ^ k else (m + 2 ^ k - 1) / 2 ^ k)

/-- R258, R293, R294, R144, R149: MFS and MTS move a special register, MFC and MTC a control register; an MTC whose
value has a reserved bit raises ILLEGAL_OPERAND and changes no control register. -/
def Obligations.SpecialAndControlRegistersMove : Prop :=
  (∀ (f : EFields) (s : State), guardHolds s = true → settled (me s) f.dst = .ok () →
    exec (.mfs f) s = .next (finish (written s f.dst (readSpecial s f.n12.toNat)) 8 none) ∧
    exec (.mfc f) s = .next (finish (written s f.dst (word (readControl s f.n12.toNat))) 8 none)) ∧
  (∀ (f : EFields) (s s1 : State) (v : Word), guardHolds s = true → readReg s f.a = .ok (v, s1) →
    exec (.mts f) s = .next (finish (writeSpecial s1 f.n12.toNat v) 8 none) ∧
    (controlValueOk f.n12.toNat v.toNat = true →
      exec (.mtc f) s = .next (finish (writeControl s1 f.n12.toNat v.toNat) 8 none)) ∧
    (controlValueOk f.n12.toNat v.toNat = false →
      exec (.mtc f) s = .next (trapState s (.event 0x03 none)))) ∧
  (∀ (s : State) (n : Nat) (v : Word), n ∈ [0x005, 0x006] → readSpecial (writeSpecial s n v) n = v) ∧
  (∀ (s : State) (v : Word), readSpecial (writeSpecial s 0x00F v) 0x00F = word (v.toNat % 64) ∧
    readSpecial (writeSpecial s 0x010 v) 0x010 = word (v.toNat % 4) ∧
    readSpecial (writeSpecial s 0x011 v) 0x011 = word (v.toNat % 8)) ∧
  (∀ (s : State) (n v : Nat), n < 0x10 ∨ n = 0x10 ∨ (0x40 ≤ n ∧ n < 0xA0) → controlValueOk n v = true →
    readControl (writeControl s n v) n = v)

/-- R298-R300, R309: LD and LDA read the bytes of their width at BASE + OFF, extended by SIGN. LDA, and LD where no
piece lies on a peer module or in the handler, writes REG; a plain load from a peer module becomes outstanding with its
value, for the register that REG names at issue, and with the number its `.pulse` takes at issue. A misaligned LDA or
STL raises INVALID_OPERAND with INFO ea. That a peer load's value is the one read at its issue, with only the write of
its register outstanding, and that other loads, and those of the handler, write their register at once, where R300 says
when the data returns, are the model's choices (log entry 19, DESIGN CHOICE). -/
def Obligations.LoadsReadMemory : Prop :=
  (∀ (f : MFields) (s s1 : State) (b : Word) (ps : List (Loc × Nat)), guardHolds s = true →
    settled (me s) f.reg = .ok () → readGQ s f.base = .ok b →
    places s 0 (b + f.off.signExtend 64) (2 ^ f.width.toNat) = .ok (ps, s1) → poisonPieces s1 ps = false →
    settled (me s1) f.reg = .ok () →
    ((∀ p ∈ ps, ∀ m pa, p.1 ≠ .peer m pa) ∨ inHandler s = true → exec (.ld f) s = .next (finish
      (written s1 f.reg (extend (2 ^ f.width.toNat) f.sign (fromBytes (readPieces s1 ps)))) 8 none)) ∧
    ((b + f.off.signExtend 64 : Word).toNat % 2 ^ f.width.toNat = 0 → exec (.lda f) s = .next (finish
      (written s1 f.reg (extend (2 ^ f.width.toNat) f.sign (fromBytes (readPieces s1 ps)))) 8 none))) ∧
  (∀ (f : MFields) (s s1 : State) (b : Word) (ps : List (Loc × Nat)) (m pa n : Nat), guardHolds s = true →
    settled (me s) f.reg = .ok () → readGQ s f.base = .ok b →
    places s 0 (b + f.off.signExtend 64) (2 ^ f.width.toNat) = .ok (ps, s1) → poisonPieces s1 ps = false →
    (Loc.peer m pa, n) ∈ ps → inHandler s = false →
    ∃ (num : Option Nat) (t : State), (s1.guard.pulse = false → num = none ∧ t = s1) ∧
      (s1.guard.pulse = true → num = some (pulseTake s1 s1.curCore s1.curStream).1 ∧
        t = { (pulseTake s1 s1.curCore s1.curStream).2 with guard := { s1.guard with pulse := false } }) ∧
      exec (.ld f) s = .next (finish (onMe t fun st => { st with loads := st.loads ++
        [{ reg := (destKey st f.reg).1, slot := (destKey st f.reg).2
           value := extend (2 ^ f.width.toNat) f.sign (fromBytes (readPieces s1 ps))
           va := (b + f.off.signExtend 64).toNat, bytes := 2 ^ f.width.toNat, pulse := num }] }) 8 none)) ∧
  (∀ (s : State) (core stream : Nat), (pulseTake s core stream).1 =
      (tlOf s (coreCtx s core) (tlKey (stream + 1) core)).taken + 1 ∧
    (pulseTake s core stream).2.cores = s.cores ∧ (pulseTake s core stream).2.mem = s.mem) ∧
  (∀ (f : MFields) (s : State) (b : Word), guardHolds s = true → readGQ s f.base = .ok b →
    (b + f.off.signExtend 64 : Word).toNat % 2 ^ f.width.toNat ≠ 0 →
    exec (.lda f) s = .next (trapState s (.event 0x09 (some (b + f.off.signExtend 64)))) ∧
    exec (.stl f) s = .next (trapState s (.event 0x09 (some (b + f.off.signExtend 64)))))

/-- R298, R299: ST and STL store the low bytes of REG, little-endian, at BASE + OFF; every byte of memory outside the
stored ones, every register and every flag is unchanged. Translating the address changes no byte of memory, where it is
device virtual or in core-store regions that are mapped. -/
def Obligations.StoresWriteOnlyTheirBytes : Prop :=
  ∀ (f : MFields) (s s1 s2 : State) (b v : Word) (ps : List (Loc × Nat)), guardHolds s = true →
    (me s).waiting = none → readGQ s f.base = .ok b → readReg s f.reg = .ok (v, s1) →
    places s1 1 (b + f.off.signExtend 64) (2 ^ f.width.toNat) = .ok (ps, s2) →
    (∀ p ∈ ps, p.1 ≠ .refused ∧ ∀ o, p.1 ≠ .bar0 o) →
    (eaSpace (b + f.off.signExtend 64) = 0 → s2.mem = s.mem) ∧
    (eaSpace (b + f.off.signExtend 64) = 0x80 → (∀ l, (myCore s).slice = some l →
      ∀ o, (b + f.off.signExtend 64).toNat % 2 ^ 27 ≤ o →
        o < (b + f.off.signExtend 64).toNat % 2 ^ 27 + 2 ^ f.width.toNat →
        (regionAt (myCore s) l.ctx l.index (o / 2 ^ 20)).isSome = true) → s2.mem = s.mem) ∧
    ∀ i ∈ [Instr.st f, .stl f],
      (i = .stl f → (b + f.off.signExtend 64 : Word).toNat % 2 ^ f.width.toNat = 0 ∧ (me s).loads = [] ∧
        nestRunning s = false) →
      ∃ t, exec i s = .next t ∧
        (Memory.wf s2.mem = true → ps.Pairwise (fun p q => p.1.key + p.2 ≤ q.1.key ∨ q.1.key + q.2 ≤ p.1.key) →
          (ps.flatMap fun p => readBytes t.mem p.1.key p.2) = toBytes (2 ^ f.width.toNat) v.toNat) ∧
        (∀ a, (∀ p ∈ ps, a < p.1.key ∨ p.1.key + p.2 ≤ a) → byteAt t a = byteAt s2 a) ∧
        (∀ n, gValue (me t) n = gValue (me s) n) ∧ (∀ n, qValue (me t) n = qValue (me s) n) ∧
        (me t).qlive = (me s).qlive ∧ (me t).c = (me s).c ∧ (me t).fflags = (me s).fflags ∧
        (me t).dflags = (me s).dflags ∧ (me t).lr = (me s).lr ∧ (me t).pc = nextPc (me s).pc 8

/-- R301, R302: an AMO reads its location, stores what its member says, and writes the old value to REG. Of the n bytes
old and v, ADD stores the sum modulo 2^(8n), AND, OR and XOR the bitwise result, MIN and MAX the lesser and the greater
as signed integers, SWP v, and CAS v where old is cmp, else nothing; for f32 ADD stores the sum under RNE, and MIN and
MAX what R205 says. -/
def Obligations.AtomicsReadAndWrite : Prop :=
  (∀ p ∈ [(Instr.amoadd, Amo.add), (.amoand, .and), (.amoor, .or), (.amoxor, .xor), (.amomin, .min), (.amomax, .max),
      (.amoswp, .swp), (.amocas, .cas)],
    ∀ (f : MFields) (s s1 : State) (ea v cmp : Word) (ps : List (Loc × Nat)), guardHolds s = true →
    readGQ s f.base = .ok ea → ea.toNat % 2 ^ f.width.toNat = 0 → readGQ s f.aux = .ok v → readGQ s f.reg = .ok cmp →
    (me s).loads = [] → nestRunning s = false → places s 2 ea (2 ^ f.width.toNat) = .ok (ps, s1) →
    (me s1).loads = [] →
    (∀ q ∈ ps, amoAllowed p.2 (flag f.off.toNat 3) q.1 = true ∧ completerOk s1 (myCtx s1) q.1 = true) →
      poisonPieces s1 ps = false →
    ∃ old t, old = fromBytes (readPieces s1 ps) ∧
      t = (match amoResult p.2 (flag f.off.toNat 3) (2 ^ f.width.toNat) old (v.toNat % 2 ^ (8 * 2 ^ f.width.toNat))
          (cmp.toNat % 2 ^ (8 * 2 ^ f.width.toNat)) with
        | some x => writePieces s1 ps (toBytes (2 ^ f.width.toNat) x)
        | none => s1) ∧
      exec (p.1 f) s =
        .next (finish (written t f.reg (extend (2 ^ f.width.toNat) (!flag f.off.toNat 3) old)) 8 none)) ∧
  (∀ n ∈ [4, 8], ∀ old v cmp : Nat, old < 2 ^ (8 * n) → v < 2 ^ (8 * n) →
    amoResult .add false n old v cmp = some (BitVec.ofNat (8 * n) old + BitVec.ofNat (8 * n) v).toNat ∧
    amoResult .and false n old v cmp = some (BitVec.ofNat (8 * n) old &&& BitVec.ofNat (8 * n) v).toNat ∧
    amoResult .or false n old v cmp = some (BitVec.ofNat (8 * n) old ||| BitVec.ofNat (8 * n) v).toNat ∧
    amoResult .xor false n old v cmp = some (BitVec.ofNat (8 * n) old ^^^ BitVec.ofNat (8 * n) v).toNat ∧
    amoResult .min false n old v cmp =
      some (if (BitVec.ofNat (8 * n) old).toInt ≤ (BitVec.ofNat (8 * n) v).toInt then old else v) ∧
    amoResult .max false n old v cmp =
      some (if (BitVec.ofNat (8 * n) old).toInt ≤ (BitVec.ofNat (8 * n) v).toInt then v else old) ∧
    ∀ float, amoResult .swp float n old v cmp = some v ∧
      amoResult .cas float n old v cmp = (if old = cmp then some v else none)) ∧
  (∀ old v cmp : Nat, old < 2 ^ 32 → v < 2 ^ 32 →
    amoResult .add true 4 old v cmp = some (faddR f32 0 old v).bits ∧
    (∀ m ∈ [Amo.min, .max],
      (nanF32 old = true → nanF32 v = true → amoResult m true 4 old v cmp = some 0x7FC00000) ∧
      (nanF32 old = true → nanF32 v = false → amoResult m true 4 old v cmp = some v) ∧
      (nanF32 old = false → nanF32 v = true → amoResult m true 4 old v cmp = some old)) ∧
    (ltF32 old v = true →
      amoResult .min true 4 old v cmp = some old ∧ amoResult .max true 4 old v cmp = some v) ∧
    (ltF32 v old = true →
      amoResult .min true 4 old v cmp = some v ∧ amoResult .max true 4 old v cmp = some old) ∧
    amoResult .min true 4 0x80000000 0 cmp = some 0x80000000 ∧ amoResult .max true 4 0x80000000 0 cmp = some 0 ∧
    amoResult .min true 4 0 0x80000000 cmp = some 0x80000000 ∧ amoResult .max true 4 0 0x80000000 cmp = some 0)

/-- R303, R304: LDP and STP access element value(A) + d of a parameter area in core store. -/
def Obligations.ParameterAreaAccess : Prop :=
  (∀ (f : EFields) (s s1 s2 : State) (a : Word) (d : Area) (o : Nat) (bs : List Byte), guardHolds s = true →
    roomForItems s →
    readGQ s f.a = .ok a → settled (me s) f.dst = .ok () →
    readArea s (f.n12.toNat % 16) (a.toInt + f.opt.toInt) = .ok (d, s1) →
    areaOffset d (f.n12.toNat % 16) (2 ^ (f.n12.toNat / 16 % 4)) (a.toInt + f.opt.toInt) = .ok o →
    loadCs s1 o (2 ^ (f.n12.toNat / 16 % 4)) (areaInfo (f.n12.toNat % 16) (a.toInt + f.opt.toInt)) = .ok (bs, s2) →
    settled (me s2) f.dst = .ok () →
    exec (.ldp f) s = .next (finish (written s2 f.dst
      (extend (2 ^ (f.n12.toNat / 16 % 4)) (flag f.n12.toNat 6) (fromBytes bs))) 8 none)) ∧
  (∀ (f : EFields) (s s1 s2 s3 : State) (a v : Word) (d : Area) (o : Nat), guardHolds s = true → roomForItems s →
    readGQ s f.a = .ok a → readArea s (f.n12.toNat % 16) (a.toInt + f.opt.toInt) = .ok (d, s1) →
    areaOffset d (f.n12.toNat % 16) (2 ^ (f.n12.toNat / 16 % 4)) (a.toInt + f.opt.toInt) = .ok o →
    readReg s1 f.b = .ok (v, s2) →
    storeCs s2 o (toBytes (2 ^ (f.n12.toNat / 16 % 4)) v.toNat)
      (areaInfo (f.n12.toNat % 16) (a.toInt + f.opt.toInt)) = .ok s3 →
    exec (.stp f) s = .next (finish s3 8 none)) ∧
  (∀ (d : Area) (area n : Nat) (i : Int), 0 ≤ i → (i + 1) * n ≤ d.len →
    areaOffset d area n i = .ok (d.base + i.toNat * n)) ∧
  (∀ (d : Area) (area n : Nat) (i : Int), i < 0 ∨ (d.len : Int) < (i + 1) * n →
    areaOffset d area n i = .error (.event 0x91 (some (areaInfo area i))))

/-- R305, R243, Q4, Q5: the ordering and code-visibility instructions complete and change no memory. That CFLUSH, MARK
and FENCE then have no effect of their own is the model's choice, since its memory is one order of accesses that Q1-Q10
allow (log entry 19, DESIGN CHOICE). -/
def Obligations.OrderingInstructionsComplete : Prop :=
  (∀ s : State, guardHolds s = true → (me s).loads = [] → nestRunning s = false →
    exec .mark s = .next (finish s 8 none) ∧ ∀ f, exec (.fence f) s = .next (finish s 8 none)) ∧
  (∀ (f : EFields) (s : State) (a : Word) (n : Nat), guardHolds s = true → codeRange f s = .ok (a, n) →
    exec (.cflush f) s = .next (finish s 8 none) ∧
    (eaSpace a = 0 → n ≠ 0 → exec (.icinv f) s =
      .next (finish (onCore s s.curCore fun k => dropLines k (myCtx s) a.toNat n) 8 none))) ∧
  (∀ s : State, guardHolds s = true →
    exec .fbar s = .next (finish (onMe s fun st => { st with line := none }) 8 none)) ∧
  (∀ (f : EFields) (s : State) (a : Word), guardHolds s = true → readGQ s f.a = .ok a →
    (eaSpace (a + f.n12.signExtend 64) = 0 →
      (translate s (some s.curCore) (myCtx s) 0 (a + f.n12.signExtend 64).toNat).1 = .miss →
      exec (.prf f) s = .next (finish (joinWalk s s.curCore 8 (myCtx s) (a + f.n12.signExtend 64).toNat 0) 8 none)) ∧
    (eaSpace (a + f.n12.signExtend 64) ≠ 0 ∨
      (translate s (some s.curCore) (myCtx s) 0 (a + f.n12.signExtend 64).toNat).1 ≠ .miss →
      exec (.prf f) s = .next (finish s 8 none)))

/-- R199-R207, R277-R281: results of the scalar float members, and the rounding modes. -/
def Obligations.FloatResultsAndRounding : Prop := FloatResults ∧ RoundingModesAreRight

/-- R284-R287, R245, R246: branches, jumps, calls and the indirect jump. A taken transfer's target is checked; a call
links to the instruction after it. That this is word 2 of the next line where the transfer ends its line, while R284 and
R285 write p + 4, p + 8 and p + 12, is deduced (log entry 18, DEDUCED). -/
def Obligations.TransfersOfControl : Prop :=
  (∀ (f : JFields) (s s1 : State), roomForItems s →
    checkTarget s s.curCore (myCtx s) false (branchTo s f.imm.toInt) = .ok s1 →
    (exec (.jmp f) s = .next (finish s1 4 (some (branchTo s f.imm.toInt)))) ∧
    (cValue (me s) f.pred.toNat = true →
      exec (.br f) s = .next (finish (traceBranch s1 true) 4 (some (branchTo s f.imm.toInt))))) ∧
  (∀ (f : JFields) (s : State), cValue (me s) f.pred.toNat = false →
    exec (.br f) s = .next (finish (traceBranch s false) 4 none)) ∧
  (∀ (f : JFields) (s s1 : State), roomForItems s →
    checkTarget s s.curCore (myCtx s) true (branchTo s f.imm.toInt) = .ok s1 →
    exec (.jal f) s = .next (finish (onMe s1 fun st => { st with lr := nextPc (me s1).pc 4 }) 4
      (some (branchTo s f.imm.toInt)))) ∧
  (∀ (f : LFields) (s s1 s2 : State), guardHolds s = true → roomForItems s →
    checkTarget s s.curCore (myCtx s) (f.imm == 1) (branchTo s f.lit.toInt) = .ok s1 →
    s2 = (if f.imm = 1 then onMe s1 fun st => { st with lr := nextPc (me s1).pc 12 } else s1) →
    exec (.jmpl f) s = .next (finish (if s2.guard.pred = 0 then s2 else traceBranch s2 true) 12
      (some (branchTo s f.lit.toInt)))) ∧
  (∀ (f : GFields) (s s1 s2 s3 : State) (a : Word), guardHolds s = true → roomForItems s →
    (if f.a = 0 then a = (me s).lr ∧ s1 = s else readReg s f.a = .ok (a, s1)) →
    checkTarget (emptyIf s1 f.lu f.a) s1.curCore (myCtx s1) (f.imm == 1) a = .ok s2 →
    s3 = (if f.imm = 1 then onMe s2 fun st => { st with lr := nextPc (me s2).pc 8 } else s2) →
    settled (me s2) f.dst = .ok () →
    exec (.jalr f) s = .next (finish
      (trace (written s3 f.dst (me s2).lr) s3.curCore 5 s3.curStream (a.toNat % 2 ^ 48)) 8 (some a)))

/-- R289, R290: LOOP sets the trip, stage and pass counts and forms the guards, BRL raises the pass count and forms them
anew, and branches back while passes remain. -/
def Obligations.LoopsFormGuards : Prop :=
  (∀ (f : GFields) (s s1 s2 : State) (n st : Word), guardHolds s = true → readReg s f.a = .ok (n, s1) →
    readReg s1 f.b = .ok (st, s2) → 1 ≤ st.toNat → st.toNat ≤ 8 → n ≠ 0 →
    exec (.loop f) s = .next (finish (traceBranch (onMe (emptySources s2 f.lu f.a (.reg f.b)) fun x =>
      guards { x with ltrip := n, lstage := BitVec.ofNat 4 st.toNat, lpass := 0 } 0) false) 8 none)) ∧
  (∀ (f : GFields) (s s1 s2 s3 : State) (st : Word), guardHolds s = true → roomForItems s →
    readReg s f.a = .ok (0, s1) → readReg s1 f.b = .ok (st, s2) → 1 ≤ st.toNat → st.toNat ≤ 8 →
    checkTarget (emptySources s2 f.lu f.a (.reg f.b)) s2.curCore (myCtx s2) false
      (branchTo (emptySources s2 f.lu f.a (.reg f.b)) f.imm.toInt) = .ok s3 →
    exec (.loop f) s = .next (finish (traceBranch (onMe s3 fun x =>
      guards { x with ltrip := 0, lstage := BitVec.ofNat 4 st.toNat, lpass := 0 } 0) true) 8
      (some (branchTo (emptySources s2 f.lu f.a (.reg f.b)) f.imm.toInt)))) ∧
  (∀ (f : JFields) (s s1 : State), roomForItems s → (me s).lpass.toNat + 2 < (me s).ltrip.toNat + (me s).lstage.toNat →
    checkTarget s s.curCore (myCtx s) false (branchTo s f.imm.toInt) = .ok s1 →
    exec (.brl f) s = .next (finish (traceBranch (onMe s1 fun st =>
      guards { st with lpass := word ((me s).lpass.toNat + 1) } ((me s).lpass.toNat + 1)) true) 4
      (some (branchTo s f.imm.toInt)))) ∧
  (∀ (f : JFields) (s : State), (me s).ltrip.toNat + (me s).lstage.toNat ≤ (me s).lpass.toNat + 2 →
    exec (.brl f) s = .next (finish (traceBranch (onMe s fun st =>
      guards { st with lpass := word ((me s).lpass.toNat + 1) } ((me s).lpass.toNat + 1)) false) 4 none)) ∧
  (∀ (st : Stream) (p j : Nat), j < 8 → (cValue (guards st p) (8 + j) = true ↔
    j < st.lstage.toNat ∧ j ≤ p ∧ p < st.ltrip.toNat + j)) ∧
  (∀ (st : Stream) (p n : Nat), n < 8 → cValue (guards st p) n = cValue st n)

/-- R253: every instruction of the G, L, M, E and V classes that is predicated off moves the program counter past
itself, counts as an issue, emits no pulse, and changes no register but the q registers its last use empties, no flag,
no timeline and no byte of memory; it waits while a load is outstanding to a q register that it empties (R300); one that
names signals resolves its heads first, which its end forgets again. JMPL
under another predicate than c0 leaves its BRANCH bit in the trace (R287). -/
def Obligations.PredicatedOffDoesNothing : Prop :=
  ∀ (s : State), guardHolds s = false → (me s).waiting = none →
    (∀ f, ∀ i ∈ [Instr.addG f, .subG f, .andG f, .orG f, .xorG f, .andnG f, .shlG f, .shrG f, .sraG f, .minG f, .maxG f,
      .minuG f, .maxuG f, .mulG f, .movG f, .mulhG f, .mulhuG f, .divG f, .divuG f, .remG f, .remuG f, .rotG f,
      .clzG f, .ctzG f, .popcG f, .sextG f, .zextG f, .bfxG f, .bfiG f, .selG f, .fadd f, .fsub f, .fmul f, .fma
      f, .fmin f, .fmax f, .fsgn f, .fcmp f, .fcvt f, .frcp f, .frsq f, .frcps f, .frsqs f, .fexp2 f, .flog2 f,
      .loop f],
      skips s i (emptySources s f.lu f.a (.reg f.b)) 8 (settledSources s f.lu f.a (.reg f.b))) ∧
    (∀ f, ∀ i ∈ [Instr.cmpeqG f false, .cmpneG f false, .cmpltG f false, .cmpgeG f false, .cmpltuG f false, .cmpgeuG f
      false, .cmpleG f false, .cmpgtG f false],
      skips s i (emptySources s f.lu f.a (.reg f.b)) 8 (settledSources s f.lu f.a (.reg f.b))) ∧
    (∀ f, ∀ i ∈ [Instr.addiG f, .andiG f, .oriG f, .xoriG f, .shliG f, .shriG f, .sraiG f, .jalr f]
        ++ [Instr.cmpeqG f true, .cmpneG f true, .cmpltG f true, .cmpgeG f true, .cmpltuG f true, .cmpgeuG f true,
      .cmpleG f true, .cmpgtG f true],
      skips s i (emptyIf s f.lu f.a) 8 (settledSources s f.lu f.a (.value 0))) ∧
    (∀ f, ∀ i ∈ [Instr.addL f, .subL f, .andL f, .orL f, .xorL f, .andnL f, .shlL f, .shrL f, .sraL f, .minL f, .maxL f,
      .minuL f, .maxuL f, .mulL f, .mulhL f, .mulhuL f, .divL f, .divuL f, .remL f, .remuL f, .rotL f, .sextL f,
      .zextL f, .selL f],
      skips s i (emptyIf s f.lu f.a) 12 (settledSources s f.lu f.a (.value 0))) ∧
    (∀ f, ∀ i ∈ [Instr.liw f, .fli f], exec i s = .next (skipped s 12)) ∧
    (∀ f, exec (.jmpl f) s = .next (skipped (if s.guard.pred = 0 then s else traceBranch s false) 12)) ∧
    (∀ f, skips s (.vshape f) (emptyIf (emptyIf s f.lu f.a) f.lu f.b) 12
      (settledSources s f.lu f.a (.reg f.b))) ∧
    (∀ f, ∀ i ∈ [Instr.ld f, .st f, .lda f, .stl f, .amoadd f, .amoand f, .amoor f, .amoxor f, .amomin f, .amomax f,
      .amoswp f, .amocas f],
      exec i s = .next (skipped s 8)) ∧
    (∀ f, ∀ i ∈ [Instr.mfs f, .mts f, .mfc f, .mtc f, .ldp f, .stp f, .fence f, .cflush f, .icinv f, .prf f, .push f,
      .wait
      f, .tlread f, .fork f, .rdv f, .evset f, .evpulse f, .wfe f, .sbind f, .spawn f, .join f, .joinBatch f,
      .gbar f, .budget f, .trap f, .bkpt f, .tlbinv f, .sigdef f, .sighead f, .sigseal f, .sigpos f, .sctx f,
      .tld f, .tst f, .mma f, .mmaz f, .nestgo f, .accmov f, .accz f, .scld f, .tidset f, .tidinv f, .eqpush f,
      .eqcfg f, .eqfire f, .eqpop f, .eqstat f, .gfstep f, .gfstepSet f, .gfmask f, .rply f, .rplyTake f, .embld
      f, .vrandk f],
      exec i s = .next (skipped s 8)) ∧
    (∀ i ∈ [Instr.mark, .fbar, .tick, .yield, .done, .eret], exec i s = .next (skipped s 8)) ∧
    (∀ f, ∀ i ∈ [Instr.sigdrop f, .sigrst f, .tapld f, .tapst f, .tapstTick f, .sigevict f],
      exec i s = .next (skipped (resolve s [sigNumber f]) 8)) ∧
    (∀ f, ∀ i ∈ [Instr.vadd f, .vsub f, .vmul f, .vfma f, .vmac f, .vmin f, .vmax f, .vabs f, .vneg f, .vand f, .vor f,
      .vxor f, .vshl f, .vshr f, .vsra f, .vcvt f, .vsel f, .vcmp f, .vrcp f, .vrsq f, .vexp f, .vlog f, .vtanh
      f, .vsum f, .vmaxr f, .vdraw f, .vdrawm f, .vscan f, .vpopc f, .vdot f, .vrand f, .vcopy f, .vfill f,
      .vgather f, .vscatter f, .vperm f, .vexpand f, .vfir f, .cspush f, .cspop f, .csroute f],
      exec i s = .next (skipped s 12)) ∧
    (∀ n k lu a b, ∀ t ∈ [s, resolve s [k], emptySources s lu a (.reg b), emptyIf s lu a,
        emptyIf (emptyIf s lu a) lu b],
      (me (skipped t n)).pc = nextPc (me s).pc n ∧ (me (skipped t n)).issue = (me s).issue + 1 ∧
      (me (skipped t n)).heads = [] ∧ (me (skipped t n)).g = (me s).g ∧ (me (skipped t n)).q = (me s).q ∧
      (me (skipped t n)).c = (me s).c ∧ (me (skipped t n)).fflags = (me s).fflags ∧
      (me (skipped t n)).dflags = (me s).dflags ∧ (me (skipped t n)).lr = (me s).lr ∧
      (skipped t n).mem = s.mem ∧ (skipped t n).ctxs = s.ctxs ∧
      (t = s ∨ t = resolve s [k] ∨ lu = false → (me (skipped t n)).qlive = (me s).qlive) ∧
      ∀ r, qLive (me (skipped t n)) r ≠ qLive (me s) r →
        lu = true ∧ qLive (me s) r = true ∧ (a.toNat = 0x80 + r ∨ b.toNat = 0x80 + r))

/-- R138, R140, R307-R309: a PUSH whose queue has room puts its command at the queue's end under the next number of the
engine's timeline, which B receives, with the predicate false; on a full queue it enqueues nothing and the predicate is
true. WAIT ends once the counter is reached and waits before; TLREAD reads it. -/
def Sys2Proof.Slice0.PushWaitAndTimelines : Prop :=
  (∀ (f : EFields) (s : State) (c : Nat) (im : List Byte), guardHolds s = true → f.opt.toNat % 8 ≤ 4 →
    placeTarget s.curCore f.n12.toNat = some c → (f.opt.toNat % 8 = 0 → c ∈ sliceCores s s.curCore) →
    readImage s f.a.toNat 8 = .ok im →
    (queueFull s (f.opt.toNat % 8) c → exec (.push f) s = .next (finish (writePred s f.dst true) 8 none)) ∧
    (¬ queueFull s (f.opt.toNat % 8) c → nestRunning s = false → settled (me s) f.b = .ok () →
      ∃ n t, exec (.push f) s = .next (finish (written (writePred t f.dst false) f.b (word n)) 8 none) ∧
        enqueued s t (f.opt.toNat % 8) c n im ∧ me t = me s ∧ t.mem = s.mem ∧
        (engineTimeline (f.opt.toNat % 8) = none → n = 0 ∧ t.ctxs = s.ctxs) ∧
        (∀ e, engineTimeline (f.opt.toNat % 8) = some e →
          n = (tlOf s (myCtx s) (tlKey e c)).taken + 1 ∧ (tlOf t (myCtx s) (tlKey e c)).taken = n ∧
          ∀ k, k ≠ tlKey e c → tlOf t (myCtx s) k = tlOf s (myCtx s) k))) ∧
  (∀ (f : EFields) (s : State) (v : Word) (c : Nat), guardHolds s = true → readGQ s f.a = .ok v →
    placeReg s f.b = .ok c →
    (v.toNat ≤ (tlOf s (myCtx s) (tlKey f.n12.toNat c)).value → exec (.wait f) s = .next (finish s 8 none)) ∧
    ((tlOf s (myCtx s) (tlKey f.n12.toNat c)).value < v.toNat →
      exec (.wait f) s = .next (hold s (.timeline f.n12.toNat c v.toNat)))) ∧
  (∀ (f : EFields) (s : State) (c : Nat), guardHolds s = true → placeReg s f.b = .ok c →
    settled (me s) f.dst = .ok () →
    exec (.tlread f) s =
      .next (finish (written s f.dst (word (tlOf s (myCtx s) (tlKey f.n12.toNat c)).value)) 8 none))

/-- R60, R140, R308, R309: a timeline's value is the highest number such that it and every number before it are done, so
completing a number never lowers it, raises it over every number that is then done, and changes nothing for a number
already counted. The last clauses: no number just above the value is ever among those done ahead, which completing,
taking and the start keep. -/
def Sys2Proof.Slice0.TimelinesRiseInOrder : Prop :=
  (∀ (t : Timeline) (n : Nat), t.value ≤ (tlComplete t n).value) ∧
  (∀ (t : Timeline) (n : Nat), n ≤ t.value → tlComplete t n = t) ∧
  (∀ t : Timeline, t.done = [] → tlComplete t (t.value + 1) = { t with value := t.value + 1 }) ∧
  (∀ (t : Timeline) (n : Nat), t.value + 1 < n → t.value + 1 ∉ t.done → (tlComplete t n).value = t.value) ∧
  (∀ (t : Timeline) (n m : Nat), t.value < m → m ≤ (tlComplete t n).value → m = n ∨ m ∈ t.done) ∧
  (∀ (t : Timeline) (n m : Nat), t.value + 1 ∉ t.done → (∀ j, t.value < j → j ≤ m → j = n ∨ j ∈ t.done) →
    m ≤ (tlComplete t n).value) ∧
  (∀ (t : Timeline) (n : Nat), t.value + 1 ∉ t.done → (tlComplete t n).value + 1 ∉ (tlComplete t n).done) ∧
  (∀ (s : State) (ctx key : Nat), tlOf (tlTake s ctx key).2 ctx key =
    { tlOf s ctx key with taken := (tlOf s ctx key).taken + 1 }) ∧ ({} : Timeline).done = []

/-- R310-R313, R142, R143: FORK starts the named streams, RDV waits or ends one, the crossbar's counters are set, pulsed
and consumed, SBIND binds a stream register. -/
def Obligations.StreamsAndCrossbar : Prop :=
  (∀ (f : EFields) (s s1 s2 : State) (pcs : List Word), guardHolds s = true → roomForItems s → (me s).loads = [] →
    nestRunning s = false → (∀ n ∈ maskStreams f.n12.toNat, (streamOf (myCore s) n).status = .idle) →
    ((maskStreams f.n12.toNat).mapM fun n => readG s (f.a.toNat + n - 1)) = .ok pcs →
    checkEntries s pcs = .ok s1 →
    s2 = ((maskStreams f.n12.toNat).zip pcs).foldl (fun t p =>
      onStream t s1.curCore p.1 fun _ => forkedStream (me s1) p.2) s1 →
    exec (.fork f) s = .next (finish (if 1 ∈ maskStreams f.n12.toNat then
      onCore s2 s1.curCore fun k => { k with vn := 0, vs := [], vo := [] } else s2) 8 none)) ∧
  (∀ (f : EFields) (s : State), guardHolds s = true → (me s).loads = [] → nestRunning s = false →
    ((maskStreams f.n12.toNat).filter fun n => (streamOf (myCore s) n).status != .idle) ≠ [] →
    exec (.fork f) s = .next (trapState s (.event 0x09 (some (word
      (((maskStreams f.n12.toNat).filter fun n => (streamOf (myCore s) n).status != .idle).map (2 ^ ·)).sum))))) ∧
  (∀ (parent : Stream) (pc : Word) (n : Nat), n < 128 →
    (forkedStream parent pc).status = .running ∧ (forkedStream parent pc).pc = pc ∧
      gValue (forkedStream parent pc) n = gValue parent n ∧ (forkedStream parent pc).qlive = 0 ∧
      (forkedStream parent pc).fflags = 0) ∧
  (∀ (f : EFields) (s : State), s.curStream = 0 → guardHolds s = true →
    ((∀ n ∈ maskStreams f.n12.toNat, (streamOf (myCore s) n).status = .idle) →
      exec (.rdv f) s = .next (finish s 8 none)) ∧
    (∀ n ∈ maskStreams f.n12.toNat, (streamOf (myCore s) n).status ≠ .idle →
      exec (.rdv f) s = .next (hold s (.cause 10)))) ∧
  (∀ (f : EFields) (s : State), s.curStream ≠ 0 → guardHolds s = true → nestRunning s = false → (me s).loads = [] →
    ∃ t, exec (.rdv f) s = .next t ∧ streamOf (coreOf t s.curCore) s.curStream = {}) ∧
  (∀ (f : EFields) (s : State) (v : Word), guardHolds s = true → readGQ s f.a = .ok v →
    exec (.evset f) s = .next (finish (onCore s s.curCore fun k => { k with
      counters := adjust {} k.counters f.n12.toNat fun c =>
        { c with count := eventCount (flag f.opt.toNat 0) c.count v } }) 8 none)) ∧
  (∀ (f : EFields) (s : State), guardHolds s = true → (me s).loads = [] → nestRunning s = false →
    exec (.evpulse f) s = .next (finish (pulse s s.curCore (16 + f.n12.toNat)) 8 none)) ∧
  (∀ (f : EFields) (s : State), guardHolds s = true →
    (∀ m, openTerm (myCore s) f.n12.toNat = some m →
      exec (.wfe f) s = .next (finish (onCore s s.curCore fun k => consume k m) 8 none)) ∧
    (openTerm (myCore s) f.n12.toNat = none → exec (.wfe f) s = .next (hold s (.gate f.n12.toNat)))) ∧
  (∀ (f : EFields) (s s1 : State) (im : List Byte) (n : Nat), guardHolds s = true →
    readImage s f.a.toNat 8 = .ok im → imageAt im 0 1 = 4 → field (imageAt im 2 1) 3 3 = f.dst.toNat - 0xA0 →
    queueCopy s s.curCore (myCtx s) im = some (n, s1) → nestRunning s = false → settled (me s1) f.b = .ok () →
    exec (.sbind f) s = .next (finish (written s1 f.b (word n)) 8 none))

/-- R314-R319, R321, R122, R132: SPAWN submits a record, JOIN decrements one, YIELD and DONE end the core's part, GBAR
holds the core until the slice has arrived, BUDGET extends once, TLBINV drops translations.
That TLBINV waits for a copy that stands within a page of its range is deduced (log entry 72, DEDUCED). -/
def Obligations.TaskInstructionsComplete : Prop :=
  (∀ (f : EFields) (s t : State) (im : List Byte) (i : Nat), guardHolds s = true →
    readImage s f.a.toNat 8 = .ok im → recordFieldsOk im = true →
    rangesWait s (myCtx s) (imageAt im 34 6) = false → accept s (myCtx s) (recordFrom im) = (.at i, t) →
    settled (me t) f.dst = .ok () → exec (.spawn f) s = .next (finish (written t f.dst (word i)) 8 none)) ∧
  (∀ (f : EFields) (s t : State) (im : List Byte), guardHolds s = true → roomForItems s →
    readImage s f.a.toNat 8 = .ok im → recordFieldsOk im = true →
    rangesWait s (myCtx s) (imageAt im 34 6) = false → settled (me s) f.dst = .ok () →
    (accept s (myCtx s) (recordFrom im) = (.badRanges, t) → exec (.spawn f) s =
      .next (finish (written (rangeItem t (imageAt im 34 6)) f.dst 0xFFFFFFFF) 8 none)) ∧
    (accept s (myCtx s) (recordFrom im) = (.full, t) → exec (.spawn f) s = .next (hold s (.cause 4)))) ∧
  (∀ (f : EFields) (s : State) (v : Word), guardHolds s = true → readGQ s f.a = .ok v → v.toNat < 2 ^ 22 →
    v.toNat < storeSize (ctxOf s (myCtx s)) →
    exec (.join f) s = .next (finish (writePred (joinDown s (myCtx s) v.toNat) f.dst
      (!((recordOf s (myCtx s) v.toNat).map (·.state) == some .waiting))) 8 none)) ∧
  (∀ (f : EFields) (s s1 s2 : State) (ea : Word) (im : List Byte), guardHolds s = true → readGQ s f.a = .ok ea →
    roomForItems s → ea.toNat % 32 = 0 → eaSpace ea = 0 → poisonVirtual s (myCtx s) ea.toNat 32 = false →
    loadBytes s 2 ea 32 = .ok (im, s1) →
    imageAt im 25 1 % 128 = myCtx s1 → imageAt im 27 1 % 2 = 0 →
    storeBytes s1 2 (ea + 27) (toBytes 1 (imageAt im 27 1 + 1)) = .ok s2 →
    exec (.joinBatch f) s = .next (finish (writePred (joinDown (markTaken s2 (myCtx s2) ea.toNat) (myCtx s2)
      (imageAt im 17 3 % 2 ^ 22)) f.dst false) 8 none)) ∧
  (∀ (f : EFields) (s t : State) (ea : Word), guardHolds s = true → readGQ s f.a = .ok ea → roomForItems s →
    ea.toNat % 32 = 0 → eaSpace ea = 0 → joinLost s (myCtx s) ea.toNat = some t →
    exec (.joinBatch f) s = .next (finish (writePred t f.dst true) 8 none)) ∧
  (∀ s : State, guardHolds s = true → (∀ n, n < 6 → (streamOf (myCore s) (n + 1)).status = .idle) →
    (myCore s).copies = [] →
    exec .yield s = .next (finish (onMe s fun st => { st with status := .yielded }) 8 none) ∧
    exec .done s = .next (finish (onMe s fun st => { st with status := .done, wbs := [] }) 8 none)) ∧
  (∀ (f : EFields) (s s1 : State), guardHolds s = true → (me s).loads = [] →
    s1 = onCore s s.curCore (fun k => arrive k f.n12.toNat) →
    (barrierDone s1 s.curCore f.n12.toNat = true →
      exec (.gbar f) s = .next (finish (onCore s1 s.curCore fun k => { k with arrived := none }) 8 none)) ∧
    (barrierDone s1 s.curCore f.n12.toNat = false → exec (.gbar f) s = .next (hold s1 (.cause 10)))) ∧
  (∀ (f : EFields) (s : State) (l : Slice) (r : Record), guardHolds s = true → (myCore s).slice = some l →
    recordOf s l.ctx l.index = some r → r.extended = false →
    exec (.budget f) s = .next (finish (writePred (onRecord s l.ctx l.index fun r => { r with extended := true })
      f.dst false) 8 none)) ∧
  (∀ (f : EFields) (s : State) (a n : Word), guardHolds s = true → readGQ s f.a = .ok a → readGQ s f.b = .ok n →
    eaSpace a = 0 → a.toNat % pageSize f.opt.toNat = 0 → a.toNat + n.toNat * pageSize f.opt.toNat ≤ 2 ^ 56 →
    (n = 0 → loadsMeet s (myCtx s) 0 (2 ^ 56) = false →
      exec (.tlbinv f) s = .next (finish (invalidate s (myCtx s) 0 (2 ^ 56)) 8 none)) ∧
    (n ≠ 0 → loadsMeet s (myCtx s) a.toNat (n.toNat * pageSize f.opt.toNat) = false → exec (.tlbinv f) s =
      .next (finish (invalidate s (myCtx s) a.toNat (n.toNat * pageSize f.opt.toNat)) 8 none))) ∧
  (∀ (f : EFields) (s : State) (a n : Word), guardHolds s = true → readGQ s f.a = .ok a → readGQ s f.b = .ok n →
    eaSpace a ≠ 0 → exec (.tlbinv f) s = .next (trapState s (.event 0x09 (some a))))

/-- R157-R159, R164, R320: TRAP and BKPT take their exception with INFO their code and FAULTPC the instruction, the
stream standing after it; ERET returns by the origin frame's ACTION. -/
def Obligations.TrapsTakeException : Prop :=
  (∀ (f : EFields) (s : State), guardHolds s = true →
    exec (.trap f) s = .next (takeException (finish s 8 none) s.curCore s.curStream 0x10 (word f.n12.toNat) (me s).pc) ∧
    exec (.bkpt f) s =
      .next (takeException (finish s 8 none) s.curCore s.curStream 0x12 (word f.n12.toNat) (me s).pc)) ∧
  (∀ s : State, guardHolds s = true → roomForItems s →
    virtualWaits s (myCtx s) 0 (frameAt s (myCtx s) s.curCore + 32) 1 = false →
      ∀ a t, frameAction (finish s 8 none) (myCtx s) s.curCore = (a, t) →
    exec .eret s = .next (returnFrom t (myCtx s) a (((myCore s).handler.map (·.refused)).getD false)))

/-- R157-R159: taking an exception with no halt standing records the stream's REASON, INFO and FAULTPC, raises HSEQ, and
halts every core of the event's scope: for TRAP and BUDGET_EXHAUSTED the cores of the slice, for every other event those
of the partition; it changes no other stream, of this core or another, nor its stop record. FAULTED marks the stream
that raised the event (Table 8.4), and so, as the model reads it (assumption 51, DEDUCED), not `cc` for
BUDGET_EXHAUSTED, which it did not raise. -/
def Sys2Proof.Slice0.ExceptionEntryRecordsAndHalts : Prop :=
  ∀ (s : State) (core stream reason : Nat) (info pc : Word), (coreOf s core).handler = none →
    (ctxOf s (coreCtx s core)).halt = none → reason < 2 ^ 16 → core < Config.cores →
    (coreOf s core).slice.isSome = true →
    ∃ t, takeException s core stream reason info pc = t ∧
      (streamOf (coreOf t core) stream).reason.toNat = reason ∧ (streamOf (coreOf t core) stream).info = info ∧
      (streamOf (coreOf t core) stream).faultPc = pc ∧
      (streamOf (coreOf t core) stream).faulted = decide (reason ≠ 0x11) ∧
      (∀ c n, c ≠ core ∨ n ≠ stream → streamOf (coreOf t c) n = streamOf (coreOf s c) n) ∧
      (reason ≠ 0x10 → reason ≠ 0x11 → (coreOf t core).halted = true ∧
        ∀ c ∈ coresOf s (coreCtx s core), (coreOf t c).halted = true) ∧
      (reason = 0x10 ∨ reason = 0x11 → ∀ r, sliceRecord s core = some r →
        (∀ c ∈ recordCores r, (coreOf t c).halted = true) ∧
        ∀ c, c ∉ recordCores r → (coreOf t c).halted = (coreOf s c).halted) ∧
      ∃ h, (ctxOf t (coreCtx s core)).halt = some h ∧ h.origin = core ∧ h.stream = stream ∧ h.reason = reason ∧
        h.info = info ∧ h.hseq = (ctxOf s (coreCtx s core)).hseq + 1 ∧
        (ctxOf t (coreCtx s core)).hseq = (ctxOf s (coreCtx s core)).hseq + 1 ∧ h.quiet = false ∧
        h.cores = scopeOf s (coreCtx s core) core reason

/-- R164: the handler starts on `cc` of the origin core with g1, g2, g3, g8, g9 and g10 as the rule lists them, every
other g register zero; that its q registers are live is the model's reading (assumption 51, DEDUCED: R164 says only that
the files are zero). -/
def Sys2Proof.Slice0.HandlerEntryFile : Prop :=
  ∀ (s : State) (ctx : Nat) (h : Halt) (entry : Word), ∃ st, handlerFile s ctx h entry = st ∧ st.pc = entry ∧
    gValue st 1 = word (frameAt s ctx h.origin + 0x1000) ∧ gValue st 2 = word (frameAt s ctx h.origin) ∧
    gValue st 3 = word (((sliceRecord s h.origin).map (·.frame)).getD 0) ∧ gValue st 8 = word h.reason ∧
    gValue st 9 = (streamOf (coreOf s h.origin) h.stream).faultPc ∧ gValue st 10 = h.info ∧
    (∀ n, n < 128 → n ∉ [1, 2, 3, 8, 9, 10] → gValue st n = 0) ∧ (∀ n, n < 16 → qLive st n = true) ∧
    st.status = .running

/-- R157-R161 and R164: what taking an exception records and halts, and the registers the handler starts with. -/
def Obligations.ExceptionEntry : Prop := ExceptionEntryRecordsAndHalts ∧ HandlerEntryFile

/-- R60, R138-R141, R307-R309: pushing a command into the copy queue, the commands the copy engine runs,
waiting on and reading a timeline, and the order in which timelines rise. -/
def Obligations.CopyQueueAndTimelines : Prop := CopyCommandsRun ∧ PushWaitAndTimelines ∧ TimelinesRiseInOrder

/-- R170, R171, R173-R177, R325-R328: SIGDEF declares a signal with sample 0 current and a head of 0; SIGDROP removes
it; SIGRST starts it again; TICK advances `now` by one and each signal whose divisor comes due by one sample; SCTX makes
another stream context current. -/
def Obligations.SignalsDeclareAndAdvance : Prop :=
  (∀ (f : EFields) (s s1 s2 t : State) (o : Word) (im : List Byte), guardHolds s = true → roomForItems s →
    readGQ s f.a = .ok o → sctxOk s = true → o.toNat % 64 = 0 → o.toNat + 64 ≤ Config.csTop →
    loadCs s o.toNat 64 0 = .ok (im, s1) →
    entryDeclared s1 ((descOf s1 (myCtx s1) (myCore s1).sctx).sigtab + 64 * (f.n12.toNat % 1024)) = .ok (false, s2) →
    sigOf s2 (myKey s2 (f.n12.toNat % 1024)) = none →
    sigImageOk im (f.n12.toNat % 1024) (descOf s1 (myCtx s1) (myCore s1).sctx).sigtab
      (descOf s1 (myCtx s1) (myCore s1).sctx).heads = true →
    declare s2 (f.n12.toNat % 1024) im = .ok t →
    exec (.sigdef f) s = .next (finish t 8 none) ∧
    (∃ g, find (myCore t).signals (myKey s2 (f.n12.toNat % 1024)) = some g ∧ g.head = 0 ∧ g.front = 0 ∧
      g.marked = [] ∧ g.samples = [] ∧ g.blocks = [] ∧
      g.entry = overlay (overlay im 48 (toBytes 8 (descOf s2 (myCtx s2) (myCore s2).sctx).now)) 0
        (toBytes 1 (imageAt im 0 1 % 64 + 64))) ∧
    (descOf t (myCtx s2) (myCore s2).sctx).bound = true ∧
    (descOf t (myCtx s2) (myCore s2).sctx).bcore = t.curCore) ∧
  (∀ (f : EFields) (s r t : State) (g : Signal), guardHolds r = true → r = resolve s [f.n12.toNat % 1024] →
    namedSignal r (f.n12.toNat % 1024) = .ok g → drainSignal r (f.n12.toNat % 1024) = .ok () →
    writeEntry r g 0 (toBytes 1 (imageAt g.entry 0 1 % 64)) = .ok t →
    exec (.sigdrop f) s = .next (finish (onDesc
      (onCore t t.curCore fun k => unpin { k with signals := erase k.signals (myKey t (f.n12.toNat % 1024)) } (myCtx t))
      (myCtx t) (myCore (onCore t t.curCore fun k =>
        unpin { k with signals := erase k.signals (myKey t (f.n12.toNat % 1024)) } (myCtx t))).sctx
      fun d => { d with nsig := d.nsig - 1, bound := d.bound && 1 < d.nsig }) 8 none)) ∧
  (∀ (f : EFields) (s r s1 t : State) (g : Signal), guardHolds r = true → r = resolve s [f.n12.toNat % 1024] →
    namedSignal r (f.n12.toNat % 1024) = .ok g → drainSignal r (f.n12.toNat % 1024) = .ok () →
    writeEntry r g 48 (toBytes 8 (descOf r (myCtx r) (myCore r).sctx).now) = .ok s1 → scribbleHead s1 g = .ok t →
    exec (.sigrst f) s = .next (finish (onSig t (myKey t (f.n12.toNat % 1024)) fun h =>
      restart h (descOf r (myCtx r) (myCore r).sctx).now) 8 none) ∧
    (∀ (h : Signal) (now : Nat), (restart h now).head = 0 ∧ (restart h now).front = 0 ∧ (restart h now).marked = [] ∧
      (restart h now).samples = [] ∧ (restart h now).blocks = [] ∧ (restart h now).table = h.table)) ∧
  (∀ (s t : State), guardHolds s = true → sctxOk s = true →
    (descOf s (myCtx s) (myCore s).sctx).now < 2 ^ 64 - 1 → usedSignals s = [] →
    roomWanted ((descOf s (myCtx s) (myCore s).sctx).now + 1) (contextSignals s) = [] →
    tickPoint s ((contextSignals s).filter fun p =>
      advances ((descOf s (myCtx s) (myCore s).sctx).now + 1) p.2) = .ok t →
    exec .tick s = .next (finish (onDesc t (myCtx s) (myCore s).sctx fun d =>
      { d with now := (descOf s (myCtx s) (myCore s).sctx).now + 1 }) 8 none) ∧
    (((myCore s).signals.map (·.1)).Nodup → ∀ key g, (key, g) ∈ contextSignals s →
      (find (coreOf t s.curCore).signals key).map (·.head) = some
        (if ((descOf s (myCtx s) (myCore s).sctx).now + 1 : Int) % sigDiv g.entry = sigPhase g.entry % sigDiv g.entry
         then g.head + 1 else g.head))) ∧
  (∀ (f : EFields) (s : State) (v : Word), guardHolds s = true → readGQ s f.a = .ok v → v.toNat < 2 ^ 20 →
    (v = 0 ∨ (descOf s (myCtx s) v.toNat).bound = false ∨ (descOf s (myCtx s) v.toNat).bcore = s.curCore) →
    usedSignals s = [] →
    exec (.sctx f) s = .next (finish (switchSctx s s.curCore (myCtx s) v.toNat) 8 none) ∧
    (coreOf (switchSctx s s.curCore (myCtx s) v.toNat) s.curCore).sctx = v.toNat)

/-- R88, R179-R182, R184, R185, R193, R236, R278, R329: TAPLD returns the element of the sample its lag names, as it was
last written through a tap, or INIT where it was not written or lies before sample 0; TAPST writes the element of the
sample named by lag or by tick and marks the sample. -/
def Obligations.TapsReadAndWriteElements : Prop :=
  (∀ (f : EFields) (s r s1 s2 : State) (g : Signal) (x : Word) (lag v : Nat), guardHolds r = true → roomForItems s →
    r = resolve s [f.n12.toNat % 1024] → namedSignal r (f.n12.toNat % 1024) = .ok g → readGQ r f.a = .ok x →
    lagOf r f = .ok lag → lag < sigDepth g.entry → x.toNat < sigFrame g.entry →
    (lag = 0 → headOf r (f.n12.toNat % 1024) ∈ g.marked) →
    (flag f.opt.toNat 5 = true → (headOf r (f.n12.toNat % 1024) : Int) - lag < g.front) →
    openFar r (f.n12.toNat % 1024) g [(headOf r (f.n12.toNat % 1024) : Int) - lag] = .ok s1 →
    sampleElem s1 (f.n12.toNat % 1024) g ((headOf r (f.n12.toNat % 1024) : Int) - lag) x.toNat = .ok (v, s2) →
    settled (me s2) f.dst = .ok () →
    exec (.tapld f) s = .next (finish (written s2 f.dst (tapValue (sigFmt g.entry) v)) 8 none)) ∧
  (∀ (s : State) (n : Nat) (g : Signal) (j : Int) (x : Nat), g.tainted = false →
    (j < 0 → sampleElem s n g j x = .ok (sigInit g.entry, s)) ∧
    (0 ≤ j → isAbsent g j.toNat = false → isNear g j.toNat = true →
      (find (look [] g.samples j.toNat) x = none → sampleElem s n g j x = .ok (sigInit g.entry, s)) ∧
      (∀ v ps t, find (look [] g.samples j.toNat) x = some v →
        csSpan s s.curCore (sampleAt g.entry j.toNat + x * sigBytes g.entry) (sigBytes g.entry) 0 = .ok (ps, t) →
        poisonPieces t ps = false → sampleElem s n g j x = .ok (v, t)))) ∧
  (∀ (s : State) (key j x v : Nat) (g : Signal), sigOf s key = some g →
    (putElem s key g j x v).mem = s.mem ∧
    ∃ h, sigOf (putElem s key g j x v) key = some h ∧
      find (look [] h.samples j) x = some (v % 2 ^ (8 * sigBytes g.entry)) ∧
      (∀ k y, k ≠ j ∨ y ≠ x → find (look [] h.samples k) y = find (look [] g.samples k) y) ∧
      h.head = g.head ∧ h.marked = g.marked ∧ h.front = g.front ∧ h.blocks = g.blocks) ∧
  (∀ (f : EFields) (s r s1 : State) (g : Signal) (x v : Word) (lag : Nat),
    guardHolds r = true → r = resolve s [f.n12.toNat % 1024] →
    namedSignal r (f.n12.toNat % 1024) = .ok g → lagOf r f = .ok lag → lag < sigDepth g.entry →
    lag ≤ headOf r (f.n12.toNat % 1024) →
    (blockOf g ((headOf r (f.n12.toNat % 1024) - lag) / 64)).sealed = false → readGQ r f.a = .ok x →
    x.toNat < sigFrame g.entry → readReg r f.dst = .ok (v, s1) →
    exec (.tapst f) s = .next (finish (markSample (putElem s1 (myKey s1 (f.n12.toNat % 1024)) g
      (headOf r (f.n12.toNat % 1024) - lag) x.toNat v.toNat) (myKey s1 (f.n12.toNat % 1024))
      (headOf r (f.n12.toNat % 1024) - lag)) 8 none)) ∧
  (∀ (f : EFields) (s r s1 : State) (g : Signal) (x v b : Word) (j : Nat),
    guardHolds r = true → r = resolve s [f.n12.toNat % 1024] →
    namedSignal r (f.n12.toNat % 1024) = .ok g → readGQ r f.b = .ok b → sigStamp g.entry ≤ b.toNat →
    b.toNat ≤ (descOf r (myCtx r) (myCore r).sctx).now → j = sampleOfTick g.entry b.toNat →
    j ≤ headOf r (f.n12.toNat % 1024) → headOf r (f.n12.toNat % 1024) - j < sigDepth g.entry →
    (blockOf g (j / 64)).sealed = false → readGQ r f.a = .ok x →
    x.toNat < sigFrame g.entry → readReg r f.dst = .ok (v, s1) →
    exec (.tapstTick f) s = .next (finish (markSample (putElem s1 (myKey s1 (f.n12.toNat % 1024)) g j x.toNat v.toNat)
      (myKey s1 (f.n12.toNat % 1024)) j) 8 none)) ∧
  (∀ (e : List Byte) (t : Nat), 0 < sigDiv e →
    (t < firstTick e → sampleOfTick e t = 0) ∧
    (firstTick e ≤ t → 1 ≤ sampleOfTick e t ∧ firstTick e + (sampleOfTick e t - 1) * sigDiv e ≤ t ∧
      t < firstTick e + sampleOfTick e t * sigDiv e))

/-- R188, R192, R193, R331, R332: SIGSEAL completes with nothing left to seal and otherwise begins the oldest block's
seal and waits; SIGEVICT clears one survivor bit, and of a sealed block that still has its slot also the one in the
slot; SIGPOS returns the place of a sample in its block, bits [63:48] zero. The survivor bits that a begun seal stores
for samples not yet current are the model's choice (log entry 60, DESIGN CHOICE). -/
def Obligations.SealsEvictionsAndPositions : Prop :=
  (∀ (f : EFields) (s r : State) (g : Signal), guardHolds s = true → r = resolve s [f.n12.toNat % 1024] →
    namedSignal r (f.n12.toNat % 1024) = .ok g → sigDeep g.entry = true →
    ((me r).waiting ≠ some (.seal (f.n12.toNat % 1024)) → oldestOpen g = none →
      exec (.sigseal f) s = .next (finish r 8 none)) ∧
    (∀ b t, (me r).waiting ≠ some (.seal (f.n12.toNat % 1024)) → oldestOpen g = some b → roomForItems s →
      beginSeal r (myKey r (f.n12.toNat % 1024)) b g = .ok t →
      exec (.sigseal f) s = .next (hold t (.seal (f.n12.toNat % 1024)))) ∧
    ((me r).waiting = some (.seal (f.n12.toNat % 1024)) → openSeals g = [] →
      exec (.sigseal f) s = .next (finish r 8 none)) ∧
    ((me r).waiting = some (.seal (f.n12.toNat % 1024)) → openSeals g ≠ [] →
      exec (.sigseal f) s = .next (hold r (.seal (f.n12.toNat % 1024))))) ∧
  (∀ (f : EFields) (s r : State) (g : Signal) (v : Word) (b : Block), guardHolds r = true →
    r = resolve s [f.n12.toNat % 1024] → namedSignal r (f.n12.toNat % 1024) = .ok g → sigDeep g.entry = true →
    readGQ r f.a = .ok v → v.toNat ≤ g.head → g.head - v.toNat < sigDepth g.entry →
    b = { blockOf g (v.toNat / 64) with
      surv := (blockOf g (v.toNat / 64)).surv &&& ~~~ BitVec.ofNat 64 (2 ^ (v.toNat % 64)) } →
    (b.sealed = false ∨ isOverwritten g (v.toNat / 64) = true →
      exec (.sigevict f) s = .next (finish (onSig r (myKey r (f.n12.toNat % 1024)) fun h =>
        { h with blocks := put h.blocks (v.toNat / 64) b }) 8 none)) ∧
    (b.sealed = true → isOverwritten g (v.toNat / 64) = false → ∀ ps t,
      places r 9 (word (blockAt g.entry (v.toNat / 64))) 8 = .ok (ps, t) →
      exec (.sigevict f) s = .next (finish (onSig (writePieces t ps (toBytes 8 b.surv.toNat))
        (myKey t (f.n12.toNat % 1024)) fun h => { h with blocks := put h.blocks (v.toNat / 64) b }) 8 none))) ∧
  (∀ (f : EFields) (s : State) (g : Signal) (v : Word), guardHolds s = true →
    namedSignal s (f.n12.toNat % 1024) = .ok g → sigDeep g.entry = true → readGQ s f.a = .ok v → v.toNat ≤ g.head →
    g.head - v.toNat < sigDepth g.entry → settled (me s) f.dst = .ok () →
    exec (.sigpos f) s = .next (finish (written s f.dst (positionOf g v.toNat)) 8 none)) ∧
  (∀ (g : Signal) (j : Nat) (b : Block), b = blockOf g (j / 64) → (positionOf g j).toNat =
    j / 64 % 2 ^ 32 * 2 ^ 16 +
      4 * (if b.sealed then ((List.range (j % 64)).filter fun i => b.sealmap.getLsbD i).length else j % 64) +
      (if b.surv.getLsbD (j % 64) then 2 else 0) + (if b.sealed ∧ b.sealmap.getLsbD (j % 64) then 1 else 0))

namespace Sys2Proof.Slice0
open Sys2Proof.Machine

/-- The elements from `j` on in ascending order, each by `one` (R336). -/
def inOrder (one : Nat → State → Act State) : Nat → Nat → State → Act State
  | 0, _, s => .ok s
  | k + 1, j, s => match one j s with
    | .ok t => inOrder one k (j + 1) t
    | .error e => .error e

/-- A member of V.ARITH on a float format under a rounding mode, or on exact integers, narrowed as RS[0] says (R337). -/
def byType (onFloat : Fmt → Nat → Nat → Nat → Nat → FRes) (onInt : Int → Int → Int → Int) (f : VFields)
    (a b d : Nat) : FRes :=
  let t := f.ty.toNat
  if tyFloat t then onFloat (tyFmt t) f.rs.toNat a b d
  else tyNarrow t (flag f.rs.toNat 0) (onInt (tyInt t a) (tyInt t b) (tyInt t d))

/-- A special function of R341: the element as f32, the function, then the type's format. -/
def byF32 (fn : Nat → FRes) (f : VFields) (a : Nat) : FRes :=
  let x := toF32 f.ty.toNat a
  let r := fromF32 f.ty.toNat f.rs.toNat (fn x.bits).bits
  ⟨r.bits, x.flags ||| (fn x.bits).flags ||| r.flags⟩

/-- An element-wise member: its constructor, the type of RA, whether it reads RB and the old destination, and the result
of one element from a, b and the old d (R337-R341, R350). -/
structure ElementOp where
  instr : VFields → Instr
  aType : VFields → Nat := fun f => f.ty.toNat
  useB : Bool := true
  useOld : Bool := false
  op : VFields → Nat → Nat → Nat → FRes

/-- The element-wise members. -/
def elementOps : List ElementOp :=
  [{ instr := .vadd, op := byType (fun m rm a b _ => faddR m rm a b) fun a b _ => a + b },
   { instr := .vsub, op := byType (fun m rm a b _ => fsubR m rm a b) fun a b _ => a - b },
   { instr := .vmul, op := byType (fun m rm a b _ => fmulR m rm a b) fun a b _ => a * b },
   { instr := .vfma, useOld := true, op := byType fmaR fun a b d => a * b + d },
   { instr := .vmac, useOld := true, op := byType fmaR fun a b d => d + a * b },
   { instr := .vmin, op := byType (fun m _ a b _ => minMax m false a b) fun a b _ => min a b },
   { instr := .vmax, op := byType (fun m _ a b _ => minMax m true a b) fun a b _ => max a b },
   { instr := .vabs, useB := false, op := byType (fun m _ a _ _ => ⟨a % signBit m, 0⟩) fun a _ _ => a.natAbs },
   { instr := .vneg, useB := false
     op := byType (fun m _ a _ _ => ⟨(a + signBit m) % (2 * signBit m), 0⟩) fun a _ _ => -a },
   { instr := .vand, op := fun _ a b _ => ⟨a &&& b, 0⟩ }, { instr := .vor, op := fun _ a b _ => ⟨a ||| b, 0⟩ },
   { instr := .vxor, op := fun _ a b _ => ⟨a ^^^ b, 0⟩ },
   { instr := .vshl, op := fun f a b _ => tyNarrow f.ty.toNat (flag f.rs.toNat 0)
       (tyInt f.ty.toNat a * 2 ^ Nat.min b (tyBits f.ty.toNat + 1)) },
   { instr := .vshr, op := fun f a b _ => shiftRight f.ty.toNat f.rs.toNat a b },
   { instr := .vsra, op := fun f a b _ => shiftRight f.ty.toNat f.rs.toNat (signed (tyBits f.ty.toNat) a) b },
   { instr := .vcvt, aType := fun f => f.rb.toNat / 4 - 0xF0, useB := false
     op := fun f a _ _ => convertType (f.rb.toNat / 4 - 0xF0) f.ty.toNat f.rs.toNat a },
   { instr := .vsel, useOld := true, op := fun _ a b d => ⟨if d = 0 then b else a, 0⟩ },
   { instr := .vcmp, op := fun f a b _ => ⟨if (vectorCond f.ty.toNat f.rs.toNat a b).1 then 2 ^ tyBits f.ty.toNat - 1
       else 0, (vectorCond f.ty.toNat f.rs.toNat a b).2⟩ },
   { instr := .vrcp, useB := false, op := fun f a _ _ => byF32 recip f a },
   { instr := .vrsq, useB := false, op := fun f a _ _ => byF32 recipSqrt f a },
   { instr := .vexp, useB := false, op := fun f a _ _ => byF32 (fun x => exp2R 2 x 14) f a },
   { instr := .vlog, useB := false, op := fun f a _ _ => byF32 log2R f a },
   { instr := .vtanh, useB := false, op := fun f a _ _ => byF32 tanhR f a },
   { instr := .vcopy, useB := false, op := fun _ a _ _ => ⟨a, 0⟩ },
   { instr := .vfill, useB := false, op := fun _ a _ _ => ⟨a, 0⟩ }]

/-- One element of an element-wise member: its operands read, its result written to the destination's element. -/
def oneElement (p : ElementOp) (f : VFields) (o : Opened) (j : Nat) (s : State) : Act State := do
  let (a, s) ← readElem s o.a j
  let (b, s) ← match o.b with
    | some q => readElem s q j
    | none => pure (0, s)
  let (d, s) ← if p.useOld then readElem s o.d j else pure (0, s)
  writeElem (setFlags s (p.op f a b d).flags) o.d j (p.op f a b d).bits

/-- The elements of an operand gathered before a result is made (R342, R357). -/
def gathered (a : Operand) (n : Nat) (s : State) : Run :=
  gather (fun j s => (readElem s a j).map fun (v, s) => ([word v], s)) n 0 s

/-- The state in which a region instruction runs: the heads of its taps and the descriptors of its areas are those at
its issue (R177, R303). -/
abbrev regionsNamed (s : State) (f : VFields) : State :=
  openAreas (resolve s (regionTaps [f.rd, f.ra, f.rb])) [f.rd, f.ra, f.rb]

/-- The values gathered. -/
abbrev values (s : State) : List Nat := (me s).latch.map (·.toNat)

end Sys2Proof.Slice0

/-- R336-R341, R350: an element-wise member of V.ARITH, V.SFU or V.MOVE writes each destination element, in ascending
order, with the operation's result on the elements of its sources; with N = 0 it touches none. -/
def Obligations.ElementWiseResults : Prop :=
  (∀ p ∈ elementOps, ∀ (f : VFields) (s t u : State) (o : Opened),
    guardHolds s = true → roomForItems s → (me s).progress = 0 →
    vecN s ≠ 0 →
    openElements (regionsNamed s f) f (vecN s) (p.aType f)
      (if p.useB then some f.ty.toNat else none) p.useOld false false = .ok (o, t) →
    inOrder (oneElement p f o) (vecN s) 0 t = .ok u →
    exec (p.instr f) s = .next (finish (closeDest u o.d (vecN s)) 12 none)) ∧
  (∀ p ∈ elementOps, ∀ (f : VFields) (s : State), guardHolds s = true → vecN s = 0 →
    exec (p.instr f) s = .next (finish (regionsNamed s f) 12 none))

/-- R213, R342-R345: VSUM, VMAXR and VPOPC make one value of their elements and write it to the destination; VDOT sums
the products, once or with each sample of a sweep; VSCAN writes the running sums. An integer sum is exact, then
narrowed. That VPOPC writes the plain count whatever TYPE is (log entry 40, DEDUCED) and that a sweep of VDOT gathers RA
once (log entry 26, DEDUCED) are the model's readings. -/
def Obligations.ReductionsAndDotProducts : Prop :=
  (∀ p ∈ [(Instr.vsum, fun f : VFields => sumElems f.ty.toNat f.rs.toNat),
      (Instr.vmaxr, fun f : VFields => maxElems f.ty.toNat)],
    ∀ (f : VFields) (s s1 s2 s3 s4 s5 : State) (a : Operand) (d : Result),
    guardHolds s = true → roomForItems s → (me s).latch = [] →
    openOperand (regionsNamed s f) f.ra 1 f.ty.toNat = .ok (a, s1) →
    openResult s1 f = .ok (d, s2) → checkResult d [a] = .ok () → checkSource s2 a (vecN s) 1 false = .ok s3 →
    gathered a (vecN s) s3 = (s4, none) →
    putResult (setFlags s4 (p.2 f (values s4)).flags) f.ty.toNat d (p.2 f (values s4)).bits = .ok s5 →
    exec (p.1 f) s = .next (finish s5 12 none)) ∧
  (∀ (f : VFields) (s s1 s2 s3 : State) (a : Operand), guardHolds s = true → roomForItems s → (me s).latch = [] →
    openOperand (regionsNamed s f) f.ra 1 f.ty.toNat = .ok (a, s1) →
    checkSource s1 a (vecN s) 1 false = .ok s2 → gathered a (vecN s) s2 = (s3, none) →
    settled (me s3) (regionSpec f.rd) = .ok () →
    exec (.vpopc f) s = .next (finish (written s3 (regionSpec f.rd)
      (word ((values s3).filter (· != 0)).length)) 12 none)) ∧
  (∀ (f : VFields) (s s1 s2 s3 s4 s5 s6 s7 : State) (a b : Operand) (d : Result),
    guardHolds s = true → roomForItems s →
    (me s).latch = [] → (vecSweep s = 0 ∨ 2 ≤ regionKind f.rb) →
    openOperand (regionsNamed s f) f.ra 1 f.ty.toNat = .ok (a, s1) →
    openOperand s1 f.rb 2 f.ty.toNat = .ok (b, s2) → openResult s2 f = .ok (d, s3) →
    checkResult d [a, b] = .ok () → checkSource s3 a (vecN s) 1 false = .ok s4 →
    checkSource s4 b (vecN s) 1 false = .ok s5 →
    gather (fun j s => do
      let (x, s) ← readElem s a j
      let (y, s) ← readElem s b j
      return ([word x, word y], s)) (vecN s) 0 s5 = (s6, none) →
    putResult (setFlags s6 (dotElems f.ty.toNat f.rs.toNat (pairsOf (values s6))).flags) f.ty.toNat d
      (dotElems f.ty.toNat f.rs.toNat (pairsOf (values s6))).bits = .ok s7 →
    exec (.vdot f) s = .next (finish s7 12 none)) ∧
  (∀ (f : VFields) (s s1 s2 s3 s4 s5 s6 s7 s8 : State) (a b d : Operand),
    guardHolds s = true → roomForItems s → (me s).latch = [] →
    (me s).progress = 0 → vecSweep s ≠ 0 → regionKind f.rb < 2 → regionKind f.rd ≠ 3 →
    openOperand (regionsNamed s f) f.ra 1 f.ty.toNat = .ok (a, s1) →
    openOperand s1 f.rb 2 f.ty.toNat = .ok (b, s2) → openOperand s2 f.rd 0 f.ty.toNat = .ok (d, s3) →
    checkFeedback d [a, b] = .ok () → checkSource s3 a (vecN s) 1 false = .ok s4 →
    checkSource s4 b (vecN s) (vecSweep s) false = .ok s5 → checkDest s5 d (vecSweep s) false = .ok () →
    gathered a (vecN s) s5 = (s6, none) → sweepMask s6 b (vecSweep s) = .ok s7 →
    inOrder (sweepRow f b d (values s7)) (vecSweep s) 0 s7 = .ok s8 →
    exec (.vdot f) s = .next (finish (closeDest s8 d (vecSweep s)) 12 none)) ∧
  (∀ (f : VFields) (s t u : State) (o : Opened),
    guardHolds s = true → roomForItems s → (me s).progress = 0 → vecN s ≠ 0 →
    openElements (regionsNamed s f) f (vecN s) f.ty.toNat none false false false = .ok (o, t) →
    inOrder (fun j s => do
      let (v, s) ← readElem s o.a j
      writeElem (setFlags (onMe s fun st => { st with
          part := (scanStep f.ty.toNat f.rs.toNat (j == 0) (me s).part v).1 })
        (scanStep f.ty.toNat f.rs.toNat (j == 0) (me s).part v).2.flags) o.d j
        (scanStep f.ty.toNat f.rs.toNat (j == 0) (me s).part v).2.bits) (vecN s) 0 t = .ok u →
    exec (.vscan f) s = .next (finish (closeDest u o.d (vecN s)) 12 none)) ∧
  (∀ (t rs : Nat) (vs : List Nat) (ps : List (Nat × Nat)), tyFloat t = false →
    sumElems t rs vs = tyNarrow t (flag rs 0) (vs.map (tyInt t)).sum ∧
    dotElems t rs ps = tyNarrow t (flag rs 0) (ps.map fun p => tyInt t p.1 * tyInt t p.2).sum) ∧
  (∀ (t : Nat) (v : Nat) (vs : List Nat), tyFloat t = false → v ∈ vs →
    tyInt t v ≤ tyInt t (maxElems t vs).bits)

/-- R217-R222, R346-R349: VDRAW draws one index from a row of logits, VDRAWM folds carried triples, VRAND writes the
uniforms of its counter and advances it by N; a row without mass draws no index, and at T = 0 the first maximum is
drawn. -/
def Obligations.DrawsAndUniforms : Prop :=
  (∀ (f : VFields) (s s1 s2 s3 s4 s5 s6 s7 s8 : State) (a b : Operand) (r : Result) (p : DrawParams) (u : Nat),
    guardHolds s = true → roomForItems s → (me s).latch = [] →
    openOperand (regionsNamed s f) f.ra 1 f.ty.toNat = .ok (a, s1) →
    openOperand s1 f.rb 2 10 = .ok (b, s2) → openTriple s2 f = .ok (r, s3) → readParams s3 b = .ok (p, s4) →
    drawParam s4 b 2 = .ok (u, s5) → paramsOk p = true → uniformOk u = true →
    checkSource s5 a (vecN s) 1 false = .ok s6 → gathered a (vecN s) s6 = (s7, none) →
    putTriple s7 r (drawRow p u ((values s7).map fun v => (toF32 f.ty.toNat v).bits)) = .ok s8 →
    exec (.vdraw f) s = .next (finish s8 12 none)) ∧
  (∀ (f : VFields) (s s1 s2 s3 s4 s5 s6 s7 : State) (a b : Operand) (r : Result) (p : DrawParams) (us : List Nat)
    (ts : List Triple), guardHolds s = true → roomForItems s → openOperand (regionsNamed s f) f.ra 1 10 = .ok (a, s1) →
    openOperand s1 f.rb 2 10 = .ok (b, s2) → openTriple s2 f = .ok (r, s3) → readParams s3 b = .ok (p, s4) →
    readUniforms s4 b (vecN s - 1) 0 = .ok (us, s5) → paramsOk p = true → us.all uniformOk = true →
    readTriples s5 a (vecN s) 0 = .ok (ts, s6) → putTriple s6 r (foldAll p ts us) = .ok s7 →
    exec (.vdrawm f) s = .next (finish s7 12 none)) ∧
  (∀ (f : VFields) (s s1 u : State) (d : Operand), guardHolds s = true → roomForItems s → (me s).progress = 0 →
    openOperand (regionsNamed s f) f.rd 0 10 = .ok (d, s1) → checkDest s1 d (vecN s) false = .ok () →
    (me s1).progress = 0 →
    inOrder (fun j t => writeElem t d j (uniformAt (issueCore t).key ((me t).part.setWidth 64 + word j))) (vecN s) 0
      (onMe s1 fun st => { st with part := (issueCore s1).ctr.setWidth 256 }) = .ok u →
    exec (.vrand f) s = .next (finish (onCore (closeDest u d (vecN s)) (closeDest u d (vecN s)).curCore fun k =>
      { k with ctr := (me (closeDest u d (vecN s))).part.setWidth 64 + word (vecN s) }) 12 none)) ∧
  (∀ (p : DrawParams) (u : Nat) (xs : List Nat), (∀ x ∈ xs, nanF32 x = true ∨ x = negInf) → p.temp ≠ posInf →
    (drawRow p u xs).t = ⟨0xFFFFFFFF, 0xFF800000, 0⟩ ∧ (drawRow p u xs).flags = flagDZ) ∧
  (∀ (p : DrawParams) (u i : Nat) (xs : List Nat), p.temp = 0 → i < xs.length → (∀ x ∈ xs, x < 2 ^ 32) →
    (∀ j, j < xs.length → nanF32 (xs.getD j 0) = false) →
    (∀ j, j < xs.length → ltF32 (xs.getD i 0) (xs.getD j 0) = false) →
    (∀ j, j < i → eqF32 (xs.getD j 0) (xs.getD i 0) = false) → xs.getD i 0 ≠ negInf →
    (drawRow p u xs).t.index = i ∧ (drawRow p u xs).t.mass = 0x3F800000 ∧ (drawRow p u xs).draw = 0)

/-- R334, R350-R355: VSHAPE sets the shape state; VGATHER, VSCATTER and VPERM place elements by those of RB; VEXPAND
writes a planar window buffer, VFIR filters a signal; CSPUSH, CSPOP and CSROUTE append to and take from a conditional
stream. -/
def Obligations.ShapesMovesAndStreams : Prop :=
  (∀ (f : LFields) (s s1 s2 : State) (n w : Option Nat), guardHolds s = true →
    shapeCount s (flag f.imm.toNat 3) f.a = .ok (n, s1) → shapeCount s1 (flag f.imm.toNat 4) f.b = .ok (w, s2) →
    n.getD 0 ≤ 65535 → w.getD 0 ≤ 65535 →
    exec (.vshape f) s = .next (finish (onCore (emptyIf (emptyIf s2 f.lu f.a) f.lu f.b)
      (emptyIf (emptyIf s2 f.lu f.a) f.lu f.b).curCore (shapeCore f.imm.toNat f.lit.toNat n w)) 12 none)) ∧
  (∀ (imm lit : Nat) (n w : Option Nat) (k : Core), n.getD 0 < 2 ^ 16 → w.getD 0 < 2 ^ 16 →
    (∀ i, i < 3 → look 0 (shapeCore imm lit n w k).vo i = if flag imm i then BitVec.ofNat 16 lit else look 0 k.vo i) ∧
    (∀ i, i < 3 → look 1 (shapeCore imm lit n w k).vs i =
      if flag imm i then BitVec.ofInt 32 (signed 16 (lit / 2 ^ 16)) else look 1 k.vs i) ∧
    (shapeCore imm lit n w k).vn.toNat % 2 ^ 16 = n.getD (k.vn.toNat % 2 ^ 16) ∧
    (shapeCore imm lit n w k).vn.toNat / 2 ^ 16 = w.getD (k.vn.toNat / 2 ^ 16)) ∧
  (∀ p ∈ [(Instr.vgather, (5, true, false), fun (o : Opened) (j i : Nat) (s : State) => (do
        let (v, s) ← readElem s o.a i
        writeElem s o.d j v : Act State)),
      (Instr.vscatter, (5, false, true), fun (o : Opened) (j i : Nat) (s : State) => (do
        let (v, s) ← readElem s o.a j
        writeElem s o.d i v : Act State)),
      (Instr.vperm, (3, true, false), fun (o : Opened) (j c : Nat) (s : State) => (
        if flag c 6 then stopWith 0x09
        else if flag c 7 || vecN s ≤ j / 64 * 64 + c % 64 then writeElem s o.d j 0
        else do
          let (v, s) ← readElem s o.a (j / 64 * 64 + c % 64)
          writeElem s o.d j v : Act State))],
    ∀ (f : VFields) (s t u : State) (o : Opened) (b : Operand),
    guardHolds s = true → roomForItems s → (me s).progress = 0 →
    vecN s ≠ 0 → openElements (regionsNamed s f) f (vecN s) f.ty.toNat (some p.2.1.1) false
      p.2.1.2.1 p.2.1.2.2 = .ok (o, t) → o.b = some b →
    inOrder (fun j s => do
      let (i, s) ← readElem s b j
      p.2.2 o j i s) (vecN s) 0 t = .ok u →
    exec (p.1 f) s = .next (finish (closeDest u o.d (vecN s)) 12 none)) ∧
  (∀ (f : VFields) (s t u : State) (w : Window) (a d : Operand),
    guardHolds s = true → roomForItems s → (me s).progress = 0 →
    openWindow (regionsNamed s f) f = .ok (w, a, d, t) →
    inOrder (fun j s => do
      let (v, s) ← windowElem w a j s
      writeElem s d j v) (w.c * w.k * w.lout) 0 t = .ok u →
    exec (.vexpand f) s = .next (finish u 12 none)) ∧
  (∀ (f : VFields) (s s1 s2 s3 s4 s5 u : State) (a b d : Operand),
    guardHolds s = true → roomForItems s → (me s).progress = 0 →
    vecN s ≠ 0 → vecSweep s ≠ 0 →
    openOperand (regionsNamed s f) f.ra 1 f.ty.toNat = .ok (a, s1) →
    openOperand s1 f.rb 2 f.ty.toNat = .ok (b, s2) → openOperand s2 f.rd 0 f.ty.toNat = .ok (d, s3) →
    checkFeedback d [a] = .ok () → checkSource s3 a (vecN s) (vecSweep s) false = .ok s4 →
    checkDest s4 d (vecN s) false = .ok () → (me s4).progress = 0 → sweepMask s4 a (vecSweep s) = .ok s5 →
    inOrder (fun j s' => do
      let (ps, s') ← firTerms s' a b j (vecSweep s) 0
      writeElem (setFlags s' (firValue f.ty.toNat f.rs.toNat ps).flags) d j (firValue f.ty.toNat f.rs.toNat ps).bits)
      (vecN s) 0 s5 = .ok u →
    exec (.vfir f) s = .next (finish (closeDest u d (vecN s)) 12 none)) ∧
  (∀ (f : VFields) (s s1 s2 s3 s4 s5 s6 s7 s8 : State) (c : Stream16) (x y : Operand) (data : List Nat),
    guardHolds s = true → roomForItems s → (me s).latch = [] →
    readHeader (regionsNamed s f) f.rd 0 (tyBytes f.ty.toNat) = .ok (c, s1) →
    openOperand s1 f.ra 1 f.ty.toNat = .ok (x, s2) → openOperand s2 f.rb 2 f.ty.toNat = .ok (y, s3) →
    checkSource s3 x (vecN s) 1 false = .ok s4 → checkSource s4 y (vecN s) 1 false = .ok s5 →
    gather (fun j s => do
      let (v, s) ← readElem s x j
      let (w, s) ← readElem s y j
      return ([word v, word w], s)) (vecN s) 0 s5 = (s6, none) →
    data = ((pairsOf (values s6)).filter fun p => p.2 != 0).map (·.1) → queued c + data.length ≤ c.cap →
    appendAll s6 c (tyBytes f.ty.toNat) c.tail data = .ok s7 → putHeader s7 c 4 (c.tail + data.length) = .ok s8 →
    exec (.cspush f) s = .next (finish s8 12 none)) ∧
  (∀ (f : VFields) (s s1 s2 s3 s4 s5 u : State) (c : Stream16) (y d : Operand), guardHolds s = true → roomForItems s →
    (me s).latch = [] →
    readHeader (regionsNamed s f) f.ra 1 (tyBytes f.ty.toNat) = .ok (c, s1) →
    openOperand s1 f.rb 2 f.ty.toNat = .ok (y, s2) → openOperand s2 f.rd 0 f.ty.toNat = .ok (d, s3) →
    checkFeedback d [y] = .ok () → checkSource s3 y (vecN s) 1 false = .ok s4 →
    checkDest s4 d (vecN s) false = .ok () → gathered y (vecN s) s4 = (s5, none) →
    takeRecords s5 c d ((below (vecN s) fun j => (values s5).getD j 0 != 0).take (queued c)) = .ok u →
    exec (.cspop f) s = .next (finish u 12 none)) ∧
  (∀ (f : VFields) (s s1 s2 u : State) (c : Stream16) (d : Operand),
    guardHolds s = true → roomForItems s → (me s).latch = [] →
    readHeader (regionsNamed s f) f.ra 1 (tyBytes f.ty.toNat) = .ok (c, s1) →
    openOperand s1 f.rd 0 f.ty.toNat = .ok (d, s2) → checkDest s2 d (vecN s) false = .ok () →
    takeRecords s2 c d (List.range (512 / tyBytes f.ty.toNat *
      (Nat.min (vecN s) (queued c) / (512 / tyBytes f.ty.toNat)))) = .ok u →
    exec (.csroute f) s = .next (finish u 12 none))

/-- R137, R145, R147, R148, R209, R211, R360, R361, R365, R367, R368: TLD fills a tile (or the pair or the seven
slices of it) from memory, TST stores one, ACCMOV stores its lanes, SCLD loads scale entries,
TIDSET stores and caches a tensor entry, TIDINV drops cached ones. -/
def Obligations.TileMovesComplete : Prop :=
  (∀ (f : EFields) (s s1 s2 : State) (cells : List (Nat × Nat × Option Cell)) (vs : List (Nat × Nat × Nat))
    (bad : List Nat), guardHolds s = true → roomForItems s →
    nestRunning s = false → f.opt.toNat % 16 ≠ 1 → f.opt.toNat % 16 ≠ 2 →
    tileOf f ∉ busyTiles (myCore s) →
    tileCells s f (tileShape (issueCore s) (tileOf f)) (f.opt.toNat % 16) = .ok (cells, s1) →
    readCells s1 4 (shapeBits (tileShape (issueCore s) (tileOf f))) cells = .ok (vs, bad, s2) →
    exec (.tld f) s = .next (finish (onCore (reportPoison s2 bad) (reportPoison s2 bad).curCore fun k =>
      fillTile k (tileOf f) vs) 8 none)) ∧
  (∀ (f : EFields) (s s1 s2 : State) (cells : List (Nat × Nat × Option Cell)) (vs : List (Nat × Nat × Nat))
    (bad : List Nat), guardHolds s = true → roomForItems s →
    nestRunning s = false → f.opt.toNat % 16 = 1 → tileOf f % 2 = 0 →
    shapeBits (tileShape (issueCore s) (tileOf f)) = 16 → tileOf f ∉ busyTiles (myCore s) →
    tileOf f + 1 ∉ busyTiles (myCore s) → tileCells s f (tileShape (issueCore s) (tileOf f)) 1 = .ok (cells, s1) →
    readCells s1 4 32 cells = .ok (vs, bad, s2) →
    exec (.tld f) s = .next (finish (onCore (fillSplit (reportPoison s2 bad) (tileOf f) vs)
      (fillSplit (reportPoison s2 bad) (tileOf f) vs).curCore fun k =>
        copyShape k (tileOf f) 1 (tileShape (issueCore s) (tileOf f))) 8 none)) ∧
  (∀ (f : EFields) (s s1 s2 s3 : State) (cells : List (Nat × Nat × Option Cell)) (vs : List (Nat × Nat × Nat))
    (bad : List Nat) (o : Word) (es : List Int), guardHolds s = true → roomForItems s → nestRunning s = false →
    f.opt.toNat % 16 = 2 → (tileOf f = 0 ∨ tileOf f = 8) → shapeBits (tileShape (issueCore s) (tileOf f)) = 8 →
    (∀ d, d < 7 → tileOf f + d ∉ busyTiles (myCore s)) →
    tileCells s f (tileShape (issueCore s) (tileOf f)) 2 = .ok (cells, s1) →
    readCells s1 4 64 cells = .ok (vs, bad, s2) → readGQ (reportPoison s2 bad) f.dst = .ok o →
    readExponents (reportPoison s2 bad) o.toNat (if flag f.n12.toNat 5 then
      shapeCols (tileShape (issueCore s) (tileOf f)) else shapeRows (tileShape (issueCore s) (tileOf f))) = .ok (es,
        s3) →
    exec (.tld f) s = .next (finish (onCore (fillSlices s3 (tileOf f) (flag f.n12.toNat 5) es vs) s3.curCore fun k =>
      copyShape k (tileOf f) 6 (tileShape (issueCore s) (tileOf f))) 8 none)) ∧
  (∀ (s : State) (t i j v : Nat) (vs : List (Nat × Nat × Nat)), (i, j, v) ∈ vs → (∀ c ∈ vs, c.1 < 64 ∧ c.2.1 < 64) →
    (vs.map fun c => (c.1, c.2.1)).Nodup →
    tileAt (myCore (fillSplit s t vs)) t i j = (splitF32 v).1 % 2 ^ 16 ∧
    tileAt (myCore (fillSplit s t vs)) (t + 1) i j = (splitF32 v).2.1 % 2 ^ 16 ∧
    (me (fillSplit s t vs)).fflags &&& (splitF32 v).2.2 = (splitF32 v).2.2) ∧
  (∀ (k : Core) (t i j : Nat) (cells : List (Nat × Nat × Nat)), i < 64 → j < 64 →
    (∀ c ∈ cells, c.1 < 64 ∧ c.2.1 < 64) → (cells.map fun c => (c.1, c.2.1)).Nodup →
    (∀ v, (i, j, v) ∈ cells → tileAt (fillTile k t cells) t i j = v % 2 ^ 16) ∧
    ((∀ v, (i, j, v) ∉ cells) → tileAt (fillTile k t cells) t i j = tileAt k t i j) ∧
    (∀ u, u ≠ t → tileAt (fillTile k t cells) u i j = tileAt k u i j)) ∧
  (∀ (f : EFields) (s s1 t : State) (cells : List (Nat × Nat × Option Cell)), guardHolds s = true →
    roomForItems s → nestRunning s = false → tileOf f ∉ busyTiles (myCore s) →
    tileCells s f (tileShape (issueCore s) (tileOf f)) 0 = .ok (cells, s1) →
    writeCells4 s1 5 (shapeBits (tileShape (issueCore s) (tileOf f))) (tileOf f) cells = .ok t →
    exec (.tst f) s = .next (finish t 8 none)) ∧
  (∀ (f : EFields) (s t : State) (ea b d : Word) (pitch z : Nat) (valid isFloat : Bool) (lane : Nat → Nat → Nat),
    guardHolds s = true → roomForItems s → nestRunning s = false → readGQ s f.a = .ok ea → readGQ s f.b = .ok b →
    readGQ s f.dst = .ok d → z = moveBytes f.opt.toNat → pitch = (if f.b = 0 then 64 * z else b.toNat) →
    ea.toNat % z = 0 → pitch % z = 0 → valid = (myCore s).accV.getLsbD (f.n12.toNat % 8) →
    isFloat = (valid && (myCore s).accM.getLsbD (f.n12.toNat % 8)) →
    lane = (fun i j => if valid then laneOf (myCore s) (f.n12.toNat % 8) i j else 0) →
    (f.opt.toNat < 4 →
      moveLanes s ea pitch z (fun s' i j _ => .ok (laneElem f.opt.toNat (roundingMode s) isFloat (lane i j), s'))
        (cellsOf 64 64) = .ok t → exec (.accmov f) s = .next (finish t 8 none)) ∧
    (f.opt.toNat = 4 → isFloat = false → -1100 ≤ d.toInt → d.toInt ≤ 1100 →
      moveLanes s ea pitch z (fun s' i j a => do
        let (old, s') ← loadBytes s' 0 a 8
        return (addScaled (fromBytes old) (lane i j) d.toInt, s')) (cellsOf 64 64) = .ok t →
      exec (.accmov f) s = .next (finish t 8 none)) ∧
    (∀ (s1 s2 : State) (eas ebs : List Int), f.opt.toNat = 5 → isFloat = false → field d.toNat 27 5 = 0 →
      field d.toNat 59 5 = 0 → readExponents s (field d.toNat 0 27) 64 = .ok (eas, s1) →
      readExponents s1 (field d.toNat 32 27) 64 = .ok (ebs, s2) →
      moveLanes s2 ea pitch z (fun s' i j a => do
        let (old, s') ← loadBytes s' 0 a 8
        return (⟨(finalScale (addScaled (fromBytes old) (lane i j) 96).bits (eas.getD i 0) (ebs.getD j 0)).bits,
          (addScaled (fromBytes old) (lane i j) 96).flags |||
          (finalScale (addScaled (fromBytes old) (lane i j) 96).bits (eas.getD i 0) (ebs.getD j 0)).flags⟩, s'))
        (cellsOf 64 64) = .ok t → exec (.accmov f) s = .next (finish t 8 none))) ∧
  (∀ (f : EFields) (s s1 : State) (first ea n : Word) (bs : List Byte), guardHolds s = true →
    roomForItems s → readGQ s f.dst = .ok first → readGQ s f.a = .ok ea → readGQ s f.b = .ok n →
    (n = 0 → exec (.scld f) s = .next (finish s 8 none)) ∧
    (n ≠ 0 → first.toNat + n.toNat ≤ 8192 → loadUnits s 0 ea (2 * n.toNat) = .ok (bs, s1) →
      exec (.scld f) s = .next (finish (onCore s1 s1.curCore fun k => { k with
        scales := putScales k.scales first.toNat ((List.range n.toNat).map fun i => imageAt bs (2 * i) 2) }) 8 none))) ∧
  (∀ (f : EFields) (s s1 t : State) (ea id : Word) (im : List Byte), guardHolds s = true → roomForItems s →
    readGQ s f.a = .ok ea →
    readGQ s f.b = .ok id → loadBytes s 0 ea 64 = .ok (im, s1) → id.toNat < 4096 → tidImageOk im = true →
    storeBytes s1 1 (word (tidAddress s1 (myCtx s1) id.toNat)) im = .ok t →
    exec (.tidset f) s = .next (finish (tidInsert t id.toNat im) 8 none) ∧
    ((find (myCore t).tids id.toNat).isSome = true ∨ (myCore t).tids.length < 64 →
      find (myCore (tidInsert t id.toNat im)).tids id.toNat = some im)) ∧
  (∀ (f : EFields) (s : State) (first n : Word), guardHolds s = true → readGQ s f.a = .ok first →
    readGQ s f.b = .ok n →
    exec (.tidinv f) s = .next (finish (onCore s s.curCore fun k => { k with tids := k.tids.filter fun p =>
      n != 0 && !(first.toNat ≤ p.1 && p.1 < first.toNat + n.toNat) }) 8 none))

namespace Sys2Proof.Slice0
open Sys2Proof.Machine

/-- A row group of a product has been accumulated from `k` to `t` (R208, R363): each of its lanes inside the shape has
the products of its passes added, onto zero for one that zeroes, with their flags; lanes outside the shape are kept or
zeroed, and every other lane is as it was. -/
def groupDone (k : Core) (t : State) (p : Product) (g : Nat) : Prop :=
  ∀ a r j, r < 64 → j < 64 →
    (a ≠ p.acc ∨ r / 8 ≠ g → laneOf (myCore t) a r j = laneOf k a r j) ∧
    (a = p.acc → r / 8 = g → ∀ old, old = (if p.zeroing then 0 else laneOf k a r j) →
      (r < shapeRows p.shapeA ∧ j < shapeCols p.shapeB →
        laneOf (myCore t) a r j = (lanePasses k p r j old).bits % 2 ^ 36 ∧
        (me t).fflags &&& (lanePasses k p r j old).flags = (lanePasses k p r j old).flags) ∧
      (¬ (r < shapeRows p.shapeA ∧ j < shapeCols p.shapeB) → laneOf (myCore t) a r j = old))

end Sys2Proof.Slice0

/-- R146, R208, R363, R370: an MMA or MMAZ that passes its checks starts, its accumulator valid, in flight and of its
type's mode, and accumulates the first of its eight row groups; each later issue accumulates the next, PROGRESS counting
eight for each, and after the last the accumulator is dirty, no longer in flight, and the instruction has issued. NESTGO
captures the engine's registers, starts the nest and returns its number; each iteration raises the count and drains at
the end of an innermost sweep; a nest that is through ends. That one issue accumulates one row group is the model's
choice (DESIGN CHOICE, assumption 62). -/
def Obligations.ProductsAndNestsStart : Prop :=
  (∀ q ∈ [(Instr.mma, false), (Instr.mmaz, true)],
    ∀ (f : EFields) (s s1 : State) (book : Word) (c : Option Nat) (p : Product) (table : List Byte),
    guardHolds s = true → roomForItems s → nestRunning s = false → (me s).mma = none → (me s).progress = 0 →
    (if f.opt.toNat % 16 = 7 ∨ f.opt.toNat % 16 = 8 then readGQ s f.a else .ok 0) = .ok book → book.toNat < 256 →
    (if flag f.opt.toNat 4 then (readGQ s f.b).map fun v => some v.toNat else .ok none) = .ok c →
    openProduct s (issueCore s) (f.opt.toNat % 16) (field f.n12.toNat 3 4) (field f.n12.toNat 7 4)
      (tileShape (issueCore s) (field f.n12.toNat 3 4)) (tileShape (issueCore s) (field f.n12.toNat 7 4))
      (f.n12.toNat % 8) (c.map fun v => (((issueCore s).scbase.toNat + v : Nat) : Int)) q.2 = .ok p →
    readTable s (f.opt.toNat % 16) (issueCore s).cbook.toNat book.toNat = .ok (table, s1) →
    ∃ t, exec (q.1 f) s = .next t ∧ groupDone (myCore s1) t { p with table := table } 0 ∧
      (me t).mma = some { p with table := table } ∧ (me t).progress = 8 ∧ (me t).pc = (me s).pc ∧
      (myCore t).accV.getLsbD p.acc = true ∧ (myCore t).accF.getLsbD p.acc = true ∧
      (myCore t).accM.getLsbD p.acc = decide (p.ty ≠ 0) ∧ (q.2 = true → (myCore t).accD.getLsbD p.acc = false) ∧
      (myCore t).tiles = (myCore s1).tiles) ∧
  (∀ q ∈ [(Instr.mma, false), (Instr.mmaz, true)],
    ∀ (f : EFields) (s : State) (p : Product) (g : Nat), guardHolds s = true → (me s).mma = some p → p.acc < 8 →
    (me s).progress = 8 * g →
    (g < 7 → ∃ t, exec (q.1 f) s = .next t ∧ groupDone (myCore s) t p g ∧ (me t).mma = some p ∧
      (me t).progress = 8 * (g + 1) ∧ (me t).pc = (me s).pc ∧ (myCore t).accF.getLsbD p.acc = true ∧
      (myCore t).tiles = (myCore s).tiles) ∧
    (g = 7 → ∃ t, exec (q.1 f) s = .next t ∧ groupDone (myCore s) t p g ∧ (me t).mma = none ∧ (me t).progress = 0 ∧
      (me t).pc = nextPc (me s).pc 8 ∧ (myCore t).accF.getLsbD p.acc = false ∧
      (myCore t).accD.getLsbD p.acc = true ∧ (myCore t).tiles = (myCore s).tiles)) ∧
  (∀ (s : State) (k : Core) (ty ta tb shapeA shapeB acc : Nat) (scale : Option Int) (zero : Bool) (p : Product),
    openProduct s k ty ta tb shapeA shapeB acc scale zero = .ok p →
    p.ty = ty ∧ p.ta = ta ∧ p.tb = tb ∧ p.shapeA = shapeA ∧ p.shapeB = shapeB ∧ p.acc = acc ∧
    p.zeroing = (zero || !k.accV.getLsbD acc) ∧
    (p.zeroing = false → k.accM.getLsbD acc = decide (ty ≠ 0)) ∧ (myCore s).accF.getLsbD acc = false ∧
    (∀ base, scale = some base →
      p.scales = some ((List.range (2 * shapeCols shapeB)).map fun i => scaleAt k (base.toNat + i)))) ∧
  (∀ (f : EFields) (s t1 t2 t3 : State) (tid : List Byte) (n head : Nat), guardHolds s = true → roomForItems s →
    nestRunning s = false →
    checkNest { s with guard := { s.guard with pulse := false } } f.opt.toNat
      (look {} (myCore s).engines (s.curStream - 2)).regs = .ok (tid, head, t1) →
    tlTake t1 (myCtx s) (tlKey (s.curStream + 1) s.curCore) = (n, t2) →
    (f.dst ≠ 0 → settled (me t2) f.dst = .ok ()) → t3 = (if f.dst = 0 then t2 else written t2 f.dst (word n)) →
    exec (.nestgo f) s = .next (finish (onCore t3 t3.curCore fun k => { k with
      engines := put k.engines (s.curStream - 2) { look {} (myCore s).engines (s.curStream - 2) with
        nest := some {
          regs := (look {} (myCore s).engines (s.curStream - 2)).regs
          shapeA := BitVec.ofNat 32 (tileShape (issueCore s)
            (field (nestReg (look {} (myCore s).engines (s.curStream - 2)).regs 0x100) 12 4))
          shapeB := BitVec.ofNat 32 (tileShape (issueCore s)
            (field (nestReg (look {} (myCore s).engines (s.curStream - 2)).regs 0x100) 8 4))
          tid := tid, type := f.opt.toNat, modes := f.n12.toNat, number := n, pulse := s.guard.pulse
          pc := (me s).pc, began := (myCore s).cycle, head := head
          scbase := (issueCore s).scbase.toNat, cbook := (issueCore s).cbook.toNat } } }) 8 none)) ∧
  (∀ (r : NestRegs) (p : Nat), p < nestTotal r → (nestIndex r p).length = 6 ∧
    ∀ l, l < 6 → (nestIndex r p).getD l 0 < nestTrip r l) ∧
  (∀ (s t : State) (n m : Nest), iterate s n = .ok (t, m) → m.iteration = n.iteration + 1 ∧
    m.drains = n.drains + (if (n.iteration + 1) % nestTrip n.regs 0 = 0 then 1 else 0) ∧ m.regs = n.regs) ∧
  (∀ (s : State) (core engine : Nat) (n : Nest), (look {} (coreOf s core).engines engine).nest = some n →
    nestTotal n.regs ≤ n.iteration → n.owed = [] → (coreOf s core).halted = false →
    ∃ t, exec (.nestComplete core engine) s = .next t ∧ (look {} (coreOf t core).engines engine).nest = none ∧
      tlOf t (coreCtx s core) (tlKey (engine + 3) core) =
        tlComplete (tlOf s (coreCtx s core) (tlKey (engine + 3) core)) n.number)

namespace Sys2Proof.Slice0
open Sys2Proof.Machine

/-- The registers a stream of a core issues from: the handler's on stream 0 while one runs (R164). -/
abbrev streamFile (s : State) (core stream : Nat) : Stream := me { s with curCore := core, curStream := stream }

end Sys2Proof.Slice0

/-- R378-R382: EQPUSH, EQCFG, EQFIRE and EQPOP put one command in the queue of the Geyser they name and wait for the
round that decides it, EQSTAT waits for the next round boundary; the decision writes the destination register and the
instruction has issued. -/
def Obligations.GeyserInstructionsComplete : Prop :=
  (∀ (f : EFields) (s t : State) (c n : Nat) (im : List Byte), guardHolds s = true → (me s).waiting = none →
    placeReg s f.b = .ok c → readImage s f.a.toNat 4 = .ok im → entryReserved im = false →
    queueGeyser s c (myCommand s 1 f.n12.toNat 0 im f.dst (flag f.opt.toNat 0)) = some (n, t) →
    exec (.eqpush f) s = .next (hold t (.geyser (towerOfCore c) n))) ∧
  (∀ q ∈ [(Instr.eqcfg, 2), (Instr.eqpop, 4)],
    ∀ (f : EFields) (s t : State) (a : Word) (c n : Nat), guardHolds s = true → (me s).waiting = none →
    readGQ s f.a = .ok a → a.toNat % 64 = 0 → placeReg s f.b = .ok c → settled (me s) f.dst = .ok () →
    queueGeyser s c (myCommand s q.2 f.n12.toNat a.toNat [] f.dst true) = some (n, t) →
    exec (q.1 f) s = .next (hold t (.geyser (towerOfCore c) n))) ∧
  (∀ (f : EFields) (s t : State) (c n : Nat), guardHolds s = true → (me s).waiting = none →
    placeReg s f.b = .ok c → settled (me s) f.dst = .ok () → queueGeyser s c (myCommand s 3 f.n12.toNat 0 [] f.dst true) = some (n, t) →
    exec (.eqfire f) s = .next (hold t (.geyser (towerOfCore c) n))) ∧
  (∀ (f : EFields) (s : State) (c : Nat), guardHolds s = true → (me s).waiting = none → placeReg s f.b = .ok c →
    settled (me s) f.dst = .ok () →
    exec (.eqstat f) s = .next (hold s (.eqstat (towerOfCore c) f.n12.toNat f.dst))) ∧
  (∀ (s : State) (tower : Nat) (c : GeyCmd) (code count core stream : Nat), c.waiter = some (core, stream) →
    coreCtx s core = c.ctx → (streamFile s core stream).waiting = some (.geyser tower c.number) →
    (c.op ≠ 1 → reply s tower c code count = retire s core stream c.dst (statusWord code count)) ∧
    (c.op = 1 → code = 0x80 →
      reply s tower c code count = retire s core stream (if c.nf then c.dst else 0) 0) ∧
    (c.op = 1 → code ≠ 0x80 → c.nf = true → reply s tower c code count = retire s core stream c.dst 1)) ∧
  (∀ (s : State) (core stream : Nat) (dst : BitVec 8) (v : Word), 0 < dst.toNat → dst.toNat < 128 →
    gValue (streamFile (retire s core stream dst v) core stream) dst.toNat = v ∧
    (streamFile (retire s core stream dst v) core stream).waiting = none ∧
    (streamFile (retire s core stream dst v) core stream).pc =
      nextPc (streamFile s core stream).pc 8)

/-- R66, R67, R349, R372, R374-R377: GFSTEP and GFMASK queue a grammar command, RPLY posts a token-ring entry or takes
the oldest grammar reply, EMBLD takes the draw reply of a sequence and copies its token's row, VRANDK sets key and
counter. -/
def Obligations.GenInstructionsComplete : Prop :=
  (∀ q ∈ [(Instr.gfstep, 1), (Instr.gfstepSet, 3), (Instr.gfmask, 2)],
    ∀ (f : EFields) (s t : State) (slot arg : Word), guardHolds s = true → readGQ s f.a = .ok slot →
    readGQ s f.b = .ok arg → slot.toNat ≤ 65535 → grammarOn (ctxOf s (myCtx s)) = true →
    (q.2 = 2 → arg.toNat % 8 = 0 ∧ arg.toNat + 8 * maskWords (vocabOf (ctxOf s (myCtx s))) ≤ Config.csTop) →
    queueGrammar s s.curCore { ctx := myCtx s, core := s.curCore, record := submitOn s s.curCore, op := q.2
                               notify := flag f.opt.toNat 0, slot := slot.toNat, arg := arg
                               vocab := some (vocabOf (ctxOf s (myCtx s))), bad := false } = some t →
    exec (q.1 f) s = .next (finish t 8 none)) ∧
  (∀ (f : EFields) (s : State) (a b : Word), guardHolds s = true → readGQ s f.a = .ok a → readGQ s f.b = .ok b →
    b.toNat < 2 ^ 50 → flag (reg (ctxOf s (myCtx s)) (ringAt (f.n12.toNat % 16) + 8)) 63 = true →
    (tokenFull (ctxOf s (myCtx s)) (f.n12.toNat % 16) = false → ∀ t,
      postToken s (myCtx s) (f.n12.toNat % 16) (tokenEntry a b) = some t →
      exec (.rply f) s = .next (finish t 8 none) ∧
      look 0 (ctxOf t (myCtx s)).trtail (f.n12.toNat % 16) =
        (look 0 (ctxOf s (myCtx s)).trtail (f.n12.toNat % 16) + 1) % 2 ^ 32) ∧
    (tokenFull (ctxOf s (myCtx s)) (f.n12.toNat % 16) = true →
      exec (.rply f) s = .next (hold (onCtx s (myCtx s) fun c => { c with trfull := true }) (.cause 4)))) ∧
  (∀ (f : EFields) (s : State), guardHolds s = true →
    ((∀ e ∈ (myCore s).replies, e.grammar = false) → settled (me s) f.dst = .ok () →
      exec (.rplyTake f) s = .next (finish (written s f.dst (BitVec.allOnes 64)) 8 none)) ∧
    (∀ i e, (myCore s).replies.findIdx? (·.grammar) = some i → (myCore s).replies[i]? = some e →
      settled (me s) f.dst = .ok () →
      exec (.rplyTake f) s = .next (finish (written (onCore s s.curCore fun k => dropReply k i) f.dst
        (word (e.token.toNat + e.seq.toNat % 2 ^ 16 * 2 ^ 32 + bit01 e.fail * 2 ^ 48 + e.step.toNat % 4 * 2 ^ 49)))
        8 none))) ∧
  (∀ (f : EFields) (s : State) (a o : Word) (i : Nat) (r : Reply), guardHolds s = true → roomForItems s →
    readGQ s f.a = .ok a →
    readGQ s f.b = .ok o → drawReply (myCore s) (a.toNat % 2 ^ 32) = some i → (myCore s).replies[i]? = some r →
    (r.token = BitVec.allOnes 32 → settled (me s) f.dst = .ok () →
      exec (.embld f) s = .next (finish (written (onCore s s.curCore fun k => dropReply k i) f.dst
        (word (r.token.toNat + r.reason.toNat * 2 ^ 32 + bit01 r.fail * 2 ^ 48))) 8 none)) ∧
    (∀ e t u, r.token ≠ BitVec.allOnes 32 → tidEntry s f.n12.toNat = .ok (e, t) → r.token.toNat < tidDim e 1 →
      fetchRow s f.n12.toNat r.token.toNat o.toNat = .ok u → settled (me u) f.dst = .ok () →
      exec (.embld f) s = .next (finish (written (onCore u u.curCore fun k => dropReply k i) f.dst
        (word (r.token.toNat + r.reason.toNat * 2 ^ 32 + bit01 r.fail * 2 ^ 48))) 8 none)) ∧
    (∀ e t, r.token ≠ BitVec.allOnes 32 → tidEntry s f.n12.toNat = .ok (e, t) → tidDim e 1 ≤ r.token.toNat →
      exec (.embld f) s = .next (trapState (onCore s s.curCore fun k => dropReply k i)
        (.event 0x09 (some (word r.token.toNat)))))) ∧
  (∀ (f : EFields) (s : State) (a b : Word), guardHolds s = true → readGQ s f.a = .ok a → readGQ s f.b = .ok b →
    exec (.vrandk f) s = .next (finish (onCore s s.curCore fun k => { k with key := a, ctr := b }) 8 none))

namespace Sys2Proof.Slice0
open Sys2Proof.Machine

/-- Guards that an instruction's format class can carry (Tables 12.2-12.8): none in the 32-bit classes, no `.pulse` in
the G and L classes, no inversion in the V class. -/
def guardFits (g : Guard) (i : Instr) : Bool :=
  match encodeNat {} i with
  | none => false
  | some n =>
    if n % 4 == 0 then g == {}
    else if n % 4 == 2 && 0x20 ≤ n / 4 % 64 then !g.neg
    else if n % 4 == 2 || n / 4 % 64 < 5 || n / 4 % 64 == 0x10 || n / 4 % 64 == 0x11 then !g.pulse
    else true

/-- What a register instruction leaves alone when it completes: everything outside the issuing stream's registers but
the d registers it reads and what walks had returned to it; in the stream, every register but the destination `d`, what
marks q registers `used` empty, and the exceptions `fl` it adds to FFLAGS. -/
structure RegisterFrame (s t : State) (d : BitVec 8) (used : List Nat) (fl : BitVec 6) : Prop where
  memory : ∀ a, byteAt t a = byteAt s a
  poison : t.poison = s.poison
  module : t.module = s.module
  time : t.mtime = s.mtime ∧ t.elapsed = s.elapsed
  towers : t.towers = s.towers
  ports : t.ports = s.ports
  contexts : t.ctxs = s.ctxs
  interrupts : t.irqs = s.irqs ∧ t.masked = s.masked ∧ t.msixPending = s.msixPending
  cores : ∀ c, c ≠ s.curCore → coreOf t c = coreOf s c
  streams : ∀ n, n ≠ s.curStream → streamOf (coreOf t s.curCore) n = streamOf (coreOf s s.curCore) n
  core : { coreOf t s.curCore with streams := [], handler := none, dregs := [], walked := [] } =
    { coreOf s s.curCore with streams := [], handler := none, dregs := [], walked := [] }
  gRegs : ∀ n, 0 < n → n < 128 → d.toNat ≠ n → gValue (me t) n = gValue (me s) n
  qRegs : ∀ n, n < 16 → d.toNat ≠ 0x80 + n → qValue (me t) n = qValue (me s) n
  qLiveness : ∀ n, n < 16 → d.toNat ≠ 0x80 + n → n ∉ used → qLive (me t) n = qLive (me s) n
  cRegs : ∀ n, n < 16 → d.toNat ≠ 0x90 + n → cValue (me t) n = cValue (me s) n
  flags : (me t).fflags = (me s).fflags ||| fl ∧ (me t).dflags = (me s).dflags ∧ (me t).rmode = (me s).rmode
  loop : (me t).ltrip = (me s).ltrip ∧ (me t).lstage = (me s).lstage ∧ (me t).lpass = (me s).lpass
  link : (me t).lr = (me s).lr
  stop : (me t).reason = (me s).reason ∧ (me t).faulted = (me s).faulted ∧ (me t).faultPc = (me s).faultPc ∧
    (me t).info = (me s).info
  loads : (me t).loads = (me s).loads
  status : (me t).status = (me s).status

/-- The q registers a G-class or L-class last-use bit empties. -/
def usedQs (lu : Bool) (rs : List (BitVec 8)) : List Nat :=
  if lu then (rs.filter isQ).map fun r => r.toNat - 0x80 else []

/-- The q registers the last-use bits of a Q-class instruction empty: of a, and of b where b is a register. -/
def usedBy (f : QFields) (two : Bool) : List Nat :=
  (if f.alast then [f.a.toNat] else []) ++ (if two && f.blast then [f.b.toNat] else [])

/-- The G-class integer operations of two register sources that set no flag and read no old value (Table 13.1). -/
def plainG : List (GFields → Instr) := integerOps.map (·.1) ++ unaryOps.map (·.1) ++ [.bfxG, .bfiG]

/-- The Q-class operations of two register sources with a q destination (Table 13.1). -/
def plainQ : List (QFields → Instr) := integerOps.filterMap fun p => p.2.2.1

/-- The Q-class operations of one register source with a q destination. -/
def oneQ : List (QFields → Instr) := .movQ :: immediateOps.map fun p => p.2.1

/-- An issue of a stream that nothing holds up: it executes, has not waited and emits no pulse. -/
def plainIssue (s : State) : Prop := (me s).waiting = none ∧ s.guard.pulse = false

/-- Every memory a state holds is canonical: the address space, the mailbox staging buffer, the flash and the recovery
window. -/
def AllCanonical (s : State) : Prop :=
  Canonical s ∧ s.module.staging.wf = true ∧ s.module.flash.wf = true ∧ s.module.window.data.wf = true

end Sys2Proof.Slice0

/-- R241, R244, R245, R258 (and assumption 1 for which stream issues): a step whose agenda names an issue of a stream
that may issue runs `exec` of the instruction its line holds at the program counter, in the state after the cycle passed
and the write-backs due landed; a step whose agenda names an event runs `exec` of the event where its agent can act
(R12, R14, R16, R27) and changes nothing where it cannot, or where an engine has no room for an item record it must post
(R166); with no agenda what is due moves first, then the next stream issues. -/
def Obligations.StepRunsDecodedInstruction : Prop :=
  (∀ (s b : State) (c n line w : Nat) (rest : List Move) (g : Guard) (i : Instr), s.agenda = .issue c n :: rest →
    (coreOf s c).slice.isSome = true → canIssue { s with agenda := rest } c n = true →
    heldLine (begin { s with agenda := rest } c n) = .ok (line, b) → w = (me b).pc.toNat % 128 / 4 →
    ((me b).entering = true → w = 2 ∧ lineEntry line = true) →
    lineOk line = true → 2 ≤ w → lineStart line w = true → breakpoint b = false →
    decodeWord (line / 2 ^ (32 * w) % 2 ^ (32 * lineLength line w)) = .ok (g, i) →
    modeOk b.curStream (inHandler b) i = true → streamOk b.curStream i = true → operandsOk i = true →
    numbersOk b.curStream i = true →
    step s = exec i { b with guard := g }) ∧
  (∀ (s u : State) (i : Instr) (rest : List Move), s.agenda = .event i :: rest →
    u = { s with agenda := rest, guard := {} } →
    (admitted s (agentOf i) = false → step s = .next u) ∧
    (admitted s (agentOf i) = true →
      ∀ t, exec i u = .next t →
        ((posts (agentOf i) = false ∨ itemsOver u t = false) → step s = .next t) ∧
        (posts (agentOf i) = true → itemsOver u t = true → step s = .next u))) ∧
  (∀ s : State, s.agenda = [] →
    (∀ t, due s = some t → step s = .next t) ∧
    (due s = none → ∀ c n, nextStream s = some (c, n) → step s = issueOf s c n) ∧
    (due s = none → nextStream s = none → step s = .next (passTime s))) ∧
  (∀ (s t : State) (c n : Nat), (coreOf s c).slice.isSome = true → canIssue s c n = true →
    t = begin s c n → (me t).line = none →
      find (myCore t).fetched (myCtx t * 2 ^ 56 + lineOf ((me t).pc.toNat % 2 ^ 56)) = none →
    ∀ l u, translate t (some t.curCore) (myCtx t) 3 (lineOf ((me t).pc.toNat % 2 ^ 56)) = (.hit l, u) →
    ∃ v, heldLine t = .ok (fromBytes (fetchAt u l 128), v))

/-- R245, R254: the faults found at decode, in their order: FETCH_INTEGRITY, UNDEF_LENGTH, ILLEGAL_INSTR, WRONG_STREAM,
ILLEGAL_OPERAND; whatever the predicate holds. Only an instruction with none of them is executed. A slice or a handler
that starts at no function entry raises BRANCH_TARGET; that this comes before the others is the model's choice (DESIGN
CHOICE, assumption 73). An issue takes the fault found, without a guard. -/
def Obligations.DecodeFaultsComeInOrder : Prop :=
  (∀ (s b : State) (line w bits : Nat), heldLine s = .ok (line, b) → w = (me b).pc.toNat % 128 / 4 →
    bits = line / 2 ^ (32 * w) % 2 ^ (32 * lineLength line w) →
    ((me b).entering = true → ¬(w = 2 ∧ lineEntry line = true) → (fetchInstr s).2 = stopWith 0x05) ∧
    (((me b).entering = true → w = 2 ∧ lineEntry line = true) →
    (lineOk line = false → (fetchInstr s).2 = stopWith 0x06) ∧
    (lineOk line = true → (w < 2 ∨ lineStart line w = false) → (fetchInstr s).2 = stopWith 0x06) ∧
    (lineOk line = true → 2 ≤ w → lineStart line w = true → breakpoint b = false →
      (bits % 4 = 3 → (fetchInstr s).2 = stopWith 0x02) ∧
      (bits % 4 ≠ 3 → (∀ g i, decodeWord bits ≠ .ok (g, i)) → (fetchInstr s).2 = stopWith 0x01) ∧
      (∀ g i, decodeWord bits = .ok (g, i) →
        (modeOk b.curStream (inHandler b) i = false → (fetchInstr s).2 = stopWith 0x01) ∧
        (modeOk b.curStream (inHandler b) i = true → streamOk b.curStream i = false →
          (fetchInstr s).2 = stopWith 0x90) ∧
        (modeOk b.curStream (inHandler b) i = true → streamOk b.curStream i = true →
          (operandsOk i = false ∨ numbersOk b.curStream i = false) → (fetchInstr s).2 = stopWith 0x03) ∧
        (modeOk b.curStream (inHandler b) i = true → streamOk b.curStream i = true → operandsOk i = true →
          numbersOk b.curStream i = true → fetchInstr s = (b, .ok (g, i))))))) ∧
  (∀ (s t : State) (c n : Nat) (e : Trap), fetchInstr (begin s c n) = (t, .error e) →
    issue s c n = .next (trapAs false { t with guard := {} } e))

/-- R241, R247, R248 and Tables 12.2-12.16: words written out from the tables, field by field, decode to the
instructions they stand for. -/
def Obligations.WordsDecodeAsTheTablesSay : Prop :=
  decodeWord 0b000000_0001_0_0011_0_0010_0001_000000_00 = .ok ({}, .subQ ⟨1, 2, false, 3, false, 0⟩) ∧
  decodeWord 0b11111111111111111110_0101_001000_00 = .ok ({}, .br ⟨5, 0xFFFFE⟩) ∧
  decodeWord 0xFC = .ok ({}, .nop) ∧
  decodeWord 0b000000000000000000_1_1_0011_00010001_00001001_00001000_00000111_000000_01 =
    .ok (⟨3, true, false⟩, .divG ⟨7, 8, 9, true, 0⟩) ∧
  decodeWord 0b000000000000001000_1_0_0000_000_0_0_1_10_00000000_00001000_00000111_001000_01 =
    .ok (⟨0, false, true⟩, .ld ⟨7, 8, 0, 2, true, false, false, 0, 8⟩) ∧
  decodeWord 0b000000000101_000000_0_0_0000_00000000_00000000_00000000_00000000_011101_01 =
    .ok ({}, .trap ⟨0, 0, 0, 0, 5⟩) ∧
  decodeWord (0xFFFFFFFF * 2 ^ 64 +
    0b000000000000000000_0_0_0000_00000000_00000000_00001000_00000111_000001_10) =
    .ok ({}, .addL ⟨7, 8, 0, false, 0, 0xFFFFFFFF⟩) ∧
  decodeWord (0b000000000000000000000011 * 2 ^ 72 + 0b000000010000000010000010 * 2 ^ 48 +
    0b000000000000000000000110 * 2 ^ 24 + 0b0000_01_1010_0_00000_100000_10) =
    .ok ({}, .vadd ⟨10, 1, 6, 0x10082, 3⟩) ∧
  (∀ w, w % 4 = 3 → decodeWord w = .error .undefLength) ∧ decodeWord 0 = .error .illegalInstr

/-- R241-R257: decoding and encoding are inverse. For every well-formed instruction and every guard its class can carry,
the bytes of its encoding decode to it, whatever follows them; and every word the decoder accepts is the encoding of
what it reads, so no bit of a word is dropped. -/
def Obligations.DecodeInvertsEncode : Prop :=
  (∀ (g : Guard) (i : Instr) (rest : List Byte), WellFormed i → guardFits g i = true →
    decodeBytes (wordBytes (encode g i) ++ rest) = .ok (g, i, rest)) ∧
  (∀ (w : Nat) (g : Guard) (i : Instr), w < 2 ^ (8 * lengthOf w) → decodeWord w = .ok (g, i) →
    encodeNat g i = some w ∧ guardFits g i = true)

/-- The memories of a state stay in canonical form through every step that answers a next state: an event, an issue that
completes or traps, a move due by itself. -/
def Obligations.StepKeepsMemoryCanonical : Prop :=
  ∀ s t : State, AllCanonical s → step s = .next t → AllCanonical t

/-- The state after reset (R8, R11-R15, R31, R32 and assumptions 9 and 10): no power is applied, nothing is ready, no
memory is listed, every core is without a slice and every stream idle, MODID is 0xFFF, the power limit is the highest;
and its memories are canonical. -/
def Obligations.ResetIsAsStated : Prop :=
  AllCanonical State.reset ∧ State.reset.agenda = [] ∧ (∀ a, byteAt State.reset a = blankByte) ∧
  State.reset.module.input = false ∧ State.reset.module.ready = false ∧ State.reset.module.modid = 0xFFF ∧
  State.reset.module.limit = 3400 ∧ State.reset.module.started = false ∧ State.reset.mtime = 0 ∧
  (∀ c, (coreOf State.reset c).slice = none ∧ (coreOf State.reset c).halted = false ∧
    ∀ n, (streamOf (coreOf State.reset c) n).status = .idle ∧ (streamOf (coreOf State.reset c) n).pc = 0) ∧
  (∀ c n, ctxOf State.reset c = {} ∧ streamOf (coreOf State.reset c) n = {})

/-- R252, R253, R269-R273, R275-R277: an integer operation, move, constant or comparison of the Q, G or L class that
completes changes no register but its destination, empties only the q registers whose last use is marked, and changes no
flag but DZ on a division by zero, no byte of memory, no other stream, core, context or special register. -/
def Obligations.IntegerOperationsKeepTheRest : Prop :=
  (∀ (f : GFields) (s s1 s2 t : State) (x y : Word), guardHolds s = true → plainIssue s →
    readReg s f.a = .ok (x, s1) → readReg s1 f.b = .ok (y, s2) →
    (settled (me s2) f.dst = .ok () →
      (∀ i ∈ plainG, exec (i f) s = .next t → RegisterFrame s t f.dst (usedQs f.lu [f.a, f.b]) 0) ∧
      (∀ old, readOld s f.dst = .ok old → exec (.selG f) s = .next t →
        RegisterFrame s t f.dst (usedQs f.lu [f.a, f.b]) 0) ∧
      (∀ p ∈ divideOps, exec (p.1 f) s = .next t →
        RegisterFrame s t f.dst (usedQs f.lu [f.a, f.b]) (if y = 0 then 0x08 else 0))) ∧
    (∀ p ∈ compareOps, exec (p.1 f false) s = .next t → RegisterFrame s t f.dst (usedQs f.lu [f.a, f.b]) 0)) ∧
  (∀ (f : GFields) (s s1 t : State) (x : Word), guardHolds s = true → plainIssue s → readReg s f.a = .ok (x, s1) →
    (settled (me s1) f.dst = .ok () → ∀ p ∈ immediateOps, exec (p.1 f) s = .next t →
      RegisterFrame s t f.dst (usedQs f.lu [f.a]) 0) ∧
    (∀ p ∈ compareOps, exec (p.1 f true) s = .next t → RegisterFrame s t f.dst (usedQs f.lu [f.a]) 0)) ∧
  (∀ (f : LFields) (s s1 t : State) (x : Word), guardHolds s = true → plainIssue s → readReg s f.a = .ok (x, s1) →
    settled (me s1) f.dst = .ok () →
    (∀ p ∈ integerOps, ∀ i, p.2.1 = some i → exec (i f) s = .next t →
      RegisterFrame s t f.dst (usedQs f.lu [f.a]) 0) ∧
    (∀ old, readOld s f.dst = .ok old → exec (.selL f) s = .next t →
      RegisterFrame s t f.dst (usedQs f.lu [f.a]) 0) ∧
    (∀ p ∈ divideOps, exec (p.2.1 f) s = .next t →
      RegisterFrame s t f.dst (usedQs f.lu [f.a]) (if f.lit = 0 then 0x08 else 0))) ∧
  (∀ (f : LFields) (s t : State), guardHolds s = true → plainIssue s → settled (me s) f.dst = .ok () →
    (exec (.liw f) s = .next t ∨ exec (.fli f) s = .next t) → RegisterFrame s t f.dst [] 0) ∧
  (∀ (f : QFields) (s t : State) (x : Word), plainIssue s → readQ s f.a.toNat = .ok x →
    (settled (me s) (qReg f.dst) = .ok () →
      (∀ i ∈ oneQ, exec (i f) s = .next t → RegisterFrame s t (qReg f.dst) (usedBy f false) 0) ∧
      (∀ y, readQ s f.b.toNat = .ok y →
        ∀ i ∈ plainQ, exec (i f) s = .next t → RegisterFrame s t (qReg f.dst) (usedBy f true) 0)) ∧
    (∀ y, readQ s f.b.toNat = .ok y → ∀ p ∈ compareOps, exec (p.2.1 f) s = .next t →
      RegisterFrame s t (cReg f.dst) (usedBy f true) 0) ∧
    (settled (me s) (BitVec.ofNat 8 (moveG f)) = .ok () → exec (.movg f) s = .next t →
      RegisterFrame s t (BitVec.ofNat 8 (moveG f)) (usedBy f false) 0)) ∧
  (∀ (f : QFields) (s t : State) (x : Word), plainIssue s → readG s (moveG f) = .ok x →
    settled (me s) (qReg f.dst) = .ok () → exec (.movq f) s = .next t → RegisterFrame s t (qReg f.dst) [] 0) ∧
  (∀ (f : JFields) (s t : State), plainIssue s → settled (me s) (qReg f.pred) = .ok () →
    exec (.li f) s = .next t → RegisterFrame s t (qReg f.pred) [] 0)

/-- R274: PAND, POR and PXOR set c DST to the AND, OR or XOR of c A and c B, PNOT to NOT c A; a DST of 0 takes
ILLEGAL_OPERAND; the fields Table 12.9 does not use are zero; the Q class has no predicate, so nothing else makes one a
no-op. -/
def Obligations.PredicateOperations : Prop :=
  ∀ p ∈ [(Instr.pand, fun a b => a && b), (.por, fun a b => a || b), (.pxor, fun a b => a != b),
      (.pnot, fun a _ => !a)],
    (∀ (f : QFields) (s : State), exec (p.1 f) s = .next (finish (written s (cReg f.dst)
      (word (bit01 (p.2 (cValue (me s) f.a.toNat) (cValue (me s) f.b.toNat))))) 4 none)) ∧
    (∀ (f : QFields) (s : State) (n : Nat), 0 < f.dst.toNat → n < 16 →
      cValue (putReg (me s) (cReg f.dst) (word (bit01 (p.2 (cValue (me s) f.a.toNat) (cValue (me s) f.b.toNat))))) n =
        if n = f.dst.toNat then p.2 (cValue (me s) f.a.toNat) (cValue (me s) f.b.toNat) else cValue (me s) n) ∧
    (∀ (f : QFields) (g : Guard) (w n : Nat) (handler : Bool), decodeWord w = .ok (g, p.1 f) →
      f.alast = false ∧ f.blast = false ∧ f.imm = 0 ∧ g = {} ∧ (f.dst = 0 → decodeFor n handler w = .error 0x03))

/-- R330: SIGHEAD writes g(n) := h, g(n + 1) := F and g(n + 2) := now, all of the one cycle it issues in; a DST that is
no g register, or above g125, raises ILLEGAL_OPERAND. -/
def Obligations.SigheadReturnsThreeValues : Prop :=
  (∀ (f : EFields) (s : State) (g : Signal), guardHolds s = true → namedSignal s (f.n12.toNat % 1024) = .ok g →
    (me s).loads = [] → f.dst.toNat ≤ 125 →
    ∃ t, exec (.sighead f) s = .next t ∧
      t = finish (written (written (written s (BitVec.ofNat 8 f.dst.toNat) (word g.head))
        (BitVec.ofNat 8 (f.dst.toNat + 1)) (word g.front)) (BitVec.ofNat 8 (f.dst.toNat + 1 + 1))
        (word (descOf s (myCtx s) (myCore s).sctx).now)) 8 none ∧
      (0 < f.dst.toNat → gValue (me t) f.dst.toNat = word g.head) ∧
      gValue (me t) (f.dst.toNat + 1) = word g.front ∧
      gValue (me t) (f.dst.toNat + 2) = word (descOf s (myCtx s) (myCore s).sctx).now) ∧
  (∀ (f : EFields) (g : Guard) (w n : Nat) (handler : Bool), decodeWord w = .ok (g, .sighead f) → n < 2 →
    125 < f.dst.toNat → decodeFor n handler w = .error 0x03)

/-- R364: ACCZ sets every lane of the accumulator to zero, with V = 1, D = 0 and M = OPT6[0]; OPT6[5:1] must be zero; it
waits while the accumulator's F bit is set. -/
def Obligations.AcczZeroesEveryLane : Prop :=
  (∀ (f : EFields) (s : State), guardHolds s = true → nestRunning s = false →
    (myCore s).accF.getLsbD (f.n12.toNat % 8) = false →
    ∃ k, exec (.accz f) s = .next (finish (onCore s s.curCore fun _ => k) 8 none) ∧
      k.accV.getLsbD (f.n12.toNat % 8) = true ∧ k.accD.getLsbD (f.n12.toNat % 8) = false ∧
      k.accM.getLsbD (f.n12.toNat % 8) = flag f.opt.toNat 0 ∧
      (∀ r j, r < 64 → j < 64 → laneOf k (f.n12.toNat % 8) r j = 0) ∧
      (∀ a r j, a ≠ f.n12.toNat % 8 → r < 64 → j < 64 → laneOf k a r j = laneOf (myCore s) a r j) ∧
      k.accF = (myCore s).accF ∧ k.tiles = (myCore s).tiles ∧ k.scales = (myCore s).scales) ∧
  (∀ (f : EFields) (s : State), guardHolds s = true → nestRunning s = false →
    (myCore s).accF.getLsbD (f.n12.toNat % 8) = true → exec (.accz f) s = .next (hold s (.cause 11))) ∧
  (∀ (f : EFields) (g : Guard) (w : Nat), decodeWord w = .ok (g, .accz f) → f.opt.toNat < 2)
end

