-- ==== Sys2Proof/Laws/State.lean ====
section
/-! SUPPORT. One lemma per field of State per update of it, true by rfl; and reading a sparse table, a core, a tower, a
port, a context and the issuing stream back after it is written. -/

namespace Sys2Proof.Machine

/-! ### onModule -/

@[simp] theorem onModule_agenda (s : State) (f : Module → Module) : (onModule s f).agenda = s.agenda := rfl
@[simp] theorem onModule_curCore (s : State) (f : Module → Module) : (onModule s f).curCore = s.curCore := rfl
@[simp] theorem onModule_curStream (s : State) (f : Module → Module) : (onModule s f).curStream = s.curStream := rfl
@[simp] theorem onModule_guard (s : State) (f : Module → Module) : (onModule s f).guard = s.guard := rfl
@[simp] theorem onModule_free (s : State) (f : Module → Module) : (onModule s f).free = s.free := rfl
@[simp] theorem onModule_elapsed (s : State) (f : Module → Module) : (onModule s f).elapsed = s.elapsed := rfl
@[simp] theorem onModule_mtime (s : State) (f : Module → Module) : (onModule s f).mtime = s.mtime := rfl
@[simp] theorem onModule_mem (s : State) (f : Module → Module) : (onModule s f).mem = s.mem := rfl
@[simp] theorem onModule_poison (s : State) (f : Module → Module) : (onModule s f).poison = s.poison := rfl
@[simp] theorem onModule_cores (s : State) (f : Module → Module) : (onModule s f).cores = s.cores := rfl
@[simp] theorem onModule_towers (s : State) (f : Module → Module) : (onModule s f).towers = s.towers := rfl
@[simp] theorem onModule_ports (s : State) (f : Module → Module) : (onModule s f).ports = s.ports := rfl
@[simp] theorem onModule_ctxs (s : State) (f : Module → Module) : (onModule s f).ctxs = s.ctxs := rfl
@[simp] theorem onModule_submits (s : State) (f : Module → Module) : (onModule s f).submits = s.submits := rfl
@[simp] theorem onModule_reserved (s : State) (f : Module → Module) : (onModule s f).reserved = s.reserved := rfl
@[simp] theorem onModule_lent (s : State) (f : Module → Module) : (onModule s f).lent = s.lent := rfl
@[simp] theorem onModule_irqs (s : State) (f : Module → Module) : (onModule s f).irqs = s.irqs := rfl
@[simp] theorem onModule_masked (s : State) (f : Module → Module) : (onModule s f).masked = s.masked := rfl
@[simp] theorem onModule_msixPending (s : State) (f : Module → Module) : (onModule s f).msixPending = s.msixPending := rfl
@[simp] theorem onModule_readData (s : State) (f : Module → Module) : (onModule s f).readData = s.readData := rfl

/-! ### setCore -/

@[simp] theorem setCore_agenda (s : State) (c : Nat) (v : Core) : (setCore s c v).agenda = s.agenda := rfl
@[simp] theorem setCore_curCore (s : State) (c : Nat) (v : Core) : (setCore s c v).curCore = s.curCore := rfl
@[simp] theorem setCore_curStream (s : State) (c : Nat) (v : Core) : (setCore s c v).curStream = s.curStream := rfl
@[simp] theorem setCore_guard (s : State) (c : Nat) (v : Core) : (setCore s c v).guard = s.guard := rfl
@[simp] theorem setCore_free (s : State) (c : Nat) (v : Core) : (setCore s c v).free = s.free := rfl
@[simp] theorem setCore_elapsed (s : State) (c : Nat) (v : Core) : (setCore s c v).elapsed = s.elapsed := rfl
@[simp] theorem setCore_mtime (s : State) (c : Nat) (v : Core) : (setCore s c v).mtime = s.mtime := rfl
@[simp] theorem setCore_module (s : State) (c : Nat) (v : Core) : (setCore s c v).module = s.module := rfl
@[simp] theorem setCore_mem (s : State) (c : Nat) (v : Core) : (setCore s c v).mem = s.mem := rfl
@[simp] theorem setCore_poison (s : State) (c : Nat) (v : Core) : (setCore s c v).poison = s.poison := rfl
@[simp] theorem setCore_towers (s : State) (c : Nat) (v : Core) : (setCore s c v).towers = s.towers := rfl
@[simp] theorem setCore_ports (s : State) (c : Nat) (v : Core) : (setCore s c v).ports = s.ports := rfl
@[simp] theorem setCore_ctxs (s : State) (c : Nat) (v : Core) : (setCore s c v).ctxs = s.ctxs := rfl
@[simp] theorem setCore_submits (s : State) (c : Nat) (v : Core) : (setCore s c v).submits = s.submits := rfl
@[simp] theorem setCore_reserved (s : State) (c : Nat) (v : Core) : (setCore s c v).reserved = s.reserved := rfl
@[simp] theorem setCore_lent (s : State) (c : Nat) (v : Core) : (setCore s c v).lent = s.lent := rfl
@[simp] theorem setCore_irqs (s : State) (c : Nat) (v : Core) : (setCore s c v).irqs = s.irqs := rfl
@[simp] theorem setCore_masked (s : State) (c : Nat) (v : Core) : (setCore s c v).masked = s.masked := rfl
@[simp] theorem setCore_msixPending (s : State) (c : Nat) (v : Core) : (setCore s c v).msixPending = s.msixPending := rfl
@[simp] theorem setCore_readData (s : State) (c : Nat) (v : Core) : (setCore s c v).readData = s.readData := rfl

/-! ### onCore -/

@[simp] theorem onCore_agenda (s : State) (c : Nat) (f : Core → Core) : (onCore s c f).agenda = s.agenda := rfl
@[simp] theorem onCore_curCore (s : State) (c : Nat) (f : Core → Core) : (onCore s c f).curCore = s.curCore := rfl
@[simp] theorem onCore_curStream (s : State) (c : Nat) (f : Core → Core) : (onCore s c f).curStream = s.curStream := rfl
@[simp] theorem onCore_guard (s : State) (c : Nat) (f : Core → Core) : (onCore s c f).guard = s.guard := rfl
@[simp] theorem onCore_free (s : State) (c : Nat) (f : Core → Core) : (onCore s c f).free = s.free := rfl
@[simp] theorem onCore_elapsed (s : State) (c : Nat) (f : Core → Core) : (onCore s c f).elapsed = s.elapsed := rfl
@[simp] theorem onCore_mtime (s : State) (c : Nat) (f : Core → Core) : (onCore s c f).mtime = s.mtime := rfl
@[simp] theorem onCore_module (s : State) (c : Nat) (f : Core → Core) : (onCore s c f).module = s.module := rfl
@[simp] theorem onCore_mem (s : State) (c : Nat) (f : Core → Core) : (onCore s c f).mem = s.mem := rfl
@[simp] theorem onCore_poison (s : State) (c : Nat) (f : Core → Core) : (onCore s c f).poison = s.poison := rfl
@[simp] theorem onCore_towers (s : State) (c : Nat) (f : Core → Core) : (onCore s c f).towers = s.towers := rfl
@[simp] theorem onCore_ports (s : State) (c : Nat) (f : Core → Core) : (onCore s c f).ports = s.ports := rfl
@[simp] theorem onCore_ctxs (s : State) (c : Nat) (f : Core → Core) : (onCore s c f).ctxs = s.ctxs := rfl
@[simp] theorem onCore_submits (s : State) (c : Nat) (f : Core → Core) : (onCore s c f).submits = s.submits := rfl
@[simp] theorem onCore_reserved (s : State) (c : Nat) (f : Core → Core) : (onCore s c f).reserved = s.reserved := rfl
@[simp] theorem onCore_lent (s : State) (c : Nat) (f : Core → Core) : (onCore s c f).lent = s.lent := rfl
@[simp] theorem onCore_irqs (s : State) (c : Nat) (f : Core → Core) : (onCore s c f).irqs = s.irqs := rfl
@[simp] theorem onCore_masked (s : State) (c : Nat) (f : Core → Core) : (onCore s c f).masked = s.masked := rfl
@[simp] theorem onCore_msixPending (s : State) (c : Nat) (f : Core → Core) : (onCore s c f).msixPending = s.msixPending := rfl
@[simp] theorem onCore_readData (s : State) (c : Nat) (f : Core → Core) : (onCore s c f).readData = s.readData := rfl

/-! ### onStream -/

@[simp] theorem onStream_agenda (s : State) (c i : Nat) (f : Stream → Stream) : (onStream s c i f).agenda = s.agenda := rfl
@[simp] theorem onStream_curCore (s : State) (c i : Nat) (f : Stream → Stream) : (onStream s c i f).curCore = s.curCore := rfl
@[simp] theorem onStream_curStream (s : State) (c i : Nat) (f : Stream → Stream) : (onStream s c i f).curStream = s.curStream := rfl
@[simp] theorem onStream_guard (s : State) (c i : Nat) (f : Stream → Stream) : (onStream s c i f).guard = s.guard := rfl
@[simp] theorem onStream_free (s : State) (c i : Nat) (f : Stream → Stream) : (onStream s c i f).free = s.free := rfl
@[simp] theorem onStream_elapsed (s : State) (c i : Nat) (f : Stream → Stream) : (onStream s c i f).elapsed = s.elapsed := rfl
@[simp] theorem onStream_mtime (s : State) (c i : Nat) (f : Stream → Stream) : (onStream s c i f).mtime = s.mtime := rfl
@[simp] theorem onStream_module (s : State) (c i : Nat) (f : Stream → Stream) : (onStream s c i f).module = s.module := rfl
@[simp] theorem onStream_mem (s : State) (c i : Nat) (f : Stream → Stream) : (onStream s c i f).mem = s.mem := rfl
@[simp] theorem onStream_poison (s : State) (c i : Nat) (f : Stream → Stream) : (onStream s c i f).poison = s.poison := rfl
@[simp] theorem onStream_towers (s : State) (c i : Nat) (f : Stream → Stream) : (onStream s c i f).towers = s.towers := rfl
@[simp] theorem onStream_ports (s : State) (c i : Nat) (f : Stream → Stream) : (onStream s c i f).ports = s.ports := rfl
@[simp] theorem onStream_ctxs (s : State) (c i : Nat) (f : Stream → Stream) : (onStream s c i f).ctxs = s.ctxs := rfl
@[simp] theorem onStream_submits (s : State) (c i : Nat) (f : Stream → Stream) : (onStream s c i f).submits = s.submits := rfl
@[simp] theorem onStream_reserved (s : State) (c i : Nat) (f : Stream → Stream) : (onStream s c i f).reserved = s.reserved := rfl
@[simp] theorem onStream_lent (s : State) (c i : Nat) (f : Stream → Stream) : (onStream s c i f).lent = s.lent := rfl
@[simp] theorem onStream_irqs (s : State) (c i : Nat) (f : Stream → Stream) : (onStream s c i f).irqs = s.irqs := rfl
@[simp] theorem onStream_masked (s : State) (c i : Nat) (f : Stream → Stream) : (onStream s c i f).masked = s.masked := rfl
@[simp] theorem onStream_msixPending (s : State) (c i : Nat) (f : Stream → Stream) : (onStream s c i f).msixPending = s.msixPending := rfl
@[simp] theorem onStream_readData (s : State) (c i : Nat) (f : Stream → Stream) : (onStream s c i f).readData = s.readData := rfl

/-! ### onTower -/

@[simp] theorem onTower_agenda (s : State) (t : Nat) (f : Tower → Tower) : (onTower s t f).agenda = s.agenda := rfl
@[simp] theorem onTower_curCore (s : State) (t : Nat) (f : Tower → Tower) : (onTower s t f).curCore = s.curCore := rfl
@[simp] theorem onTower_curStream (s : State) (t : Nat) (f : Tower → Tower) : (onTower s t f).curStream = s.curStream := rfl
@[simp] theorem onTower_guard (s : State) (t : Nat) (f : Tower → Tower) : (onTower s t f).guard = s.guard := rfl
@[simp] theorem onTower_free (s : State) (t : Nat) (f : Tower → Tower) : (onTower s t f).free = s.free := rfl
@[simp] theorem onTower_elapsed (s : State) (t : Nat) (f : Tower → Tower) : (onTower s t f).elapsed = s.elapsed := rfl
@[simp] theorem onTower_mtime (s : State) (t : Nat) (f : Tower → Tower) : (onTower s t f).mtime = s.mtime := rfl
@[simp] theorem onTower_module (s : State) (t : Nat) (f : Tower → Tower) : (onTower s t f).module = s.module := rfl
@[simp] theorem onTower_mem (s : State) (t : Nat) (f : Tower → Tower) : (onTower s t f).mem = s.mem := rfl
@[simp] theorem onTower_poison (s : State) (t : Nat) (f : Tower → Tower) : (onTower s t f).poison = s.poison := rfl
@[simp] theorem onTower_cores (s : State) (t : Nat) (f : Tower → Tower) : (onTower s t f).cores = s.cores := rfl
@[simp] theorem onTower_ports (s : State) (t : Nat) (f : Tower → Tower) : (onTower s t f).ports = s.ports := rfl
@[simp] theorem onTower_ctxs (s : State) (t : Nat) (f : Tower → Tower) : (onTower s t f).ctxs = s.ctxs := rfl
@[simp] theorem onTower_submits (s : State) (t : Nat) (f : Tower → Tower) : (onTower s t f).submits = s.submits := rfl
@[simp] theorem onTower_reserved (s : State) (t : Nat) (f : Tower → Tower) : (onTower s t f).reserved = s.reserved := rfl
@[simp] theorem onTower_lent (s : State) (t : Nat) (f : Tower → Tower) : (onTower s t f).lent = s.lent := rfl
@[simp] theorem onTower_irqs (s : State) (t : Nat) (f : Tower → Tower) : (onTower s t f).irqs = s.irqs := rfl
@[simp] theorem onTower_masked (s : State) (t : Nat) (f : Tower → Tower) : (onTower s t f).masked = s.masked := rfl
@[simp] theorem onTower_msixPending (s : State) (t : Nat) (f : Tower → Tower) : (onTower s t f).msixPending = s.msixPending := rfl
@[simp] theorem onTower_readData (s : State) (t : Nat) (f : Tower → Tower) : (onTower s t f).readData = s.readData := rfl

/-! ### onPort -/

@[simp] theorem onPort_agenda (s : State) (p : Nat) (f : Port → Port) : (onPort s p f).agenda = s.agenda := rfl
@[simp] theorem onPort_curCore (s : State) (p : Nat) (f : Port → Port) : (onPort s p f).curCore = s.curCore := rfl
@[simp] theorem onPort_curStream (s : State) (p : Nat) (f : Port → Port) : (onPort s p f).curStream = s.curStream := rfl
@[simp] theorem onPort_guard (s : State) (p : Nat) (f : Port → Port) : (onPort s p f).guard = s.guard := rfl
@[simp] theorem onPort_free (s : State) (p : Nat) (f : Port → Port) : (onPort s p f).free = s.free := rfl
@[simp] theorem onPort_elapsed (s : State) (p : Nat) (f : Port → Port) : (onPort s p f).elapsed = s.elapsed := rfl
@[simp] theorem onPort_mtime (s : State) (p : Nat) (f : Port → Port) : (onPort s p f).mtime = s.mtime := rfl
@[simp] theorem onPort_module (s : State) (p : Nat) (f : Port → Port) : (onPort s p f).module = s.module := rfl
@[simp] theorem onPort_mem (s : State) (p : Nat) (f : Port → Port) : (onPort s p f).mem = s.mem := rfl
@[simp] theorem onPort_poison (s : State) (p : Nat) (f : Port → Port) : (onPort s p f).poison = s.poison := rfl
@[simp] theorem onPort_cores (s : State) (p : Nat) (f : Port → Port) : (onPort s p f).cores = s.cores := rfl
@[simp] theorem onPort_towers (s : State) (p : Nat) (f : Port → Port) : (onPort s p f).towers = s.towers := rfl
@[simp] theorem onPort_ctxs (s : State) (p : Nat) (f : Port → Port) : (onPort s p f).ctxs = s.ctxs := rfl
@[simp] theorem onPort_submits (s : State) (p : Nat) (f : Port → Port) : (onPort s p f).submits = s.submits := rfl
@[simp] theorem onPort_reserved (s : State) (p : Nat) (f : Port → Port) : (onPort s p f).reserved = s.reserved := rfl
@[simp] theorem onPort_lent (s : State) (p : Nat) (f : Port → Port) : (onPort s p f).lent = s.lent := rfl
@[simp] theorem onPort_irqs (s : State) (p : Nat) (f : Port → Port) : (onPort s p f).irqs = s.irqs := rfl
@[simp] theorem onPort_masked (s : State) (p : Nat) (f : Port → Port) : (onPort s p f).masked = s.masked := rfl
@[simp] theorem onPort_msixPending (s : State) (p : Nat) (f : Port → Port) : (onPort s p f).msixPending = s.msixPending := rfl
@[simp] theorem onPort_readData (s : State) (p : Nat) (f : Port → Port) : (onPort s p f).readData = s.readData := rfl

/-! ### onCtx -/

@[simp] theorem onCtx_agenda (s : State) (c : Nat) (f : Ctx → Ctx) : (onCtx s c f).agenda = s.agenda := rfl
@[simp] theorem onCtx_curCore (s : State) (c : Nat) (f : Ctx → Ctx) : (onCtx s c f).curCore = s.curCore := rfl
@[simp] theorem onCtx_curStream (s : State) (c : Nat) (f : Ctx → Ctx) : (onCtx s c f).curStream = s.curStream := rfl
@[simp] theorem onCtx_guard (s : State) (c : Nat) (f : Ctx → Ctx) : (onCtx s c f).guard = s.guard := rfl
@[simp] theorem onCtx_free (s : State) (c : Nat) (f : Ctx → Ctx) : (onCtx s c f).free = s.free := rfl
@[simp] theorem onCtx_elapsed (s : State) (c : Nat) (f : Ctx → Ctx) : (onCtx s c f).elapsed = s.elapsed := rfl
@[simp] theorem onCtx_mtime (s : State) (c : Nat) (f : Ctx → Ctx) : (onCtx s c f).mtime = s.mtime := rfl
@[simp] theorem onCtx_module (s : State) (c : Nat) (f : Ctx → Ctx) : (onCtx s c f).module = s.module := rfl
@[simp] theorem onCtx_mem (s : State) (c : Nat) (f : Ctx → Ctx) : (onCtx s c f).mem = s.mem := rfl
@[simp] theorem onCtx_poison (s : State) (c : Nat) (f : Ctx → Ctx) : (onCtx s c f).poison = s.poison := rfl
@[simp] theorem onCtx_cores (s : State) (c : Nat) (f : Ctx → Ctx) : (onCtx s c f).cores = s.cores := rfl
@[simp] theorem onCtx_towers (s : State) (c : Nat) (f : Ctx → Ctx) : (onCtx s c f).towers = s.towers := rfl
@[simp] theorem onCtx_ports (s : State) (c : Nat) (f : Ctx → Ctx) : (onCtx s c f).ports = s.ports := rfl
@[simp] theorem onCtx_submits (s : State) (c : Nat) (f : Ctx → Ctx) : (onCtx s c f).submits = s.submits := rfl
@[simp] theorem onCtx_reserved (s : State) (c : Nat) (f : Ctx → Ctx) : (onCtx s c f).reserved = s.reserved := rfl
@[simp] theorem onCtx_lent (s : State) (c : Nat) (f : Ctx → Ctx) : (onCtx s c f).lent = s.lent := rfl
@[simp] theorem onCtx_irqs (s : State) (c : Nat) (f : Ctx → Ctx) : (onCtx s c f).irqs = s.irqs := rfl
@[simp] theorem onCtx_masked (s : State) (c : Nat) (f : Ctx → Ctx) : (onCtx s c f).masked = s.masked := rfl
@[simp] theorem onCtx_msixPending (s : State) (c : Nat) (f : Ctx → Ctx) : (onCtx s c f).msixPending = s.msixPending := rfl
@[simp] theorem onCtx_readData (s : State) (c : Nat) (f : Ctx → Ctx) : (onCtx s c f).readData = s.readData := rfl

/-! ### onMe -/

@[simp] theorem onMe_agenda (s : State) (f : Stream → Stream) : (onMe s f).agenda = s.agenda := rfl
@[simp] theorem onMe_curCore (s : State) (f : Stream → Stream) : (onMe s f).curCore = s.curCore := rfl
@[simp] theorem onMe_curStream (s : State) (f : Stream → Stream) : (onMe s f).curStream = s.curStream := rfl
@[simp] theorem onMe_guard (s : State) (f : Stream → Stream) : (onMe s f).guard = s.guard := rfl
@[simp] theorem onMe_free (s : State) (f : Stream → Stream) : (onMe s f).free = s.free := rfl
@[simp] theorem onMe_elapsed (s : State) (f : Stream → Stream) : (onMe s f).elapsed = s.elapsed := rfl
@[simp] theorem onMe_mtime (s : State) (f : Stream → Stream) : (onMe s f).mtime = s.mtime := rfl
@[simp] theorem onMe_module (s : State) (f : Stream → Stream) : (onMe s f).module = s.module := rfl
@[simp] theorem onMe_mem (s : State) (f : Stream → Stream) : (onMe s f).mem = s.mem := rfl
@[simp] theorem onMe_poison (s : State) (f : Stream → Stream) : (onMe s f).poison = s.poison := rfl
@[simp] theorem onMe_towers (s : State) (f : Stream → Stream) : (onMe s f).towers = s.towers := rfl
@[simp] theorem onMe_ports (s : State) (f : Stream → Stream) : (onMe s f).ports = s.ports := rfl
@[simp] theorem onMe_ctxs (s : State) (f : Stream → Stream) : (onMe s f).ctxs = s.ctxs := rfl
@[simp] theorem onMe_submits (s : State) (f : Stream → Stream) : (onMe s f).submits = s.submits := rfl
@[simp] theorem onMe_reserved (s : State) (f : Stream → Stream) : (onMe s f).reserved = s.reserved := rfl
@[simp] theorem onMe_lent (s : State) (f : Stream → Stream) : (onMe s f).lent = s.lent := rfl
@[simp] theorem onMe_irqs (s : State) (f : Stream → Stream) : (onMe s f).irqs = s.irqs := rfl
@[simp] theorem onMe_masked (s : State) (f : Stream → Stream) : (onMe s f).masked = s.masked := rfl
@[simp] theorem onMe_msixPending (s : State) (f : Stream → Stream) : (onMe s f).msixPending = s.msixPending := rfl
@[simp] theorem onMe_readData (s : State) (f : Stream → Stream) : (onMe s f).readData = s.readData := rfl

/-! ### Sparse tables -/

@[simp] theorem look_nil {α : Type} (d : α) (k : Nat) : look d ([] : Map α) k = d := rfl
@[simp] theorem find_nil {α : Type} (k : Nat) : find ([] : Map α) k = none := rfl

@[simp] theorem look_put_self {α : Type} (d : α) (m : Map α) (k : Nat) (v : α) : look d (put m k v) k = v := by
  induction m with
  | nil => simp [put, look]
  | cons e rest ih =>
    obtain ⟨j, w⟩ := e
    unfold put
    split
    · simp [look]
    · split <;> simp_all [look]

theorem look_put_ne {α : Type} (d : α) (m : Map α) {k j : Nat} (v : α) (h : j ≠ k) :
    look d (put m k v) j = look d m j := by
  induction m with
  | nil => simp [put, look, Ne.symm h]
  | cons e rest ih =>
    obtain ⟨i, w⟩ := e
    unfold put
    split
    · simp [look, Ne.symm h]
    · split
      · simp_all [look, Ne.symm h]
      · simp [look, ih]

@[simp] theorem find_put_self {α : Type} (m : Map α) (k : Nat) (v : α) : find (put m k v) k = some v := by
  induction m with
  | nil => simp [put, find]
  | cons e rest ih =>
    obtain ⟨j, w⟩ := e
    unfold put
    split
    · simp [find]
    · split <;> simp_all [find]

theorem find_put_ne {α : Type} (m : Map α) {k j : Nat} (v : α) (h : j ≠ k) : find (put m k v) j = find m j := by
  induction m with
  | nil => simp [put, find, Ne.symm h]
  | cons e rest ih =>
    obtain ⟨i, w⟩ := e
    unfold put
    split
    · simp [find, Ne.symm h]
    · split
      · simp_all [find, Ne.symm h]
      · simp [find, ih]

/-! ### Reading back -/

@[simp] theorem onModule_module (s : State) (f : Module → Module) : (onModule s f).module = f s.module := rfl

@[simp] theorem coreOf_setCore_self (s : State) (c : Nat) (v : Core) : coreOf (setCore s c v) c = v := by
  simp [coreOf, setCore]
theorem coreOf_setCore_ne (s : State) {c d : Nat} (v : Core) (h : d ≠ c) :
    coreOf (setCore s c v) d = coreOf s d := look_put_ne _ _ _ h
@[simp] theorem coreOf_onCore_self (s : State) (c : Nat) (f : Core → Core) :
    coreOf (onCore s c f) c = f (coreOf s c) := by simp [onCore]
theorem coreOf_onCore_ne (s : State) {c d : Nat} (f : Core → Core) (h : d ≠ c) :
    coreOf (onCore s c f) d = coreOf s d := coreOf_setCore_ne s _ h
@[simp] theorem towerOf_onTower_self (s : State) (t : Nat) (f : Tower → Tower) :
    towerOf (onTower s t f) t = f (towerOf s t) := by simp [towerOf, onTower]
theorem towerOf_onTower_ne (s : State) {t u : Nat} (f : Tower → Tower) (h : u ≠ t) :
    towerOf (onTower s t f) u = towerOf s u := look_put_ne _ _ _ h
@[simp] theorem portOf_onPort_self (s : State) (p : Nat) (f : Port → Port) :
    portOf (onPort s p f) p = f (portOf s p) := by simp [portOf, onPort]
theorem portOf_onPort_ne (s : State) {p q : Nat} (f : Port → Port) (h : q ≠ p) :
    portOf (onPort s p f) q = portOf s q := look_put_ne _ _ _ h
@[simp] theorem ctxOf_onCtx_self (s : State) (c : Nat) (f : Ctx → Ctx) : ctxOf (onCtx s c f) c = f (ctxOf s c) := by
  simp [ctxOf, onCtx]
theorem ctxOf_onCtx_ne (s : State) {c d : Nat} (f : Ctx → Ctx) (h : d ≠ c) : ctxOf (onCtx s c f) d = ctxOf s d :=
  look_put_ne _ _ _ h

@[simp] theorem coreOf_onModule (s : State) (f : Module → Module) (c : Nat) : coreOf (onModule s f) c = coreOf s c := rfl
@[simp] theorem coreOf_onTower (s : State) (t : Nat) (f : Tower → Tower) (c : Nat) :
    coreOf (onTower s t f) c = coreOf s c := rfl
@[simp] theorem coreOf_onPort (s : State) (p : Nat) (f : Port → Port) (c : Nat) :
    coreOf (onPort s p f) c = coreOf s c := rfl
@[simp] theorem coreOf_onCtx (s : State) (d : Nat) (f : Ctx → Ctx) (c : Nat) :
    coreOf (onCtx s d f) c = coreOf s c := rfl
@[simp] theorem ctxOf_onModule (s : State) (f : Module → Module) (c : Nat) : ctxOf (onModule s f) c = ctxOf s c := rfl
@[simp] theorem ctxOf_onTower (s : State) (t : Nat) (f : Tower → Tower) (c : Nat) :
    ctxOf (onTower s t f) c = ctxOf s c := rfl
@[simp] theorem ctxOf_onPort (s : State) (p : Nat) (f : Port → Port) (c : Nat) : ctxOf (onPort s p f) c = ctxOf s c := rfl
@[simp] theorem ctxOf_onCore (s : State) (d : Nat) (f : Core → Core) (c : Nat) : ctxOf (onCore s d f) c = ctxOf s c := rfl
@[simp] theorem ctxOf_onMe (s : State) (f : Stream → Stream) (c : Nat) : ctxOf (onMe s f) c = ctxOf s c := rfl
@[simp] theorem portOf_onModule (s : State) (f : Module → Module) (c : Nat) : portOf (onModule s f) c = portOf s c := rfl

@[simp] theorem streamOf_put_self (k : Core) (i : Nat) (v : Stream) :
    streamOf { k with streams := put k.streams i v } i = v := by simp [streamOf]
theorem streamOf_put_ne (k : Core) {i j : Nat} (v : Stream) (h : j ≠ i) :
    streamOf { k with streams := put k.streams i v } j = streamOf k j := look_put_ne _ _ _ h

/-- The issuing stream after it is changed. -/
@[simp] theorem me_onMe (s : State) (f : Stream → Stream) : me (onMe s f) = f (me s) := by
  simp only [me, onMe, coreOf_onCore_self, onCore_curCore, onCore_curStream]
  generalize coreOf s s.curCore = k
  cases h : s.curStream == 0 <;> cases hk : k.handler <;> simp_all [streamOf]

/-- Changing the issuing stream leaves every other core alone. -/
theorem coreOf_onMe_ne (s : State) (f : Stream → Stream) {c : Nat} (h : c ≠ s.curCore) :
    coreOf (onMe s f) c = coreOf s c := coreOf_onCore_ne s _ h

end Sys2Proof.Machine
end

