-- ==== Sys2Proof/Laws/Memory.lean ====
section
/-! SUPPORT. Memory: every operation keeps the canonical form, and what a read after a write gives. -/

namespace Sys2Proof.Machine

/-! ### The canonical form -/

/-- The canonical form said at once: addresses strictly rising, no entry blank. -/
theorem memory_wf_iff (m : Memory) :
    Memory.wf m = true ↔ m.Pairwise (fun c d => c.1 < d.1) ∧ ∀ c ∈ m, c.2 ≠ blankByte := by
  induction m with
  | nil => simp [Memory.wf]
  | cons e rest ih =>
    obtain ⟨a, b⟩ := e
    cases rest with
    | nil => simp [Memory.wf]
    | cons e' rest =>
      obtain ⟨a', b'⟩ := e'
      simp only [Memory.wf, Bool.and_eq_true, bne_iff_ne, ne_eq, decide_eq_true_eq, ih, List.pairwise_cons,
        List.mem_cons]
      constructor
      · rintro ⟨⟨hb, ha⟩, ⟨h1, h2⟩, h3⟩
        refine ⟨⟨?_, h1, h2⟩, ?_⟩
        · rintro c (rfl | hc)
          · exact ha
          · exact Nat.lt_trans ha (h1 c hc)
        · rintro c (rfl | hc)
          · exact hb
          · exact h3 c hc
      · rintro ⟨⟨h0, h1, h2⟩, h3⟩
        exact ⟨⟨h3 _ (.inl rfl), h0 _ (.inl rfl)⟩, ⟨h1, h2⟩, fun c hc => h3 c (.inr hc)⟩

theorem mem_put {α : Type} {m : Map α} {k : Nat} {v : α} {e : Nat × α} (h : e ∈ put m k v) : e = (k, v) ∨ e ∈ m := by
  induction m with
  | nil => simpa [put] using h
  | cons x rest ih =>
    obtain ⟨j, w⟩ := x
    unfold put at h
    split at h
    · simpa using h
    · split at h
      · simp only [List.mem_cons] at h ⊢
        exact h.imp_right .inr
      · simp only [List.mem_cons] at h ⊢
        rcases h with h | h
        · exact .inr (.inl h)
        · exact (ih h).imp_right .inr

/-- A table with rising keys keeps them rising when a key is put. -/
theorem put_pairwise {α : Type} {m : Map α} (k : Nat) (v : α) (h : m.Pairwise fun c d => c.1 < d.1) :
    (put m k v).Pairwise fun c d => c.1 < d.1 := by
  induction m with
  | nil => simp [put]
  | cons x rest ih =>
    obtain ⟨j, w⟩ := x
    rw [List.pairwise_cons] at h
    unfold put
    split
    · rename_i hk
      rw [List.pairwise_cons, List.pairwise_cons]
      refine ⟨?_, h⟩
      intro c hc
      rcases List.mem_cons.1 hc with rfl | hc
      · exact hk
      · exact Nat.lt_trans hk (h.1 c hc)
    · split
      · rename_i hjk
        have : j = k := by simpa using hjk
        subst this
        exact List.pairwise_cons.2 ⟨fun c hc => h.1 c hc, h.2⟩
      · rename_i hk hjk
        have hne : j ≠ k := by simpa using hjk
        refine List.pairwise_cons.2 ⟨?_, ih h.2⟩
        intro c hc
        rcases mem_put hc with rfl | hc
        · exact Nat.lt_of_le_of_ne (Nat.le_of_not_lt hk) hne
        · exact h.1 c hc

theorem erase_sublist {α : Type} (m : Map α) (k : Nat) : (erase m k).Sublist m := by
  induction m with
  | nil => exact .slnil
  | cons x rest ih =>
    obtain ⟨j, w⟩ := x
    unfold erase
    split
    · exact List.sublist_cons_self _ _
    · exact ih.cons_cons _

/-- A part of a canonical memory is canonical. -/
theorem wf_sublist {m n : Memory} (h : m.Sublist n) (hn : Memory.wf n = true) : Memory.wf m = true := by
  rw [memory_wf_iff] at hn ⊢
  exact ⟨hn.1.sublist h, fun c hc => hn.2 c (h.subset hc)⟩

@[simp] theorem wf_nil : Memory.wf [] = true := rfl

theorem wf_writeByte {m : Memory} (h : Memory.wf m = true) (a : Nat) (b : Byte) :
    Memory.wf (writeByte m a b) = true := by
  unfold writeByte
  split
  · exact wf_sublist (erase_sublist m a) h
  · rename_i hb
    rw [memory_wf_iff] at h ⊢
    refine ⟨put_pairwise a b h.1, fun c hc => ?_⟩
    rcases mem_put hc with rfl | hc
    · simpa using hb
    · exact h.2 c hc

theorem wf_writeBytes {m : Memory} (h : Memory.wf m = true) (a : Nat) (bs : List Byte) :
    Memory.wf (writeBytes m a bs) = true := by
  induction bs generalizing m a with
  | nil => exact h
  | cons b bs ih => exact ih (wf_writeByte h a b) (a + 1)

theorem wf_filter {m : Memory} (h : Memory.wf m = true) (p : Host.Cell → Bool) : Memory.wf (m.filter p) = true :=
  wf_sublist List.filter_sublist h

theorem wf_clearRange {m : Memory} (h : Memory.wf m = true) (a n : Nat) : Memory.wf (clearRange m a n) = true :=
  wf_filter h _

theorem wf_writeCells {m : Memory} (h : Memory.wf m = true) (cells : Memory) :
    Memory.wf (writeCells m cells) = true := by
  unfold writeCells
  induction cells generalizing m with
  | nil => exact h
  | cons c cells ih => exact ih (wf_writeByte h c.1 c.2)

theorem wf_moveRange {m : Memory} (h : Memory.wf m = true) (a n b : Nat) : Memory.wf (moveRange m a n b) = true := by
  rw [memory_wf_iff] at h ⊢
  unfold moveRange
  refine ⟨?_, ?_⟩
  · rw [List.pairwise_map]
    refine (h.1.filter _).imp_of_mem ?_
    intro c d hc hd hcd
    have h1 := (List.mem_filter.1 hc).2
    have h2 := (List.mem_filter.1 hd).2
    simp at h1 h2
    show c.1 - a + b < d.1 - a + b
    omega
  · intro c hc
    obtain ⟨d, hd, rfl⟩ := List.mem_map.1 hc
    exact h.2 d (List.mem_filter.1 hd).1

/-- Writing bytes at a location keeps the canonical form of the machine's memory. -/
theorem wf_writeAt {s : State} (h : Memory.wf s.mem = true) (l : Loc) (bs : List Byte) :
    Memory.wf (writeAt s l bs).mem = true := by
  unfold writeAt
  split
  · exact h
  · exact wf_writeBytes h _ _

/-- So does moving bytes from one place to another. -/
theorem wf_relocate {s : State} (h : Memory.wf s.mem = true) (a b n : Nat) : Memory.wf (relocate s a b n).mem = true :=
  wf_writeCells (wf_clearRange h _ _) _

/-! ### Reading after writing -/

/-- A table with rising keys does not list an erased key. -/
theorem look_erase_self {m : Memory} (h : Memory.wf m = true) (a : Nat) : look blankByte (erase m a) a = blankByte := by
  rw [memory_wf_iff] at h
  obtain ⟨h, -⟩ := h
  have gone : ∀ m : Memory, (∀ c ∈ m, c.1 ≠ a) → look blankByte m a = blankByte := by
    intro m
    induction m with
    | nil => intro _; rfl
    | cons x rest ih =>
      intro hx
      have h1 : x.1 ≠ a := hx x (List.mem_cons_self ..)
      simp [look, h1, ih fun c hc => hx c (List.mem_cons_of_mem _ hc)]
  induction m with
  | nil => rfl
  | cons x rest ih =>
    obtain ⟨j, w⟩ := x
    rw [List.pairwise_cons] at h
    unfold erase
    split
    · rename_i hj
      have : j = a := by simpa using hj
      subst this
      exact gone rest fun c hc => Nat.ne_of_gt (h.1 c hc)
    · rename_i hj
      simp only [look, hj]
      exact ih h.2

theorem look_erase_ne {α : Type} (d : α) (m : Map α) {a k : Nat} (h : k ≠ a) : look d (erase m a) k = look d m k := by
  induction m with
  | nil => rfl
  | cons x rest ih =>
    obtain ⟨j, w⟩ := x
    unfold erase
    split
    · rename_i hj
      have : j = a := by simpa using hj
      subst this
      simp [look, Ne.symm h]
    · simp only [look, ih]

/-- A byte written is read back. -/
theorem readByte_writeByte_self {m : Memory} (h : Memory.wf m = true) (a : Nat) (b : Byte) :
    readByte (writeByte m a b) a = b := by
  unfold readByte writeByte
  split
  · rename_i hb
    have : b = blankByte := by simpa using hb
    rw [this]
    exact look_erase_self h a
  · exact look_put_self _ _ _ _

/-- A write leaves every other byte alone. -/
theorem readByte_writeByte_ne (m : Memory) {a k : Nat} (b : Byte) (h : k ≠ a) :
    readByte (writeByte m a b) k = readByte m k := by
  unfold readByte writeByte
  split
  · exact look_erase_ne _ _ h
  · exact look_put_ne _ _ _ h

/-- Writing bytes leaves every byte outside them alone. -/
theorem readByte_writeBytes_outside (m : Memory) {a k : Nat} (bs : List Byte) (h : k < a ∨ a + bs.length ≤ k) :
    readByte (writeBytes m a bs) k = readByte m k := by
  induction bs generalizing m a with
  | nil => rfl
  | cons b bs ih =>
    simp only [List.length_cons] at h
    rw [writeBytes, ih _ (by omega), readByte_writeByte_ne _ _ (by omega)]

/-- Bytes written are read back. -/
theorem readByte_writeBytes_inside {m : Memory} (hm : Memory.wf m = true) {a k : Nat} (bs : List Byte)
    (h : a ≤ k ∧ k < a + bs.length) : readByte (writeBytes m a bs) k = bs.getD (k - a) 0 := by
  induction bs generalizing m a with
  | nil => simp at h; omega
  | cons b bs ih =>
    simp only [List.length_cons] at h
    rw [writeBytes]
    by_cases hk : k = a
    · subst hk
      rw [readByte_writeBytes_outside _ _ (by omega), readByte_writeByte_self hm]
      simp
    · rw [ih (wf_writeByte hm a b) (by omega)]
      have : k - a = (k - (a + 1)) + 1 := by omega
      rw [this]
      simp

@[simp] theorem readBytes_length (m : Memory) (a n : Nat) : (readBytes m a n).length = n := by
  induction n generalizing a with
  | zero => rfl
  | succ n ih => simp [readBytes, ih]

theorem readBytes_congr {m k : Memory} (n : Nat) {a : Nat} (h : ∀ i, a ≤ i → i < a + n → readByte m i = readByte k i) :
    readBytes m a n = readBytes k a n := by
  induction n generalizing a with
  | zero => rfl
  | succ n ih =>
    simp only [readBytes]
    rw [h a (Nat.le_refl a) (by omega), ih fun i h1 h2 => h i (by omega) (by omega)]

/-- A run of bytes written is read back whole. -/
theorem readBytes_writeBytes_same {m : Memory} (hm : Memory.wf m = true) (a : Nat) (bs : List Byte) :
    readBytes (writeBytes m a bs) a bs.length = bs := by
  induction bs generalizing m a with
  | nil => rfl
  | cons b bs ih =>
    simp only [List.length_cons, readBytes, writeBytes]
    rw [ih (wf_writeByte hm a b), readByte_writeBytes_outside _ _ (by omega), readByte_writeByte_self hm]

/-! ### Bytes and numbers -/

@[simp] theorem toBytes_length (n v : Nat) : (toBytes n v).length = n := by
  induction n generalizing v with
  | zero => rfl
  | succ n ih => simp [toBytes, ih]

/-- The bytes of a number give its value modulo their range (R5). -/
theorem fromBytes_toBytes (n v : Nat) : fromBytes (toBytes n v) = v % 2 ^ (8 * n) := by
  induction n generalizing v with
  | zero => simp [toBytes, fromBytes, Nat.mod_one]
  | succ n ih =>
    simp only [toBytes, fromBytes, ih, BitVec.toNat_ofNat]
    have h : 2 ^ (8 * (n + 1)) = 256 * 2 ^ (8 * n) := by rw [Nat.mul_succ, Nat.pow_add]; omega
    rw [h, Nat.mod_mul]

end Sys2Proof.Machine
end

