-- ==== Sys2Proof/Laws/Shared.lean ====
section
/-! SUPPORT. What each shared operation can do, said once: the event log, interrupts, timelines, the ways an instruction
ends. -/

namespace Sys2Proof.Machine

/-! ### The event log and REPLACE_REQUESTED -/

/-- Logging changes the log and its count of lost entries, and nothing else of the module. -/
theorem logEvent_module (s : State) (code d : Nat) :
    ∃ l n, (logEvent s code d).module = { s.module with log := l, logLost := n } ∧
      l.getLast? = some (toBytes 8 (if s.module.started then s.mtime else 0) ++ toBytes 2 code ++ toBytes 2 d) := by
  unfold logEvent onModule
  by_cases h : s.module.log.length < 1024 <;> simp only [h, if_true, if_false]
  · exact ⟨_, s.module.logLost, rfl, by simp⟩
  · exact ⟨_, s.module.logLost + 1, rfl, by simp⟩

@[simp] theorem logEvent_cores (s : State) (c d : Nat) : (logEvent s c d).cores = s.cores := rfl
@[simp] theorem logEvent_mem (s : State) (c d : Nat) : (logEvent s c d).mem = s.mem := rfl
@[simp] theorem logEvent_ctxs (s : State) (c d : Nat) : (logEvent s c d).ctxs = s.ctxs := rfl
@[simp] theorem logEvent_ports (s : State) (c d : Nat) : (logEvent s c d).ports = s.ports := rfl
@[simp] theorem logEvent_mtime (s : State) (c d : Nat) : (logEvent s c d).mtime = s.mtime := rfl

/-- Raising an interrupt changes the interrupts raised or pending, and nothing else. -/
theorem raiseIrq_eq (s : State) (fn vec : Nat) :
    ∃ i p, raiseIrq s fn vec = { s with irqs := i, msixPending := p } := by
  unfold raiseIrq
  extract_lets v
  split
  · split
    · exact ⟨s.irqs, s.msixPending, rfl⟩
    · exact ⟨s.irqs, _, rfl⟩
  · exact ⟨_, s.msixPending, rfl⟩

/-- Setting REPLACE_REQUESTED changes the flag, the in-band count, the log and the interrupts. -/
theorem setReplace_eq (s : State) :
    ∃ r n l k i p, setReplace s =
      { s with module := { s.module with replace := r, inband := n, log := l, logLost := k }, irqs := i, msixPending := p } := by
  unfold setReplace
  split
  · exact ⟨s.module.replace, s.module.inband, s.module.log, s.module.logLost, s.irqs, s.msixPending, rfl⟩
  · obtain ⟨l, k, hm, -⟩ := logEvent_module (onModule s fun m => { m with replace := true, inband := m.inband + 1 }) 0x0004 0
    obtain ⟨i, p, h⟩ := raiseIrq_eq
      (logEvent (onModule s fun m => { m with replace := true, inband := m.inband + 1 }) 0x0004 0) 0 2047
    refine ⟨true, s.module.inband + 1, l, k, i, p, ?_⟩
    rw [h, hm]
    rfl

theorem checkReplace_eq (s : State) :
    ∃ r n l k i p, checkReplace s =
      { s with module := { s.module with replace := r, inband := n, log := l, logLost := k }, irqs := i, msixPending := p } := by
  unfold checkReplace
  split
  · exact setReplace_eq s
  · exact ⟨s.module.replace, s.module.inband, s.module.log, s.module.logLost, s.irqs, s.msixPending, rfl⟩

/-! ### How an instruction ends -/

/-- No item record too many is posted where no context's waiting records grow. -/
theorem itemsOver_of_unposted {s t : State} (h : ∀ c, unposted (ctxOf t c) ≤ unposted (ctxOf s c)) :
    itemsOver s t = false := by
  simp only [itemsOver, List.any_eq_false, Bool.and_eq_true, decide_eq_true_eq, not_and]
  exact fun e _ _ => absurd (h e.1) ∘ Nat.not_le_of_lt
theorem itemsOver_of_ctxs {s t : State} (h : t.ctxs = s.ctxs) : itemsOver s t = false :=
  itemsOver_of_unposted fun c => by simp [ctxOf, h]
/-- Nor where every context has room for one more. -/
theorem itemsOver_of_room {s t : State} (h : ∀ c, (ctxOf s c).itwait.length < itemRoom) : itemsOver s t = false := by
  simp only [itemsOver, List.any_eq_false, Bool.and_eq_true, decide_eq_true_eq, not_and]
  exact fun e _ hr => absurd (h e.1) (by omega)

theorem conclude_ok (s t : State) (len : Nat) (target : Option Word) :
    conclude s len (.ok (t, target)) = if itemsOver s t then .next (hold s (.cause 4)) else .next (finish t len target) := rfl
theorem conclude_error (s : State) (len : Nat) (e : Trap) : conclude s len (.error e) = .next (trapState s e) := rfl
theorem concludeNext_ok (s t : State) (len : Nat) :
    concludeNext s len (.ok t) = if itemsOver s t then .next (hold s (.cause 4)) else .next (finish t len none) := rfl
theorem concludeNext_error (s : State) (len : Nat) (e : Trap) :
    concludeNext s len (.error e) = .next (trapState s e) := rfl

/-- An instruction always answers a next state: its effect and the program counter moved, a stall before an item record for
which there is no room, or its trap. -/
theorem concludeNext_cases (s : State) (len : Nat) (r : Act State) :
    (∃ t, r = .ok t ∧ itemsOver s t = false ∧ concludeNext s len r = .next (finish t len none)) ∨
      (∃ t, r = .ok t ∧ itemsOver s t = true ∧ concludeNext s len r = .next (hold s (.cause 4))) ∨
      ∃ e, r = .error e ∧ concludeNext s len r = .next (trapState s e) := by
  cases r with
  | ok t =>
    cases h : itemsOver s t
    · exact .inl ⟨t, rfl, h, by simp [concludeNext_ok, h]⟩
    · exact .inr (.inl ⟨t, rfl, h, by simp [concludeNext_ok, h]⟩)
  | error e => exact .inr (.inr ⟨e, rfl, rfl⟩)

end Sys2Proof.Machine
end

