-- ==== Sys2Proof/Tests/Slice0.lean ====
section
/-! SUPPORT. Tests: ill-formed instructions refused, words of the spec's tables decoded, single instructions run on small
states, and for each statement with hypotheses a state and operands that meet all of them, clause by clause. -/

namespace Sys2Proof.Tests
open Sys2Proof.Machine Sys2Proof.Slice0
set_option Elab.async false

/-- Whether hypotheses in a chain hold: every read and check in it answers, and what it ends with is true. -/
def holds (x : Act Bool) : Bool := match x with
  | .ok b => b
  | .error _ => false

/-- Whether an outcome is a next state with a property. -/
def nexts (o : Host.Outcome State Fault Refusal) (p : State → Bool) : Bool := match o with
  | .next t => p t
  | _ => false

/-- A module as a state. -/
def modState (m : Module) (t : Nat := 0) : State := { elapsed := t, mtime := t, module := m }

/-- A module whose clock runs. -/
def powered : Module :=
  { input := true, coolant := true, step := 4, started := true, bootChecked := true, ready := true }

/-- A powered module with one stream of core 0 running a slice of context 0. -/
def running (stream : Nat) (st : Stream) : State :=
  { curStream := stream, module := powered
    cores := [(0, { slice := some ⟨0, 0⟩, streams := [(stream, { st with status := .running })] })] }

/-- `cc` of core 0 with g registers from a list of (number, value), q5 and q6 live, and c1 true. -/
def ccState (g : Map Word) : State :=
  running 0 { g := g, q := [(5, 7), (6, 3)], qlive := 0x0060, c := 3, pc := 8 }

/-- A state of context 0 with a context page register set. -/
def withReg (s : State) (off v : Nat) : State :=
  onCtx s 0 fun c => { c with regs := put c.regs off (BitVec.ofNat 64 v) }

/-! ### Witnesses: the module -/

/-- States and operands that meet the hypotheses of `RailsAndPowerLoss`, clause by clause. -/
theorem test_witness_RailsAndPowerLoss : [
    (modState {}).module.input == false,
    (let s := modState { input := true, coolant := true, step := 3, stepTime := 5 } 1000005
     s.module.step < 4 && !s.module.tripped && s.module.stepTime + 1000000 ≤ s.elapsed),
    (let s := modState { coolant := true, step := 4, tripped := true }
     0 < s.module.step && s.module.tripped),
    (let s := modState { coolant := false, step := 1 }
     !s.module.tripped),
    (let s := { running 0 {} with module := { step := 4 } }
     s.module.step == 4 && (7 : Nat) < 8 && (coreOf s 0).slice.isSome)].all id = true := by decide +kernel

/-- States and operands that meet the hypotheses of `SelfTestThrottleAndSensors`, clause by clause. -/
theorem test_witness_SelfTestThrottleAndSensors : [
    (let s := modState { input := true, step := 4, bootChecked := true }
     s.module.step == 4 && s.module.bootChecked && !s.module.ready),
    (let s := modState { level := 0, sensors := ⟨[6000], [], [], [], 0, 0, [], true⟩ }
     s.module.level < triggerLevel s),
    (let s := modState { level := 1, coolSince := [(1, 0)] } 100000000
     heldLevel s < s.module.level),
    (let s := modState { sensors := ⟨[], [], List.replicate 32 5766, [], 0, 0, [], true⟩ }
     (31 : Nat) < 32 && 1600 * 85 + 437040 < 100 * (s.module.sensors.site.getD 31 0).toNat)].all id = true := by
  decide +kernel

/-- States and operands that meet the hypotheses of `TripFenceAndSparing`, clause by clause. -/
theorem test_witness_TripFenceAndSparing : [
    (let s := modState { input := true, step := 1 }
     s.module.input && !s.module.tripped && 0 < s.module.step && !s.module.coolant && !atLeast (hottest s) 120),
    (let s := modState { input := true, sensors := ⟨[6291], [], [], [], 0, 0, [], true⟩ }
     s.module.input && !s.module.tripped && atLeast (hottest s) 120),
    (let s := modState {}
     coreLive s 127 && (coreOf s 127).slice == none),
    (let s := running 0 {}
     coreLive s 0 && (coreOf s 0).slice.isSome),
    (let s := modState { spares := 1 }
     (127 : Nat) < 128 && (63 : Nat) < 64 && 0 < sparesOf s (64 * 127 + 63))].all id = true := by decide +kernel

/-- The 8 bytes of FW_ACTIVATE for an image of one zero byte. -/
def activateZero : List Byte := toBytes 4 1 ++ toBytes 4 0xD202EF8D

/-- States and operands that meet the hypotheses of `MailboxAndFirmware`, clause by clause. -/
theorem test_witness_MailboxAndFirmware : [
    (let s := modState { input := true }
     s.module.input && !mailboxBusy s && 2000 ≤ imageAt (toBytes 2 3400) 0 2 && imageAt (toBytes 2 3400) 0 2 ≤ 3400),
    (3400 < imageAt (toBytes 2 3401) 0 2 && [0x01, 0x02, 0x03, 0x10, 0x20, 0x21, 0x30].contains 0x31 == false),
    (modState {}).module.logLost == 0,
    mailboxBusy (modState { input := true, response := some [] }) && [Instr.readModstat, .readCapacity].contains .readModstat,
    (let s := modState { input := true, response := some [0, 0] }
     s.module.input && !s.module.refused && s.module.response == some [0, 0]),
    (let s := modState { input := true, refused := true }
     s.module.input && s.module.refused),
    (let args := toBytes 4 (240 * 279619) ++ List.replicate 240 1
     args.length == 244 && imageAt args 0 4 % 240 == 0 && imageAt args 0 4 + 240 ≤ 2 ^ 26 &&
       !mailboxBusy (modState { input := true }) && Memory.wf (modState {}).module.staging),
    (let s := modState { input := true }
     s.module.input && !mailboxBusy s && (List.replicate 243 (0 : Byte)).length != 244 &&
       imageAt (toBytes 4 1) 0 4 % 240 != 0 && 2 ^ 26 ≤ imageAt (toBytes 4 (240 * 279621)) 0 4 && (toBytes 4 1).length != 8 &&
       imageAt (List.replicate 8 0) 0 4 == 0 && 2 ^ 26 < imageAt (toBytes 4 (2 ^ 26 + 1) ++ toBytes 4 0) 0 4 &&
       !covered s.module.staged 1 (s.module.staged.length + 1) 0),
    (let s := modState { input := true, staged := [(0, 1)] }
     s.module.input && !mailboxBusy s && activateZero.length == 8 && 0 < imageAt activateZero 0 4 &&
       imageAt activateZero 0 4 ≤ 2 ^ 26 && covered s.module.staged 1 (s.module.staged.length + 1) 0 &&
       crc32 (readBytes s.module.staging 0 1) != BitVec.ofNat 32 0),
    (let s := modState { input := true, staged := [(0, 1)] }
     s.module.input && !mailboxBusy s && activateZero.length == 8 && imageAt activateZero 0 4 == 1 &&
       covered s.module.staged 1 (s.module.staged.length + 1) 0 &&
       crc32 (readBytes s.module.staging 0 1) == BitVec.ofNat 32 (imageAt activateZero 4 4)),
    (modState { writing := some ⟨1, true⟩ }).module.writing == some ⟨1, true⟩,
    (let s := modState { input := true, flashPartial := true }
     !s.module.bootChecked && s.module.input && s.module.flashPartial),
    (let s := modState { recovery := true, window := { ofs := 2 ^ 26 - 2048, len := 2 ^ 26 } }
     windowFree s && s.module.window.ofs.toNat % 2048 == 0 && s.module.window.ofs.toNat < 2 ^ 26 &&
       Memory.wf s.module.staging && Nat.min 2048 (s.module.window.len.toNat - s.module.window.ofs.toNat) == 2048),
    (let s := modState { recovery := true, window := { ofs := 2 ^ 26 } }
     windowFree s && 2 ^ 26 ≤ s.module.window.ofs.toNat),
    (let s := modState { recovery := true, window := { ofs := 2047 } }
     windowFree s && s.module.window.ofs.toNat % 2048 != 0),
    (let s := modState { recovery := true, window := { busy := true } }
     s.module.window.busy && s.module.writing == none),
    (let s := modState { recovery := true, staged := [(0, 1)], window := { len := 1, crc := 0xD202EF8D } }
     windowFree s && s.module.window.len.toNat == 1 && covered s.module.staged 1 (s.module.staged.length + 1) 0 &&
       crc32 (readBytes s.module.staging 0 1) == s.module.window.crc),
    (let s := modState { recovery := true }
     windowFree s && imageCheck s s.module.window.len.toNat s.module.window.crc != 0)].all id = true := by
  decide +kernel

/-! ### Witnesses: ports and collectives -/

/-- A state with one port changed from its reset. -/
def portState (p : Port) : State := { ports := [(63, p)] }

/-- The first 12 bytes of a flit of a type with SPEC 0x00FF08 and the sequence number a fresh port expects: its last 4 are
what brings the CRC register to 0, where zero bytes keep it. -/
def flitHead (type sum : Nat) : List Byte := toBytes 8 (type + 0xFFF * 2 ^ 28 + 0x00FF08 * 2 ^ 40) ++ toBytes 4 sum

/-- Such a flit's bytes. -/
def flitImage (head : List Byte) : List Byte := head ++ List.replicate 240 0 ++ List.replicate 4 0xFF

/-- The flit time it makes on a full stripe: one beat on each wavelength (R33). -/
def flitTime (head : List Byte) : Received :=
  ⟨(List.range 8).map fun n => (n, ((flitImage head).drop (32 * n)).take 32), []⟩

theorem crc_of_zeros (n : Nat) : (List.replicate n (0 : Byte)).foldl crcByte 0 = 0 := by
  induction n with
  | zero => rfl
  | succ n ih => rw [List.replicate_succ, List.foldl_cons, show crcByte 0 0 = 0 by decide, ih]

theorem crc_of_flit (head : List Byte) (hl : head.length = 12) (hc : head.foldl crcByte (BitVec.allOnes 32) = 0) :
    crc32 ((flitImage head).take 252) = BitVec.allOnes 32 := by
  have h : (flitImage head).take 252 = head ++ List.replicate 240 0 :=
    List.take_left' (by rw [List.length_append, List.length_replicate, hl])
  rw [h, crc32, List.foldl_append, hc, crc_of_zeros]
  rfl

/-- A flit of a type that a fresh port takes. -/
def flitComes (type sum : Nat) : Prop :=
  ∃ f, received (portOf (portState {}) 63) (flitTime (flitHead type sum)) = some f ∧ f.type.toNat = type ∧
    flitOk (portOf (portState {}) 63) (some f) = true

theorem flit_comes (type sum : Nat) (hc : (flitHead type sum).foldl crcByte (BitVec.allOnes 32) = 0)
    (ha : assemble (arrivalStripe (portOf (portState {}) 63) (flitTime (flitHead type sum)))
      (flitTime (flitHead type sum)) = some (flitImage (flitHead type sum)))
    (hs : imageAt (flitImage (flitHead type sum)) 252 4 = (BitVec.allOnes 32).toNat)
    (hw : (portOf (portState {}) 63).peerWidth = 8)
    (hf : (flitFrom (flitImage (flitHead type sum))).type.toNat = type ∧
      flitOk (portOf (portState {}) 63) (some (flitFrom (flitImage (flitHead type sum)))) = true) :
    flitComes type sum := by
  refine ⟨_, ?_, hf⟩
  rw [received, ha]
  simp only [hs, crc_of_flit _ (by rfl) hc, hw]
  rfl

/-- States and operands that meet the hypotheses of `FlitsTakenInSequence`, clause by clause. -/
theorem test_witness_FlitsTakenInSequence_flits : flitComes 1 0x5D71DA6E ∧ flitComes 2 0xD3FEDD8D ∧
    flitComes 6 0x57B4D377 ∧ flitComes 3 0x1F54DD13 ∧ flitComes 4 0x1591D40A :=
  ⟨flit_comes _ _ (by decide +kernel) (by decide +kernel) (by decide +kernel) (by decide +kernel) (by decide +kernel),
   flit_comes _ _ (by decide +kernel) (by decide +kernel) (by decide +kernel) (by decide +kernel) (by decide +kernel),
   flit_comes _ _ (by decide +kernel) (by decide +kernel) (by decide +kernel) (by decide +kernel) (by decide +kernel),
   flit_comes _ _ (by decide +kernel) (by decide +kernel) (by decide +kernel) (by decide +kernel) (by decide +kernel),
   flit_comes _ _ (by decide +kernel) (by decide +kernel) (by decide +kernel) (by decide +kernel) (by decide +kernel)⟩

/-- States and operands that meet the hypotheses of `PortRegistersAndWakes`, clause by clause. -/
theorem test_witness_PortRegistersAndWakes : [
    (63 : Nat) < 64 && (17 : Nat) < 18 && !ringWaking (portOf (portState {}) 63) 17,
    mapOk 0x01234567 && mapOk 0x81234567 && !mapOk 0x91234567,
    (let p := portOf (portState {}) 63
     flag p.pctl.toNat 31 && p.queue.length ≤ 4 && 4 ≤ field p.pctl.toNat 8 8 &&
       1000 * Nat.max 1 (field p.pctl.toNat 16 8) ≤ 10000 && 4 ≤ p.width),
    (let p := portOf (portState {}) 63
     flag p.pctl.toNat 31 && p.queue.length ≤ 32 && field p.pctl.toNat 0 8 ≤ 32),
    (let p := portOf (portState { waking := [⟨17, 5, false, 0⟩], base := [(1, ⟨2895, 1⟩)] }) 63
     p.waking.find? (fun w => w.ring == 17 && !w.ended) == some ⟨17, 5, false, 0⟩ &&
       rneDiv (needOf p 17).num (Nat.max (needOf p 17).den 1) == 4095),
    (let p := portOf (portState { parked := BitVec.allOnes 18 }) 63
     !ringLocked p (rxRing p 7))].all id = true := by decide +kernel

/-- States and operands that meet the hypotheses of `FlitsTakenInSequence`, clause by clause. -/
theorem test_witness_FlitsTakenInSequence : [
    !flitOk (portOf (portState {}) 63) (received (portOf (portState {}) 63) ⟨[], []⟩),
    (let r : Received := ⟨[], [(7, 15)]⟩
     (7 : Nat) < 8 && r.errors == [(7, 15)]),
    downLong { portState { width := 0, downSince := some 0 } with mtime := 1000001 } 63].all id = true := by
  decide +kernel

/-- A collective command of group 255: OP, TYPE, COUNT, SRC 0x1000, DST 0x2000, UNI 0x3000, T = s = 1, CPLADDR 0. -/
def colImage (op type count : Nat) : List Byte :=
  toBytes 1 op ++ toBytes 1 type ++ toBytes 2 255 ++ toBytes 4 count ++ toBytes 8 0x1000 ++ toBytes 8 0x2000 ++
    toBytes 8 0x3000 ++ toBytes 8 0 ++ toBytes 8 0 ++ toBytes 4 0x3F800000 ++ toBytes 4 0x3F800000 ++ toBytes 8 0

/-- Module 1, which reaches module 2 over port 63 and runs one collective command of context 0 at tower 7, in a group of
the two modules' contexts 0. Its member table stands at 0x1000. -/
def colState (im : List Byte) (dead : Bool := false) : State :=
  { mtime := 100000000
    module := { modid := 1, routes := [(2, 0xBF)] }
    mem := writeBytes [] 0x1000 (toBytes 8 1 ++ toBytes 8 2)
    ctxs := [(0, { groups := [(255, ⟨[(1, 0), (2, 0)], [(0, 255)], dead⟩)], cols := [(7, [⟨1, im, none, 0⟩])] })] }

/-- The other member's contribution. -/
def colPeer (im : List Byte) : List Contribution := [⟨1, im, toBytes 8 1 ++ toBytes 8 2, []⟩]

/-- `aloneHere` of context 0, as a check. -/
def alone (s : State) (ms : List (Nat × Nat)) : Bool :=
  decide ms.Nodup && ms.contains (s.module.modid.toNat, 0) && ms.all fun m => m.1 != s.module.modid.toNat || m.2 == 0

/-- States and operands that meet the hypotheses of `GroupsFormAndEnd`, clause by clause. -/
theorem test_witness_GroupsFormAndEnd : [
    (let im := colImage 1 0 2
     let s := colState im
     (colHead s 0 7).any fun c => colOp c.image == 1 && (formTable s 0 c.image).any fun p =>
       (contributions s p.2 (colPeer im)).any fun cs =>
         !virtualWaits s 0 0 (colSrc c.image) (8 * colCount c.image) && alone s p.2 && p.2.all (fun m => reachable s m.1) &&
           cs.all (fun q => colOp q.command == 1 && q.data == p.1) && cs.length == 1 &&
           nexts (exec (.form 0 7 (colPeer im)) s) fun t =>
             (groupOf t 0 255).members == p.2 && (groupOf t 0 255).locals == [(0, 255)]),
    (let s := colState (colImage 1 0 4096)
     (colHead s 0 7).any fun c => colOp c.image == 1 && c.since + 100000000 ≤ s.mtime),
    (let s := colState []
     !(groupOf s 0 255).dead && (groupOf s 0 255).members.contains (2, 0) && (2, 0) != (s.module.modid.toNat, 0))].all id
    = true := by decide +kernel

/-- The hypotheses of a collective operation that completes, on one command and the peers' like it, and its effect. -/
def colRuns (i : Nat → Nat → List Contribution → Instr) (op type count : Nat) : Bool :=
  let im := colImage op type count
  let s := colState im
  (colHead s 0 7).any fun c =>
    let ms := (groupOf s 0 (colGroup c.image)).members
    let own := ownMember s 0 ms
    colOp c.image == op && colFieldsOk c.image && colCount c.image != 0 && !(groupOf s 0 (colGroup c.image)).dead &&
      alone s ms && !partyWaits s ms.length ⟨own, 0, 7, c⟩ && (contributions s ms (colPeer im)).any fun cs =>
        cs.all (fun p => commandsAgree c.image p.command) && (ownOperands s 0 own ms.length c.image).any fun (src, u) =>
          (colResult c.image own (ringOrder ms.length own c.image src cs) (memberUniforms own u cs)).any fun bs =>
            (writeVirtual s 0 (colDst c.image) bs).any fun t =>
              nexts (exec (i 0 7 (colPeer im)) s) fun u => u.mem == t.mem && u.ctxs == (colEnd t 0 7 c.number 0).ctxs

/-- States and operands that meet the hypotheses of `CollectivesWriteResult`, clause by clause. -/
theorem test_witness_CollectivesWriteResult : [
    colRuns .allreduce 2 0 2, colRuns .allgather 3 3 1, colRuns .redscatter 4 2 2, colRuns .alltoall 5 2 2,
    colRuns .drawmerge 6 3 1,
    (let ms := [(([] : List Byte), toBytes 4 (2 ^ 32 - 1) ++ toBytes 4 5), ([], toBytes 4 3 ++ toBytes 4 1)]
     colResult (colImage 2 2 2) 1 ms [] == some (toBytes 4 2 ++ toBytes 4 6) &&
       colResult (colImage 4 2 2) 1 ms [] == some (toBytes 4 6) &&
       colResult (colImage 5 2 2) 1 ms [] == some (toBytes 4 5 ++ toBytes 4 1) &&
       colResult (colImage 3 2 2) 1 ms [] == some (ms.flatMap (·.2)) && colResult (colImage 4 2 1) 1 ms [] == none),
    (let s := colState (colImage 7 0 1)
     (colHead s 0 7).any fun c => !colFieldsOk c.image),
    (let s := onCols (colState (colImage 2 0 1)) 0 7 (List.map fun c => { c with result := some 0 })
     ((colsOf s 0 7).find? (·.result.isSome)).any (fun c => colCpl c.image == 0) && (0 : Nat) < Config.contexts)].all
    id = true := by decide +kernel

/-! ### Witnesses: queues, registers and memory -/

/-- Context 64 with one submission queue, 63, of 16 packets, its ring in the host page 0, which ATS has translated. -/
def queueState (u : Queue) (ring : Memory := []) : State :=
  { mem := ring, ctxs := [(64, { queues := [(63, u)], ats := [(0, some (.memory true))] })] }

/-- A packet of a TYPE with flags, the low half of its index, and bytes from 8 on. -/
def packetImage (type flags index : Nat) (rest : List Byte := []) : List Byte :=
  padTo 64 (toBytes 1 type ++ toBytes 1 flags ++ toBytes 2 index ++ toBytes 4 0 ++ rest)

/-- Whether every slot of a queue of context 64 can be read now. -/
def slotsReady (s : State) : Bool := (List.range 16).all fun i => !slotWaits s 64 63 i

/-- States and operands that meet the hypotheses of `QueuesEnableAndStop`, clause by clause. -/
theorem test_witness_QueuesEnableAndStop : [
    (let v : BitVec 32 := 0x80000004
     flag v.toNat 31 && 4 ≤ field v.toNat 0 4 && (queueOf (queueState {}) 64 63).state == 0 && (64 : Nat) < Config.contexts),
    field (3 : BitVec 32).toNat 0 4 < 4,
    (queueOf (queueState { state := 2 }) 64 63).state == 2,
    (queueOf (queueState { state := 1 }) 64 63).state != 0,
    (let u := queueOf (queueState { state := 1, accepted := 1 }) 64 63
     u.state != 0 && u.head < u.accepted && slotsReady (queueState { state := 1, accepted := 1 }))].all id = true := by
  decide +kernel

/-- A ring whose last slot holds a NOP packet of index 15. -/
def fullRing : Memory := writeBytes [] (2 ^ 90 + 64 * 15) (packetImage 7 0 15)

/-- States and operands that meet the hypotheses of `KicksFetchAndCompletion`, clause by clause. -/
theorem test_witness_KicksFetchAndCompletion : [
    (let s := queueState { state := 1 } fullRing
     let v : BitVec 64 := BitVec.ofNat 64 (16 + 15 * 2 ^ 32 + 63 * 2 ^ 48)
     let u := queueOf s 64 63
     slotsReady s && u.state == 1 && u.kicks == [] && u.kicking == none && field v.toNat 48 6 == 63 && field v.toNat 54 10 == 0 &&
       (field v.toNat 0 32 + 2 ^ 32 - u.accepted % 2 ^ 32) % 2 ^ 32 == 16 && 16 + (u.accepted - u.head) ≤ ringSize s 64 63 &&
       field v.toNat 32 16 == (field v.toNat 0 32 + 2 ^ 32 - 1) % 2 ^ 16 &&
       !staleAt (slotImage s 64 63 (u.accepted + 16 - 1)) (u.accepted + 16 - 1)),
    (let u := queueOf (queueState {}) 64 63
     u.kicking == none && u.stale == none && u.kicks == []),
    (let s := queueState { kicking := some (7, 1) }
     (queueOf s 64 63).kicking == some (7, 1) && !slotWaits s 64 63 (lastKicked s 64 63 1)),
    (let u := queueOf (queueState { stale := some 7 }) 64 63
     u.kicking == none && u.stale == some 7 && slotsReady (queueState { stale := some 7 })),
    (let s := queueState { state := 1, head := 15, accepted := 16 } fullRing
     let im := slotImage s 64 63 15
     mayFetch s 64 63 && slotsReady s && !staleAt im 15 && packetOk im && (queueOf s 64 63).packets == []),
    (let s := queueState { state := 1, head := 15, accepted := 16, packets := [{ index := 14, number := 15, image := packetImage 2 0 14 }] } fullRing
     let im := slotImage s 64 63 15
     mayFetch s 64 63 && slotsReady s && !staleAt im 15 && packetOk im && !flag (imageAt im 1 1) 0 && imageAt im 0 1 != 6),
    (let s := queueState { packets := [{ index := 14, number := 15, image := packetImage 7 0 14, status := some 0 }] }
     (packetOf s 64 63 15).any fun p => p.status == some 0 && mayComplete s 64 63 p && !flag (imageAt p.image 1 1) 1 && !flag (imageAt p.image 1 1) 2)].all id
    = true := by decide +kernel

/-- One started packet of number 1, for context 64, whose record store has 2^10 slots. -/
def packetState (im : List Byte) (running : Bool := false) (units : Nat := 0) : State :=
  let s := queueState
    { packets := [{ index := 0, number := 1, image := im, running := running, uncreated := units }] }
  onCtx s 64 fun c => { c with regs := put c.regs 0x1858 10 }

/-- A LAUNCH of one unit of one core with its code at 0x1000, or at another address. -/
def launchImage (code : Nat := 0x1000) : List Byte :=
  packetImage 1 0 0 (toBytes 6 code ++ toBytes 1 1 ++ toBytes 1 1 ++ toBytes 8 0 ++ toBytes 4 1)

/-- Whether packet 1 stands without a status, is of a TYPE, and has a property. -/
def packetHas (s : State) (type : Nat) (p : Packet → Bool) : Bool :=
  (packetOf s 64 63 1).any fun x => x.status == none && imageAt x.image 0 1 == type && p x

/-- States and operands that meet the hypotheses of `PacketsDoTheirWork`, clause by clause. -/
theorem test_witness_PacketsDoTheirWork : [
    (let s := packetState launchImage
     packetHas s 1 fun p => !p.running && launchCheck s p.image == none),
    (let s := packetState (launchImage 0x1001)
     packetHas s 1 fun p => !p.running && launchCheck s p.image == some 4),
    (let s := packetState launchImage true 1
     packetHas s 1 fun p => p.running && p.uncreated != 0 && !rangesWait s 64 (unitRecord 63 p).ranges &&
       match (accept s 64 (unitRecord 63 p) (launchLimit p)).1 with
       | .at _ => true
       | _ => false),
    (let s := packetState (packetImage 2 0 0 (toBytes 8 0 ++ toBytes 8 64 ++ toBytes 8 8 ++ [0, 0]))
     packetHas s 2 fun p => imageAt p.image 24 8 ≤ 2 ^ 40 && match copySpace 64 false false 3 s 0 64 8 with
       | .done _ => true
       | _ => false),
    (let s := packetState (packetImage 2 0 0 (toBytes 8 0 ++ toBytes 8 64 ++ toBytes 8 8 ++ [1, 0]))
     packetHas s 2 fun p => imageAt p.image 24 8 ≤ 2 ^ 40 && match copySpace 64 true false 3 s 0 64 8 with
       | .fault _ => true
       | _ => false),
    packetHas (packetState (packetImage 3 0 0 (toBytes 8 0 ++ toBytes 1 127))) 3 fun p => imageAt p.image 16 1 < 128,
    (let s := packetState (packetImage 3 0 0 (toBytes 8 0 ++ toBytes 1 127))
     packetHas s 3 fun p => (selected s 64 (imageAt p.image 16 1)).any fun v => imageAt p.image 8 8 ≤ v),
    (let s := packetState (packetImage 4 0 0)
     packetHas s 4 fun _ => earlierDone (queueOf s 64 63) 1),
    (let s := packetState (packetImage 5 0 0 (toBytes 8 0x10000 ++ toBytes 4 1 ++ toBytes 1 0))
     packetHas s 5 fun p => !p.running && (pgszBytes (imageAt p.image 20 1)).any fun size =>
       imageAt p.image 16 4 != 0 && imageAt p.image 8 8 % size == 0 &&
         imageAt p.image 8 8 + imageAt p.image 16 4 * size ≤ 2 ^ 56),
    (let s := packetState (packetImage 5 0 0) true
     packetHas s 5 fun p => p.running && p.markers.all fun m => !copyStands s 64 m),
    (let s := packetState (packetImage 6 0 0 [5])
     packetHas s 6 fun p => earlierDone (queueOf s 64 63) 1 && imageAt p.image 8 1 == 5),
    packetHas (packetState (packetImage 7 0 0)) 7 fun _ => true].all id = true := by decide +kernel

/-- States and operands that meet the hypotheses of `RegisterWritesStore`, clause by clause. -/
theorem test_witness_RegisterWritesStore : [
    (plainReg 0).any fun p => !p.2, (plainReg 0x1820).any fun p => p.2,
    (let c := ctxOf State.reset 64
     c.crwait == [] && c.itwait == [] && !c.killed && (64 : Nat) < Config.contexts && (15 : Nat) < 16),
    (let v : BitVec 32 := 0x80000010
     4 ≤ field v.toNat 0 5 && field v.toNat 0 5 ≤ 16),
    (let v : BitVec 32 := 0x4000001E
     16 ≤ field v.toNat 0 5 && field v.toNat 0 5 ≤ 30 && !flag v.toNat 31),
    (let s : State := { mtime := 5, ctxs := [(64, { trtimer := [(15, 5)] })] }
     (find (ctxOf s 64).trtimer 15).any fun t => t ≤ s.mtime),
    ({ msixPending := [(0, 2047)] } : State).msixPending.contains (0, 2047)].all id = true := by decide +kernel

/-- Context 0 with translation on and one 64 KiB page at address 0 whose leaf is given, and a second at 0x10000. -/
def mappedState (leaf : Nat) (leaf2 : Nat := 0) : State :=
  let at_ := fun (m : Memory) (a v : Nat) => writeBytes m a (toBytes 8 v)
  { mem := at_ (at_ (at_ (at_ (at_ (at_ [] 0x800 0x1001) 0x1000 0x2001) 0x2000 0x3001) 0x3000 0x4001) 0x4000 leaf) 0x4008 leaf2
    ctxs := [(0, { regs := [(0x1840, 0x801)] })] }

/-- A leaf of a tier with read and write permission and a frame number. -/
def leafOf (tier frame : Nat) : Nat := 7 + tier * 16 + frame * 2 ^ 20

/-- What a BAR2 access of context 0 comes to. -/
def windowSays (s : State) (offset n : Nat) (data : Option (List (BitVec 8))) (p : Option (Span × State) → Bool) : Bool :=
  (ctxOf s 0).window == [] && p (windowSpan (withWindow s 0 offset n data) 0 (windowCalled s offset n data))

/-- Context 0 with the Page Request Group of page 5 outstanding for core 0, in a halt or not. -/
def pagedState (h : Option Halt) : State :=
  onCtx (running 0 {}) 0 fun c => { c with priGroups := [⟨[5], [0]⟩, ⟨[6], []⟩], ats := [(5, none)], halt := h }

/-- The halt of a HOST_PAGE at core 0. -/
def pagingHalt : Halt := { origin := 0, stream := 0, reason := 0x26, info := 0, cores := [0], hseq := 1, paging := true }

/-- States and operands that meet the hypotheses of `WindowAndHostAnswers`, clause by clause. -/
theorem test_witness_WindowAndHostAnswers : [
    windowSays State.reset 0xFFFF 2 none fun w => match w with
      | some (.ok ps, u) => !poisonPieces u ps &&
          nexts (exec (.bar2Read 0 0xFFFF 2) State.reset) fun t => t.readData == some (readPieces u ps)
      | _ => false,
    windowSays (withReg State.reset 0x1830 (2 ^ 56)) 0 1 none (·.isNone),
    windowSays (mappedState 0) 0 1 none fun w => match w with
      | some (.stop _ (.fault _ _), _) =>
        nexts (exec (.bar2Read 0 0 1) (mappedState 0)) fun t => t.readData == some [0xFF] && (ctxOf t 0).winfault
      | _ => false,
    windowSays (mappedState (leafOf 0 5 + 128)) 0 1 none fun w => match w with
      | some (.stop _ .wait, _) => true
      | _ => false,
    windowSays (mappedState (leafOf 2 5)) 0 1 none fun w => match w with
      | some (.stop _ .ask, _) => true
      | _ => false,
    windowSays State.reset 0 1 (some [7]) fun w => match w with
      | some (.ok _, _) => nexts (exec (.bar2Write 0 0 [7]) State.reset) fun t => t.mem == [(0, 7)]
      | _ => false,
    (let a : Ask := ⟨0, 0, 0xFFFF, 0⟩
     let s := onCtx (mappedState (leafOf 2 5)) 0 fun c => { c with asked := [a] }
     (ctxOf s 0).asked.contains a && askedPage s 0 a == some 5 && find (ctxOf s 0).ats 5 == none &&
       !inGroup (ctxOf s 0) 5 && (ctxOf s 0).window == [] && (ctxOf s 0).itwait == [] && (ctxOf s 0).itheld == [] &&
       (ctxOf s 0).crwait == [] && !(ctxOf s 0).killed &&
       nexts (exec (.atsTranslationCompletion 0 5 none) s) fun t => inGroup (ctxOf t 0) 5),
    (let s := pagedState none
     (ctxOf s 0).priGroups == [⟨[5], [0]⟩, ⟨[6], []⟩] && (ctxOf s 0).halt == none && (ctxOf s 0).ats.length == 1 &&
       nexts (exec (.priResponse 0 true) s) fun t =>
         (ctxOf t 0).priGroups == [⟨[6], []⟩] && (ctxOf t 0).ats == []),
    (let s := pagedState (some pagingHalt)
     (ctxOf s 0).halt.any (fun h => h.paging && !h.quiet && [0].contains h.origin) &&
       nexts (exec (.priResponse 0 true) s) (fun t => (ctxOf t 0).halt == none) &&
       nexts (exec (.priResponse 0 false) s) fun t =>
         (ctxOf t 0).halt == some { pagingHalt with paging := false, reason := 0x27 })].all id = true := by
  decide +kernel

/-- Context 64 in a halt. -/
def haltState (drv : Bool) : State :=
  { ctxs := [(64, { halt := some { origin := 0, stream := 0, reason := 0x11, info := 0, cores := [0], hseq := 1, drv := drv } })] }

/-- A slice of context 64 whose budget is used up, halted for the driver. -/
def budgetState : State :=
  let r := { recordFrom (List.replicate 64 0) with budget := 5, used := 5, home := some 0, state := .running }
  { ctxs := [(64, { records := [(0, r)], halt := (ctxOf (haltState true) 64).halt })]
    cores := [(0, { slice := some ⟨64, 0⟩, halted := true, streams := [(0, { reason := 0x11 })] })] }

/-- States and operands that meet the hypotheses of `DriverAnswersAndResets`, clause by clause. -/
theorem test_witness_DriverAnswersAndResets : [
    (ctxOf (haltState true) 64).halt.any (fun h => h.drv && !h.refused && !budgetStands (haltState true) h),
    (ctxOf budgetState 64).halt.any (fun h => h.drv && budgetStands budgetState h),
    (ctxOf State.reset 64).halt == none,
    (ctxOf (haltState false) 64).halt.any (fun h => !h.drv), (1 : Nat) ≤ 64 && (64 : Nat) < Config.contexts].all id
    = true := by decide +kernel

/-- A swap command: OP, CTX, PAGES, VA 0, VB or SRCF, DEST. -/
def swapImage (op ctx pages vb dest : Nat) : List Byte :=
  padTo 64 (toBytes 1 op ++ toBytes 1 0 ++ toBytes 2 ctx ++ toBytes 4 pages ++ toBytes 8 0 ++ toBytes 8 vb ++ toBytes 8 dest)
/-- Two pages of context 0 and a swap command of a context at tower 7. -/
def swapState (ctx : Nat) (im : List Byte) (result : Option (Nat × Bool × Nat) := none) : State :=
  onCtx (mappedState (leafOf 0 5) (leafOf 0 6)) ctx fun c =>
    { c with swaps := [(7, [{ number := 1, core := 0, image := im, result := result }])] }
/-- The next state of an event. -/
def stepped (i : Instr) (s : State) : State := match exec i s with
  | .next t => t
  | _ => s
/-- The phases of a command that moves one page: its leaf marked, its markers entered, its contents moved. -/
def swapMoves (i : Instr) (im : List Byte) (p : State → Bool) : Bool :=
  let s := swapState 0 im
  let t := stepped i s
  let u := stepped i t
  p s && (swapHead s 0 7).any (fun c => c.page == 0 && c.transit == none && swapCheck s 0 c.image == none &&
      s.mem.wf && (pageLeaves s c).any fun ls => ls.all (fun l => !flag l.1 7) &&
        (swapHead t 0 7).any fun d => d.transit == some { leaves := ls }) &&
    (swapHead t 0 7).any (fun c => c.transit.any fun x => x.ahead == none && !pageUsed t c) &&
    (swapHead u 0 7).any (fun c => c.transit.any fun x => x.ahead == some [] && (pageFrames c x).all (pageReached u 0 0)) &&
    (swapsOf (stepped i u) 0 7).any fun c => c.result == some (0, false, 1)

/-- States and operands that meet the hypotheses of `MemoryErrorsAndSwaps`, clause by clause. -/
theorem test_witness_MemoryErrorsAndSwaps : [
    (coreOf (running 6 {}) 0).slice.isSome && (6 : Nat) < 7,
    retirable State.reset 31 63 && State.reset.module.retirement == none,
    siteRetires (modState { hotSince := [(31, 0)] } 1000000001) 31,
    (let s := modState { hotSince := [(31, 0)] } 1000000001
     (find s.module.hotSince 31).any (fun t => t + 1000000000 < s.elapsed) && retirable s 31 63 &&
       s.module.retirement == none),
    (modState { retirement := some ⟨1, 31, 63, 5⟩ }).module.retirement.any fun r => r.seq == (5 : BitVec 32).toNat,
    (let s := modState { retirement := some ⟨1, 31, 63, 5⟩, confirmed := true }
     s.module.retirement.any (fun r => r.unit < 64) && s.module.confirmed && s.module.retireQueue == []),
    (let w : Walking := { ctx := 0, page := 0, joiners := [⟨0, 6, 0, 0⟩] }
     let s := { mappedState (leafOf 0 5) with
       towers := [(0, { walks := [w] })], cores := (running 6 { waiting := some (.page 0 0) }).cores }
     (towerOf s (towerOfCore 0)).walks.find? (fun w => hasJoined w 0 6) == some w &&
       (me { s with curCore := 0, curStream := 6 }).waiting == some (.page 0 0) &&
       (coreOf s 0).slice.map (·.ctx) == some 0 && (match (walkBy s 0 0 0).1 with
         | .leaf _ e => !flag e.toNat 7
         | _ => false) &&
       nexts (exec (.walkComplete 0 6) s) fun t => (me { t with curCore := 0, curStream := 6 }).waiting == none),
    swapMoves (.migrate 0 7) (swapImage 1 0 1 0 (leafOf 0 7)) fun _ => true,
    swapMoves (.exchange 0 7) (swapImage 2 0 1 0x10000 0) fun _ => true,
    (let im := swapImage 3 0 1 (leafOf 0 5) (leafOf 0 7)
     swapMoves (.promote 0 7) im fun s => srcStands s im),
    (let im := swapImage 3 0 1 (leafOf 0 6) (leafOf 0 7)
     let s := swapState 0 im
     (swapHead s 0 7).any fun c => swapCheck s 0 c.image == none && !srcStands s im),
    (let s := setCore (swapState 0 (swapImage 1 0 1 0 (leafOf 0 7))) 0 { copies := [{ ctx := 0, number := 1, image := [] }] }
     let u := stepped (.migrate 0 7) (stepped (.migrate 0 7) s)
     (swapHead u 0 7).any fun c => c.transit.any fun x => x.ahead == some [(0, 1)] && copyStands u 0 (0, 1)),
    (swapsOf (onHead (swapState 0 (swapImage 1 0 1 0 (leafOf 0 7))) 0 7 fun c => { c with page := 1 }) 0 7).any fun c =>
      swapPages c.image ≤ c.page && swapOp c.image != 3,
    [1, 2, 3].all (fun op =>
      let s := swapState 64 (swapImage op 0 1 0 0)
      (swapHead s 64 7).any fun c => swapOp c.image == op && swapCheck s 64 c.image == some 0x41),
    (let s := swapState 0 (swapImage 4 0 1 0 0)
     (swapHead s 0 7).any fun c => swapCheck s 0 c.image == some 0x40),
    (match swapsOf (swapState 0 [] (some (0, true, 1))) 0 7 with
     | c :: _ => c.result == some (0, true, 1) && !swapWaits (swapState 0 [] (some (0, true, 1))) 0 c
     | _ => false)].all id = true := by decide +kernel

/-- A record whose slice runs on core 0, changed by `f`, as record 5 of context 0. -/
def recordState (f : Record → Record) (k : Core := { slice := some ⟨0, 5⟩ }) : State :=
  let r : Record := { code := 0x1000, frame := 0x2000, join := 0, rows := 1, cols := 1, deadline := 0, est := 0, budget := 4
                      prio := 0, policy := 0, sctx := 0, state := .running, limit := 0, ranges := 0, submit := 0, unit := 7
                      home := some 0, used := 4 }
  { mtime := 1, cores := [(0, k)], ctxs := [(0, { records := [(5, f r)] })] }

/-- Whether record 5 of context 0 has a property. -/
def recordHas (s : State) (p : Record → Bool) : Bool := (recordOf s 0 5).any p

/-- States and operands that meet the hypotheses of `SchedulerAndFreshSlices`, clause by clause. -/
theorem test_witness_SchedulerAndFreshSlices : [
    recordHas (recordState fun r => { r with placed := true }) (·.placed),
    (let s := recordState fun r => { r with stopping := some true }
     recordHas s fun r => r.stopping == some true && stoppable s 0 5 r),
    (let s : State := { mtime := 4000000 }
     (ctxOf s 64).refilled / refillPeriod (ctxOf s 64) != s.mtime / refillPeriod (ctxOf s 64)),
    (let s := recordState id
     recordHas s fun r => !r.missed && r.limit < s.mtime),
    (let s := recordState fun r => { r with used := 8, extended := true }
     recordHas s fun r => onCores r && !r.placed && budgetOf r ≤ r.used && !(coreOf s (r.home.getD 0)).halted && r.extended),
    (let s := recordState id
     recordHas s fun r => onCores r && !r.placed && budgetOf r ≤ r.used && !(coreOf s (r.home.getD 0)).halted && !r.extended),
    (let s := setCore (haltState false) 0 { handler := some { file := {}, used := 65536 } }
     (ctxOf s 64).halt.any fun h => (coreOf s h.origin).handler.any fun v => Config.allowance ≤ v.used),
    (let s := recordState id
     (126 : Nat) < regionCount && (coreOf s 0).slice.isSome && (touchRegion s 0 126).isSome),
    (let s := recordState fun r => { r with placed := true }
     recordHas s fun r => r.placed && r.rows == 1 && r.cols == 1 && r.sctx == 0 &&
       savedCore s 0 5 (r.home.getD 0) == none && r.home.getD 0 < Config.cores && r.code + 8 < 2 ^ 64)].all id = true := by
  decide +kernel

/-! ### Witnesses: engines -/

/-- A Geyser queue of context 0 that is enabled. -/
def openQueue : GQueue := { config := toBytes 2 0 ++ toBytes 1 1 ++ List.replicate 61 0 }

/-- Core 0 with one copy command of number 1, and FEED 1 bound to d0. -/
def copyState (im : List Byte) (status : Option Nat := none) : State :=
  onCore (running 0 {}) 0 fun k => { k with
    copies := [{ ctx := 0, number := 1, image := im, status := status }], dregs := [(0, { feeds := [1] })] }

/-- A copy command image of an OP: 8 bytes, one row of eight 8-bit columns, from 0x1000 to 0x2000. -/
def copyImage (op : Nat) : List Byte :=
  padTo 64 (toBytes 1 op ++ [0, 1, 0] ++ toBytes 4 8 ++ [1, 8] ++ toBytes 6 0 ++ toBytes 8 0x1000 ++ toBytes 8 0x2000)

/-- A grammar command of core 0 and context 0 for slot 65535. -/
def gramCommand (op : Nat) : GramCmd :=
  { ctx := 0, core := 0, record := 9, op := op, notify := true, slot := 65535, arg := 1, vocab := some 0, bad := false }

/-- `engineReaches` as a check. -/
def reaches (s : State) (kind : Nat) (cs : Bool) (a n : Nat) : Bool :=
  match places (onEngine s 0 []) kind (sideEa cs a) n with
  | .ok (ps, t) => t == onEngine s 0 [] && ps.all fun p => match p.1 with
    | .bar0 _ => false
    | _ => true
  | .error _ => false

/-- `copyDone` as a check. -/
def copyIsDone (t : State) (done : Nat) : Bool :=
  (copyOf t 0 1).any fun c => c.started && c.done == done && (c.status == some 0 || c.status == some 0xA2)

/-- The memory that the commands of an engine read: eight bytes at 0x1000. -/
def copyMemory (s : State) : State := { s with mem := writeBytes [] 0x1000 (toBytes 8 0x0807060504030201) }

/-- States and operands that meet the hypotheses of `CopyQueueAndTimelines`, clause by clause. -/
theorem test_witness_CopyQueueAndTimelines_copies : [
    [Instr.copyCmd 0 1, .fillCmd 0 1, .tileCmd 0 1, .feedCmd 0 1].zip [1, 3, 2, 4] |>.all (fun (i, op) =>
      let s := copyMemory (copyState (copyImage op))
      (copyOf s 0 1).any fun c => c.done == 0 && !c.poison && c.stall == none && c.held ++ c.pinned == [] &&
        [0, 1, 7].all (fun o => [1, 8].all fun n => 8 < o + n ||
          (reaches s 6 (cpSrcCs c.image) (cpSrc c.image + o) n && reaches s 7 (cpDstCs c.image) (cpDst c.image + o) n)) &&
        nexts (exec i s) fun t => copyIsDone t (if op == 4 then feedCount c.image else 8)),
    nexts (exec (.copyCmd 0 1) (copyMemory (copyState (copyImage 1)))) fun t =>
      readBytes t.mem 0x2000 8 == [1, 2, 3, 4, 5, 6, 7, 8],
    (let s := onEngine (copyMemory (copyState (copyImage 4))) 0 []
     (List.range (feedCount (copyImage 4))).all fun i => match feedElement s (copyImage 4) i with
       | .ok (_, _, t) => t == s
       | .error _ => false),
    (let s := onEngine (copyMemory (copyState (copyImage 2))) 0 []
     let im := copyImage 2
     holds do
       let (vs, _, s1) ← readTile s (cpBits im) (srcSide im) (cellsOf (cpRows im) (cpCols im))
       let _ ← writeTile s1 (cpBits im) (dstSide im) (cpFlag im 2) ((cellsOf (cpRows im) (cpCols im)).zip vs)
       return true)].all id = true := by decide +kernel

/-- States and operands that meet the hypotheses of `TowerEnginesRun`, clause by clause. -/
theorem test_witness_TowerEnginesRun : [
    (let s : State := { towers := [(7, { queues := [(4095, openQueue)] })] }
     gqEn (gqueueOf s 7 4095) && queueOwner (gqueueOf s 7 4095) == 0 && (gqueueOf s 7 4095).spilled == [] &&
       chipRoom s 7 4095),
    [1, 2, 3, 4].all (fun op =>
      let s := copyState (copyImage op)
      (copyOf s 0 1).any fun c => cpOp c.image == op && !copyBad c.image && c.status == none && !(coreOf s 0).halted &&
        (coreOf s 0).slice.isSome && mayStart (coreOf s 0) c),
    (copyOf (copyState (copyImage 1) (some 0)) 0 1).any (fun c => c.status == some 0 && c.stall == none),
    (copyOf (copyState (copyImage 1) (some 0xA2)) 0 1).any (fun c => c.status == some 0xA2 && c.stall == none &&
      (ctxOf (copyState (copyImage 1) (some 0xA2)) 0).itwait.length < itemRoom),
    (let s := copyState (copyImage 5)
     (copyOf s 0 1).any fun c => c.status == none && copyBad c.image && !(coreOf s 0).halted &&
       (copiesBefore (coreOf s 0) 1).all (·.started)),
    [1, 2, 3].all (fun op =>
      let s : State := { towers := [(7, { gram := [gramCommand op] })] }
      (firstCommand s [] (towerOf s 7).gram).any fun p => p.2.op == op && p.2.owed == none && !malformed s p.2)].all id
    = true := by decide +kernel

/-- A line of thirty one-word instructions, all zero words. -/
def zeroLine : Nat := 2 ^ 30 - 1
/-- Stream 6 of core 0 that waits. -/
def waitingState (w : Waiting) (k : Core → Core := id) : State := onCore (running 6 { waiting := some w }) 0 k
/-- The stream that issues set. -/
def at6 (s : State) : State := { s with curCore := 0, curStream := 6 }

/-- States and operands that meet the hypotheses of `WaitsAreReleased`, clause by clause. -/
theorem test_witness_WaitsAreReleased : [
    (let s := running 6 { pc := 8, line := some (0, zeroLine) }
     canIssue s 0 6 && match heldLine (at6 s) with
     | .ok (line, _) => lineOk line
     | .error _ => false),
    (me (at6 (running 6 { loads := [⟨1, false, 2, 0, 8, none⟩] }))).loads != [],
    (me (at6 (waitingState (.block 5 0)))).waiting == some (.block 5 0),
    (me (at6 (waitingState (.seal 5)))).waiting == some (.seal 5),
    (let s := waitingState (.timeline 7 0 0)
     canIssue s 0 6 && (me (at6 s)).waiting == some (.timeline 7 0 0) && 0 ≤ counterValue (at6 s) 7 0),
    (let s := waitingState (.gate 31) fun k => { k with
       gates := [(31, 2 ^ 63)], terms := [(63, 1)], counters := [(0, ⟨1, 1, true, 0⟩)] }
     canIssue s 0 6 && (me (at6 s)).waiting == some (.gate 31) && openTerm (coreOf s 0) 31 == some 63),
    (let s := waitingState (.front 5 0) fun k => { k with signals := [(5, ⟨[], 0, 0, 0, [], [], 1, [], [], false⟩)] }
     canIssue s 0 6 && (me (at6 s)).waiting == some (.front 5 0) &&
       (sigOf (at6 s) (myKey (at6 s) 5)).any fun g => 0 < g.front),
    (ctxOf (haltState false) 64).halt.any (fun h => !h.quiet && h.reason != 0x16 &&
      h.cores.all fun c => !awaitsGeyser (haltState false) c && !frameWaits (haltState false) 64 c),
    (let s := onCore (running 0 {}) 0 fun k => { k with cycle := 65536 }
     (coreOf s 0).slice.isSome && (coreOf s 0).cycle / 65536 != (coreOf s 0).synced)].all id = true := by decide +kernel

/-! ### Witnesses: scalar instructions -/

/-- Values in g1, g2 and g127. -/
def scalarState : State := ccState [(1, 0x1000), (2, 3), (127, 5)]
/-- Registers that G-class sources name at the ends of their ranges: g127, q6, c1. -/
def sourceRegs : List (BitVec 8) := [0, 0x7F, 0x86, 0x91]
/-- Registers that a destination names: g0, g127, q15, c15. -/
def destRegs : List (BitVec 8) := [0, 0x7F, 0x8F, 0x9F]

/-- The hypotheses of a G-class statement on registers and of its L-class form. -/
def gReads (dst a b : BitVec 8) (old : Bool := false) : Bool := holds do
  let s := scalarState
  if old then discard (readOld s dst)
  let (_, s1) ← readReg s a
  let (_, s2) ← readReg s1 b
  settled (me s2) dst
  return guardHolds s

/-- The hypotheses of the Q-class statements: q5 and q6 live. -/
def qReads (a b : Nat) (dst : BitVec 8) : Bool := holds do
  let s := scalarState
  let _ ← readQ s a
  let _ ← readQ s b
  settled (me s) dst
  return true

/-- States and operands that meet the hypotheses of `IntegerGResults`, clause by clause. -/
theorem test_witness_IntegerGResults :
    (sourceRegs.all fun a => sourceRegs.all fun b => destRegs.all fun d => gReads d a b) = true := by decide +kernel

/-- States and operands that meet the hypotheses of `IntegerQResults`, clause by clause. -/
theorem test_witness_IntegerQResults : [
    qReads 5 6 0x8F, (match readG scalarState (2 * 63 + 1) with
      | .ok v => v == 5
      | .error _ => false), qReads 5 5 0x7F].all id = true := by decide +kernel

/-- States and operands that meet the hypotheses of `DivisionResults`, clause by clause. -/
theorem test_witness_DivisionResults : [
    gReads 0x7F 0x7F 0, gReads 0x8F 0x86 0x7F,
    (let a : Word := 0x8000000000000000
     let b : Word := 0xFFFFFFFFFFFFFFFF
     b != 0 && a.toInt == -2 ^ 63 && b.toInt == -1)].all id = true := by decide +kernel

/-- States and operands that meet the hypotheses of `SelectCompareAndCounts`, clause by clause. -/
theorem test_witness_SelectCompareAndCounts : [
    gReads 0x7F 0x7F 0x86 true, gReads 0x86 0 0x7F true, gReads 0x91 0x91 0x86, qReads 5 6 0x80, gReads 0 0 0,
    ((0 : Word) == 0), ((0x8000000000000000 : Word) != 0)].all id = true := by decide +kernel

/-- States and operands that meet the hypotheses of `SpecialFunctionsWriteBackLate`, clause by clause. -/
theorem test_witness_SpecialFunctionsWriteBackLate :
    (sourceRegs.all fun a => destRegs.all fun d => gReads d a 0) = true ∧
    ([(95, false), (1, false), (0x80, false), (0x8F, false), (0, true), (31, true)].all fun p =>
      let w : WriteBack := ⟨p.1, p.2, 5, 1, 0⟩
      let st : Stream := { wbs := [{ w with remaining := 1 }, w] }
      st.wbs.filter (·.remaining == 0) == [w]) = true ∧
    (let st : Stream := { wbs := [⟨1, false, 5, 1, 4⟩] }
     st.wbs.all (·.remaining != 0)) = true := by decide +kernel

/-- States and operands that meet the hypotheses of `FloatResultsAndRounding`, clause by clause. -/
theorem test_witness_FloatResultsAndRounding : [
    gReads 0x7F 0x7F 0x86, gReads 0x86 0x86 0x7F true, gReads 0x9F 0 0x91].all id = true := by decide +kernel

/-- States and operands that meet the hypotheses of `SpecialAndControlRegistersMove`, clause by clause. -/
theorem test_witness_SpecialAndControlRegistersMove : [
    gReads 0x7F 0x7F 0, controlValueOk 0x00F 0, controlValueOk 0x09F 0xFFFFFFFFFFFFFFFF, !controlValueOk 0x000 0x30000,
    [0x005, 0x006].contains 0x006].all id = true := by decide +kernel

/-- An M-class instruction on g1 as BASE. -/
def memFields (width : BitVec 2) (off : BitVec 18) : MFields := ⟨0x7F, 1, 2, width, true, false, false, 0, off⟩
/-- The hypotheses of a load or store that does not go to a peer module. -/
def memReads (s : State) (kind : Nat) (f : MFields) (p : List (Loc × Nat) → Word → Bool) : Bool := holds do
  settled (me s) f.reg
  let b ← readGQ s f.base
  let (_, s0) ← readReg s f.reg
  let (ps, s1) ← places s0 kind (b + f.off.signExtend 64) (2 ^ f.width.toNat)
  settled (me s1) f.reg
  return guardHolds s && (me s).waiting == none && !nestRunning s && (me s).loads == [] && (me s1).loads == [] && !poisonPieces s1 ps &&
    p ps (b + f.off.signExtend 64)
/-- A piece of HBM or core store. -/
def plainPiece (p : Loc × Nat) : Bool := match p.1 with
  | .hbm _ | .store _ _ => true
  | _ => false
/-- Core 0 with its region 0 mapped and an area descriptor of one 8-byte element at 0x100 for area 15. -/
def areaState : State :=
  { onCore (ccState [(1, 0), (2, 3)]) 0 fun k => { k with regions := [⟨0, 0, 0, some 0, false⟩] } with
    mem := writeBytes [] (2 ^ 48 + 8 * 15) (toBytes 8 (8 * 2 ^ 32 + 0x100)) }
/-- Core 0 whose page 0 lies in module 2. -/
def peerState : State :=
  { mappedState (leafOf 1 5 + 2 * 256) with
    cores := [(0, { coreOf scalarState 0 with tlb := [⟨0, 0, 65536, BitVec.ofNat 64 (leafOf 1 5 + 2 * 256)⟩] })]
    module := { modid := 1, routes := [(2, 0xBF)] } }

/-- States and operands that meet the hypotheses of `LoadsReadMemory`, clause by clause. -/
theorem test_witness_LoadsReadMemory : [
    memReads scalarState 0 (memFields 3 0) (fun ps ea => ps.all plainPiece && ea.toNat % 8 == 0),
    memReads scalarState 0 (memFields 0 0x3FFFF) (fun ps _ => ps.all plainPiece),
    (holds do
      let s := peerState
      let f := memFields 3 0
      settled (me s) f.reg
      let b ← readGQ s f.base
      let (ps, s1) ← places s 0 (b + f.off.signExtend 64) 8
      return guardHolds s && !inHandler s && !poisonPieces s1 ps && match ps with
        | [(.peer _ _, _)] => true
        | _ => false),
    memReads scalarState 0 (memFields 3 7) (fun _ ea => ea.toNat % 8 != 0)].all id = true := by decide +kernel

/-- States and operands that meet the hypotheses of `StoresWriteOnlyTheirBytes`, clause by clause. -/
theorem test_witness_StoresWriteOnlyTheirBytes : [
    (holds do
      let s := areaState
      let b ← readGQ s 1
      let ea := b + csAddress 0xFFFF8
      let (ps, _) ← places s 1 ea 8
      return guardHolds s && (me s).waiting == none && eaSpace ea == 0x80 && ps.all plainPiece &&
        (myCore s).slice.any fun l => (regionAt (myCore s) l.ctx l.index 0).isSome),
    memReads scalarState 1 (memFields 3 0) (fun ps ea => ps.all plainPiece && ea.toNat % 8 == 0),
    memReads scalarState 1 (memFields 3 0x3FFFF) (fun ps _ => ps.all plainPiece)].all id = true := by decide +kernel

/-- States and operands that meet the hypotheses of `AtomicsReadAndWrite`, clause by clause. -/
theorem test_witness_AtomicsReadAndWrite :
    ([Amo.add, .and, .or, .xor, .min, .max, .swp, .cas].all fun m =>
      memReads scalarState 2 (memFields 3 0) fun ps ea =>
        ea.toNat % 8 == 0 && ps.all fun q => amoAllowed m false q.1 && completerOk scalarState 0 q.1) = true := by decide +kernel

/-- LDP and STP of element value(A) + d of area 15 with 8-byte elements. -/
def areaFields (d : BitVec 6) : EFields := ⟨0x7F, 1, 2, d, 0x3F⟩

/-- States and operands that meet the hypotheses of `ParameterAreaAccess`, clause by clause. -/
theorem test_witness_ParameterAreaAccess : [
    (holds do
      let s := areaState
      let f := areaFields 0
      let a ← readGQ s f.a
      settled (me s) f.dst
      let (d, s1) ← readArea s (f.n12.toNat % 16) (a.toInt + f.opt.toInt)
      let o ← areaOffset d (f.n12.toNat % 16) (2 ^ (f.n12.toNat / 16 % 4)) (a.toInt + f.opt.toInt)
      let (_, s2) ← loadCs s1 o (2 ^ (f.n12.toNat / 16 % 4)) (areaInfo (f.n12.toNat % 16) (a.toInt + f.opt.toInt))
      settled (me s2) f.dst
      let (v, s3) ← readReg s1 f.b
      let _ ← storeCs s3 o (toBytes (2 ^ (f.n12.toNat / 16 % 4)) v.toNat) 0
      return guardHolds s),
    (let d : Area := ⟨0x100, 8⟩
     let i : Int := 0
     0 ≤ i && (i + 1) * 8 ≤ d.len),
    (let d : Area := ⟨0x100, 8⟩
     let i : Int := 1
     i < 0 || (d.len : Int) < (i + 1) * 8),
    ((-1 : Int) < 0)].all id = true := by decide +kernel

/-- States and operands that meet the hypotheses of `OrderingInstructionsComplete`, clause by clause. -/
theorem test_witness_OrderingInstructionsComplete : [
    guardHolds scalarState && (me scalarState).loads == [] && !nestRunning scalarState,
    (holds do
      let (a, n) ← codeRange ⟨0, 1, 2, 0, 0⟩ scalarState
      return guardHolds scalarState && eaSpace a == 0 && n != 0),
    (holds do
      let a ← readGQ scalarState 1
      return eaSpace (a + (0xFFF : BitVec 12).signExtend 64) == 0),
    (let s := { mappedState (leafOf 0 5) with cores := scalarState.cores }
     match (translate s (some s.curCore) (myCtx s) 0 0xFFF).1 with
     | .miss => true
     | _ => false)].all id = true := by decide +kernel

/-! ### Witnesses: control, tasks and traps -/

/-- A line of thirty one-word instructions, each a target, the first a function entry. -/
def targetLine : Nat := 2 ^ 30 - 1 + (2 ^ 31 - 1) * 2 ^ 32
/-- `cc` of core 0 at word 2 of such a line, with `lr` there. -/
def controlState (g : Map Word) : State :=
  onMe (onCore (ccState g) 0 fun k => { k with fetched := [(0, targetLine)] }) fun st => { st with lr := 8 }
/-- Whether a computation answers. -/
def answers {α : Type} (x : Act α) : Bool := x.toBool
/-- Whether a target is accepted. -/
def targetOk (s : State) (entry : Bool) (t : Word) : Bool := answers (checkTarget s s.curCore (myCtx s) entry t)

/-- States and operands that meet the hypotheses of `TransfersOfControl`, clause by clause. -/
theorem test_witness_TransfersOfControl : [
    (let s := controlState []
     targetOk s false (branchTo s (29 : BitVec 20).toInt) && cValue (me s) 1),
    !cValue (me (controlState [])) 15,
    targetOk (controlState []) true (branchTo (controlState []) (0 : BitVec 20).toInt),
    (let s := controlState []
     guardHolds s && targetOk s true (branchTo s (0 : BitVec 32).toInt) && targetOk s false (branchTo s (29 : BitVec 32).toInt)),
    (let s := controlState []
     targetOk (emptyIf s false 0) false (me s).lr && targetOk (emptyIf s false 0) true (me s).lr),
    (holds do
      let s := controlState [(127, 124)]
      let (a, s1) ← readReg s 0x7F
      let s2 ← checkTarget (emptyIf s1 true 0x7F) s1.curCore (myCtx s1) false a
      settled (me s2) 0x7F
      return guardHolds s)].all id = true := by decide +kernel

/-- States and operands that meet the hypotheses of `LoopsFormGuards`, clause by clause. -/
theorem test_witness_LoopsFormGuards : [
    (holds do
      let s := controlState [(1, 1), (2, 8)]
      let (n, s1) ← readReg s 1
      let (st, _) ← readReg s1 2
      return guardHolds s && 1 ≤ st.toNat && st.toNat ≤ 8 && n != 0),
    (holds do
      let s := controlState [(1, 0), (2, 1)]
      let (n, s1) ← readReg s 1
      let (st, s2) ← readReg s1 2
      return guardHolds s && 1 ≤ st.toNat && st.toNat ≤ 8 && n == 0 &&
        targetOk (emptySources s2 false 1 (.reg 2)) false (branchTo (emptySources s2 false 1 (.reg 2)) 29)),
    (let s := onMe (controlState []) fun st => { st with ltrip := 2, lstage := 1 }
     (me s).lpass.toNat + 2 < (me s).ltrip.toNat + (me s).lstage.toNat && targetOk s false (branchTo s 0)),
    (let s := onMe (controlState []) fun st => { st with ltrip := 1, lstage := 1 }
     (me s).ltrip.toNat + (me s).lstage.toNat ≤ (me s).lpass.toNat + 2),
    (7 : Nat) < 8].all id = true := by decide +kernel

/-- States and operands that meet the hypotheses of `PredicatedOffDoesNothing`, clause by clause. -/
theorem test_witness_PredicatedOffDoesNothing :
    (let s := { controlState [] with guard := { pred := 15 } }
     !guardHolds s && (me s).waiting == none) = true := by decide +kernel

/-- Core 0 with the queues of engines 0, 3 and 4 full. -/
def fullQueues : State :=
  { onCore (ccState []) 0 fun k => { k with copies := List.replicate 64 { ctx := 0, number := 1, image := [] } } with
    towers := [(0, { commands := List.replicate 256 (geyserFrom 0 0 []), gram := List.replicate 256 (grammarFrom 0 0 0 []) })] }

/-- The hypotheses of a PUSH to core 0 but for its queue. -/
def pushes (s : State) : Bool := holds do
  let _ ← readImage s 120 8
  settled (me s) 0x7F
  return guardHolds s && !nestRunning s && placeTarget s.curCore 0 == some 0 && (sliceCores s s.curCore).contains 0

/-- States and operands that meet the hypotheses of `CopyQueueAndTimelines`, clause by clause. -/
theorem test_witness_CopyQueueAndTimelines_push : pushes scalarState = true ∧ pushes fullQueues = true ∧
    (∀ e ∈ [0, 3, 4], queueFull fullQueues e 0) ∧ ∀ e ≤ 4, ¬ queueFull scalarState e 0 := by
  refine ⟨by decide +kernel, by decide +kernel, ?_, ?_⟩
  · simp only [List.mem_cons, List.not_mem_nil, or_false, forall_eq_or_imp, forall_eq, queueFull]
    decide +kernel
  · intro e h
    match e with
    | 0 | 3 | 4 => simp only [queueFull]; decide +kernel
    | 1 | 2 => exact Nat.not_succ_le_zero _

/-- The hypotheses of a PUSH that finds the queue of a tower's swap or collective commands full. -/
theorem test_witness_CopyQueueAndTimelines_full :
    let s := onCtx (ccState []) 0 fun c => { c with
      swaps := [(0, List.replicate (Config.engineDepth + 1) { number := 0, core := 0, image := [] })]
      cols := [(0, List.replicate (Config.engineDepth + 1) ⟨0, [], none, 0⟩)] }
    queueFull s 1 0 ∧ queueFull s 2 0 := by
  refine ⟨?_, ?_⟩ <;> exact Nat.le_of_eq (List.length_replicate ..).symm

/-- States and operands that meet the hypotheses of `CopyQueueAndTimelines`, clause by clause. -/
theorem test_witness_CopyQueueAndTimelines : [
    (holds do
      let s := scalarState
      let v ← readGQ s 0
      let c ← placeReg s 0
      settled (me s) 0x7F
      return guardHolds s && v.toNat ≤ (tlOf s (myCtx s) (tlKey 10 c)).value),
    (holds do
      let s := scalarState
      let v ← readGQ s 127
      let c ← placeReg s 0
      return (tlOf s (myCtx s) (tlKey 0 c)).value < v.toNat),
    (let t : Timeline := { value := 4 }
     t.done == [] && t.value + 1 < 6 && !t.done.contains (t.value + 1) && 4 ≤ t.value),
    (let t : Timeline := { value := 4, done := [6] }
     t.value < 6 && 6 ≤ (tlComplete t 5).value && !t.done.contains (t.value + 1) && [5, 6].all fun j =>
       j == 5 || t.done.contains j)].all id = true := by decide +kernel

/-- A gate 31 that is open by term 63 and counter 31. -/
def openGate : State := onCore scalarState 0 fun k => { k with
  gates := [(31, 2 ^ 63)], terms := [(63, 2 ^ 31)], counters := [(31, ⟨65535, 65535, true, 63⟩)] }

/-- States and operands that meet the hypotheses of `StreamsAndCrossbar`, clause by clause. -/
theorem test_witness_StreamsAndCrossbar : [
    (holds do
      let s := controlState [(6, 8)]
      let pcs ← (maskStreams 0x40).mapM fun n => readG s (1 + n - 1)
      let _ ← checkEntries s pcs
      return guardHolds s && (me s).loads == [] && (maskStreams 0x40).all (fun n => (streamOf (myCore s) n).status == .idle) &&
        (maskStreams 0x40).contains 1 == false),
    (let s := scalarState
     s.curStream == 0 && guardHolds s && (maskStreams 0x7E).all fun n => (streamOf (myCore s) n).status == .idle),
    (let s := onCore scalarState 0 fun k => { k with streams := put k.streams 6 { status := .running } }
     s.curStream == 0 && guardHolds s && (me s).loads == [] && (maskStreams 0x40).contains 6 &&
       (streamOf (myCore s) 6).status != .idle),
    (let s := running 6 {}
     s.curStream != 0 && guardHolds s && !nestRunning s && (me s).loads == []),
    openTerm (myCore openGate) 31 == some 63, openTerm (myCore scalarState) 31 == none,
    (holds do
      let s := ccState [(1, word (4 + 56 * 2 ^ 16))]
      let im ← readImage s 1 8
      return guardHolds s && !nestRunning s && imageAt im 0 1 == 4 && field (imageAt im 2 1) 3 3 == (0xA7 : BitVec 8).toNat - 0xA0 &&
        (queueCopy s s.curCore (myCtx s) im).any fun p => answers (settled (me p.2) 0x7F))].all id = true := by
  decide +kernel

/-- A record store of 2^10 slots for context 0, and g registers. -/
def taskState (g : Map Word) : State := onCtx (ccState g) 0 fun c => { c with regs := put c.regs 0x1858 10 }

/-- States and operands that meet the hypotheses of `TaskInstructionsComplete`, clause by clause. -/
theorem test_witness_TaskInstructionsComplete : [
    (holds do
      let s := taskState [(1, 0x1000), (2, word (2 ^ 48 + 2 ^ 56))]
      let im ← readImage s 1 8
      return guardHolds s && recordFieldsOk im && !rangesWait s 0 (imageAt im 34 6) &&
        match accept s (myCtx s) (recordFrom im) with
        | (.at _, t) => answers (settled (me t) 0x7F)
        | _ => false),
    (holds do
      let s := taskState [(1, 0x1000), (2, word (2 ^ 48 + 2 ^ 56)), (5, word (2 ^ 16))]
      let im ← readImage s 1 8
      return recordFieldsOk im && !rangesWait s 0 (imageAt im 34 6) && match accept s (myCtx s) (recordFrom im) with
        | (.badRanges, _) => true
        | _ => false),
    (holds do
      let s := ccState [(1, 0x1000), (2, word (2 ^ 48 + 2 ^ 56))]
      let im ← readImage s 1 8
      return recordFieldsOk im && !rangesWait s 0 (imageAt im 34 6) && match accept s (myCtx s) (recordFrom im) with
        | (.full, _) => true
        | _ => false),
    (holds do
      let s := taskState [(1, 1023)]
      let v ← readGQ s 1
      return guardHolds s && v.toNat < 2 ^ 22 && v.toNat < storeSize (ctxOf s (myCtx s))),
    (holds do
      let s := scalarState
      let ea ← readGQ s 1
      let (im, s1) ← loadBytes s 2 ea 32
      let _ ← storeBytes s1 2 (ea + 27) (toBytes 1 (imageAt im 27 1 + 1))
      return ea.toNat % 32 == 0 && eaSpace ea == 0 && !poisonVirtual s 0 ea.toNat 32 && imageAt im 25 1 % 128 == myCtx s1 && imageAt im 27 1 % 2 == 0),
    (let e : Entry := ⟨0, 0, 0, 0, 0, false, 0, 0, 0, 0, 0, 0, 0, false, false⟩
     let a := batchEntry (bufferAt openQueue 0) 0
     let s := { scalarState with
       poison := [a / 64], towers := [(0, { queues := [(5, { openQueue with batches := [(0, [e])] })] })] }
     a % 32 == 0 && a < 2 ^ 56 && (joinLost s (myCtx s) a).isSome),
    (let s := scalarState
     (List.range 6).all (fun n => (streamOf (myCore s) (n + 1)).status == .idle) && (myCore s).copies == []),
    (let s := scalarState
     (me s).loads == [] && barrierDone (onCore s s.curCore fun k => arrive k 255) s.curCore 255),
    (let s := recordState fun r => { r with cols := 2 }
     guardHolds s && (me s).loads == [] && !barrierDone (onCore s s.curCore fun k => arrive k 255) s.curCore 255),
    (let s := recordState id
     guardHolds s && (myCore s).slice == some ⟨0, 5⟩ && recordHas s fun r => !r.extended),
    (holds do
      let s := ccState [(1, 0x40000000), (2, 1)]
      let a ← readGQ s 1
      let n ← readGQ s 2
      return a.toNat % pageSize 2 == 0 && a.toNat + n.toNat * pageSize 2 ≤ 2 ^ 56 &&
        !loadsMeet s (myCtx s) a.toNat (n.toNat * pageSize 2)),
    !loadsMeet scalarState 0 0 (2 ^ 56),
    (holds do
      let s := ccState [(1, word (2 ^ 63)), (2, 1)]
      let a ← readGQ s 1
      let _ ← readGQ s 2
      return eaSpace a != 0)].all id
    = true := by decide +kernel

/-- States and operands that meet the hypotheses of `TrapsTakeException`, clause by clause. -/
theorem test_witness_TrapsTakeException : (guardHolds scalarState &&
    !virtualWaits scalarState (myCtx scalarState) 0 (frameAt scalarState (myCtx scalarState) scalarState.curCore + 32) 1) =
    true := by decide +kernel

/-- States and operands that meet the hypotheses of `ExceptionEntry`, clause by clause. -/
theorem test_witness_ExceptionEntry_slice : [0x10, 0x11].all (fun reason =>
    let s := recordState id
    (coreOf s 0).handler == none && (ctxOf s (coreCtx s 0)).halt == none && (coreOf s 0).slice.isSome &&
      (sliceRecord s 0).any fun r => recordCores r == [0] &&
        let t := takeException s 0 0 reason 7 8
        (coreOf t 0).halted && (streamOf (coreOf t 0) 0).info == 7 &&
          (streamOf (coreOf t 0) 0).faulted == (reason == 0x10) && (ctxOf t 0).halt.any fun h => h.cores == [0]) = true := by
  decide +kernel

/-- States and operands that meet the hypotheses of `PredicatedOffDoesNothing`, clause by clause. -/
theorem test_witness_PredicatedOffDoesNothing_waits :
    (let s := { running 6 { loads := [⟨0x85, false, 2, 0, 8, none⟩], qlive := 0x20 } with guard := { pred := 15 } }
     !guardHolds s && (me s).waiting == none && (match settledSources s true 0x85 (.reg 0) with
       | .error e => nexts (exec (.addG ⟨7, 0x85, 0, true, 0⟩) s) (· == trapState s e)
       | .ok _ => false)) = true := by decide +kernel

/-- States and operands that meet the hypotheses of `ExceptionEntry`, clause by clause. -/
theorem test_witness_ExceptionEntry :
    (let s : State := { cores := [(127, { slice := some ⟨64, 0⟩ })] }
     (coreOf s 127).handler == none && (ctxOf s (coreCtx s 127)).halt == none && (0xFFFF : Nat) != 0x10 &&
       (0xFFFF : Nat) < 2 ^ 16 && (127 : Nat) < Config.cores && (coreOf s 127).slice.isSome) = true := by decide +kernel

/-! ### Witnesses: signals -/

/-- A declaration of f32 samples of four elements, depth 64, or deep with depth 192, window 128 and blocks at 0x100000. -/
def sigImage (deep : Bool) : List Byte :=
  toBytes 1 (3 + 16 * bit01 deep) ++ toBytes 1 0 ++ toBytes 2 4 ++ toBytes 4 (if deep then 191 else 63) ++ toBytes 2 1 ++
    toBytes 2 0 ++ toBytes 4 (if deep then 128 else 0) ++ toBytes 8 0 ++ toBytes 8 (if deep then 0x100000 else 0) ++
    toBytes 4 0x30000 ++ toBytes 28 0

/-- Core 0 in stream context 1 with signal 1023 given; the declaration image lies at core-store offset 0x3000. -/
def sigState (g : Option Signal) (regs : Map Word := []) : State :=
  let s := onCtx (ccState regs) 0 fun c => { c with
    descs := [(1, { sigtab := 0x1000, heads := 0x20000, bound := g.isSome, nsig := g.toList.length })] }
  { onCore s 0 fun k => { k with
      sctx := 1, regions := [⟨0, 0, 0, some 0, false⟩], signals := g.toList.map fun g => (sigKey 0 1 1023, g) } with
    mem := writeBytes [] (2 ^ 48 + 0x3000) (sigImage false) }

/-- Signal 1023 with its head. -/
def signalAt (deep : Bool) (head : Nat) (marked : List Nat := []) (blocks : Map Block := []) : Signal :=
  { entry := sigImage deep, table := 0x1000 + 64 * 1023, headAt := 0x20000 + 16 * 1023, head := head, marked := marked
    front := marked.length, blocks := blocks }

/-- States and operands that meet the hypotheses of `SignalsDeclareAndAdvance`, clause by clause. -/
theorem test_witness_SignalsDeclareAndAdvance : [
    (holds do
      let s := sigState none [(1, 0x3000)]
      let o ← readGQ s 1
      let (im, s1) ← loadCs s o.toNat 64 0
      let d := descOf s1 (myCtx s1) (myCore s1).sctx
      let (v, s2) ← entryDeclared s1 (d.sigtab + 64 * 1023)
      let _ ← declare s2 1023 im
      return guardHolds s && sctxOk s && o.toNat % 64 == 0 && o.toNat + 64 ≤ Config.csTop &&
        !v && sigOf s2 (myKey s2 1023) == none && sigImageOk im 1023 d.sigtab d.heads),
    (holds do
      let s := sigState (some (signalAt false 0))
      let g ← namedSignal s 1023
      drainSignal s 1023
      let _ ← writeEntry s g 0 (toBytes 1 (imageAt g.entry 0 1 % 64))
      return guardHolds s),
    (holds do
      let s := sigState (some (signalAt false 5))
      let g ← namedSignal s 1023
      drainSignal s 1023
      let s1 ← writeEntry s g 48 (toBytes 8 (descOf s (myCtx s) (myCore s).sctx).now)
      let _ ← scribbleHead s1 g
      return guardHolds s),
    (holds do
      let s := sigState (some (signalAt false 0))
      let now := (descOf s (myCtx s) (myCore s).sctx).now
      let _ ← tickPoint s ((contextSignals s).filter fun p => advances (now + 1) p.2)
      return guardHolds s && sctxOk s && now < 2 ^ 64 - 1 && usedSignals s == [] &&
        roomWanted (now + 1) (contextSignals s) == [] && (contextSignals s).length == 1 &&
        ((myCore s).signals.map (·.1)).eraseDups.length == (myCore s).signals.length),
    (holds do
      let s := sigState none [(1, 0xFFFFF)]
      let v ← readGQ s 1
      return v.toNat < 2 ^ 20 && !(descOf s (myCtx s) v.toNat).bound && usedSignals s == []),
    (let s := sigState (some (signalAt false 0))
     (descOf s 0 1).bound && (descOf s 0 1).bcore == s.curCore && usedSignals s == [])].all id = true := by
  decide +kernel

/-- The hypotheses of a TAPLD of element x of signal 1023 at a lag, on a state. -/
def tapReads (s : State) (f : EFields) : Bool := holds do
  let r := resolve s [1023]
  let g ← namedSignal r 1023
  let x ← readGQ r f.a
  let lag ← lagOf r f
  let j : Int := (headOf r 1023 : Int) - lag
  let s1 ← openFar r 1023 g [j]
  let (_, s2) ← sampleElem s1 1023 g j x.toNat
  settled (me s2) f.dst
  return guardHolds r && lag < sigDepth g.entry && x.toNat < sigFrame g.entry && (lag != 0 || g.marked.contains (headOf r 1023)) &&
    (!flag f.opt.toNat 5 || j < g.front)

/-- States and operands that meet the hypotheses of `TapsReadAndWriteElements`, clause by clause. -/
theorem test_witness_TapsReadAndWriteElements : [
    tapReads (sigState (some (signalAt false 0 [0])) [(1, 3)]) ⟨0x7F, 1, 0, 0x20, 1023⟩,
    tapReads (sigState (some (signalAt false 0)) [(1, 3), (2, 63)]) ⟨0x7F, 1, 2, 0x10, 1023⟩,
    (let g := signalAt false 5
     !g.tainted && !isAbsent g 5 && isNear g 5 && find (look [] g.samples 5) 3 == none &&
       find (look [] { g with samples := [(5, [(3, 7)])] }.samples 5) 3 == some 7),
    (holds do
      let s := sigState none
      let (ps, t) ← csSpan s s.curCore (sampleAt (sigImage false) 5 + 3 * 4) 4 0
      return !poisonPieces t ps),
    (sigOf (sigState (some (signalAt false 5))) (sigKey 0 1 1023)).isSome,
    (holds do
      let s := sigState (some (signalAt false 63)) [(1, 3)]
      let f : EFields := ⟨0x7F, 1, 0, 0, 1023⟩
      let r := resolve s [1023]
      let g ← namedSignal r 1023
      let lag ← lagOf r f
      let x ← readGQ r f.a
      let (v, s1) ← readReg r f.dst
      return v == 0 && guardHolds (markSample (putElem s1 (myKey s1 1023) g (headOf r 1023 - lag) x.toNat v.toNat)
        (myKey s1 1023) (headOf r 1023 - lag)) && guardHolds r && lag < sigDepth g.entry && lag ≤ headOf r 1023 &&
        !(blockOf g ((headOf r 1023 - lag) / 64)).sealed && x.toNat < sigFrame g.entry),
    (holds do
      let s := sigState (some (signalAt false 0)) [(1, 3)]
      let f : EFields := ⟨0x7F, 1, 0, 0, 1023⟩
      let r := resolve s [1023]
      let g ← namedSignal r 1023
      let b ← readGQ r f.b
      let j := sampleOfTick g.entry b.toNat
      let x ← readGQ r f.a
      let (v, s1) ← readReg r f.dst
      return v == 0 && guardHolds s1 && sigStamp g.entry ≤ b.toNat && b.toNat ≤ (descOf r (myCtx r) (myCore r).sctx).now && j ≤ headOf r 1023 &&
        headOf r 1023 - j < sigDepth g.entry && !(blockOf g (j / 64)).sealed && x.toNat < sigFrame g.entry),
    (0 < sigDiv (sigImage false) && (0 : Nat) < firstTick (sigImage false) && firstTick (sigImage false) ≤ 1)].all id
    = true := by decide +kernel

/-- States and operands that meet the hypotheses of `SealsEvictionsAndPositions`, clause by clause. -/
theorem test_witness_SealsEvictionsAndPositions : [
    (holds do
      let s := sigState (some (signalAt true 0 [] [(0, { sealed := true, stamp := some 0 })]))
      let g ← namedSignal s 1023
      return guardHolds s && sigDeep g.entry && (me s).waiting != some (.seal 1023) && oldestOpen g == none && openSeals g == []),
    (holds do
      let s := sigState (some (signalAt true 63))
      let g ← namedSignal s 1023
      let _ ← beginSeal s (myKey s 1023) 0 g
      return sigDeep g.entry && oldestOpen g == some 0 && (ctxOf s 0).itwait.length < itemRoom),
    (holds do
      let s := onMe (sigState (some (signalAt true 0 [] [(0, { sealed := true })]))) fun st => { st with waiting := some (.seal 1023) }
      let g ← namedSignal s 1023
      return sigDeep g.entry && (me s).waiting == some (.seal 1023) && openSeals g != []),
    (holds do
      let s := sigState (some (signalAt true 191)) [(1, 0)]
      let g ← namedSignal s 1023
      let v ← readGQ s 1
      settled (me s) 0x7F
      return sigDeep g.entry && v.toNat ≤ g.head && g.head - v.toNat < sigDepth g.entry && !(blockOf g (v.toNat / 64)).sealed),
    (holds do
      let s := sigState (some (signalAt true 63 [] [(0, { sealed := true, stamp := some 0 })])) [(1, 63)]
      let g ← namedSignal s 1023
      let v ← readGQ s 1
      let (_, _) ← places s 9 (word (blockAt g.entry (v.toNat / 64))) 8
      return v.toNat ≤ g.head && (blockOf g (v.toNat / 64)).sealed && !isOverwritten g (v.toNat / 64)),
    isOverwritten (signalAt true 255 [] [(3, { sealed := true, stamp := some 0 })]) 0].all id
    = true := by decide +kernel

/-! ### Witnesses: regions and tiles -/

/-- An area field: its number and g0 as offset register. -/
def areaField (n : Nat) : BitVec 24 := BitVec.ofNat 24 (2 + 4 * n)
/-- A field that names a register. -/
def specField (r : BitVec 8) : BitVec 24 := BitVec.ofNat 24 (3 + 4 * r.toNat)
/-- A field that names signal 1023 at lag 0. -/
def tapField : BitVec 24 := BitVec.ofNat 24 (4 * 1023)

/-- Core-store contents: areas 13, 14 and 15 of 0x1000 bytes; area 13 starts with T = s = 1 and zeros, and at word 8 with
a window descriptor; at byte 0x80 stands the header of a conditional stream of one slot, empty, at 0xC0 that of a full one. -/
def areasMem : Memory :=
  let at_ := fun (m : Memory) (o n v : Nat) => writeBytes m (2 ^ 48 + o) (toBytes n v)
  let m := at_ (at_ (at_ [] 0x68 8 (2 ^ 44 + 0x8000)) 0x70 8 (2 ^ 44 + 0x9000)) 0x78 8 (2 ^ 44 + 0xA000)
  let m := at_ m 0x8000 8 (0x3F800000 * (2 ^ 32 + 1))
  let m := at_ m 0x8040 16 (1 + 2 ^ 16 + 2 ^ 32 + 2 ^ 64 + 2 ^ 96 + 2 ^ 104)
  at_ (at_ m 0x8088 4 1) 0x80C4 8 (2 ^ 32 + 1)

/-- The vector stream over those areas, with `sr.vn` and signal 1023. -/
def vecState (n sweep : Nat) (ofs : Nat := 0) (head : Nat := 0) : State :=
  let s := sigState (some (signalAt false head (List.range (head + 1))))
  { onCore s 0 fun k => { k with
      vn := BitVec.ofNat 32 (n + 2 ^ 16 * sweep), vo := [(2, BitVec.ofNat 16 ofs)]
      streams := [(1, { status := .running, g := [(1, 3)], qlive := 0xFFFF })] } with
    curStream := 1, mem := areasMem }

/-- f32 in areas 15 (RD), 14 (RA) and 13 (RB). -/
def vecFields : VFields := ⟨10, 0, areaField 15, areaField 14, areaField 13⟩

/-- Whether elements in order answer. -/
def runs (one : Nat → State → Act State) (n : Nat) (s : State) : Bool := answers (inOrder one n 0 s)

/-- States and operands that meet the hypotheses of `ElementWiseResults`, clause by clause. -/
theorem test_witness_ElementWiseResults :
    (elementOps.all fun p => holds do
      let f := { vecFields with rb := if p.useB then areaField 13 else specField 0xFA }
      let s := vecState 2 0
      let (o, t) ← openElements (regionsNamed s f) f (vecN s) (p.aType f)
        (if p.useB then some f.ty.toNat else none) p.useOld false false
      return guardHolds s && (me s).progress == 0 && vecN s != 0 && runs (oneElement p f o) (vecN s) t) = true ∧
    vecN (vecState 0 0) = 0 := by decide +kernel

/-- The hypotheses that open a source and gather it. -/
def gathers (s : State) (a : Operand) (p : State → Bool) : Bool := holds do
  let s ← checkSource s a (vecN s) 1 false
  match gathered a (vecN s) s with
  | (t, none) => return p t
  | _ => return false

/-- States and operands that meet the hypotheses of `ReductionsAndDotProducts`, clause by clause. -/
theorem test_witness_ReductionsAndDotProducts : [
    [specField 0x7F, areaField 15].all (fun d => holds do
      let f := { vecFields with ty := 2, rd := d }
      let s := vecState 2 0
      let (a, s1) ← openOperand (regionsNamed s f) f.ra 1 f.ty.toNat
      let (r, s2) ← openResult s1 f
      checkResult r [a]
      return (me s).latch == [] && guardHolds s && gathers s2 a fun t =>
        answers (putResult t f.ty.toNat r 0) && answers (settled (me t) (regionSpec f.rd))),
    (holds do
      let f := vecFields
      let s := vecState 2 0
      let (a, s1) ← openOperand (regionsNamed s f) f.ra 1 f.ty.toNat
      let (b, s2) ← openOperand s1 f.rb 2 f.ty.toNat
      let (r, s3) ← openResult s2 f
      checkResult r [a, b]
      let s4 ← checkSource s3 a (vecN s) 1 false
      let s5 ← checkSource s4 b (vecN s) 1 false
      match gather (fun j s => do
        let (x, s) ← readElem s a j
        let (y, s) ← readElem s b j
        return ([word x, word y], s)) (vecN s) 0 s5 with
      | (t, none) => return vecSweep s == 0 && answers (putResult t f.ty.toNat r 0)
      | _ => return false),
    (holds do
      let f := { vecFields with ty := 2, rb := tapField }
      let s := vecState 4 2 0 1
      let (a, s1) ← openOperand (regionsNamed s f) f.ra 1 f.ty.toNat
      let (b, s2) ← openOperand s1 f.rb 2 f.ty.toNat
      let (d, s3) ← openOperand s2 f.rd 0 f.ty.toNat
      checkFeedback d [a, b]
      let s4 ← checkSource s3 a (vecN s) 1 false
      let s5 ← checkSource s4 b (vecN s) (vecSweep s) false
      checkDest s5 d (vecSweep s) false
      match gathered a (vecN s) s5 with
      | (t, none) =>
        let u ← sweepMask t b (vecSweep s)
        let _ ← inOrder (sweepRow f b d (values t)) (vecSweep s) 0 u
        return vecSweep s != 0 && regionKind f.rb < 2 && regionKind f.rd != 3
      | _ => return false),
    (holds do
      let f := { vecFields with ty := 2 }
      let s := vecState 2 0
      let (o, t) ← openElements (regionsNamed s f) f (vecN s) f.ty.toNat none false false false
      return (me s).progress == 0 && runs (fun j s => do
        let (v, s) ← readElem s o.a j
        let r := scanStep f.ty.toNat f.rs.toNat (j == 0) (me s).part v
        writeElem (setFlags (onMe s fun st => { st with part := r.1 }) r.2.flags) o.d j r.2.bits) (vecN s) t),
    !tyFloat 5 && [7].contains 7].all id = true := by decide +kernel

/-- States and operands that meet the hypotheses of `DrawsAndUniforms`, clause by clause. -/
theorem test_witness_DrawsAndUniforms : [
    (holds do
      let f := { vecFields with rd := specField 0x7E }
      let s := vecState 1 0
      let (a, s1) ← openOperand (regionsNamed s f) f.ra 1 f.ty.toNat
      let (b, s2) ← openOperand s1 f.rb 2 10
      let (r, s3) ← openTriple s2 f
      let (p, s4) ← readParams s3 b
      let (u, s5) ← drawParam s4 b 2
      return guardHolds s && (me s).latch == [] && paramsOk p && uniformOk u && gathers s5 a fun t =>
        answers (putTriple t r { t := noTriple })),
    (holds do
      let f := vecFields
      let s := vecState 2 0
      let (a, s1) ← openOperand s f.ra 1 10
      let (b, s2) ← openOperand s1 f.rb 2 10
      let (r, s3) ← openTriple s2 f
      let (p, s4) ← readParams s3 b
      let (us, s5) ← readUniforms s4 b (vecN s - 1) 0
      let (_, s6) ← readTriples s5 a (vecN s) 0
      return us.length == 1 && paramsOk p && us.all uniformOk && answers (putTriple s6 r { t := noTriple })),
    (holds do
      let f := vecFields
      let s := vecState 2 0
      let (d, s1) ← openOperand (regionsNamed s f) f.rd 0 10
      checkDest s1 d (vecN s) false
      return (me s).progress == 0 && (me s1).progress == 0 && runs (fun j t => writeElem t d j
        (uniformAt (issueCore t).key ((me t).part.setWidth 64 + word j))) (vecN s)
        (onMe s1 fun st => { st with part := (issueCore s1).ctr.setWidth 256 })),
    (nanF32 0x7FC00000 && (⟨0, 1⟩ : DrawParams).temp != posInf),
    (let xs := [0x3F800000, 0x40000000, 0x40000000]
     (1 : Nat) < xs.length && xs.all (fun x => x < 2 ^ 32 && !nanF32 x && !ltF32 (xs.getD 1 0) x) &&
       !eqF32 (xs.getD 0 0) (xs.getD 1 0) && xs.getD 1 0 != negInf)].all id = true := by decide +kernel

/-- The hypotheses of VGATHER, VSCATTER and VPERM on the rest of their element. -/
def moves (bType : Nat) (ai di : Bool) (one : Opened → Nat → Nat → State → Act State) : Bool := holds do
  let f := { vecFields with rb := areaField 14 }
  let s := vecState 2 0
  let (o, t) ← openElements (regionsNamed s f) f (vecN s) f.ty.toNat (some bType) false ai di
  match o.b with
  | some b => return guardHolds s && (me s).progress == 0 && runs (fun j s => do
      let (i, s) ← readElem s b j
      one o j i s) (vecN s) t
  | none => return false

/-- States and operands that meet the hypotheses of `ShapesMovesAndStreams`, clause by clause. -/
theorem test_witness_ShapesMovesAndStreams : [
    (holds do
      let s := vecState 0 0
      let (n, s1) ← shapeCount s true 1
      let (w, _) ← shapeCount s1 true 0x8F
      return guardHolds s && n.getD 0 ≤ 65535 && w.getD 0 ≤ 65535 && n.isSome && w.isSome),
    moves 5 true false (fun o j i s => do
      let (v, s) ← readElem s o.a i
      writeElem s o.d j v),
    moves 5 false true (fun o j i s => do
      let (v, s) ← readElem s o.a j
      writeElem s o.d i v),
    moves 3 true false (fun o j c s => do
      let (v, s) ← readElem s o.a (j / 64 * 64 + c % 64)
      writeElem s o.d j v),
    (holds do
      let s := vecState 0 0 8
      let (w, a, d, t) ← openWindow s vecFields
      return guardHolds s && (me s).progress == 0 && w.c * w.k * w.lout == 1 && runs (fun j s => do
        let (v, s) ← windowElem w a j s
        writeElem s d j v) (w.c * w.k * w.lout) t),
    (holds do
      let f := { vecFields with ty := 2, ra := tapField }
      let s := vecState 4 2 0 1
      let (a, s1) ← openOperand (regionsNamed s f) f.ra 1 f.ty.toNat
      let (b, s2) ← openOperand s1 f.rb 2 f.ty.toNat
      let (d, s3) ← openOperand s2 f.rd 0 f.ty.toNat
      checkFeedback d [a]
      let s4 ← checkSource s3 a (vecN s) (vecSweep s) false
      checkDest s4 d (vecN s) false
      let s5 ← sweepMask s4 a (vecSweep s)
      return vecN s != 0 && vecSweep s != 0 && (me s).progress == 0 && (me s4).progress == 0 && runs (fun j s' => do
        let (ps, s') ← firTerms s' a b j (vecSweep s) 0
        let r := firValue f.ty.toNat f.rs.toNat ps
        writeElem (setFlags s' r.flags) d j r.bits) (vecN s) s5),
    (holds do
      let s := onCore (vecState 1 0) 0 fun k => { k with vo := [(0, 32)] }
      let f := { vecFields with rd := areaField 13, rb := areaField 14 }
      let (c, s1) ← readHeader (regionsNamed s f) f.rd 0 (tyBytes f.ty.toNat)
      let (x, s2) ← openOperand s1 f.ra 1 f.ty.toNat
      let (y, s3) ← openOperand s2 f.rb 2 f.ty.toNat
      let s4 ← checkSource s3 x (vecN s) 1 false
      let s5 ← checkSource s4 y (vecN s) 1 false
      match gather (fun j s => do
        let (v, s) ← readElem s x j
        let (w, s) ← readElem s y j
        return ([word v, word w], s)) (vecN s) 0 s5 with
      | (s6, none) =>
        let data := ((pairsOf (values s6)).filter fun p => p.2 != 0).map (·.1)
        let s7 ← appendAll s6 c (tyBytes f.ty.toNat) c.tail data
        let _ ← putHeader s7 c 4 (c.tail + data.length)
        return (me s).latch == [] && queued c + data.length ≤ c.cap
      | _ => return false),
    (holds do
      let s := onCore (vecState 1 0) 0 fun k => { k with vo := [(1, 48)] }
      let f := { vecFields with ra := areaField 13, rb := areaField 14 }
      let (c, s1) ← readHeader (regionsNamed s f) f.ra 1 (tyBytes f.ty.toNat)
      let (y, s2) ← openOperand s1 f.rb 2 f.ty.toNat
      let (d, s3) ← openOperand s2 f.rd 0 f.ty.toNat
      checkFeedback d [y]
      let s4 ← checkSource s3 y (vecN s) 1 false
      checkDest s4 d (vecN s) false
      match gathered y (vecN s) s4 with
      | (s5, none) =>
        let _ ← takeRecords s5 c d ((below (vecN s) fun j => (values s5).getD j 0 != 0).take (queued c))
        return queued c == 1
      | _ => return false),
    (holds do
      let s := onCore (vecState 1 0) 0 fun k => { k with vo := [(1, 48)] }
      let f := { vecFields with ra := areaField 13 }
      let (c, s1) ← readHeader (regionsNamed s f) f.ra 1 (tyBytes f.ty.toNat)
      let (d, s2) ← openOperand s1 f.rd 0 f.ty.toNat
      checkDest s2 d (vecN s) false
      let _ ← takeRecords s2 c d (List.range (512 / tyBytes f.ty.toNat *
        (Nat.min (vecN s) (queued c) / (512 / tyBytes f.ty.toNat))))
      return (me s).latch == [])].all id = true := by decide +kernel

/-- A matrix stream with tile shapes of one element, g registers, and cached tensor entry 4095 of 1 x 1 f32 at 0x1000. -/
def tileState (shape : Nat) (g : Map Word := [(1, 0x1000), (2, 1)]) : State :=
  let s := running 2 { g := g }
  onCore s 0 fun k => { k with
    tshp := (List.range 16).map fun i => (i, BitVec.ofNat 32 (shape * 2 ^ 16)), regions := [⟨0, 0, 0, some 0, false⟩]
    tids := [(4095, toBytes 1 10 ++ toBytes 1 0x82 ++ toBytes 6 0 ++ toBytes 8 0x1000 ++ toBytes 4 1 ++ toBytes 4 1 ++ toBytes 40 0)] }

/-- The shape code of a width in bits. -/
def widthCode (bits : Nat) : Nat := ((List.range 3).find? fun c => shapeBits (c * 2 ^ 16) == bits).getD 0

/-- The hypotheses of a load of type `ty` of tile `t`. -/
def tileLoads (ty t bits stored extra : Nat) : Bool := holds do
  let s := tileState (widthCode bits)
  let f : EFields := ⟨0, 1, 0, BitVec.ofNat 6 ty, BitVec.ofNat 12 t⟩
  let (cells, s1) ← tileCells s f (tileShape (issueCore s) (tileOf f)) (f.opt.toNat % 16)
  let (_, bad, s2) ← readCells s1 4 stored cells
  let o ← readGQ (reportPoison s2 bad) f.dst
  let _ ← readExponents (reportPoison s2 bad) o.toNat (shapeRows (tileShape (issueCore s) (tileOf f)))
  return guardHolds s && !nestRunning s && shapeBits (tileShape (myCore s) t) == bits && tileOf f == t &&
    (List.range (extra + 1)).all fun d => !(busyTiles (myCore s)).contains (t + d)

/-- States and operands that meet the hypotheses of `TileMovesComplete`, clause by clause. -/
theorem test_witness_TileMovesComplete : [
    tileLoads 0 15 8 8 0, tileLoads 1 14 16 32 1, tileLoads 2 0 8 64 6, tileLoads 2 8 8 64 6,
    (let cells := [(63, 63, 5), (0, 0, 6)]
     cells.all (fun c => c.1 < 64 && c.2.1 < 64) && (cells.map fun c => (c.1, c.2.1)).eraseDups.length == 2 &&
       cells.contains (63, 63, 5) && !cells.contains (1, 1, 5)),
    (holds do
      let s := tileState 0
      let f : EFields := ⟨0, 1, 0, 0, 15⟩
      let (cells, s1) ← tileCells s f (tileShape (issueCore s) (tileOf f)) 0
      let _ ← writeCells4 s1 5 (shapeBits (tileShape (issueCore s) (tileOf f))) (tileOf f) cells
      return guardHolds s && !nestRunning s && !(busyTiles (myCore s)).contains 15),
    (holds do
      let s := tileState 0 [(2, 8191)]
      let first ← readGQ s 2
      let ea ← readGQ s 1
      let (_, _) ← loadUnits s 0 ea 2
      return guardHolds s && (0 : Nat) != 1 && first.toNat + 1 ≤ 8192),
    (holds do
      let s := tileState 0 [(1, 0x1000), (2, 4095)]
      let ea ← readGQ s 1
      let id ← readGQ s 2
      let (im, s1) ← loadBytes s 0 ea 64
      let t ← storeBytes s1 1 (word (tidAddress s1 (myCtx s1) id.toNat)) im
      return id.toNat < 4096 && tidImageOk im && (find (myCore t).tids id.toNat).isSome)].all id = true := by
  decide +kernel

/-- Tiles 0 and 1 of one element of the widths of a type. -/
def productState (ty : Nat) : State :=
  onCore (tileState (widthCode (typeBitsA ty))) 0 fun k => { k with
    tshp := put k.tshp 1 (BitVec.ofNat 32 (widthCode (typeBitsB ty) * 2 ^ 16)) }
/-- The hypotheses of a product of a type into accumulator 7, scaled or not. -/
def multiplies (ty : Nat) (zero scaled : Bool) : Bool := holds do
  let s := productState ty
  let k := issueCore s
  let book ← readGQ s 0
  let c ← readGQ s 0
  let _ ← openProduct s k ty 0 1 (tileShape k 0) (tileShape k 1) 7
    (if scaled then some ((k.scbase.toNat + c.toNat : Nat) : Int) else none) zero
  let _ ← readTable s ty k.cbook.toNat book.toNat
  return guardHolds s && !nestRunning s && (me s).mma == none && (me s).progress == 0 && book.toNat < 256

/-- A product of one element of type 0 into accumulator 7. -/
def theProduct : Product := ⟨0, 0, 1, widthCode 8 * 2 ^ 16, widthCode 8 * 2 ^ 16, none, [], 7, true⟩

/-- A nest of one iteration to tensor 4095. -/
def nestRegs : NestRegs := [(0x100, 1 * 2 ^ 8), (0x180, 10 * 2 ^ 16), (0x185, 4095 * 2 ^ 16 + 1)]
/-- It running. -/
def theNest : Nest :=
  { regs := nestRegs, shapeA := BitVec.ofNat 32 (widthCode 8 * 2 ^ 16), shapeB := BitVec.ofNat 32 (widthCode 8 * 2 ^ 16), tid := ((tileState 0).cores.head?.map fun p => look [] p.2.tids 4095).getD []
    type := 0, modes := 0, number := 1, pulse := false, pc := 0 }

/-- States and operands that meet the hypotheses of `WaitsAreReleased`, clause by clause. -/
theorem test_witness_WaitsAreReleased_nest : (holds do
    let s := onCore (tileState 0) 0 fun k => { k with engines := [(0, { nest := some theNest })] }
    let u ← nestStep { s with curCore := 0, curStream := 2 } theNest
    let _ ← drainRows u { theNest with iteration := 1 } (nestAcc theNest.regs (nestIndex theNest.regs 0)) 0
      (shapeRows theNest.shapeA.toNat) 0
    return (look {} (coreOf s 0).engines 0).nest == some theNest && theNest.stall == none && theNest.owed == [] &&
      !(coreOf s 0).halted && (coreOf s 0).slice.isSome && theNest.iteration < nestTotal theNest.regs &&
      1 + theNest.iteration % nestTrip theNest.regs 0 == nestTrip theNest.regs 0 && theNest.drains == 0) = true := by
  decide +kernel

/-- States and operands that meet the hypotheses of `ProductsAndNestsStart`, clause by clause. -/
theorem test_witness_ProductsAndNestsStart : [
    multiplies 0 false false, multiplies 4 true true, multiplies 0 true false, multiplies 7 false false,
    [0, 6, 7].all (fun g =>
      let s := onMe (tileState 0) fun st => { st with mma := some theProduct, progress := 8 * g }
      guardHolds s && (me s).mma == some theProduct && theProduct.acc < 8 && (me s).progress == 8 * g),
    (holds do
      let s := onCore (tileState 0) 0 fun k => { k with engines := [(0, { regs := nestRegs })] }
      let (_, _, t1) ← checkNest { s with guard := { s.guard with pulse := false } } 0
        (look {} (myCore s).engines (s.curStream - 2)).regs
      settled (me (tlTake t1 (myCtx s) (tlKey (s.curStream + 1) s.curCore)).2) 0x7F
      return guardHolds s && !nestRunning s),
    (0 : Nat) < nestTotal nestRegs,
    (let s := onCore (tileState 0) 0 fun k => { k with engines := [(0, { nest := some { theNest with iteration := 1 } })] }
     (look {} (coreOf s 0).engines 0).nest.any fun n => nestTotal n.regs ≤ n.iteration && n.owed == [] && !(coreOf s 0).halted),
    answers (iterate (tileState 0) theNest)].all id = true := by decide +kernel

/-! ### Witnesses: tower instructions -/

/-- States and operands that meet the hypotheses of `GeyserInstructionsComplete`, clause by clause. -/
theorem test_witness_GeyserInstructionsComplete : [
    (holds do
      let s := ccState [(1, 2 ^ 40)]
      let c ← placeReg s 0
      let im ← readImage s 1 4
      return guardHolds s && (me s).waiting == none && !entryReserved im && (queueGeyser s c (myCommand s 1 4095 0 im 5 true)).isSome),
    [2, 4].all (fun op => holds do
      let s := ccState [(1, 64)]
      let a ← readGQ s 1
      let c ← placeReg s 0
      settled (me s) 5
      return guardHolds s && (me s).waiting == none && a.toNat % 64 == 0 &&
        (queueGeyser s c (myCommand s op 4095 a.toNat [] 5 true)).isSome),
    (holds do
      let s := ccState []
      let c ← placeReg s 0
      settled (me s) 5
      return guardHolds s && (me s).waiting == none && (queueGeyser s c (myCommand s 3 4095 0 [] 5 true)).isSome),
    [1, 4].all (fun op =>
      let s := onCore (ccState []) 0 fun k => { k with
        streams := [(0, { status := .running, waiting := some (.geyser 15 7) })] }
      let c := { myCommand s op 0 0 [] 127 true with number := 7 }
      c.waiter == some (0, 0) && coreCtx s 0 == c.ctx && (streamFile s 0 0).waiting == some (.geyser 15 c.number)),
    0 < (127 : BitVec 8).toNat && (127 : BitVec 8).toNat < 128].all id = true := by decide +kernel

/-- `cc` of context 0 with the vocabulary register and ring 15 of 2^4 entries enabled, full or not. -/
def genState (full : Bool := false) (replies : List Reply := []) : State :=
  let s := withReg (withReg (ccState [(1, 65535), (2, 8)]) 0x1E18 (2 ^ 31 + 65)) (ringAt 15 + 8) (2 ^ 63 + 4)
  onCtx (onCore s 0 fun k => { k with replies := replies }) 0 fun c => { c with
    trtail := [(15, if full then 16 else 0)], ats := [(0, some (.memory true))] }

/-- The queued grammar command of a form of `genState`. -/
def sends (op : Nat) : Bool := holds do
  let s := genState
  let slot ← readGQ s 1
  let arg ← readGQ s 2
  return guardHolds s && slot.toNat ≤ 65535 && grammarOn (ctxOf s (myCtx s)) &&
    (op != 2 || arg.toNat % 8 == 0 && arg.toNat + 8 * maskWords (vocabOf (ctxOf s (myCtx s))) ≤ Config.csTop) &&
    (queueGrammar s s.curCore { ctx := myCtx s, core := s.curCore, record := submitOn s s.curCore, op := op
                                notify := true, slot := slot.toNat, arg := arg
                                vocab := some (vocabOf (ctxOf s (myCtx s))), bad := false }).isSome

/-- The matrix stream of `tileState` with one reply whose token is `token`. -/
def embState (token : BitVec 32) : State :=
  onCore (tileState 0 [(1, 7), (2, 0x400)]) 0 fun k => { k with replies := [⟨false, token, 7, 0, false, 0⟩] }

/-- EMBLD's reply there. -/
def takes (token : BitVec 32) (p : State → Reply → Act Bool) : Bool := holds do
  let s := embState token
  let a ← readGQ s 1
  let _ ← readGQ s 2
  match drawReply (myCore s) (a.toNat % 2 ^ 32) with
  | some i => match (myCore s).replies[i]? with
    | some r => (p s r).map fun b => b && guardHolds s && r.token == token
    | none => return false
  | none => return false

/-- States and operands that meet the hypotheses of `GenInstructionsComplete`, clause by clause. -/
theorem test_witness_GenInstructionsComplete : [
    sends 1, sends 2, sends 3,
    [false, true].all (fun full => holds do
      let s := genState full
      let a ← readGQ s 1
      let b ← readGQ s 2
      return guardHolds s && (full || (postToken s 0 15 (tokenEntry a b)).isSome) && b.toNat < 2 ^ 50 && flag (reg (ctxOf s (myCtx s)) (ringAt 15 + 8)) 63 &&
        tokenFull (ctxOf s (myCtx s)) 15 == full),
    (let s := genState
     (myCore s).replies.all (fun e => !e.grammar) && answers (settled (me s) 127)),
    (let s := genState false [⟨false, 1, 2, 0, false, 0⟩, ⟨true, 3, 4, 2, true, 9⟩]
     (myCore s).replies.findIdx? (·.grammar) == some 1 && ((myCore s).replies[1]?).isSome && answers (settled (me s) 127)),
    takes (BitVec.allOnes 32) fun s _ => (settled (me s) 127).map fun _ => true,
    takes 0 (fun s r => do
      let (e, _) ← tidEntry s 4095
      let u ← fetchRow s 4095 r.token.toNat 0x400
      settled (me u) 127
      return r.token.toNat < tidDim e 1),
    takes 1 (fun s r => do
      let (e, _) ← tidEntry s 4095
      return tidDim e 1 ≤ r.token.toNat),
    answers (do
      let _ ← readGQ genState 1
      readGQ genState 2)].all id = true := by decide +kernel

/-! ### Witnesses: the step, decoding, frames -/

/-- A stream of core 0 at word 2 of a line it holds, whose first instruction is a word of one or two words. -/
def lineState (stream : Nat) (w : Nat) (words : Nat := 1) (pc : Word := 8) : State :=
  running stream { pc := pc, line := some (0, w * 2 ^ 64 + (if words = 1 then 2 ^ 30 - 1 else 2 ^ 30 - 3)) }

/-- Whether its line passes the check at its program counter, and what its bits are there. -/
def atLine (s : State) (p : State → Nat → Bool) : Bool := match heldLine s with
  | .ok (line, b) =>
    let w := (me b).pc.toNat % 128 / 4
    lineOk line && 2 ≤ w && lineStart line w && !breakpoint b && p b (line / 2 ^ (32 * w) % 2 ^ (32 * lineLength line w))
  | .error _ => false

/-- The instruction those bits decode to. -/
def decodes (bits : Nat) (p : Instr → Bool) : Bool := match decodeWord bits with
  | .ok (_, i) => p i
  | .error _ => false

/-- States and operands that meet the hypotheses of `StepRunsDecodedInstruction`, clause by clause. -/
theorem test_witness_StepRunsDecodedInstruction : [
    (let s := State.reset.withFetchWord 32 0xFC
     s.agenda == [.issue 0 0] && (coreOf s 0).slice.isSome && canIssue { s with agenda := [] } 0 0 &&
       atLine (begin { s with agenda := [] } 0 0) fun b bits => decodes bits fun i =>
         modeOk b.curStream (inHandler b) i && streamOk b.curStream i && operandsOk i && numbersOk b.curStream i),
    (let s := State.reset
     admitted s (agentOf .powerInputApplied) && !posts (agentOf .powerInputApplied) && !admitted s (agentOf (.kick 0 0 0))),
    (let s := copyState (copyImage 1) (some 0)
     admitted s (agentOf (.copyCmdComplete 0 1)) && posts (agentOf (.copyCmdComplete 0 1)) &&
       nexts (exec (.copyCmdComplete 0 1) s) fun t => !itemsOver s t),
    (let s := onCtx { swapState 0 (List.replicate 48 0 ++ toBytes 8 0x100000) (some (0, true, 1)) with module := powered } 0
       fun c => { c with itwait := List.replicate itemRoom ⟨0, 0, 0, 0, 0, 0, 0, 0, 0⟩ }
     admitted s (agentOf (.swapComplete 0 7)) && posts (agentOf (.swapComplete 0 7)) &&
       nexts (exec (.swapComplete 0 7) s) fun t => itemsOver s t),
    (let s := { State.reset with mtime := 1 }
     s.agenda == [] && (due s).isNone),
    (let s := { lineState 0 0xFC with curCore := Config.cores - 1, curStream := 6, mtime := 1 }
     s.agenda == [] && (due s).isNone),
    (due { copyState (copyImage 1) with agenda := [] }).isSome,
    (let s := running 0 { pc := 0x2008 }
     let t := begin s 0 0
     (coreOf s 0).slice.isSome && canIssue s 0 0 && (me t).line == none &&
       find (myCore t).fetched (myCtx t * 2 ^ 56 + lineOf ((me t).pc.toNat % 2 ^ 56)) == none &&
       match (translate t (some t.curCore) (myCtx t) 3 (lineOf ((me t).pc.toNat % 2 ^ 56))).1 with
       | .hit _ => true
       | _ => false)].all id = true := by decide +kernel

/-- States and operands that meet the hypotheses of `StepRunsDecodedInstruction`, clause by clause. -/
theorem test_witness_StepRunsDecodedInstruction_idle : nextStream { State.reset with mtime := 1 } = none := by
  rw [nextStream, List.find?_eq_none]
  rintro ⟨c, n⟩ -
  simp [canIssue, coreOf, State.reset, look]

/-- States and operands that meet the hypotheses of `StepRunsDecodedInstruction`, clause by clause. -/
theorem test_witness_StepRunsDecodedInstruction_next :
    nextStream { lineState 0 0xFC with curCore := Config.cores - 1, curStream := 6, mtime := 1 } = some (0, 0) := by
  rw [nextStream, show 7 * Config.cores = (7 * Config.cores - 1) + 1 from rfl, List.range_succ_eq_map]
  rfl

/-- States and operands that meet the hypotheses of `DecodeFaultsComeInOrder`, clause by clause. -/
theorem test_witness_DecodeFaultsComeInOrder : [
    (match heldLine (onMe (lineState 0 0xFC) fun st => { st with entering := true }) with
     | .ok (line, b) => (me b).entering && !lineEntry line
     | .error _ => false),
    (match heldLine (running 0 { pc := 8, line := some (0, 0) }) with
     | .ok (line, _) => !lineOk line
     | .error _ => false),
    (match heldLine (lineState 0 0xFC 1 4) with
     | .ok (line, b) => lineOk line && (me b).pc.toNat % 128 / 4 == 1
     | .error _ => false),
    (match heldLine (lineState 0 (0xFC * 2 ^ 32 + 1) 2 12) with
     | .ok (line, b) => lineOk line && (me b).pc.toNat % 128 / 4 == 3 && !lineStart line 3
     | .error _ => false),
    atLine (lineState 0 3) fun _ bits => bits % 4 == 3,
    atLine (lineState 0 0) fun _ bits => bits % 4 != 3 && !(decodeWord bits).toBool,
    atLine (lineState 0 ((encodeNat {} .eret).getD 0) 2) fun b bits => decodes bits fun i => !modeOk b.curStream (inHandler b) i,
    atLine (lineState 6 ((encodeNat {} (.tld ⟨0, 0, 0, 0, 0⟩)).getD 0) 2) fun b bits =>
      decodes bits fun i => modeOk b.curStream (inHandler b) i && !streamOk b.curStream i,
    atLine (lineState 0 ((encodeNat {} (.mfs ⟨7, 0, 0, 0, 0x20⟩)).getD 0) 2) fun b bits =>
      decodes bits fun i => modeOk b.curStream (inHandler b) i && streamOk b.curStream i &&
        !(operandsOk i && numbersOk b.curStream i),
    (match fetchInstr (begin (lineState 0 3) 0 0) with
     | (_, .error _) => true
     | (_, .ok _) => false)].all id = true := by decide +kernel

/-- The state of the accumulator moves: g1 holds 0x1000, g3 a pitch of 0. -/
def accState : State := tileState 0 [(1, 0x1000)]

/-- One lane of an accumulator move that changes nothing. -/
def laneSettles (z : Nat) (elem : State → Word → Act (FRes × State)) (j : Nat) : Bool :=
  let a := 0x1000 + word (0 * j + j * z)
  match elem accState a with
  | .ok (r, t) => match storeBytes (setFlags t r.flags) 1 a (toBytes z r.bits) with
    | .ok u => decide (u = accState)
    | .error _ => false
  | .error _ => false

theorem moveEach_settles {z : Nat} {elem : State → Word → Act (FRes × State)}
    (h : ∀ j, j < 64 → laneSettles z elem j = true) :
    ∀ l : List (Nat × Nat), (∀ p ∈ l, p.2 < 64) →
      moveEach accState 0x1000 0 z (fun s _ _ a => elem s a) l = .ok accState := by
  intro l
  induction l with
  | nil => intro; rfl
  | cons p l ih =>
    intro hl
    have hj := h p.2 (hl p (by simp))
    unfold laneSettles at hj
    rw [Nat.zero_mul] at hj
    dsimp only at hj
    simp only [moveEach, Nat.mul_zero]
    split at hj
    · rename_i r t he
      split at hj
      · rename_i u hs
        simp only [decide_eq_true_eq] at hj
        subst hj
        rw [he]
        simp only [bind, Except.bind]
        rw [hs]
        exact ih fun q hq => hl q (by simp [hq])
      · cases hj
    · cases hj

theorem moveLanes_settles {z : Nat} {elem : State → Word → Act (FRes × State)}
    (h : ∀ j, j < 64 → laneSettles z elem j = true) (l : List (Nat × Nat)) (hl : ∀ p ∈ l, p.2 < 64) :
    moveLanes accState 0x1000 0 z (fun s _ _ a => elem s a) l = .ok accState := by
  rw [moveLanes, moveEach_settles h l hl]
  rfl

/-- The zero lane of accumulator 7, which is not valid, as an element of type `ty`. -/
def zeroLane (ty : Nat) (s : State) (a : Word) : Act (FRes × State) :=
  if ty < 4 then .ok (laneElem ty (roundingMode s) false 0, s)
  else do
    let (old, s) ← loadBytes s 0 a 8
    let r := addScaled (fromBytes old) 0 (if ty = 4 then 0 else 96)
    let q := if ty = 4 then r else finalScale r.bits 0 0
    return (⟨q.bits, r.flags ||| q.flags⟩, s)

/-- States and operands that meet the hypotheses of `TileMovesComplete`, clause by clause. -/
theorem test_witness_TileMovesComplete_lanes : [3, 4, 5].all (fun ty => (List.range 64).all (laneSettles (moveBytes ty) (zeroLane ty)))
    = true ∧ (holds do
      let s := accState
      let ea ← readGQ s 1
      let b ← readGQ s 3
      let d ← readGQ s 0
      let (eas, s1) ← readExponents s (field d.toNat 0 27) 64
      let (ebs, s2) ← readExponents s1 (field d.toNat 32 27) 64
      return guardHolds s && !nestRunning s && ea == 0x1000 && b == 0 && !(myCore s).accV.getLsbD 7 && s2 == s &&
        eas.all (· == 0) && ebs.all (· == 0) && -1100 ≤ d.toInt && d.toInt ≤ 1100) = true := by
  decide +kernel

/-- Every lane of such a move is stored. -/
theorem test_witness_TileMovesComplete_moves (ty : Nat) (h : ty ∈ [3, 4, 5]) :
    moveLanes accState 0x1000 0 (moveBytes ty) (fun s _ _ a => zeroLane ty s a) (cellsOf 64 64) = .ok accState := by
  apply moveLanes_settles
  · intro j hj
    have hs := List.all_eq_true.1 (test_witness_TileMovesComplete_lanes.1) ty h
    exact List.all_eq_true.1 hs j (List.mem_range.2 hj)
  · intro p hp
    simp only [cellsOf, List.mem_flatMap, List.mem_map, List.mem_range] at hp
    obtain ⟨i, _, j, hj, rfl⟩ := hp
    exact hj

/-! ### Witnesses: frames, encodings, invariants -/

/-- States and operands that meet the hypotheses of `IntegerOperationsKeepTheRest`, clause by clause. -/
theorem test_witness_IntegerOperationsKeepTheRest : [
    (holds do
      let s := ccState [(1, 7), (2, 3)]
      let (x, s1) ← readReg s 1
      let (y, s2) ← readReg s1 2
      settled (me s2) 127
      return guardHolds s && (me s).waiting == none && !s.guard.pulse && x == 7 && y == 3 &&
        nexts (exec (.subG ⟨127, 1, 2, false, 0⟩) s) fun t => gValue (me t) 127 == 4),
    (holds do
      let s := ccState [(1, 7)]
      let (x, s1) ← readReg s 1
      settled (me s1) 127
      return guardHolds s && (me s).waiting == none && !s.guard.pulse && x == 7 &&
        nexts (exec (.subL ⟨127, 1, 0, false, 0, 3⟩) s) fun t => gValue (me t) 127 == 4),
    (holds do
      let s := ccState []
      let x ← readQ s (5 : BitVec 4).toNat
      let y ← readQ s (6 : BitVec 4).toNat
      settled (me s) (qReg 15)
      return (me s).waiting == none && !s.guard.pulse && x == 7 && y == 3 &&
        nexts (exec (.subQ ⟨15, 5, true, 6, false, 0⟩) s) fun t => qValue (me t) 15 == 4),
    -- the other members: their register reads are those above, and each answers
    (let s := ccState [(1, 7), (2, 0), (127, 1)]
     (readOld s 127).toBool && (me s).waiting == none && !s.guard.pulse && [
       nexts (exec (.selG ⟨127, 1, 2, false, 0⟩) s) fun t => gValue (me t) 127 == 7,
       nexts (exec (.divG ⟨127, 1, 2, false, 0⟩) s) fun t => (me t).fflags == 8,
       nexts (exec (.cmpeqG ⟨0x9F, 1, 2, false, 0⟩ false) s) fun t => !cValue (me t) 15,
       nexts (exec (.addiG ⟨127, 1, 0, false, 0x3FFFF⟩) s) fun t => gValue (me t) 127 == 6,
       nexts (exec (.cmpeqG ⟨0x9F, 1, 0, false, 7⟩ true) s) fun t => cValue (me t) 15,
       nexts (exec (.selL ⟨127, 1, 0, false, 0, 5⟩) s) fun t => gValue (me t) 127 == 7,
       nexts (exec (.divL ⟨127, 1, 0, false, 0, 0⟩) s) fun t => (me t).fflags == 8,
       nexts (exec (.liw ⟨127, 0, 0, false, 1, 0⟩) s) fun t => gValue (me t) 127 == 2 ^ 32,
       nexts (exec (.movQ ⟨15, 5, true, 0, false, 0⟩) s) fun t => qValue (me t) 15 == 7 && !qLive (me t) 5,
       nexts (exec (.cmpltQ ⟨15, 6, false, 5, false, 0⟩) s) fun t => cValue (me t) 15,
       nexts (exec (.movg ⟨0, 5, false, 0, true, 63⟩) s) fun t => gValue (me t) 127 == 7,
       nexts (exec (.movq ⟨15, 0, false, 0, true, 63⟩) s) fun t => qValue (me t) 15 == 1,
       nexts (exec (.li ⟨15, 0xFFFFF⟩) s) fun t => qValue (me t) 15 == BitVec.allOnes 64].all id)].all id = true := by
  decide +kernel

/-- States and operands that meet the hypotheses of `PredicateOperations`, clause by clause. -/
theorem test_witness_PredicateOperations :
    [(Instr.pand, 2), (.por, 2), (.pxor, 2), (.pnot, 0)].all (fun p =>
      decodes ((encodeNat {} (p.1 ⟨15, 1, false, p.2, false, 0⟩)).getD 0) fun i => i == p.1 ⟨15, 1, false, p.2, false, 0⟩)
    = true := by decide +kernel

/-- States and operands that meet the hypotheses of `SigheadReturnsThreeValues`, clause by clause. -/
theorem test_witness_SigheadReturnsThreeValues : [
    (holds do
      let s := sigState (some (signalAt false 3 [0]))
      let _ ← namedSignal s ((1023 : BitVec 12).toNat % 1024)
      return guardHolds s && (me s).loads == [] && (125 : BitVec 8).toNat ≤ 125),
    decodes ((encodeNat {} (.sighead ⟨126, 0, 0, 0, 1023⟩)).getD 0) fun i => i == .sighead ⟨126, 0, 0, 0, 1023⟩].all id = true := by
  decide +kernel

/-- States and operands that meet the hypotheses of `AcczZeroesEveryLane`, clause by clause. -/
theorem test_witness_AcczZeroesEveryLane : [
    (let s := tileState 0
     guardHolds s && !nestRunning s && !(myCore s).accF.getLsbD ((7 : BitVec 12).toNat % 8)),
    (let s := onCore (tileState 0) 0 fun k => { k with accF := 0x80 }
     guardHolds s && !nestRunning s && (myCore s).accF.getLsbD ((7 : BitVec 12).toNat % 8)),
    decodes ((encodeNat {} (.accz ⟨0, 0, 0, 1, 7⟩)).getD 0) fun i => i == .accz ⟨0, 0, 0, 1, 7⟩].all id = true := by
  decide +kernel

/-- States and operands that meet the hypotheses of `DecodeInvertsEncode`, clause by clause. -/
theorem test_witness_DecodeInvertsEncode : [
    (let i := Instr.st ⟨0x8F, 127, 0, 3, false, false, false, 0, 0x3FFF8⟩
     i.encoded && formOk i && operandsOk i && guardFits ⟨15, true, true⟩ i),
    (let w := (encodeNat ⟨3, true, false⟩ (.divG ⟨7, 8, 9, true, 0⟩)).getD 0
     w < 2 ^ (8 * lengthOf w) && (decodeWord w).toBool),
    0 < 2 ^ (8 * lengthOf 3) && (decodeWord 0xFC).toBool].all id = true := by decide +kernel

/-- States and operands that meet the hypotheses of `StepKeepsMemoryCanonical`, clause by clause. -/
theorem test_witness_StepKeepsMemoryCanonical :
    (let s := copyState (copyImage 1)
     s.mem.wf && s.module.staging.wf && s.module.flash.wf && s.module.window.data.wf && nexts (step s) fun _ => true) = true := by
  decide +kernel

/-- States and operands that meet the hypotheses of `StepKeepsMemoryCanonical`, clause by clause. -/
theorem test_witness_StepKeepsMemoryCanonical_reset : AllCanonical State.reset := by
  simp only [AllCanonical, Canonical]; decide

/-! ### Words of the tables

Every instruction that has an encoding, its word written out field by field from the most significant field of Tables
12.2 to 12.8 down, with the majors and members of Tables 12.14 to 12.16. -/

/-- Whether words decode to the guards and instructions beside them. -/
def readsAs (ws : List (Nat × Guard × Instr)) : Bool := ws.all fun w => match decodeWord w.1 with
  | .ok p => p.1 == w.2.1 && p.2 == w.2.2
  | .error _ => false

/-- Words of the Q and J classes (Tables 12.2, 12.3, 12.9, 12.14). -/
theorem test_words_thirty_two_bits_1 : readsAs [
    (0b000000_0000_0_0011_1_0010_0001_000000_00, {}, .addQ ⟨1, 2, true, 3, false, 0⟩),
    (0b000000_0001_0_0011_1_0010_0001_000000_00, {}, .subQ ⟨1, 2, true, 3, false, 0⟩),
    (0b000000_0010_0_0011_1_0010_0001_000000_00, {}, .andQ ⟨1, 2, true, 3, false, 0⟩),
    (0b000000_0011_0_0011_1_0010_0001_000000_00, {}, .orQ ⟨1, 2, true, 3, false, 0⟩),
    (0b000000_0100_0_0011_1_0010_0001_000000_00, {}, .xorQ ⟨1, 2, true, 3, false, 0⟩),
    (0b000000_0101_0_0011_1_0010_0001_000000_00, {}, .andnQ ⟨1, 2, true, 3, false, 0⟩),
    (0b000000_0110_0_0011_1_0010_0001_000000_00, {}, .shlQ ⟨1, 2, true, 3, false, 0⟩),
    (0b000000_0111_0_0011_1_0010_0001_000000_00, {}, .shrQ ⟨1, 2, true, 3, false, 0⟩),
    (0b000000_1000_0_0011_1_0010_0001_000000_00, {}, .sraQ ⟨1, 2, true, 3, false, 0⟩),
    (0b000000_1001_0_0011_1_0010_0001_000000_00, {}, .minQ ⟨1, 2, true, 3, false, 0⟩),
    (0b000000_1010_0_0011_1_0010_0001_000000_00, {}, .maxQ ⟨1, 2, true, 3, false, 0⟩),
    (0b000000_1011_0_0011_1_0010_0001_000000_00, {}, .minuQ ⟨1, 2, true, 3, false, 0⟩),
    (0b000000_1100_0_0011_1_0010_0001_000000_00, {}, .maxuQ ⟨1, 2, true, 3, false, 0⟩),
    (0b000000_1101_0_0011_1_0010_0001_000000_00, {}, .mulQ ⟨1, 2, true, 3, false, 0⟩),
    (0b000000_1110_0_0000_1_0010_0001_000000_00, {}, .movQ ⟨1, 2, true, 0, false, 0⟩),
    (0b100001_0000_0_0000_0_0010_0001_000001_00, {}, .addiQ ⟨1, 2, false, 0, false, 33⟩),
    (0b100001_0001_0_0000_0_0010_0001_000001_00, {}, .andiQ ⟨1, 2, false, 0, false, 33⟩),
    (0b100001_0010_0_0000_0_0010_0001_000001_00, {}, .oriQ ⟨1, 2, false, 0, false, 33⟩),
    (0b100001_0011_0_0000_0_0010_0001_000001_00, {}, .xoriQ ⟨1, 2, false, 0, false, 33⟩),
    (0b100001_0100_0_0000_0_0010_0001_000001_00, {}, .shliQ ⟨1, 2, false, 0, false, 33⟩),
    (0b100001_0101_0_0000_0_0010_0001_000001_00, {}, .shriQ ⟨1, 2, false, 0, false, 33⟩),
    (0b100001_0110_0_0000_0_0010_0001_000001_00, {}, .sraiQ ⟨1, 2, false, 0, false, 33⟩),
    (0b000000_0000_1_0011_0_0010_0001_000010_00, {}, .cmpeqQ ⟨1, 2, false, 3, true, 0⟩),
    (0b000000_0001_1_0011_0_0010_0001_000010_00, {}, .cmpneQ ⟨1, 2, false, 3, true, 0⟩),
    (0b000000_0010_1_0011_0_0010_0001_000010_00, {}, .cmpltQ ⟨1, 2, false, 3, true, 0⟩),
    (0b000000_0011_1_0011_0_0010_0001_000010_00, {}, .cmpgeQ ⟨1, 2, false, 3, true, 0⟩),
    (0b000000_0100_1_0011_0_0010_0001_000010_00, {}, .cmpltuQ ⟨1, 2, false, 3, true, 0⟩),
    (0b000000_0101_1_0011_0_0010_0001_000010_00, {}, .cmpgeuQ ⟨1, 2, false, 3, true, 0⟩),
    (0b000000_0110_1_0011_0_0010_0001_000010_00, {}, .cmpleQ ⟨1, 2, false, 3, true, 0⟩),
    (0b000000_0111_1_0011_0_0010_0001_000010_00, {}, .cmpgtQ ⟨1, 2, false, 3, true, 0⟩),
    (0b100001_0000_1_0000_0_0000_0001_000011_00, {}, .movq ⟨1, 0, false, 0, true, 33⟩),
    (0b100001_0001_0_0000_1_0010_0000_000011_00, {}, .movg ⟨0, 2, true, 0, false, 33⟩)] = true := by decide +kernel

/-- Words of the Q and J classes (Tables 12.2, 12.3, 12.9, 12.14). -/
theorem test_words_thirty_two_bits_2 : readsAs [
    (0b000000_0010_0_0011_0_0010_0001_000011_00, {}, .pand ⟨1, 2, false, 3, false, 0⟩),
    (0b000000_0011_0_0011_0_0010_0001_000011_00, {}, .por ⟨1, 2, false, 3, false, 0⟩),
    (0b000000_0100_0_0011_0_0010_0001_000011_00, {}, .pxor ⟨1, 2, false, 3, false, 0⟩),
    (0b000000_0101_0_0000_0_0010_0001_000011_00, {}, .pnot ⟨1, 2, false, 0, false, 0⟩),
    (0b10000000000000000001_0101_000100_00, {}, .li ⟨5, 524289⟩),
    (0b10000000000000000001_0101_001000_00, {}, .br ⟨5, 524289⟩),
    (0b10000000000000000001_0000_001001_00, {}, .jmp ⟨0, 524289⟩),
    (0b10000000000000000001_0000_001010_00, {}, .jal ⟨0, 524289⟩),
    (0b10000000000000000001_0000_001011_00, {}, .brl ⟨0, 524289⟩),
    (0b000000_0000_0_0000_0_0000_0000_111111_00, {}, .nop)] = true := by decide +kernel

/-- Words of the G class (Tables 12.4, 12.9, 12.15). -/
theorem test_words_g_class_1 : readsAs [
    (0b000000000000000000_0_0_0011_00000000_00001001_00001000_00000111_000000_01, ⟨3, false, false⟩, .addG ⟨7, 8, 9, false, 0⟩),
    (0b000000000000000000_1_1_0011_00000001_00001001_00001000_00000111_000000_01, ⟨3, true, false⟩, .subG ⟨7, 8, 9, true, 0⟩),
    (0b000000000000000000_0_0_0011_00000010_00001001_00001000_00000111_000000_01, ⟨3, false, false⟩, .andG ⟨7, 8, 9, false, 0⟩),
    (0b000000000000000000_1_1_0011_00000011_00001001_00001000_00000111_000000_01, ⟨3, true, false⟩, .orG ⟨7, 8, 9, true, 0⟩),
    (0b000000000000000000_0_0_0011_00000100_00001001_00001000_00000111_000000_01, ⟨3, false, false⟩, .xorG ⟨7, 8, 9, false, 0⟩),
    (0b000000000000000000_1_1_0011_00000101_00001001_00001000_00000111_000000_01, ⟨3, true, false⟩, .andnG ⟨7, 8, 9, true, 0⟩),
    (0b000000000000000000_0_0_0011_00000110_00001001_00001000_00000111_000000_01, ⟨3, false, false⟩, .shlG ⟨7, 8, 9, false, 0⟩),
    (0b000000000000000000_1_1_0011_00000111_00001001_00001000_00000111_000000_01, ⟨3, true, false⟩, .shrG ⟨7, 8, 9, true, 0⟩),
    (0b000000000000000000_0_0_0011_00001000_00001001_00001000_00000111_000000_01, ⟨3, false, false⟩, .sraG ⟨7, 8, 9, false, 0⟩),
    (0b000000000000000000_1_1_0011_00001001_00001001_00001000_00000111_000000_01, ⟨3, true, false⟩, .minG ⟨7, 8, 9, true, 0⟩),
    (0b000000000000000000_0_0_0011_00001010_00001001_00001000_00000111_000000_01, ⟨3, false, false⟩, .maxG ⟨7, 8, 9, false, 0⟩),
    (0b000000000000000000_1_1_0011_00001011_00001001_00001000_00000111_000000_01, ⟨3, true, false⟩, .minuG ⟨7, 8, 9, true, 0⟩),
    (0b000000000000000000_0_0_0011_00001100_00001001_00001000_00000111_000000_01, ⟨3, false, false⟩, .maxuG ⟨7, 8, 9, false, 0⟩),
    (0b000000000000000000_1_1_0011_00001101_00001001_00001000_00000111_000000_01, ⟨3, true, false⟩, .mulG ⟨7, 8, 9, true, 0⟩),
    (0b000000000000000000_0_0_0011_00001110_00000000_00001000_00000111_000000_01, ⟨3, false, false⟩, .movG ⟨7, 8, 0, false, 0⟩),
    (0b000000000000000000_1_1_0011_00001111_00001001_00001000_00000111_000000_01, ⟨3, true, false⟩, .mulhG ⟨7, 8, 9, true, 0⟩),
    (0b000000000000000000_0_0_0011_00010000_00001001_00001000_00000111_000000_01, ⟨3, false, false⟩, .mulhuG ⟨7, 8, 9, false, 0⟩),
    (0b000000000000000000_1_1_0011_00010001_00001001_00001000_00000111_000000_01, ⟨3, true, false⟩, .divG ⟨7, 8, 9, true, 0⟩),
    (0b000000000000000000_0_0_0011_00010010_00001001_00001000_00000111_000000_01, ⟨3, false, false⟩, .divuG ⟨7, 8, 9, false, 0⟩),
    (0b000000000000000000_1_1_0011_00010011_00001001_00001000_00000111_000000_01, ⟨3, true, false⟩, .remG ⟨7, 8, 9, true, 0⟩),
    (0b000000000000000000_0_0_0011_00010100_00001001_00001000_00000111_000000_01, ⟨3, false, false⟩, .remuG ⟨7, 8, 9, false, 0⟩),
    (0b000000000000000000_1_1_0011_00010101_00001001_00001000_00000111_000000_01, ⟨3, true, false⟩, .rotG ⟨7, 8, 9, true, 0⟩),
    (0b000000000000000000_0_0_0011_00010110_00000000_00001000_00000111_000000_01, ⟨3, false, false⟩, .clzG ⟨7, 8, 0, false, 0⟩),
    (0b000000000000000000_1_1_0011_00010111_00000000_00001000_00000111_000000_01, ⟨3, true, false⟩, .ctzG ⟨7, 8, 0, true, 0⟩),
    (0b000000000000000000_0_0_0011_00011000_00000000_00001000_00000111_000000_01, ⟨3, false, false⟩, .popcG ⟨7, 8, 0, false, 0⟩),
    (0b000000000000000000_1_1_0011_00011001_00001001_00001000_00000111_000000_01, ⟨3, true, false⟩, .sextG ⟨7, 8, 9, true, 0⟩),
    (0b000000000000000000_0_0_0011_00011010_00001001_00001000_00000111_000000_01, ⟨3, false, false⟩, .zextG ⟨7, 8, 9, false, 0⟩),
    (0b000000011111000010_1_1_0011_00011011_00000000_00001000_00000111_000000_01, ⟨3, true, false⟩, .bfxG ⟨7, 8, 0, true, 1986⟩),
    (0b000000011111000010_0_0_0011_00011100_00001001_00001000_00000111_000000_01, ⟨3, false, false⟩, .bfiG ⟨7, 8, 9, false, 1986⟩),
    (0b000000000000000000_1_1_0011_00011101_00001001_00001000_00000111_000000_01, ⟨3, true, false⟩, .selG ⟨7, 8, 9, true, 0⟩),
    (0b100000000000000001_1_0_0000_00000000_00000000_10000001_00000111_000001_01, {}, .addiG ⟨7, 129, 0, true, 131073⟩),
    (0b100000000000000001_1_0_0000_00000001_00000000_10000001_00000111_000001_01, {}, .andiG ⟨7, 129, 0, true, 131073⟩)] = true := by decide +kernel

/-- Words of the G class (Tables 12.4, 12.9, 12.15). -/
theorem test_words_g_class_2 : readsAs [
    (0b100000000000000001_1_0_0000_00000010_00000000_10000001_00000111_000001_01, {}, .oriG ⟨7, 129, 0, true, 131073⟩),
    (0b100000000000000001_1_0_0000_00000011_00000000_10000001_00000111_000001_01, {}, .xoriG ⟨7, 129, 0, true, 131073⟩),
    (0b000000000000100001_1_0_0000_00000100_00000000_10000001_00000111_000001_01, {}, .shliG ⟨7, 129, 0, true, 33⟩),
    (0b000000000000100001_1_0_0000_00000101_00000000_10000001_00000111_000001_01, {}, .shriG ⟨7, 129, 0, true, 33⟩),
    (0b000000000000100001_1_0_0000_00000110_00000000_10000001_00000111_000001_01, {}, .sraiG ⟨7, 129, 0, true, 33⟩),
    (0b000000000000000000_0_0_0000_00000000_00001001_00001000_10010001_000010_01, {}, .cmpeqG ⟨145, 8, 9, false, 0⟩ false),
    (0b100000000000000001_0_0_0000_00001000_00000000_00001000_10010010_000010_01, {}, .cmpeqG ⟨146, 8, 0, false, 131073⟩ true),
    (0b000000000000000000_0_0_0000_00000001_00001001_00001000_10010001_000010_01, {}, .cmpneG ⟨145, 8, 9, false, 0⟩ false),
    (0b100000000000000001_0_0_0000_00001001_00000000_00001000_10010010_000010_01, {}, .cmpneG ⟨146, 8, 0, false, 131073⟩ true),
    (0b000000000000000000_0_0_0000_00000010_00001001_00001000_10010001_000010_01, {}, .cmpltG ⟨145, 8, 9, false, 0⟩ false),
    (0b100000000000000001_0_0_0000_00001010_00000000_00001000_10010010_000010_01, {}, .cmpltG ⟨146, 8, 0, false, 131073⟩ true),
    (0b000000000000000000_0_0_0000_00000011_00001001_00001000_10010001_000010_01, {}, .cmpgeG ⟨145, 8, 9, false, 0⟩ false),
    (0b100000000000000001_0_0_0000_00001011_00000000_00001000_10010010_000010_01, {}, .cmpgeG ⟨146, 8, 0, false, 131073⟩ true),
    (0b000000000000000000_0_0_0000_00000100_00001001_00001000_10010001_000010_01, {}, .cmpltuG ⟨145, 8, 9, false, 0⟩ false),
    (0b100000000000000001_0_0_0000_00001100_00000000_00001000_10010010_000010_01, {}, .cmpltuG ⟨146, 8, 0, false, 131073⟩ true),
    (0b000000000000000000_0_0_0000_00000101_00001001_00001000_10010001_000010_01, {}, .cmpgeuG ⟨145, 8, 9, false, 0⟩ false),
    (0b100000000000000001_0_0_0000_00001101_00000000_00001000_10010010_000010_01, {}, .cmpgeuG ⟨146, 8, 0, false, 131073⟩ true),
    (0b000000000000000000_0_0_0000_00000110_00001001_00001000_10010001_000010_01, {}, .cmpleG ⟨145, 8, 9, false, 0⟩ false),
    (0b100000000000000001_0_0_0000_00001110_00000000_00001000_10010010_000010_01, {}, .cmpleG ⟨146, 8, 0, false, 131073⟩ true),
    (0b000000000000000000_0_0_0000_00000111_00001001_00001000_10010001_000010_01, {}, .cmpgtG ⟨145, 8, 9, false, 0⟩ false),
    (0b100000000000000001_0_0_0000_00001111_00000000_00001000_10010010_000010_01, {}, .cmpgtG ⟨146, 8, 0, false, 131073⟩ true),
    (0b000000000000000011_0_0_0000_00000000_00001001_00001000_00000111_000011_01, {}, .fadd ⟨7, 8, 9, false, 3⟩),
    (0b000000000000000011_0_0_0000_00000001_00001001_00001000_00000111_000011_01, {}, .fsub ⟨7, 8, 9, false, 3⟩),
    (0b000000000000000011_0_0_0000_00000010_00001001_00001000_00000111_000011_01, {}, .fmul ⟨7, 8, 9, false, 3⟩),
    (0b000000000000000011_0_0_0000_00000011_00001001_00001000_00000111_000011_01, {}, .fma ⟨7, 8, 9, false, 3⟩),
    (0b000000000000000011_0_0_0000_00000100_00001001_00001000_00000111_000011_01, {}, .fmin ⟨7, 8, 9, false, 3⟩),
    (0b000000000000000011_0_0_0000_00000101_00001001_00001000_00000111_000011_01, {}, .fmax ⟨7, 8, 9, false, 3⟩),
    (0b000000000000000011_0_0_0000_00000110_00001001_00001000_00000111_000011_01, {}, .fsgn ⟨7, 8, 9, false, 3⟩),
    (0b000000000001010010_0_0_0000_00000111_00001001_00001000_10010001_000011_01, {}, .fcmp ⟨145, 8, 9, false, 82⟩),
    (0b000000000000100100_0_0_0000_00001000_00000000_00001000_00000111_000011_01, {}, .fcvt ⟨7, 8, 0, false, 36⟩),
    (0b000000000000000010_0_0_0000_00000000_00000000_00001000_00000111_000100_01, {}, .frcp ⟨7, 8, 0, false, 2⟩),
    (0b000000000000000010_0_0_0000_00000001_00000000_00001000_00000111_000100_01, {}, .frsq ⟨7, 8, 0, false, 2⟩)] = true := by decide +kernel

/-- Words of the G class (Tables 12.4, 12.9, 12.15). -/
theorem test_words_g_class_3 : readsAs [
    (0b000000000000000010_0_0_0000_00000010_00001001_00001000_00000111_000100_01, {}, .frcps ⟨7, 8, 9, false, 2⟩),
    (0b000000000000000010_0_0_0000_00000011_00001001_00001000_00000111_000100_01, {}, .frsqs ⟨7, 8, 9, false, 2⟩),
    (0b000000000000000010_0_0_0000_00000100_00000000_00001000_00000111_000100_01, {}, .fexp2 ⟨7, 8, 0, false, 2⟩),
    (0b000000000000000010_0_0_0000_00000101_00000000_00001000_00000111_000100_01, {}, .flog2 ⟨7, 8, 0, false, 2⟩),
    (0b000000000000000001_0_0_0000_00000000_00000000_00001000_00000111_010000_01, {}, .jalr ⟨7, 8, 0, false, 1⟩),
    (0b100000000000000001_0_0_0000_00000000_00001001_00001000_00000000_010001_01, {}, .loop ⟨0, 8, 9, false, 131073⟩)] = true := by decide +kernel

/-- Words of the M class (Table 12.5, R248). -/
theorem test_words_m_class : readsAs [
    (0b100000000000000001_1_1_0011_000_0_0_1_10_00000000_00001000_00000111_001000_01, ⟨3, true, true⟩, .ld ⟨7, 8, 0, 2, true, false, false, 0, 131073⟩),
    (0b100000000000000001_0_0_0000_000_0_0_0_11_00000000_00001000_00000111_001001_01, {}, .st ⟨7, 8, 0, 3, false, false, false, 0, 131073⟩),
    (0b000000000000001000_0_0_0000_100_0_1_1_01_00000000_00001000_00000111_001010_01, {}, .lda ⟨7, 8, 0, 1, true, true, false, 4, 8⟩),
    (0b000000000000001000_0_0_0000_101_1_0_0_01_00000000_00001000_00000111_001011_01, {}, .stl ⟨7, 8, 0, 1, false, false, true, 5, 8⟩),
    (0b000000000000001000_0_0_0000_001_1_0_0_10_00001001_00001000_00000111_001100_01, {}, .amoadd ⟨7, 8, 9, 2, false, false, true, 1, 8⟩),
    (0b000000000000000001_0_0_0000_010_0_1_0_10_00001001_00001000_00000111_001100_01, {}, .amoand ⟨7, 8, 9, 2, false, true, false, 2, 1⟩),
    (0b000000000000000010_0_0_0000_011_1_0_0_10_00001001_00001000_00000111_001100_01, {}, .amoor ⟨7, 8, 9, 2, false, false, true, 3, 2⟩),
    (0b000000000000000011_0_0_0000_100_0_1_0_10_00001001_00001000_00000111_001100_01, {}, .amoxor ⟨7, 8, 9, 2, false, true, false, 4, 3⟩),
    (0b000000000000000100_0_0_0000_101_1_0_0_10_00001001_00001000_00000111_001100_01, {}, .amomin ⟨7, 8, 9, 2, false, false, true, 5, 4⟩),
    (0b000000000000000101_0_0_0000_110_0_1_0_10_00001001_00001000_00000111_001100_01, {}, .amomax ⟨7, 8, 9, 2, false, true, false, 6, 5⟩),
    (0b000000000000000110_0_0_0000_001_1_0_0_10_00001001_00001000_00000111_001100_01, {}, .amoswp ⟨7, 8, 9, 2, false, false, true, 1, 6⟩),
    (0b000000000000001111_0_0_0000_010_0_1_0_10_00001001_00001000_00000111_001100_01, {}, .amocas ⟨7, 8, 9, 2, false, true, false, 2, 15⟩)] = true := by decide +kernel

/-- Words of the E class (Tables 12.6, 12.15). -/
theorem test_words_e_class_1 : readsAs [
    (0b000000010000_000000_0_0_0000_00000000_00000000_00000000_00000111_000101_01, {}, .mfs ⟨7, 0, 0, 0, 16⟩),
    (0b000000010000_000000_0_0_0000_00000001_00000000_00001000_00000000_000101_01, {}, .mts ⟨0, 8, 0, 0, 16⟩),
    (0b000000010000_000000_0_0_0000_00000010_00000000_00000000_00000111_000101_01, {}, .mfc ⟨7, 0, 0, 0, 16⟩),
    (0b000000010000_000000_0_0_0000_00000011_00000000_00001000_00000000_000101_01, {}, .mtc ⟨0, 8, 0, 0, 16⟩),
    (0b000000000000_000000_0_0_0000_00000000_00000000_00000000_00000000_001101_01, {}, .mark),
    (0b000000000000_001011_0_0_0000_00000001_00000000_00000000_00000000_001101_01, {}, .fence ⟨0, 0, 0, 11, 0⟩),
    (0b000000000000_000101_0_0_0000_00000010_00001001_00001000_00000000_001101_01, {}, .cflush ⟨0, 8, 9, 5, 0⟩),
    (0b000000000000_000000_0_0_0000_00000011_00001001_00001000_00000000_001101_01, {}, .icinv ⟨0, 8, 9, 0, 0⟩),
    (0b000000000000_000000_0_0_0000_00000100_00000000_00000000_00000000_001101_01, {}, .fbar),
    (0b100000000001_000000_0_0_0000_00000101_00000000_00001000_00000000_001101_01, {}, .prf ⟨0, 8, 0, 0, 2049⟩),
    (0b000001000001_100001_0_0_0000_00000000_00000000_00001000_00000111_001110_01, {}, .ldp ⟨7, 8, 0, 33, 65⟩),
    (0b000000100001_100001_0_0_0000_00000001_00001001_00001000_00000000_001110_01, {}, .stp ⟨0, 8, 9, 33, 33⟩),
    (0b001000000001_000000_0_0_0000_00000000_00000000_00001000_00000000_010100_01, {}, .sigdef ⟨0, 8, 0, 0, 513⟩),
    (0b001000000001_000000_0_0_0000_00000001_00000000_00000000_00000000_010100_01, {}, .sigdrop ⟨0, 0, 0, 0, 513⟩),
    (0b000000000000_000000_0_0_0000_00000010_00000000_00000000_00000000_010100_01, {}, .tick),
    (0b001000000001_110000_0_0_0000_00000011_10000001_00001000_00000111_010100_01, {}, .tapld ⟨7, 8, 129, 48, 513⟩),
    (0b001000000001_000101_0_0_0000_00000100_00000000_00001000_00000111_010100_01, {}, .tapst ⟨7, 8, 0, 5, 513⟩),
    (0b001000000001_100000_0_0_0000_00000100_00001001_00001000_00000111_010100_01, {}, .tapstTick ⟨7, 8, 9, 32, 513⟩),
    (0b001000000001_000000_0_0_0000_00000101_00000000_00000000_00000111_010100_01, {}, .sighead ⟨7, 0, 0, 0, 513⟩),
    (0b001000000001_000000_0_0_0000_00000110_00000000_00000000_00000000_010100_01, {}, .sigrst ⟨0, 0, 0, 0, 513⟩),
    (0b001000000001_000000_0_0_0000_00000111_00000000_00000000_00000000_010100_01, {}, .sigseal ⟨0, 0, 0, 0, 513⟩),
    (0b001000000001_000000_0_0_0000_00001000_00000000_00001000_00000000_010100_01, {}, .sigevict ⟨0, 8, 0, 0, 513⟩),
    (0b001000000001_000000_0_0_0000_00001001_00000000_00001000_00000111_010100_01, {}, .sigpos ⟨7, 8, 0, 0, 513⟩),
    (0b000000000000_000000_0_0_0000_00001010_00000000_00001000_00000000_010100_01, {}, .sctx ⟨0, 8, 0, 0, 0⟩),
    (0b111100001000_000100_0_0_0000_00000000_00001001_00001000_10010001_011000_01, {}, .push ⟨145, 8, 9, 4, 3848⟩),
    (0b000000000111_000000_0_0_0000_00000001_00001001_00001000_00000000_011000_01, {}, .wait ⟨0, 8, 9, 0, 7⟩),
    (0b000000000111_000000_0_0_0000_00000010_00001001_00000000_00000111_011000_01, {}, .tlread ⟨7, 0, 9, 0, 7⟩),
    (0b000001000010_000000_0_0_0000_00000011_00000000_00001000_00000000_011000_01, {}, .fork ⟨0, 8, 0, 0, 66⟩),
    (0b000001000010_000000_0_0_0000_00000100_00000000_00000000_00000000_011000_01, {}, .rdv ⟨0, 0, 0, 0, 66⟩),
    (0b000000010001_000001_0_0_0000_00000101_00000000_00001000_00000000_011000_01, {}, .evset ⟨0, 8, 0, 1, 17⟩),
    (0b000000010001_000000_0_0_0000_00000110_00000000_00000000_00000000_011000_01, {}, .evpulse ⟨0, 0, 0, 0, 17⟩),
    (0b000000010001_000000_0_0_0000_00000111_00000000_00000000_00000000_011000_01, {}, .wfe ⟨0, 0, 0, 0, 17⟩)] = true := by decide +kernel

/-- Words of the E class (Tables 12.6, 12.15). -/
theorem test_words_e_class_2 : readsAs [
    (0b000000000000_000000_0_0_0000_00001000_00001001_00001000_10100001_011000_01, {}, .sbind ⟨161, 8, 9, 0, 0⟩),
    (0b000000000000_000000_0_0_0000_00000000_00000000_00001000_00000111_011001_01, {}, .spawn ⟨7, 8, 0, 0, 0⟩),
    (0b000000000000_000000_0_0_0000_00000001_00000000_00001000_10010001_011001_01, {}, .join ⟨145, 8, 0, 0, 0⟩),
    (0b000000000000_000001_0_0_0000_00000001_00000000_00001000_10010001_011001_01, {}, .joinBatch ⟨145, 8, 0, 1, 0⟩),
    (0b000000000000_000000_0_0_0000_00000010_00000000_00000000_00000000_011001_01, {}, .yield),
    (0b000000000000_000000_0_0_0000_00000011_00000000_00000000_00000000_011001_01, {}, .done),
    (0b000000001001_000000_0_0_0000_00000100_00000000_00000000_00000000_011001_01, {}, .gbar ⟨0, 0, 0, 0, 9⟩),
    (0b000000000000_000000_0_0_0000_00000101_00000000_00000000_10010001_011001_01, {}, .budget ⟨145, 0, 0, 0, 0⟩),
    (0b100000000001_000001_0_0_0000_00000000_00001001_00001000_10010001_011010_01, {}, .eqpush ⟨145, 8, 9, 1, 2049⟩),
    (0b000000000000_000000_0_0_0000_00000001_00001001_00001000_00000111_011010_01, {}, .eqcfg ⟨7, 8, 9, 0, 0⟩),
    (0b100000000001_000000_0_0_0000_00000010_00001001_00000000_00000111_011010_01, {}, .eqfire ⟨7, 0, 9, 0, 2049⟩),
    (0b100000000001_000000_0_0_0000_00000011_00001001_00001000_00000111_011010_01, {}, .eqpop ⟨7, 8, 9, 0, 2049⟩),
    (0b100000000001_000000_0_0_0000_00000100_00001001_00000000_00000111_011010_01, {}, .eqstat ⟨7, 0, 9, 0, 2049⟩),
    (0b000000000000_000001_0_0_0000_00000000_00001001_00001000_00000000_011011_01, {}, .gfstep ⟨0, 8, 9, 1, 0⟩),
    (0b000000000000_000011_0_0_0000_00000000_00001001_00001000_00000000_011011_01, {}, .gfstepSet ⟨0, 8, 9, 3, 0⟩),
    (0b000000000000_000001_0_0_0000_00000001_00001001_00001000_00000000_011011_01, {}, .gfmask ⟨0, 8, 9, 1, 0⟩),
    (0b000000001001_000000_0_0_0000_00000010_00001001_00001000_00000000_011011_01, {}, .rply ⟨0, 8, 9, 0, 9⟩),
    (0b000000000000_000001_0_0_0000_00000010_00000000_00000000_00000111_011011_01, {}, .rplyTake ⟨7, 0, 0, 1, 0⟩),
    (0b100000000001_000000_0_0_0000_00000011_00001001_00001000_00000111_011011_01, {}, .embld ⟨7, 8, 9, 0, 2049⟩),
    (0b000000000000_000000_0_0_0000_00000100_00001001_00001000_00000000_011011_01, {}, .vrandk ⟨0, 8, 9, 0, 0⟩),
    (0b000000101001_100010_0_0_0000_00000000_00001001_00001000_00000111_011100_01, {}, .tld ⟨7, 8, 9, 34, 41⟩),
    (0b000000011001_100000_0_0_0000_00000001_00001001_00001000_00000000_011100_01, {}, .tst ⟨0, 8, 9, 32, 25⟩),
    (0b010000100001_010111_0_0_0000_00000010_00001001_00001000_00000000_011100_01, {}, .mma ⟨0, 8, 9, 23, 1057⟩),
    (0b010000100001_000010_0_0_0000_00000011_00000000_00000000_00000000_011100_01, {}, .mmaz ⟨0, 0, 0, 2, 1057⟩),
    (0b000000000000_000000_0_0_0000_00000100_00001001_00001000_00000111_011100_01, {}, .scld ⟨7, 8, 9, 0, 0⟩),
    (0b000000001001_000111_0_0_0000_00000101_00000000_00000000_00000111_011100_01, {}, .nestgo ⟨7, 0, 0, 7, 9⟩),
    (0b000000000110_000101_0_0_0000_00000110_00001001_00001000_00000111_011100_01, {}, .accmov ⟨7, 8, 9, 5, 6⟩),
    (0b000000000110_000001_0_0_0000_00000111_00000000_00000000_00000000_011100_01, {}, .accz ⟨0, 0, 0, 1, 6⟩),
    (0b000000000000_000000_0_0_0000_00001000_00001001_00001000_00000000_011100_01, {}, .tidset ⟨0, 8, 9, 0, 0⟩),
    (0b000000000000_000000_0_0_0000_00001001_00001001_00001000_00000000_011100_01, {}, .tidinv ⟨0, 8, 9, 0, 0⟩),
    (0b100000000001_000000_0_0_0000_00000000_00000000_00000000_00000000_011101_01, {}, .trap ⟨0, 0, 0, 0, 2049⟩),
    (0b000000000000_000000_0_0_0000_00000001_00000000_00000000_00000000_011101_01, {}, .eret)] = true := by decide +kernel

/-- Words of the E class (Tables 12.6, 12.15). -/
theorem test_words_e_class_3 : readsAs [
    (0b100000000001_000000_0_0_0000_00000010_00000000_00000000_00000000_011101_01, {}, .bkpt ⟨0, 0, 0, 0, 2049⟩),
    (0b000000000000_000010_0_0_0000_00000011_00001001_00001000_00000000_011101_01, {}, .tlbinv ⟨0, 8, 9, 2, 0⟩)] = true := by decide +kernel

/-- Words of the L class (Tables 12.7, 12.16). -/
theorem test_words_l_class : readsAs [
    (0b10000000000000000000000000000001_100000000000000001_0_0_0000_00000000_00000000_00000000_00000111_000000_10, {}, .liw ⟨7, 0, 0, false, 131073, 2147483649⟩),
    (0b10000000000000000000000000000001_000000000000000000_0_1_0011_00000000_00000000_00001000_00000111_000001_10, ⟨3, true, false⟩, .addL ⟨7, 8, 0, false, 0, 2147483649⟩),
    (0b10000000000000000000000000000001_000000000000000000_1_1_0011_00000001_00000000_00001000_00000111_000001_10, ⟨3, true, false⟩, .subL ⟨7, 8, 0, true, 0, 2147483649⟩),
    (0b10000000000000000000000000000001_000000000000000000_0_1_0011_00000010_00000000_00001000_00000111_000001_10, ⟨3, true, false⟩, .andL ⟨7, 8, 0, false, 0, 2147483649⟩),
    (0b10000000000000000000000000000001_000000000000000000_1_1_0011_00000011_00000000_00001000_00000111_000001_10, ⟨3, true, false⟩, .orL ⟨7, 8, 0, true, 0, 2147483649⟩),
    (0b10000000000000000000000000000001_000000000000000000_0_1_0011_00000100_00000000_00001000_00000111_000001_10, ⟨3, true, false⟩, .xorL ⟨7, 8, 0, false, 0, 2147483649⟩),
    (0b10000000000000000000000000000001_000000000000000000_1_1_0011_00000101_00000000_00001000_00000111_000001_10, ⟨3, true, false⟩, .andnL ⟨7, 8, 0, true, 0, 2147483649⟩),
    (0b10000000000000000000000000000001_000000000000000000_0_1_0011_00000110_00000000_00001000_00000111_000001_10, ⟨3, true, false⟩, .shlL ⟨7, 8, 0, false, 0, 2147483649⟩),
    (0b10000000000000000000000000000001_000000000000000000_1_1_0011_00000111_00000000_00001000_00000111_000001_10, ⟨3, true, false⟩, .shrL ⟨7, 8, 0, true, 0, 2147483649⟩),
    (0b10000000000000000000000000000001_000000000000000000_0_1_0011_00001000_00000000_00001000_00000111_000001_10, ⟨3, true, false⟩, .sraL ⟨7, 8, 0, false, 0, 2147483649⟩),
    (0b10000000000000000000000000000001_000000000000000000_1_1_0011_00001001_00000000_00001000_00000111_000001_10, ⟨3, true, false⟩, .minL ⟨7, 8, 0, true, 0, 2147483649⟩),
    (0b10000000000000000000000000000001_000000000000000000_0_1_0011_00001010_00000000_00001000_00000111_000001_10, ⟨3, true, false⟩, .maxL ⟨7, 8, 0, false, 0, 2147483649⟩),
    (0b10000000000000000000000000000001_000000000000000000_1_1_0011_00001011_00000000_00001000_00000111_000001_10, ⟨3, true, false⟩, .minuL ⟨7, 8, 0, true, 0, 2147483649⟩),
    (0b10000000000000000000000000000001_000000000000000000_0_1_0011_00001100_00000000_00001000_00000111_000001_10, ⟨3, true, false⟩, .maxuL ⟨7, 8, 0, false, 0, 2147483649⟩),
    (0b10000000000000000000000000000001_000000000000000000_1_1_0011_00001101_00000000_00001000_00000111_000001_10, ⟨3, true, false⟩, .mulL ⟨7, 8, 0, true, 0, 2147483649⟩),
    (0b10000000000000000000000000000001_000000000000000000_1_1_0011_00001111_00000000_00001000_00000111_000001_10, ⟨3, true, false⟩, .mulhL ⟨7, 8, 0, true, 0, 2147483649⟩),
    (0b10000000000000000000000000000001_000000000000000000_0_1_0011_00010000_00000000_00001000_00000111_000001_10, ⟨3, true, false⟩, .mulhuL ⟨7, 8, 0, false, 0, 2147483649⟩),
    (0b10000000000000000000000000000001_000000000000000000_1_1_0011_00010001_00000000_00001000_00000111_000001_10, ⟨3, true, false⟩, .divL ⟨7, 8, 0, true, 0, 2147483649⟩),
    (0b10000000000000000000000000000001_000000000000000000_0_1_0011_00010010_00000000_00001000_00000111_000001_10, ⟨3, true, false⟩, .divuL ⟨7, 8, 0, false, 0, 2147483649⟩),
    (0b10000000000000000000000000000001_000000000000000000_1_1_0011_00010011_00000000_00001000_00000111_000001_10, ⟨3, true, false⟩, .remL ⟨7, 8, 0, true, 0, 2147483649⟩),
    (0b10000000000000000000000000000001_000000000000000000_0_1_0011_00010100_00000000_00001000_00000111_000001_10, ⟨3, true, false⟩, .remuL ⟨7, 8, 0, false, 0, 2147483649⟩),
    (0b10000000000000000000000000000001_000000000000000000_1_1_0011_00010101_00000000_00001000_00000111_000001_10, ⟨3, true, false⟩, .rotL ⟨7, 8, 0, true, 0, 2147483649⟩),
    (0b10000000000000000000000000000001_000000000000000000_1_1_0011_00011001_00000000_00001000_00000111_000001_10, ⟨3, true, false⟩, .sextL ⟨7, 8, 0, true, 0, 2147483649⟩),
    (0b10000000000000000000000000000001_000000000000000000_0_1_0011_00011010_00000000_00001000_00000111_000001_10, ⟨3, true, false⟩, .zextL ⟨7, 8, 0, false, 0, 2147483649⟩),
    (0b10000000000000000000000000000001_000000000000000000_1_1_0011_00011101_00000000_00001000_00000111_000001_10, ⟨3, true, false⟩, .selL ⟨7, 8, 0, true, 0, 2147483649⟩),
    (0b10000000000000000000000000000001_000000000000000001_0_0_0000_00000000_00000000_00000000_00000000_000010_10, {}, .jmpl ⟨0, 0, 0, false, 1, 2147483649⟩),
    (0b10000000000000000000000000000001_000000000000011010_0_0_0000_00000000_00001001_00001000_00000000_000011_10, {}, .vshape ⟨0, 8, 9, false, 26, 2147483649⟩),
    (0b00111111100000000000000000000001_000000000000000011_0_0_0000_00000000_00000000_00000000_00000111_000100_10, {}, .fli ⟨7, 0, 0, false, 3, 1065353217⟩)] = true := by decide +kernel

/-- Words of the V class (Tables 12.8, 12.11, 12.13, 12.16). -/
theorem test_words_v_class_1 : readsAs [
    (0b000000000000010100100110_000000000101000010000001_000000010000000010000010_0011_10_1010_0_00000_100000_10, ⟨3, false, false⟩, .vadd ⟨10, 2, 0x10082, 0x5081, 0x526⟩),
    (0b000000000000010100100110_000000000101000010000001_000000010000000010000010_0011_10_1010_1_00001_100000_10, ⟨3, false, true⟩, .vsub ⟨10, 2, 0x10082, 0x5081, 0x526⟩),
    (0b000000000000010100100110_000000000101000010000001_000000010000000010000010_0011_10_1010_0_00010_100000_10, ⟨3, false, false⟩, .vmul ⟨10, 2, 0x10082, 0x5081, 0x526⟩),
    (0b000000000000010100100110_000000000101000010000001_000000010000000010000010_0011_10_1001_1_00011_100000_10, ⟨3, false, true⟩, .vfma ⟨9, 2, 0x10082, 0x5081, 0x526⟩),
    (0b000000000000010100100110_000000000101000010000001_000000010000000010000010_0011_10_0100_0_00100_100000_10, ⟨3, false, false⟩, .vmac ⟨4, 2, 0x10082, 0x5081, 0x526⟩),
    (0b000000000000010100100110_000000000101000010000001_000000010000000010000010_0011_10_1010_1_00101_100000_10, ⟨3, false, true⟩, .vmin ⟨10, 2, 0x10082, 0x5081, 0x526⟩),
    (0b000000000000010100100110_000000000101000010000001_000000010000000010000010_0011_10_1010_0_00110_100000_10, ⟨3, false, false⟩, .vmax ⟨10, 2, 0x10082, 0x5081, 0x526⟩),
    (0b000000000000000000000011_000000000101000010000001_000000010000000010000010_0011_10_1010_1_00111_100000_10, ⟨3, false, true⟩, .vabs ⟨10, 2, 0x10082, 0x5081, 0x3⟩),
    (0b000000000000000000000011_000000000101000010000001_000000010000000010000010_0011_10_1010_0_01000_100000_10, ⟨3, false, false⟩, .vneg ⟨10, 2, 0x10082, 0x5081, 0x3⟩),
    (0b000000000000010100100110_000000000101000010000001_000000010000000010000010_0011_10_0100_1_01001_100000_10, ⟨3, false, true⟩, .vand ⟨4, 2, 0x10082, 0x5081, 0x526⟩),
    (0b000000000000010100100110_000000000101000010000001_000000010000000010000010_0011_10_0100_0_01010_100000_10, ⟨3, false, false⟩, .vor ⟨4, 2, 0x10082, 0x5081, 0x526⟩),
    (0b000000000000010100100110_000000000101000010000001_000000010000000010000010_0011_10_0100_1_01011_100000_10, ⟨3, false, true⟩, .vxor ⟨4, 2, 0x10082, 0x5081, 0x526⟩),
    (0b000000000000010100100110_000000000101000010000001_000000010000000010000010_0011_10_0100_0_01100_100000_10, ⟨3, false, false⟩, .vshl ⟨4, 2, 0x10082, 0x5081, 0x526⟩),
    (0b000000000000010100100110_000000000101000010000001_000000010000000010000010_0011_10_0100_1_01101_100000_10, ⟨3, false, true⟩, .vshr ⟨4, 2, 0x10082, 0x5081, 0x526⟩),
    (0b000000000000010100100110_000000000101000010000001_000000010000000010000010_0011_10_0100_0_01110_100000_10, ⟨3, false, false⟩, .vsra ⟨4, 2, 0x10082, 0x5081, 0x526⟩),
    (0b000000000000001111010011_000000000101000010000001_000000010000000010000010_0011_10_1010_1_01111_100000_10, ⟨3, false, true⟩, .vcvt ⟨10, 2, 0x10082, 0x5081, 0x3D3⟩),
    (0b000000000000010100100110_000000000101000010000001_000000010000000010000010_0011_10_1010_0_10000_100000_10, ⟨3, false, false⟩, .vsel ⟨10, 2, 0x10082, 0x5081, 0x526⟩),
    (0b000000000000010100100110_000000000101000010000001_000000010000000010000010_0011_10_1010_1_10001_100000_10, ⟨3, false, true⟩, .vcmp ⟨10, 2, 0x10082, 0x5081, 0x526⟩),
    (0b000000000000000000000011_000000010000000010000010_000000000000010100100110_0000_01_1000_0_00000_100001_10, {}, .vrcp ⟨8, 1, 0x526, 0x10082, 0x3⟩),
    (0b000000000000000000000011_000000010000000010000010_000000000000010100100110_0000_01_1000_0_00001_100001_10, {}, .vrsq ⟨8, 1, 0x526, 0x10082, 0x3⟩),
    (0b000000000000000000000011_000000010000000010000010_000000000000010100100110_0000_01_1000_0_00010_100001_10, {}, .vexp ⟨8, 1, 0x526, 0x10082, 0x3⟩),
    (0b000000000000000000000011_000000010000000010000010_000000000000010100100110_0000_01_1000_0_00011_100001_10, {}, .vlog ⟨8, 1, 0x526, 0x10082, 0x3⟩),
    (0b000000000000000000000011_000000010000000010000010_000000000000010100100110_0000_01_1000_0_00100_100001_10, {}, .vtanh ⟨8, 1, 0x526, 0x10082, 0x3⟩),
    (0b000000000000000000000011_000000010000000010000010_000000000000000000011111_0000_10_1001_0_00000_100010_10, {}, .vsum ⟨9, 2, 0x1F, 0x10082, 0x3⟩),
    (0b000000000000000000000011_000000010000000010000010_000000000000010100100110_0000_01_1010_0_00001_100010_10, {}, .vmaxr ⟨10, 1, 0x526, 0x10082, 0x3⟩),
    (0b000000000000010100100110_000000010000000010000010_000000000000000000011111_0000_00_1001_0_00010_100010_10, {}, .vdraw ⟨9, 0, 0x1F, 0x10082, 0x526⟩),
    (0b000000000000000000100110_000000000000010100100110_000000000000000000011111_0000_00_1010_0_00011_100010_10, {}, .vdrawm ⟨10, 0, 0x1F, 0x526, 0x26⟩),
    (0b000000000000000000000011_000000010000000010000010_000000000000010100100110_0000_01_0100_0_00100_100010_10, {}, .vscan ⟨4, 1, 0x526, 0x10082, 0x3⟩),
    (0b000000000000000000000011_000000010000000010000010_000000000000000000011111_0000_01_0100_0_00101_100010_10, {}, .vpopc ⟨4, 1, 0x1F, 0x10082, 0x3⟩),
    (0b000000000000010100100110_000000010000000010000010_000000000000000000011111_0000_01_1010_0_00110_100010_10, {}, .vdot ⟨10, 1, 0x1F, 0x10082, 0x526⟩),
    (0b000000000000000000000011_000000000000000000000011_000000000000010100100110_0000_00_1010_0_00111_100010_10, {}, .vrand ⟨10, 0, 0x526, 0x3, 0x3⟩),
    (0b000000000000000000000011_000000010000000010000010_000000000000010100100110_0000_01_0111_0_00000_100011_10, {}, .vcopy ⟨7, 1, 0x526, 0x10082, 0x3⟩)] = true := by decide +kernel

/-- Words of the V class (Tables 12.8, 12.11, 12.13, 12.16). -/
theorem test_words_v_class_2 : readsAs [
    (0b000000000000000000000011_000000000000000000011111_000000000000010100100110_0000_01_0111_0_00001_100011_10, {}, .vfill ⟨7, 1, 0x526, 0x1F, 0x3⟩),
    (0b000000000000001010000111_000000010000000010000010_000000000000010100100110_0000_01_0111_0_00010_100011_10, {}, .vgather ⟨7, 1, 0x526, 0x10082, 0x287⟩),
    (0b000000000000010100100110_000000000000000000011111_000000010000000010000010_0000_01_0111_0_00011_100011_10, {}, .vscatter ⟨7, 1, 0x10082, 0x1F, 0x526⟩),
    (0b000000000000010100100110_000000000101000010000001_000000010000000010000010_0000_01_0111_0_00100_100011_10, {}, .vperm ⟨7, 1, 0x10082, 0x5081, 0x526⟩),
    (0b000000000000000000011110_000000000000000000100010_000000000000010100100110_0000_01_0111_0_00101_100011_10, {}, .vexpand ⟨7, 1, 0x526, 0x22, 0x1E⟩),
    (0b000000000000000000011110_000000010000000010000010_000000000000010100100110_0000_01_1010_0_00110_100011_10, {}, .vfir ⟨10, 1, 0x526, 0x10082, 0x1E⟩),
    (0b000000000101000010000001_000000010000000010000010_000000000000010100100110_0000_01_0111_0_00000_100100_10, {}, .cspush ⟨7, 1, 0x526, 0x10082, 0x5081⟩),
    (0b000000000101000010000001_000000000000010100100110_000000010000000010000010_0000_01_0111_0_00001_100100_10, {}, .cspop ⟨7, 1, 0x10082, 0x526, 0x5081⟩),
    (0b000000000000000000000011_000000000000010100100110_000000010000000010000010_0000_01_0111_0_00010_100100_10, {}, .csroute ⟨7, 1, 0x10082, 0x526, 0x3⟩)] = true := by decide +kernel

/-- The words of the manual's own encoding examples (chapters 12 to 16), each with the instruction its text names. -/
theorem test_words_of_the_manual_1 : readsAs [
    (0x00003110, {}, .li ⟨1, 3⟩),
    (0x1000020C, {}, .movq ⟨2, 0, false, 0, false, 4⟩),
    (0x03632300, {}, .mulQ ⟨3, 2, true, 1, true, 0⟩),
    (0x1C003304, {}, .addiQ ⟨3, 3, false, 0, false, 7⟩),
    (0x1061300C, {}, .movg ⟨0, 3, true, 0, true, 4⟩),
    (0x00008004_00080A05, {}, .shliG ⟨10, 8, 0, false, 2⟩),
    (0x00000000_020A0A01, {}, .addG ⟨10, 10, 2, false, 0⟩),
    (0x00000002_000A0925, {}, .st ⟨9, 10, 0, 2, false, false, false, 0, 0⟩),
    (0x00000003_00000065, {}, .done),
    (0x006C5400, {}, .subQ ⟨4, 5, false, 6, true, 0⟩),
    (0x0D807204, {}, .sraiQ ⟨2, 7, false, 0, false, 3⟩),
    (0x00000012_16151401, {}, .divuG ⟨20, 21, 22, false, 0⟩),
    (0x00B2001B_00060501, {}, .bfxG ⟨5, 6, 0, false, 0x2C8⟩),
    (0xFF000000_00000002_00090906, {}, .andL ⟨9, 9, 0, false, 0, 0xFF000000⟩),
    (0x00841308, {}, .cmpltQ ⟨3, 1, false, 2, false, 0⟩),
    (0x0019000D_000A9209, {}, .cmpgeuG ⟨0x92, 10, 0, false, 100⟩ true),
    (0x0140340C, {}, .pnot ⟨4, 3, false, 0, false, 0⟩),
    (0x23456789_00004000_00000702, {}, .liw ⟨7, 0, 0, false, 1, 0x23456789⟩),
    (0x3FC00000_00008000_00000512, {}, .fli ⟨5, 0, 0, false, 2, 0x3FC00000⟩),
    (0x00008003_0706050D, {}, .fma ⟨5, 6, 7, false, 2⟩),
    (0x0010C008_0006050D, {}, .fcvt ⟨5, 6, 0, false, 0x43⟩),
    (0x00088007_0706930D, {}, .fcmp ⟨0x93, 6, 7, false, 0x22⟩),
    (0x00000000_00000041, {}, .jalr ⟨0, 0, 0, false, 0⟩),
    (0x00004000_00031041, {}, .jalr ⟨16, 3, 0, false, 1⟩),
    (0x00024000_06080045, {}, .loop ⟨0, 8, 6, false, 9⟩),
    (0xFFFFA02C, {}, .brl ⟨0, 0xFFFFA⟩),
    (0x0000000E_00210801, {}, .movG ⟨8, 33, 0, false, 0⟩),
    (0x01000001_00820015, {}, .mts ⟨0, 0x82, 0, 0, 0x10⟩),
    (0x003E0003_00020921, {}, .ld ⟨9, 2, 0, 3, false, false, false, 0, 248⟩),
    (0x0000008B_000C0E29, {}, .lda ⟨14, 12, 0, 3, false, true, false, 4, 0⟩),
    (0x00000093_000C0D2D, {}, .stl ⟨13, 12, 0, 3, false, false, true, 4, 0⟩),
    (0x00000042_07060531, {}, .amoadd ⟨5, 6, 7, 2, false, false, false, 2, 0⟩),
    (0x0001C09B_07060531, {}, .amocas ⟨5, 6, 7, 3, false, true, true, 4, 7⟩),
    (0x0620C000_00060539, {}, .ldp ⟨5, 6, 0, 3, 0x62⟩),
    (0x00000000_00000035, {}, .mark),
    (0x0002C001_00000035, {}, .fence ⟨0, 0, 0, 11, 0⟩),
    (0x00010002_0B0A0035, {}, .cflush ⟨0, 10, 11, 4, 0⟩),
    (0x00000003_0B0A0035, {}, .icinv ⟨0, 10, 11, 0, 0⟩),
    (0x00000004_00000035, {}, .fbar),
    (0x04000005_000A0035, {}, .prf ⟨0, 10, 0, 0, 64⟩)] = true := by decide +kernel

/-- The words of the manual's own encoding examples (chapters 12 to 16), each with the instruction its text names. -/
theorem test_words_of_the_manual_2 : readsAs [
    (0x00300007_00000061, {}, .wfe ⟨0, 0, 0, 0, 3⟩),
    (0x00500006_00000061, {}, .evpulse ⟨0, 0, 0, 0, 5⟩),
    (0x00000000_00301565, {}, .spawn ⟨21, 48, 0, 0, 0⟩),
    (0x00000001_00169265, {}, .join ⟨0x92, 22, 0, 0, 0⟩),
    (0x00004001_00169265, {}, .joinBatch ⟨0x92, 22, 0, 1, 0⟩),
    (0x00000004_00000065, {}, .gbar ⟨0, 0, 0, 0, 0⟩),
    (0x02A00000_00000075, {}, .trap ⟨0, 0, 0, 0, 0x2A⟩),
    (0x00000001_00000075, {}, .eret),
    (0x00000003_00400000_00002802, {}, .liw ⟨40, 0, 0, false, 256, 3⟩),
    (0x00000000_14289161, {}, .push ⟨0x91, 40, 20, 0, 0⟩),
    (0xFFFFE120, {}, .br ⟨1, 0xFFFFE⟩),
    (0x00700001_00140061, {}, .wait ⟨0, 20, 0, 0, 7⟩),
    (0x00100000_00050051, {}, .sigdef ⟨0, 5, 0, 0, 1⟩),
    (0x00100003_01000651, {}, .tapld ⟨6, 0, 1, 0, 1⟩),
    (0x00004003_2C000551, {}, .tapld ⟨5, 0, 0x2C, 1, 0⟩),
    (0x005C0003_83090751, {}, .tapld ⟨7, 9, 0x83, 0x30, 5⟩),
    (0x00100004_00000551, {}, .tapst ⟨5, 0, 0, 0, 1⟩),
    (0x00100005_00001451, {}, .sighead ⟨20, 0, 0, 0, 1⟩),
    (0x0000000A_00050051, {}, .sctx ⟨0, 5, 0, 0, 0⟩),
    (0x00000000_00020000_0005000E, {}, .vshape ⟨0, 5, 0, false, 8, 0⟩),
    (0x00010000_00018000_0000000E, {}, .vshape ⟨0, 0, 0, false, 6, 0x10000⟩),
    (0x00000A00_00000000_040C468E, {}, .vfir ⟨1, 3, 4, 0, 0xA⟩),
    (0x00001200_000E0000_5302828A, {}, .vdraw ⟨10, 0, 0x53, 0xE, 0x12⟩),
    (0x0003EB00_00160000_1C024F82, {}, .vcvt ⟨9, 0, 0x1C, 0x16, 0x3EB⟩),
    (0x00300000_0B0A0071, {}, .tld ⟨0, 10, 11, 0, 3⟩),
    (0x004C0000_000A0071, {}, .tld ⟨0, 10, 0, 48, 4⟩),
    (0x08200002_00000071, {}, .mma ⟨0, 0, 0, 0, 0x82⟩),
    (0x1915C003_06000071, {}, .mmaz ⟨0, 0, 6, 0x17, 0x191⟩),
    (0x00010005_00001471, {}, .nestgo ⟨20, 0, 0, 4, 0⟩),
    (0x00208006_000C0071, {}, .accmov ⟨0, 12, 0, 2, 2⟩),
    (0x00504007_00000071, {}, .accz ⟨0, 0, 0, 1, 5⟩),
    (0x00000000_0807006D, {}, .gfstep ⟨0, 7, 8, 0, 0⟩),
    (0x0C800003_0403096D, {}, .embld ⟨9, 3, 4, 0, 200⟩),
    (0x00000004_0605006D, {}, .vrandk ⟨0, 5, 6, 0, 0⟩),
    (0x01104000_00289269, {}, .eqpush ⟨0x92, 40, 0, 1, 17⟩),
    (0x01100004_00000569, {}, .eqstat ⟨5, 0, 0, 0, 17⟩)] = true := by decide +kernel

/-- Predicated words of the loop example of chapter 13. -/
theorem test_words_of_the_manual_loop : readsAs [
    (0x0000080D_20206001, ⟨8, false, false⟩, .mulG ⟨96, 32, 32, false, 0⟩),
    (0x00004800_00202005, ⟨8, false, false⟩, .addiG ⟨32, 32, 0, false, 1⟩),
    (0x00000900_61212101, ⟨9, false, false⟩, .addG ⟨33, 33, 97, false, 0⟩),
    (0x00002002_00000051, ⟨0, false, true⟩, .tick)] = true := by decide +kernel

/-! ### Ill-formed instructions -/

/-- Rows without an encoding. -/
theorem test_events_have_no_word : [Instr.powerInputApplied, .schedulerRound, .recoveryCommit].all (fun i =>
    !i.encoded && encodeNat {} i == none) = true := by decide +kernel

/-- One term for each check of `formOk`, each refused. -/
theorem test_ill_formed : [
    Instr.addQ ⟨0, 0, false, 0, false, 0⟩, .addQ ⟨1, 0, false, 0, false, 1⟩, .subQ ⟨1, 2, false, 3, false, 1⟩,
    .movQ ⟨1, 2, false, 3, false, 0⟩, .movQ ⟨1, 2, false, 0, true, 0⟩, .movQ ⟨1, 2, false, 0, false, 1⟩,
    .addiQ ⟨1, 2, false, 3, false, 0⟩, .addiQ ⟨1, 2, false, 0, true, 0⟩, .cmpeqQ ⟨1, 2, false, 3, false, 1⟩,
    .movq ⟨1, 2, false, 0, false, 0⟩, .movq ⟨1, 0, true, 0, false, 0⟩, .movq ⟨1, 0, false, 3, false, 0⟩,
    .movg ⟨1, 2, false, 0, false, 0⟩, .movg ⟨0, 2, false, 3, false, 0⟩, .pand ⟨1, 2, true, 3, false, 0⟩,
    .pand ⟨1, 2, false, 3, true, 0⟩, .pand ⟨1, 2, false, 3, false, 1⟩, .pnot ⟨1, 2, false, 3, false, 0⟩,
    .pnot ⟨1, 2, true, 0, false, 0⟩, .pnot ⟨1, 2, false, 0, true, 0⟩, .pnot ⟨1, 2, false, 0, false, 1⟩, .jmp ⟨1, 0⟩,
    .addG ⟨1, 2, 3, false, 1⟩, .movG ⟨1, 2, 0, false, 1⟩, .movG ⟨1, 2, 3, false, 0⟩, .bfxG ⟨1, 2, 0, false, 4096⟩,
    .bfxG ⟨1, 2, 0, false, 63 + 64⟩, .bfxG ⟨1, 2, 3, false, 0⟩, .bfiG ⟨1, 2, 3, false, 1 + 63 * 64⟩,
    .addiG ⟨1, 2, 3, false, 0⟩, .shliG ⟨1, 2, 3, false, 0⟩, .shliG ⟨1, 2, 0, false, 64⟩,
    .addL ⟨1, 2, 0, false, 1, 0⟩, .addL ⟨1, 2, 3, false, 0, 0⟩, .cmpeqG ⟨0x91, 2, 3, false, 1⟩ false,
    .cmpeqG ⟨0x91, 2, 3, false, 0⟩ true, .fadd ⟨1, 2, 3, false, 4⟩, .fcmp ⟨0x91, 2, 3, false, 4⟩,
    .fcmp ⟨0x91, 2, 3, false, 128⟩, .fcvt ⟨1, 2, 0, false, 0x44⟩, .fcvt ⟨1, 2, 0, false, 0x0A⟩,
    .fcvt ⟨1, 2, 0, false, 0xA0⟩, .fcvt ⟨1, 2, 3, false, 0⟩, .frcp ⟨1, 2, 0, false, 3⟩, .frcp ⟨1, 2, 3, false, 0⟩,
    .frcps ⟨1, 2, 3, false, 3⟩, .mfs ⟨1, 2, 0, 0, 0⟩, .mfs ⟨1, 0, 2, 0, 0⟩, .mfs ⟨1, 0, 0, 1, 0⟩,
    .mts ⟨1, 2, 0, 0, 5⟩, .mts ⟨0, 2, 3, 0, 5⟩, .mts ⟨0, 2, 0, 1, 5⟩].all (fun i => i.encoded && !formOk i) = true := by
  decide +kernel

/-- The same for the M and E classes. -/
theorem test_ill_formed_memory : [
    Instr.ld ⟨1, 2, 3, 0, false, false, false, 0, 0⟩, .ld ⟨1, 2, 0, 0, false, true, false, 0, 0⟩,
    .ld ⟨1, 2, 0, 0, false, false, true, 0, 0⟩, .ld ⟨1, 2, 0, 0, false, false, false, 1, 0⟩,
    .ld ⟨1, 2, 0, 3, true, false, false, 0, 0⟩, .st ⟨1, 2, 3, 0, false, false, false, 0, 0⟩,
    .st ⟨1, 2, 0, 0, false, true, false, 0, 0⟩, .st ⟨1, 2, 0, 0, false, false, true, 0, 0⟩,
    .st ⟨1, 2, 0, 0, false, false, false, 1, 0⟩, .st ⟨1, 2, 0, 0, true, false, false, 0, 0⟩,
    .lda ⟨1, 2, 3, 0, false, true, false, 1, 0⟩, .lda ⟨1, 2, 0, 0, false, false, false, 1, 0⟩,
    .lda ⟨1, 2, 0, 0, false, true, true, 1, 0⟩, .lda ⟨1, 2, 0, 3, true, true, false, 1, 0⟩,
    .stl ⟨1, 2, 3, 0, false, false, true, 1, 0⟩, .stl ⟨1, 2, 0, 0, false, true, true, 1, 0⟩,
    .stl ⟨1, 2, 0, 0, false, false, false, 1, 0⟩, .stl ⟨1, 2, 0, 0, true, false, true, 1, 0⟩,
    .amoadd ⟨1, 2, 3, 2, false, false, false, 1, 16⟩, .amoadd ⟨1, 2, 3, 2, false, false, false, 1, 1⟩,
    .amoadd ⟨1, 2, 3, 1, false, false, false, 1, 0⟩, .amoadd ⟨1, 2, 3, 2, true, false, false, 1, 0⟩,
    .amoadd ⟨1, 2, 3, 3, false, false, false, 1, 8⟩, .amoand ⟨1, 2, 3, 2, false, false, false, 1, 9⟩,
    .fence ⟨1, 0, 0, 1, 0⟩, .fence ⟨0, 1, 0, 1, 0⟩, .fence ⟨0, 0, 1, 1, 0⟩, .fence ⟨0, 0, 0, 1, 1⟩,
    .fence ⟨0, 0, 0, 32, 0⟩, .cflush ⟨1, 2, 3, 4, 0⟩, .cflush ⟨0, 2, 3, 4, 1⟩, .cflush ⟨0, 2, 3, 8, 0⟩,
    .icinv ⟨1, 2, 3, 0, 0⟩, .icinv ⟨0, 2, 3, 0, 1⟩, .icinv ⟨0, 2, 3, 1, 0⟩, .prf ⟨1, 2, 0, 0, 0⟩,
    .prf ⟨0, 2, 3, 0, 0⟩, .prf ⟨0, 2, 0, 1, 0⟩, .ldp ⟨1, 2, 3, 0, 0⟩, .ldp ⟨1, 2, 0, 0, 128⟩, .stp ⟨1, 2, 3, 0, 0⟩,
    .stp ⟨0, 2, 3, 0, 64⟩].all (fun i => i.encoded && !formOk i) = true := by decide +kernel

/-- The same for control, signals, engines and tasks. -/
theorem test_ill_formed_control : [
    Instr.jalr ⟨1, 2, 3, false, 0⟩, .jalr ⟨1, 2, 0, false, 2⟩, .loop ⟨1, 2, 3, false, 0⟩, .sigdef ⟨1, 2, 0, 0, 0⟩,
    .sigdef ⟨0, 2, 3, 0, 0⟩, .sigdef ⟨0, 2, 0, 1, 0⟩, .sigdef ⟨0, 2, 0, 0, 1024⟩, .sigdrop ⟨1, 0, 0, 0, 0⟩,
    .sigdrop ⟨0, 1, 0, 0, 0⟩, .sigdrop ⟨0, 0, 1, 0, 0⟩, .sigdrop ⟨0, 0, 0, 1, 0⟩, .sigdrop ⟨0, 0, 0, 0, 1024⟩,
    .tapld ⟨1, 2, 3, 0, 1024⟩, .tapld ⟨1, 2, 0x80, 17, 0⟩, .tapst ⟨1, 2, 3, 0, 1024⟩, .tapst ⟨1, 2, 3, 32, 0⟩,
    .tapst ⟨1, 2, 0x80, 17, 0⟩, .tapstTick ⟨1, 2, 3, 32, 1024⟩, .tapstTick ⟨1, 2, 3, 33, 0⟩, .sighead ⟨1, 2, 0, 0, 0⟩,
    .sighead ⟨1, 0, 3, 0, 0⟩, .sighead ⟨1, 0, 0, 1, 0⟩, .sighead ⟨1, 0, 0, 0, 1024⟩, .sigevict ⟨1, 2, 0, 0, 0⟩,
    .sigevict ⟨0, 2, 3, 0, 0⟩, .sigevict ⟨0, 2, 0, 1, 0⟩, .sigevict ⟨0, 2, 0, 0, 1024⟩, .sigpos ⟨1, 2, 3, 0, 0⟩,
    .sigpos ⟨1, 2, 0, 1, 0⟩, .sigpos ⟨1, 2, 0, 0, 1024⟩, .sctx ⟨1, 2, 0, 0, 0⟩, .sctx ⟨0, 2, 3, 0, 0⟩,
    .sctx ⟨0, 2, 0, 1, 0⟩, .sctx ⟨0, 2, 0, 0, 1⟩, .push ⟨0x91, 2, 3, 8, 0⟩, .wait ⟨1, 2, 3, 0, 1⟩, .wait ⟨0, 2, 3, 1, 1⟩,
    .wait ⟨0, 2, 3, 0, 16⟩, .tlread ⟨1, 2, 3, 0, 1⟩, .tlread ⟨1, 0, 3, 1, 1⟩, .tlread ⟨1, 0, 3, 0, 16⟩,
    .fork ⟨1, 2, 0, 0, 0⟩, .fork ⟨0, 2, 3, 0, 0⟩, .fork ⟨0, 2, 0, 1, 0⟩, .fork ⟨0, 2, 0, 0, 128⟩, .rdv ⟨1, 0, 0, 0, 0⟩,
    .rdv ⟨0, 0, 0, 0, 128⟩, .evset ⟨1, 2, 0, 0, 0⟩, .evset ⟨0, 2, 3, 0, 0⟩, .evset ⟨0, 2, 0, 2, 0⟩,
    .evset ⟨0, 2, 0, 0, 32⟩, .wfe ⟨1, 0, 0, 0, 0⟩, .wfe ⟨0, 0, 0, 0, 32⟩, .sbind ⟨0xA1, 2, 3, 1, 0⟩,
    .sbind ⟨0xA1, 2, 3, 0, 1⟩, .spawn ⟨1, 2, 3, 0, 0⟩, .spawn ⟨1, 2, 0, 1, 0⟩, .spawn ⟨1, 2, 0, 0, 1⟩,
    .join ⟨0, 2, 3, 0, 0⟩, .join ⟨0, 2, 0, 1, 0⟩, .join ⟨0, 2, 0, 0, 1⟩, .joinBatch ⟨0, 2, 3, 1, 0⟩,
    .joinBatch ⟨0, 2, 0, 0, 0⟩, .joinBatch ⟨0, 2, 0, 1, 1⟩, .gbar ⟨1, 0, 0, 0, 0⟩, .gbar ⟨0, 0, 0, 0, 16⟩,
    .budget ⟨0, 1, 0, 0, 0⟩, .budget ⟨0, 0, 1, 0, 0⟩, .budget ⟨0, 0, 0, 1, 0⟩, .budget ⟨0, 0, 0, 0, 1⟩].all
    (fun i => i.encoded && !formOk i) = true := by decide +kernel

/-- The same for the Geyser, the generation members, tiles and traps. -/
theorem test_ill_formed_engines : [
    Instr.eqpush ⟨1, 2, 3, 0, 0⟩, .eqpush ⟨0x91, 2, 3, 2, 0⟩, .eqcfg ⟨1, 2, 3, 1, 0⟩, .eqcfg ⟨1, 2, 3, 0, 1⟩,
    .eqfire ⟨1, 2, 3, 0, 0⟩, .eqfire ⟨1, 0, 3, 1, 0⟩, .eqpop ⟨1, 2, 3, 1, 0⟩, .gfstep ⟨1, 2, 3, 0, 0⟩,
    .gfstep ⟨0, 2, 3, 0, 1⟩, .gfstep ⟨0, 2, 3, 2, 0⟩, .gfstepSet ⟨1, 2, 3, 2, 0⟩, .gfstepSet ⟨0, 2, 3, 2, 1⟩,
    .gfstepSet ⟨0, 2, 3, 1, 0⟩, .gfstepSet ⟨0, 2, 3, 4, 0⟩, .gfmask ⟨1, 2, 3, 0, 0⟩, .gfmask ⟨0, 2, 3, 0, 1⟩,
    .gfmask ⟨0, 2, 3, 2, 0⟩, .rply ⟨1, 2, 3, 0, 0⟩, .rply ⟨0, 2, 3, 0, 16⟩, .rply ⟨0, 2, 3, 2, 0⟩,
    .rplyTake ⟨1, 2, 0, 1, 0⟩, .rplyTake ⟨1, 0, 3, 1, 0⟩, .rplyTake ⟨1, 0, 0, 1, 1⟩, .rplyTake ⟨1, 0, 0, 2, 0⟩,
    .embld ⟨1, 2, 3, 1, 0⟩, .vrandk ⟨1, 2, 3, 0, 0⟩, .vrandk ⟨0, 2, 3, 1, 0⟩, .vrandk ⟨0, 2, 3, 0, 1⟩,
    .tld ⟨0, 2, 3, 0, 64⟩, .tld ⟨0, 2, 3, 3, 0⟩, .tld ⟨1, 2, 3, 0, 0⟩, .tld ⟨0, 2, 3, 0, 32⟩, .tst ⟨1, 2, 3, 0, 0⟩,
    .tst ⟨0, 2, 3, 0, 32⟩, .tst ⟨0, 2, 3, 1, 0⟩, .mma ⟨1, 0, 0, 1, 0⟩, .mma ⟨0, 0, 0, 32, 0⟩, .mma ⟨0, 0, 0, 1, 2048⟩,
    .mma ⟨0, 0, 0, 11, 0⟩, .mma ⟨0, 0, 0, 16, 0⟩, .mma ⟨0, 0, 0, 22, 0⟩, .mma ⟨0, 0, 0, 7, 0⟩, .mma ⟨0, 2, 0, 1, 0⟩,
    .mmaz ⟨0, 0, 3, 1, 0⟩, .scld ⟨1, 2, 3, 1, 0⟩, .scld ⟨1, 2, 3, 0, 1⟩, .nestgo ⟨1, 2, 0, 0, 0⟩,
    .nestgo ⟨1, 0, 3, 0, 0⟩, .nestgo ⟨1, 0, 0, 11, 0⟩, .nestgo ⟨1, 0, 0, 0, 16⟩, .accmov ⟨1, 2, 3, 0, 0⟩,
    .accmov ⟨0, 2, 3, 6, 0⟩, .accmov ⟨0, 2, 3, 0, 8⟩, .accz ⟨1, 0, 0, 0, 0⟩, .accz ⟨0, 2, 0, 0, 0⟩,
    .accz ⟨0, 0, 3, 0, 0⟩, .accz ⟨0, 0, 0, 2, 0⟩, .accz ⟨0, 0, 0, 0, 8⟩, .tidset ⟨1, 2, 3, 0, 0⟩,
    .tidset ⟨0, 2, 3, 1, 0⟩, .tidset ⟨0, 2, 3, 0, 1⟩, .trap ⟨1, 0, 0, 0, 0⟩, .bkpt ⟨0, 0, 0, 1, 0⟩,
    .tlbinv ⟨1, 2, 3, 0, 0⟩, .tlbinv ⟨0, 2, 3, 0, 1⟩, .tlbinv ⟨0, 2, 3, 4, 0⟩].all (fun i => i.encoded && !formOk i)
    = true := by decide +kernel

/-- The same for the long forms and the V class. -/
theorem test_ill_formed_vector : [
    Instr.liw ⟨1, 2, 0, false, 0, 0⟩, .liw ⟨1, 0, 3, false, 0, 0⟩, .jmpl ⟨1, 0, 0, false, 0, 0⟩,
    .jmpl ⟨0, 2, 0, false, 0, 0⟩, .jmpl ⟨0, 0, 3, false, 0, 0⟩, .jmpl ⟨0, 0, 0, false, 2, 0⟩,
    .vshape ⟨1, 0, 0, false, 0, 0⟩, .vshape ⟨0, 0, 0, false, 32, 0⟩, .vshape ⟨0, 2, 0, false, 0, 0⟩,
    .vshape ⟨0, 0, 3, false, 0, 0⟩, .fli ⟨1, 2, 0, false, 0, 0⟩, .fli ⟨1, 0, 3, false, 0, 0⟩,
    .fli ⟨1, 0, 0, false, 4, 0⟩, .fli ⟨1, 0, 0, false, 18, 0⟩, .vadd ⟨11, 0, 2, 2, 2⟩, .vfma ⟨5, 0, 2, 2, 2⟩,
    .vfma ⟨11, 0, 2, 2, 2⟩, .vand ⟨6, 0, 2, 2, 2⟩, .vrcp ⟨7, 0, 2, 2, 3⟩, .vrcp ⟨11, 0, 2, 2, 3⟩,
    .vsum ⟨11, 0, 2, 2, 3⟩, .vdraw ⟨7, 0, 3, 2, 2⟩, .vdraw ⟨10, 1, 3, 2, 2⟩, .vdrawm ⟨9, 0, 3, 2, 2⟩,
    .vrand ⟨10, 1, 2, 3, 3⟩, .vdot ⟨6, 0, 2, 2, 2⟩, .vfir ⟨7, 0, 2, 0, 2⟩, .vdot ⟨11, 0, 2, 2, 2⟩,
    .vcopy ⟨11, 0, 2, 2, 3⟩].all (fun i => i.encoded && !formOk i) = true := by decide +kernel

/-- One term for each check of `operandsOk`, well formed otherwise, each refused. -/
theorem test_ill_operands : [
    Instr.cmpeqQ ⟨0, 2, false, 3, false, 0⟩, .pand ⟨0, 2, false, 3, false, 0⟩, .addG ⟨0xA0, 2, 3, false, 0⟩,
    .addG ⟨1, 0xA8, 3, false, 0⟩, .addG ⟨1, 2, 0xA8, false, 0⟩, .addL ⟨0xA0, 2, 0, false, 0, 0⟩,
    .addL ⟨1, 0xA8, 0, false, 0, 0⟩, .cmpeqG ⟨0x90, 2, 3, false, 0⟩ false, .cmpeqG ⟨0x91, 0xA8, 3, false, 0⟩ false,
    .cmpeqG ⟨0x91, 2, 0xA8, false, 0⟩ false, .fcmp ⟨1, 2, 3, false, 0⟩, .fcmp ⟨0x91, 0xA8, 3, false, 0⟩,
    .fcmp ⟨0x91, 2, 0xA8, false, 0⟩, .frcp ⟨0x90, 2, 0, false, 0⟩, .frcp ⟨1, 0xA8, 0, false, 0⟩,
    .frcps ⟨1, 2, 0xA8, false, 0⟩, .mfs ⟨0xA0, 0, 0, 0, 0⟩, .mts ⟨0, 0xA8, 0, 0, 5⟩,
    .ld ⟨1, 0x90, 0, 0, false, false, false, 0, 0⟩, .ld ⟨0x90, 2, 0, 0, false, false, false, 0, 0⟩,
    .st ⟨1, 0x90, 0, 0, false, false, false, 0, 0⟩, .st ⟨0xA8, 2, 0, 0, false, false, false, 0, 0⟩,
    .lda ⟨1, 0x90, 0, 0, false, true, false, 1, 0⟩, .lda ⟨0x90, 2, 0, 0, false, true, false, 1, 0⟩,
    .lda ⟨1, 2, 0, 0, false, true, false, 0, 0⟩, .lda ⟨1, 2, 0, 0, false, true, false, 7, 0⟩,
    .stl ⟨1, 0x90, 0, 0, false, false, true, 1, 0⟩, .stl ⟨0xA8, 2, 0, 0, false, false, true, 1, 0⟩,
    .stl ⟨1, 2, 0, 0, false, false, true, 0, 0⟩, .stl ⟨1, 2, 0, 0, false, false, true, 7, 0⟩,
    .amoadd ⟨1, 0x90, 3, 2, false, false, false, 1, 0⟩, .amoadd ⟨0x90, 2, 3, 2, false, false, false, 1, 0⟩,
    .amoadd ⟨1, 2, 0x90, 2, false, false, false, 1, 0⟩, .amoadd ⟨1, 2, 3, 2, false, false, false, 0, 0⟩,
    .amoadd ⟨1, 2, 3, 2, false, false, false, 7, 0⟩, .fence ⟨0, 0, 0, 0, 0⟩, .fence ⟨0, 0, 0, 7, 0⟩,
    .fence ⟨0, 0, 0, 25, 0⟩, .cflush ⟨0, 0x90, 3, 4, 0⟩, .cflush ⟨0, 2, 0x90, 4, 0⟩, .cflush ⟨0, 2, 3, 3, 0⟩,
    .cflush ⟨0, 2, 3, 7, 0⟩, .icinv ⟨0, 0x90, 3, 0, 0⟩, .icinv ⟨0, 2, 0x90, 0, 0⟩, .prf ⟨0, 0x90, 0, 0, 0⟩,
    .ldp ⟨0x90, 2, 0, 0, 0⟩, .ldp ⟨1, 0x90, 0, 0, 0⟩, .stp ⟨0, 0x90, 3, 0, 0⟩, .stp ⟨0, 2, 0xA8, 0, 0⟩,
    .jalr ⟨0x80, 2, 0, false, 0⟩, .jalr ⟨1, 0xA8, 0, false, 0⟩, .loop ⟨0, 0xA8, 3, false, 0⟩,
    .loop ⟨0, 2, 0xA8, false, 0⟩].all (fun i => i.encoded && formOk i && !operandsOk i) = true := by decide +kernel

/-- The same for signals, engines, tasks and tiles. -/
theorem test_ill_operands_engines : [
    Instr.sigdef ⟨0, 0x90, 0, 0, 0⟩, .tapld ⟨0x90, 2, 3, 0, 0⟩, .tapld ⟨1, 0x90, 3, 0, 0⟩, .tapld ⟨1, 2, 3, 16, 0⟩,
    .tapst ⟨0xA8, 2, 3, 0, 0⟩, .tapst ⟨1, 0x90, 3, 0, 0⟩, .tapst ⟨1, 2, 3, 16, 0⟩, .tapstTick ⟨0xA8, 2, 3, 32, 0⟩,
    .tapstTick ⟨1, 0x90, 3, 32, 0⟩, .tapstTick ⟨1, 2, 0x90, 32, 0⟩, .sighead ⟨126, 0, 0, 0, 0⟩, .sigpos ⟨0x90, 2, 0, 0, 0⟩,
    .sigpos ⟨1, 0x90, 0, 0, 0⟩, .push ⟨0x90, 2, 3, 0, 0⟩, .push ⟨0x91, 121, 3, 0, 0⟩, .push ⟨0x91, 2, 0x80, 0, 0⟩,
    .push ⟨0x91, 2, 3, 5, 0⟩, .push ⟨0x91, 2, 3, 0, 1⟩, .wait ⟨0, 0x90, 3, 0, 1⟩, .wait ⟨0, 2, 0x90, 0, 1⟩,
    .wait ⟨0, 2, 3, 0, 0⟩, .wait ⟨0, 2, 3, 0, 11⟩, .tlread ⟨0x90, 0, 3, 0, 1⟩, .tlread ⟨1, 0, 0x90, 0, 1⟩,
    .tlread ⟨1, 0, 3, 0, 0⟩, .tlread ⟨1, 0, 3, 0, 11⟩, .fork ⟨0, 123, 0, 0, 0⟩, .fork ⟨0, 2, 0, 0, 1⟩,
    .rdv ⟨0, 0, 0, 0, 1⟩, .evset ⟨0, 0x90, 0, 0, 0⟩, .sbind ⟨1, 2, 3, 0, 0⟩, .sbind ⟨0xA1, 121, 3, 0, 0⟩,
    .sbind ⟨0xA1, 2, 0x80, 0, 0⟩, .spawn ⟨0x80, 2, 0, 0, 0⟩, .spawn ⟨1, 121, 0, 0, 0⟩, .join ⟨1, 2, 0, 0, 0⟩,
    .join ⟨0, 0x90, 0, 0, 0⟩, .budget ⟨0x90, 0, 0, 0, 0⟩, .eqpush ⟨0, 125, 3, 0, 0⟩, .eqpush ⟨0, 2, 0x90, 0, 0⟩,
    .eqpush ⟨1, 2, 3, 1, 0⟩, .eqcfg ⟨0x90, 2, 3, 0, 0⟩, .eqcfg ⟨1, 0x90, 3, 0, 0⟩, .eqcfg ⟨1, 2, 0x90, 0, 0⟩,
    .eqfire ⟨0x90, 0, 3, 0, 0⟩, .eqfire ⟨1, 0, 0x90, 0, 0⟩, .gfstep ⟨0, 0x90, 3, 0, 0⟩, .gfstep ⟨0, 2, 0x90, 0, 0⟩,
    .rplyTake ⟨0x90, 0, 0, 1, 0⟩, .embld ⟨0x90, 2, 3, 0, 0⟩, .embld ⟨1, 0x90, 3, 0, 0⟩, .embld ⟨1, 2, 0x90, 0, 0⟩,
    .scld ⟨0x90, 2, 3, 0, 0⟩, .scld ⟨1, 0x90, 3, 0, 0⟩, .scld ⟨1, 2, 0x90, 0, 0⟩, .tst ⟨0, 0x90, 3, 0, 0⟩,
    .tst ⟨0, 2, 0x90, 0, 0⟩, .nestgo ⟨0x90, 0, 0, 0, 0⟩, .tlbinv ⟨0, 0x90, 3, 0, 0⟩, .tlbinv ⟨0, 2, 0x90, 0, 0⟩,
    .tlbinv ⟨0, 2, 3, 3, 0⟩].all (fun i => i.encoded && formOk i && !operandsOk i) = true := by decide +kernel

/-- The same for the long forms and the V class; region 2 is area 0 at g0, 0 signal 0, 3 g0, 0x283 d0, 0x3CB type 2, 7 g1. -/
theorem test_ill_operands_vector : [
    Instr.liw ⟨0xA0, 0, 0, false, 0, 0⟩, .vshape ⟨0, 0xA8, 0, false, 8, 0⟩, .vshape ⟨0, 0, 0xA8, false, 16, 0⟩,
    .vadd ⟨10, 0, 3, 2, 2⟩, .vadd ⟨10, 0, 0x4002, 2, 2⟩, .vadd ⟨10, 0, 2, 0x10001, 2⟩, .vadd ⟨10, 0, 2, 2, 0x403⟩,
    .vadd ⟨10, 0, 2, 0x2402, 2⟩, .vadd ⟨10, 0, 2, 2, 0x243⟩, .vabs ⟨10, 0, 3, 2, 3⟩, .vabs ⟨10, 0, 2, 0x403, 3⟩,
    .vabs ⟨10, 0, 2, 2, 7⟩, .vcvt ⟨10, 0, 3, 2, 0x3CB⟩, .vcvt ⟨10, 0, 2, 0x403, 0x3CB⟩, .vcvt ⟨10, 0, 2, 2, 0x3EF⟩,
    .vsum ⟨10, 0, 0x283, 2, 3⟩, .vsum ⟨10, 0, 2, 0x403, 3⟩, .vsum ⟨10, 0, 2, 2, 7⟩, .vpopc ⟨10, 0, 2, 2, 3⟩,
    .vpopc ⟨10, 0, 3, 0x403, 3⟩, .vpopc ⟨10, 0, 3, 2, 7⟩, .vdot ⟨10, 0, 0x283, 2, 2⟩, .vdot ⟨10, 0, 2, 0x403, 2⟩,
    .vdot ⟨10, 0, 2, 2, 0x403⟩, .vdraw ⟨10, 0, 0x1FF, 2, 2⟩, .vdraw ⟨10, 0, 3, 0x403, 2⟩, .vdraw ⟨10, 0, 3, 2, 3⟩,
    .vdrawm ⟨10, 0, 0x1FF, 2, 2⟩, .vdrawm ⟨10, 0, 3, 3, 2⟩, .vdrawm ⟨10, 0, 3, 2, 3⟩, .vrand ⟨10, 0, 3, 3, 3⟩,
    .vrand ⟨10, 0, 2, 7, 3⟩, .vrand ⟨10, 0, 2, 3, 7⟩, .vfill ⟨10, 0, 3, 3, 3⟩, .vfill ⟨10, 0, 2, 0x283, 3⟩,
    .vfill ⟨10, 0, 2, 3, 7⟩, .vgather ⟨10, 0, 3, 2, 2⟩, .vgather ⟨10, 0, 2, 0x403, 2⟩, .vgather ⟨10, 0, 2, 2, 3⟩,
    .vexpand ⟨10, 0, 3, 2, 2⟩, .vexpand ⟨10, 0, 2, 3, 2⟩, .vexpand ⟨10, 0, 2, 2, 3⟩, .vfir ⟨10, 0, 3, 0, 2⟩,
    .vfir ⟨10, 0, 2, 2, 2⟩, .vfir ⟨10, 0, 2, 0, 3⟩, .cspush ⟨10, 0, 3, 2, 2⟩, .cspush ⟨10, 0, 2, 0x403, 2⟩,
    .cspush ⟨10, 0, 2, 2, 0x403⟩, .cspop ⟨10, 0, 3, 2, 2⟩, .cspop ⟨10, 0, 2, 3, 2⟩, .cspop ⟨10, 0, 2, 2, 0x403⟩,
    .csroute ⟨10, 0, 3, 2, 3⟩, .csroute ⟨10, 0, 2, 3, 3⟩, .csroute ⟨10, 0, 2, 2, 7⟩].all
    (fun i => i.encoded && formOk i && !operandsOk i) = true := by decide +kernel

/-- Majors outside Tables 12.14 to 12.16, and the first member past those listed of every major that has members, raise
ILLEGAL_INSTR (R257). -/
theorem test_reserved_codes :
    ((List.range 64).filter (fun m => !([0, 1, 2, 3, 4, 8, 9, 10, 11, 0x3F] : List Nat).contains m)).all (fun m =>
      decodeWord (4 * m) == .error .illegalInstr) = true ∧
    ((List.range 64).filter (fun m => !([0, 1, 2, 3, 4, 5, 8, 9, 10, 11, 12, 13, 14, 0x10, 0x11, 0x14, 0x18, 0x19, 0x1A, 0x1B,
        0x1C, 0x1D] : List Nat).contains m)).all (fun m => decodeWord (4 * m + 1) == .error .illegalInstr) = true ∧
    ((List.range 64).filter (fun m => !([0, 1, 2, 3, 4, 0x20, 0x21, 0x22, 0x23, 0x24] : List Nat).contains m)).all (fun m =>
      decodeWord (4 * m + 2) == .error .illegalInstr) = true ∧
    [(0, 15), (1, 7), (2, 8), (3, 6)].all (fun m : Nat × Nat =>
      decodeWord (4 * m.1 + 2 ^ 8 + m.2 * 2 ^ 22) == .error .illegalInstr) = true ∧
    [(0, 30), (1, 7), (2, 16), (3, 9), (4, 6), (5, 4), (8, 1), (9, 1), (13, 6), (14, 2), (0x10, 1), (0x11, 1), (0x14, 11),
        (0x18, 9), (0x19, 6), (0x1A, 5), (0x1B, 5), (0x1C, 10), (0x1D, 4)].all (fun m : Nat × Nat =>
      decodeWord (4 * m.1 + 1 + (if m.1 = 8 ∨ m.1 = 9 then m.2 * 2 ^ 24 else m.2 * 2 ^ 32)) == .error .illegalInstr) = true ∧
    [(0, 1), (1, 30), (2, 1), (3, 1), (4, 1)].all (fun m : Nat × Nat =>
      decodeWord (4 * m.1 + 2 + m.2 * 2 ^ 32) == .error .illegalInstr) = true ∧
    [(0x20, 18), (0x21, 5), (0x22, 8), (0x23, 7), (0x24, 3)].all (fun m : Nat × Nat =>
      decodeWord (4 * m.1 + 2 + m.2 * 2 ^ 8) == .error .illegalInstr) = true := by decide +kernel

/-! ### Single instructions, by hand calculation from the tables of chapters 10, 13 and 14 -/

/-- Whether an instruction leaves a value in g7, with g8 and g9 given. -/
def gives (i : Instr) (a b v : Word) (old : Word := 0) : Bool :=
  nexts (exec i (ccState [(7, old), (8, a), (9, b)])) fun t => gValue (me t) 7 == v && (me t).waiting == none

/-- Table 13.1: carries out of bit 63 are lost, the high product, shifts by the low six bits, fields. -/
theorem test_integer_results :
    gives (.addG ⟨7, 8, 9, false, 0⟩) (BitVec.allOnes 64) 1 0 = true ∧
    gives (.mulhG ⟨7, 8, 9, false, 0⟩) (BitVec.allOnes 64) 2 (BitVec.allOnes 64) = true ∧
    gives (.mulhuG ⟨7, 8, 9, false, 0⟩) (BitVec.allOnes 64) 2 1 = true ∧
    gives (.sraG ⟨7, 8, 9, false, 0⟩) (BitVec.ofInt 64 (-8)) 65 (BitVec.ofInt 64 (-4)) = true ∧
    gives (.rotG ⟨7, 8, 9, false, 0⟩) 0x8000000000000001 1 3 = true ∧
    gives (.sextG ⟨7, 8, 9, false, 0⟩) 0x80 7 (BitVec.ofInt 64 (-128)) = true ∧
    gives (.zextG ⟨7, 8, 9, false, 0⟩) 0x1FF 7 0xFF = true ∧
    gives (.bfxG ⟨7, 8, 0, false, 4 + 7 * 64⟩) 0xABC 0 0xAB = true ∧
    gives (.bfiG ⟨7, 8, 9, false, 4 + 7 * 64⟩) 0x1CD 0xF00F 0xFCDF = true ∧
    gives (.andnG ⟨7, 8, 9, false, 0⟩) 0b1100 0b1010 0b0100 = true ∧
    gives (.selG ⟨7, 8, 9, false, 0⟩) 5 6 5 2 = true ∧ gives (.selG ⟨7, 8, 9, false, 0⟩) 5 6 6 = true ∧
    gives (.ctzG ⟨7, 8, 0, false, 0⟩) 0 0 64 = true ∧ gives (.clzG ⟨7, 8, 0, false, 0⟩) 1 0 63 = true ∧
    gives (.andL ⟨7, 8, 0, false, 0, 0xFF000000⟩) (BitVec.allOnes 64) 0 0xFFFFFFFFFF000000 = true := by decide +kernel

/-- R272: rounding to zero, the sign of the remainder, division by zero and the overflowing quotient. -/
theorem test_division :
    gives (.divG ⟨7, 8, 9, false, 0⟩) (BitVec.ofInt 64 (-7)) 2 (BitVec.ofInt 64 (-3)) = true ∧
    gives (.remG ⟨7, 8, 9, false, 0⟩) (BitVec.ofInt 64 (-7)) 2 (BitVec.ofInt 64 (-1)) = true ∧
    gives (.divG ⟨7, 8, 9, false, 0⟩) 5 0 (BitVec.allOnes 64) = true ∧
    gives (.remuG ⟨7, 8, 9, false, 0⟩) 5 0 5 = true ∧
    gives (.divG ⟨7, 8, 9, false, 0⟩) 0x8000000000000000 (BitVec.allOnes 64) 0x8000000000000000 = true ∧
    gives (.remG ⟨7, 8, 9, false, 0⟩) 0x8000000000000000 (BitVec.allOnes 64) 0 = true := by decide +kernel

/-- R204 to R206, R279 to R281: halfway to even, a fused product that a rounded one would lose, conversions. -/
theorem test_float_results :
    gives (.fadd ⟨7, 8, 9, false, 2⟩) 0x3F800000 0x33800000 0x3F800000 = true ∧
    gives (.fadd ⟨7, 8, 9, false, 2⟩) 0x3F800001 0x33800000 0x3F800002 = true ∧
    gives (.fma ⟨7, 8, 9, false, 2⟩) 0x3F800001 0x3F800001 0x28800000 0xBF800002 = true ∧
    gives (.fmul ⟨7, 8, 9, false, 0⟩) 0x3C00 0xC000 0xC000 = true ∧
    gives (.fcvt ⟨7, 8, 0, false, 0x42⟩) 0x40200000 0 2 = true ∧
    gives (.fcvt ⟨7, 8, 0, false, 0x42⟩) 0xBFC00000 0 (BitVec.ofInt 64 (-2)) = true ∧
    gives (.fcvt ⟨7, 8, 0, false, 0x26⟩) (BitVec.ofInt 64 (-3)) 0 0xC0400000 = true := by decide +kernel

/-- Table 12.5 and R223: little-endian bytes, the sign extension of a narrow load. -/
theorem test_load_bytes :
    nexts (exec (.st ⟨7, 8, 0, 1, false, false, false, 0, 4⟩) (ccState [(7, 0xBEEF), (8, 0x1000)])) (fun t =>
      t.mem == writeBytes [] (Loc.hbm 0x1004).key [0xEF, 0xBE]) = true ∧
    nexts (exec (.ld ⟨7, 8, 0, 0, true, false, false, 0, 0x3FFFF⟩)
      { ccState [(8, 0x1001)] with mem := writeBytes [] (Loc.hbm 0x1000).key [0x80] }) (fun t =>
      gValue (me t) 7 == BitVec.ofInt 64 (-128)) = true := by decide +kernel

end Sys2Proof.Tests
end

namespace Sys2Proof.Slice0
open Sys2Proof.Machine

/-! ### Reading, emptying and writing registers: what they leave alone -/

/-- Reading a d register takes an element off a core's FIFO; no read touches a context. -/
theorem readD_ctxs {s t : State} {k : Nat} {v : Word} (h : readD s k = .ok (v, t)) : t.ctxs = s.ctxs := by
  simp only [readD] at h
  cases hfifo : (look {} (myCore s).dregs k).fifo with
  | nil =>
    simp only [hfifo, stopWith] at h
    split_ifs at h
  | cons w rest =>
    simp only [hfifo] at h
    split_ifs at h
    cases h
    rfl

theorem readReg_ctxs {s t : State} {r : BitVec 8} {v : Word} (h : readReg s r = .ok (v, t)) : t.ctxs = s.ctxs := by
  have map_state {x : Act Word} (hx : (x.map fun v => (v, s)) = .ok (v, t)) : t.ctxs = s.ctxs := by
    cases x <;> cases hx
    rfl
  simp only [readReg] at h
  split_ifs at h
  · exact map_state h
  · exact map_state h
  · exact congrArg (fun p => p.2.ctxs) (Except.ok.inj h).symm
  · exact readD_ctxs h
  · cases h

@[simp] theorem emptyIf_ctxs (s : State) (l : Bool) (r : BitVec 8) : (emptyIf s l r).ctxs = s.ctxs := by
  unfold emptyIf
  split <;> rfl

@[simp] theorem emptySources_ctxs (s : State) (lu : Bool) (a : BitVec 8) (b : Second) :
    (emptySources s lu a b).ctxs = s.ctxs := by
  cases b <;> simp [emptySources]

@[simp] theorem setFlags_ctxs (s : State) (f : Flags) : (setFlags s f).ctxs = s.ctxs := rfl

/-- Whether a register has a load outstanding depends on the stream's loads and on its place in the LOOP rotation. -/
theorem settled_congr {st u : Stream} (hl : u.loads = st.loads) (hp : u.lpass = st.lpass) (r : BitVec 8) :
    settled u r = settled st r := by
  have hkey : destKey u r = destKey st r := by unfold destKey stagedSlot; rw [hp]
  unfold settled
  rw [hl, hkey]

@[simp] theorem settled_me_emptyIf (s : State) (l : Bool) (q r : BitVec 8) :
    settled (me (emptyIf s l q)) r = settled (me s) r := by
  unfold emptyIf
  split
  · rw [emptyQ, me_onMe]
    exact settled_congr rfl rfl r
  · rfl

@[simp] theorem settled_me_emptySources (s : State) (lu : Bool) (a : BitVec 8) (b : Second) (r : BitVec 8) :
    settled (me (emptySources s lu a b)) r = settled (me s) r := by
  cases b <;> simp [emptySources]

@[simp] theorem settled_me_setFlags (s : State) (f : Flags) (r : BitVec 8) :
    settled (me (setFlags s f)) r = settled (me s) r := by
  rw [setFlags, me_onMe]
  exact settled_congr rfl rfl r

theorem writeReg_of_settled {s : State} {r : BitVec 8} (h : settled (me s) r = .ok ()) (v : Word) :
    writeReg s r v = .ok (written s r v) := by
  simp only [writeReg, h]
  rfl

/-! ### The two-operand form once its sources have been read -/

theorem readTwo_reg {s s1 s2 : State} {a b : BitVec 8} {x y : Word} (ha : readReg s a = .ok (x, s1))
    (hb : readReg s1 b = .ok (y, s2)) : readTwo s a (.reg b) = .ok (x, y, s2) := by
  simp only [readTwo, ha, hb, bind, Except.bind]
  rfl

theorem readTwo_value {s s1 : State} {a : BitVec 8} {x : Word} (ha : readReg s a = .ok (x, s1)) (y : Word) :
    readTwo s a (.value y) = .ok (x, y, s1) := by
  simp only [readTwo, ha]
  rfl

theorem readTwo_ctxs {s t : State} {a : BitVec 8} {b : Second} {x y : Word} (h : readTwo s a b = .ok (x, y, t)) :
    t.ctxs = s.ctxs := by
  cases ha : readReg s a with
  | error e => simp [readTwo, ha, bind, Except.bind] at h
  | ok p =>
    cases b with
    | value v =>
      rw [readTwo_value ha] at h
      cases h
      exact readReg_ctxs ha
    | reg r =>
      cases hb : readReg p.2 r with
      | error e => simp [readTwo, ha, hb, bind, Except.bind] at h
      | ok q =>
        rw [readTwo_reg ha hb] at h
        cases h
        exact (readReg_ctxs hb).trans (readReg_ctxs ha)

/-- An instruction that executes, has read its sources, and acts without touching a context, completes: it cannot post
an item record, so it cannot stall before one (R166). -/
theorem twoForm_of_readTwo {s s' t : State} {len : Nat} {lu : Bool} {a : BitVec 8} {b : Second} {x y : Word}
    {op : Word → Word → State → Act State} (hg : guardHolds s = true) (hr : readTwo s a b = .ok (x, y, s'))
    (hop : op x y (emptySources s' lu a b) = .ok t) (ht : t.ctxs = s'.ctxs) :
    twoForm s len lu a b op = .next (finish t len none) := by
  have hover : itemsOver s t = false := itemsOver_of_ctxs (ht.trans (readTwo_ctxs hr))
  simp only [twoForm, hg, if_true, hr, bind, Except.bind, hop, concludeNext_ok, hover, Bool.false_eq_true, if_false]

/-! ### Divisions (R272): the operation, its flag and its completion -/

theorem divFlags_eq (y : Word) : divFlags y = if y = 0 then 0x08 else 0 := by
  by_cases hy : y = 0 <;> simp [divFlags, flagIf, flagDZ, hy]

theorem opDiv_eq (a b : Word) :
    opDiv a b = if b = 0 then BitVec.allOnes 64 else BitVec.ofInt 64 (a.toInt.tdiv b.toInt) := by
  have minus_one : (-1 : Word) = BitVec.allOnes 64 := BitVec.neg_one_eq_allOnes
  simp only [opDiv, beq_iff_eq, minus_one]

theorem opDivu_eq (a b : Word) :
    opDivu a b = if b = 0 then BitVec.allOnes 64 else BitVec.ofNat 64 (a.toNat / b.toNat) := by
  simp only [opDivu, beq_iff_eq]

theorem opRem_eq (a b : Word) : opRem a b = if b = 0 then a else BitVec.ofInt 64 (a.toInt.tmod b.toInt) := by
  simp only [opRem, beq_iff_eq]

theorem opRemu_eq (a b : Word) : opRemu a b = if b = 0 then a else BitVec.ofNat 64 (a.toNat % b.toNat) := by
  simp only [opRemu, beq_iff_eq]

/-- Each member of `divideOps` executes as a division by its own operation, in both of its forms. -/
theorem exec_divideOps {p : (GFields → Instr) × (LFields → Instr) × (Word → Word → Word)} (hp : p ∈ divideOps) :
    (∀ f s, exec (p.1 f) s = gDivide f s p.2.2) ∧ ∀ f s, exec (p.2.1 f) s = lDivide f s p.2.2 := by
  simp only [divideOps, List.mem_cons, List.not_mem_nil, or_false] at hp
  obtain rfl | rfl | rfl | rfl := hp
  · simp only [← opDiv_eq]
    exact ⟨fun _ _ => rfl, fun _ _ => rfl⟩
  · simp only [← opDivu_eq]
    exact ⟨fun _ _ => rfl, fun _ _ => rfl⟩
  · simp only [← opRem_eq]
    exact ⟨fun _ _ => rfl, fun _ _ => rfl⟩
  · simp only [← opRemu_eq]
    exact ⟨fun _ _ => rfl, fun _ _ => rfl⟩

/-- What a division does with its operands: it sets the flags of its divisor, then writes its result. -/
theorem twoForm_divide {s s' : State} {len : Nat} {lu : Bool} {a d : BitVec 8} {b : Second} {x y : Word}
    (op : Word → Word → Word) (hg : guardHolds s = true) (hr : readTwo s a b = .ok (x, y, s'))
    (hd : settled (me s') d = .ok ()) :
    twoForm s len lu a b (fun x y s => writeReg (setFlags s (divFlags y)) d (op x y)) =
      .next (finish (written (setFlags (emptySources s' lu a b) (divFlags y)) d (op x y)) len none) :=
  twoForm_of_readTwo hg hr (writeReg_of_settled (by simpa using hd) _) (by simp)

theorem gDivide_eq {f : GFields} {s s1 s2 : State} {x y : Word} (op : Word → Word → Word) (hg : guardHolds s = true)
    (ha : readReg s f.a = .ok (x, s1)) (hb : readReg s1 f.b = .ok (y, s2)) (hd : settled (me s2) f.dst = .ok ()) :
    gDivide f s op =
      .next (finish (written (setFlags (emptySources s2 f.lu f.a (.reg f.b)) (divFlags y)) f.dst (op x y)) 8 none) :=
  twoForm_divide op hg (readTwo_reg ha hb) hd

theorem lDivide_eq {f : LFields} {s s1 : State} {x : Word} (op : Word → Word → Word) (hg : guardHolds s = true)
    (ha : readReg s f.a = .ok (x, s1)) (hd : settled (me s1) f.dst = .ok ()) :
    lDivide f s op = .next (finish (written (setFlags (emptyIf s1 f.lu f.a) (divFlags (f.lit.signExtend 64))) f.dst
      (op x (f.lit.signExtend 64))) 12 none) :=
  twoForm_divide op hg (readTwo_value ha _) hd

/-! ### Signed quotients and remainders of words (R272) -/

/-- The remainder always fits a word: it is the one the library calls `srem`. -/
theorem toInt_ofInt_tmod (a b : Word) : (BitVec.ofInt 64 (a.toInt.tmod b.toInt)).toInt = a.toInt.tmod b.toInt := by
  rw [← BitVec.toInt_srem, BitVec.ofInt_toInt]

/-- a = q·b + r modulo 2^64, which also covers the one quotient that does not fit. -/
theorem ofInt_tdiv_mul_add_ofInt_tmod (a b : Word) :
    BitVec.ofInt 64 (a.toInt.tdiv b.toInt) * b + BitVec.ofInt 64 (a.toInt.tmod b.toInt) = a :=
  calc BitVec.ofInt 64 (a.toInt.tdiv b.toInt) * b + BitVec.ofInt 64 (a.toInt.tmod b.toInt)
    _ = BitVec.ofInt 64 (a.toInt.tdiv b.toInt * b.toInt + a.toInt.tmod b.toInt) := by
      rw [BitVec.ofInt_add, BitVec.ofInt_mul, BitVec.ofInt_toInt]
    _ = a := by rw [Int.tdiv_mul_add_tmod, BitVec.ofInt_toInt]

theorem tmod_nonpos_of_nonpos {a : Int} (b : Int) (ha : a ≤ 0) : a.tmod b ≤ 0 := by
  have hneg : 0 ≤ (-a).tmod b := Int.tmod_nonneg b (by omega)
  rw [Int.neg_tmod] at hneg
  omega

theorem natAbs_tmod_lt (a : Word) {b : Word} (hb : b ≠ 0) : (a.toInt.tmod b.toInt).natAbs < b.toInt.natAbs := by
  have hb' : b.toInt ≠ 0 := fun h => hb (BitVec.toInt_inj.mp (h.trans BitVec.toInt_zero.symm))
  rw [Int.natAbs_tmod]
  exact Nat.mod_lt _ (Int.natAbs_pos.mpr hb')

/-- −2^63 by −1: the quotient 2^63 wraps to the dividend. -/
theorem ofInt_tdiv_of_overflow {a b : Word} (ha : a.toInt = -2 ^ 63) (hb : b.toInt = -1) :
    BitVec.ofInt 64 (a.toInt.tdiv b.toInt) = a := by
  have hquot : a.toInt.tdiv b.toInt = 2 ^ 63 := by rw [ha, hb]; rfl
  have hwrap : BitVec.ofInt 64 (2 ^ 63) = BitVec.ofInt 64 (-2 ^ 63) := by decide
  rw [hquot, hwrap, ← ha, BitVec.ofInt_toInt]

theorem ofInt_tmod_neg_one (a : Word) {b : Word} (hb : b.toInt = -1) :
    BitVec.ofInt 64 (a.toInt.tmod b.toInt) = 0 := by
  rw [hb, Int.tmod_neg, Int.tmod_one]
  rfl

/-- Settles O21: the forms complete with their operation's value and DZ for a zero divisor by `gDivide_eq` and
`lDivide_eq`; the values of R272 are facts about truncated division of integers, brought to words modulo 2^64. -/
theorem divisionResults : Obligations.DivisionResults := by
  unfold Obligations.DivisionResults
  refine ⟨?gForm, ?lForm, ?values, ?overflow⟩
  case gForm =>
    intro p hp f s s1 s2 x y hg ha hb hd
    rw [(exec_divideOps hp).1, gDivide_eq p.2.2 hg ha hb hd]
    exact ⟨_, rfl, by rw [divFlags_eq, setFlags]⟩
  case lForm =>
    intro p hp f s s1 x hg ha hd
    rw [(exec_divideOps hp).2, lDivide_eq p.2.2 hg ha hd]
    exact ⟨_, rfl, by rw [divFlags_eq, setFlags]⟩
  case values =>
    intro a b hb
    rw [toInt_ofInt_tmod]
    exact ⟨ofInt_tdiv_mul_add_ofInt_tmod a b, Int.tmod_nonneg _, tmod_nonpos_of_nonpos _, natAbs_tmod_lt a hb⟩
  case overflow =>
    intro a b ha hb
    exact ⟨ofInt_tdiv_of_overflow ha hb, ofInt_tmod_neg_one a hb⟩

end Sys2Proof.Slice0

namespace Sys2Proof.Slice0
open Sys2Proof.Machine

/-! ### What leaves every stream alone

An instruction that has issued traces its wait and pulses (R168, R309). The trace buffer may lie in core store or behind
a port window, so its writes reach signals, ports and the module; none reaches a register of a stream. -/

/-- Two states in which the same stream issues and every stream, a handler's too, stands the same. -/
structure SameStreams (s t : State) : Prop where
  curCore : t.curCore = s.curCore
  curStream : t.curStream = s.curStream
  streams : ∀ c, (coreOf t c).streams = (coreOf s c).streams
  handler : ∀ c, (coreOf t c).handler = (coreOf s c).handler

namespace SameStreams

theorem refl (s : State) : SameStreams s s := ⟨rfl, rfl, fun _ => rfl, fun _ => rfl⟩

theorem trans {s t u : State} (h : SameStreams s t) (h' : SameStreams t u) : SameStreams s u where
  curCore := h'.curCore.trans h.curCore
  curStream := h'.curStream.trans h.curStream
  streams c := (h'.streams c).trans (h.streams c)
  handler c := (h'.handler c).trans (h.handler c)

theorem me_eq {s t : State} (h : SameStreams s t) : me t = me s := by
  simp only [me, streamOf, h.curCore, h.curStream, h.streams, h.handler]

/-- A change outside the cores. -/
theorem of_cores {s t : State} (hcores : t.cores = s.cores) (hcore : t.curCore = s.curCore)
    (hstream : t.curStream = s.curStream) : SameStreams s t where
  curCore := hcore
  curStream := hstream
  streams c := by rw [coreOf, coreOf, hcores]
  handler c := by rw [coreOf, coreOf, hcores]

theorem onCtx (s : State) (c : Nat) (f : Ctx → Ctx) : SameStreams s (onCtx s c f) := of_cores rfl rfl rfl
theorem onPort (s : State) (p : Nat) (f : Port → Port) : SameStreams s (onPort s p f) := of_cores rfl rfl rfl
theorem onModule (s : State) (f : Module → Module) : SameStreams s (onModule s f) := of_cores rfl rfl rfl

/-- A change to a core's other fields. -/
theorem onCore (s : State) (c : Nat) {f : Core → Core} (hs : ∀ k, (f k).streams = k.streams := by intro; rfl)
    (hh : ∀ k, (f k).handler = k.handler := by intro; rfl) : SameStreams s (onCore s c f) where
  curCore := rfl
  curStream := rfl
  streams d := by
    by_cases hd : d = c
    · rw [hd, coreOf_onCore_self, hs]
    · rw [coreOf_onCore_ne s f hd]
  handler d := by
    by_cases hd : d = c
    · rw [hd, coreOf_onCore_self, hh]
    · rw [coreOf_onCore_ne s f hd]

theorem ite_left {s t : State} {p : Prop} [Decidable p] (h : SameStreams s t) : SameStreams s (if p then t else s) := by
  split
  · exact h
  · exact refl s

theorem ite_right {s t : State} {p : Prop} [Decidable p] (h : SameStreams s t) : SameStreams s (if p then s else t) := by
  split
  · exact refl s
  · exact h

theorem foldl {α : Type} {f : State → α → State} (hf : ∀ s a, SameStreams s (f s a)) (xs : List α) (s : State) :
    SameStreams s (xs.foldl f s) := by
  induction xs generalizing s with
  | nil => exact refl s
  | cons x xs ih => exact (hf s x).trans (ih (f s x))

/-! #### Writes of memory and of port registers -/

theorem setReplace (s : State) : SameStreams s (setReplace s) := by
  obtain ⟨r, n, l, k, i, p, h⟩ := setReplace_eq s
  rw [h]
  exact of_cores rfl rfl rfl

theorem writePark (s : State) (i v : Nat) : SameStreams s (writePark s i v) := by
  have hlog : ∀ s n, SameStreams s (logEvent s 0x0007 (8 * i + n)) := fun s n => onModule s _
  have epoch : ∀ s, SameStreams s (newEpoch s) := fun s => onModule s _
  exact .trans (.trans (.trans (.trans (.trans (onPort s i _) (foldl hlog _ _)) (ite_right (epoch _)))
    (ite_left (setReplace _))) (onPort _ i _)) (onPort _ i _)

theorem writePctl (s : State) (i v : Nat) : SameStreams s (writePctl s i v) := (onPort s i _).trans (onPort _ i _)

theorem portWrite (s : State) (i off v : Nat) : SameStreams s (portWrite s i off v) := by
  have restriped : ∀ f, SameStreams s (restripePort (Machine.onPort s i f) i) := fun f =>
    (onPort s i f).trans (onPort _ i _)
  unfold Machine.portWrite
  split_ifs
  · exact refl s
  · exact restriped _
  · exact onPort s i _
  · split
    · exact restriped _
    · exact restriped _
    · exact writePark s i v
    · exact onPort s i _
    · exact writePctl s i v
    · exact onPort s i _
    · exact refl s

theorem windowWrite (s : State) (off : Nat) (bs : List Byte) : SameStreams s (windowWrite s off bs) := by
  unfold Machine.windowWrite
  exact ite_left (portWrite s _ _ _)

theorem writeAt (s : State) (l : Loc) (bs : List Byte) : SameStreams s (writeAt s l bs) := by
  unfold Machine.writeAt
  exact ite_right (of_cores rfl rfl rfl)

theorem taintStore (s : State) (c o n : Nat) : SameStreams s (taintStore s c o n) := by
  unfold Machine.taintStore
  split
  · exact ite_right (onCore s c)
  · exact refl s

theorem storeAt (s : State) (l : Loc) (bs : List Byte) : SameStreams s (storeAt s l bs) := by
  cases l with
  | bar0 o => exact windowWrite s _ bs
  | store c o => exact (taintStore s c o _).trans (writeAt _ _ bs)
  | hbm | peer | host | refused => exact writeAt s _ bs

theorem storePieces (s : State) (ps : List (Loc × Nat)) (bs : List Byte) : SameStreams s (storePieces s ps bs) := by
  induction ps generalizing s bs with
  | nil => exact refl s
  | cons p ps ih =>
    obtain ⟨l, n⟩ := p
    have piece : SameStreams s (storePiece s l (bs.take n)) := by
      unfold storePiece
      split
      · exact refl s
      · exact storeAt s l _
    exact piece.trans (ih _ _)

theorem writePieces (s : State) (ps : List (Loc × Nat)) (bs : List Byte) : SameStreams s (writePieces s ps bs) := by
  unfold Machine.writePieces
  split
  · exact storeAt s _ _
  · exact storePieces s _ bs

theorem of_writeVirtual {s t : State} {ctx va : Nat} {bs : List Byte} (h : writeVirtual s ctx va bs = some t) :
    SameStreams s t := by
  unfold writeVirtual writeSpace at h
  split at h
  · cases h
    exact writePieces s _ bs
  · cases h

/-! #### The trace (R168) -/

theorem of_traceWrite {s t : State} {ctx : Nat} {bs : List Byte} (h : traceWrite s ctx bs = some t) :
    SameStreams s t := by
  simp only [traceWrite] at h
  split at h
  · cases h
  · split at h
    · cases h
    · next hw =>
      cases h
      exact (of_writeVirtual hw).trans (onCtx _ _ _)

theorem traceFlush (core : Nat) (s : State) (kept es : List (Nat × List Byte)) :
    SameStreams s (traceFlush core s kept es) := by
  induction es generalizing s kept with
  | nil => exact onCore s core
  | cons e es ih =>
    unfold Machine.traceFlush
    split
    · exact ih s _
    · next hw =>
      split at hw
      · cases hw
      · exact (of_traceWrite hw).trans (ih _ _)

theorem traceEnter (s : State) (core ctx kind src payload : Nat) :
    SameStreams s (traceEnter s core ctx kind src payload) := onCore s core

theorem traceOwed (core : Nat) (s : State) (l : Nat × Nat) : SameStreams s (traceOwed core s l) := by
  unfold Machine.traceOwed
  exact ite_left ((traceEnter s core _ _ _ _).trans (onCore _ core))

theorem flushCore (s : State) (core : Nat) : SameStreams s (flushCore s core) := by
  simp only [Machine.flushCore]
  exact ite_right (((traceFlush core s _ _).trans (foldl (traceOwed core) _ _)).trans (traceFlush core _ _ _))

theorem trace (s : State) (core kind src payload : Nat) : SameStreams s (trace s core kind src payload) := by
  simp only [Machine.trace]
  split
  · exact refl s
  · refine ite_right ((flushCore s core).trans ?_)
    split
    · exact (traceEnter _ core _ _ _ _).trans (flushCore _ core)
    · exact (onCore _ core).trans (onCtx _ _ _)

theorem traceWaitOf (s : State) (core stream : Nat) (st : Stream) : SameStreams s (traceWaitOf s core stream st) := by
  simp only [Machine.traceWaitOf]
  split
  · exact refl s
  · exact trace s core _ _ _
  · exact trace s core _ _ _

/-! #### Pulses (R142, R309) -/

theorem streamPulse (s : State) (core stream : Nat) : SameStreams s (streamPulse s core stream) :=
  ((onCtx s _ _).trans (onCtx _ _ _)).trans (onCore _ core (f := fun k => pulseCore k stream))

end SameStreams

/-! ### The issuing stream once its instruction has issued -/

/-- The issuing stream after an instruction of `len` bytes, or one that goes to a target, has issued. -/
def issued (st : Stream) (len : Nat) (target : Option Word) : Stream :=
  { endOp st with
    pc := target.getD (nextPc st.pc len)
    issue := st.issue + 1
    wbs := st.wbs.map fun w => { w with remaining := w.remaining - 1 }
    matched := false }

/-- What an instruction does as it issues reaches its own stream in one place alone. -/
theorem me_finish (s : State) (len : Nat) (target : Option Word) :
    me (finish s len target) = issued (me s) len target := by
  have before : SameStreams s (onCore (traceWait s (me s)) (traceWait s (me s)).curCore fun k =>
      dropWalked k (traceWait s (me s)).curStream) :=
    (SameStreams.traceWaitOf s _ _ _).trans (.onCore _ _)
  unfold finish
  dsimp only
  rw [(SameStreams.ite_left (.streamPulse _ _ _)).me_eq, me_onMe, before.me_eq]
  rfl

@[simp] theorem gValue_me_finish (s : State) (len : Nat) (target : Option Word) (n : Nat) :
    gValue (me (finish s len target)) n = gValue (me s) n := by
  rw [me_finish]
  rfl

/-! ### g registers read after one is written (R252, R288) -/

@[simp] theorem putReg_loads (st : Stream) (r : BitVec 8) (v : Word) : (putReg st r v).loads = st.loads := by
  simp only [putReg]
  split_ifs <;> rfl

theorem putReg_g {st : Stream} {n : Nat} (h0 : 0 < n) (h : n < 128) (v : Word) :
    putReg st (BitVec.ofNat 8 n) v = { st with g := put st.g (gKey st n) v } := by
  have hn : (BitVec.ofNat 8 n).toNat = n := by rw [BitVec.toNat_ofNat, Nat.mod_eq_of_lt (by omega)]
  simp [putReg, hn, h, Nat.pos_iff_ne_zero.mp h0]

theorem putReg_g0 (st : Stream) (v : Word) : putReg st (BitVec.ofNat 8 0) v = st := rfl

/-- The LOOP rotation sends the staged registers to distinct slots. -/
theorem gKey_injOn {st : Stream} {m n : Nat} (hm : m < 128) (hn : n < 128) (h : gKey st m = gKey st n) : m = n := by
  simp only [gKey, stagedSlot, unsigned] at h
  split_ifs at h <;> omega

theorem gValue_putReg_same (st : Stream) {n : Nat} (h0 : 0 < n) (h : n < 128) (v : Word) :
    gValue (putReg st (BitVec.ofNat 8 n) v) n = v := by
  rw [putReg_g h0 h, gValue, if_neg (by simpa using h0.ne')]
  exact look_put_self _ _ _ _

theorem gValue_putReg_ne (st : Stream) {m n : Nat} (hm : m < 128) (hn : n < 128) (h : m ≠ n) (v : Word) :
    gValue (putReg st (BitVec.ofNat 8 n) v) m = gValue st m := by
  obtain rfl | h0 := Nat.eq_zero_or_pos n
  · rw [putReg_g0]
  · have hkey : gKey st m ≠ gKey st n := fun hk => h (gKey_injOn hm hn hk)
    rw [putReg_g h0 hn]
    exact congrArg (ite _ _) (look_put_ne _ _ _ hkey)

/-! ### Runs of g registers -/

theorem writeRun_cons_of_no_loads {s : State} (h : (me s).loads = []) (n : Nat) (v : Word) (vs : List Word) :
    writeRun s n (v :: vs) = writeRun (written s (BitVec.ofNat 8 n) v) (n + 1) vs := by
  have hsettled : settled (me s) (BitVec.ofNat 8 n) = .ok () := by simp [settled, h]
  simp only [writeRun, writeReg_of_settled hsettled]
  rfl

/-- Three values written from g(`n`) on, while no load of the stream is outstanding. -/
theorem writeRun_three {s : State} (h : (me s).loads = []) (n : Nat) (x y z : Word) :
    writeRun s n [x, y, z] = .ok (written (written (written s (BitVec.ofNat 8 n) x) (BitVec.ofNat 8 (n + 1)) y)
      (BitVec.ofNat 8 (n + 1 + 1)) z) := by
  rw [writeRun_cons_of_no_loads h, writeRun_cons_of_no_loads (by simpa using h),
    writeRun_cons_of_no_loads (by simpa using h)]
  rfl

/-- A run of three that ends at g127 or below: each register holds its own value, but g0 stays zero. -/
theorem gValue_written_three (s : State) {n : Nat} (h : n ≤ 125) (x y z : Word) {t : State}
    (ht : t = written (written (written s (BitVec.ofNat 8 n) x) (BitVec.ofNat 8 (n + 1)) y)
      (BitVec.ofNat 8 (n + 1 + 1)) z) :
    (0 < n → gValue (me t) n = x) ∧ gValue (me t) (n + 1) = y ∧ gValue (me t) (n + 2) = z := by
  simp only [ht, written, me_onMe]
  refine ⟨fun h0 => ?first, ?second, gValue_putReg_same _ (by omega) (by omega) z⟩
  case first =>
    rw [gValue_putReg_ne _ (by omega) (by omega) (by omega), gValue_putReg_ne _ (by omega) (by omega) (by omega),
      gValue_putReg_same _ h0 (by omega)]
  case second =>
    rw [gValue_putReg_ne _ (by omega) (by omega) (by omega), gValue_putReg_same _ (by omega) (by omega)]

/-! ### SIGHEAD (R330) -/

/-- An instruction that touches no context completes: it cannot post an item record, so it cannot stall before one
(R166). -/
theorem concludeNext_of_ctxs {s t : State} (h : t.ctxs = s.ctxs) (len : Nat) :
    concludeNext s len (.ok t) = .next (finish t len none) := by
  simp [concludeNext_ok, itemsOver_of_ctxs h]

/-- A SIGHEAD that executes with no load outstanding completes as it issues, its three values all of that state. -/
theorem execSighead_eq {f : EFields} {s : State} {g : Signal} (hg : guardHolds s = true)
    (hsig : namedSignal s (f.n12.toNat % 1024) = .ok g) (hl : (me s).loads = []) :
    execSighead f s = .next (finish (written (written (written s (BitVec.ofNat 8 f.dst.toNat) (word g.head))
      (BitVec.ofNat 8 (f.dst.toNat + 1)) (word g.front)) (BitVec.ofNat 8 (f.dst.toNat + 1 + 1))
      (word (descOf s (myCtx s) (myCore s).sctx).now)) 8 none) := by
  have hnamed : namedSignal s (sigNumber f) = .ok g := hsig
  simp only [execSighead, guarded, hg, if_true, hnamed, bind, Except.bind, writeRun_three hl]
  exact concludeNext_of_ctxs (by rfl) 8

/-- A DST that names no run of three g registers is refused at decode, on the streams that may execute SIGHEAD (R254). -/
theorem decodeFor_sighead_of_dst {f : EFields} {g : Guard} {w n : Nat} (handler : Bool)
    (hw : decodeWord w = .ok (g, .sighead f)) (hn : n < 2) (hd : 125 < f.dst.toNat) :
    decodeFor n handler w = .error 0x03 := by
  have hmode : modeOk n handler (.sighead f) = true := rfl
  have hstream : streamOk n (.sighead f) = true := by simpa [streamOk] using hn
  have hrun : operandsOk (.sighead f) = false := by simpa [operandsOk, isRun] using hd
  simp [decodeFor, hw, hmode, hstream, hrun]

/-- Settles O58: the three values are written before the instruction finishes (`execSighead_eq`), g(n), g(n + 1) and
g(n + 2) have keys of their own (`gValue_written_three`), and finishing reaches no register (`gValue_me_finish`). -/
theorem sigheadReturnsThreeValues : Obligations.SigheadReturnsThreeValues := by
  unfold Obligations.SigheadReturnsThreeValues
  refine ⟨?values, ?illegalOperand⟩
  case values =>
    intro f s g hg hsig hl hd
    refine ⟨_, execSighead_eq hg hsig hl, rfl, ?_⟩
    simp only [gValue_me_finish]
    exact gValue_written_three s hd _ _ _ rfl
  case illegalOperand =>
    intro f g w n handler hw hn hd
    exact decodeFor_sighead_of_dst handler hw hn hd

end Sys2Proof.Slice0

namespace Sys2Proof.Slice0
open Sys2Proof.Machine

/-! ### Bit fields replaced (R5) -/

/-- The field replaced reads back, cut to its width. -/
theorem field_setField_same (v lo w x : Nat) : field (setField v lo w x) lo w = x % 2 ^ w := by
  have hshift : setField v lo w x / 2 ^ lo = v / 2 ^ lo - v / 2 ^ lo % 2 ^ w + x % 2 ^ w := by
    rw [setField, field, Nat.add_mul_div_right _ _ (Nat.two_pow_pos lo), Nat.mul_comm _ (2 ^ lo), Nat.sub_mul_div]
  have hhigh : v / 2 ^ lo - v / 2 ^ lo % 2 ^ w = 2 ^ w * (v / 2 ^ lo / 2 ^ w) :=
    Nat.sub_eq_of_eq_add (Nat.div_add_mod _ _).symm
  rw [field, hshift, hhigh, Nat.mul_add_mod, Nat.mod_mod]

theorem bit01_mod_two (b : Bool) : bit01 b % 2 = bit01 b := by cases b <;> rfl

/-- Bit `n` of a status byte is the bit written there. -/
theorem getLsbD_statusBit_same (v : BitVec 8) {n : Nat} (h : n < 8) (b : Bool) : (statusBit v n b).getLsbD n = b := by
  have hbit : setField v.toNat n 1 (bit01 b) / 2 ^ n % 2 = bit01 b :=
    (field_setField_same v.toNat n 1 (bit01 b)).trans (bit01_mod_two b)
  rw [statusBit, BitVec.getLsbD_ofNat, Nat.testBit_eq_decide_div_mod_eq, hbit]
  cases b <;> simp [bit01, h]

/-! ### Lanes of a zeroed accumulator (R364) -/

/-- A table cut down to some of its keys: a key kept reads as before, any other reads as the default. -/
theorem look_filter_keys {α : Type} (d : α) (m : Map α) (keep : Nat → Bool) (k : Nat) :
    look d (m.filter fun p => keep p.1) k = if keep k then look d m k else d := by
  induction m with
  | nil => simp
  | cons e rest ih =>
    obtain ⟨j, v⟩ := e
    by_cases hjk : j = k
    · subst hjk
      cases hkeep : keep j <;> simp [hkeep, look, ih]
    · cases hkeep : keep j <;> simp [hkeep, look, hjk, ih]

/-- The key of a lane names its accumulator. -/
theorem laneKey_div {r j : Nat} (a : Nat) (hr : r < 64) (hj : j < 64) : (4096 * a + 64 * r + j) / 4096 = a := by omega

/-- Every lane of the accumulator is zero, and no other accumulator changes. -/
theorem laneOf_zeroAcc (k : Core) (a b : Nat) {r j : Nat} (hr : r < 64) (hj : j < 64) :
    laneOf (zeroAcc k a) b r j = if b = a then 0 else laneOf k b r j := by
  rw [laneOf, zeroAcc, look_filter_keys 0 k.acc (fun i => i / 4096 != a), laneKey_div b hr hj]
  by_cases hb : b = a <;> simp [hb, laneOf]

/-! ### ACCZ (R364) -/

theorem guarded_of_holds {s : State} (hg : guardHolds s = true) (len : Nat) (body : Act State) :
    guarded s len body = concludeNext s len body := if_pos hg

theorem waitNest_of_idle {s : State} (hn : nestRunning s = false) : waitNest s = .ok () := by simp [waitNest, hn]

/-- A core after ACCZ on accumulator `a` with mode `m`; `execAccz_of_clear` ties it to the model. -/
def cleared (k : Core) (a : Nat) (m : Bool) : Core :=
  { zeroAcc k a with
    accV := statusBit k.accV a true, accD := statusBit k.accD a false, accM := statusBit k.accM a m }

/-- An ACCZ that executes on an accumulator not in flight completes as it issues. -/
theorem execAccz_of_clear {f : EFields} {s : State} (hg : guardHolds s = true) (hn : nestRunning s = false)
    (hF : (myCore s).accF.getLsbD (f.n12.toNat % 8) = false) :
    execAccz f s = .next (finish (onCore s s.curCore fun _ =>
      cleared (myCore s) (f.n12.toNat % 8) (flag f.opt.toNat 0)) 8 none) := by
  rw [execAccz, guarded_of_holds hg, waitNest_of_idle hn]
  simp only [bind, Except.bind, hF, Bool.false_eq_true, if_false]
  exact concludeNext_of_ctxs (by rfl) 8

/-- An ACCZ that executes on an accumulator in flight waits for its F bit to clear (R146). -/
theorem execAccz_of_inFlight {f : EFields} {s : State} (hg : guardHolds s = true) (hn : nestRunning s = false)
    (hF : (myCore s).accF.getLsbD (f.n12.toNat % 8) = true) : execAccz f s = .next (hold s (.cause 11)) := by
  rw [execAccz, guarded_of_holds hg, waitNest_of_idle hn]
  simp only [bind, Except.bind, hF, if_true]
  rfl

/-- A word decodes only into an instruction whose unused fields and codes are as its row gives them (R254). -/
theorem formOk_of_decodeWord {w : Nat} {g : Guard} {i : Instr} (h : decodeWord w = .ok (g, i)) : formOk i = true := by
  simp only [decodeWord] at h
  split_ifs at h with hlen
  cases hrow : rowOf w with
  | none => simp [hrow] at h
  | some p =>
    obtain ⟨g', i'⟩ := p
    simp only [hrow] at h
    split_ifs at h with hform
    cases h
    exact hform

/-- The form of ACCZ leaves bits 5 to 1 of OPT6 zero. -/
theorem opt_lt_two_of_formOk_accz {f : EFields} (h : formOk (.accz f) = true) : f.opt.toNat < 2 := by
  simp only [formOk, Bool.and_eq_true, decide_eq_true_eq] at h
  obtain ⟨⟨_, hopt⟩, _⟩ := h
  exact hopt

/-- Settles O59: ACCZ leaves the `cleared` core (`execAccz_of_clear`), whose lanes are those of `zeroAcc` and whose V, D
and M are bits of status bytes just written (`getLsbD_statusBit_same`); with F set it waits (`execAccz_of_inFlight`);
the zero bits of OPT6 are part of its form at decode (`formOk_of_decodeWord`). -/
theorem acczZeroesEveryLane : Obligations.AcczZeroesEveryLane := by
  unfold Obligations.AcczZeroesEveryLane
  refine ⟨?zeroes, ?waits, ?optZero⟩
  case zeroes =>
    intro f s hg hn hF
    have ha : f.n12.toNat % 8 < 8 := Nat.mod_lt _ (by decide)
    refine ⟨cleared (myCore s) (f.n12.toNat % 8) (flag f.opt.toNat 0), execAccz_of_clear hg hn hF,
      getLsbD_statusBit_same _ ha _, getLsbD_statusBit_same _ ha _, getLsbD_statusBit_same _ ha _, ?lanes, ?others,
      rfl, rfl, rfl⟩
    case lanes => exact fun r j hr hj => (laneOf_zeroAcc _ _ _ hr hj).trans (if_pos rfl)
    case others => exact fun b r j hb hr hj => (laneOf_zeroAcc _ _ b hr hj).trans (if_neg hb)
  case waits =>
    intro f s hg hn hF
    exact execAccz_of_inFlight hg hn hF
  case optZero =>
    intro f g w hw
    exact opt_lt_two_of_formOk_accz (formOk_of_decodeWord hw)

end Sys2Proof.Slice0

namespace Sys2Proof.Slice0
open Sys2Proof.Machine

/-! ### Fields of a packed word -/

theorem bit_lt_two (b : Bool) : bit b < 2 ^ 1 := by cases b <;> decide

/-- A field of `n` bits is read where it was packed. -/
theorem bitsAt_eq {n w lo : Nat} {v : BitVec n} (h : w / 2 ^ lo % 2 ^ n = v.toNat) : bitsAt n w lo = v :=
  BitVec.eq_of_toNat_eq (by rw [bitsAt, BitVec.toNat_ofNat, h])
theorem bitAt_eq {w lo : Nat} {b : Bool} (h : w / 2 ^ lo % 2 ^ 1 = bit b) : bitAt w lo = b := by
  rw [pow_one 2] at h
  rw [bitAt, h]
  cases b <;> rfl
theorem bitsAt_toNat (n w lo : Nat) : (bitsAt n w lo).toNat = w / 2 ^ lo % 2 ^ n := BitVec.toNat_ofNat ..
theorem bit_bitAt (w lo : Nat) : bit (bitAt w lo) = w / 2 ^ lo % 2 ^ 1 := by
  unfold bit bitAt
  rcases Nat.mod_two_eq_zero_or_one (w / 2 ^ lo) with h | h <;> simp [h]

/-- The fields of the widths `ns` that a word holds from bit `lo` up. -/
def cutAt (lo : Nat) : List Nat → Nat → List (Nat × Nat)
  | [], _ => []
  | n :: ns, w => (n, w / 2 ^ lo % 2 ^ n) :: cutAt (lo + n) ns w

/-- Every field is within its width. -/
def Fits : List (Nat × Nat) → Prop
  | [] => True
  | (n, v) :: l => v < 2 ^ n ∧ Fits l

/-- Packing what was cut gives the word back. -/
theorem packFields_cutAt (ns : List Nat) (lo w : Nat) : packFields (cutAt lo ns w) = w / 2 ^ lo % 2 ^ ns.sum := by
  induction ns generalizing lo with
  | nil => simp [cutAt, packFields, Nat.mod_one]
  | cons n ns ih =>
    rw [cutAt, packFields, ih, List.sum_cons, pow_add 2 n, Nat.mod_mul, pow_add, Nat.div_div_eq_div_mul]

/-- Cutting what was packed gives the fields back, where each fits its width. -/
theorem cutAt_of_packed {l : List (Nat × Nat)} (hl : Fits l) {lo w : Nat} (hw : w / 2 ^ lo = packFields l) :
    cutAt lo (l.map Prod.fst) w = l := by
  induction l generalizing lo with
  | nil => rfl
  | cons p l ih =>
    obtain ⟨n, v⟩ := p
    obtain ⟨hv, hl⟩ := hl
    rw [packFields] at hw
    rw [List.map_cons, cutAt, ih hl, hw, Nat.add_mul_mod_self_left, Nat.mod_eq_of_lt hv]
    rw [pow_add, ← Nat.div_div_eq_div_mul, hw, Nat.add_mul_div_left _ _ (Nat.two_pow_pos n), Nat.div_eq_of_lt hv,
      Nat.zero_add]

theorem cutAt_packFields {l : List (Nat × Nat)} (hl : Fits l) : cutAt 0 (l.map Prod.fst) (packFields l) = l :=
  cutAt_of_packed hl (by rw [pow_zero, Nat.div_one])

theorem packFields_cut {ns : List Nat} {w : Nat} (h : w < 2 ^ ns.sum) : packFields (cutAt 0 ns w) = w := by
  rw [packFields_cutAt, pow_zero, Nat.div_one, Nat.mod_eq_of_lt h]

theorem packFields_lt {l : List (Nat × Nat)} (hl : Fits l) : packFields l < 2 ^ (l.map Prod.fst).sum := by
  have h := packFields_cutAt (l.map Prod.fst) 0 (packFields l)
  rw [cutAt_packFields hl] at h
  exact h ▸ Nat.mod_lt _ (Nat.two_pow_pos _)

/-! ### What each class packs is what it reads (Tables 12.2-12.8) -/

theorem packQ_reads {M F : Nat} (f : QFields) (hM : M < 64) (hF : F < 16) :
    packQ M F f % 4 = 0 ∧ packQ M F f / 4 % 64 = M ∧ packQ M F f / 2 ^ 22 % 16 = F ∧ qFields (packQ M F f) = f ∧
      packQ M F f < 2 ^ 32 := by
  have hl : Fits [(2, 0), (6, M), (4, f.dst.toNat), (4, f.a.toNat), (1, bit f.alast), (4, f.b.toNat),
    (1, bit f.blast), (4, F), (6, f.imm.toNat)] :=
    ⟨by decide, hM, f.dst.isLt, f.a.isLt, bit_lt_two _, f.b.isLt, bit_lt_two _, hF, f.imm.isLt, trivial⟩
  have h := cutAt_packFields hl
  simp only [List.map_cons, List.map_nil, cutAt, Nat.reduceAdd, List.cons.injEq, Prod.mk.injEq, true_and, and_true,
    pow_zero, Nat.div_one] at h
  obtain ⟨hlen, hmajor, hdst, ha, hal, hb, hbl, hfunc, himm⟩ := h
  refine ⟨hlen, hmajor, hfunc, ?_, packFields_lt hl⟩
  rw [qFields, packQ, bitsAt_eq hdst, bitsAt_eq ha, bitAt_eq hal, bitsAt_eq hb, bitAt_eq hbl, bitsAt_eq himm]

theorem packJ_reads {M : Nat} (f : JFields) (hM : M < 64) :
    packJ M f % 4 = 0 ∧ packJ M f / 4 % 64 = M ∧ jFields (packJ M f) = f ∧ packJ M f < 2 ^ 32 := by
  have hl : Fits [(2, 0), (6, M), (4, f.pred.toNat), (20, f.imm.toNat)] :=
    ⟨by decide, hM, f.pred.isLt, f.imm.isLt, trivial⟩
  have h := cutAt_packFields hl
  simp only [List.map_cons, List.map_nil, cutAt, Nat.reduceAdd, List.cons.injEq, Prod.mk.injEq, true_and, and_true,
    pow_zero, Nat.div_one] at h
  obtain ⟨hlen, hmajor, hpred, himm⟩ := h
  refine ⟨hlen, hmajor, ?_, packFields_lt hl⟩
  rw [jFields, packJ, bitsAt_eq hpred, bitsAt_eq himm]

theorem packG_reads {M F : Nat} (g : Guard) (f : GFields) (hM : M < 64) (hF : F < 256) :
    packG g M F f % 4 = 1 ∧ packG g M F f / 4 % 64 = M ∧ packG g M F f / 2 ^ 32 % 256 = F ∧
      gFields (packG g M F f) = f ∧ guardG (packG g M F f) = ⟨g.pred, g.neg, false⟩ ∧ packG g M F f < 2 ^ 64 := by
  have hl : Fits [(2, 1), (6, M), (8, f.dst.toNat), (8, f.a.toNat), (8, f.b.toNat), (8, F), (4, g.pred.toNat),
    (1, bit g.neg), (1, bit f.lu), (18, f.imm.toNat)] :=
    ⟨by decide, hM, f.dst.isLt, f.a.isLt, f.b.isLt, hF, g.pred.isLt, bit_lt_two _, bit_lt_two _, f.imm.isLt, trivial⟩
  have h := cutAt_packFields hl
  simp only [List.map_cons, List.map_nil, cutAt, Nat.reduceAdd, List.cons.injEq, Prod.mk.injEq, true_and, and_true,
    pow_zero, Nat.div_one] at h
  obtain ⟨hlen, hmajor, hdst, ha, hb, hfunc, hpred, hneg, hlu, himm⟩ := h
  refine ⟨hlen, hmajor, hfunc, ?_, ?_, packFields_lt hl⟩
  · rw [gFields, packG, bitsAt_eq hdst, bitsAt_eq ha, bitsAt_eq hb, bitAt_eq hlu, bitsAt_eq himm]
  · rw [guardG, packG, bitsAt_eq hpred, bitAt_eq hneg]

theorem packM_reads {M : Nat} (g : Guard) (f : MFields) (hM : M < 64) :
    packM g M f % 4 = 1 ∧ packM g M f / 4 % 64 = M ∧ packM g M f / 2 ^ 46 % 8 = f.off.toNat % 8 ∧
      mFields (packM g M f) = f ∧ guardE (packM g M f) = g ∧ packM g M f < 2 ^ 64 := by
  have hl : Fits [(2, 1), (6, M), (8, f.reg.toNat), (8, f.base.toNat), (8, f.aux.toNat), (2, f.width.toNat),
    (1, bit f.sign), (1, bit f.acq), (1, bit f.rel), (3, f.scope.toNat), (4, g.pred.toNat), (1, bit g.neg),
    (1, bit g.pulse), (18, f.off.toNat)] :=
    ⟨by decide, hM, f.reg.isLt, f.base.isLt, f.aux.isLt, f.width.isLt, bit_lt_two _, bit_lt_two _, bit_lt_two _,
     f.scope.isLt, g.pred.isLt, bit_lt_two _, bit_lt_two _, f.off.isLt, trivial⟩
  have h := cutAt_packFields hl
  simp only [List.map_cons, List.map_nil, cutAt, Nat.reduceAdd, List.cons.injEq, Prod.mk.injEq, true_and, and_true,
    pow_zero, Nat.div_one] at h
  obtain ⟨hlen, hmajor, hreg, hbase, haux, hwidth, hsign, hacq, hrel, hscope, hpred, hneg, hpulse, hoff⟩ := h
  refine ⟨hlen, hmajor, ?_, ?_, ?_, packFields_lt hl⟩
  · rw [← hoff, Nat.mod_mod_of_dvd _ (by decide : 8 ∣ 2 ^ 18)]
    rfl
  · rw [mFields, packM, bitsAt_eq hreg, bitsAt_eq hbase, bitsAt_eq haux, bitsAt_eq hwidth, bitAt_eq hsign,
      bitAt_eq hacq, bitAt_eq hrel, bitsAt_eq hscope, bitsAt_eq hoff]
  · rw [guardE, packM, bitsAt_eq hpred, bitAt_eq hneg, bitAt_eq hpulse]

theorem packE_reads {M F : Nat} (g : Guard) (f : EFields) (hM : M < 64) (hF : F < 256) :
    packE g M F f % 4 = 1 ∧ packE g M F f / 4 % 64 = M ∧ packE g M F f / 2 ^ 32 % 256 = F ∧
      eFields (packE g M F f) = f ∧ guardE (packE g M F f) = g ∧ packE g M F f < 2 ^ 64 := by
  have hl : Fits [(2, 1), (6, M), (8, f.dst.toNat), (8, f.a.toNat), (8, f.b.toNat), (8, F), (4, g.pred.toNat),
    (1, bit g.neg), (1, bit g.pulse), (6, f.opt.toNat), (12, f.n12.toNat)] :=
    ⟨by decide, hM, f.dst.isLt, f.a.isLt, f.b.isLt, hF, g.pred.isLt, bit_lt_two _, bit_lt_two _, f.opt.isLt,
     f.n12.isLt, trivial⟩
  have h := cutAt_packFields hl
  simp only [List.map_cons, List.map_nil, cutAt, Nat.reduceAdd, List.cons.injEq, Prod.mk.injEq, true_and, and_true,
    pow_zero, Nat.div_one] at h
  obtain ⟨hlen, hmajor, hdst, ha, hb, hfunc, hpred, hneg, hpulse, hopt, hn⟩ := h
  refine ⟨hlen, hmajor, hfunc, ?_, ?_, packFields_lt hl⟩
  · rw [eFields, packE, bitsAt_eq hdst, bitsAt_eq ha, bitsAt_eq hb, bitsAt_eq hopt, bitsAt_eq hn]
  · rw [guardE, packE, bitsAt_eq hpred, bitAt_eq hneg, bitAt_eq hpulse]

theorem packL_reads {M F : Nat} (g : Guard) (f : LFields) (hM : M < 64) (hF : F < 256) :
    packL g M F f % 4 = 2 ∧ packL g M F f / 4 % 64 = M ∧ packL g M F f / 2 ^ 32 % 256 = F ∧
      lFields (packL g M F f) = f ∧ guardG (packL g M F f) = ⟨g.pred, g.neg, false⟩ ∧ packL g M F f < 2 ^ 96 := by
  have hl : Fits [(2, 2), (6, M), (8, f.dst.toNat), (8, f.a.toNat), (8, f.b.toNat), (8, F), (4, g.pred.toNat),
    (1, bit g.neg), (1, bit f.lu), (18, f.imm.toNat), (32, f.lit.toNat)] :=
    ⟨by decide, hM, f.dst.isLt, f.a.isLt, f.b.isLt, hF, g.pred.isLt, bit_lt_two _, bit_lt_two _, f.imm.isLt,
     f.lit.isLt, trivial⟩
  have h := cutAt_packFields hl
  simp only [List.map_cons, List.map_nil, cutAt, Nat.reduceAdd, List.cons.injEq, Prod.mk.injEq, true_and, and_true,
    pow_zero, Nat.div_one] at h
  obtain ⟨hlen, hmajor, hdst, ha, hb, hfunc, hpred, hneg, hlu, himm, hlit⟩ := h
  refine ⟨hlen, hmajor, hfunc, ?_, ?_, packFields_lt hl⟩
  · rw [lFields, packL, bitsAt_eq hdst, bitsAt_eq ha, bitsAt_eq hb, bitAt_eq hlu, bitsAt_eq himm, bitsAt_eq hlit]
  · rw [guardG, packL, bitsAt_eq hpred, bitAt_eq hneg]

theorem packV_reads {M F : Nat} (g : Guard) (f : VFields) (hM : M < 64) (hF : F < 32) :
    packV g M F f % 4 = 2 ∧ packV g M F f / 4 % 64 = M ∧ packV g M F f / 2 ^ 8 % 32 = F ∧
      vFields (packV g M F f) = f ∧ guardV (packV g M F f) = ⟨g.pred, false, g.pulse⟩ ∧ packV g M F f < 2 ^ 96 := by
  have hl : Fits [(2, 2), (6, M), (5, F), (1, bit g.pulse), (4, f.ty.toNat), (2, f.rs.toNat), (4, g.pred.toNat),
    (24, f.rd.toNat), (24, f.ra.toNat), (24, f.rb.toNat)] :=
    ⟨by decide, hM, hF, bit_lt_two _, f.ty.isLt, f.rs.isLt, g.pred.isLt, f.rd.isLt, f.ra.isLt, f.rb.isLt, trivial⟩
  have h := cutAt_packFields hl
  simp only [List.map_cons, List.map_nil, cutAt, Nat.reduceAdd, List.cons.injEq, Prod.mk.injEq, true_and, and_true,
    pow_zero, Nat.div_one] at h
  obtain ⟨hlen, hmajor, hfunc, hpulse, hty, hrs, hpred, hrd, hra, hrb⟩ := h
  refine ⟨hlen, hmajor, hfunc, ?_, ?_, packFields_lt hl⟩
  · rw [vFields, packV, bitsAt_eq hty, bitsAt_eq hrs, bitsAt_eq hrd, bitsAt_eq hra, bitsAt_eq hrb]
  · rw [guardV, packV, bitsAt_eq hpred, bitAt_eq hpulse]

/-! ### A word is what its fields pack -/

theorem packQ_of_fields {w : Nat} (h : w < 2 ^ 32) (hlen : w % 4 = 0) :
    packQ (w / 4 % 64) (w / 2 ^ 22 % 16) (qFields w) = w := by
  simpa [packQ, qFields, bitsAt_toNat, bit_bitAt, cutAt, hlen] using packFields_cut (ns := [2, 6, 4, 4, 1, 4, 1, 4, 6]) h
theorem packJ_of_fields {w : Nat} (h : w < 2 ^ 32) (hlen : w % 4 = 0) :
    packJ (w / 4 % 64) (jFields w) = w := by
  simpa [packJ, jFields, bitsAt_toNat, bit_bitAt, cutAt, hlen] using packFields_cut (ns := [2, 6, 4, 20]) h
theorem packG_of_fields {w : Nat} (h : w < 2 ^ 64) (hlen : w % 4 = 1) :
    packG (guardG w) (w / 4 % 64) (w / 2 ^ 32 % 256) (gFields w) = w := by
  simpa [packG, guardG, gFields, bitsAt_toNat, bit_bitAt, cutAt, hlen] using packFields_cut (ns := [2, 6, 8, 8, 8, 8, 4, 1, 1, 18]) h
theorem packM_of_fields {w : Nat} (h : w < 2 ^ 64) (hlen : w % 4 = 1) :
    packM (guardE w) (w / 4 % 64) (mFields w) = w := by
  simpa [packM, guardE, mFields, bitsAt_toNat, bit_bitAt, cutAt, hlen] using packFields_cut (ns := [2, 6, 8, 8, 8, 2, 1, 1, 1, 3, 4, 1, 1, 18]) h
theorem packE_of_fields {w : Nat} (h : w < 2 ^ 64) (hlen : w % 4 = 1) :
    packE (guardE w) (w / 4 % 64) (w / 2 ^ 32 % 256) (eFields w) = w := by
  simpa [packE, guardE, eFields, bitsAt_toNat, bit_bitAt, cutAt, hlen] using packFields_cut (ns := [2, 6, 8, 8, 8, 8, 4, 1, 1, 6, 12]) h
theorem packL_of_fields {w : Nat} (h : w < 2 ^ 96) (hlen : w % 4 = 2) :
    packL (guardG w) (w / 4 % 64) (w / 2 ^ 32 % 256) (lFields w) = w := by
  simpa [packL, guardG, lFields, bitsAt_toNat, bit_bitAt, cutAt, hlen] using packFields_cut (ns := [2, 6, 8, 8, 8, 8, 4, 1, 1, 18, 32]) h
theorem packV_of_fields {w : Nat} (h : w < 2 ^ 96) (hlen : w % 4 = 2) :
    packV (guardV w) (w / 4 % 64) (w / 2 ^ 8 % 32) (vFields w) = w := by
  simpa [packV, guardV, vFields, bitsAt_toNat, bit_bitAt, cutAt, hlen] using packFields_cut (ns := [2, 6, 5, 1, 4, 2, 4, 24, 24, 24]) h

end Sys2Proof.Slice0

namespace Sys2Proof.Slice0
open Sys2Proof.Machine

/-! ### The member tables, and what the encoder gives their rows -/

/-- The members of a Q-class major (Table 12.14). -/
def qTable : Nat → List (QFields → Instr)
  | 0x00 => qAlu | 0x01 => qAlui | 0x02 => qCmp | 0x03 => qXfer | _ => []
/-- The members of a G-class major (Table 12.15). -/
def gTable : Nat → List (GFields → Instr)
  | 0x00 => gAlu | 0x01 => gAlui | 0x03 => gFloat | 0x04 => gSfu | 0x10 => [.jalr] | 0x11 => [.loop] | _ => []
/-- The members of an E-class major (Table 12.15). -/
def eTable : Nat → List (EFields → Option Instr)
  | 0x05 => eSys | 0x0D => eOrd | 0x0E => eParea | 0x14 => eSig | 0x18 => eEng | 0x19 => eTask | 0x1A => eGey
  | 0x1B => eGen | 0x1C => eTile | 0x1D => eTraps | _ => []
/-- The members of an L-class major (Table 12.16). -/
def lTable : Nat → List (Option (LFields → Instr))
  | 0x00 => [some Instr.liw] | 0x01 => lAlu | 0x02 => [some Instr.jmpl] | 0x03 => [some Instr.vshape]
  | 0x04 => [some Instr.fli] | _ => []
/-- The members of a V-class major (Table 12.16). -/
def vTable : Nat → List (VFields → Instr)
  | 0x20 => vArith | 0x21 => vSfu | 0x22 => vRed | 0x23 => vMove | 0x24 => vCstr | _ => []

theorem encodeNat_of_qTable {j k : Nat} {c : QFields → Instr} (h : (qTable j)[k]? = some c) (g : Guard) (f : QFields) :
    encodeNat g (c f) = some (packQ j k f) := by
  unfold qTable at h
  split at h
  all_goals
    obtain ⟨hk, rfl⟩ := List.getElem?_eq_some_iff.1 h
    simp only [qAlu, qAlui, qCmp, qXfer, List.length_cons, List.length_nil] at hk
    interval_cases k <;> rfl

theorem encodeNat_of_gTable {j k : Nat} {c : GFields → Instr} (h : (gTable j)[k]? = some c) (g : Guard) (f : GFields) :
    encodeNat g (c f) = some (packG g j k f) := by
  unfold gTable at h
  split at h
  all_goals
    obtain ⟨hk, rfl⟩ := List.getElem?_eq_some_iff.1 h
    simp only [gAlu, gAlui, gFloat, gSfu, List.length_cons, List.length_nil] at hk
    interval_cases k <;> rfl

theorem encodeNat_of_lTable {j k : Nat} {c : LFields → Instr} (h : (lTable j)[k]? = some (some c)) (g : Guard)
    (f : LFields) : encodeNat g (c f) = some (packL g j k f) := by
  unfold lTable at h
  split at h
  all_goals
    obtain ⟨hk, hc⟩ := List.getElem?_eq_some_iff.1 h
    simp only [lAlu, List.length_cons, List.length_nil] at hk
    interval_cases k <;> cases hc <;> rfl

theorem encodeNat_of_vTable {j k : Nat} {c : VFields → Instr} (h : (vTable j)[k]? = some c) (g : Guard) (f : VFields) :
    encodeNat g (c f) = some (packV g j k f) := by
  unfold vTable at h
  split at h
  all_goals
    obtain ⟨hk, rfl⟩ := List.getElem?_eq_some_iff.1 h
    simp only [vArith, vSfu, vRed, vMove, vCstr, List.length_cons, List.length_nil] at hk
    interval_cases k <;> rfl

/-- The encoder gives every instruction of an E-class member the word `p` of its fields. -/
def Encodes (g : Guard) (p : EFields → Nat) (c : EFields → Option Instr) : Prop :=
  ∀ f i, c f = some i → encodeNat g i = some (p f)

theorem encodes_row_iff {g : Guard} {p : EFields → Nat} {c : EFields → Instr} :
    Encodes g p (row c) ↔ ∀ f, encodeNat g (c f) = some (p f) := by simp [Encodes, row]

theorem encodes_bare_iff {g : Guard} {p : EFields → Nat} {i : Instr} :
    Encodes g p (bare i) ↔ encodeNat g i = some (p ⟨0, 0, 0, 0, 0⟩) := by simp [Encodes, bare]

theorem encodes_option_iff {g : Guard} {p : EFields → Nat} {n : Nat} {c d : EFields → Instr} :
    Encodes g p (option n c d) ↔
      ∀ f, if bitAt f.opt.toNat n then encodeNat g (d f) = some (p f) else encodeNat g (c f) = some (p f) := by
  refine forall_congr' fun f => ?_
  by_cases h : bitAt f.opt.toNat n <;> simp [option, h]

theorem encodes_of_eTable {j k : Nat} {c : EFields → Option Instr} (h : (eTable j)[k]? = some c) (g : Guard) :
    Encodes g (packE g j k) c := by
  unfold eTable at h
  split at h
  all_goals
    obtain ⟨hk, rfl⟩ := List.getElem?_eq_some_iff.1 h
    simp only [eSys, eOrd, eParea, eSig, eEng, eTask, eGey, eGen, eTile, eTraps, List.length_cons, List.length_nil] at hk
    interval_cases k <;> simp [eSys, eOrd, eParea, eSig, eEng, eTask, eGey, eGen, eTile, eTraps, encodes_row_iff,
      encodes_bare_iff, encodes_option_iff, encodeNat]

/-! ### Every accepted word is an encoding -/

theorem encodeNat_of_decode32 {w : Nat} {i : Instr} (hw : w < 2 ^ 32) (hlen : w % 4 = 0) (h : decode32 w = some i)
    (g : Guard) : encodeNat g i = some w := by
  have hJ : ∀ {j}, w / 4 % 64 = j → some (packJ j (jFields w)) = some w := by
    rintro _ rfl
    rw [packJ_of_fields hw hlen]
  simp only [decode32, beq_iff_eq] at h
  split_ifs at h with h4 h8 h9 hA hB hF hnop
  · cases h; exact hJ h4
  · cases h; exact hJ h8
  · cases h; exact hJ h9
  · cases h; exact hJ hA
  · cases h; exact hJ hB
  · cases h; rw [hnop]; rfl
  · obtain ⟨c, hc, rfl⟩ := Option.map_eq_some_iff.1 h
    rw [encodeNat_of_qTable (j := w / 4 % 64) hc, packQ_of_fields hw hlen]

/-- Every AMO is the one word of its fields, which name the member (R301). -/
theorem encodeNat_amoMember (k : Nat) (g : Guard) (f : MFields) : encodeNat g (amoMember k f) = some (packM g 0xC f) := by
  unfold amoMember
  split <;> rfl

/-- The comparisons keep their flag above the member's code. -/
theorem encodeNat_of_gCmp {k : Nat} {c : GFields → Bool → Instr} (h : gCmp[k % 8]? = some c) (hk : k < 16) (g : Guard)
    (f : GFields) : encodeNat g (c f (k / 8 == 1)) = some (packG g 0x2 k f) := by
  interval_cases k <;> cases h <;> rfl

theorem encodeNat_of_decode64 {w : Nat} {g : Guard} {i : Instr} (hw : w < 2 ^ 64) (hlen : w % 4 = 1)
    (h : decode64 w = some (g, i)) : encodeNat g i = some w := by
  have hM : ∀ {j}, w / 4 % 64 = j → some (packM (guardE w) j (mFields w)) = some w := by
    rintro _ rfl
    rw [packM_of_fields hw hlen]
  simp only [decode64, beq_iff_eq] at h
  split_ifs at h with h8 h9 hA hB hC h2 hk
  · cases h; exact hM h8
  · cases h; exact hM h9
  · cases h; exact hM hA
  · cases h; exact hM hB
  · cases h; rw [encodeNat_amoMember]; exact hM hC
  · obtain ⟨c, hc, ⟨⟩⟩ := Option.map_eq_some_iff.1 h
    have hp := packG_of_fields hw hlen
    rw [h2] at hp
    rw [encodeNat_of_gCmp hc hk, hp]
  · split at h
    · next c hc =>
      cases h
      rw [encodeNat_of_gTable (j := w / 4 % 64) hc, packG_of_fields hw hlen]
    · split at h
      · next c hc =>
        obtain ⟨i, hi, ⟨⟩⟩ := Option.map_eq_some_iff.1 h
        rw [encodes_of_eTable (j := w / 4 % 64) hc _ _ _ hi, packE_of_fields hw hlen]
      · cases h

theorem encodeNat_of_decode96 {w : Nat} {g : Guard} {i : Instr} (hw : w < 2 ^ 96) (hlen : w % 4 = 2)
    (h : decode96 w = some (g, i)) : encodeNat g i = some w := by
  simp only [decode96] at h
  split_ifs at h
  · split at h
    · next c hc =>
      cases h
      rw [encodeNat_of_lTable (j := w / 4 % 64) hc, packL_of_fields hw hlen]
    · cases h
  · obtain ⟨c, hc, ⟨⟩⟩ := Option.map_eq_some_iff.1 h
    rw [encodeNat_of_vTable (j := w / 4 % 64) hc, packV_of_fields hw hlen]

theorem lengthOf_of_code0 {w : Nat} (h : w % 4 = 0) : lengthOf w = 4 := by simp [lengthOf, h]
theorem lengthOf_of_code1 {w : Nat} (h : w % 4 = 1) : lengthOf w = 8 := by simp [lengthOf, h]
theorem lengthOf_of_code2 {w : Nat} (h : w % 4 = 2) : lengthOf w = 12 := by simp [lengthOf, h]

theorem encodeNat_of_rowOf {w : Nat} {g : Guard} {i : Instr} (hw : w < 2 ^ (8 * lengthOf w)) (h : rowOf w = some (g, i)) :
    encodeNat g i = some w := by
  unfold rowOf at h
  split at h
  · next hlen =>
    rw [lengthOf_of_code0 hlen] at hw
    rw [Nat.mod_eq_of_lt hw] at h
    obtain ⟨i, hi, ⟨⟩⟩ := Option.map_eq_some_iff.1 h
    exact encodeNat_of_decode32 hw hlen hi _
  · next hlen =>
    rw [lengthOf_of_code1 hlen] at hw
    rw [Nat.mod_eq_of_lt hw] at h
    exact encodeNat_of_decode64 hw hlen h
  · next hlen =>
    rw [lengthOf_of_code2 hlen] at hw
    rw [Nat.mod_eq_of_lt hw] at h
    exact encodeNat_of_decode96 hw hlen h
  · cases h

end Sys2Proof.Slice0

namespace Sys2Proof.Slice0
open Sys2Proof.Machine

/-! ### The guards that a class can carry -/

/-- What `guardFits` asks, by the length code and the major of the instruction's word. -/
theorem guardFits_eq {i : Instr} {n : Nat} (h : encodeNat {} i = some n) (g : Guard) :
    guardFits g i = if n % 4 = 0 then g == {}
      else if n % 4 = 2 ∧ 0x20 ≤ n / 4 % 64 then !g.neg
      else if n % 4 = 2 ∨ n / 4 % 64 < 5 ∨ n / 4 % 64 = 0x10 ∨ n / 4 % 64 = 0x11 then !g.pulse else true := by
  simp only [guardFits, h, beq_iff_eq, Bool.and_eq_true, decide_eq_true_eq, Bool.or_eq_true, or_assoc]

theorem lt_of_qTable {j k : Nat} {c : QFields → Instr} (h : (qTable j)[k]? = some c) : j < 4 ∧ k < 16 := by
  unfold qTable at h
  split at h
  all_goals
    obtain ⟨hk, -⟩ := List.getElem?_eq_some_iff.1 h
    simp only [qAlu, qAlui, qCmp, qXfer, List.length_cons, List.length_nil] at hk
    omega

theorem lt_of_gTable {j k : Nat} {c : GFields → Instr} (h : (gTable j)[k]? = some c) :
    (j < 5 ∧ j ≠ 2 ∨ j = 0x10 ∨ j = 0x11) ∧ k < 256 := by
  unfold gTable at h
  split at h
  all_goals
    obtain ⟨hk, -⟩ := List.getElem?_eq_some_iff.1 h
    simp only [gAlu, gAlui, gFloat, gSfu, List.length_cons, List.length_nil] at hk
    omega

theorem lt_of_eTable {j k : Nat} {c : EFields → Option Instr} (h : (eTable j)[k]? = some c) :
    (j = 5 ∨ 0xD ≤ j ∧ j < 0x1E ∧ j ≠ 0x10 ∧ j ≠ 0x11) ∧ gTable j = [] ∧ k < 256 := by
  unfold eTable at h
  split at h
  case h_11 => simp at h
  all_goals
    obtain ⟨hk, -⟩ := List.getElem?_eq_some_iff.1 h
    simp only [eSys, eOrd, eParea, eSig, eEng, eTask, eGey, eGen, eTile, eTraps, List.length_cons, List.length_nil] at hk
    exact ⟨by omega, rfl, by omega⟩

theorem lt_of_lTable {j k : Nat} {c : Option (LFields → Instr)} (h : (lTable j)[k]? = some c) : j < 0x20 ∧ k < 256 := by
  unfold lTable at h
  split at h
  all_goals
    obtain ⟨hk, -⟩ := List.getElem?_eq_some_iff.1 h
    simp only [lAlu, List.length_cons, List.length_nil] at hk
    omega

theorem lt_of_vTable {j k : Nat} {c : VFields → Instr} (h : (vTable j)[k]? = some c) :
    0x20 ≤ j ∧ j < 64 ∧ k < 32 := by
  unfold vTable at h
  split at h
  all_goals
    obtain ⟨hk, -⟩ := List.getElem?_eq_some_iff.1 h
    simp only [vArith, vSfu, vRed, vMove, vCstr, List.length_cons, List.length_nil] at hk
    omega

/-! ### Every encoding is read back -/

/-- The decoder finds at a word the row and the guard, before it asks for the row's form. -/
def Reads (g : Guard) (i : Instr) (w : Nat) : Prop := rowOf w = some (g, i) ∧ w < 2 ^ (8 * lengthOf w)

theorem reads_of_decode32 {w : Nat} {i : Instr} (hlen : w % 4 = 0) (hw : w < 2 ^ 32) (h : decode32 w = some i) :
    Reads {} i w := by
  refine ⟨?_, by rwa [lengthOf_of_code0 hlen]⟩
  rw [rowOf, hlen, Nat.mod_eq_of_lt hw]
  simp [h]

theorem reads_of_decode64 {w : Nat} {p : Guard × Instr} (hlen : w % 4 = 1) (hw : w < 2 ^ 64)
    (h : decode64 w = some p) : Reads p.1 p.2 w := by
  refine ⟨?_, by rwa [lengthOf_of_code1 hlen]⟩
  rw [rowOf, hlen, Nat.mod_eq_of_lt hw]
  exact h

theorem reads_of_decode96 {w : Nat} {p : Guard × Instr} (hlen : w % 4 = 2) (hw : w < 2 ^ 96)
    (h : decode96 w = some p) : Reads p.1 p.2 w := by
  refine ⟨?_, by rwa [lengthOf_of_code2 hlen]⟩
  rw [rowOf, hlen, Nat.mod_eq_of_lt hw]
  exact h

/-- A guard that an instruction without predicate can carry is empty; one of the G and L classes does not pulse; one of
the V class does not negate. -/
theorem guard_of_code0 {g : Guard} {i : Instr} {n : Nat} (henc : encodeNat {} i = some n) (hn : n % 4 = 0)
    (h : guardFits g i = true) : g = {} := by
  rw [guardFits_eq henc, if_pos hn, beq_iff_eq] at h
  exact h

theorem guard_of_noPulse {g : Guard} (h : (!g.pulse) = true) : (⟨g.pred, g.neg, false⟩ : Guard) = g := by
  obtain ⟨p, n, u⟩ := g
  simp only [Bool.not_eq_true'] at h
  rw [h]

theorem guard_of_noNeg {g : Guard} (h : (!g.neg) = true) : (⟨g.pred, false, g.pulse⟩ : Guard) = g := by
  obtain ⟨p, n, u⟩ := g
  simp only [Bool.not_eq_true'] at h
  rw [h]

theorem reads_packQ {j k : Nat} {c : QFields → Instr} (hc : (qTable j)[k]? = some c) {g : Guard} {f : QFields}
    (hg : guardFits g (c f) = true) : Reads g (c f) (packQ j k f) := by
  obtain ⟨hj, hk⟩ := lt_of_qTable hc
  obtain ⟨hlen, hmajor, hfunc, hf, hw⟩ := packQ_reads f (by omega : j < 64) hk
  obtain rfl := guard_of_code0 (encodeNat_of_qTable hc {} f) hlen hg
  refine reads_of_decode32 hlen hw ?_
  have hrest : ∀ m, 4 ≤ m → (j == m) = false := fun m hm => beq_false_of_ne (by omega)
  simp only [decode32, hmajor, hfunc, hf, hrest, Nat.le_refl, Nat.reduceLeDiff, Bool.false_eq_true, if_false]
  exact congrArg (Option.map fun c => c f) hc

theorem reads_packJ {j : Nat} {c : JFields → Instr} (hj : j < 64)
    (hc : ∀ w, w / 4 % 64 = j → decode32 w = some (c (jFields w))) {g : Guard} {f : JFields}
    (henc : encodeNat {} (c f) = some (packJ j f)) (hg : guardFits g (c f) = true) : Reads g (c f) (packJ j f) := by
  obtain ⟨hlen, hmajor, hf, hw⟩ := packJ_reads f hj
  obtain rfl := guard_of_code0 henc hlen hg
  refine reads_of_decode32 hlen hw ?_
  rw [hc _ hmajor, hf]

theorem reads_packM {j : Nat} {c : MFields → Instr} (hj : j < 64)
    (hc : ∀ w, w / 4 % 64 = j → decode64 w = some (guardE w, c (mFields w))) (g : Guard) (f : MFields) :
    Reads g (c f) (packM g j f) := by
  obtain ⟨hlen, hmajor, -, hf, hg, hw⟩ := packM_reads g f hj
  have h := reads_of_decode64 hlen hw (hc _ hmajor)
  rwa [hf, hg] at h

/-- `decode64` with the major, the member's code, the AMO's, the guards and the fields read beforehand. -/
def row64 (j k m : Nat) (gg ge : Guard) (fg : GFields) (fm : MFields) (fe : EFields) : Option (Guard × Instr) :=
  if j == 0x08 then some (ge, .ld fm)
  else if j == 0x09 then some (ge, .st fm)
  else if j == 0x0A then some (ge, .lda fm)
  else if j == 0x0B then some (ge, .stl fm)
  else if j == 0x0C then some (ge, amoMember m fm)
  else if j == 0x02 then if k < 16 then gCmp[k % 8]?.map fun c => (gg, c fg (k / 8 == 1)) else none
  else match (gTable j)[k]? with
    | some c => some (gg, c fg)
    | none => match (eTable j)[k]? with
      | some c => (c fe).map fun i => (ge, i)
      | none => none

theorem decode64_eq (w : Nat) : decode64 w = row64 (w / 4 % 64) (w / 2 ^ 32 % 256) (w / 2 ^ 46 % 8) (guardG w) (guardE w)
    (gFields w) (mFields w) (eFields w) := rfl

theorem row64_gCmp {k m : Nat} {b : Bool} {c : GFields → Bool → Instr} (hc : gCmp[k]? = some c) (gg ge : Guard)
    (fg : GFields) (fm : MFields) (fe : EFields) :
    row64 2 (k + if b then 8 else 0) m gg ge fg fm fe = some (gg, c fg b) := by
  have hk : k < 8 := (List.getElem?_eq_some_iff.1 hc).1
  have hlt : (k + if b then 8 else 0) < 16 := by split <;> omega
  have hmod : (k + if b then 8 else 0) % 8 = k := by split <;> omega
  have hdiv : ((k + if b then 8 else 0) / 8 == 1) = b := by cases b <;> simp <;> omega
  simp only [row64, hlt, hmod, hdiv, hc]
  rfl

theorem row64_gTable {j k m : Nat} {c : GFields → Instr} (hc : (gTable j)[k]? = some c) (gg ge : Guard) (fg : GFields)
    (fm : MFields) (fe : EFields) : row64 j k m gg ge fg fm fe = some (gg, c fg) := by
  obtain ⟨hj, -⟩ := lt_of_gTable hc
  have hne : ∀ n, (8 ≤ n ∧ n < 16) ∨ n = 2 → (j == n) = false := fun n hn => beq_false_of_ne (by omega)
  simp [row64, hne, hc]

theorem row64_eTable {j k m : Nat} {c : EFields → Option Instr} {i : Instr} (hc : (eTable j)[k]? = some c)
    {fe : EFields} (hi : c fe = some i) (gg ge : Guard) (fg : GFields) (fm : MFields) :
    row64 j k m gg ge fg fm fe = some (ge, i) := by
  obtain ⟨hj, hg, -⟩ := lt_of_eTable hc
  have hne : ∀ n, (8 ≤ n ∧ n < 13) ∨ n = 2 → (j == n) = false := fun n hn => beq_false_of_ne (by omega)
  simp [row64, hne, hg, hc, hi]

theorem reads_amoMember (g : Guard) (f : MFields) : Reads g (amoMember (f.off.toNat % 8) f) (packM g 0xC f) := by
  obtain ⟨hlen, hmajor, hoff, hf, hg, hw⟩ := packM_reads (M := 0xC) g f (by decide)
  refine reads_of_decode64 (p := (g, _)) hlen hw ?_
  rw [decode64_eq, hmajor, hoff, hf, hg]
  rfl

/-- A guard of the G class does not pulse. -/
theorem noPulse_of_gMajor {g : Guard} {i : Instr} {n : Nat} (henc : encodeNat {} i = some n) (hlen : n % 4 = 1)
    (hmajor : n / 4 % 64 < 5 ∨ n / 4 % 64 = 0x10 ∨ n / 4 % 64 = 0x11) (h : guardFits g i = true) :
    (!g.pulse) = true := by
  rw [guardFits_eq henc, if_neg (by omega), if_neg (by omega), if_pos (by omega)] at h
  exact h

theorem reads_gCmp {k : Nat} {c : GFields → Bool → Instr} (hc : gCmp[k]? = some c) {g : Guard} {f : GFields} {b : Bool}
    (henc : encodeNat {} (c f b) = some (packG {} 2 (k + if b then 8 else 0) f)) (hg : guardFits g (c f b) = true) :
    Reads g (c f b) (packG g 2 (k + if b then 8 else 0) f) := by
  have hk : k < 8 := (List.getElem?_eq_some_iff.1 hc).1
  have hF : (k + if b then 8 else 0) < 256 := by split <;> omega
  obtain ⟨hlen0, hmajor0, -⟩ := packG_reads {} f (by decide : 2 < 64) hF
  obtain ⟨hlen, hmajor, hfunc, hf, hguard, hw⟩ := packG_reads g f (by decide : 2 < 64) hF
  refine reads_of_decode64 (p := (g, c f b)) hlen hw ?_
  rw [decode64_eq, hmajor, hfunc, hf, hguard, row64_gCmp hc,
    guard_of_noPulse (noPulse_of_gMajor henc hlen0 (by omega) hg)]

theorem reads_packG {j k : Nat} {c : GFields → Instr} (hc : (gTable j)[k]? = some c) {g : Guard} {f : GFields}
    (hg : guardFits g (c f) = true) : Reads g (c f) (packG g j k f) := by
  obtain ⟨hj, hk⟩ := lt_of_gTable hc
  obtain ⟨hlen0, hmajor0, -⟩ := packG_reads {} f (by omega : j < 64) hk
  obtain ⟨hlen, hmajor, hfunc, hf, hguard, hw⟩ := packG_reads g f (by omega : j < 64) hk
  refine reads_of_decode64 (p := (g, c f)) hlen hw ?_
  rw [decode64_eq, hmajor, hfunc, hf, hguard, row64_gTable hc,
    guard_of_noPulse (noPulse_of_gMajor (encodeNat_of_gTable hc {} f) hlen0 (by omega) hg)]

theorem reads_packE {j k : Nat} {c : EFields → Option Instr} (hc : (eTable j)[k]? = some c) {f : EFields} {i : Instr}
    (hi : c f = some i) (g : Guard) : Reads g i (packE g j k f) := by
  obtain ⟨hj, -, hk⟩ := lt_of_eTable hc
  obtain ⟨hlen, hmajor, hfunc, hf, hguard, hw⟩ := packE_reads g f (by omega : j < 64) hk
  refine reads_of_decode64 (p := (g, i)) hlen hw ?_
  rw [decode64_eq, hmajor, hfunc, hf, hguard, row64_eTable hc hi]

theorem reads_packL {j k : Nat} {c : LFields → Instr} (hc : (lTable j)[k]? = some (some c)) {g : Guard} {f : LFields}
    (hg : guardFits g (c f) = true) : Reads g (c f) (packL g j k f) := by
  obtain ⟨hj, hk⟩ := lt_of_lTable hc
  obtain ⟨hlen0, hmajor0, -⟩ := packL_reads {} f (by omega : j < 64) hk
  obtain ⟨hlen, hmajor, hfunc, hf, hguard, hw⟩ := packL_reads g f (by omega : j < 64) hk
  rw [guardFits_eq (encodeNat_of_lTable hc {} f), if_neg (by omega), if_neg (by omega), if_pos (by omega)] at hg
  refine reads_of_decode96 (p := (g, c f)) hlen hw ?_
  simp only [decode96, hmajor, hfunc, hf, hguard, guard_of_noPulse hg, if_pos hj]
  change (match (lTable j)[k]? with | some (some c) => some (g, c f) | _ => none) = _
  rw [hc]

theorem reads_packV {j k : Nat} {c : VFields → Instr} (hc : (vTable j)[k]? = some c) {g : Guard} {f : VFields}
    (hg : guardFits g (c f) = true) : Reads g (c f) (packV g j k f) := by
  obtain ⟨hj, hj', hk⟩ := lt_of_vTable hc
  obtain ⟨hlen0, hmajor0, -⟩ := packV_reads {} f hj' hk
  obtain ⟨hlen, hmajor, hfunc, hf, hguard, hw⟩ := packV_reads g f hj' hk
  rw [guardFits_eq (encodeNat_of_vTable hc {} f), if_neg (by omega), if_pos (by omega)] at hg
  refine reads_of_decode96 (p := (g, c f)) hlen hw ?_
  simp only [decode96, hmajor, hfunc, hf, hguard, guard_of_noNeg hg, if_neg (Nat.not_lt.2 hj)]
  exact congrArg (Option.map fun c => (g, c f)) hc

end Sys2Proof.Slice0

namespace Sys2Proof.Slice0
open Sys2Proof.Machine

/-! ### The guard of an accepted word is one its class can carry -/

theorem guardFits_of_eMajor {i : Instr} {n : Nat} (henc : encodeNat {} i = some n) (hlen : n % 4 = 1)
    (hmajor : 5 ≤ n / 4 % 64 ∧ n / 4 % 64 ≠ 0x10 ∧ n / 4 % 64 ≠ 0x11) (g : Guard) : guardFits g i = true := by
  rw [guardFits_eq henc, if_neg (by omega), if_neg (by omega), if_neg (by omega)]

theorem guardFits_of_gMajor {i : Instr} {n : Nat} (henc : encodeNat {} i = some n) (hlen : n % 4 = 1)
    {g : Guard} (hg : g.pulse = false) : guardFits g i = true := by
  rw [guardFits_eq henc, if_neg (by omega), if_neg (by omega), hg]
  split <;> rfl

theorem guardFits_of_decode64 {w : Nat} {g : Guard} {i : Instr} (h : decode64 w = some (g, i)) :
    guardFits g i = true := by
  have hM : ∀ {j : Nat} {i : Instr} {f : MFields}, j = 8 ∨ j = 9 ∨ j = 0xA ∨ j = 0xB ∨ j = 0xC →
      encodeNat {} i = some (packM {} j f) → guardFits (guardE w) i = true := by
    intro j i f hj henc
    obtain ⟨hlen, hmajor, -⟩ := packM_reads {} f (by omega : j < 64)
    exact guardFits_of_eMajor henc hlen (by omega) _
  simp only [decode64, beq_iff_eq] at h
  split_ifs at h with h8 h9 hA hB hC h2 hk
  · cases h; exact hM (by decide) rfl
  · cases h; exact hM (by decide) rfl
  · cases h; exact hM (by decide) rfl
  · cases h; exact hM (by decide) rfl
  · cases h; exact hM (by decide) (encodeNat_amoMember _ _ _)
  · obtain ⟨c, hc, ⟨⟩⟩ := Option.map_eq_some_iff.1 h
    obtain ⟨hlen, -⟩ := packG_reads {} (gFields w) (by decide : 2 < 64) (by omega : w / 2 ^ 32 % 256 < 256)
    exact guardFits_of_gMajor (encodeNat_of_gCmp hc hk {} _) hlen rfl
  · split at h
    · next c hc =>
      cases h
      obtain ⟨hj, hk⟩ := lt_of_gTable hc
      obtain ⟨hlen, -⟩ := packG_reads {} (gFields w) (by omega : w / 4 % 64 < 64) hk
      exact guardFits_of_gMajor (encodeNat_of_gTable hc {} _) hlen rfl
    · split at h
      · next c hc =>
        obtain ⟨i, hi, ⟨⟩⟩ := Option.map_eq_some_iff.1 h
        obtain ⟨hj, -, hk⟩ := lt_of_eTable hc
        obtain ⟨hlen, hmajor, -⟩ := packE_reads {} (eFields w) (by omega : w / 4 % 64 < 64) hk
        exact guardFits_of_eMajor (encodes_of_eTable hc {} _ _ hi) hlen (by omega) _
      · cases h

theorem guardFits_of_decode96 {w : Nat} {g : Guard} {i : Instr} (h : decode96 w = some (g, i)) :
    guardFits g i = true := by
  simp only [decode96] at h
  split_ifs at h
  · split at h
    · next c hc =>
      cases h
      obtain ⟨hj, hk⟩ := lt_of_lTable hc
      obtain ⟨hlen, hmajor, -⟩ := packL_reads {} (lFields w) (by omega : w / 4 % 64 < 64) hk
      rw [guardFits_eq (encodeNat_of_lTable hc {} _), if_neg (by omega), if_neg (by omega), if_pos (by omega)]
      rfl
    · cases h
  · obtain ⟨c, hc, ⟨⟩⟩ := Option.map_eq_some_iff.1 h
    obtain ⟨hj, hj', hk⟩ := lt_of_vTable hc
    obtain ⟨hlen, hmajor, -⟩ := packV_reads {} (vFields w) hj' hk
    rw [guardFits_eq (encodeNat_of_vTable hc {} _), if_neg (by omega), if_pos (by omega)]
    rfl

theorem guardFits_of_rowOf {w : Nat} {g : Guard} {i : Instr} (hw : w < 2 ^ (8 * lengthOf w)) (h : rowOf w = some (g, i)) :
    guardFits g i = true := by
  have henc := fun hlen : w % 4 = 0 => encodeNat_of_decode32 (w := w) (i := i) (by rwa [lengthOf_of_code0 hlen] at hw) hlen
  unfold rowOf at h
  split at h
  · next hlen =>
    rw [lengthOf_of_code0 hlen] at hw
    rw [Nat.mod_eq_of_lt hw] at h
    obtain ⟨i, hi, ⟨⟩⟩ := Option.map_eq_some_iff.1 h
    rw [guardFits_eq (henc hlen hi {}), if_pos hlen]
    rfl
  · exact guardFits_of_decode64 h
  · exact guardFits_of_decode96 h
  · cases h

/-! ### Every well-formed instruction's encoding is read back -/

theorem member_of_amoForm {k : Nat} {b : Bool} {f : MFields} (h : amoForm k b f = true) : f.off.toNat % 8 = k := by
  simp only [amoForm, Bool.and_eq_true, beq_iff_eq] at h
  obtain ⟨⟨⟨⟨-, hk⟩, -⟩, -⟩, -⟩ := h
  exact hk

theorem reads_amo {k : Nat} {b : Bool} {f : MFields} (h : amoForm k b f = true) (g : Guard) :
    Reads g (amoMember k f) (packM g 0xC f) := member_of_amoForm h ▸ reads_amoMember g f

/-- The row of a member whose option bit is clear, and of one whose bit is set. -/
theorem option_of_clear {n : Nat} {c d : EFields → Instr} {f : EFields} (h : bitAt f.opt.toNat n = false) :
    option n c d f = some (c f) := by simp [option, h]
theorem option_of_set {n : Nat} {c d : EFields → Instr} {f : EFields} (h : bitAt f.opt.toNat n = true) :
    option n c d f = some (d f) := by simp [option, h]

end Sys2Proof.Slice0

namespace Sys2Proof.Slice0
open Sys2Proof.Machine

theorem bitAt_of_lt {v n : Nat} (h : v < 2 ^ n) : bitAt v n = false := by simp [bitAt, Nat.div_eq_of_lt h]
theorem bitAt_of_between {v n : Nat} (h : 2 ^ n ≤ v) (h' : v < 2 * 2 ^ n) : bitAt v n = true := by
  have hd : v / 2 ^ n = 1 := Nat.div_eq_of_lt_le (by omega) (by omega)
  simp [bitAt, hd]

/-- An instruction with an encoding, of the form its row asks, is what the decoder reads at it. -/
theorem encodeNat_reads {g : Guard} {i : Instr} (henc : i.encoded = true) (hform : formOk i = true)
    (hg : guardFits g i = true) : ∃ n, encodeNat g i = some n ∧ Reads g i n := by
  cases i with
  | addQ f | subQ f | andQ f | orQ f | xorQ f | andnQ f | shlQ f | shrQ f | sraQ f | minQ f | maxQ f | minuQ f | maxuQ f
  | mulQ f | movQ f | addiQ f | andiQ f | oriQ f | xoriQ f | shliQ f | shriQ f | sraiQ f | cmpeqQ f | cmpneQ f
  | cmpltQ f | cmpgeQ f | cmpltuQ f | cmpgeuQ f | cmpleQ f | cmpgtQ f | movq f | movg f | pand f | por f | pxor f
  | pnot f =>
    exact ⟨_, rfl, reads_packQ rfl hg⟩
  | li f | br f | jmp f | jal f | brl f =>
    exact ⟨_, rfl, reads_packJ (by decide) (fun w hw => by simp [decode32, hw]) rfl hg⟩
  | nop =>
    obtain rfl := guard_of_code0 (n := 0xFC) rfl (by decide) hg
    exact ⟨_, rfl, reads_of_decode32 (by decide) (by decide) rfl⟩
  | cmpeqG f b | cmpneG f b | cmpltG f b | cmpgeG f b | cmpltuG f b | cmpgeuG f b | cmpleG f b | cmpgtG f b =>
    exact ⟨_, rfl, reads_gCmp rfl rfl hg⟩
  | addG f | subG f | andG f | orG f | xorG f | andnG f | shlG f | shrG f | sraG f | minG f | maxG f | minuG f | maxuG f
  | mulG f | movG f | mulhG f | mulhuG f | divG f | divuG f | remG f | remuG f | rotG f | clzG f | ctzG f | popcG f
  | sextG f | zextG f | bfxG f | bfiG f | selG f | addiG f | andiG f | oriG f | xoriG f | shliG f | shriG f | sraiG f
  | fadd f | fsub f | fmul f | fma f | fmin f | fmax f | fsgn f | fcmp f | fcvt f | frcp f | frsq f | frcps f | frsqs f
  | fexp2 f | flog2 f | jalr f | loop f =>
    exact ⟨_, rfl, reads_packG rfl hg⟩
  | ld f | st f | lda f | stl f =>
    exact ⟨_, rfl, reads_packM (by decide) (fun w hw => by simp [decode64, hw]) g f⟩
  | amoadd f | amoand f | amoor f | amoxor f | amomin f | amomax f | amoswp f | amocas f =>
    exact ⟨_, rfl, reads_amo hform g⟩
  | mark | fbar | tick | yield | done | eret =>
    exact ⟨_, rfl, reads_packE rfl rfl g⟩
  | mfs f | mts f | mfc f | mtc f | fence f | cflush f | icinv f | prf f | ldp f | stp f | sigdef f | sigdrop f | tapld f
  | sighead f | sigrst f | sigseal f | sigevict f | sigpos f | sctx f | push f | wait f | tlread f | fork f | rdv f
  | evset f | evpulse f | wfe f | sbind f | spawn f | gbar f | budget f | eqpush f | eqcfg f | eqfire f | eqpop f
  | eqstat f | gfmask f | embld f | vrandk f | tld f | tst f | mma f | mmaz f | scld f | nestgo f | accmov f | accz f
  | tidset f | tidinv f | trap f | bkpt f | tlbinv f =>
    exact ⟨_, rfl, reads_packE rfl rfl g⟩
  | tapst f =>
    simp only [formOk, Bool.and_eq_true, decide_eq_true_eq] at hform
    exact ⟨_, rfl, reads_packE rfl (option_of_clear (bitAt_of_lt (by omega))) g⟩
  | tapstTick f =>
    simp only [formOk, Bool.and_eq_true, beq_iff_eq] at hform
    exact ⟨_, rfl, reads_packE rfl (option_of_set (bitAt_of_between (by simp [hform]) (by simp [hform]))) g⟩
  | join f =>
    simp only [formOk, Bool.and_eq_true, beq_iff_eq] at hform
    exact ⟨_, rfl, reads_packE rfl (option_of_clear (bitAt_of_lt (by simp [hform]))) g⟩
  | joinBatch f =>
    simp only [formOk, Bool.and_eq_true, beq_iff_eq] at hform
    exact ⟨_, rfl, reads_packE rfl (option_of_set (bitAt_of_between (by simp [hform]) (by simp [hform]))) g⟩
  | gfstep f =>
    simp only [formOk, Bool.and_eq_true, decide_eq_true_eq, beq_iff_eq] at hform
    exact ⟨_, rfl, reads_packE rfl (option_of_clear (bitAt_of_lt (by omega))) g⟩
  | gfstepSet f =>
    simp only [formOk, Bool.and_eq_true, decide_eq_true_eq, beq_iff_eq] at hform
    exact ⟨_, rfl, reads_packE rfl (option_of_set (bitAt_of_between (by omega) (by omega))) g⟩
  | rply f =>
    simp only [formOk, Bool.and_eq_true, decide_eq_true_eq, beq_iff_eq] at hform
    exact ⟨_, rfl, reads_packE rfl (option_of_clear (bitAt_of_lt (by simp [hform]))) g⟩
  | rplyTake f =>
    simp only [formOk, Bool.and_eq_true, beq_iff_eq] at hform
    exact ⟨_, rfl, reads_packE rfl (option_of_set (bitAt_of_between (by simp [hform]) (by simp [hform]))) g⟩
  | addL f | subL f | andL f | orL f | xorL f | andnL f | shlL f | shrL f | sraL f | minL f | maxL f | minuL f | maxuL f
  | mulL f | mulhL f | mulhuL f | divL f | divuL f | remL f | remuL f | rotL f | sextL f | zextL f | selL f | liw f
  | jmpl f | vshape f | fli f =>
    exact ⟨_, rfl, reads_packL rfl hg⟩
  | vadd f | vsub f | vmul f | vfma f | vmac f | vmin f | vmax f | vabs f | vneg f | vand f | vor f | vxor f | vshl f
  | vshr f | vsra f | vcvt f | vsel f | vcmp f | vrcp f | vrsq f | vexp f | vlog f | vtanh f | vsum f | vmaxr f
  | vdraw f | vdrawm f | vscan f | vpopc f | vdot f | vrand f | vcopy f | vfill f | vgather f | vscatter f | vperm f
  | vexpand f | vfir f | cspush f | cspop f | csroute f =>
    exact ⟨_, rfl, reads_packV rfl hg⟩
  | _ => cases henc

/-! ### Bytes of a word -/

theorem leNat_leBytes (n w : Nat) : leNat (leBytes n w) = w % 256 ^ n := by
  induction n generalizing w with
  | zero => simp [leBytes, leNat, Nat.mod_one]
  | succ n ih => rw [leBytes, leNat, ih, pow_succ', Nat.mod_mul]; rfl

theorem leBytes_length (n w : Nat) : (leBytes n w).length = n := by
  induction n generalizing w with
  | zero => rfl
  | succ n ih => rw [leBytes, List.length_cons, ih]

theorem leBytes_add (m n w : Nat) : leBytes (m + n) w = leBytes m w ++ leBytes n (w / 256 ^ m) := by
  induction m generalizing w with
  | zero => simp [leBytes]
  | succ m ih => rw [Nat.succ_add, leBytes, ih, leBytes, List.cons_append, pow_succ', Nat.div_div_eq_div_mul]

theorem leBytes_mod {n m : Nat} (h : n ≤ m) (w : Nat) : leBytes n (w % 256 ^ m) = leBytes n w := by
  induction n generalizing w m with
  | zero => rfl
  | succ n ih =>
    obtain ⟨m, rfl⟩ := Nat.exists_eq_add_of_le' (Nat.zero_lt_of_lt h)
    have hlow : BitVec.ofNat 8 (w % 256 ^ (m + 1)) = BitVec.ofNat 8 w := by
      apply BitVec.eq_of_toNat_eq
      simp only [BitVec.toNat_ofNat]
      exact Nat.mod_mod_of_dvd w (Dvd.intro_left (256 ^ m) rfl)
    rw [leBytes, leBytes, hlow, pow_succ', Nat.mod_mul_right_div_self, ih (Nat.le_of_succ_le_succ h)]

/-- The words of a number are its bytes in order. -/
theorem wordBytes_words (m n : Nat) :
    wordBytes ((List.range m).map fun k => BitVec.ofNat 32 (n / 2 ^ (32 * k))) = leBytes (4 * m) n := by
  induction m with
  | zero => rfl
  | succ m ih =>
    have hpow : (2 : Nat) ^ (32 * m) = 256 ^ (4 * m) := by rw [pow_mul, pow_mul]; rfl
    have hlast : leBytes 4 (BitVec.ofNat 32 (n / 2 ^ (32 * m))).toNat = leBytes 4 (n / 256 ^ (4 * m)) := by
      rw [BitVec.toNat_ofNat, hpow]
      exact leBytes_mod (m := 4) (Nat.le_refl 4) _
    rw [Nat.mul_succ, leBytes_add, ← hlast, ← ih]
    simp [wordBytes, List.range_succ]

theorem lengthOf_cases (w : Nat) : lengthOf w = 4 ∨ lengthOf w = 8 ∨ lengthOf w = 12 := by
  unfold lengthOf
  split <;> simp

theorem lengthOf_mod (w : Nat) : lengthOf (w % 2 ^ 8) = lengthOf w := by
  rw [lengthOf, lengthOf, Nat.mod_mod_of_dvd w (by decide : 4 ∣ 2 ^ 8)]

theorem wordBytes_encode {g : Guard} {i : Instr} {n : Nat} (h : encodeNat g i = some n) :
    wordBytes (encode g i) = leBytes (lengthOf n) n := by
  have hdiv : 4 * (lengthOf n / 4) = lengthOf n := by rcases lengthOf_cases n with h | h | h <;> rw [h]
  rw [encode, h, ← hdiv]
  exact wordBytes_words _ _

/-- The decoder reads a word of its own length at the head of a byte list, whatever follows. -/
theorem decodeBytes_leBytes {n : Nat} (hn : n < 2 ^ (8 * lengthOf n)) (rest : List Byte) {g : Guard} {i : Instr}
    (h : decodeWord n = .ok (g, i)) : decodeBytes (leBytes (lengthOf n) n ++ rest) = .ok (g, i, rest) := by
  have hlen := leBytes_length (lengthOf n) n
  obtain ⟨m, hm⟩ : ∃ m, lengthOf n = m + 1 := ⟨lengthOf n - 1, by rcases lengthOf_cases n with h | h | h <;> omega⟩
  obtain ⟨bs, hbs⟩ : ∃ bs, leBytes (lengthOf n) n ++ rest = BitVec.ofNat 8 n :: bs := by
    rw [hm, leBytes]
    exact ⟨_, rfl⟩
  have hvalue : leNat (leBytes (lengthOf n) n) = n := by
    rw [leNat_leBytes, Nat.mod_eq_of_lt]
    rwa [pow_mul] at hn
  have htake : ((BitVec.ofNat 8 n :: bs).take (lengthOf n)) = leBytes (lengthOf n) n := by
    rw [← hbs, List.take_left' hlen]
  have hdrop : ((BitVec.ofNat 8 n :: bs).drop (lengthOf n)) = rest := by rw [← hbs, List.drop_left' hlen]
  have hlong : ¬ (BitVec.ofNat 8 n :: bs).length < lengthOf n := by rw [← hbs, List.length_append, hlen]; omega
  rw [hbs]
  simp only [decodeBytes, BitVec.toNat_ofNat, lengthOf_mod, if_neg hlong, htake, hdrop, hvalue, h]

theorem decodeWord_of_rowOf {w : Nat} {g : Guard} {i : Instr} (h : rowOf w = some (g, i)) (hform : formOk i = true) :
    decodeWord w = .ok (g, i) := by
  have hlen : w % 4 ≠ 3 := by
    intro h3
    rw [rowOf, h3] at h
    cases h
  simp [decodeWord, hlen, h, hform]

theorem rowOf_of_decodeWord {w : Nat} {g : Guard} {i : Instr} (h : decodeWord w = .ok (g, i)) : rowOf w = some (g, i) := by
  simp only [decodeWord] at h
  split_ifs at h
  cases hrow : rowOf w with
  | none => simp [hrow] at h
  | some p =>
    obtain ⟨g', i'⟩ := p
    simp only [hrow] at h
    split_ifs at h
    cases h
    rfl

/-- Settles O53: each class reads what it packs (`encodeNat_reads`), so the bytes of an encoding decode to it
(`decodeBytes_leBytes`); a word is what its fields pack (`encodeNat_of_rowOf`), and its guard is read from the fields of
its class alone (`guardFits_of_rowOf`). -/
theorem decodeInvertsEncode : Obligations.DecodeInvertsEncode := by
  unfold Obligations.DecodeInvertsEncode
  refine ⟨?decodes, ?encodes⟩
  case decodes =>
    intro g i rest ⟨hencoded, hform, _⟩ hg
    obtain ⟨n, hn, hrow, hlt⟩ := encodeNat_reads hencoded hform hg
    rw [wordBytes_encode hn]
    exact decodeBytes_leBytes hlt rest (decodeWord_of_rowOf hrow hform)
  case encodes =>
    intro w g i hw h
    have hrow := rowOf_of_decodeWord h
    exact ⟨encodeNat_of_rowOf hw hrow, guardFits_of_rowOf hw hrow⟩

end Sys2Proof.Slice0

namespace Sys2Proof.Slice0
open Sys2Proof.Machine

/-- Settles O52: each word written out from the tables is computed; a length code of 3 is looked at first. -/
theorem wordsDecodeAsTheTablesSay : Obligations.WordsDecodeAsTheTablesSay := by
  unfold Obligations.WordsDecodeAsTheTablesSay
  refine ⟨rfl, rfl, rfl, rfl, rfl, rfl, rfl, rfl, ?undefLength, rfl⟩
  intro w hw
  simp [decodeWord, hw]

/-- Settles O55: every field of the state after reset is its default, and the empty memory is canonical. -/
theorem resetIsAsStated : Obligations.ResetIsAsStated := by
  unfold Obligations.ResetIsAsStated
  exact ⟨⟨rfl, rfl, rfl, rfl⟩, rfl, fun _ => rfl, rfl, rfl, rfl, rfl, rfl, rfl,
    fun _ => ⟨rfl, rfl, fun _ => ⟨rfl, rfl⟩⟩, fun _ _ => ⟨rfl, rfl⟩⟩

/-! ### What is found at decode -/

theorem decodeFor_code3 {w : Nat} (hw : w % 4 = 3) (n : Nat) (handler : Bool) : decodeFor n handler w = .error 0x02 := by
  simp [decodeFor, decodeWord, hw]

theorem decodeFor_of_rejected {w : Nat} (hw : w % 4 ≠ 3) (h : ∀ g i, decodeWord w ≠ .ok (g, i)) (n : Nat)
    (handler : Bool) : decodeFor n handler w = .error 0x01 := by
  cases hd : decodeWord w with
  | ok p => exact absurd hd (h p.1 p.2)
  | error r =>
    have hr : r ≠ .undefLength := by
      rintro rfl
      simp only [decodeWord, beq_iff_eq, if_neg hw] at hd
      split at hd
      · cases hd
      · split at hd <;> cases hd
    cases r <;> simp_all [decodeFor]

/-- The checks of a decoded instruction, in the order of R254. -/
theorem decodeFor_of_decoded {w : Nat} {g : Guard} {i : Instr} (h : decodeWord w = .ok (g, i)) (n : Nat)
    (handler : Bool) : decodeFor n handler w =
      if !modeOk n handler i then .error 0x01
      else if !streamOk n i then .error 0x90
      else if !(operandsOk i && numbersOk n i) then .error 0x03
      else .ok (g, i) := by
  simp only [decodeFor, h]

/-- What an issue makes of what was found at decode. -/
def afterDecode (b : State) : Except Nat (Guard × Instr) → State × Act (Guard × Instr)
  | .error r => (b, stopWith r)
  | .ok p => (b, .ok p)

/-- Whether the stream enters a function where it does not stand at an entry (R245). -/
def entryMissed (b : State) (line w : Nat) : Bool := (me b).entering && !(w == 2 && lineEntry line)

theorem fetchInstr_of_heldLine {s b : State} {line w : Nat} (h : heldLine s = .ok (line, b))
    (hw : w = (me b).pc.toNat % 128 / 4) : fetchInstr s =
      if entryMissed b line w then (b, stopWith 0x05)
      else if !lineOk line then
        (onMe b fun st => { st with pc := word (lineOf st.pc.toNat + 8), line := none }, stopWith 0x06)
      else if w < 2 || !lineStart line w then (onMe b fun st => { st with line := none }, stopWith 0x06)
      else if breakpoint b then (b, stopWith 0x13)
      else afterDecode b (decodeFor b.curStream (inHandler b) (line / 2 ^ (32 * w) % 2 ^ (32 * lineLength line w))) := by
  subst hw
  simp only [fetchInstr, h]
  rfl

theorem entryMissed_of_not {b : State} {line w : Nat} (he : (me b).entering = true)
    (hne : ¬(w = 2 ∧ lineEntry line = true)) : entryMissed b line w = true := by
  simp only [entryMissed, he, Bool.true_and, Bool.not_eq_true', Bool.and_eq_false_iff, beq_eq_false_iff_ne, ne_eq]
  by_cases h2 : w = 2
  · exact .inr (Bool.eq_false_iff.2 fun hl => hne ⟨h2, hl⟩)
  · exact .inl h2

theorem entryMissed_of_entry {b : State} {line w : Nat} (h : (me b).entering = true → w = 2 ∧ lineEntry line = true) :
    entryMissed b line w = false := by
  cases he : (me b).entering with
  | false => simp [entryMissed, he]
  | true => simp [entryMissed, h he]

/-- Past the entry check, the line's check and the breakpoints, the bits at the program counter are decoded. -/
theorem fetchInstr_decodes {s b : State} {line w : Nat} (h : heldLine s = .ok (line, b))
    (hw : w = (me b).pc.toNat % 128 / 4) (hentry : (me b).entering = true → w = 2 ∧ lineEntry line = true)
    (hok : lineOk line = true) (h2 : 2 ≤ w) (hstart : lineStart line w = true) (hbreak : breakpoint b = false) :
    fetchInstr s = afterDecode b
      (decodeFor b.curStream (inHandler b) (line / 2 ^ (32 * w) % 2 ^ (32 * lineLength line w))) := by
  rw [fetchInstr_of_heldLine h hw, entryMissed_of_entry hentry, hok, hstart, hbreak]
  simp [Nat.not_lt.2 h2]

/-- Settles O51: the checks of `fetchInstr` come one after another (`fetchInstr_of_heldLine`), and so do those of a
decoded instruction (`decodeFor_of_decoded`). -/
theorem decodeFaultsComeInOrder : Obligations.DecodeFaultsComeInOrder := by
  unfold Obligations.DecodeFaultsComeInOrder
  refine ⟨?order, ?taken⟩
  case order =>
    intro s b line w bits hheld hw hbits
    have hfetch := fetchInstr_of_heldLine hheld hw
    refine ⟨?entry, fun hentry => ⟨?integrity, ?start, fun hok h2 hstart hbreak => ?decoded⟩⟩
    case entry =>
      intro he hne
      simp [hfetch, entryMissed_of_not he hne]
    case integrity =>
      intro hok
      simp [hfetch, entryMissed_of_entry hentry, hok]
    case start =>
      intro hok hstart
      have hs : (decide (w < 2) || !lineStart line w) = true := by simpa using hstart
      simp only [hfetch, entryMissed_of_entry hentry, hok, hs, Bool.not_true, Bool.false_eq_true, if_false, if_true]
    case decoded =>
      rw [fetchInstr_decodes hheld hw hentry hok h2 hstart hbreak, ← hbits]
      refine ⟨?code3, ?rejected, fun g i hdec => ?checks⟩
      case code3 => intro h3; rw [decodeFor_code3 h3]; rfl
      case rejected => intro h3 hrej; rw [decodeFor_of_rejected h3 hrej]; rfl
      case checks =>
        rw [decodeFor_of_decoded hdec]
        refine ⟨?mode, ?stream, ?operands, ?none⟩
        case mode => intro hm; simp [hm, afterDecode]
        case stream => intro hm hs; simp [hm, hs, afterDecode]
        case operands => intro hm hs hop; rcases hop with hop | hop <;> simp [hm, hs, hop, afterDecode]
        case none => intro hm hs hop hn; simp [hm, hs, hop, hn, afterDecode]
  case taken =>
    intro s t c n e h
    simp [issue, h]

/-! ### One step -/

/-- A stream that may issue issues. -/
theorem issueOf_of_canIssue {s : State} {c n : Nat} (hs : (coreOf s c).slice.isSome = true) (hc : canIssue s c n = true) :
    issueOf s c n = issue s c n := by
  have hnone : (coreOf s c).slice.isNone = false := by simpa [Option.isNone_iff_eq_none, Option.isSome_iff_ne_none] using hs
  simp only [issueOf, hnone, hc, Bool.false_eq_true, if_false, if_true]

/-- An issue that finds no fault runs the instruction it has decoded. -/
theorem issue_of_fetchInstr {s b : State} {c n : Nat} {g : Guard} {i : Instr}
    (h : fetchInstr (begin s c n) = (b, .ok (g, i))) : issue s c n = exec i { b with guard := g } := by
  simp only [issue, h]

theorem eventOf_of_refused {s : State} {a : Agent} (h : admitted s a = false)
    {r : Host.Outcome State Fault Refusal} : eventOf s a r = .next s := by simp [eventOf, h]
theorem eventOf_of_admitted {s : State} {a : Agent} (h : admitted s a = true) (t : State) :
    eventOf s a (.next t) = if posts a && itemsOver s t then .next s else .next t := by simp [eventOf, h]

/-- A line that the core has not cached is read where it translates, as one snapshot (R244). -/
theorem fetchLineAt_of_hit {s u : State} {core ctx a : Nat} {l : Loc}
    (hf : find (coreOf s core).fetched (ctx * 2 ^ 56 + a) = none) (ht : translate s (some core) ctx 3 a = (.hit l, u)) :
    ∃ v, fetchLineAt s core ctx a = .ok (fromBytes (fetchAt u l 128), v) := by
  simp only [fetchLineAt, hf, ht]
  exact ⟨_, rfl⟩

theorem heldLine_of_fetch {s u : State} {v : Nat} (hl : (me s).line = none)
    (hf : fetchLineAt s s.curCore (myCtx s) (lineOf ((me s).pc.toNat % 2 ^ 56)) = .ok (v, u)) :
    ∃ t, heldLine s = .ok (v, t) := by
  simp only [heldLine, hl, heldLine.fetchNew, hf]
  exact ⟨_, rfl⟩

/-- Settles O50: the agenda, then what is due, then the streams in turn, by the branches of `step`; an issue by
`fetchInstr_decodes`, the line by `fetchLineAt_of_hit`. -/
theorem stepRunsDecodedInstruction : Obligations.StepRunsDecodedInstruction := by
  unfold Obligations.StepRunsDecodedInstruction
  refine ⟨?issues, ?events, ?idles, ?fetches⟩
  case issues =>
    intro s b c n line w rest g i hagenda hslice hcan hheld hw hentry hok h2 hstart hbreak hdec hm hs hop hn
    have hfor : decodeFor b.curStream (inHandler b) (line / 2 ^ (32 * w) % 2 ^ (32 * lineLength line w)) = .ok (g, i) := by
      simp [decodeFor_of_decoded hdec, hm, hs, hop, hn]
    have hfetch := fetchInstr_decodes hheld hw hentry hok h2 hstart hbreak
    rw [hfor] at hfetch
    have hissue := issueOf_of_canIssue (s := { s with agenda := rest }) hslice hcan
    simp only [step, hagenda, hissue]
    exact issue_of_fetchInstr hfetch
  case events =>
    intro s u i rest hagenda hu
    have hstep : step s = eventOf u (agentOf i) (exec i u) := by rw [hu]; simp only [step, hagenda]
    have hagent : admitted u (agentOf i) = admitted s (agentOf i) := by rw [hu]; rfl
    rw [← hagent, hstep]
    refine ⟨fun hadm => eventOf_of_refused hadm, fun hadm t ht => ?_⟩
    rw [ht, eventOf_of_admitted hadm]
    refine ⟨?posted, ?stalls⟩
    case posted => rintro (hp | hp) <;> simp [hp]
    case stalls => intro hp hover; simp [hp, hover]
  case idles =>
    intro s hagenda
    refine ⟨?due, ?next, ?passes⟩
    case due => intro t ht; simp only [step, hagenda, ht]
    case next => intro hd c n hn; simp only [step, hagenda, hd, hn]
    case passes => intro hd hn; simp only [step, hagenda, hd, hn, idle]
  case fetches =>
    intro s t c n hslice hcan ht hline hfind l u htr
    obtain ⟨v, hv⟩ := fetchLineAt_of_hit hfind htr
    exact heldLine_of_fetch hline hv

end Sys2Proof.Slice0

namespace Sys2Proof.Slice0
open Sys2Proof.Machine

/-! ### Integer instructions by their form (R269-R271) -/

/-- The member of each row of `integerOps` in each of its forms. -/
structure IntegerForms (p : (GFields → Instr) × Option (LFields → Instr) × Option (QFields → Instr) ×
    (Word → Word → Word)) : Prop where
  g : ∀ f s, exec (p.1 f) s = gForm f s (.reg f.b) p.2.2.2
  l : ∀ i, p.2.1 = some i → ∀ f s, exec (i f) s = lForm f s p.2.2.2
  q : ∀ i, p.2.2.1 = some i → ∀ f s, exec (i f) s = qForm f s true p.2.2.2

theorem integerForms_of_mem {p} (hp : p ∈ integerOps) : IntegerForms p := by
  simp only [integerOps, List.mem_cons, List.not_mem_nil, or_false] at hp
  rcases hp with rfl | rfl | rfl | rfl | rfl | rfl | rfl | rfl | rfl | rfl | rfl | rfl | rfl | rfl | rfl | rfl | rfl |
    rfl | rfl
  all_goals
    exact ⟨fun _ _ => rfl, fun i hi _ _ => by cases hi; rfl, fun i hi _ _ => by cases hi <;> rfl⟩

theorem exec_unaryOps {p} (hp : p ∈ unaryOps) (f : GFields) (s : State) :
    exec (p.1 f) s = gForm f s (.reg f.b) fun a _ => p.2 a := by
  simp only [unaryOps, List.mem_cons, List.not_mem_nil, or_false] at hp
  rcases hp with rfl | rfl | rfl | rfl <;> rfl

theorem exec_immediateOps {p} (hp : p ∈ immediateOps) :
    (∀ f s, exec (p.1 f) s = gForm f s (immG f) p.2.2) ∧ ∀ f s, exec (p.2.1 f) s = qForm f s false p.2.2 := by
  simp only [immediateOps, List.mem_cons, List.not_mem_nil, or_false] at hp
  rcases hp with rfl | rfl | rfl | rfl | rfl | rfl | rfl <;> exact ⟨fun _ _ => rfl, fun _ _ => rfl⟩

/-- A result of two operands, written once the sources have been read and emptied. -/
theorem twoForm_writes {s s' : State} {len : Nat} {lu : Bool} {a d : BitVec 8} {b : Second} {x y : Word}
    (op : Word → Word → Word) (hg : guardHolds s = true) (hr : readTwo s a b = .ok (x, y, s'))
    (hd : settled (me s') d = .ok ()) :
    twoForm s len lu a b (fun x y s => writeReg s d (op x y)) =
      .next (finish (written (emptySources s' lu a b) d (op x y)) len none) :=
  twoForm_of_readTwo hg hr (writeReg_of_settled (by simpa using hd) _) (by simp)

theorem gForm_reg_eq {f : GFields} {s s1 s2 : State} {x y : Word} (op : Word → Word → Word) (hg : guardHolds s = true)
    (ha : readReg s f.a = .ok (x, s1)) (hb : readReg s1 f.b = .ok (y, s2)) (hd : settled (me s2) f.dst = .ok ()) :
    gForm f s (.reg f.b) op =
      .next (finish (written (emptySources s2 f.lu f.a (.reg f.b)) f.dst (op x y)) 8 none) :=
  twoForm_writes op hg (readTwo_reg ha hb) hd

theorem gForm_imm_eq {f : GFields} {s s1 : State} {x : Word} (op : Word → Word → Word) (hg : guardHolds s = true)
    (ha : readReg s f.a = .ok (x, s1)) (hd : settled (me s1) f.dst = .ok ()) :
    gForm f s (immG f) op =
      .next (finish (written (emptyIf s1 f.lu f.a) f.dst (op x (f.imm.signExtend 64))) 8 none) :=
  twoForm_writes op hg (readTwo_value ha _) hd

theorem lForm_eq {f : LFields} {s s1 : State} {x : Word} (op : Word → Word → Word) (hg : guardHolds s = true)
    (ha : readReg s f.a = .ok (x, s1)) (hd : settled (me s1) f.dst = .ok ()) :
    lForm f s op =
      .next (finish (written (emptyIf s1 f.lu f.a) f.dst (op x (f.lit.signExtend 64))) 12 none) :=
  twoForm_writes op hg (readTwo_value ha _) hd

/-- Settles O19: every row of the tables is one of the forms, and each form writes its operation's result. -/
theorem integerGResults : Obligations.IntegerGResults := by
  unfold Obligations.IntegerGResults
  refine ⟨?gForms, ?lForms, ?unary, ?immediate⟩
  case gForms =>
    intro p hp f s s1 s2 x y hg ha hb hd
    rw [(integerForms_of_mem hp).g, gForm_reg_eq _ hg ha hb hd]
  case lForms =>
    intro p hp i hi f s s1 x hg ha hd
    rw [(integerForms_of_mem hp).l i hi, lForm_eq _ hg ha hd]
  case unary =>
    intro p hp f s s1 s2 x y hg ha hb hd
    rw [exec_unaryOps hp, gForm_reg_eq _ hg ha hb hd]
  case immediate =>
    intro p hp f s s1 x hg ha hd
    rw [(exec_immediateOps hp).1, gForm_imm_eq _ hg ha hd]

/-! ### The Q class (R270, R271, R275) -/

@[simp] theorem emptyQs_ctxs (f : QFields) (two : Bool) (s : State) : (emptyQs f two s).ctxs = s.ctxs := by
  simp only [emptyQs]
  split_ifs <;> rfl

@[simp] theorem settled_me_emptyQ (s : State) (n : Nat) (r : BitVec 8) :
    settled (me (emptyQ s n)) r = settled (me s) r := by
  rw [emptyQ, me_onMe]
  exact settled_congr rfl rfl r

@[simp] theorem settled_me_emptyQs (f : QFields) (two : Bool) (s : State) (r : BitVec 8) :
    settled (me (emptyQs f two s)) r = settled (me s) r := by
  simp only [emptyQs]
  split_ifs <;> simp

/-- A value written where no load is outstanding, in a state of the same contexts: the instruction completes. -/
theorem concludeNext_writeReg {s t : State} (ht : t.ctxs = s.ctxs) {r : BitVec 8} (h : settled (me t) r = .ok ())
    (v : Word) (len : Nat) : concludeNext s len (writeReg t r v) = .next (finish (written t r v) len none) := by
  rw [writeReg_of_settled h]
  exact concludeNext_of_ctxs (by simpa using ht) len

theorem qForm_reg_eq {f : QFields} {s : State} {x y : Word} (op : Word → Word → Word) (ha : readQ s f.a.toNat = .ok x)
    (hb : readQ s f.b.toNat = .ok y) (hd : settled (me s) (qReg f.dst) = .ok ()) :
    qForm f s true op = .next (finish (written (emptyQs f true s) (qReg f.dst) (op x y)) 4 none) := by
  simp only [qForm, ha, hb, bind, Except.bind, if_true]
  exact concludeNext_writeReg (emptyQs_ctxs f true s) (by simpa using hd) _ _

theorem qForm_imm_eq {f : QFields} {s : State} {x : Word} (op : Word → Word → Word) (ha : readQ s f.a.toNat = .ok x)
    (hd : settled (me s) (qReg f.dst) = .ok ()) :
    qForm f s false op =
      .next (finish (written (emptyQs f false s) (qReg f.dst) (op x (f.imm.signExtend 64))) 4 none) := by
  simp only [qForm, ha, bind, Except.bind, pure, Except.pure, Bool.false_eq_true, if_false]
  exact concludeNext_writeReg (emptyQs_ctxs f false s) (by simpa using hd) _ _

theorem exec_movq_eq {f : QFields} {s : State} {x : Word} (hx : readG s (moveG f) = .ok x)
    (hd : settled (me s) (qReg f.dst) = .ok ()) :
    exec (.movq f) s = .next (finish (written s (qReg f.dst) x) 4 none) := by
  rw [show exec (.movq f) s = execMovq f s from rfl, execMovq, hx]
  exact concludeNext_writeReg rfl hd _ _

theorem exec_movg_eq {f : QFields} {s : State} {x : Word} (ha : readQ s f.a.toNat = .ok x)
    (hd : settled (me s) (BitVec.ofNat 8 (moveG f)) = .ok ()) :
    exec (.movg f) s = .next (finish (written (emptyQs f false s) (BitVec.ofNat 8 (moveG f)) x) 4 none) := by
  have hempty : (if f.alast then emptyQ s f.a.toNat else s) = emptyQs f false s := by simp [emptyQs]
  rw [show exec (.movg f) s = execMovg f s from rfl, execMovg, ha, hempty]
  exact concludeNext_writeReg (emptyQs_ctxs f false s) (by simpa using hd) _ _

theorem exec_li_eq {f : JFields} {s : State} (hd : settled (me s) (qReg f.pred) = .ok ()) :
    exec (.li f) s = .next (finish (written s (qReg f.pred) (f.imm.signExtend 64)) 4 none) :=
  concludeNext_writeReg rfl hd _ _

/-- Settles O20: the Q forms read, empty and write as `qForm_reg_eq` and `qForm_imm_eq` say; the moves write what they have read. -/
theorem integerQResults : Obligations.IntegerQResults := by
  unfold Obligations.IntegerQResults
  refine ⟨?two, ?immediate, ?mov, ?movq, ?movg, ?li⟩
  case two =>
    intro p hp i hi f s x y ha hb hd
    rw [(integerForms_of_mem hp).q i hi, qForm_reg_eq _ ha hb hd]
  case immediate =>
    intro p hp f s x ha hd
    rw [(exec_immediateOps hp).2, qForm_imm_eq _ ha hd]
  case mov =>
    intro f s x ha hd
    exact qForm_imm_eq (fun a _ => a) ha hd
  case movq => exact fun f s x hx hd => exec_movq_eq hx hd
  case movg => exact fun f s x ha hd => exec_movg_eq ha hd
  case li => exact fun f s hd => exec_li_eq hd

end Sys2Proof.Slice0

namespace Sys2Proof.Slice0
open Sys2Proof.Machine

/-! ### Selection, comparison and constants (R270, R273, R276) -/

theorem selectBy_eq {s s' : State} {len : Nat} {lu : Bool} {a d : BitVec 8} {b : Second} {x y old : Word}
    (hg : guardHolds s = true) (hold : readOld s d = .ok old) (hr : readTwo s a b = .ok (x, y, s'))
    (hd : settled (me s') d = .ok ()) :
    selectBy s len lu d a b =
      .next (finish (written (emptySources s' lu a b) d (if old = 0 then y else x)) len none) := by
  have hctxs : (emptySources s' lu a b).ctxs = s.ctxs := by rw [emptySources_ctxs, readTwo_ctxs hr]
  have hval : (if old != 0 then x else y) = if old = 0 then y else x := by by_cases h : old = 0 <;> simp [h]
  simp only [selectBy, hg, if_true, hold, hr, bind, Except.bind, hval]
  exact concludeNext_writeReg hctxs (by simpa using hd) _ _

/-- The row of each condition is one compare of the G and the Q class. -/
theorem exec_compareOps {p} (hp : p ∈ compareOps) :
    (∀ f i s, exec (p.1 f i) s = gCompare f i s p.2.2) ∧ ∀ f s, exec (p.2.1 f) s = qCompare f s p.2.2 := by
  have heq : condEq = fun a b => decide (a = b) := by funext a b; simp [condEq, BEq.beq]
  have hne : condNe = fun a b => decide (a ≠ b) := by funext a b; simp [condNe, bne, BEq.beq]
  simp only [compareOps, ← heq, ← hne, List.mem_cons, List.not_mem_nil, or_false] at hp
  rcases hp with rfl | rfl | rfl | rfl | rfl | rfl | rfl | rfl <;> exact ⟨fun _ _ _ => rfl, fun _ _ => rfl⟩

theorem gCompare_reg_eq {f : GFields} {s s1 s2 : State} {x y : Word} (op : Word → Word → Bool)
    (hg : guardHolds s = true) (ha : readReg s f.a = .ok (x, s1)) (hb : readReg s1 f.b = .ok (y, s2)) :
    gCompare f false s op = .next (finish
      (written (emptySources s2 f.lu f.a (.reg f.b)) f.dst (word (bit01 (op x y)))) 8 none) :=
  twoForm_of_readTwo hg (readTwo_reg ha hb) rfl (by simp)

theorem gCompare_imm_eq {f : GFields} {s s1 : State} {x : Word} (op : Word → Word → Bool)
    (hg : guardHolds s = true) (ha : readReg s f.a = .ok (x, s1)) :
    gCompare f true s op = .next (finish
      (written (emptyIf s1 f.lu f.a) f.dst (word (bit01 (op x (f.imm.signExtend 64))))) 8 none) :=
  twoForm_of_readTwo hg (readTwo_value ha _) rfl (by simp)

theorem qCompare_eq {f : QFields} {s : State} {x y : Word} (op : Word → Word → Bool) (ha : readQ s f.a.toNat = .ok x)
    (hb : readQ s f.b.toNat = .ok y) :
    qCompare f s op =
      .next (finish (written (emptyQs f true s) (cReg f.dst) (word (bit01 (op x y)))) 4 none) := by
  simp only [qCompare, ha, hb, bind, Except.bind]
  exact concludeNext_of_ctxs (by simp [writePred]; split_ifs <;> rfl) 4

theorem guarded_writeReg {s : State} {d : BitVec 8} (hg : guardHolds s = true) (hd : settled (me s) d = .ok ())
    (v : Word) (len : Nat) : guarded s len (writeReg s d v) = .next (finish (written s d v) len none) := by
  rw [guarded_of_holds hg]
  exact concludeNext_writeReg rfl hd v len

theorem selectCompareAndConstants : SelectCompareAndConstants := by
  unfold SelectCompareAndConstants
  refine ⟨?fields, ?selL, ?compare, ?compareImm, ?compareQ, ?constants, fun s => concludeNext_of_ctxs rfl 4⟩
  case fields =>
    intro f s s1 s2 x y hg ha hb hd
    exact ⟨gForm_reg_eq (fun a _ => opBfx f.imm a) hg ha hb hd, gForm_reg_eq (opBfi f.imm) hg ha hb hd,
      fun old hold => selectBy_eq hg hold (readTwo_reg ha hb) hd⟩
  case selL =>
    intro f s s1 x old hg hold ha hd
    exact selectBy_eq hg hold (readTwo_value ha _) hd
  case compare =>
    intro p hp f s s1 s2 x y hg ha hb
    rw [(exec_compareOps hp).1, gCompare_reg_eq _ hg ha hb]
  case compareImm =>
    intro p hp f s s1 x hg ha
    rw [(exec_compareOps hp).1, gCompare_imm_eq _ hg ha]
  case compareQ =>
    intro p hp f s x y ha hb
    rw [(exec_compareOps hp).2, qCompare_eq _ ha hb]
  case constants =>
    intro f s hg hd
    exact ⟨guarded_writeReg hg hd _ _, guarded_writeReg hg hd _ _⟩

/-! ### Bit counts (Table 13.1) -/

theorem flag_eq_getLsbD {n : Nat} (a : BitVec n) (i : Nat) : flag a.toNat i = a.getLsbD i := by
  rw [flag, BitVec.getLsbD, Nat.testBit_eq_decide_div_mod_eq]
  rfl

theorem rankBelow_eq_length (v n : Nat) : rankBelow v n = ((List.range n).filter (flag v)).length := by
  induction n with
  | zero => rfl
  | succ n ih =>
    rw [rankBelow, ih, List.range_succ, List.filter_append, List.length_append]
    cases h : flag v n <;> simp [bit01, h]

theorem word_toNat {n : Nat} (h : n < 2 ^ 64) : (word n).toNat = n := by
  rw [word, BitVec.toNat_ofNat, Nat.mod_eq_of_lt h]

theorem opPopc_toNat (a : Word) : (opPopc a).toNat = ((List.range 64).filter fun i => a.getLsbD i).length := by
  have hflag : flag a.toNat = fun i => a.getLsbD i := funext fun i => flag_eq_getLsbD a i
  have hlen : ((List.range 64).filter fun i => a.getLsbD i).length ≤ 64 := by
    simpa using List.length_filter_le (fun i => a.getLsbD i) (List.range 64)
  rw [opPopc, popcount, rankBelow_eq_length, hflag, word_toNat (by omega)]

theorem toNat_ne_zero {a : Word} (ha : a ≠ 0) : a.toNat ≠ 0 := fun h => ha (BitVec.eq_of_toNat_eq h)

/-- The highest bit set of a word is bit 63 − CLZ. -/
theorem opClz_toNat {a : Word} (ha : a ≠ 0) : (opClz a).toNat = 63 - a.toNat.log2 := by
  rw [opClz, beq_false_of_ne ha, if_neg Bool.false_ne_true, word_toNat (by omega)]

theorem log2_toNat_lt {a : Word} (ha : a ≠ 0) : a.toNat.log2 < 64 := by
  rw [Nat.log2_lt (toNat_ne_zero ha)]
  exact a.isLt

/-- CTZ is the lowest bit set. -/
theorem opCtz_of_firstBelow {a : Word} {i : Nat} (h : firstBelow 64 (fun i => flag a.toNat i) = some i) :
    i < 64 ∧ (opCtz a).toNat = i ∧ a.getLsbD i = true ∧ ∀ j, j < i → a.getLsbD j = false := by
  obtain ⟨hi, hmem, hbefore⟩ := List.find?_range_eq_some.1 h
  have hlt : i < 64 := List.mem_range.1 hmem
  refine ⟨hlt, ?_, ?_, fun j hj => ?_⟩
  · have hval : opCtz a = word i := by rw [opCtz, h]; rfl
    rw [hval, word_toNat (by omega)]
  · rwa [← flag_eq_getLsbD]
  · rw [← flag_eq_getLsbD]
    simpa using hbefore j hj

theorem firstBelow_of_ne_zero {a : Word} (ha : a ≠ 0) : ∃ i, firstBelow 64 (fun i => flag a.toNat i) = some i := by
  cases h : firstBelow 64 (fun i => flag a.toNat i) with
  | some i => exact ⟨i, rfl⟩
  | none =>
    refine absurd (BitVec.eq_of_getLsbD_eq fun i hi => ?_) ha
    have hnone := List.find?_range_eq_none.1 h i hi
    rw [flag_eq_getLsbD] at hnone
    simpa using hnone

theorem bitCountsAreRight : BitCountsAreRight := by
  unfold BitCountsAreRight
  refine ⟨?zero, ?clz, ?ctz, opPopc_toNat⟩
  case zero => rintro a rfl; decide
  case clz =>
    intro a ha
    have hlog := log2_toNat_lt ha
    have hback : 63 - (opClz a).toNat = a.toNat.log2 := by rw [opClz_toNat ha]; omega
    refine ⟨by rw [opClz_toNat ha]; omega, ?_, fun i hi => ?_⟩
    · rw [hback, BitVec.getLsbD, Nat.testBit_log2 (toNat_ne_zero ha)]
    · rw [hback] at hi
      exact Nat.testBit_eq_false_of_lt ((Nat.log2_lt (toNat_ne_zero ha)).1 hi)
  case ctz =>
    intro a ha
    obtain ⟨i, hi⟩ := firstBelow_of_ne_zero ha
    obtain ⟨hlt, hval, hset, hbefore⟩ := opCtz_of_firstBelow hi
    rw [hval]
    exact ⟨hlt, hset, hbefore⟩

/-- Settles O22: the forms by their equations, the counts by the highest and the lowest bit set. -/
theorem selectCompareAndCounts : Obligations.SelectCompareAndCounts :=
  ⟨selectCompareAndConstants, bitCountsAreRight⟩

end Sys2Proof.Slice0

namespace Sys2Proof.Slice0
open Sys2Proof.Machine

/-! ### Bits of registers read after one is written -/

theorem setField_bit (v lo b : Nat) :
    setField v lo 1 b = 2 ^ lo * (v / 2 ^ lo - v / 2 ^ lo % 2 + b % 2) + v % 2 ^ lo := by
  have hv := Nat.div_add_mod v (2 ^ lo)
  have hle : v / 2 ^ lo % 2 ≤ v / 2 ^ lo := Nat.mod_le _ _
  have hsplit : 2 ^ lo * (v / 2 ^ lo) = 2 ^ lo * (v / 2 ^ lo % 2) + 2 ^ lo * (v / 2 ^ lo - v / 2 ^ lo % 2) := by
    rw [← mul_add, Nat.add_sub_cancel' hle]
  rw [setField, field, pow_one, mul_add, Nat.mul_comm _ (2 ^ lo), Nat.mul_comm _ (2 ^ lo)]
  omega

/-- Writing one bit leaves every other bit alone. -/
theorem flag_setField_ne {v lo b n : Nat} (h : n ≠ lo) : flag (setField v lo 1 b) n = flag v n := by
  have hpos := Nat.two_pow_pos lo
  have hmod : setField v lo 1 b % 2 ^ lo = v % 2 ^ lo := by rw [setField_bit, Nat.mul_add_mod, Nat.mod_mod]
  have hdiv : setField v lo 1 b / 2 ^ (lo + 1) = v / 2 ^ (lo + 1) := by
    rw [pow_succ, ← Nat.div_div_eq_div_mul, ← Nat.div_div_eq_div_mul, setField_bit,
      Nat.mul_add_div hpos, Nat.div_eq_of_lt (Nat.mod_lt _ hpos)]
    generalize v / 2 ^ lo = q
    omega
  have hflag : ∀ x, flag x n = x.testBit n := fun x => by rw [Nat.testBit_eq_decide_div_mod_eq]; rfl
  rw [hflag, hflag]
  rcases Nat.lt_or_gt_of_ne h with hlt | hgt
  · have := congrArg (fun x => x.testBit n) hmod
    simpa [Nat.testBit_mod_two_pow, hlt] using this
  · obtain ⟨k, rfl⟩ := Nat.exists_eq_add_of_lt hgt
    have := congrArg (fun x => x.testBit k) hdiv
    rw [Nat.testBit_div_two_pow, Nat.testBit_div_two_pow] at this
    rwa [show k + (lo + 1) = lo + k + 1 by omega] at this

theorem flag_toNat_ofNat {w n v : Nat} (h : n < w) : flag (BitVec.ofNat w v).toNat n = flag v n := by
  have hflag : ∀ x, flag x n = x.testBit n := fun x => by rw [Nat.testBit_eq_decide_div_mod_eq]; rfl
  rw [hflag, hflag, BitVec.toNat_ofNat, Nat.testBit_mod_two_pow, decide_eq_true h, Bool.true_and]

theorem flag_clear_ne {v : BitVec 16} {m n : Nat} (hn : n < 16) (h : n ≠ m) :
    flag (v &&& ~~~ BitVec.ofNat 16 (2 ^ m)).toNat n = flag v.toNat n := by
  rw [flag_eq_getLsbD, flag_eq_getLsbD, BitVec.getLsbD_and, BitVec.getLsbD_not, BitVec.getLsbD_ofNat,
    Nat.testBit_two_pow]
  simp [hn, h.symm]

theorem flag_set_ne {v : BitVec 16} {m n : Nat} (h : n ≠ m) :
    flag (v ||| BitVec.ofNat 16 (2 ^ m)).toNat n = flag v.toNat n := by
  rw [flag_eq_getLsbD, flag_eq_getLsbD, BitVec.getLsbD_or, BitVec.getLsbD_ofNat, Nat.testBit_two_pow]
  simp [h.symm]

/-! ### Registers of a stream after one is written -/

theorem gValue_putReg_other {st : Stream} {d : BitVec 8} {n : Nat} (hn : n < 128) (h : d.toNat ≠ n) (v : Word) :
    gValue (putReg st d v) n = gValue st n := by
  by_cases hd : d.toNat < 0x80
  · have := gValue_putReg_ne st hn hd h.symm v
    rwa [BitVec.ofNat_toNat, BitVec.setWidth_eq] at this
  · simp only [putReg, hd, if_false]
    split_ifs <;> simp only [gValue, gKey, stagedSlot]

theorem qValue_putReg_other {st : Stream} {d : BitVec 8} {n : Nat} (h : d.toNat ≠ 0x80 + n) (v : Word) :
    qValue (putReg st d v) n = qValue st n := by
  simp only [putReg]
  generalize d.toNat = m at h
  split_ifs with h0 hg hq
  · rfl
  · simp only [qValue]
  · exact look_put_ne _ _ _ fun hm => h (by omega)
  · rfl
  · simp only [qValue]

theorem qLive_putReg_other {st : Stream} {d : BitVec 8} {n : Nat} (h : d.toNat ≠ 0x80 + n) (v : Word) :
    qLive (putReg st d v) n = qLive st n := by
  simp only [putReg]
  generalize d.toNat = m at h
  split_ifs with h0 hg hq
  · rfl
  · simp only [qLive]
  · exact flag_set_ne fun hm => h (by omega)
  · rfl
  · simp only [qLive]

theorem cValue_putReg_other {st : Stream} {d : BitVec 8} {n : Nat} (hn : n < 16) (h : d.toNat ≠ 0x90 + n) (v : Word) :
    cValue (putReg st d v) n = cValue st n := by
  simp only [putReg]
  generalize d.toNat = m at h
  split_ifs with h0 hg hq hc
  · rfl
  · simp only [cValue]
  · simp only [cValue]
  · rfl
  · rw [cValue, cValue, flag_toNat_ofNat hn, flag_setField_ne fun hm => h (by omega)]

/-! ### What register instructions leave alone -/

/-- Everything outside the issuing stream that register instructions leave alone, but the d registers they read and what
walks had returned. -/
structure OutsideKept (s t : State) : Prop where
  curCore : t.curCore = s.curCore
  curStream : t.curStream = s.curStream
  guard : t.guard = s.guard
  mem : t.mem = s.mem
  poison : t.poison = s.poison
  module : t.module = s.module
  time : t.mtime = s.mtime ∧ t.elapsed = s.elapsed
  towers : t.towers = s.towers
  ports : t.ports = s.ports
  contexts : t.ctxs = s.ctxs
  interrupts : t.irqs = s.irqs ∧ t.masked = s.masked ∧ t.msixPending = s.msixPending
  cores : ∀ c, c ≠ s.curCore → coreOf t c = coreOf s c
  streams : ∀ n, n ≠ s.curStream → streamOf (coreOf t s.curCore) n = streamOf (coreOf s s.curCore) n
  core : { coreOf t s.curCore with streams := [], handler := none, dregs := [], walked := [] } =
    { coreOf s s.curCore with streams := [], handler := none, dregs := [], walked := [] }

namespace OutsideKept

theorem refl (s : State) : OutsideKept s s :=
  ⟨rfl, rfl, rfl, rfl, rfl, rfl, ⟨rfl, rfl⟩, rfl, rfl, rfl, ⟨rfl, rfl, rfl⟩, fun _ _ => rfl, fun _ _ => rfl, rfl⟩

theorem trans {s t u : State} (h : OutsideKept s t) (h' : OutsideKept t u) : OutsideKept s u where
  curCore := h'.curCore.trans h.curCore
  curStream := h'.curStream.trans h.curStream
  guard := h'.guard.trans h.guard
  mem := h'.mem.trans h.mem
  poison := h'.poison.trans h.poison
  module := h'.module.trans h.module
  time := ⟨h'.time.1.trans h.time.1, h'.time.2.trans h.time.2⟩
  towers := h'.towers.trans h.towers
  ports := h'.ports.trans h.ports
  contexts := h'.contexts.trans h.contexts
  interrupts := ⟨h'.interrupts.1.trans h.interrupts.1, h'.interrupts.2.1.trans h.interrupts.2.1,
    h'.interrupts.2.2.trans h.interrupts.2.2⟩
  cores := fun c hc => (h'.cores c (h.curCore ▸ hc)).trans (h.cores c hc)
  streams := fun n hn => (h.curCore ▸ h'.streams n (h.curStream ▸ hn)).trans (h.streams n hn)
  core := (h.curCore ▸ h'.core).trans h.core

/-- A change of the issuing core's d registers or of what walks returned. -/
theorem onCore (s : State) {f : Core → Core} (hs : ∀ k, (f k).streams = k.streams)
    (hc : ∀ k, { f k with streams := [], handler := none, dregs := [], walked := [] } =
      { k with streams := [], handler := none, dregs := [], walked := [] }) :
    OutsideKept s (onCore s s.curCore f) where
  curCore := rfl
  curStream := rfl
  guard := rfl
  mem := rfl
  poison := rfl
  module := rfl
  time := ⟨rfl, rfl⟩
  towers := rfl
  ports := rfl
  contexts := rfl
  interrupts := ⟨rfl, rfl, rfl⟩
  cores := fun _ hne => coreOf_onCore_ne s f hne
  streams := fun n _ => by rw [coreOf_onCore_self, streamOf, streamOf, hs]
  core := by rw [coreOf_onCore_self, hc]

theorem onMe (s : State) (f : Stream → Stream) : OutsideKept s (onMe s f) where
  curCore := rfl
  curStream := rfl
  guard := rfl
  mem := rfl
  poison := rfl
  module := rfl
  time := ⟨rfl, rfl⟩
  towers := rfl
  ports := rfl
  contexts := rfl
  interrupts := ⟨rfl, rfl, rfl⟩
  cores := fun _ hne => coreOf_onMe_ne s f hne
  streams := fun n hn => by
    rw [Machine.onMe, coreOf_onCore_self]
    split
    · rfl
    · exact streamOf_put_ne _ _ hn
  core := by
    rw [Machine.onMe, coreOf_onCore_self]
    split <;> rfl

end OutsideKept

/-! ### Sources read and emptied -/

theorem me_onCore_of_streams (s : State) {f : Core → Core} (hs : ∀ k, (f k).streams = k.streams)
    (hh : ∀ k, (f k).handler = k.handler) : me (onCore s s.curCore f) = me s := by
  simp only [me, onCore_curCore, onCore_curStream, coreOf_onCore_self, hh, streamOf, hs]

theorem readD_kept {s t : State} {k : Nat} {v : Word} (h : readD s k = .ok (v, t)) : OutsideKept s t ∧ me t = me s := by
  simp only [readD] at h
  cases hfifo : (look {} (myCore s).dregs k).fifo with
  | nil =>
    simp only [hfifo, stopWith] at h
    split_ifs at h
  | cons w rest =>
    simp only [hfifo] at h
    split_ifs at h
    cases h
    exact ⟨.onCore s (fun _ => rfl) fun _ => rfl, me_onCore_of_streams s (fun _ => rfl) fun _ => rfl⟩

theorem readReg_kept {s t : State} {r : BitVec 8} {v : Word} (h : readReg s r = .ok (v, t)) :
    OutsideKept s t ∧ me t = me s := by
  have map_state {x : Act Word} (hx : (x.map fun v => (v, s)) = .ok (v, t)) : OutsideKept s t ∧ me t = me s := by
    cases x <;> cases hx
    exact ⟨.refl s, rfl⟩
  simp only [readReg] at h
  split_ifs at h
  · exact map_state h
  · exact map_state h
  · obtain ⟨-, rfl⟩ := Prod.mk.inj (Except.ok.inj h)
    exact ⟨.refl s, rfl⟩
  · exact readD_kept h
  · cases h

/-- A stream with some of the q registers `used` emptied. -/
def Emptied (used : List Nat) (st u : Stream) : Prop :=
  ∃ ql, u = { st with qlive := ql } ∧ ∀ n, n < 16 → n ∉ used → flag ql.toNat n = flag st.qlive.toNat n

theorem Emptied.refl (used : List Nat) (st : Stream) : Emptied used st st := ⟨st.qlive, rfl, fun _ _ _ => rfl⟩

theorem Emptied.trans {a b : List Nat} {st u w : Stream} (h : Emptied a st u) (h' : Emptied b u w) :
    Emptied (a ++ b) st w := by
  obtain ⟨ql, rfl, hq⟩ := h
  obtain ⟨ql', rfl, hq'⟩ := h'
  refine ⟨ql', rfl, fun n hn hmem => ?_⟩
  rw [List.mem_append, not_or] at hmem
  exact (hq' n hn hmem.2).trans (hq n hn hmem.1)

theorem emptied_emptyQ (s : State) (m : Nat) : Emptied [m] (me s) (me (emptyQ s m)) := by
  rw [emptyQ, me_onMe]
  exact ⟨_, rfl, fun n hn hmem => flag_clear_ne hn (by simpa using hmem)⟩

theorem emptied_emptyIf (s : State) (lu : Bool) (r : BitVec 8) : Emptied (usedQs lu [r]) (me s) (me (emptyIf s lu r)) := by
  unfold emptyIf
  split
  · next h =>
    obtain ⟨rfl, hq⟩ := Bool.and_eq_true_iff.1 h
    have hused : usedQs true [r] = [r.toNat - 0x80] := by simp [usedQs, hq]
    rw [hused]
    exact emptied_emptyQ _ _
  · exact .refl _ _

theorem emptied_emptySources (s : State) (lu : Bool) (a b : BitVec 8) :
    Emptied (usedQs lu [a, b]) (me s) (me (emptySources s lu a (.reg b))) := by
  have hused : usedQs lu [a, b] = usedQs lu [a] ++ usedQs lu [b] := by
    cases lu with
    | false => rfl
    | true => simp [usedQs, List.filter_cons]; split <;> split <;> rfl
  rw [hused]
  exact (emptied_emptyIf s lu a).trans (emptied_emptyIf _ lu b)

theorem emptied_emptyQs (s : State) (f : QFields) (two : Bool) :
    Emptied (usedBy f two) (me s) (me (emptyQs f two s)) := by
  have step : ∀ (s : State) (b : Bool) (m : Nat),
      Emptied (if b then [m] else []) (me s) (me (if b then emptyQ s m else s)) := by
    intro s b m
    cases b
    · exact .refl _ _
    · exact emptied_emptyQ s m
  exact (step s f.alast _).trans (step _ (two && f.blast) _)

theorem OutsideKept.emptyIf (s : State) (lu : Bool) (r : BitVec 8) : OutsideKept s (emptyIf s lu r) := by
  unfold Machine.emptyIf
  split
  · exact .onMe s _
  · exact .refl s

theorem OutsideKept.emptySources (s : State) (lu : Bool) (a b : BitVec 8) :
    OutsideKept s (emptySources s lu a (.reg b)) := (OutsideKept.emptyIf s lu a).trans (.emptyIf _ lu b)

theorem OutsideKept.emptyQs (s : State) (f : QFields) (two : Bool) : OutsideKept s (emptyQs f two s) := by
  have step : ∀ (s : State) (b : Bool) (m : Nat), OutsideKept s (if b then emptyQ s m else s) := by
    intro s b m
    split
    · exact .onMe s _
    · exact .refl s
  exact (step s f.alast _).trans (step _ (two && f.blast) _)

/-! ### The frame of a register instruction that completes -/

/-- An instruction that has not waited and emits no pulse issues without a trace. -/
theorem finish_of_plain {s : State} (hw : (me s).waiting = none) (hp : s.guard.pulse = false) (len : Nat)
    (target : Option Word) :
    finish s len target = onMe (onCore s s.curCore fun k => dropWalked k s.curStream) fun st => issued st len target := by
  simp only [finish, traceWait, traceWaitOf, hw]
  exact if_neg (by simp [hp])

theorem putReg_waiting (st : Stream) (r : BitVec 8) (v : Word) : (putReg st r v).waiting = st.waiting := by
  simp only [putReg]
  split_ifs <;> rfl

theorem outsideKept_finish {s : State} (hw : (me s).waiting = none) (hp : s.guard.pulse = false) (len : Nat)
    (target : Option Word) : OutsideKept s (finish s len target) := by
  rw [finish_of_plain hw hp]
  have hdrop := OutsideKept.onCore s (f := fun k => dropWalked k s.curStream) (fun _ => rfl) fun _ => rfl
  exact hdrop.trans (.onMe _ _)

/-- What `putReg` leaves alone beside the registers. -/
theorem putReg_rest (st : Stream) (r : BitVec 8) (v : Word) :
    ∃ g q ql c, putReg st r v = { st with g := g, q := q, qlive := ql, c := c } := by
  simp only [putReg]
  split_ifs
  · exact ⟨st.g, st.q, st.qlive, st.c, rfl⟩
  · exact ⟨_, st.q, st.qlive, st.c, rfl⟩
  · exact ⟨st.g, _, _, st.c, rfl⟩
  · exact ⟨st.g, st.q, st.qlive, st.c, rfl⟩
  · exact ⟨st.g, st.q, st.qlive, _, rfl⟩

theorem registerFrame_of_kept {s t : State} {d : BitVec 8} {used : List Nat} {fl : BitVec 6} {u : Stream} (v : Word)
    (len : Nat) (hs : plainIssue s) (ho : OutsideKept s t) (he : Emptied used (me s) u)
    (ht : me t = { u with fflags := u.fflags ||| fl }) : RegisterFrame s (finish (written t d v) len none) d used fl := by
  obtain ⟨ql, hu, hq⟩ := he
  have hwaiting : (me (written t d v)).waiting = none := by rw [me_onMe, putReg_waiting, ht, hu]; exact hs.1
  have hpulse : (written t d v).guard.pulse = false := by rw [onMe_guard, ho.guard]; exact hs.2
  have hk : OutsideKept s (finish (written t d v) len none) :=
    (ho.trans (.onMe t _)).trans (outsideKept_finish hwaiting hpulse len none)
  have hme : me (finish (written t d v) len none) = issued (putReg (me t) d v) len none := by rw [me_finish, me_onMe]
  obtain ⟨g, q, l, c, hput⟩ := putReg_rest (me t) d v
  have hrest := hme.trans (congrArg (issued · len none) hput)
  rw [ht, hu] at hrest
  refine
    { memory := fun a => by rw [byteAt, byteAt, hk.mem], poison := hk.poison, module := hk.module, time := hk.time
      towers := hk.towers, ports := hk.ports, contexts := hk.contexts, interrupts := hk.interrupts, cores := hk.cores
      streams := hk.streams, core := hk.core, gRegs := fun n _ hn hd => ?_, qRegs := fun n _ hd => ?_
      qLiveness := fun n hn hd hmem => ?_, cRegs := fun n hn hd => ?_, flags := by rw [hrest]; exact ⟨rfl, rfl, rfl⟩
      loop := by rw [hrest]; exact ⟨rfl, rfl, rfl⟩, link := by rw [hrest]; rfl
      stop := by rw [hrest]; exact ⟨rfl, rfl, rfl, rfl⟩, loads := by rw [hrest]; rfl, status := by rw [hrest]; rfl }
  · rw [hme]
    exact (gValue_putReg_other hn hd v).trans (by rw [ht, hu]; rfl)
  · rw [hme]
    exact (qValue_putReg_other hd v).trans (by rw [ht, hu]; rfl)
  · rw [hme]
    exact (qLive_putReg_other hd v).trans (by rw [ht, hu]; exact hq n hn hmem)
  · rw [hme]
    exact (cValue_putReg_other hn hd v).trans (by rw [ht, hu]; rfl)

end Sys2Proof.Slice0

namespace Sys2Proof.Slice0
open Sys2Proof.Machine

theorem exec_plainG {i : GFields → Instr} (h : i ∈ plainG) (f : GFields) :
    ∃ op, ∀ s, exec (i f) s = gForm f s (.reg f.b) op := by
  simp only [plainG, List.mem_append, List.mem_map, List.mem_cons, List.not_mem_nil, or_false] at h
  rcases h with (⟨p, hp, rfl⟩ | ⟨p, hp, rfl⟩) | rfl | rfl
  · exact ⟨_, (integerForms_of_mem hp).g f⟩
  · exact ⟨_, exec_unaryOps hp f⟩
  · exact ⟨fun a _ => opBfx f.imm a, fun _ => rfl⟩
  · exact ⟨opBfi f.imm, fun _ => rfl⟩

theorem exec_plainQ {i : QFields → Instr} (h : i ∈ plainQ) (f : QFields) : ∃ op, ∀ s, exec (i f) s = qForm f s true op := by
  obtain ⟨p, hp, hi⟩ := List.mem_filterMap.1 h
  exact ⟨_, (integerForms_of_mem hp).q i hi f⟩

theorem exec_oneQ {i : QFields → Instr} (h : i ∈ oneQ) (f : QFields) : ∃ op, ∀ s, exec (i f) s = qForm f s false op := by
  rcases List.mem_cons.1 h with rfl | h
  · exact ⟨fun a _ => a, fun _ => rfl⟩
  · obtain ⟨p, hp, rfl⟩ := List.mem_map.1 h
    exact ⟨_, (exec_immediateOps hp).2 f⟩

/-- A frame without exceptions raised, of what has read and emptied its sources. -/
theorem registerFrame_of_emptied {s t u : State} {d : BitVec 8} {used : List Nat} {v : Word} {len : Nat}
    (hs : plainIssue s) (ho : OutsideKept s t) (he : Emptied used (me s) (me t))
    (hu : Host.Outcome.next (finish (written t d v) len none) = (.next u : Host.Outcome State Fault Refusal)) :
    RegisterFrame s u d used 0 := by
  obtain rfl := Host.Outcome.next.inj hu
  exact registerFrame_of_kept v len hs ho he (by simp)

/-- The frame of a division, which may also raise DZ. -/
theorem registerFrame_of_setFlags {s t u : State} {d : BitVec 8} {used : List Nat} {v : Word} {len : Nat}
    {fl : BitVec 6} (hs : plainIssue s) (ho : OutsideKept s t) (he : Emptied used (me s) (me t))
    (hu : Host.Outcome.next (finish (written (setFlags t fl) d v) len none) =
      (.next u : Host.Outcome State Fault Refusal)) : RegisterFrame s u d used fl := by
  obtain rfl := Host.Outcome.next.inj hu
  exact registerFrame_of_kept v len hs (ho.trans (.onMe t _)) he (by rw [setFlags, me_onMe])

/-- Two register sources read, then emptied where last use is marked. -/
theorem kept_of_two_sources {s s1 s2 : State} {a b : BitVec 8} {x y : Word} (ha : readReg s a = .ok (x, s1))
    (hb : readReg s1 b = .ok (y, s2)) (lu : Bool) : OutsideKept s (emptySources s2 lu a (.reg b)) ∧
      Emptied (usedQs lu [a, b]) (me s) (me (emptySources s2 lu a (.reg b))) := by
  obtain ⟨ho1, hm1⟩ := readReg_kept ha
  obtain ⟨ho2, hm2⟩ := readReg_kept hb
  refine ⟨(ho1.trans ho2).trans (.emptySources s2 lu a b), ?_⟩
  rw [← hm1, ← hm2]
  exact emptied_emptySources s2 lu a b

theorem kept_of_one_source {s s1 : State} {a : BitVec 8} {x : Word} (ha : readReg s a = .ok (x, s1)) (lu : Bool) :
    OutsideKept s (emptyIf s1 lu a) ∧ Emptied (usedQs lu [a]) (me s) (me (emptyIf s1 lu a)) := by
  obtain ⟨ho, hm⟩ := readReg_kept ha
  refine ⟨ho.trans (.emptyIf s1 lu a), ?_⟩
  rw [← hm]
  exact emptied_emptyIf s1 lu a

theorem signExtend_eq_zero_iff (v : BitVec 32) : (v.signExtend 64 : Word) = 0 ↔ v = 0 := by
  rw [← BitVec.toInt_inj, ← BitVec.toInt_inj, BitVec.toInt_signExtend_of_le (by decide)]
  rfl

/-- Settles O56: each form completes in `finish` of one register written over emptied sources, by the equations of its
class, and `registerFrame_of_kept` says what that leaves alone. -/
theorem integerOperationsKeepTheRest : Obligations.IntegerOperationsKeepTheRest := by
  unfold Obligations.IntegerOperationsKeepTheRest
  refine ⟨?gTwo, ?gOne, ?lOne, ?lConst, ?qForms, ?movq, ?li⟩
  case gTwo =>
    intro f s s1 s2 t x y hg hs ha hb
    obtain ⟨ho, he⟩ := kept_of_two_sources ha hb f.lu
    refine ⟨fun hd => ⟨fun i hi ht => ?_, fun old hold ht => ?_, fun p hp ht => ?_⟩, fun p hp ht => ?_⟩
    · obtain ⟨op, hop⟩ := exec_plainG hi f
      rw [hop, gForm_reg_eq op hg ha hb hd] at ht
      exact registerFrame_of_emptied hs ho he ht
    · rw [show exec (.selG f) s = selectBy s 8 f.lu f.dst f.a (.reg f.b) from rfl,
        selectBy_eq hg hold (readTwo_reg ha hb) hd] at ht
      exact registerFrame_of_emptied hs ho he ht
    · rw [(exec_divideOps hp).1, gDivide_eq p.2.2 hg ha hb hd, divFlags_eq] at ht
      exact registerFrame_of_setFlags hs ho he ht
    · rw [(exec_compareOps hp).1, gCompare_reg_eq _ hg ha hb] at ht
      exact registerFrame_of_emptied hs ho he ht
  case gOne =>
    intro f s s1 t x hg hs ha
    obtain ⟨ho, he⟩ := kept_of_one_source ha f.lu
    refine ⟨fun hd p hp ht => ?_, fun p hp ht => ?_⟩
    · rw [(exec_immediateOps hp).1, gForm_imm_eq _ hg ha hd] at ht
      exact registerFrame_of_emptied hs ho he ht
    · rw [(exec_compareOps hp).1, gCompare_imm_eq _ hg ha] at ht
      exact registerFrame_of_emptied hs ho he ht
  case lOne =>
    intro f s s1 t x hg hs ha hd
    obtain ⟨ho, he⟩ := kept_of_one_source ha f.lu
    refine ⟨fun p hp i hi ht => ?_, fun old hold ht => ?_, fun p hp ht => ?_⟩
    · rw [(integerForms_of_mem hp).l i hi, lForm_eq _ hg ha hd] at ht
      exact registerFrame_of_emptied hs ho he ht
    · rw [show exec (.selL f) s = selectBy s 12 f.lu f.dst f.a (.value (f.lit.signExtend 64)) from rfl,
        selectBy_eq hg hold (readTwo_value ha _) hd] at ht
      exact registerFrame_of_emptied hs ho he ht
    · rw [(exec_divideOps hp).2, lDivide_eq p.2.2 hg ha hd, divFlags_eq] at ht
      simp only [signExtend_eq_zero_iff] at ht
      exact registerFrame_of_setFlags hs ho he ht
  case lConst =>
    intro f s t hg hs hd ht
    rcases ht with ht | ht
    · rw [show exec (.liw f) s = guarded s 12 (writeReg s f.dst ((f.imm ++ f.lit).signExtend 64)) from rfl,
        guarded_writeReg hg hd] at ht
      exact registerFrame_of_emptied hs (.refl s) (.refl _ _) ht
    · rw [show exec (.fli f) s = execFli f s from rfl, execFli, guarded_writeReg hg hd] at ht
      exact registerFrame_of_emptied hs (.refl s) (.refl _ _) ht
  case qForms =>
    intro f s t x hs ha
    have hk := fun two => OutsideKept.emptyQs s f two
    have he := fun two => emptied_emptyQs s f two
    refine ⟨fun hd => ⟨fun i hi ht => ?_, fun y hb i hi ht => ?_⟩, fun y hb p hp ht => ?_, fun hd ht => ?_⟩
    · obtain ⟨op, hop⟩ := exec_oneQ hi f
      rw [hop, qForm_imm_eq op ha hd] at ht
      exact registerFrame_of_emptied hs (hk false) (he false) ht
    · obtain ⟨op, hop⟩ := exec_plainQ hi f
      rw [hop, qForm_reg_eq op ha hb hd] at ht
      exact registerFrame_of_emptied hs (hk true) (he true) ht
    · rw [(exec_compareOps hp).2, qCompare_eq _ ha hb] at ht
      exact registerFrame_of_emptied hs (hk true) (he true) ht
    · rw [exec_movg_eq ha hd] at ht
      exact registerFrame_of_emptied hs (hk false) (he false) ht
  case movq =>
    intro f s t x hs hx hd ht
    rw [exec_movq_eq hx hd] at ht
    exact registerFrame_of_emptied hs (.refl s) (.refl _ _) ht
  case li =>
    intro f s t hs hd ht
    rw [exec_li_eq hd] at ht
    exact registerFrame_of_emptied hs (.refl s) (.refl _ _) ht

end Sys2Proof.Slice0

namespace Sys2Proof.Slice0
open Sys2Proof.Machine

/-! ### Scalar float members (R278-R281) -/

/-- Emptying the sources keeps the rounding mode. -/
@[simp] theorem roundingMode_emptySources (s : State) (lu : Bool) (a b : BitVec 8) :
    roundingMode (emptySources s lu a (.reg b)) = (me s).rmode.toNat := by
  obtain ⟨ql, hme, -⟩ := emptied_emptySources s lu a b
  rw [roundingMode, hme]

theorem writeFloat_of_settled {s : State} {d : BitVec 8} (h : settled (me s) d = .ok ()) (r : FRes) :
    writeFloat s d r = .ok (written (setFlags s r.flags) d (word r.bits)) :=
  writeReg_of_settled (by simpa using h) _

theorem fForm_eq {f : GFields} {s s1 s2 : State} {x y : Word} (op : Fmt → Nat → Nat → Nat → FRes)
    (hg : guardHolds s = true) (ha : readReg s f.a = .ok (x, s1)) (hb : readReg s1 f.b = .ok (y, s2))
    (hd : settled (me s2) f.dst = .ok ()) {r : FRes}
    (hr : r = op (opFmt f) (me s2).rmode.toNat (lowBits (opFmt f) x) (lowBits (opFmt f) y)) :
    fForm f s op = .next (finish
      (written (setFlags (emptySources s2 f.lu f.a (.reg f.b)) r.flags) f.dst (word r.bits)) 8 none) := by
  subst hr
  refine twoForm_of_readTwo hg (readTwo_reg ha hb) ?_ (emptySources_ctxs s2 f.lu f.a (.reg f.b))
  rw [roundingMode_emptySources]
  exact writeFloat_of_settled (by simpa using hd) _

theorem exec_fma_eq {f : GFields} {s s1 s2 : State} {x y old : Word} (hg : guardHolds s = true)
    (hold : readOld s f.dst = .ok old) (ha : readReg s f.a = .ok (x, s1)) (hb : readReg s1 f.b = .ok (y, s2))
    (hd : settled (me s2) f.dst = .ok ()) {r : FRes}
    (hr : r = fmaR (opFmt f) (me s2).rmode.toNat (lowBits (opFmt f) x) (lowBits (opFmt f) y)
      (lowBits (opFmt f) old)) :
    exec (.fma f) s = .next (finish
      (written (setFlags (emptySources s2 f.lu f.a (.reg f.b)) r.flags) f.dst (word r.bits)) 8 none) := by
  have hctxs : s2.ctxs = s.ctxs := (readReg_ctxs hb).trans (readReg_ctxs ha)
  subst hr
  rw [show exec (.fma f) s = execFma f s from rfl, execFma, if_pos hg, hold, readTwo_reg ha hb]
  simp only [bind, Except.bind]
  rw [roundingMode, writeFloat_of_settled (by simpa using hd)]
  exact concludeNext_of_ctxs (by simpa using hctxs) 8

theorem exec_fcmp_eq {f : GFields} {s s1 s2 : State} {x y : Word} (hg : guardHolds s = true)
    (ha : readReg s f.a = .ok (x, s1)) (hb : readReg s1 f.b = .ok (y, s2)) {u v : FVal} {cond : Bool × Bool}
    (hu : u = fval (opFmt f) (lowBits (opFmt f) x)) (hv : v = fval (opFmt f) (lowBits (opFmt f) y))
    (hcond : cond = floatCond (f.imm.toNat / 16 % 8) u v) :
    exec (.fcmp f) s = .next (finish (written (setFlags (emptySources s2 f.lu f.a (.reg f.b))
      (signalFlag u ||| signalFlag v ||| flagIf cond.2 flagNV)) f.dst (word (bit01 cond.1))) 8 none) := by
  subst hu hv hcond
  rw [show exec (.fcmp f) s = execFcmp f s from rfl, execFcmp]
  exact twoForm_of_readTwo (t := written (setFlags (emptySources s2 f.lu f.a (.reg f.b)) _) f.dst _) hg
    (readTwo_reg ha hb) rfl (emptySources_ctxs s2 f.lu f.a (.reg f.b))

theorem exec_fcvt_eq {f : GFields} {s s1 s2 : State} {x y : Word} (hg : guardHolds s = true)
    (ha : readReg s f.a = .ok (x, s1)) (hb : readReg s1 f.b = .ok (y, s2)) (hd : settled (me s2) f.dst = .ok ())
    {r : Word × Flags} (hr : r = convertScalar (me s2).rmode.toNat (f.imm.toNat % 16) (f.imm.toNat / 16 % 16) x) :
    exec (.fcvt f) s = .next (finish
      (written (setFlags (emptySources s2 f.lu f.a (.reg f.b)) r.2) f.dst r.1) 8 none) := by
  subst hr
  rw [show exec (.fcvt f) s = execFcvt f s from rfl, execFcvt]
  refine twoForm_of_readTwo (t := written (setFlags (emptySources s2 f.lu f.a (.reg f.b)) _) f.dst _) hg
    (readTwo_reg ha hb) ?_ (emptySources_ctxs s2 f.lu f.a (.reg f.b))
  rw [roundingMode_emptySources]
  exact writeReg_of_settled (by simpa using hd) _

theorem floatResults : FloatResults := by
  refine ⟨?two, ?fma, ?fcmp, ?fcvt⟩
  case two =>
    intro p hp f s s1 s2 x y r hg ha hb hd hr
    have hexec : exec (p.1 f) s = fForm f s p.2 := by
      simp only [List.mem_cons, List.not_mem_nil, or_false] at hp
      rcases hp with rfl | rfl | rfl | rfl | rfl | rfl <;> rfl
    rw [hexec, fForm_eq p.2 hg ha hb hd hr]
  case fma =>
    intro f s s1 s2 x y old r hg hold ha hb hd hr
    exact exec_fma_eq hg hold ha hb hd hr
  case fcmp =>
    intro f s s1 s2 x y hg ha hb
    exact ⟨_, _, _, rfl, rfl, rfl, exec_fcmp_eq hg ha hb rfl rfl rfl⟩
  case fcvt =>
    intro f s s1 s2 x y hg ha hb hd
    exact ⟨_, rfl, exec_fcvt_eq hg ha hb hd rfl⟩

/-! ### Rounding modes (Table 10.3) -/

theorem ceilDiv_eq (m : Nat) {p : Nat} (hp : 0 < p) : (m + p - 1) / p = if m % p = 0 then m / p else m / p + 1 := by
  have hm := Nat.div_add_mod m p
  have hr := Nat.mod_lt m hp
  generalize m / p = q, m % p = r at hm hr ⊢
  subst hm
  split
  · next h0 => rw [Nat.add_sub_assoc hp, h0, Nat.add_zero, Nat.mul_add_div hp, Nat.div_eq_of_lt (by omega), Nat.add_zero]
  · next h0 =>
    have hsum : p * q + r + p - 1 = p * (q + 1) + (r - 1) := by rw [Nat.mul_add_one]; omega
    rw [hsum, Nat.mul_add_div hp, Nat.div_eq_of_lt (by omega), Nat.add_zero]

/-- Rounding to the nearest integer goes up beyond a half, and at a half from an odd quotient. -/
theorem roundShift_nearest (negative : Bool) (m k : Nat) :
    roundShift 0 negative m k =
      if 2 ^ k < 2 * (m % 2 ^ k) ∨ 2 * (m % 2 ^ k) = 2 ^ k ∧ m / 2 ^ k % 2 = 1 then m / 2 ^ k + 1 else m / 2 ^ k := by
  simp [roundShift]

theorem roundShift_directed (negative : Bool) (m k : Nat) :
    roundShift 2 negative m k = (if negative ∧ m % 2 ^ k ≠ 0 then m / 2 ^ k + 1 else m / 2 ^ k) ∧
    roundShift 3 negative m k = (if ¬ negative ∧ m % 2 ^ k ≠ 0 then m / 2 ^ k + 1 else m / 2 ^ k) := by
  simp [roundShift]

theorem roundingModesAreRight : RoundingModesAreRight := by
  intro negative m k
  have hp : 0 < 2 ^ k := Nat.two_pow_pos k
  have hm := Nat.div_add_mod m (2 ^ k)
  have hr := Nat.mod_lt m hp
  refine ⟨?nearest, rfl, ?down, ?up⟩
  case nearest =>
    rw [roundShift_nearest]
    generalize m / 2 ^ k = q, m % 2 ^ k = r at hm hr ⊢
    generalize 2 ^ k = p at hp hm hr ⊢
    subst hm
    split <;> simp only [Nat.add_mul, one_mul, Nat.mul_comm q] <;> omega
  case down =>
    rw [(roundShift_directed negative m k).1, ceilDiv_eq m hp]
    cases negative <;> simp
  case up =>
    rw [(roundShift_directed negative m k).2, ceilDiv_eq m hp]
    cases negative <;> simp

/-- Settles O30: each float form writes its operation's result and flags once its sources are read (`fForm_eq` and its kin); the rounding modes are facts about a quotient and its remainder. -/
theorem floatResultsAndRounding : Obligations.FloatResultsAndRounding := ⟨floatResults, roundingModesAreRight⟩

end Sys2Proof.Slice0

namespace Sys2Proof.Slice0
open Sys2Proof.Machine

/-! ### Special functions and their pending write-backs (R162, R282, R283) -/

/-- The pending write-back that a special function leaves, by its destination. -/
theorem pend_eq (s : State) (latency : Nat) (d : BitVec 8) (r : FRes) :
    pend s latency d r = onMe s fun st => { st with wbs := st.wbs ++
      [if 96 ≤ d.toNat ∧ d.toNat < 128 then ⟨stagedSlot st d.toNat, true, word r.bits, r.flags, latency⟩
       else ⟨d.toNat, false, word r.bits, r.flags, latency⟩] } := by
  have hstaged : (decide (96 ≤ d.toNat) && decide (d.toNat < 128)) = decide (96 ≤ d.toNat ∧ d.toNat < 128) :=
    (Bool.decide_and _ _).symm
  by_cases hd : 96 ≤ d.toNat ∧ d.toNat < 128
  · simp only [pend, hstaged]
    simp only [decide_eq_true hd, if_pos hd, if_true]
  · simp only [pend, hstaged]
    simp only [decide_eq_false hd, if_neg hd, Bool.false_eq_true, if_false]

theorem sfuForm2_eq {f : GFields} {s s1 s2 : State} {x y : Word} (latency : Nat) (op : Fmt → Nat → Nat → Nat → FRes)
    (hg : guardHolds s = true) (ha : readReg s f.a = .ok (x, s1)) (hb : readReg s1 f.b = .ok (y, s2))
    (hd : settled (me s2) f.dst = .ok ()) :
    sfuForm2 f s latency op = .next (finish (pend (emptySources s2 f.lu f.a (.reg f.b)) latency f.dst
      (op (opFmt f) (me s2).rmode.toNat (lowBits (opFmt f) x) (lowBits (opFmt f) y))) 8 none) := by
  refine twoForm_of_readTwo hg (readTwo_reg ha hb) ?_ (emptySources_ctxs s2 f.lu f.a (.reg f.b))
  rw [settled_me_emptySources, hd, roundingMode_emptySources]
  rfl

theorem landDue_of_none_due {st : Stream} (h : ∀ w ∈ st.wbs, w.remaining ≠ 0) : landDue st = st := by
  have hdue : st.wbs.filter (·.remaining == 0) = [] := List.filter_eq_nil_iff.2 fun w hw => by simpa using h w hw
  have hleft : st.wbs.filter (·.remaining != 0) = st.wbs := List.filter_eq_self.2 fun w hw => by simpa using h w hw
  rw [landDue, hdue, hleft]
  rfl

/-- Landing a write-back touches no other one and adds its flags. -/
theorem landOne_rest (st : Stream) (w : WriteBack) :
    (landOne st w).wbs = st.wbs ∧ (landOne st w).fflags = st.fflags ||| w.flags := by
  simp only [landOne]
  split
  · exact ⟨rfl, rfl⟩
  · next =>
    obtain ⟨g, q, ql, c, hput⟩ := putReg_rest { st with
      fflags := st.fflags ||| w.flags
      loads := st.loads.map fun l => if l.reg == w.reg && l.slot == w.slot then { l with value := w.value } else l }
      (BitVec.ofNat 8 w.reg) w.value
    rw [hput]
    exact ⟨rfl, rfl⟩

theorem foldl_landOne (ws : List WriteBack) (st : Stream) :
    (ws.foldl landOne st).wbs = st.wbs ∧
      (ws.foldl landOne st).fflags = ws.foldl (fun fl w => fl ||| w.flags) st.fflags := by
  induction ws generalizing st with
  | nil => exact ⟨rfl, rfl⟩
  | cons w ws ih =>
    obtain ⟨hwbs, hflags⟩ := landOne_rest st w
    rw [List.foldl_cons, List.foldl_cons, (ih _).1, (ih _).2, hwbs, hflags]
    exact ⟨rfl, rfl⟩

theorem landDue_wbs (st : Stream) : (landDue st).wbs = st.wbs.filter (·.remaining != 0) := (foldl_landOne _ _).1

theorem landDue_fflags (st : Stream) :
    (landDue st).fflags = (st.wbs.filter (·.remaining == 0)).foldl (fun fl w => fl ||| w.flags) st.fflags :=
  (foldl_landOne _ _).2

/-- The registers of a stream with the one due write-back `w` landed are those of `putReg`, or of its slot written. -/
theorem landDue_registers {st : Stream} {w : WriteBack} (h : st.wbs.filter (·.remaining == 0) = [w]) :
    ∃ u : Stream, u.g = st.g ∧ u.q = st.q ∧ u.qlive = st.qlive ∧ u.lpass = st.lpass ∧ landDue st =
      if w.slot then { u with g := put u.g (96 + w.reg) w.value } else putReg u (BitVec.ofNat 8 w.reg) w.value :=
  ⟨{ st with
      wbs := st.wbs.filter (·.remaining != 0)
      fflags := st.fflags ||| w.flags
      loads := st.loads.map fun l => if l.reg == w.reg && l.slot == w.slot then { l with value := w.value } else l },
    rfl, rfl, rfl, rfl, by rw [landDue, h]; rfl⟩

theorem gValue_congr {st u : Stream} (hg : u.g = st.g) (hp : u.lpass = st.lpass) (n : Nat) :
    gValue u n = gValue st n := by
  simp only [gValue, gKey, stagedSlot, hg, hp]

/-- A write-back of an unstaged g register. -/
theorem gValue_landDue {st : Stream} {w : WriteBack} (h : st.wbs.filter (·.remaining == 0) = [w])
    (hs : w.slot = false) (h0 : 0 < w.reg) (hr : w.reg < 96) {n : Nat} (hn : n < 128) :
    gValue (landDue st) n = if n = w.reg then w.value else gValue st n := by
  obtain ⟨u, hg, -, -, hp, hland⟩ := landDue_registers h
  rw [hland, hs, if_neg Bool.false_ne_true, ← gValue_congr hg hp]
  split
  · next he => rw [he, gValue_putReg_same u h0 (by omega)]
  · next hne => exact gValue_putReg_ne u hn (by omega) hne _

/-- A write-back of a staged g register reaches the register that names its slot. -/
theorem gValue_landDue_slot {st : Stream} {w : WriteBack} (h : st.wbs.filter (·.remaining == 0) = [w])
    (hs : w.slot = true) (n : Nat) :
    gValue (landDue st) n = if 96 ≤ n ∧ stagedSlot st n = w.reg then w.value else gValue st n := by
  obtain ⟨u, hg, -, -, hp, hland⟩ := landDue_registers h
  have hslot : stagedSlot { u with g := put u.g (96 + w.reg) w.value } n = stagedSlot st n := by
    simp only [stagedSlot, hp]
  rw [hland, hs, if_pos rfl, gValue, gKey, hslot, hg, gValue, gKey]
  by_cases hn : 96 ≤ n
  · have h0 : n ≠ 0 := by omega
    have hn' : ¬ n < 96 := by omega
    simp only [beq_iff_eq, h0, hn, hn', if_false, true_and]
    split
    · next he => rw [he, look_put_self]
    · next hne => exact look_put_ne _ _ _ (by omega)
  · have hn' : n < 96 := by omega
    simp only [hn, hn', false_and, if_false, if_true]
    rw [look_put_ne _ _ _ (by omega)]

theorem flag_set_self (v : BitVec 16) {n : Nat} (h : n < 16) : flag (v ||| BitVec.ofNat 16 (2 ^ n)).toNat n = true := by
  rw [flag_eq_getLsbD, BitVec.getLsbD_or, BitVec.getLsbD_ofNat, Nat.testBit_two_pow]
  simp [h]

/-- A q register written holds the value and is live. -/
theorem putReg_q (st : Stream) {d : BitVec 8} {n : Nat} (hn : n < 16) (hd : d.toNat = 0x80 + n) (v : Word) :
    qValue (putReg st d v) n = v ∧ qLive (putReg st d v) n = true := by
  have hput : putReg st d v = { st with q := put st.q n v, qlive := st.qlive ||| BitVec.ofNat 16 (2 ^ n) } := by
    have h0 : 0x80 + n ≠ 0 := by omega
    have hg : ¬ 0x80 + n < 0x80 := by omega
    have hq : 0x80 + n < 0x90 := by omega
    simp only [putReg, hd, beq_iff_eq, h0, hg, hq, if_false, if_true, Nat.add_sub_cancel_left]
  rw [hput]
  exact ⟨look_put_self _ _ _ _, flag_set_self _ hn⟩

theorem q_landDue {st : Stream} {w : WriteBack} (h : st.wbs.filter (·.remaining == 0) = [w]) (hs : w.slot = false)
    (hlo : 0x80 ≤ w.reg) (hhi : w.reg < 0x90) {n : Nat} (hn : n < 16) :
    qValue (landDue st) n = (if n = w.reg - 0x80 then w.value else qValue st n) ∧
      qLive (landDue st) n = (decide (n = w.reg - 0x80) || qLive st n) := by
  obtain ⟨u, -, hq, hl, -, hland⟩ := landDue_registers h
  have hreg : (BitVec.ofNat 8 w.reg).toNat = w.reg := by rw [BitVec.toNat_ofNat, Nat.mod_eq_of_lt (by omega)]
  rw [hland, hs, if_neg Bool.false_ne_true, show qValue st n = qValue u n by rw [qValue, qValue, hq],
    show qLive st n = qLive u n by rw [qLive, qLive, hl]]
  by_cases hw : n = w.reg - 0x80
  · obtain ⟨hvalue, hlive⟩ := putReg_q u hn (d := BitVec.ofNat 8 w.reg) (by omega) w.value
    rw [hvalue, hlive, if_pos hw, decide_eq_true hw, Bool.true_or]
    exact ⟨rfl, rfl⟩
  · have hne : (BitVec.ofNat 8 w.reg).toNat ≠ 0x80 + n := by omega
    rw [qValue_putReg_other hne, qLive_putReg_other hne, if_neg hw, decide_eq_false hw, Bool.false_or]
    exact ⟨rfl, rfl⟩

/-- Settles O23: the six members are `sfuForm2`, which leaves one pending write-back (`sfuForm2_eq`); what lands is a fold of `landOne`, whose one write is that of its register (`landDue_registers`). -/
theorem specialFunctionsWriteBackLate : Obligations.SpecialFunctionsWriteBackLate := by
  unfold Obligations.SpecialFunctionsWriteBackLate
  refine ⟨?issue, ?count, fun st => landDue_of_none_due, fun st => ⟨landDue_wbs st, landDue_fflags st⟩, ?land, ?start⟩
  case issue =>
    intro p hp f s s1 s2 x y hg ha hb hd
    have hexec : exec (p.1 f) s = sfuForm2 f s p.2.1 p.2.2 := by
      simp only [List.mem_cons, List.not_mem_nil, or_false] at hp
      rcases hp with rfl | rfl | rfl | rfl | rfl | rfl <;> rfl
    refine ⟨_, rfl, ?_⟩
    rw [hexec, sfuForm2_eq _ _ hg ha hb hd, pend_eq]
  case count =>
    intro s n target
    rw [me_finish]
    rfl
  case land =>
    intro st w h
    exact ⟨fun hs h0 hr n hn => gValue_landDue h hs h0 hr hn, fun hs _ n _ => gValue_landDue_slot h hs n,
      fun hs hlo hhi n hn => q_landDue h hs hlo hhi hn⟩
  case start =>
    intro s core stream w hw
    rw [begin, me_onMe, landDue_wbs, List.mem_filter] at hw
    simpa using hw.2

end Sys2Proof.Slice0

namespace Sys2Proof.Slice0
open Sys2Proof.Machine

/-! ### Special and control registers (R258, R293, R294) -/

/-- A write of a special register reaches no context, so an MTS posts no item record. -/
theorem writeSpecial_ctxs (s : State) (n : Nat) (v : Word) : (writeSpecial s n v).ctxs = s.ctxs := by
  unfold writeSpecial
  split <;> rfl

/-- A value accepted for a control register has no bit outside the register's mask. -/
theorem le_controlMask_of_controlValueOk {n v : Nat} (h : controlValueOk n v = true) : v ≤ controlMask n := by
  simp only [controlValueOk, Bool.and_eq_true, beq_iff_eq] at h
  exact h.1 ▸ Nat.and_le_right

theorem readControl_writeControl (s : State) {n v : Nat} (hn : n < 0x10 ∨ n = 0x10 ∨ (0x40 ≤ n ∧ n < 0xA0))
    (hv : controlValueOk n v = true) : readControl (writeControl s n v) n = v := by
  have hle := le_controlMask_of_controlValueOk hv
  have hcore : myCore (writeControl s n v) = coreOf (writeControl s n v) s.curCore := rfl
  rw [readControl, hcore, writeControl, coreOf_onCore_self]
  rcases hn with hn | rfl | ⟨hlo, hhi⟩
  · have hmask : v < 2 ^ 32 := by simp only [controlMask, if_pos hn] at hle; omega
    simp only [if_pos hn, tileShape, look_put_self, BitVec.toNat_ofNat]
    exact Nat.mod_eq_of_lt hmask
  · have hmask : v < 2 ^ 13 := by simp [controlMask] at hle; omega
    simpa using hmask
  · have h16 : ¬ n < 0x10 := by omega
    have h10 : (n == 0x10) = false := by simp; omega
    have h11 : (n == 0x11) = false := by simp; omega
    have h12 : (n == 0x12) = false := by simp; omega
    have h40 : ¬ n < 0x40 := by omega
    simp only [controlMask, h16, h10, h11, h40, hhi, if_false, if_true, Bool.false_eq_true] at hle
    simp only [h16, h10, h11, h12, h40, hhi, if_false, if_true, Bool.false_eq_true]
    split
    · next h80 =>
      simp only [h80, if_true] at hle ⊢
      simp only [look_put_self, BitVec.toNat_ofNat]
      exact Nat.mod_eq_of_lt (by omega)
    · next h80 =>
      simp only [h80, if_false] at hle ⊢
      simp only [look_put_self, BitVec.toNat_ofNat]
      exact Nat.mod_eq_of_lt (by omega)

/-- Settles O24: each member is its guarded read or write; what was written reads back under the register's mask. -/
theorem specialAndControlRegistersMove : Obligations.SpecialAndControlRegistersMove := by
  unfold Obligations.SpecialAndControlRegistersMove
  refine ⟨?reads, ?writes, ?words, ?fields, fun s n v hn hv => readControl_writeControl s hn hv⟩
  case reads =>
    intro f s hg hd
    exact ⟨guarded_writeReg hg hd _ 8, guarded_writeReg hg hd _ 8⟩
  case writes =>
    intro f s s1 v hg ha
    have hmtc : exec (.mtc f) s = concludeNext s 8
        (if controlValueOk f.n12.toNat v.toNat then .ok (writeControl s1 f.n12.toNat v.toNat) else stopWith 0x03) := by
      rw [show exec (.mtc f) s = execMtc f s from rfl, execMtc, guarded_of_holds hg, ha]
      rfl
    have hctxs : s1.ctxs = s.ctxs := readReg_ctxs ha
    refine ⟨?mts, fun hok => ?accepted, fun hok => ?refused⟩
    case mts =>
      rw [show exec (.mts f) s = execMts f s from rfl, execMts, guarded_of_holds hg, ha]
      exact concludeNext_of_ctxs ((writeSpecial_ctxs _ _ _).trans hctxs) 8
    case accepted =>
      rw [hmtc, if_pos hok]
      exact concludeNext_of_ctxs (t := writeControl s1 f.n12.toNat v.toNat) hctxs 8
    case refused =>
      rw [hmtc, hok]
      rfl
  case words =>
    intro s n v hn
    simp only [List.mem_cons, List.not_mem_nil, or_false] at hn
    rcases hn with rfl | rfl <;> simp [readSpecial, writeSpecial]
  case fields =>
    intro s v
    simp [readSpecial, writeSpecial]

end Sys2Proof.Slice0

namespace Sys2Proof.Slice0
open Sys2Proof.Machine

/-! ### What writes of memory and the trace can change (R88, R168, R172, R393)

A write may reach a port window or a declared signal's bytes; a trace entry is buffered on its core and then written. A
relation that allows those parts to change holds across every write and every trace entry. -/

/-- A relation of states that lets memory, the module, its ports and interrupts, and the contents of signals change. -/
structure StoreFrame (R : State → State → Prop) : Prop where
  refl : ∀ s, R s s
  trans : ∀ {s t u}, R s t → R t u → R s u
  device : ∀ (s : State) m p d o i x,
    R s { s with mem := m, poison := p, module := d, ports := o, irqs := i, msixPending := x }
  taint : ∀ s core ctx o n, R s (onCore s core fun k => taint k ctx o n)

namespace StoreFrame

variable {R : State → State → Prop} (hR : StoreFrame R)
include hR

theorem onPort (s : State) (p : Nat) (f : Port → Port) : R s (onPort s p f) :=
  hR.device s s.mem s.poison s.module (put s.ports p (f (portOf s p))) s.irqs s.msixPending

theorem onModule (s : State) (f : Module → Module) : R s (onModule s f) :=
  hR.device s s.mem s.poison (f s.module) s.ports s.irqs s.msixPending

theorem ite_left {s t : State} {p : Prop} [Decidable p] (h : R s t) : R s (if p then t else s) := by
  split
  · exact h
  · exact hR.refl s

theorem ite_right {s t : State} {p : Prop} [Decidable p] (h : R s t) : R s (if p then s else t) := by
  split
  · exact hR.refl s
  · exact h

theorem foldl {α : Type} {f : State → α → State} (hf : ∀ s a, R s (f s a)) (xs : List α) (s : State) :
    R s (xs.foldl f s) := by
  induction xs generalizing s with
  | nil => exact hR.refl s
  | cons x xs ih => exact hR.trans (hf s x) (ih (f s x))

theorem setReplace (s : State) : R s (setReplace s) := by
  obtain ⟨r, n, l, k, i, p, h⟩ := setReplace_eq s
  rw [h]
  exact hR.device s s.mem s.poison _ s.ports i p

theorem writePark (s : State) (i v : Nat) : R s (writePark s i v) := by
  have hlog : ∀ s n, R s (logEvent s 0x0007 (8 * i + n)) := fun s n => hR.onModule s _
  have epoch : ∀ s, R s (newEpoch s) := fun s => hR.onModule s _
  exact hR.trans (hR.trans (hR.trans (hR.trans (hR.trans (hR.onPort s i _) (hR.foldl hlog _ _)) (hR.ite_right (epoch _)))
    (hR.ite_left (hR.setReplace _))) (hR.onPort _ i _)) (hR.onPort _ i _)

theorem portWrite (s : State) (i off v : Nat) : R s (portWrite s i off v) := by
  have restriped : ∀ f, R s (restripePort (Machine.onPort s i f) i) := fun f =>
    hR.trans (hR.onPort s i f) (hR.onPort _ i _)
  unfold Machine.portWrite
  split_ifs
  · exact hR.refl s
  · exact restriped _
  · exact hR.onPort s i _
  · split
    · exact restriped _
    · exact restriped _
    · exact hR.writePark s i v
    · exact hR.onPort s i _
    · exact hR.trans (hR.onPort s i _) (hR.onPort _ i _)
    · exact hR.onPort s i _
    · exact hR.refl s

theorem windowWrite (s : State) (off : Nat) (bs : List Byte) : R s (windowWrite s off bs) := by
  unfold Machine.windowWrite
  exact hR.ite_left (hR.portWrite s _ _ _)

theorem writeAt (s : State) (l : Loc) (bs : List Byte) : R s (writeAt s l bs) := by
  unfold Machine.writeAt
  exact hR.ite_right (hR.device s _ _ s.module s.ports s.irqs s.msixPending)

theorem taintStore (s : State) (c o n : Nat) : R s (taintStore s c o n) := by
  unfold Machine.taintStore
  split
  · exact hR.ite_right (hR.taint s c _ _ _)
  · exact hR.refl s

theorem storeAt (s : State) (l : Loc) (bs : List Byte) : R s (storeAt s l bs) := by
  cases l with
  | bar0 o => exact hR.windowWrite s _ bs
  | store c o => exact hR.trans (hR.taintStore s c o _) (hR.writeAt _ _ bs)
  | hbm | peer | host | refused => exact hR.writeAt s _ bs

theorem storePieces (s : State) (ps : List (Loc × Nat)) (bs : List Byte) : R s (storePieces s ps bs) := by
  induction ps generalizing s bs with
  | nil => exact hR.refl s
  | cons p ps ih =>
    obtain ⟨l, n⟩ := p
    have piece : R s (storePiece s l (bs.take n)) := by
      unfold storePiece
      split
      · exact hR.refl s
      · exact hR.storeAt s l _
    exact hR.trans piece (ih _ _)

theorem writePieces (s : State) (ps : List (Loc × Nat)) (bs : List Byte) : R s (writePieces s ps bs) := by
  unfold Machine.writePieces
  split
  · exact hR.storeAt s _ _
  · exact hR.storePieces s _ bs

theorem of_writeSpace {s t : State} {ctx a : Nat} {virtual : Bool} {bs : List Byte}
    (h : writeSpace s ctx virtual a bs = some t) : R s t := by
  unfold writeSpace at h
  split at h
  · rw [← Option.some.inj h]
    exact hR.writePieces s _ bs
  · cases h

theorem of_writeVirtual {s t : State} {ctx va : Nat} {bs : List Byte} (h : writeVirtual s ctx va bs = some t) : R s t :=
  hR.of_writeSpace h

end StoreFrame

/-- A core but for its trace. -/
def unbuffered (k : Core) : Core := { k with traceBuffer := [], lastTrace := 0, traceLost := [] }
/-- A context but for the place in its trace buffer. -/
def untracedCtx (c : Ctx) : Ctx := { c with dtpos := 0, dtfull := false }

/-- One that lets the trace change besides. -/
structure TraceFrame (R : State → State → Prop) : Prop extends StoreFrame R where
  buffer : ∀ s core f, (∀ k, unbuffered (f k) = unbuffered k) → R s (onCore s core f)
  place : ∀ s ctx f, (∀ c, untracedCtx (f c) = untracedCtx c) → R s (onCtx s ctx f)

namespace TraceFrame

variable {R : State → State → Prop} (hR : TraceFrame R)
include hR

theorem of_traceWrite {s t : State} {ctx : Nat} {bs : List Byte} (h : traceWrite s ctx bs = some t) : R s t := by
  simp only [traceWrite] at h
  split at h
  · cases h
  · split at h
    · cases h
    · next hw =>
      rw [← Option.some.inj h]
      exact hR.trans (hR.of_writeVirtual hw) (hR.place _ _ _ fun _ => rfl)

theorem traceFlush (core : Nat) (s : State) (kept es : List (Nat × List Byte)) : R s (traceFlush core s kept es) := by
  induction es generalizing s kept with
  | nil => exact hR.buffer s core _ fun _ => rfl
  | cons e es ih =>
    unfold Machine.traceFlush
    split
    · exact ih s _
    · next hw =>
      split at hw
      · cases hw
      · exact hR.trans (hR.of_traceWrite hw) (ih _ _)

theorem traceEnter (s : State) (core ctx kind src payload : Nat) : R s (traceEnter s core ctx kind src payload) :=
  hR.buffer s core _ fun _ => rfl

theorem traceOwed (core : Nat) (s : State) (l : Nat × Nat) : R s (traceOwed core s l) := by
  unfold Machine.traceOwed
  exact hR.ite_left (hR.trans (hR.traceEnter s core _ _ _ _) (hR.buffer _ core _ fun _ => rfl))

theorem flushCore (s : State) (core : Nat) : R s (flushCore s core) := by
  simp only [Machine.flushCore]
  exact hR.ite_right (hR.trans (hR.trans (hR.traceFlush core s _ _) (hR.foldl (hR.traceOwed core) _ _))
    (hR.traceFlush core _ _ _))

theorem trace (s : State) (core kind src payload : Nat) : R s (trace s core kind src payload) := by
  simp only [Machine.trace]
  split
  · exact hR.refl s
  · refine hR.ite_right (hR.trans (hR.flushCore s core) ?_)
    split
    · exact hR.trans (hR.traceEnter _ core _ _ _ _) (hR.flushCore _ core)
    · refine hR.trans (hR.buffer _ core _ ?_) (hR.place _ _ _ ?_)
      · exact fun _ => rfl
      · exact fun _ => rfl

end TraceFrame

end Sys2Proof.Slice0

namespace Sys2Proof.Slice0
open Sys2Proof.Machine

/-! ### What posts no item record (R166)

Writes of memory, the trace and the claiming of regions change contexts in other fields only. -/

/-- Two states in which every context has the same records waiting. -/
def SameItems (s t : State) : Prop :=
  ∀ c, (ctxOf t c).itwait = (ctxOf s c).itwait ∧ (ctxOf t c).itheld = (ctxOf s c).itheld

/-- Without a new record, no instruction stalls before one. -/
theorem SameItems.not_over {s t : State} (h : SameItems s t) : itemsOver s t = false :=
  itemsOver_of_unposted fun c => by rw [unposted, unposted, (h c).1, (h c).2]

theorem SameItems.concludeNext {s t : State} (h : SameItems s t) (len : Nat) :
    concludeNext s len (.ok t) = .next (finish t len none) := by
  rw [concludeNext_ok, h.not_over]
  rfl

namespace SameItems

theorem refl (s : State) : SameItems s s := fun _ => ⟨rfl, rfl⟩

theorem trans {s t u : State} (h : SameItems s t) (h' : SameItems t u) : SameItems s u := fun c =>
  ⟨(h' c).1.trans (h c).1, (h' c).2.trans (h c).2⟩

theorem of_ctxs {s t : State} (h : t.ctxs = s.ctxs) : SameItems s t := fun c => by simp only [ctxOf, h, and_self]

theorem onCtx (s : State) (c : Nat) {f : Ctx → Ctx} (hw : ∀ x, (f x).itwait = x.itwait := by intro; rfl)
    (hh : ∀ x, (f x).itheld = x.itheld := by intro; rfl) : SameItems s (onCtx s c f) := fun d => by
  by_cases hd : d = c
  · rw [hd, ctxOf_onCtx_self]
    exact ⟨hw _, hh _⟩
  · rw [ctxOf_onCtx_ne s f hd]
    exact ⟨rfl, rfl⟩

theorem ite_left {s t : State} {p : Prop} [Decidable p] (h : SameItems s t) : SameItems s (if p then t else s) := by
  split
  · exact h
  · exact refl s

theorem ite_right {s t : State} {p : Prop} [Decidable p] (h : SameItems s t) : SameItems s (if p then s else t) := by
  split
  · exact refl s
  · exact h

theorem foldl {α : Type} {f : State → α → State} (hf : ∀ s a, SameItems s (f s a)) (xs : List α) (s : State) :
    SameItems s (xs.foldl f s) := by
  induction xs generalizing s with
  | nil => exact refl s
  | cons x xs ih => exact (hf s x).trans (ih (f s x))

end SameItems

/-! Writes of memory change no context. -/

theorem storeFrame_ctxs : StoreFrame fun s t => t.ctxs = s.ctxs where
  refl _ := rfl
  trans h h' := h'.trans h
  device _ _ _ _ _ _ _ := rfl
  taint _ _ _ _ _ := rfl

theorem writeAt_ctxs (s : State) (l : Loc) (bs : List Byte) : (writeAt s l bs).ctxs = s.ctxs :=
  storeFrame_ctxs.writeAt s l bs

@[simp] theorem writePieces_ctxs (s : State) (ps : List (Loc × Nat)) (bs : List Byte) :
    (writePieces s ps bs).ctxs = s.ctxs := storeFrame_ctxs.writePieces s ps bs

theorem writeVirtual_ctxs {s t : State} {ctx va : Nat} {bs : List Byte} (h : writeVirtual s ctx va bs = some t) :
    t.ctxs = s.ctxs := storeFrame_ctxs.of_writeVirtual h

theorem SameItems.traceFrame : TraceFrame SameItems where
  refl := .refl
  trans := .trans
  device _ _ _ _ _ _ _ := .of_ctxs rfl
  taint _ _ _ _ _ := .of_ctxs rfl
  buffer _ _ _ _ := .of_ctxs rfl
  place s c _ hf := SameItems.onCtx s c (fun x => (congrArg Ctx.itwait (hf x) :)) fun x => (congrArg Ctx.itheld (hf x) :)

/-- A trace entry posts no item record (R168). -/
theorem SameItems.trace (s : State) (core kind src payload : Nat) : SameItems s (trace s core kind src payload) :=
  SameItems.traceFrame.trace s core kind src payload

/-! ### The places of an access (R105, R135, R298) -/

/-- What relates every state to one in which a region has been claimed, evicted, restored or mapped (R105). -/
structure ClaimFrame (R : State → State → Prop) : Prop where
  refl : ∀ s, R s s
  trans : ∀ {s t u}, R s t → R t u → R s u
  slots : ∀ s ctx record core f, R s (onSlots s ctx record core f)
  relocate : ∀ s a b n, R s (relocate s a b n)
  clear : ∀ s key n, R s { s with
    mem := clearRange s.mem key n
    poison := s.poison.filter fun g => !(key ≤ 64 * g && 64 * g < key + n) }
  regions : ∀ s core (f : Core → List Region), R s (onCore s core fun k => { k with regions := f k })
  trace : ∀ s core kind src payload, R s (trace s core kind src payload)

namespace ClaimFrame

variable {R : State → State → Prop} (hR : ClaimFrame R)
include hR

theorem evictRegion (s : State) (core : Nat) (g : Region) : R s (evictRegion s core g) := by
  unfold Machine.evictRegion
  split
  · exact hR.trans (hR.relocate _ _ _ _) (hR.trans (hR.slots _ _ _ _ _) (hR.regions _ _ _))
  · exact hR.regions _ _ _

theorem mapRegion (s : State) (core p index ctx record : Nat) : R s (mapRegion s core p index ctx record) := by
  unfold Machine.mapRegion
  exact hR.trans (hR.clear s _ _) (hR.regions _ _ _)

theorem of_touchRegion {s t : State} {core index : Nat} (h : touchRegion s core index = some t) : R s t := by
  simp only [touchRegion] at h
  split at h
  · cases h
  · next l _ =>
    split at h
    · cases h
      exact hR.refl s
    · obtain ⟨⟨p, taken⟩, -, rfl⟩ := Option.map_eq_some_iff.1 h
      have claimed : ∀ taken : Option Region, R s (match taken with
          | some g => Machine.evictRegion s core g
          | none => s) := by
        intro taken
        cases taken
        · exact hR.refl s
        · exact hR.evictRegion s core _
      have traced : ∀ (b : Bool) (t : State), R t (if b then t else Machine.trace t core 3 t.curStream (256 + 6 * 2 ^ 32)) := by
        intro b t
        cases b
        · exact hR.trace _ _ _ _ _
        · exact hR.refl t
      have restored : ∀ (saved : Option Nat) (t : State), R t (match saved with
          | some a => onSlots (Machine.relocate t a (regionKey core p) (2 ^ 20)) l.ctx l.index core fun l =>
              { l with regions := l.regions.filter (· != index) }
          | none => t) := by
        intro saved t
        cases saved
        · exact hR.refl t
        · exact hR.trans (hR.relocate _ _ _ _) (hR.slots _ _ _ _ _)
      have moved : ∀ (b : Bool) (t : State), R t (if b then setMoving t core index l.ctx l.index true else t) := by
        intro b t
        cases b
        · exact hR.refl t
        · rw [if_pos rfl, setMoving]
          exact hR.regions _ _ _
      dsimp only
      refine hR.trans ?_ (moved _ _)
      refine hR.trans ?_ (restored _ _)
      refine hR.trans ?_ (traced _ _)
      exact hR.trans (claimed taken) (hR.mapRegion _ _ _ _ _ _)

theorem of_csPiece {s t : State} {core o : Nat} {l : Loc} (h : csPiece s core o = .ok (l, t)) : R s t := by
  simp only [csPiece, stopWith] at h
  split at h
  · cases h
  · split at h
    · split at h
      · cases h
      · cases h
        exact hR.refl s
    · split at h
      · cases h
      · next htouch =>
        split at h
        · cases h
        · split at h
          · cases h
          · cases h
            exact hR.of_touchRegion htouch

theorem of_csPieces {s t : State} {core : Nat} {cuts : List (Nat × Nat)} {ps : List (Loc × Nat)}
    (h : csPieces s core cuts = .ok (ps, t)) : R s t := by
  induction cuts generalizing s ps with
  | nil =>
    cases h
    exact hR.refl _
  | cons cut rest ih =>
    obtain ⟨o, n⟩ := cut
    cases hp : csPiece s core o with
    | error e => simp [csPieces, hp, bind, Except.bind] at h
    | ok p =>
      cases hps : csPieces p.2 core rest with
      | error e => simp [csPieces, hp, hps, bind, Except.bind] at h
      | ok q =>
        simp only [csPieces, hp, hps, bind, Except.bind] at h
        cases h
        exact hR.trans (hR.of_csPiece hp) (ih hps)

theorem of_csSpan {s t : State} {core o n : Nat} {info : Word} {ps : List (Loc × Nat)}
    (h : csSpan s core o n info = .ok (ps, t)) : R s t := by
  unfold csSpan at h
  split at h
  · cases h
  · exact hR.of_csPieces h

end ClaimFrame

/-- Translating an address changes nothing. -/
theorem translate_state (s : State) (core : Option Nat) (ctx kind va : Nat) : (translate s core ctx kind va).2 = s := by
  unfold Machine.translate
  split
  · split <;> rfl
  · split
    · split <;> rfl
    · split <;> rfl

theorem spanBy_state {f : State → Nat → Look × State} (hf : ∀ s va, (f s va).2 = s) (s : State) (ps : List (Nat × Nat)) :
    (spanBy f s ps).2 = s := by
  induction ps generalizing s with
  | nil => rfl
  | cons p rest ih =>
    obtain ⟨va, n⟩ := p
    have hva := hf s va
    unfold spanBy
    split
    · next l t hl =>
      rw [hl] at hva
      subst hva
      split
      · next hr => rw [← ih t, hr]
      · exact ih t
    · next hl => rw [← hva, hl]

theorem span_state (s : State) (core : Option Nat) (ctx kind va n : Nat) : (span s core ctx kind va n).2 = s :=
  spanBy_state (fun _ _ => translate_state _ _ _ _ _) s _

theorem spanAct_state {r : Span × State} {kind : Nat} {ps : List (Loc × Nat)} {t : State}
    (h : spanAct r kind = .ok (ps, t)) : r = (.ok ps, t) := by
  unfold spanAct at h
  split at h <;> cases h
  rfl

/-- The places of an access: translated in device virtual memory, which changes nothing, or in core store. -/
theorem places_cases {s t : State} {kind n : Nat} {ea : Word} {ps : List (Loc × Nat)}
    (h : places s kind ea n = .ok (ps, t)) :
    (eaSpace ea = 0 ∧ t = s ∧ (span s (some s.curCore) (myCtx s) kind ea.toNat n).1 = .ok ps) ∨
      (eaSpace ea = 0x80 ∧ csSpan s s.curCore (field ea.toNat 0 27) n ea = .ok (ps, t)) := by
  simp only [places, invalid] at h
  split at h
  · next h0 =>
    split at h
    · cases h
    · have hspan := spanAct_state h
      have hstate := span_state s (some s.curCore) (myCtx s) kind ea.toNat n
      rw [hspan] at hstate
      exact .inl ⟨by simpa using h0, hstate, congrArg Prod.fst hspan⟩
  · split at h
    · next h80 =>
      rw [Bool.and_eq_true, beq_iff_eq] at h80
      exact .inr ⟨h80.1, h⟩
    · cases h

theorem ClaimFrame.of_places {R : State → State → Prop} (hR : ClaimFrame R) {s t : State} {kind n : Nat} {ea : Word}
    {ps : List (Loc × Nat)} (h : places s kind ea n = .ok (ps, t)) : R s t := by
  obtain ⟨-, rfl, -⟩ | ⟨-, hcs⟩ := places_cases h
  · exact hR.refl _
  · exact hR.of_csSpan hcs

theorem sameItems_claimFrame : ClaimFrame SameItems where
  refl := .refl
  trans := .trans
  slots _ ctx _ _ _ := .onCtx _ ctx
  relocate _ _ _ _ := .of_ctxs rfl
  clear _ _ _ := .of_ctxs rfl
  regions _ _ _ := .of_ctxs rfl
  trace := .trace

theorem sameStreams_claimFrame : ClaimFrame SameStreams where
  refl := .refl
  trans := .trans
  slots _ ctx _ _ _ := .onCtx _ ctx _
  relocate _ _ _ _ := .of_cores rfl rfl rfl
  clear _ _ _ := .of_cores rfl rfl rfl
  regions _ core _ := .onCore _ core
  trace := .trace

end Sys2Proof.Slice0

namespace Sys2Proof.Slice0
open Sys2Proof.Machine

/-- A change of the issuing stream that comes to the same for the stream as it stands. -/
theorem onMe_congr {s : State} {f g : Stream → Stream} (h : f (me s) = g (me s)) : onMe s f = onMe s g := by
  simp only [me] at h
  simp only [onMe, onCore]
  split
  · next hh => rw [hh] at h; simp only [h]
  · next hh => rw [hh] at h; simp only [h]

/-- A value written once the places of an access are known: no item record is posted on the way. -/
theorem concludeNext_written {s t : State} (h : SameItems s t) (d : BitVec 8) (v : Word) (len : Nat) :
    concludeNext s len (.ok (written t d v)) = .next (finish (written t d v) len none) :=
  (h.trans (.of_ctxs (t := written t d v) rfl)).concludeNext len

/-! ### Loads (R298-R300) -/

theorem address_eq {f : MFields} {s : State} {b : Word} (h : readGQ s f.base = .ok b) :
    address f s = .ok (b + f.off.signExtend 64) := by
  rw [address, h]
  rfl

theorem loadBytes_of_places {s t : State} {kind n : Nat} {ea : Word} {ps : List (Loc × Nat)}
    (hp : places s kind ea n = .ok (ps, t)) (hpoison : poisonPieces t ps = false) :
    loadBytes s kind ea n = .ok (readPieces t ps, t) := by
  simp only [loadBytes, hp, bind, Except.bind, hpoison]
  rfl

theorem loadNow_eq {f : MFields} {s t : State} {ea : Word} {ps : List (Loc × Nat)}
    (hp : places s 0 ea (2 ^ f.width.toNat) = .ok (ps, t)) (hpoison : poisonPieces t ps = false)
    (hd : settled (me t) f.reg = .ok ()) : loadNow f s ea =
      .ok (written t f.reg (extend (2 ^ f.width.toNat) f.sign (fromBytes (readPieces t ps)))) := by
  have hbytes : loadBytes s 0 ea (widthBytes f.width) = .ok (readPieces t ps, t) := loadBytes_of_places hp hpoison
  simp only [loadNow, hbytes, bind, Except.bind]
  exact writeReg_of_settled hd _

theorem any_isPeer_eq_false {ps : List (Loc × Nat)} (h : ∀ p ∈ ps, ∀ m pa, p.1 ≠ .peer m pa) :
    (ps.any fun p => isPeer p.1) = false := by
  rw [List.any_eq_false]
  intro p hp
  have hne := h p hp
  cases hl : p.1 <;> simp_all [isPeer]

theorem exec_ld_now {f : MFields} {s t : State} {b : Word} {ps : List (Loc × Nat)} (hg : guardHolds s = true)
    (hb : readGQ s f.base = .ok b)
    (hp : places s 0 (b + f.off.signExtend 64) (2 ^ f.width.toNat) = .ok (ps, t))
    (hpoison : poisonPieces t ps = false) (hd : settled (me t) f.reg = .ok ())
    (hnow : (∀ p ∈ ps, ∀ m pa, p.1 ≠ .peer m pa) ∨ inHandler s = true) :
    exec (.ld f) s = .next (finish
      (written t f.reg (extend (2 ^ f.width.toNat) f.sign (fromBytes (readPieces t ps)))) 8 none) := by
  have hlater : ((ps.any fun p => isPeer p.1) && !inHandler s) = false := by
    rcases hnow with hpeer | hh
    · rw [any_isPeer_eq_false hpeer, Bool.false_and]
    · rw [hh, Bool.not_true, Bool.and_false]
  rw [show exec (.ld f) s = execLd f s from rfl, execLd, guarded_of_holds hg, address_eq hb]
  simp only [bind, Except.bind, widthBytes, hp, hlater, Bool.false_eq_true, if_false]
  rw [loadNow_eq hp hpoison hd]
  exact concludeNext_written (sameItems_claimFrame.of_places hp) _ _ 8

theorem exec_lda_aligned {f : MFields} {s t : State} {b : Word} {ps : List (Loc × Nat)} (hg : guardHolds s = true)
    (hb : readGQ s f.base = .ok b)
    (hp : places s 0 (b + f.off.signExtend 64) (2 ^ f.width.toNat) = .ok (ps, t))
    (hpoison : poisonPieces t ps = false) (hd : settled (me t) f.reg = .ok ())
    (hal : (b + f.off.signExtend 64 : Word).toNat % 2 ^ f.width.toNat = 0) :
    exec (.lda f) s = .next (finish
      (written t f.reg (extend (2 ^ f.width.toNat) f.sign (fromBytes (readPieces t ps)))) 8 none) := by
  rw [show exec (.lda f) s = execLda f s from rfl, execLda, guarded_of_holds hg, address_eq hb]
  simp only [bind, Except.bind, widthBytes, aligned, hal, beq_self_eq_true, if_true]
  rw [loadNow_eq hp hpoison hd]
  exact concludeNext_written (sameItems_claimFrame.of_places hp) _ _ 8

/-- The load that LD leaves outstanding. -/
def outstandingLoad (f : MFields) (st : Stream) (v : Word) (va : Nat) (num : Option Nat) : Load :=
  { reg := (destKey st f.reg).1, slot := (destKey st f.reg).2, value := v, va := va, bytes := 2 ^ f.width.toNat
    pulse := num }

/-- The number a plain load takes for its `.pulse`, and the state that has taken it. -/
def loadPulse (s : State) : Option Nat × State :=
  if s.guard.pulse then
    (some (pulseTake s s.curCore s.curStream).1,
      { (pulseTake s s.curCore s.curStream).2 with guard := { s.guard with pulse := false } })
  else (none, s)

theorem sameItems_tlTake (s : State) (ctx key : Nat) : SameItems s (tlTake s ctx key).2 := SameItems.onCtx s ctx

theorem sameItems_loadPulse (s : State) : SameItems s (loadPulse s).2 := by
  unfold loadPulse
  split
  · exact (sameItems_tlTake s _ _).trans (.of_ctxs rfl)
  · exact .refl s

theorem loadLater_eq {f : MFields} {s t : State} {ea : Word} {ps : List (Loc × Nat)}
    (hs : settled (me s) f.reg = .ok ()) (hp : places s 0 ea (2 ^ f.width.toNat) = .ok (ps, t))
    (hpoison : poisonPieces t ps = false) : loadLater f s ea = .ok (onMe (loadPulse t).2 fun st => { st with
      loads := st.loads ++ [outstandingLoad f st (extend (2 ^ f.width.toNat) f.sign (fromBytes (readPieces t ps)))
        ea.toNat (loadPulse t).1] }) := by
  have hbytes : loadBytes s 0 ea (widthBytes f.width) = .ok (readPieces t ps, t) := loadBytes_of_places hp hpoison
  simp only [loadLater, hs, hbytes, bind, Except.bind, loadPulse]
  split <;> exact congrArg Except.ok (onMe_congr rfl)

theorem exec_ld_later {f : MFields} {s t : State} {b : Word} {ps : List (Loc × Nat)} {m pa n : Nat}
    (hg : guardHolds s = true) (hs : settled (me s) f.reg = .ok ()) (hb : readGQ s f.base = .ok b)
    (hp : places s 0 (b + f.off.signExtend 64) (2 ^ f.width.toNat) = .ok (ps, t))
    (hpoison : poisonPieces t ps = false) (hpeer : (Loc.peer m pa, n) ∈ ps) (hh : inHandler s = false) :
    exec (.ld f) s = .next (finish (onMe (loadPulse t).2 fun st => { st with
      loads := st.loads ++ [outstandingLoad f st (extend (2 ^ f.width.toNat) f.sign (fromBytes (readPieces t ps)))
        (b + f.off.signExtend 64).toNat (loadPulse t).1] }) 8 none) := by
  have hany : (ps.any fun p => isPeer p.1) = true := List.any_eq_true.2 ⟨_, hpeer, rfl⟩
  rw [show exec (.ld f) s = execLd f s from rfl, execLd, guarded_of_holds hg, address_eq hb]
  simp only [bind, Except.bind, widthBytes, hp, hany, hh, Bool.not_false, Bool.and_self, if_true]
  rw [loadLater_eq hs hp hpoison]
  have hitems : SameItems s (loadPulse t).2 := (sameItems_claimFrame.of_places hp).trans (sameItems_loadPulse t)
  exact (hitems.trans (.of_ctxs (t := onMe (loadPulse t).2 _) rfl)).concludeNext 8

theorem aligned_of_misaligned {ea : Word} {n : Nat} (h : ea.toNat % n ≠ 0) :
    aligned ea n = .error (.event 0x09 (some ea)) := by
  simp [aligned, invalid, h]

/-- Settles O25: a load reads the bytes of its places, which post no item record (`sameItems_claimFrame`), and writes its
register or becomes outstanding. -/
theorem loadsReadMemory : Obligations.LoadsReadMemory := by
  unfold Obligations.LoadsReadMemory
  refine ⟨?now, ?later, fun _ _ _ => ⟨rfl, rfl, rfl⟩, ?misaligned⟩
  case now =>
    intro f s s1 b ps hg _ hb hp hpoison hd
    exact ⟨exec_ld_now hg hb hp hpoison hd, exec_lda_aligned hg hb hp hpoison hd⟩
  case later =>
    intro f s s1 b ps m pa n hg hs hb hp hpoison hpeer hh
    refine ⟨(loadPulse s1).1, (loadPulse s1).2, fun hpulse => ?_, fun hpulse => ?_,
      exec_ld_later hg hs hb hp hpoison hpeer hh⟩
    · rw [loadPulse, hpulse]
      exact ⟨rfl, rfl⟩
    · rw [loadPulse, hpulse]
      exact ⟨rfl, rfl⟩
  case misaligned =>
    intro f s b hg hb hmis
    constructor
    · rw [show exec (.lda f) s = execLda f s from rfl, execLda, guarded_of_holds hg, address_eq hb]
      simp only [bind, Except.bind, widthBytes, aligned_of_misaligned hmis]
      rfl
    · rw [show exec (.stl f) s = execStl f s from rfl, execStl, guarded_of_holds hg, address_eq hb]
      simp only [bind, Except.bind, widthBytes, aligned_of_misaligned hmis]
      rfl

end Sys2Proof.Slice0

namespace Sys2Proof.Slice0
open Sys2Proof.Machine

/-! ### Ranges cut into pages or regions (R134, R298) -/

/-- A range cut at the multiples of a block size; `cutPages_eq` and `cutRegions_eq` tie it to the model. -/
def cutBlocks (block : Nat) : Nat → Nat → Nat → List (Nat × Nat)
  | 0, _, _ => []
  | fuel + 1, a, n =>
    if n == 0 then []
    else (a, Nat.min n (block - a % block)) ::
      cutBlocks block fuel (a + Nat.min n (block - a % block)) (n - Nat.min n (block - a % block))

theorem cutPages_eq (fuel a n : Nat) : cutPages fuel a n = cutBlocks 65536 fuel a n := by
  induction fuel generalizing a n with
  | zero => rfl
  | succ fuel ih => simp only [cutPages, cutBlocks, ih]

theorem cutRegions_eq (fuel a n : Nat) : cutRegions fuel a n = cutBlocks (2 ^ 20) fuel a n := by
  induction fuel generalizing a n with
  | zero => rfl
  | succ fuel ih => simp only [cutRegions, cutBlocks, ih]

/-- Every piece begins within the range. -/
theorem cutBlocks_within {block fuel a n : Nat} {p : Nat × Nat} (h : p ∈ cutBlocks block fuel a n) :
    a ≤ p.1 ∧ p.1 < a + n := by
  induction fuel generalizing a n with
  | zero => cases h
  | succ fuel ih =>
    simp only [cutBlocks, beq_iff_eq] at h
    split at h
    · cases h
    · next hn =>
      have hmin : Nat.min n (block - a % block) ≤ n := Nat.min_le_left _ _
      rcases List.mem_cons.1 h with rfl | hrest
      · exact ⟨le_rfl, by dsimp only; omega⟩
      · have := ih hrest
        omega

/-- The pieces of a range make it up, where the fuel covers every block that it meets. -/
theorem cutBlocks_sum {block : Nat} (hb : 0 < block) {fuel a n : Nat} (h : n + a % block ≤ block * fuel) :
    ((cutBlocks block fuel a n).map (·.2)).sum = n := by
  induction fuel generalizing a n with
  | zero =>
    rw [Nat.mul_zero] at h
    simp only [cutBlocks, List.map_nil, List.sum_nil]
    omega
  | succ fuel ih =>
    have hmod : a % block < block := Nat.mod_lt a hb
    rw [Nat.mul_succ] at h
    simp only [cutBlocks, beq_iff_eq]
    split
    · next hn => simp [hn]
    · rw [List.map_cons, List.sum_cons]
      by_cases hle : n ≤ block - a % block
      · have hmin : Nat.min n (block - a % block) = n := Nat.min_eq_left hle
        rw [hmin, Nat.sub_self]
        cases fuel <;> simp [cutBlocks]
      · have hmin : Nat.min n (block - a % block) = block - a % block := Nat.min_eq_right (by omega)
        have hnext : (a + (block - a % block)) % block = 0 := by
          have hsplit : a + (block - a % block) = block * (a / block + 1) := by
            have := Nat.div_add_mod a block
            rw [Nat.mul_succ]
            omega
          rw [hsplit, Nat.mul_mod_right]
        rw [hmin, ih (by rw [hnext]; omega)]
        omega

/-- The fuel the model gives a range covers every block that it meets. -/
theorem cutBlocks_fuel {block : Nat} (hb : 0 < block) (a n : Nat) : n + a % block ≤ block * (n / block + 2) := by
  have hmod : a % block < block := Nat.mod_lt a hb
  have hdiv := Nat.div_add_mod n block
  have hrest : n % block < block := Nat.mod_lt n hb
  rw [Nat.mul_add]
  omega

theorem spanBy_lengths {f : State → Nat → Look × State} {s t : State} {cuts : List (Nat × Nat)} {ps : List (Loc × Nat)}
    (h : spanBy f s cuts = (.ok ps, t)) : ps.map (·.2) = cuts.map (·.2) := by
  induction cuts generalizing s ps with
  | nil =>
    cases h
    rfl
  | cons cut rest ih =>
    obtain ⟨va, n⟩ := cut
    unfold spanBy at h
    split at h
    · split at h
      · next hr =>
        cases h
        exact congrArg (n :: ·) (ih hr)
      · next r hr => exact absurd h (hr _ _)
    · cases h

theorem csPieces_cons {s t : State} {core o n : Nat} {rest : List (Nat × Nat)} {ps : List (Loc × Nat)}
    (h : csPieces s core ((o, n) :: rest) = .ok (ps, t)) :
    ∃ l u qs, csPiece s core o = .ok (l, u) ∧ csPieces u core rest = .ok (qs, t) ∧ ps = (l, n) :: qs := by
  cases hp : csPiece s core o with
  | error e => simp [csPieces, hp, bind, Except.bind] at h
  | ok p =>
    cases hps : csPieces p.2 core rest with
    | error e => simp [csPieces, hp, hps, bind, Except.bind] at h
    | ok q =>
      simp only [csPieces, hp, hps, bind, Except.bind] at h
      cases h
      exact ⟨p.1, p.2, q.1, rfl, hps, rfl⟩

theorem csPieces_lengths {s t : State} {core : Nat} {cuts : List (Nat × Nat)} {ps : List (Loc × Nat)}
    (h : csPieces s core cuts = .ok (ps, t)) : ps.map (·.2) = cuts.map (·.2) := by
  induction cuts generalizing s ps with
  | nil =>
    cases h
    rfl
  | cons cut rest ih =>
    obtain ⟨l, u, qs, -, hrest, rfl⟩ := csPieces_cons h
    exact congrArg (cut.2 :: ·) (ih hrest)

theorem csSpan_cuts {s t : State} {core o n : Nat} {info : Word} {ps : List (Loc × Nat)}
    (h : csSpan s core o n info = .ok (ps, t)) :
    csPieces s core (cutBlocks (2 ^ 20) (n / 2 ^ 20 + 2) o n) = .ok (ps, t) := by
  unfold csSpan at h
  split at h
  · cases h
  · rwa [cutRegions_eq] at h

/-- The places of an access make up its bytes. -/
theorem places_sum {s t : State} {kind n : Nat} {ea : Word} {ps : List (Loc × Nat)}
    (h : places s kind ea n = .ok (ps, t)) : (ps.map (·.2)).sum = n := by
  obtain ⟨-, -, hspan⟩ | ⟨-, hcs⟩ := places_cases h
  · rw [spanBy_lengths (Prod.ext hspan rfl), pages, cutPages_eq,
      cutBlocks_sum (by decide) (cutBlocks_fuel (by decide) _ _)]
  · rw [csPieces_lengths (csSpan_cuts hcs), cutBlocks_sum (by decide) (cutBlocks_fuel (by decide) _ _)]

/-- Core-store pieces in regions that are mapped claim none. -/
theorem csPieces_mapped {s t : State} {core : Nat} {cuts : List (Nat × Nat)} {ps : List (Loc × Nat)}
    (hm : ∀ p ∈ cuts, ∀ l, (coreOf s core).slice = some l →
      (regionAt (coreOf s core) l.ctx l.index (p.1 / 2 ^ 20)).isSome = true)
    (h : csPieces s core cuts = .ok (ps, t)) : t = s := by
  induction cuts generalizing ps with
  | nil =>
    cases h
    rfl
  | cons cut rest ih =>
    obtain ⟨l, u, qs, hpiece, hrest, rfl⟩ := csPieces_cons h
    have hu : u = s := by
      have hcut := hm cut List.mem_cons_self
      simp only [csPiece, stopWith] at hpiece
      split at hpiece
      · cases hpiece
      · next hslice =>
        split at hpiece
        · split at hpiece
          · cases hpiece
          · cases hpiece
            rfl
        · next hnone =>
          have := hcut _ hslice
          rw [hnone] at this
          cases this
    subst hu
    exact ih (fun p hp => hm p (List.mem_cons_of_mem _ hp)) hrest

/-! ### Bytes written at places (R298) -/

/-- Memory with the pieces of a range written; `writePieces_mem` ties it to the model. -/
def writeRuns : Memory → List (Loc × Nat) → List Byte → Memory
  | m, [], _ => m
  | m, (l, n) :: rest, bs => writeRuns (writeBytes m l.key (bs.take n)) rest (bs.drop n)

/-- A place in memory: neither refused nor a port window. -/
def isMemory (l : Loc) : Prop := l ≠ .refused ∧ ∀ o, l ≠ .bar0 o

theorem taintStore_mem (s : State) (c o n : Nat) : (taintStore s c o n).mem = s.mem := by
  unfold taintStore
  split
  · split <;> rfl
  · rfl

theorem storeAt_mem (s : State) {l : Loc} (h : isMemory l) (bs : List Byte) :
    (storeAt s l bs).mem = writeBytes s.mem l.key bs := by
  obtain ⟨href, hbar⟩ := h
  cases l with
  | bar0 o => exact absurd rfl (hbar o)
  | refused => exact absurd rfl href
  | store c o => exact congrArg (writeBytes · _ _) (taintStore_mem s c o _)
  | hbm | peer | host => rfl

theorem storePiece_mem (s : State) {l : Loc} (h : isMemory l) (bs : List Byte) :
    (storePiece s l bs).mem = writeBytes s.mem l.key bs := by
  cases l with
  | bar0 o => exact absurd rfl (h.2 o)
  | hbm | peer | host | store | refused => exact storeAt_mem s h bs

theorem storePieces_mem (s : State) {ps : List (Loc × Nat)} (h : ∀ p ∈ ps, isMemory p.1) (bs : List Byte) :
    (storePieces s ps bs).mem = writeRuns s.mem ps bs := by
  induction ps generalizing s bs with
  | nil => rfl
  | cons p rest ih =>
    rw [storePieces, ih _ fun q hq => h q (List.mem_cons_of_mem _ hq), writeRuns, storePiece_mem s (h p List.mem_cons_self)]

theorem writePieces_mem (s : State) {ps : List (Loc × Nat)} (h : ∀ p ∈ ps, isMemory p.1) (bs : List Byte) :
    (writePieces s ps bs).mem = writeRuns s.mem ps bs := by
  unfold writePieces
  split
  · exact storeAt_mem s (h _ List.mem_cons_self) _
  · exact storePieces_mem s h bs

theorem readByte_writeRuns_outside (m : Memory) {ps : List (Loc × Nat)} {a : Nat}
    (h : ∀ p ∈ ps, a < p.1.key ∨ p.1.key + p.2 ≤ a) (bs : List Byte) : readByte (writeRuns m ps bs) a = readByte m a := by
  induction ps generalizing m bs with
  | nil => rfl
  | cons p rest ih =>
    have hlen := List.length_take_le p.2 bs
    rw [writeRuns, ih _ fun q hq => h q (List.mem_cons_of_mem _ hq), readByte_writeBytes_outside]
    have := h p List.mem_cons_self
    omega

/-- The bytes at disjoint places after a write of the range are those written. -/
theorem readBytes_writeRuns {m : Memory} (hm : Memory.wf m = true) {ps : List (Loc × Nat)} {bs : List Byte}
    (hd : ps.Pairwise fun p q => p.1.key + p.2 ≤ q.1.key ∨ q.1.key + q.2 ≤ p.1.key)
    (hsum : (ps.map (·.2)).sum = bs.length) :
    (ps.flatMap fun p => readBytes (writeRuns m ps bs) p.1.key p.2) = bs := by
  induction ps generalizing m bs with
  | nil => exact (List.eq_nil_of_length_eq_zero hsum.symm).symm
  | cons p rest ih =>
    rw [List.map_cons, List.sum_cons] at hsum
    obtain ⟨hp, hrest⟩ := List.pairwise_cons.1 hd
    have htake : (bs.take p.2).length = p.2 := by rw [List.length_take]; omega
    have hfirst : readBytes (writeRuns (writeBytes m p.1.key (bs.take p.2)) rest (bs.drop p.2)) p.1.key p.2 =
        bs.take p.2 := by
      rw [readBytes_congr (k := writeBytes m p.1.key (bs.take p.2)) p.2 fun i hlo hhi =>
        readByte_writeRuns_outside _ (fun q hq => by have := hp q hq; omega) _]
      have := readBytes_writeBytes_same hm p.1.key (bs.take p.2)
      rwa [htake] at this
    rw [List.flatMap_cons, writeRuns, hfirst, ih (wf_writeBytes hm _ _) hrest (by rw [List.length_drop]; omega),
      List.take_append_drop]

/-! ### Stores (R298, R299) -/

theorem finish_mem {s : State} (hw : (me s).waiting = none) (len : Nat) (target : Option Word) :
    (finish s len target).mem = s.mem := by
  simp only [finish, traceWait, traceWaitOf, hw]
  split <;> rfl

theorem storeReg_eq {f : MFields} {s s1 s2 : State} {ea v : Word} {ps : List (Loc × Nat)}
    (hv : readReg s f.reg = .ok (v, s1)) (hp : places s1 1 ea (2 ^ f.width.toNat) = .ok (ps, s2)) :
    storeReg f s ea = .ok (writePieces s2 ps (toBytes (2 ^ f.width.toNat) v.toNat)) := by
  simp only [storeReg, hv, storeBytes, widthBytes, toBytes_length, hp, bind, Except.bind]
  rfl

theorem drained_of_idle {s : State} (hl : (me s).loads = []) (hn : nestRunning s = false) : drained s = .ok () := by
  simp [drained, hl, hn]

theorem exec_store_eq {f : MFields} {s s1 s2 : State} {b v : Word} {ps : List (Loc × Nat)} (hg : guardHolds s = true)
    (hb : readGQ s f.base = .ok b) (hv : readReg s f.reg = .ok (v, s1))
    (hp : places s1 1 (b + f.off.signExtend 64) (2 ^ f.width.toNat) = .ok (ps, s2)) {i : Instr}
    (hi : i ∈ [Instr.st f, .stl f])
    (hstl : i = .stl f → (b + f.off.signExtend 64 : Word).toNat % 2 ^ f.width.toNat = 0 ∧ (me s).loads = [] ∧
      nestRunning s = false) :
    exec i s = .next (finish (writePieces s2 ps (toBytes (2 ^ f.width.toNat) v.toNat)) 8 none) := by
  have hitems : SameItems s (writePieces s2 ps (toBytes (2 ^ f.width.toNat) v.toNat)) :=
    (SameItems.of_ctxs (readReg_ctxs hv)).trans ((sameItems_claimFrame.of_places hp).trans (.of_ctxs (by simp)))
  simp only [List.mem_cons, List.not_mem_nil, or_false] at hi
  rcases hi with rfl | rfl
  · rw [show exec (.st f) s = execSt f s from rfl, execSt, guarded_of_holds hg, address_eq hb]
    simp only [bind, Except.bind, storeReg_eq hv hp]
    exact hitems.concludeNext 8
  · obtain ⟨hal, hl, hn⟩ := hstl rfl
    rw [show exec (.stl f) s = execStl f s from rfl, execStl, guarded_of_holds hg, address_eq hb]
    simp only [bind, Except.bind, aligned, widthBytes, hal, beq_self_eq_true, if_true, drained_of_idle hl hn,
      storeReg_eq hv hp]
    exact hitems.concludeNext 8

/-- Settles O26: a store's bytes go to the places of its address (`writeRuns`), which make up its width (`places_sum`);
translating changes nothing (`translate_state`), nor do mapped regions (`csPieces_mapped`). -/
theorem storesWriteOnlyTheirBytes : Obligations.StoresWriteOnlyTheirBytes := by
  unfold Obligations.StoresWriteOnlyTheirBytes
  intro f s s1 s2 b v ps hg hw hb hv hp hmem
  obtain ⟨hkept, hme1⟩ := readReg_kept hv
  have hmemory : ∀ p ∈ ps, isMemory p.1 := hmem
  refine ⟨fun h0 => ?virtual, fun h80 hm => ?mapped, fun i hi hstl => ?store⟩
  case virtual =>
    obtain ⟨-, rfl, -⟩ | ⟨hcs, -⟩ := places_cases hp
    · exact hkept.mem
    · rw [h0] at hcs
      cases hcs
  case mapped =>
    obtain ⟨h0, -⟩ | ⟨-, hcs⟩ := places_cases hp
    · rw [h0] at h80
      cases h80
    · have hcore : ∀ {α : Type} (g : Core → α) (_ : ∀ k : Core, g { k with
          streams := [], handler := none, dregs := [], walked := [] } = g k),
          g (coreOf s1 s1.curCore) = g (myCore s) := by
        intro α g hg'
        rw [hkept.curCore, ← hg' (coreOf s1 s.curCore), hkept.core, hg']
        rfl
      have hslice := hcore (fun k => k.slice) fun _ => rfl
      have hregion : ∀ c r i, regionAt (coreOf s1 s1.curCore) c r i = regionAt (myCore s) c r i :=
        fun c r i => hcore (fun k => regionAt k c r i) fun _ => rfl
      have hfield : field (b + f.off.signExtend 64 : Word).toNat 0 27 =
          (b + f.off.signExtend 64 : Word).toNat % 2 ^ 27 := by rw [field, pow_zero, Nat.div_one]
      have hsame := csPieces_mapped (fun p hp l hl => by
        have hin := cutBlocks_within hp
        rw [hfield] at hin
        rw [hregion]
        exact hm l (by rw [← hslice, hl]) p.1 hin.1 hin.2) (csSpan_cuts hcs)
      rw [hsame, hkept.mem]
  case store =>
    have hstreams : SameStreams s1 (writePieces s2 ps (toBytes (2 ^ f.width.toNat) v.toNat)) :=
      (sameStreams_claimFrame.of_places hp).trans (.writePieces s2 _ _)
    have hme : me (writePieces s2 ps (toBytes (2 ^ f.width.toNat) v.toNat)) = me s := hstreams.me_eq.trans hme1
    have hbytes : (finish (writePieces s2 ps (toBytes (2 ^ f.width.toNat) v.toNat)) 8 none).mem =
        writeRuns s2.mem ps (toBytes (2 ^ f.width.toNat) v.toNat) := by
      rw [finish_mem (by rw [hme, hw]), writePieces_mem s2 hmemory]
    refine ⟨_, exec_store_eq hg hb hv hp hi hstl, fun hwf hd => ?bytes, fun a ha => ?outside, ?registers⟩
    case bytes =>
      rw [hbytes]
      exact readBytes_writeRuns hwf hd (by rw [places_sum hp, toBytes_length])
    case outside =>
      rw [byteAt, hbytes]
      exact readByte_writeRuns_outside _ ha _
    case registers =>
      rw [me_finish, hme]
      exact ⟨fun _ => rfl, fun _ => rfl, rfl, rfl, rfl, rfl, rfl, rfl⟩

end Sys2Proof.Slice0

namespace Sys2Proof.Slice0
open Sys2Proof.Machine

/-! ### Atomics (R301, R302) -/

theorem settled_of_no_loads {st : Stream} (h : st.loads = []) (r : BitVec 8) : settled st r = .ok () := by
  simp [settled, h]

/-- What an AMO leaves stored at its places, `x` or nothing. -/
def amoStored (s : State) (ps : List (Loc × Nat)) (n : Nat) : Option Nat → State
  | some x => writePieces s ps (toBytes n x)
  | none => s

theorem amoStored_ctxs (s : State) (ps : List (Loc × Nat)) (n : Nat) (x : Option Nat) :
    (amoStored s ps n x).ctxs = s.ctxs := by
  cases x
  · rfl
  · exact writePieces_ctxs s ps _

theorem sameStreams_amoStored (s : State) (ps : List (Loc × Nat)) (n : Nat) (x : Option Nat) :
    SameStreams s (amoStored s ps n x) := by
  cases x
  · exact .refl s
  · exact .writePieces s ps _

theorem amo_eq {m : Amo} {f : MFields} {s s1 : State} {ea v cmp : Word} {ps : List (Loc × Nat)}
    (hg : guardHolds s = true) (hea : readGQ s f.base = .ok ea) (hal : ea.toNat % 2 ^ f.width.toNat = 0)
    (hv : readGQ s f.aux = .ok v) (hcmp : readGQ s f.reg = .ok cmp) (hl : (me s).loads = [])
    (hn : nestRunning s = false) (hp : places s 2 ea (2 ^ f.width.toNat) = .ok (ps, s1)) (hl1 : (me s1).loads = [])
    (hok : ∀ q ∈ ps, amoAllowed m (flag f.off.toNat 3) q.1 = true ∧ completerOk s1 (myCtx s1) q.1 = true)
    (hpoison : poisonPieces s1 ps = false) :
    amo m f s = .next (finish (written (amoStored s1 ps (2 ^ f.width.toNat)
      (amoResult m (flag f.off.toNat 3) (2 ^ f.width.toNat) (fromBytes (readPieces s1 ps))
        (v.toNat % 2 ^ (8 * 2 ^ f.width.toNat)) (cmp.toNat % 2 ^ (8 * 2 ^ f.width.toNat))))
      f.reg (extend (2 ^ f.width.toNat) (!flag f.off.toNat 3) (fromBytes (readPieces s1 ps)))) 8 none) := by
  have hall : (ps.all fun p => amoAllowed m (flag f.off.toNat 3) p.1 && completerOk s1 (myCtx s1) p.1) = true := by
    rw [List.all_eq_true]
    intro q hq
    rw [(hok q hq).1, (hok q hq).2, Bool.and_self]
  rw [amo, guarded_of_holds hg]
  simp only [bind, Except.bind, hea, hv, hcmp, aligned, widthBytes, hal, beq_self_eq_true, if_true,
    drained_of_idle hl hn, hp, hall, hpoison, Bool.false_eq_true, if_false]
  generalize hx : amoResult m _ _ _ _ _ = x
  have hstored : writeReg (amoStored s1 ps (2 ^ f.width.toNat) x) f.reg
      (extend (2 ^ f.width.toNat) (!flag f.off.toNat 3) (fromBytes (readPieces s1 ps))) = .ok _ :=
    writeReg_of_settled (settled_of_no_loads ((congrArg Stream.loads
      (sameStreams_amoStored s1 ps _ x).me_eq).trans hl1) _) _
  have hdone := concludeNext_written ((sameItems_claimFrame.of_places hp).trans
    (.of_ctxs (amoStored_ctxs s1 ps (2 ^ f.width.toNat) x))) f.reg
    (extend (2 ^ f.width.toNat) (!flag f.off.toNat 3) (fromBytes (readPieces s1 ps))) 8
  rw [← hstored] at hdone
  rw [← hdone]
  cases x <;> rfl

/-! ### The values atomics store (R302) -/

/-- The signed reading of the low bits of a number is that of the word of those bits. -/
theorem signed_eq_toInt (w v : Nat) : signed w v = (BitVec.ofNat w v).toInt := by
  simp only [signed, BitVec.toInt, BitVec.toNat_ofNat]
  split <;> simp

theorem ofNat_toNat_of_lt {w v : Nat} (h : v < 2 ^ w) : (BitVec.ofNat w v).toNat = v := by
  rw [BitVec.toNat_ofNat, Nat.mod_eq_of_lt h]

theorem amoResult_integers {n old v : Nat} (cmp : Nat) (ho : old < 2 ^ (8 * n)) (hv : v < 2 ^ (8 * n)) :
    amoResult .add false n old v cmp = some (BitVec.ofNat (8 * n) old + BitVec.ofNat (8 * n) v).toNat ∧
    amoResult .and false n old v cmp = some (BitVec.ofNat (8 * n) old &&& BitVec.ofNat (8 * n) v).toNat ∧
    amoResult .or false n old v cmp = some (BitVec.ofNat (8 * n) old ||| BitVec.ofNat (8 * n) v).toNat ∧
    amoResult .xor false n old v cmp = some (BitVec.ofNat (8 * n) old ^^^ BitVec.ofNat (8 * n) v).toNat := by
  have hold := ofNat_toNat_of_lt ho
  have hval := ofNat_toNat_of_lt hv
  rw [BitVec.toNat_add, BitVec.toNat_and, BitVec.toNat_or, BitVec.toNat_xor, hold, hval]
  exact ⟨rfl, rfl, rfl, rfl⟩

/-- The lesser and the greater of two integers: where they are equal, so are the numbers. -/
theorem amoResult_ordered {n old v : Nat} (cmp : Nat) (ho : old < 2 ^ (8 * n)) (hv : v < 2 ^ (8 * n)) :
    amoResult .min false n old v cmp =
      some (if (BitVec.ofNat (8 * n) old).toInt ≤ (BitVec.ofNat (8 * n) v).toInt then old else v) ∧
    amoResult .max false n old v cmp =
      some (if (BitVec.ofNat (8 * n) old).toInt ≤ (BitVec.ofNat (8 * n) v).toInt then v else old) := by
  simp only [amoResult, Bool.false_eq_true, if_false, signed_eq_toInt, decide_eq_true_eq]
  rcases lt_trichotomy (BitVec.ofNat (8 * n) old).toInt (BitVec.ofNat (8 * n) v).toInt with hlt | heq | hgt
  · simp [hlt, hlt.le]
  · have hsame : old = v := by
      rw [← ofNat_toNat_of_lt ho, ← ofNat_toNat_of_lt hv, BitVec.toInt_inj.1 heq]
    simp [hsame]
  · simp [not_lt.2 hgt.le, not_le.2 hgt]

theorem cmpNum_swap (a b : FVal) : cmpNum a b = .lt ↔ cmpNum b a = .gt := by
  simp only [cmpNum, compare_lt_iff_lt, compare_gt_iff_gt, min_comm]

theorem amoResult_less {old v : Nat} (cmp : Nat) (h : ltF32 old v = true) :
    amoResult .min true 4 old v cmp = some old ∧ amoResult .max true 4 old v cmp = some v := by
  simp only [ltF32, nanF32, Bool.and_eq_true, Bool.not_eq_true', beq_iff_eq] at h
  obtain ⟨⟨ho, hv⟩, hlt⟩ := h
  simp [amoResult, minMax, ho, hv, hlt]

theorem amoResult_greater {old v : Nat} (cmp : Nat) (h : ltF32 v old = true) :
    amoResult .min true 4 old v cmp = some v ∧ amoResult .max true 4 old v cmp = some old := by
  simp only [ltF32, nanF32, Bool.and_eq_true, Bool.not_eq_true', beq_iff_eq] at h
  obtain ⟨⟨hv, ho⟩, hlt⟩ := h
  simp [amoResult, minMax, ho, hv, (cmpNum_swap _ _).1 hlt]

/-- One NaN gives the other operand, two the canonical NaN, in both of MIN and MAX (R205). -/
theorem amoResult_nan {m : Amo} (hm : m ∈ [Amo.min, .max]) (old v cmp : Nat) :
    (nanF32 old = true → nanF32 v = true → amoResult m true 4 old v cmp = some 0x7FC00000) ∧
    (nanF32 old = true → nanF32 v = false → amoResult m true 4 old v cmp = some v) ∧
    (nanF32 old = false → nanF32 v = true → amoResult m true 4 old v cmp = some old) := by
  have hcanon : (canonNan f32 false).bits = 0x7FC00000 := by decide
  simp only [nanF32]
  simp only [List.mem_cons, List.not_mem_nil, or_false] at hm
  rcases hm with rfl | rfl <;>
    exact ⟨fun ho hv => by simp [amoResult, minMax, ho, hv, hcanon], fun ho hv => by simp [amoResult, minMax, ho, hv],
      fun ho hv => by simp [amoResult, minMax, ho, hv]⟩

/-- −0 lies below +0 (R205). -/
theorem minMax_zeros : (minMax f32 false 0x80000000 0).bits = 0x80000000 ∧ (minMax f32 true 0x80000000 0).bits = 0 ∧
    (minMax f32 false 0 0x80000000).bits = 0x80000000 ∧ (minMax f32 true 0 0x80000000).bits = 0 := by
  decide

/-- Settles O27: an AMO completes with its result stored and the old value written (`amo_eq`); what it stores is a fact of words or of f32 values. -/
theorem atomicsReadAndWrite : Obligations.AtomicsReadAndWrite := by
  unfold Obligations.AtomicsReadAndWrite
  refine ⟨?access, ?integers, ?floats⟩
  case access =>
    intro p hp f s s1 ea v cmp ps hg hea hal hv hcmp hl hn hplaces hl1 hok hpoison
    have hexec : exec (p.1 f) s = amo p.2 f s := by
      simp only [List.mem_cons, List.not_mem_nil, or_false] at hp
      rcases hp with rfl | rfl | rfl | rfl | rfl | rfl | rfl | rfl <;> rfl
    refine ⟨_, _, rfl, rfl, ?_⟩
    rw [hexec, amo_eq hg hea hal hv hcmp hl hn hplaces hl1 hok hpoison]
    cases amoResult p.2 _ _ _ _ _ <;> rfl
  case integers =>
    intro n _ old v cmp ho hv
    obtain ⟨hadd, hand, hor, hxor⟩ := amoResult_integers cmp ho hv
    obtain ⟨hmin, hmax⟩ := amoResult_ordered cmp ho hv
    refine ⟨hadd, hand, hor, hxor, hmin, hmax, fun float => ⟨rfl, ?_⟩⟩
    by_cases h : old = cmp <;> simp [amoResult, h]
  case floats =>
    intro old v cmp _ _
    refine ⟨rfl, fun m hm => amoResult_nan hm old v cmp, amoResult_less cmp, amoResult_greater cmp, ?_⟩
    obtain ⟨hmin, hmax, hmin', hmax'⟩ := minMax_zeros
    exact ⟨congrArg some hmin, congrArg some hmax, congrArg some hmin', congrArg some hmax'⟩

end Sys2Proof.Slice0

namespace Sys2Proof.Slice0
open Sys2Proof.Machine

/-! ### Parameter areas (R303, R304) -/

theorem concludeNext_of_room {s : State} (h : roomForItems s) (t : State) (len : Nat) :
    concludeNext s len (.ok t) = .next (finish t len none) := by
  rw [concludeNext_ok, itemsOver_of_room h]
  rfl

/-- An instruction on an area that executes and completes, with room for the records it may post. -/
theorem areaForm_of_ok {f : EFields} {s t : State} {body : Act State} (hg : guardHolds s = true) (hr : roomForItems s)
    (hbody : body = .ok t) : areaForm f s body = .next (finish t 8 none) := by
  subst hbody
  simp only [areaForm, hg, Bool.not_true, Bool.false_eq_true, if_false]
  exact concludeNext_of_room hr t 8

theorem areaIndex_eq {f : EFields} {s : State} {a : Word} (h : readGQ s f.a = .ok a) :
    areaIndex f s = .ok (a.toInt + f.opt.toInt) := by
  rw [areaIndex, h]
  rfl

theorem areaOffset_inside {d : Area} {n : Nat} {i : Int} (area : Nat) (h0 : 0 ≤ i) (h : (i + 1) * n ≤ d.len) :
    areaOffset d area n i = .ok (d.base + i.toNat * n) := by
  simp [areaOffset, not_lt.2 h0, not_lt.2 h]

theorem areaOffset_outside {d : Area} {n : Nat} {i : Int} (area : Nat) (h : i < 0 ∨ (d.len : Int) < (i + 1) * n) :
    areaOffset d area n i = .error (.event 0x91 (some (areaInfo area i))) := by
  simp only [areaOffset, Bool.or_eq_true, decide_eq_true_eq, if_pos h]

/-- Settles O28: with the descriptor, the offset and the access given, each member's body is what it does at that
offset. -/
theorem parameterAreaAccess : Obligations.ParameterAreaAccess := by
  unfold Obligations.ParameterAreaAccess
  refine ⟨?ldp, ?stp, fun _ area _ _ h0 h => areaOffset_inside area h0 h, fun _ area _ _ h => areaOffset_outside area h⟩
  case ldp =>
    intro f s s1 s2 a d o bs hg hr ha hs harea ho hload hs2
    refine areaForm_of_ok hg hr ?_
    simp only [areaIndex_eq ha, hs, harea, ho, hload, bind, Except.bind]
    exact writeReg_of_settled hs2 _
  case stp =>
    intro f s s1 s2 s3 a v d o hg hr ha harea ho hv hstore
    refine areaForm_of_ok hg hr ?_
    simp only [areaIndex_eq ha, harea, ho, hv, bind, Except.bind]
    exact hstore

/-! ### Ordering and code visibility (R305) -/

theorem joinWalk_ctxs (s : State) (core requester ctx va kind : Nat) :
    (joinWalk s core requester ctx va kind).ctxs = s.ctxs := by
  unfold joinWalk
  dsimp only
  split
  · rfl
  · split <;> rfl

theorem exec_ordering {s : State} (hg : guardHolds s = true) (hl : (me s).loads = []) (hn : nestRunning s = false) :
    exec .mark s = .next (finish s 8 none) ∧ ∀ f, exec (.fence f) s = .next (finish s 8 none) := by
  have hdone : guarded s 8 (do drained s; return s) = .next (finish s 8 none) := by
    rw [guarded_of_holds hg, drained_of_idle hl hn]
    exact concludeNext_of_ctxs (t := s) rfl 8
  exact ⟨hdone, fun _ => hdone⟩

theorem exec_code {f : EFields} {s : State} {a : Word} {n : Nat} (hg : guardHolds s = true)
    (hc : codeRange f s = .ok (a, n)) : exec (.cflush f) s = .next (finish s 8 none) ∧
      (eaSpace a = 0 → n ≠ 0 → exec (.icinv f) s =
        .next (finish (onCore s s.curCore fun k => dropLines k (myCtx s) a.toNat n) 8 none)) := by
  refine ⟨?_, fun h0 hn => ?_⟩
  · rw [show exec (.cflush f) s = execCflush f s from rfl, execCflush, guarded_of_holds hg, hc]
    exact concludeNext_of_ctxs (t := s) rfl 8
  · have hn' : (n != 0) = true := by simpa using hn
    rw [show exec (.icinv f) s = execIcinv f s from rfl, execIcinv, guarded_of_holds hg, hc]
    simp only [bind, Except.bind, h0, hn', beq_self_eq_true, Bool.and_self, if_true]
    exact concludeNext_of_ctxs (by rfl) 8

theorem exec_prf {f : EFields} {s : State} {a : Word} (hg : guardHolds s = true) (ha : readGQ s f.a = .ok a) :
    (eaSpace (a + f.n12.signExtend 64) = 0 →
      (translate s (some s.curCore) (myCtx s) 0 (a + f.n12.signExtend 64).toNat).1 = .miss →
      exec (.prf f) s = .next (finish (joinWalk s s.curCore 8 (myCtx s) (a + f.n12.signExtend 64).toNat 0) 8 none)) ∧
    (eaSpace (a + f.n12.signExtend 64) ≠ 0 ∨
      (translate s (some s.curCore) (myCtx s) 0 (a + f.n12.signExtend 64).toNat).1 ≠ .miss →
      exec (.prf f) s = .next (finish s 8 none)) := by
  rw [show exec (.prf f) s = execPrf f s from rfl, execPrf, guarded_of_holds hg, ha]
  simp only [bind, Except.bind, Bool.and_eq_true, beq_iff_eq]
  refine ⟨fun h0 hmiss => ?_, fun h => ?_⟩
  · rw [if_pos ⟨h0, hmiss⟩]
    exact concludeNext_of_ctxs (joinWalk_ctxs s _ _ _ _ _) 8
  · rw [if_neg fun hc => h.elim (absurd hc.1) (absurd hc.2)]
    exact concludeNext_of_ctxs (t := s) rfl 8

/-- Settles O29: each of the members is guarded, posts no record and leaves the state named. -/
theorem orderingInstructionsComplete : Obligations.OrderingInstructionsComplete := by
  unfold Obligations.OrderingInstructionsComplete
  refine ⟨fun s hg hl hn => exec_ordering hg hl hn, fun f s a n hg hc => exec_code hg hc, fun s hg => ?fbar,
    fun f s a hg ha => exec_prf hg ha⟩
  case fbar =>
    rw [show exec .fbar s = execFbar s from rfl, execFbar, guarded_of_holds hg]
    exact concludeNext_of_ctxs (by rfl) 8

end Sys2Proof.Slice0

namespace Sys2Proof.Slice0
open Sys2Proof.Machine

/-! ### Transfers of control (R284-R287) -/

theorem conclude_of_room {s : State} (h : roomForItems s) (t : State) (len : Nat) (target : Option Word) :
    conclude s len (.ok (t, target)) = .next (finish t len target) := by
  rw [conclude_ok, itemsOver_of_room h]
  rfl

theorem SameItems.conclude {s t : State} (h : SameItems s t) (len : Nat) (target : Option Word) :
    conclude s len (.ok (t, target)) = .next (finish t len target) := by
  rw [conclude_ok, h.not_over]
  rfl

theorem sameItems_traceBranch (s : State) (taken : Bool) : SameItems s (traceBranch s taken) := .trace s _ _ _ _

theorem exec_jmp_eq {f : JFields} {s s1 : State} (hr : roomForItems s)
    (ht : checkTarget s s.curCore (myCtx s) false (branchTo s f.imm.toInt) = .ok s1) :
    exec (.jmp f) s = .next (finish s1 4 (some (branchTo s f.imm.toInt))) := by
  rw [show exec (.jmp f) s = execJmp f s from rfl, execJmp]
  simp only [target, ht, bind, Except.bind]
  exact conclude_of_room hr s1 4 _

theorem exec_br_taken {f : JFields} {s s1 : State} (hr : roomForItems s)
    (ht : checkTarget s s.curCore (myCtx s) false (branchTo s f.imm.toInt) = .ok s1)
    (hp : cValue (me s) f.pred.toNat = true) :
    exec (.br f) s = .next (finish (traceBranch s1 true) 4 (some (branchTo s f.imm.toInt))) := by
  rw [show exec (.br f) s = execBr f s from rfl, execBr]
  simp only [hp, if_true, target, ht, bind, Except.bind]
  exact conclude_of_room hr _ 4 _

theorem exec_br_not_taken {f : JFields} {s : State} (hp : cValue (me s) f.pred.toNat = false) :
    exec (.br f) s = .next (finish (traceBranch s false) 4 none) := by
  rw [show exec (.br f) s = execBr f s from rfl, execBr]
  simp only [hp, Bool.false_eq_true, if_false]
  exact (sameItems_traceBranch s false).conclude 4 none

theorem exec_jal_eq {f : JFields} {s s1 : State} (hr : roomForItems s)
    (ht : checkTarget s s.curCore (myCtx s) true (branchTo s f.imm.toInt) = .ok s1) :
    exec (.jal f) s = .next (finish (onMe s1 fun st => { st with lr := nextPc (me s1).pc 4 }) 4
      (some (branchTo s f.imm.toInt))) := by
  rw [show exec (.jal f) s = execJal f s from rfl, execJal]
  simp only [target, ht, bind, Except.bind]
  exact conclude_of_room hr _ 4 _

/-- The state of a transfer whose link bit makes it a call of `len` bytes. -/
def linked (s : State) (call : Bool) (len : Nat) : State :=
  if call then onMe s fun st => { st with lr := nextPc (me s).pc len } else s

theorem exec_jmpl_eq {f : LFields} {s s1 : State} (hg : guardHolds s = true) (hr : roomForItems s)
    (ht : checkTarget s s.curCore (myCtx s) (f.imm == 1) (branchTo s f.lit.toInt) = .ok s1) :
    exec (.jmpl f) s = .next (finish (if (linked s1 (f.imm == 1) 12).guard.pred == 0 then linked s1 (f.imm == 1) 12
      else traceBranch (linked s1 (f.imm == 1) 12) true) 12 (some (branchTo s f.lit.toInt))) := by
  rw [show exec (.jmpl f) s = execJmpl f s from rfl, execJmpl]
  simp only [hg, if_true, target, ht, bind, Except.bind]
  exact conclude_of_room hr _ 12 _

theorem OutsideKept.myCtx {s t : State} (h : OutsideKept s t) : myCtx t = myCtx s := by
  have hslice := congrArg Core.slice h.core
  have hcore : (coreOf t s.curCore).slice = (coreOf s s.curCore).slice := hslice
  simp only [Machine.myCtx, coreCtx, h.curCore, hcore]

theorem myCtx_emptyIf (s : State) (lu : Bool) (r : BitVec 8) : myCtx (emptyIf s lu r) = myCtx s :=
  (OutsideKept.emptyIf s lu r).myCtx

theorem settled_linked {s : State} {r : BitVec 8} (h : settled (me s) r = .ok ()) (call : Bool) (len : Nat) :
    settled (me (linked s call len)) r = .ok () := by
  unfold linked
  split
  · rw [me_onMe]
    exact (settled_congr rfl rfl r).trans h
  · exact h

theorem exec_jalr_eq {f : GFields} {s s1 s2 : State} {a : Word} (hg : guardHolds s = true) (hr : roomForItems s)
    (ha : if f.a = 0 then a = (me s).lr ∧ s1 = s else readReg s f.a = .ok (a, s1))
    (ht : checkTarget (emptyIf s1 f.lu f.a) s1.curCore (myCtx s1) (f.imm == 1) a = .ok s2)
    (hd : settled (me s2) f.dst = .ok ()) :
    exec (.jalr f) s = .next (finish (trace (written (linked s2 (f.imm == 1) 8) f.dst (me s2).lr)
      (linked s2 (f.imm == 1) 8).curCore 5 (linked s2 (f.imm == 1) 8).curStream (a.toNat % 2 ^ 48)) 8 (some a)) := by
  have hcore : (emptyIf s1 f.lu f.a).curCore = s1.curCore := (OutsideKept.emptyIf s1 f.lu f.a).curCore
  have hwrite := writeReg_of_settled (settled_linked hd (f.imm == 1) 8) (me s2).lr
  simp only [linked, beq_iff_eq] at hwrite
  rw [show exec (.jalr f) s = execJalr f s from rfl, execJalr]
  by_cases h0 : f.a = 0
  · rw [if_pos h0] at ha
    obtain ⟨rfl, rfl⟩ := ha
    simp only [hg, if_true, beq_iff_eq, h0, target, pure, Except.pure, bind, Except.bind] at ht hcore ⊢
    simp only [hcore, myCtx_emptyIf, ht, linkAfter, hwrite, linked, beq_iff_eq]
    exact conclude_of_room hr _ 8 _
  · rw [if_neg h0] at ha
    simp only [hg, if_true, beq_iff_eq, h0, if_false, ha, target, hcore, myCtx_emptyIf, linkAfter, bind, Except.bind]
    rw [ht]
    simp only [hwrite, linked, beq_iff_eq]
    exact conclude_of_room hr _ 8 _

/-- Settles O31: each transfer is its target check, its link and its trace entry. -/
theorem transfersOfControl : Obligations.TransfersOfControl := by
  unfold Obligations.TransfersOfControl
  have call : ∀ (s : State) (i : BitVec 18) (len : Nat),
      (if i = 1 then onMe s fun st => { st with lr := nextPc (me s).pc len } else s) = linked s (i == 1) len := by
    intro s i len
    simp [linked]
  refine ⟨fun f s s1 hr ht => ⟨exec_jmp_eq hr ht, exec_br_taken hr ht⟩, fun f s hp => exec_br_not_taken hp,
    fun f s s1 hr ht => exec_jal_eq hr ht, ?jmpl, ?jalr⟩
  case jmpl =>
    intro f s s1 s2 hg hr ht hs2
    rw [call] at hs2
    rw [exec_jmpl_eq hg hr ht, ← hs2]
    simp
  case jalr =>
    intro f s s1 s2 s3 a hg hr ha ht hs3 hd
    rw [call] at hs3
    rw [exec_jalr_eq hg hr ha ht hd, ← hs3]

/-! ### Loops (R289, R290) -/

/-- A stream that enters a loop of `n` passes over `st` stages. -/
def loopEntered (n st : Word) (x : Stream) : Stream :=
  guards { x with ltrip := n, lstage := BitVec.ofNat 4 st.toNat, lpass := 0 } 0

theorem exec_loop_enters {f : GFields} {s s1 s2 : State} {n st : Word} (hg : guardHolds s = true)
    (ha : readReg s f.a = .ok (n, s1)) (hb : readReg s1 f.b = .ok (st, s2)) (h1 : 1 ≤ st.toNat) (h8 : st.toNat ≤ 8)
    (hn : n ≠ 0) : exec (.loop f) s = .next (finish (traceBranch
      (onMe (emptySources s2 f.lu f.a (.reg f.b)) (loopEntered n st)) false) 8 none) := by
  have hst : ¬ ((st == 0 || decide (8 < st.toNat)) = true) := by
    rintro h
    rcases Bool.or_eq_true_iff.1 h with h0 | h9
    · rw [beq_iff_eq.1 h0] at h1
      exact absurd h1 (by decide)
    · exact absurd (of_decide_eq_true h9) (by omega)
  have hctxs : s2.ctxs = s.ctxs := (readReg_ctxs hb).trans (readReg_ctxs ha)
  rw [show exec (.loop f) s = execLoop f s from rfl, execLoop]
  simp only [hg, if_true, readTwo_reg ha hb, bind, Except.bind, if_neg hst, beq_iff_eq, hn, if_false]
  have hitems : SameItems s (onMe (emptySources s2 f.lu f.a (.reg f.b)) (loopEntered n st)) :=
    .of_ctxs ((emptySources_ctxs s2 f.lu f.a (.reg f.b)).trans hctxs)
  exact (hitems.trans (sameItems_traceBranch _ false)).conclude 8 none

theorem myCtx_emptySources (s : State) (lu : Bool) (a b : BitVec 8) :
    myCtx (emptySources s lu a (.reg b)) = myCtx s :=
  (myCtx_emptyIf (emptyIf s lu a) lu b).trans (myCtx_emptyIf s lu a)

theorem exec_loop_skips {f : GFields} {s s1 s2 s3 : State} {st : Word} (hg : guardHolds s = true)
    (hr : roomForItems s) (ha : readReg s f.a = .ok (0, s1)) (hb : readReg s1 f.b = .ok (st, s2))
    (h1 : 1 ≤ st.toNat) (h8 : st.toNat ≤ 8)
    (ht : checkTarget (emptySources s2 f.lu f.a (.reg f.b)) s2.curCore (myCtx s2) false
      (branchTo (emptySources s2 f.lu f.a (.reg f.b)) f.imm.toInt) = .ok s3) :
    exec (.loop f) s = .next (finish (traceBranch (onMe s3 (loopEntered 0 st)) true) 8
      (some (branchTo (emptySources s2 f.lu f.a (.reg f.b)) f.imm.toInt))) := by
  have hst : ¬ ((st == 0 || decide (8 < st.toNat)) = true) := by
    rintro h
    rcases Bool.or_eq_true_iff.1 h with h0 | h9
    · rw [beq_iff_eq.1 h0] at h1
      exact absurd h1 (by decide)
    · exact absurd (of_decide_eq_true h9) (by omega)
  have hcore : (emptySources s2 f.lu f.a (.reg f.b)).curCore = s2.curCore :=
    (OutsideKept.emptySources s2 f.lu f.a f.b).curCore
  rw [show exec (.loop f) s = execLoop f s from rfl, execLoop]
  simp only [hg, if_true, readTwo_reg ha hb, bind, Except.bind, if_neg hst, beq_self_eq_true, target, hcore,
    myCtx_emptySources, ht]
  exact conclude_of_room hr _ 8 _

/-- A stream at its next pass, with its guards. -/
def nextPass (p : Nat) (st : Stream) : Stream := guards { st with lpass := word p } p

theorem exec_brl_again {f : JFields} {s s1 : State} (hr : roomForItems s)
    (hpass : (me s).lpass.toNat + 2 < (me s).ltrip.toNat + (me s).lstage.toNat)
    (ht : checkTarget s s.curCore (myCtx s) false (branchTo s f.imm.toInt) = .ok s1) :
    exec (.brl f) s = .next (finish (traceBranch (onMe s1 (nextPass ((me s).lpass.toNat + 1))) true) 4
      (some (branchTo s f.imm.toInt))) := by
  have hagain : (((me s).lpass.toNat + 1 : Nat) : Int) < ((me s).ltrip.toNat : Int) + (me s).lstage.toNat - 1 := by
    omega
  rw [show exec (.brl f) s = execBrl f s from rfl, execBrl]
  simp only [hagain, if_true, target, ht, bind, Except.bind]
  exact conclude_of_room hr _ 4 _

theorem exec_brl_ends {f : JFields} {s : State}
    (hpass : (me s).ltrip.toNat + (me s).lstage.toNat ≤ (me s).lpass.toNat + 2) :
    exec (.brl f) s = .next (finish (traceBranch (onMe s (nextPass ((me s).lpass.toNat + 1))) false) 4 none) := by
  have hagain : ¬ (((me s).lpass.toNat + 1 : Nat) : Int) < ((me s).ltrip.toNat : Int) + (me s).lstage.toNat - 1 := by
    omega
  rw [show exec (.brl f) s = execBrl f s from rfl, execBrl]
  simp only [hagain, if_false, bind, Except.bind]
  have hitems : SameItems s (onMe s (nextPass ((me s).lpass.toNat + 1))) := .of_ctxs rfl
  exact (hitems.trans (sameItems_traceBranch _ false)).conclude 4 none

theorem flag_eq_testBit (x n : Nat) : flag x n = x.testBit n := by
  rw [Nat.testBit_eq_decide_div_mod_eq]
  rfl

/-- Bits added one by one above the low eight: each is as chosen, and the low ones stay. -/
theorem testBit_add_highBits {x : Nat} (hx : x < 2 ^ 8) (p : Nat → Bool) (n : Nat) :
    x + ((List.range n).map fun j => if p j then 2 ^ (8 + j) else 0).sum < 2 ^ (8 + n) ∧
      ∀ i, (x + ((List.range n).map fun j => if p j then 2 ^ (8 + j) else 0).sum).testBit i =
        if i < 8 then x.testBit i else decide (i < 8 + n) && p (i - 8) := by
  induction n with
  | zero =>
    refine ⟨by simpa using hx, fun i => ?_⟩
    split
    · simp
    · next h8 =>
      have hle : 2 ^ 8 ≤ 2 ^ i := Nat.pow_le_pow_right (by decide) (by omega)
      simp [Nat.testBit_lt_two_pow (lt_of_lt_of_le hx hle), h8]
  | succ n ih =>
    obtain ⟨hlt, hbit⟩ := ih
    rw [List.range_succ, List.map_append, List.sum_append, ← Nat.add_assoc]
    generalize x + ((List.range n).map fun j => if p j then 2 ^ (8 + j) else 0).sum = y at hlt hbit
    have hpow : 2 ^ (8 + (n + 1)) = 2 ^ (8 + n) + 2 ^ (8 + n) := by rw [← Nat.add_assoc, pow_succ]; omega
    simp only [List.map_cons, List.map_nil, List.sum_cons, List.sum_nil, Nat.add_zero]
    cases hp : p n with
    | false =>
      simp only [Bool.false_eq_true, if_false, Nat.add_zero]
      refine ⟨by omega, fun i => ?_⟩
      rw [hbit]
      by_cases hi : i = 8 + n
      · simp [hi, hp]
      · have : (i < 8 + (n + 1)) ↔ i < 8 + n := by omega
        simp only [this]
    | true =>
      simp only [if_true]
      refine ⟨by omega, fun i => ?_⟩
      rw [Nat.add_comm]
      rcases lt_trichotomy i (8 + n) with hi | rfl | hi
      · have : i < 8 + (n + 1) := by omega
        rw [Nat.testBit_two_pow_add_gt hi, hbit]
        simp [hi, this]
      · have hzero := Nat.testBit_lt_two_pow hlt
        rw [Nat.testBit_two_pow_add_eq, hzero]
        simp [hp]
      · have hle : 2 ^ (8 + (n + 1)) ≤ 2 ^ i := Nat.pow_le_pow_right (by decide) (by omega)
        rw [Nat.testBit_lt_two_pow (by omega)]
        have : ¬ i < 8 + (n + 1) := by omega
        have h8 : ¬ i < 8 := by omega
        simp [this, h8]

theorem cValue_guards {st : Stream} {p n : Nat} (hn : n < 16) : cValue (guards st p) n =
    if n < 8 then cValue st n
    else decide (n - 8 < st.lstage.toNat) && decide (n - 8 ≤ p) && decide (p < st.ltrip.toNat + (n - 8)) := by
  have hbits := (testBit_add_highBits (x := st.c.toNat % 256) (Nat.mod_lt _ (by decide))
    (fun j => decide (j < st.lstage.toNat) && decide (j ≤ p) && decide (p < st.ltrip.toNat + j)) 8).2 n
  rw [cValue, guards, flag_toNat_ofNat hn, flag_eq_testBit, hbits]
  split
  · next h8 =>
    rw [cValue, flag_eq_testBit, show (256 : Nat) = 2 ^ 8 from rfl, Nat.testBit_mod_two_pow]
    simp [h8]
  · next h8 =>
    have h0 : (n == 0) = false := by simp; omega
    rw [h0, Bool.false_or, decide_eq_true (show n < 8 + 8 from hn), Bool.true_and]

/-- Settles O32: LOOP and BRL by their outcomes, and the guards by their bits (`testBit_add_highBits`). -/
theorem loopsFormGuards : Obligations.LoopsFormGuards := by
  unfold Obligations.LoopsFormGuards
  refine ⟨fun f s s1 s2 n st hg ha hb h1 h8 hn => exec_loop_enters hg ha hb h1 h8 hn,
    fun f s s1 s2 s3 st hg hr ha hb h1 h8 ht => exec_loop_skips hg hr ha hb h1 h8 ht,
    fun f s s1 hr hpass ht => exec_brl_again hr hpass ht, fun f s hpass => exec_brl_ends hpass, ?high, ?low⟩
  case high =>
    intro st p j hj
    rw [cValue_guards (by omega), if_neg (by omega), Nat.add_sub_cancel_left]
    simp [and_assoc]
  case low =>
    intro st p n hn
    rw [cValue_guards (by omega), if_pos hn]

end Sys2Proof.Slice0

namespace Sys2Proof.Slice0
open Sys2Proof.Machine

/-! ### Instructions that are predicated off (R253) -/

theorem skip_eq (s : State) (n : Nat) : skip s n = .next (skipped s n) := rfl

theorem guarded_off {s : State} (hg : guardHolds s = false) (n : Nat) (body : Act State) :
    guarded s n body = .next (skipped s n) := by
  rw [guarded, if_neg (by simp [hg]), skip_eq]

/-- An instruction that comes to `skipSources` skips, or waits, by its sources. -/
theorem skips_of_skipSources {s : State} {i : Instr} {len : Nat} {lu : Bool} {a : BitVec 8} {b : Second}
    (h : exec i s = skipSources s len lu a b) : skips s i (emptySources s lu a b) len (settledSources s lu a b) := by
  unfold skips
  split
  · next hs => rw [h, skipSources, hs, skip_eq]
  · next hs => rw [h, skipSources, hs]

theorem areaForm_off {s : State} (hg : guardHolds s = false) {f : EFields} {body : Act State} :
    areaForm f s body = .next (skipped s 8) := by
  unfold areaForm
  exact if_pos (by simp [hg])

/-- A form that first asks whether the guard fails. -/
theorem ite_not_off {s : State} (hg : guardHolds s = false) {n : Nat} {o : Host.Outcome State Fault Refusal} :
    (if !guardHolds s then skip s n else o) = .next (skipped s n) := if_pos (by simp [hg])

/-- A form that asks whether the guard holds, and skips where it does not. -/
theorem ite_off {s : State} (hg : guardHolds s = false) {o o' : Host.Outcome State Fault Refusal} :
    (if guardHolds s then o else o') = o' := if_neg (by simp [hg])

theorem geyserForm_off {s : State} (hg : guardHolds s = false) (hw : (me s).waiting = none) {send : Act State} :
    geyserForm s send = .next (skipped s 8) := by
  unfold geyserForm
  rw [hw]
  exact ite_not_off hg

theorem exec_rdv_off {s : State} (hg : guardHolds s = false) (f : EFields) :
    exec (.rdv f) s = .next (skipped s 8) := by
  rw [show exec (.rdv f) s = execRdv f s from rfl, execRdv]
  split
  · exact guarded_off hg _ _
  · exact ite_not_off hg

theorem exec_rply_off {s : State} (hg : guardHolds s = false) (f : EFields) :
    exec (.rply f) s = .next (skipped s 8) := by
  rw [show exec (.rply f) s = execRply f s from rfl, execRply]
  simp only [hg, Bool.false_and, Bool.false_eq_true, if_false]
  exact guarded_off hg _ _

theorem exec_embld_off {s : State} (hg : guardHolds s = false) (f : EFields) :
    exec (.embld f) s = .next (skipped s 8) := by
  rw [show exec (.embld f) s = execEmbld f s from rfl, execEmbld]
  simp only [hg, Bool.false_eq_true, if_false]
  exact guarded_off hg _ _

theorem exec_jmpl_off {s : State} (hg : guardHolds s = false) (f : LFields) :
    exec (.jmpl f) s = .next (skipped (if s.guard.pred = 0 then s else traceBranch s false) 12) := by
  rw [show exec (.jmpl f) s = execJmpl f s from rfl, execJmpl]
  simp only [hg, Bool.false_eq_true, if_false, beq_iff_eq]
  rfl

/-! #### Heads resolved first (R177) -/

/-- Resolving one signal's head changes the resolved heads of the issuing stream at most. -/
theorem resolve_one (s : State) (n : Nat) :
    resolve s [n] = s ∨ ∃ h, resolve s [n] = onMe s fun st => { st with heads := put st.heads n h } := by
  simp only [resolve, List.foldl_cons, List.foldl_nil]
  split
  · exact .inr ⟨_, rfl⟩
  · exact .inl rfl

theorem me_resolve_one (s : State) (n : Nat) : ∃ h, me (resolve s [n]) = { me s with heads := h } := by
  obtain h | ⟨h, hr⟩ := resolve_one s n
  · exact ⟨(me s).heads, by rw [h]⟩
  · exact ⟨_, by rw [hr, me_onMe]⟩

theorem outsideKept_resolve_one (s : State) (n : Nat) : OutsideKept s (resolve s [n]) := by
  obtain h | ⟨h, hr⟩ := resolve_one s n
  · rw [h]
    exact .refl s
  · rw [hr]
    exact .onMe s _

theorem guardHolds_resolve_one (s : State) (n : Nat) : guardHolds (resolve s [n]) = guardHolds s := by
  obtain ⟨h, hme⟩ := me_resolve_one s n
  rw [guardHolds, guardHolds, hme, (outsideKept_resolve_one s n).guard]
  rfl

theorem guarded_resolve_off {s : State} (hg : guardHolds s = false) {n len : Nat} {body : Act State} :
    guarded (resolve s [n]) len body = .next (skipped (resolve s [n]) len) :=
  guarded_off ((guardHolds_resolve_one s n).trans hg) _ _

/-! #### What skipping leaves alone -/

/-- A skip from a state that is `s` but for the issuing stream, which has not waited. -/
theorem skipped_eq {s t : State} (ho : OutsideKept s t) (hw : (me t).waiting = none) (n : Nat) :
    me (skipped t n) = issued (me t) n none ∧ (skipped t n).mem = s.mem ∧ (skipped t n).ctxs = s.ctxs := by
  have hplain := finish_of_plain (s := { t with guard := { t.guard with pulse := false } }) hw rfl n none
  refine ⟨me_finish _ n none, ?_, ?_⟩
  · rw [skipped, hplain]
    exact ho.mem
  · rw [skipped, hplain]
    exact ho.contexts

/-- The states an instruction that is predicated off leaves: of the issuing stream, only resolved heads and emptied q
registers differ. -/
theorem emptied_of_skipping {s t : State} (k : Nat) (lu : Bool) (a b : BitVec 8)
    (ht : t ∈ [s, resolve s [k], emptySources s lu a (.reg b), emptyIf s lu a, emptyIf (emptyIf s lu a) lu b]) :
    OutsideKept s t ∧ ∃ h, Emptied (usedQs lu [a, b]) { me s with heads := h } (me t) := by
  have hempty : ∀ u, Emptied (usedQs lu [a]) (me s) u → Emptied (usedQs lu [a, b]) (me s) u := by
    rintro u ⟨ql, rfl, hq⟩
    refine ⟨ql, rfl, fun n hn hmem => hq n hn fun h => hmem ?_⟩
    simp only [usedQs] at h ⊢
    cases lu
    · exact h
    · rw [List.filter_cons] at h ⊢
      split at h <;> simp_all
  simp only [List.mem_cons, List.not_mem_nil, or_false] at ht
  rcases ht with rfl | rfl | rfl | rfl | rfl
  · exact ⟨.refl _, (me t).heads, .refl _ _⟩
  · obtain ⟨h, hme⟩ := me_resolve_one s k
    exact ⟨outsideKept_resolve_one s k, h, hme ▸ .refl _ _⟩
  · exact ⟨.emptySources s lu a b, (me s).heads, emptied_emptySources s lu a b⟩
  · exact ⟨.emptyIf s lu a, (me s).heads, hempty _ (emptied_emptyIf s lu a)⟩
  · exact ⟨.emptySources s lu a b, (me s).heads, emptied_emptySources s lu a b⟩

theorem qlive_emptyIf (s : State) (lu : Bool) (r : BitVec 8) :
    (me (emptyIf s lu r)).qlive &&& (me s).qlive = (me (emptyIf s lu r)).qlive := by
  unfold emptyIf
  split
  · rw [emptyQ, me_onMe, BitVec.and_assoc, BitVec.and_comm (~~~ _), ← BitVec.and_assoc, BitVec.and_self]
  · exact BitVec.and_self

theorem qlive_emptySources (s : State) (lu : Bool) (a b : BitVec 8) :
    (me (emptySources s lu a (.reg b))).qlive &&& (me s).qlive = (me (emptySources s lu a (.reg b))).qlive := by
  have hb : (me (emptySources s lu a (.reg b))).qlive &&& (me (emptyIf s lu a)).qlive =
    (me (emptySources s lu a (.reg b))).qlive := qlive_emptyIf (emptyIf s lu a) lu b
  rw [← hb, BitVec.and_assoc, qlive_emptyIf]

theorem qlive_and_of_skipping {s t : State} {k : Nat} {lu : Bool} {a b : BitVec 8}
    (ht : t ∈ [s, resolve s [k], emptySources s lu a (.reg b), emptyIf s lu a, emptyIf (emptyIf s lu a) lu b]) :
    (me t).qlive &&& (me s).qlive = (me t).qlive := by
  simp only [List.mem_cons, List.not_mem_nil, or_false] at ht
  rcases ht with rfl | rfl | rfl | rfl | rfl
  · exact BitVec.and_self
  · obtain ⟨h, hme⟩ := me_resolve_one s k
    rw [hme]
    exact BitVec.and_self
  · exact qlive_emptySources s lu a b
  · exact qlive_emptyIf s lu a
  · exact qlive_emptySources s lu a b

/-- Without a last use no q register is emptied. -/
theorem qlive_of_unemptied {s t : State} {k : Nat} {lu : Bool} {a b : BitVec 8}
    (ht : t ∈ [s, resolve s [k], emptySources s lu a (.reg b), emptyIf s lu a, emptyIf (emptyIf s lu a) lu b])
    (h : t = s ∨ t = resolve s [k] ∨ lu = false) : (me t).qlive = (me s).qlive := by
  have hresolve : (me (resolve s [k])).qlive = (me s).qlive := by
    obtain ⟨h, hme⟩ := me_resolve_one s k
    rw [hme]
  rcases h with rfl | rfl | rfl
  · rfl
  · exact hresolve
  · simp only [List.mem_cons, List.not_mem_nil, or_false] at ht
    rcases ht with rfl | rfl | rfl | rfl | rfl
    · rfl
    · exact hresolve
    · rfl
    · rfl
    · rfl

/-- A q register whose liveness a skip changes was live, and a last use of it was marked. -/
theorem qLive_emptied {lu : Bool} {a b : BitVec 8} {st u : Stream} (he : Emptied (usedQs lu [a, b]) st u)
    (hle : u.qlive &&& st.qlive = u.qlive) {r : Nat} (h : qLive u r ≠ qLive st r) :
    lu = true ∧ qLive st r = true ∧ (a.toNat = 0x80 + r ∨ b.toNat = 0x80 + r) := by
  obtain ⟨ql, rfl, hq⟩ := he
  have hbit : qLive { st with qlive := ql } r = (qLive { st with qlive := ql } r && qLive st r) := by
    simp only [qLive, flag_eq_getLsbD] at hle ⊢
    rw [← BitVec.getLsbD_and, hle]
  have hlive : qLive st r = true := by
    cases hst : qLive st r
    · rw [hst, Bool.and_false] at hbit
      exact absurd (hbit.trans hst.symm) h
    · rfl
  have hr : r < 16 := by
    by_contra hge
    rw [qLive, flag_eq_getLsbD, BitVec.getLsbD_of_ge _ _ (by omega)] at hlive
    cases hlive
  have hmem : r ∈ usedQs lu [a, b] := by
    by_contra hmem
    exact h (hq r hr hmem)
  have hisQ : ∀ x : BitVec 8, isQ x = true → x.toNat - 0x80 = r → x.toNat = 0x80 + r := by
    intro x hx hxr
    simp only [isQ, Bool.and_eq_true, decide_eq_true_eq] at hx
    omega
  cases lu with
  | false => cases hmem
  | true =>
    simp only [usedQs, if_true, List.mem_map, List.mem_filter, List.mem_cons, List.not_mem_nil, or_false] at hmem
    obtain ⟨x, ⟨hx, hq'⟩, hxr⟩ := hmem
    have hxq := hisQ x hq' hxr
    refine ⟨rfl, hlive, ?_⟩
    rcases hx with rfl | rfl
    · exact .inl hxq
    · exact .inr hxq

/-- What a skip from one of those states leaves, with `s` not waiting. -/
theorem skipping_frame {s t : State} (hw : (me s).waiting = none) (n : Nat) {k : Nat} {lu : Bool} {a b : BitVec 8}
    (ht : t ∈ [s, resolve s [k], emptySources s lu a (.reg b), emptyIf s lu a, emptyIf (emptyIf s lu a) lu b]) :
    (me (skipped t n)).pc = nextPc (me s).pc n ∧ (me (skipped t n)).issue = (me s).issue + 1 ∧
      (me (skipped t n)).heads = [] ∧ (me (skipped t n)).g = (me s).g ∧ (me (skipped t n)).q = (me s).q ∧
      (me (skipped t n)).c = (me s).c ∧ (me (skipped t n)).fflags = (me s).fflags ∧
      (me (skipped t n)).dflags = (me s).dflags ∧ (me (skipped t n)).lr = (me s).lr ∧
      (skipped t n).mem = s.mem ∧ (skipped t n).ctxs = s.ctxs ∧
      (t = s ∨ t = resolve s [k] ∨ lu = false → (me (skipped t n)).qlive = (me s).qlive) ∧
      ∀ r, qLive (me (skipped t n)) r ≠ qLive (me s) r →
        lu = true ∧ qLive (me s) r = true ∧ (a.toNat = 0x80 + r ∨ b.toNat = 0x80 + r) := by
  obtain ⟨ho, h, he⟩ := emptied_of_skipping k lu a b ht
  have hle := qlive_and_of_skipping ht
  obtain ⟨ql, hme, hq⟩ := id he
  obtain ⟨hskip, hmem, hctxs⟩ := skipped_eq ho (by rw [hme]; exact hw) n
  have hrest := hskip.trans (congrArg (issued · n none) hme)
  refine ⟨by rw [hrest]; rfl, by rw [hrest]; rfl, by rw [hrest]; rfl, by rw [hrest]; rfl, by rw [hrest]; rfl,
    by rw [hrest]; rfl, by rw [hrest]; rfl, by rw [hrest]; rfl, by rw [hrest]; rfl, hmem, hctxs, fun hsame => ?_,
    fun r hr => ?_⟩
  · rw [hskip]
    exact qlive_of_unemptied ht hsame
  · rw [hskip] at hr
    exact qLive_emptied he hle hr

/-- The G-class members that read two sources. -/
def twoSourceMembers (f : GFields) : List Instr :=
  [Instr.addG f, .subG f, .andG f, .orG f, .xorG f, .andnG f, .shlG f, .shrG f, .sraG f, .minG f, .maxG f, .minuG f,
  .maxuG f, .mulG f, .movG f, .mulhG f, .mulhuG f, .divG f, .divuG f, .remG f, .remuG f, .rotG f, .clzG f, .ctzG f,
  .popcG f, .sextG f, .zextG f, .bfxG f, .bfiG f, .selG f, .fadd f, .fsub f, .fmul f, .fma f, .fmin f, .fmax f,
  .fsgn f, .fcmp f, .fcvt f, .frcp f, .frsq f, .frcps f, .frsqs f, .fexp2 f, .flog2 f, .loop f]

/-- The L-class members with a source. -/
def literalMembers (f : LFields) : List Instr :=
  [Instr.addL f, .subL f, .andL f, .orL f, .xorL f, .andnL f, .shlL f, .shrL f, .sraL f, .minL f, .maxL f, .minuL f,
  .maxuL f, .mulL f, .mulhL f, .mulhuL f, .divL f, .divuL f, .remL f, .remuL f, .rotL f, .sextL f, .zextL f, .selL
  f]

/-- The E-class members that resolve no head at their issue. -/
def extendedMembers (f : EFields) : List Instr :=
  [Instr.mfs f, .mts f, .mfc f, .mtc f, .ldp f, .stp f, .fence f, .cflush f, .icinv f, .prf f, .push f, .wait f,
  .tlread f, .fork f, .rdv f, .evset f, .evpulse f, .wfe f, .sbind f, .spawn f, .join f, .joinBatch f, .gbar f,
  .budget f, .trap f, .bkpt f, .tlbinv f, .sigdef f, .sighead f, .sigseal f, .sigpos f, .sctx f, .tld f, .tst f,
  .mma f, .mmaz f, .nestgo f, .accmov f, .accz f, .scld f, .tidset f, .tidinv f, .eqpush f, .eqcfg f, .eqfire f,
  .eqpop f, .eqstat f, .gfstep f, .gfstepSet f, .gfmask f, .rply f, .rplyTake f, .embld f, .vrandk f]

/-- The V-class members. -/
def vectorMembers (f : VFields) : List Instr :=
  [Instr.vadd f, .vsub f, .vmul f, .vfma f, .vmac f, .vmin f, .vmax f, .vabs f, .vneg f, .vand f, .vor f, .vxor f,
  .vshl f, .vshr f, .vsra f, .vcvt f, .vsel f, .vcmp f, .vrcp f, .vrsq f, .vexp f, .vlog f, .vtanh f, .vsum f,
  .vmaxr f, .vdraw f, .vdrawm f, .vscan f, .vpopc f, .vdot f, .vrand f, .vcopy f, .vfill f, .vgather f, .vscatter f,
  .vperm f, .vexpand f, .vfir f, .cspush f, .cspop f, .csroute f]

theorem skips_twoSourceMembers {s : State} (hg : guardHolds s = false) (f : GFields) : ∀ i ∈ twoSourceMembers f,
    skips s i (emptySources s f.lu f.a (.reg f.b)) 8 (settledSources s f.lu f.a (.reg f.b)) := by
  simp only [twoSourceMembers, List.forall_mem_cons, List.not_mem_nil, false_implies, implies_true, and_true]
  and_intros
  all_goals exact skips_of_skipSources (ite_off hg)

theorem skips_literalMembers {s : State} (hg : guardHolds s = false) (f : LFields) : ∀ i ∈ literalMembers f,
    skips s i (emptyIf s f.lu f.a) 12 (settledSources s f.lu f.a (.value 0)) := by
  simp only [literalMembers, List.forall_mem_cons, List.not_mem_nil, false_implies, implies_true, and_true]
  and_intros
  all_goals exact skips_of_skipSources (b := .value 0) (ite_off hg)

theorem exec_extendedMembers_off {s : State} (hg : guardHolds s = false) (hw : (me s).waiting = none) (f : EFields) :
    ∀ i ∈ extendedMembers f, exec i s = .next (skipped s 8) := by
  have gd : ∀ len body, guarded s len body = .next (skipped s len) := guarded_off hg
  simp only [extendedMembers, List.forall_mem_cons, List.not_mem_nil, false_implies, implies_true, and_true]
  exact
    ⟨gd _ _, gd _ _, gd _ _, gd _ _, areaForm_off hg, areaForm_off hg, gd _ _, gd _ _, gd _ _, gd _ _, gd _ _, gd _
    _, gd _ _, gd _ _, exec_rdv_off hg f, gd _ _, gd _ _, gd _ _, gd _ _, gd _ _, gd _ _, gd _ _, ite_not_off hg, gd
    _ _, ite_off hg, ite_off hg, gd _ _, gd _ _, gd _ _, ite_not_off hg, gd _ _, gd _ _, gd _ _, gd _ _, ite_not_off
    hg, ite_not_off hg, ite_not_off hg, gd _ _, gd _ _, gd _ _, gd _ _, gd _ _, geyserForm_off hg hw, geyserForm_off
    hg hw, geyserForm_off hg hw, geyserForm_off hg hw, geyserForm_off hg hw, gd _ _, gd _ _, gd _ _, exec_rply_off
    hg f, gd _ _, exec_embld_off hg f, gd _ _⟩

theorem exec_vectorMembers_off {s : State} (hg : guardHolds s = false) (f : VFields) :
    ∀ i ∈ vectorMembers f, exec i s = .next (skipped s 12) := by
  simp only [vectorMembers, List.forall_mem_cons, List.not_mem_nil, false_implies, implies_true, and_true]
  exact
    ⟨ite_off hg, ite_off hg, ite_off hg, ite_off hg, ite_off hg,
    ite_off hg, ite_off hg, ite_off hg, ite_off hg, ite_off hg,
    ite_off hg, ite_off hg, ite_off hg, ite_off hg, ite_off hg,
    ite_off hg, ite_off hg, ite_off hg, ite_off hg, ite_off hg,
    ite_off hg, ite_off hg, ite_off hg, ite_off hg, ite_off hg,
    ite_off hg, guarded_off hg _ _, ite_off hg, ite_off hg, ite_off hg,
    ite_off hg, ite_off hg, ite_off hg, ite_off hg, ite_off hg,
    ite_off hg, ite_off hg, ite_off hg, ite_off hg, ite_off hg,
    ite_off hg⟩

/-- Settles O33: every form with its guard false comes to a skip, or to the wait of its emptied sources; what a skip
leaves alone is `skipped_eq` and `emptied_of_skipping`. -/
theorem predicatedOffDoesNothing : Obligations.PredicatedOffDoesNothing := by
  unfold Obligations.PredicatedOffDoesNothing
  intro s hg hw
  have sources : ∀ {i : Instr} {len : Nat} {lu : Bool} {a : BitVec 8} {b : Second},
      exec i s = skipSources s len lu a b → skips s i (emptySources s lu a b) len (settledSources s lu a b) :=
    skips_of_skipSources
  refine ⟨fun f => ?g, fun f => ?compare, fun f => ?immediate, fun f => ?l, fun f => ?literal, exec_jmpl_off hg,
    fun f => ?vshape, fun f => ?m, fun f => ?e, ?plain, fun f => ?taps, fun f => ?v, ?frame⟩
  case g => exact skips_twoSourceMembers hg f
  case compare =>
    simp only [List.forall_mem_cons, List.not_mem_nil, false_implies, implies_true, and_true]
    and_intros
    all_goals exact sources (b := .reg f.b) (ite_off hg)
  case immediate =>
    simp only [List.cons_append, List.nil_append, List.forall_mem_cons, List.not_mem_nil, false_implies, implies_true,
      and_true]
    and_intros
    all_goals exact sources (b := .value 0) (ite_off hg)
  case l => exact skips_literalMembers hg f
  case literal =>
    simp only [List.forall_mem_cons, List.not_mem_nil, false_implies, implies_true, and_true]
    exact ⟨guarded_off hg _ _, guarded_off hg _ _⟩
  case vshape => exact sources (b := .reg f.b) (ite_off hg)
  case m =>
    simp only [List.forall_mem_cons, List.not_mem_nil, false_implies, implies_true, and_true]
    and_intros
    all_goals exact guarded_off hg _ _
  case e => exact exec_extendedMembers_off hg hw f
  case plain =>
    simp only [List.forall_mem_cons, List.not_mem_nil, false_implies, implies_true, and_true]
    exact ⟨guarded_off hg _ _, guarded_off hg _ _, ite_not_off hg, guarded_off hg _ _, guarded_off hg _ _,
      ite_not_off hg⟩
  case taps =>
    simp only [List.forall_mem_cons, List.not_mem_nil, false_implies, implies_true, and_true]
    and_intros
    all_goals exact guarded_resolve_off hg
  case v => exact exec_vectorMembers_off hg f
  case frame => exact fun n k lu a b t ht => skipping_frame hw n ht

end Sys2Proof.Slice0

namespace Sys2Proof.Slice0
open Sys2Proof.Machine

/-! ### FORK and RDV (R310, R311) -/

theorem foldl_onStream_curCore {α : Type} (g : α → Nat) (st : α → Stream) (xs : List α) {s : State} {c : Nat}
    (h : s.curCore = c) : xs.foldl (fun t p => onStream t t.curCore (g p) fun _ => st p) s =
      xs.foldl (fun t p => onStream t c (g p) fun _ => st p) s := by
  induction xs generalizing s with
  | nil => rfl
  | cons x xs ih =>
    rw [List.foldl_cons, List.foldl_cons, h]
    exact ih h

theorem exec_fork_eq {f : EFields} {s s1 : State} {pcs : List Word} (hg : guardHolds s = true) (hr : roomForItems s)
    (hl : (me s).loads = []) (hn : nestRunning s = false)
    (hidle : ∀ n ∈ maskStreams f.n12.toNat, (streamOf (myCore s) n).status = .idle)
    (hpcs : ((maskStreams f.n12.toNat).mapM fun n => readG s (f.a.toNat + n - 1)) = .ok pcs)
    (hentries : checkEntries s pcs = .ok s1) {s2 : State}
    (hs2 : s2 = ((maskStreams f.n12.toNat).zip pcs).foldl (fun t p =>
      onStream t s1.curCore p.1 fun _ => forkedStream (me s1) p.2) s1) :
    exec (.fork f) s = .next (finish (if 1 ∈ maskStreams f.n12.toNat then
      onCore s2 s1.curCore fun k => { k with vn := 0, vs := [], vo := [] } else s2) 8 none) := by
  have hbusy : ((maskStreams f.n12.toNat).filter fun n => (streamOf (myCore s) n).status != .idle) = [] :=
    List.filter_eq_nil_iff.2 fun n hn => by simp [hidle n hn]
  have hstarted : ((maskStreams f.n12.toNat).zip pcs).foldl (fun s (p : Nat × Word) =>
      onStream s s.curCore p.1 fun _ => forkedStream (me s1) p.2) s1 = s2 :=
    (foldl_onStream_curCore (fun p : Nat × Word => p.1) (fun p => forkedStream (me s1) p.2) _ rfl).trans hs2.symm
  rw [show exec (.fork f) s = execFork f s from rfl, execFork, guarded_of_holds hg]
  simp only [bind, Except.bind, drained_of_idle hl hn, hbusy, List.isEmpty_nil, Bool.not_true, Bool.false_eq_true,
    if_false, hpcs, hentries, hstarted, List.contains_iff_mem]
  split <;> exact concludeNext_of_room hr _ 8

theorem exec_fork_busy {f : EFields} {s : State} (hg : guardHolds s = true) (hl : (me s).loads = [])
    (hn : nestRunning s = false)
    (hbusy : ((maskStreams f.n12.toNat).filter fun n => (streamOf (myCore s) n).status != .idle) ≠ []) :
    exec (.fork f) s = .next (trapState s (.event 0x09 (some (word
      (((maskStreams f.n12.toNat).filter fun n => (streamOf (myCore s) n).status != .idle).map (2 ^ ·)).sum)))) := by
  have hsome : (!((maskStreams f.n12.toNat).filter fun n => (streamOf (myCore s) n).status != .idle).isEmpty) = true := by
    rw [Bool.not_eq_true', Bool.eq_false_iff]
    exact fun h => hbusy (List.isEmpty_iff.1 h)
  rw [show exec (.fork f) s = execFork f s from rfl, execFork, guarded_of_holds hg]
  simp only [bind, Except.bind, drained_of_idle hl hn, hsome, if_true]
  rfl

/-- The copied file names every register by its number. -/
theorem look_copyFile (st : Stream) (k n : Nat) :
    look 0 ((List.range k).foldl (fun m i => if gValue st (i + 1) == 0 then m else put m (i + 1) (gValue st (i + 1))) []) n =
      if 0 < n ∧ n ≤ k then gValue st n else 0 := by
  induction k with
  | zero =>
    have : ¬ (0 < n ∧ n ≤ 0) := by omega
    rw [if_neg this]
    rfl
  | succ k ih =>
    rw [List.range_succ, List.foldl_append, List.foldl_cons, List.foldl_nil]
    by_cases hn : n = k + 1
    · have hin : 0 < n ∧ n ≤ k + 1 := by omega
      have hout : ¬ (0 < n ∧ n ≤ k) := by omega
      rw [if_pos hin]
      split
      · next h0 => rw [ih, if_neg hout, hn, beq_iff_eq.1 h0]
      · rw [hn, look_put_self]
    · have hsame : (0 < n ∧ n ≤ k + 1) ↔ (0 < n ∧ n ≤ k) := by omega
      simp only [hsame]
      rw [← ih]
      split
      · rfl
      · exact look_put_ne _ _ _ hn

theorem copyFile_eq (st : Stream) : copyFile st = (List.range 127).foldl
    (fun m i => if gValue st (i + 1) == 0 then m else put m (i + 1) (gValue st (i + 1))) [] := by
  unfold copyFile
  rfl

theorem gValue_forkedStream (parent : Stream) (pc : Word) {n : Nat} (hn : n < 128) :
    gValue (forkedStream parent pc) n = gValue parent n := by
  have hkey : gKey (forkedStream parent pc) n = n := by
    have hpass : (forkedStream parent pc).lpass.toNat = 0 := rfl
    simp only [gKey, stagedSlot, hpass, unsigned]
    split <;> omega
  have hlook := look_copyFile parent 127 n
  rw [← copyFile_eq] at hlook
  rw [gValue, hkey, show (forkedStream parent pc).g = copyFile parent from rfl]
  by_cases h0 : n = 0
  · simp [h0, gValue]
  · rw [if_pos ⟨Nat.pos_of_ne_zero h0, by omega⟩] at hlook
    rw [if_neg (by simpa using h0), hlook]

theorem exec_rdv_cc {f : EFields} {s : State} (hcc : s.curStream = 0) (hg : guardHolds s = true) :
    ((∀ n ∈ maskStreams f.n12.toNat, (streamOf (myCore s) n).status = .idle) →
      exec (.rdv f) s = .next (finish s 8 none)) ∧
    (∀ n ∈ maskStreams f.n12.toNat, (streamOf (myCore s) n).status ≠ .idle →
      exec (.rdv f) s = .next (hold s (.cause 10))) := by
  have hexec : exec (.rdv f) s = concludeNext s 8 (if (maskStreams f.n12.toNat).all fun n =>
      (streamOf (myCore s) n).status == .idle then .ok s else .error (.wait (.cause 10))) := by
    rw [show exec (.rdv f) s = execRdv f s from rfl, execRdv, if_pos (by simp [hcc]), guarded_of_holds hg]
  rw [hexec]
  refine ⟨fun hidle => ?_, fun n hn hbusy => ?_⟩
  · have hall : ((maskStreams f.n12.toNat).all fun n => (streamOf (myCore s) n).status == .idle) = true :=
      List.all_eq_true.2 fun n hn => by simp [hidle n hn]
    rw [if_pos hall]
    exact concludeNext_of_ctxs rfl 8
  · have hall : ¬ ((maskStreams f.n12.toNat).all fun n => (streamOf (myCore s) n).status == .idle) = true := fun h =>
      hbusy (beq_iff_eq.1 (List.all_eq_true.1 h n hn))
    rw [if_neg hall]
    rfl

theorem exec_rdv_ends {f : EFields} {s : State} (hcc : s.curStream ≠ 0) (hg : guardHolds s = true)
    (hn : nestRunning s = false) (hl : (me s).loads = []) :
    exec (.rdv f) s = .next (onStream (finish s 8 none) s.curCore s.curStream fun _ => {}) := by
  rw [show exec (.rdv f) s = execRdv f s from rfl, execRdv, if_neg (by simpa using hcc)]
  simp [hg, hn, hl]

theorem streamOf_onStream_self (s : State) (c n : Nat) (f : Stream → Stream) :
    streamOf (coreOf (onStream s c n f) c) n = f (streamOf (coreOf s c) n) := by
  rw [onStream, coreOf_onCore_self, streamOf_put_self]

/-! ### The crossbar (R143, R312) and SBIND (R313) -/

theorem exec_evset_eq {f : EFields} {s : State} {v : Word} (hg : guardHolds s = true) (ha : readGQ s f.a = .ok v) :
    exec (.evset f) s = .next (finish (onCore s s.curCore fun k => { k with
      counters := adjust {} k.counters f.n12.toNat fun c =>
        { c with count := eventCount (flag f.opt.toNat 0) c.count v } }) 8 none) := by
  rw [show exec (.evset f) s = execEvset f s from rfl, execEvset, guarded_of_holds hg, ha]
  exact concludeNext_of_ctxs (by rfl) 8

theorem exec_evpulse_eq {f : EFields} {s : State} (hg : guardHolds s = true) (hl : (me s).loads = [])
    (hn : nestRunning s = false) :
    exec (.evpulse f) s = .next (finish (pulse s s.curCore (16 + f.n12.toNat)) 8 none) := by
  rw [show exec (.evpulse f) s = execEvpulse f s from rfl, execEvpulse, guarded_of_holds hg, drained_of_idle hl hn]
  exact concludeNext_of_ctxs (by rfl) 8

theorem exec_wfe_eq {f : EFields} {s : State} (hg : guardHolds s = true) :
    (∀ m, openTerm (myCore s) f.n12.toNat = some m →
      exec (.wfe f) s = .next (finish (onCore s s.curCore fun k => consume k m) 8 none)) ∧
    (openTerm (myCore s) f.n12.toNat = none → exec (.wfe f) s = .next (hold s (.gate f.n12.toNat))) := by
  rw [show exec (.wfe f) s = execWfe f s from rfl, execWfe, guarded_of_holds hg]
  refine ⟨fun m hm => ?_, fun hm => ?_⟩
  · rw [hm]
    exact concludeNext_of_ctxs (by rfl) 8
  · rw [hm]
    rfl

theorem sameItems_queueCopy {s t : State} {core ctx n : Nat} {im : List Byte} (h : queueCopy s core ctx im = some (n, t)) :
    SameItems s t := by
  unfold queueCopy at h
  split at h
  · cases h
  · cases h
    exact (sameItems_tlTake s ctx _).trans (.of_ctxs rfl)

theorem exec_sbind_eq {f : EFields} {s s1 : State} {im : List Byte} {n : Nat} (hg : guardHolds s = true)
    (him : readImage s f.a.toNat 8 = .ok im) (hop : imageAt im 0 1 = 4)
    (hd : field (imageAt im 2 1) 3 3 = f.dst.toNat - 0xA0) (hq : queueCopy s s.curCore (myCtx s) im = some (n, s1))
    (hn : nestRunning s = false) (hb : settled (me s1) f.b = .ok ()) :
    exec (.sbind f) s = .next (finish (written s1 f.b (word n)) 8 none) := by
  have hfields : (imageAt im 0 1 != 4 || field (imageAt im 2 1) 3 3 != f.dst.toNat - 0xA0) = false := by simp [hop, hd]
  rw [show exec (.sbind f) s = execSbind f s from rfl, execSbind, guarded_of_holds hg, him]
  simp only [bind, Except.bind, hfields, Bool.false_eq_true, if_false, hq, hn]
  rw [writeReg_of_settled hb]
  exact concludeNext_written (sameItems_queueCopy hq) _ _ 8

/-- Settles O34: each member by its outcome; a forked file names its registers by their numbers (`look_copyFile`). -/
theorem streamsAndCrossbar : Obligations.StreamsAndCrossbar := by
  unfold Obligations.StreamsAndCrossbar
  refine ⟨fun f s s1 s2 pcs hg hr hl hn hidle hpcs he hs2 => exec_fork_eq hg hr hl hn hidle hpcs he hs2,
    fun f s hg hl hn hbusy => exec_fork_busy hg hl hn hbusy,
    fun parent pc n hn => ⟨rfl, rfl, gValue_forkedStream parent pc hn, rfl, rfl⟩,
    fun f s hcc hg => exec_rdv_cc hcc hg, fun f s hcc hg hn hl => ⟨_, exec_rdv_ends hcc hg hn hl, ?ended⟩,
    fun f s v hg ha => exec_evset_eq hg ha, fun f s hg hl hn => exec_evpulse_eq hg hl hn, fun f s hg => exec_wfe_eq hg,
    fun f s s1 im n hg him hop hd hq hn hb => exec_sbind_eq hg him hop hd hq hn hb⟩
  case ended => exact streamOf_onStream_self _ _ _ _

end Sys2Proof.Slice0

namespace Sys2Proof.Slice0
open Sys2Proof.Machine

/-! ### What a write of memory and the trace leave alone (R168)

A trace entry goes to device memory: its write may reach a port window or a declared signal's bytes, and nothing else of
the machine's state. -/

/-- A core but for its declared signals and its trace. -/
def untraced (k : Core) : Core := { k with signals := [], traceBuffer := [], lastTrace := 0, traceLost := [] }
/-- Two states that differ in memory, ports, the module, interrupts, declared signals and the trace at most. -/
structure TraceKept (s t : State) : Prop where
  agenda : t.agenda = s.agenda
  curCore : t.curCore = s.curCore
  curStream : t.curStream = s.curStream
  guard : t.guard = s.guard
  free : t.free = s.free
  time : t.elapsed = s.elapsed ∧ t.mtime = s.mtime
  cores : ∀ c, untraced (coreOf t c) = untraced (coreOf s c)
  ctxs : ∀ c, untracedCtx (ctxOf t c) = untracedCtx (ctxOf s c)
  towers : t.towers = s.towers
  submits : t.submits = s.submits ∧ t.reserved = s.reserved ∧ t.lent = s.lent

namespace TraceKept

theorem refl (s : State) : TraceKept s s :=
  ⟨rfl, rfl, rfl, rfl, rfl, ⟨rfl, rfl⟩, fun _ => rfl, fun _ => rfl, rfl, rfl, rfl, rfl⟩

theorem trans {s t u : State} (h : TraceKept s t) (h' : TraceKept t u) : TraceKept s u where
  agenda := h'.agenda.trans h.agenda
  curCore := h'.curCore.trans h.curCore
  curStream := h'.curStream.trans h.curStream
  guard := h'.guard.trans h.guard
  free := h'.free.trans h.free
  time := ⟨h'.time.1.trans h.time.1, h'.time.2.trans h.time.2⟩
  cores c := (h'.cores c).trans (h.cores c)
  ctxs c := (h'.ctxs c).trans (h.ctxs c)
  towers := h'.towers.trans h.towers
  submits := ⟨h'.submits.1.trans h.submits.1, h'.submits.2.1.trans h.submits.2.1, h'.submits.2.2.trans h.submits.2.2⟩

theorem of_device {s : State} (m : Memory) (p : List Nat) (d : Module) (o : Map Port) (i x : List (Nat × Nat)) :
    TraceKept s { s with mem := m, poison := p, module := d, ports := o, irqs := i, msixPending := x } :=
  ⟨rfl, rfl, rfl, rfl, rfl, ⟨rfl, rfl⟩, fun _ => rfl, fun _ => rfl, rfl, rfl, rfl, rfl⟩

theorem onCore (s : State) (c : Nat) {f : Core → Core} (hf : ∀ k, untraced (f k) = untraced k := by intro; rfl) :
    TraceKept s (onCore s c f) where
  agenda := rfl
  curCore := rfl
  curStream := rfl
  guard := rfl
  free := rfl
  time := ⟨rfl, rfl⟩
  cores d := by
    by_cases hd : d = c
    · rw [hd, coreOf_onCore_self, hf]
    · rw [coreOf_onCore_ne s f hd]
  ctxs _ := rfl
  towers := rfl
  submits := ⟨rfl, rfl, rfl⟩

theorem onCtx (s : State) (c : Nat) {f : Ctx → Ctx} (hf : ∀ k, untracedCtx (f k) = untracedCtx k := by intro; rfl) :
    TraceKept s (onCtx s c f) where
  agenda := rfl
  curCore := rfl
  curStream := rfl
  guard := rfl
  free := rfl
  time := ⟨rfl, rfl⟩
  cores _ := rfl
  ctxs d := by
    by_cases hd : d = c
    · rw [hd, ctxOf_onCtx_self, hf]
    · rw [ctxOf_onCtx_ne s f hd]
  towers := rfl
  submits := ⟨rfl, rfl, rfl⟩

theorem traceFrame : TraceFrame TraceKept where
  refl := refl
  trans := trans
  device _ := of_device
  taint s core _ _ _ := onCore s core
  buffer s core _ hf := onCore s core fun k => by
    have h := congrArg (fun k : Core => { k with signals := [] }) (hf k)
    exact h
  place s ctx _ hf := onCtx s ctx hf

theorem storePieces (s : State) (ps : List (Loc × Nat)) (bs : List Byte) : TraceKept s (storePieces s ps bs) :=
  traceFrame.storePieces s ps bs

theorem of_writeSpace {s t : State} {ctx a : Nat} {virtual : Bool} {bs : List Byte}
    (h : writeSpace s ctx virtual a bs = some t) : TraceKept s t := traceFrame.of_writeSpace h

theorem trace (s : State) (core kind src payload : Nat) : TraceKept s (trace s core kind src payload) :=
  traceFrame.trace s core kind src payload

/-! #### What follows -/

theorem coreField {α : Type} {s t : State} (h : TraceKept s t) (g : Core → α)
    (hg : ∀ k, g (untraced k) = g k := by intro; rfl) (c : Nat) : g (coreOf t c) = g (coreOf s c) := by
  rw [← hg, h.cores, hg]

theorem ctxField {α : Type} {s t : State} (h : TraceKept s t) (g : Ctx → α)
    (hg : ∀ k, g (untracedCtx k) = g k := by intro; rfl) (c : Nat) : g (ctxOf t c) = g (ctxOf s c) := by
  rw [← hg, h.ctxs, hg]

theorem sameItems {s t : State} (h : TraceKept s t) : SameItems s t := fun c =>
  ⟨h.ctxField (fun x => x.itwait) (c := c), h.ctxField (fun x => x.itheld) (c := c)⟩

theorem sameStreams {s t : State} (h : TraceKept s t) : SameStreams s t :=
  ⟨h.curCore, h.curStream, fun c => h.coreField (fun k => k.streams) (c := c),
    fun c => h.coreField (fun k => k.handler) (c := c)⟩

end TraceKept

end Sys2Proof.Slice0

namespace Sys2Proof.Slice0
open Sys2Proof.Machine

/-! ### Halting the cores of a scope (R157, R158) -/

/-- What halting a core leaves alone: every stream and slice, and the contexts' halts, records and numbers. -/
structure HaltKept (s t : State) : Prop where
  streams : ∀ c n, streamOf (coreOf t c) n = streamOf (coreOf s c) n
  slice : ∀ c, (coreOf t c).slice = (coreOf s c).slice
  records : ∀ c, (ctxOf t c).records = (ctxOf s c).records
  hseq : ∀ c, (ctxOf t c).hseq = (ctxOf s c).hseq

theorem HaltKept.refl (s : State) : HaltKept s s := ⟨fun _ _ => rfl, fun _ => rfl, fun _ => rfl, fun _ => rfl⟩

theorem HaltKept.trans {s t u : State} (h : HaltKept s t) (h' : HaltKept t u) : HaltKept s u :=
  ⟨fun c n => (h'.streams c n).trans (h.streams c n), fun c => (h'.slice c).trans (h.slice c),
    fun c => (h'.records c).trans (h.records c), fun c => (h'.hseq c).trans (h.hseq c)⟩

theorem haltKept_haltCore (reason hseq : Nat) (s : State) (core : Nat) : HaltKept s (haltCore reason hseq s core) := by
  have htrace := TraceKept.trace s core 7 0 (reason % 2 ^ 16 + hseq % 2 ^ 32 * 2 ^ 16)
  have hcore : ∀ {α : Type} (g : Core → α) (_ : ∀ k, g (untraced k) = g k)
      (_ : ∀ k : Core, g { k with halted := true, haltTime := s.mtime, haltCycle := k.cycle } = g k) (c : Nat),
      g (coreOf (haltCore reason hseq s core) c) = g (coreOf s c) := by
    intro α g hg hh c
    rw [← htrace.coreField g hg c, haltCore]
    by_cases hc : c = core
    · rw [hc, coreOf_onCore_self, hh]
    · rw [coreOf_onCore_ne _ _ hc]
  exact ⟨fun c n => hcore (fun k => streamOf k n) (fun _ => rfl) (fun _ => rfl) c,
    fun c => hcore (fun k => k.slice) (fun _ => rfl) (fun _ => rfl) c,
    fun c => htrace.ctxField (fun x => x.records) (c := c), fun c => htrace.ctxField (fun x => x.hseq) (c := c)⟩

theorem halted_haltCore (reason hseq : Nat) (s : State) (core c : Nat) :
    (coreOf (haltCore reason hseq s core) c).halted = (decide (c = core) || (coreOf s c).halted) := by
  have htrace := TraceKept.trace s core 7 0 (reason % 2 ^ 16 + hseq % 2 ^ 32 * 2 ^ 16)
  rw [haltCore]
  by_cases hc : c = core
  · rw [hc, coreOf_onCore_self, decide_eq_true rfl, Bool.true_or]
  · rw [coreOf_onCore_ne _ _ hc, decide_eq_false hc, Bool.false_or]
    exact htrace.coreField (fun k => k.halted) (c := c)

theorem haltKept_foldl (reason hseq : Nat) (cs : List Nat) (s : State) :
    HaltKept s (cs.foldl (haltCore reason hseq) s) := by
  induction cs generalizing s with
  | nil => exact .refl s
  | cons c cs ih => exact (haltKept_haltCore reason hseq s c).trans (ih _)

theorem halted_foldl (reason hseq : Nat) (cs : List Nat) (s : State) (c : Nat) :
    (coreOf (cs.foldl (haltCore reason hseq) s) c).halted = (decide (c ∈ cs) || (coreOf s c).halted) := by
  induction cs generalizing s with
  | nil => simp
  | cons d cs ih =>
    rw [List.foldl_cons, ih, halted_haltCore]
    by_cases hd : c = d <;> simp [hd]

theorem ctxOf_haltOver (s : State) (ctx : Nat) (cores : List Nat) (core stream reason : Nat) (info : Word) :
    (ctxOf (haltOver s ctx cores core stream reason info) ctx).hseq = (ctxOf s ctx).hseq + 1 ∧
    (ctxOf (haltOver s ctx cores core stream reason info) ctx).halt = some
      { origin := core, stream := stream, reason := reason, info := info, cores := cores
        hseq := (ctxOf s ctx).hseq + 1, paging := reason == 0x26 } := by
  rw [haltOver, ctxOf_onCtx_self]
  exact ⟨rfl, rfl⟩

/-! ### The stop record (R159) -/

/-- A stream with the stop record of an event it raised. -/
def stopped (reason : Nat) (info pc : Word) (st : Stream) : Stream :=
  { st with reason := BitVec.ofNat 16 reason, faulted := reason != 0x11, faultPc := pc, info := info, replay := false }

theorem streamOf_recordStop (s : State) (core stream reason : Nat) (info pc : Word) (c n : Nat) :
    streamOf (coreOf (recordStop s core stream reason info pc) c) n =
      if c = core ∧ n = stream then stopped reason info pc (streamOf (coreOf s c) n) else streamOf (coreOf s c) n := by
  rw [recordStop, onStream]
  by_cases hc : c = core
  · subst hc
    rw [coreOf_onCore_self]
    by_cases hn : n = stream
    · subst hn
      rw [streamOf_put_self, coreOf_onCore_self, if_pos ⟨rfl, rfl⟩]
      rfl
    · rw [streamOf_put_ne _ _ hn, coreOf_onCore_self, if_neg fun h => hn h.2]
      rfl
  · rw [coreOf_onCore_ne _ _ hc, coreOf_onCore_ne _ _ hc, if_neg fun h => hc h.1]

theorem coreField_recordStop {α : Type} (s : State) (core stream reason : Nat) (info pc : Word) (g : Core → α)
    (hg : ∀ (k : Core) (f : Option Nat) (m : Map Stream), g { k with firstStop := f, streams := m } = g k) (c : Nat) :
    g (coreOf (recordStop s core stream reason info pc) c) = g (coreOf s c) := by
  rw [recordStop, onStream]
  by_cases hc : c = core
  · subst hc
    rw [coreOf_onCore_self, coreOf_onCore_self]
    exact hg (coreOf s c) (some ((coreOf s c).firstStop.getD stream)) _
  · rw [coreOf_onCore_ne _ _ hc, coreOf_onCore_ne _ _ hc]

theorem scopeOf_recordStop (s : State) (core stream reason : Nat) (info pc : Word) (ctx c r : Nat) :
    scopeOf (recordStop s core stream reason info pc) ctx c r = scopeOf s ctx c r := by
  have hslice : ∀ d, (coreOf (recordStop s core stream reason info pc) d).slice = (coreOf s d).slice :=
    coreField_recordStop s core stream reason info pc (fun k => k.slice) fun _ _ _ => rfl
  simp only [scopeOf, sliceRecord, coresOf, hslice]
  rfl

theorem takeException_eq {s : State} {core stream reason : Nat} {info pc : Word}
    (hh : (coreOf s core).handler = none) (hhalt : (ctxOf s (coreCtx s core)).halt = none) :
    takeException s core stream reason info pc = haltOver (recordStop s core stream reason info pc) (coreCtx s core)
      (scopeOf s (coreCtx s core) core reason) core stream reason info := by
  have hkept : (ctxOf (recordStop s core stream reason info pc) (coreCtx s core)).halt = none := hhalt
  simp only [takeException, hh, Option.isSome_none, Bool.and_false, Bool.false_eq_true, if_false, hkept, startHalt,
    scopeOf_recordStop]

theorem mem_coresOf {s : State} {core : Nat} (hcore : core < Config.cores) (hslice : (coreOf s core).slice.isSome = true) :
    core ∈ coresOf s (coreCtx s core) := by
  obtain ⟨l, hl⟩ := Option.isSome_iff_exists.1 hslice
  rw [coresOf, List.mem_filter, List.mem_range]
  exact ⟨hcore, by simp [coreCtx, hl]⟩

theorem exceptionEntryRecordsAndHalts : ExceptionEntryRecordsAndHalts := by
  intro s core stream reason info pc hh hhalt hreason hcore hslice
  have hkept := haltKept_foldl reason ((ctxOf s (coreCtx s core)).hseq + 1) (scopeOf s (coreCtx s core) core reason)
    (recordStop s core stream reason info pc)
  have hhalted : ∀ c, (coreOf (haltOver (recordStop s core stream reason info pc) (coreCtx s core)
      (scopeOf s (coreCtx s core) core reason) core stream reason info) c).halted =
      (decide (c ∈ scopeOf s (coreCtx s core) core reason) || (coreOf s c).halted) := by
    intro c
    rw [← coreField_recordStop s core stream reason info pc (fun k => k.halted) (fun _ _ _ => rfl) c]
    exact halted_foldl reason _ _ _ c
  have hstream : ∀ c n, streamOf (coreOf (haltOver (recordStop s core stream reason info pc) (coreCtx s core)
      (scopeOf s (coreCtx s core) core reason) core stream reason info) c) n =
      if c = core ∧ n = stream then stopped reason info pc (streamOf (coreOf s c) n) else streamOf (coreOf s c) n :=
    fun c n => (hkept.streams c n).trans (streamOf_recordStop s core stream reason info pc c n)
  obtain ⟨hseq, hrecord⟩ := ctxOf_haltOver (recordStop s core stream reason info pc) (coreCtx s core)
    (scopeOf s (coreCtx s core) core reason) core stream reason info
  refine ⟨_, takeException_eq hh hhalt, ?_, ?_, ?_, ?_, fun c n hne => ?others, fun h10 h11 => ?partition,
    fun hslc r hr => ?slice, _, hrecord, rfl, rfl, rfl, rfl, rfl, hseq, rfl, rfl⟩
  · rw [hstream, if_pos ⟨rfl, rfl⟩]
    exact ofNat_toNat_of_lt hreason
  · rw [hstream, if_pos ⟨rfl, rfl⟩]
    rfl
  · rw [hstream, if_pos ⟨rfl, rfl⟩]
    rfl
  · rw [hstream, if_pos ⟨rfl, rfl⟩, stopped]
    by_cases h : reason = 0x11 <;> simp [h]
  case others =>
    rw [hstream, if_neg fun h => hne.elim (absurd h.1) (absurd h.2)]
  case partition =>
    have hscope : scopeOf s (coreCtx s core) core reason = coresOf s (coreCtx s core) := by simp [scopeOf, h10, h11]
    have hall : ∀ c ∈ coresOf s (coreCtx s core), (coreOf (haltOver (recordStop s core stream reason info pc)
        (coreCtx s core) (scopeOf s (coreCtx s core) core reason) core stream reason info) c).halted = true := by
      intro c hc
      rw [hhalted, hscope, decide_eq_true hc, Bool.true_or]
    exact ⟨hall core (mem_coresOf hcore hslice), hall⟩
  case slice =>
    have hscope : scopeOf s (coreCtx s core) core reason = recordCores r := by
      have hcase : (reason == 0x10 || reason == 0x11) = true := by simpa using hslc
      simp [scopeOf, hcase, hr]
    refine ⟨fun c hc => ?_, fun c hc => ?_⟩
    · rw [hhalted, hscope, decide_eq_true hc, Bool.true_or]
    · rw [hhalted, hscope, decide_eq_false hc, Bool.false_or]

/-! ### The handler's files at entry (R164) -/

theorem gKey_of_lpass_zero {st : Stream} (h : st.lpass = 0) {n : Nat} (hn : n < 128) : gKey st n = n := by
  have hpass : st.lpass.toNat = 0 := by rw [h]; rfl
  simp only [gKey, stagedSlot, hpass, unsigned]
  split <;> omega

theorem handlerEntryFile : HandlerEntryFile := by
  intro s ctx h entry
  have hvalue : ∀ n, n < 128 → gValue (handlerFile s ctx h entry) n =
      if n == 0 then 0 else look 0 (handlerFile s ctx h entry).g n := by
    intro n hn
    rw [gValue, gKey_of_lpass_zero rfl hn]
  refine ⟨_, rfl, rfl, ?_, ?_, ?_, ?_, ?_, ?_, fun n hn hnot => ?zero, fun n hn => ?live, rfl⟩
  · rw [hvalue 1 (by decide)]
    exact (BitVec.ofNat_add _ _).symm
  · rw [hvalue 2 (by decide)]
    rfl
  · rw [hvalue 3 (by decide)]
    rfl
  · rw [hvalue 8 (by decide)]
    rfl
  · rw [hvalue 9 (by decide)]
    rfl
  · rw [hvalue 10 (by decide)]
    rfl
  case zero =>
    rw [hvalue n hn]
    simp only [List.mem_cons, List.not_mem_nil, or_false, not_or] at hnot
    obtain ⟨h1, h2, h3, h8, h9, h10⟩ := hnot
    simp [handlerFile, look, Ne.symm h1, Ne.symm h2, Ne.symm h3, Ne.symm h8, Ne.symm h9, Ne.symm h10]
  case live =>
    have hall : (handlerFile s ctx h entry).qlive = BitVec.allOnes 16 := rfl
    rw [qLive, hall, flag_eq_getLsbD, BitVec.getLsbD_allOnes, decide_eq_true hn]

/-- Settles O37: the exception is a stop record and a halt over its scope (`takeException_eq`), which reaches only the
halt lines of the scope (`halted_foldl`); the handler's file is read off its six entries. -/
theorem exceptionEntry : Obligations.ExceptionEntry := ⟨exceptionEntryRecordsAndHalts, handlerEntryFile⟩

/-! ### TRAP, BKPT and ERET (R164, R320) -/

/-- Settles O36: TRAP and BKPT are `raise` under a true guard; ERET returns by the ACTION it reads. -/
theorem trapsTakeException : Obligations.TrapsTakeException := by
  unfold Obligations.TrapsTakeException
  refine ⟨fun f s hg => ⟨if_pos hg, if_pos hg⟩, fun s hg hr hw a t ha => ?eret⟩
  case eret =>
    have hover : ∀ r, itemsOver s r = false := fun r => itemsOver_of_room hr
    rw [show exec .eret s = execEret s from rfl, execEret]
    simp only [hg, Bool.not_true, Bool.false_eq_true, if_false, hw, ha, hover]

end Sys2Proof.Slice0

namespace Sys2Proof.Slice0
open Sys2Proof.Machine

/-! ### Posting an item record keeps the streams; a record of the store keeps the items -/

namespace SameStreams

theorem of_writeSpace {s t : State} {ctx va : Nat} {host : Bool} {bs : List Byte}
    (h : writeSpace s ctx host va bs = some t) : SameStreams s t := by
  unfold writeSpace at h
  split at h
  · rw [← Option.some.inj h]
    exact writePieces s _ bs
  · cases h

theorem raiseIrq (s : State) (fn vec : Nat) : SameStreams s (raiseIrq s fn vec) := by
  obtain ⟨i, p, h⟩ := raiseIrq_eq s fn vec
  rw [h]
  exact of_cores rfl rfl rfl

theorem of_postNow {s t : State} {ctx : Nat} {i : Item} (h : postNow s ctx i = some t) : SameStreams s t := by
  simp only [postNow] at h
  split at h
  · cases h
  · split at h
    · cases h
    · next hw =>
      rw [← Option.some.inj h]
      exact (of_writeSpace hw).trans ((onCtx _ ctx _).trans (ite_left (raiseIrq _ _ _)))

theorem enterItem (s : State) (ctx : Nat) (i : Item) : SameStreams s (enterItem s ctx i) := by
  have hmatch : ∀ o : Option State, (∀ t, o = some t → SameStreams s t) → SameStreams s (match o with
      | some s => s
      | none => Machine.onCtx s ctx fun c =>
        { c with itwait := c.itwait ++ [i], itfull := c.itfull || flag (reg c 0x18B0) 31 }) := by
    intro o ho
    cases o with
    | none => exact onCtx s ctx _
    | some t => exact ho t rfl
  refine hmatch _ fun t ht => ?_
  split at ht
  · exact of_postNow ht
  · cases ht

theorem postItem (s : State) (ctx : Nat) (i : Item) : SameStreams s (postItem s ctx i) := by
  simp only [Machine.postItem]
  split
  · exact enterItem s ctx i
  · exact onCtx s ctx _

theorem walkReport (s : State) (ctx source kind a n : Nat) : SameStreams s (walkReport s ctx source kind a n) := by
  unfold Machine.walkReport
  split
  · exact ite_left (onCtx s ctx _)
  · exact refl s

theorem rangePoison (s : State) (ctx ptr unit : Nat) : SameStreams s (rangePoison s ctx ptr unit) := by
  unfold Machine.rangePoison
  exact ite_right (by split; exacts [postItem s ctx _, walkReport s ctx _ _ _ _])

theorem rangeItem (s : State) (ranges : Nat) : SameStreams s (rangeItem s ranges) := postItem s _ _

end SameStreams

theorem sameItems_putRecord (s : State) (ctx i : Nat) (r : Record) : SameItems s (putRecord s ctx i r) := by
  unfold putRecord recordImage
  exact (SameItems.onCtx s ctx).trans (.of_ctxs (writeAt_ctxs _ _ _))

theorem sameItems_onRecord (s : State) (ctx i : Nat) (f : Record → Record) : SameItems s (onRecord s ctx i f) := by
  unfold onRecord
  split
  · exact .refl s
  · exact sameItems_putRecord s ctx i _

theorem sameItems_joinDown (s : State) (ctx i : Nat) : SameItems s (joinDown s ctx i) := sameItems_onRecord s ctx i _

theorem sameItems_writePred (s : State) (r : BitVec 8) (b : Bool) : SameItems s (writePred s r b) := .of_ctxs (by rfl)

/-- What the three outcomes of a submission leave (R97-R100). -/
theorem accept_cases {s t : State} {ctx : Nat} {r : Record} {a : Accepted} (h : accept s ctx r = (a, t)) :
    (a = .full ∧ t = s) ∨ (a = .badRanges ∧ t = rangePoison s ctx r.ranges r.unit) ∨
      ∃ i r' free, a = .at i ∧ t = putRecord { s with free := free, submits := s.submits + 1 } ctx i r' := by
  simp only [accept] at h
  split at h
  · cases h
    exact .inl ⟨rfl, rfl⟩
  · split at h
    · cases h
      exact .inr (.inl ⟨rfl, rfl⟩)
    · split at h
      · cases h
        exact .inl ⟨rfl, rfl⟩
      · cases h
        exact .inr (.inr ⟨_, _, s.free + 1, rfl, rfl⟩)

/-! ### SPAWN and JOIN (R315, R316) -/

section
variable {f : EFields} {s t : State} {im : List Byte} (hg : guardHolds s = true)
  (him : readImage s f.a.toNat 8 = .ok im) (hok : recordFieldsOk im = true)
  (hnow : rangesWait s (myCtx s) (imageAt im 34 6) = false)
include hg him hok hnow

theorem exec_spawn_at {i : Nat} (ha : accept s (myCtx s) (recordFrom im) = (.at i, t))
    (hs : settled (me t) f.dst = .ok ()) : exec (.spawn f) s = .next (finish (written t f.dst (word i)) 8 none) := by
  have hitems : SameItems s t := by
    obtain ⟨h, -⟩ | ⟨h, -⟩ | ⟨j, r, free, -, rfl⟩ := accept_cases ha
    · cases h
    · cases h
    · exact sameItems_putRecord { s with free := free, submits := s.submits + 1 } _ j r
  rw [show exec (.spawn f) s = execSpawn f s from rfl, execSpawn, guarded_of_holds hg, him]
  simp only [bind, Except.bind, hok, hnow, ha, Bool.not_true, Bool.false_eq_true, if_false]
  rw [writeReg_of_settled hs]
  exact concludeNext_written hitems _ _ 8

theorem exec_spawn_badRanges (hr : roomForItems s) (ha : accept s (myCtx s) (recordFrom im) = (.badRanges, t))
    (hs : settled (me s) f.dst = .ok ()) : exec (.spawn f) s =
      .next (finish (written (rangeItem t (imageAt im 34 6)) f.dst 0xFFFFFFFF) 8 none) := by
  have hstreams : SameStreams s (rangeItem t (imageAt im 34 6)) := by
    obtain ⟨h, -⟩ | ⟨-, rfl⟩ | ⟨j, r, free, h, -⟩ := accept_cases ha
    · cases h
    · exact (SameStreams.rangePoison s _ _ _).trans (.rangeItem _ _)
    · cases h
  rw [show exec (.spawn f) s = execSpawn f s from rfl, execSpawn, guarded_of_holds hg, him]
  simp only [bind, Except.bind, hok, hnow, ha, Bool.not_true, Bool.false_eq_true, if_false]
  rw [writeReg_of_settled (by rw [hstreams.me_eq]; exact hs)]
  exact concludeNext_of_room hr _ 8

theorem exec_spawn_full (ha : accept s (myCtx s) (recordFrom im) = (.full, t)) :
    exec (.spawn f) s = .next (hold s (.cause 4)) := by
  rw [show exec (.spawn f) s = execSpawn f s from rfl, execSpawn, guarded_of_holds hg, him]
  simp only [bind, Except.bind, hok, hnow, ha, Bool.not_true, Bool.false_eq_true, if_false]
  rfl

end

theorem exec_join_eq {f : EFields} {s : State} {v : Word} (hg : guardHolds s = true) (ha : readGQ s f.a = .ok v)
    (h22 : v.toNat < 2 ^ 22) (hsize : v.toNat < storeSize (ctxOf s (myCtx s))) :
    exec (.join f) s = .next (finish (writePred (joinDown s (myCtx s) v.toNat) f.dst
      (!((recordOf s (myCtx s) v.toNat).map (·.state) == some .waiting))) 8 none) := by
  have hin : (2 ^ 22 ≤ v.toNat || storeSize (ctxOf s (myCtx s)) ≤ v.toNat) = false := by
    simp only [Bool.or_eq_false_iff, decide_eq_false_iff_not, not_le]
    exact ⟨h22, hsize⟩
  rw [show exec (.join f) s = execJoin f s from rfl, execJoin, guarded_of_holds hg, ha]
  simp only [bind, Except.bind, hin, Bool.false_eq_true, if_false]
  exact ((sameItems_joinDown s _ _).trans (sameItems_writePred _ _ _)).concludeNext 8

section
variable {f : EFields} {s : State} {ea : Word} (hg : guardHolds s = true) (ha : readGQ s f.a = .ok ea)
  (hr : roomForItems s) (h32 : ea.toNat % 32 = 0) (h0 : eaSpace ea = 0)
include hg ha hr h32 h0

theorem exec_joinBatch_eq {s1 s2 : State} {im : List Byte} (hp : poisonVirtual s (myCtx s) ea.toNat 32 = false)
    (hl : loadBytes s 2 ea 32 = .ok (im, s1)) (hctx : imageAt im 25 1 % 128 = myCtx s1) (hd : imageAt im 27 1 % 2 = 0)
    (hst : storeBytes s1 2 (ea + 27) (toBytes 1 (imageAt im 27 1 + 1)) = .ok s2) :
    exec (.joinBatch f) s = .next (finish (writePred (joinDown (markTaken s2 (myCtx s2) ea.toNat) (myCtx s2)
      (imageAt im 17 3 % 2 ^ 22)) f.dst false) 8 none) := by
  have hal : aligned ea 32 = .ok () := by simp [aligned, h32]
  have hown : (imageAt im 25 1 % 128 != myCtx s1) = false := by simp [hctx]
  have hdone : (imageAt im 27 1 % 2 == 1) = false := by simp [hd]
  rw [show exec (.joinBatch f) s = execJoinBatch f s from rfl, execJoinBatch, guarded_of_holds hg, ha]
  simp only [bind, Except.bind, hal, h0, bne_self_eq_false, Bool.false_eq_true, if_false, joinLost, hp, Bool.not_false,
    if_true, hl, hown, hdone, hst]
  exact concludeNext_of_room hr _ 8

theorem exec_joinBatch_lost {t : State} (hlost : joinLost s (myCtx s) ea.toNat = some t) :
    exec (.joinBatch f) s = .next (finish (writePred t f.dst true) 8 none) := by
  have hal : aligned ea 32 = .ok () := by simp [aligned, h32]
  rw [show exec (.joinBatch f) s = execJoinBatch f s from rfl, execJoinBatch, guarded_of_holds hg, ha]
  simp only [bind, Except.bind, hal, h0, bne_self_eq_false, Bool.false_eq_true, if_false, hlost]
  exact concludeNext_of_room hr _ 8

end

/-! ### YIELD, DONE, GBAR, BUDGET and TLBINV -/

theorem slicePart_of_idle {s : State} (hidle : ∀ n, n < 6 → (streamOf (myCore s) (n + 1)).status = .idle)
    (hc : (myCore s).copies = []) : slicePart s = .ok s := by
  have hany : ((List.range 6).any fun n => (streamOf (myCore s) (n + 1)).status != .idle) = false := by
    rw [List.any_eq_false]
    intro n hn
    simp [hidle n (List.mem_range.1 hn)]
  simp only [slicePart, hany, hc, List.isEmpty_nil, Bool.not_true, Bool.false_eq_true, if_false]

theorem endPart_eq {s : State} (how : Status) (keep : Bool) (hg : guardHolds s = true)
    (hidle : ∀ n, n < 6 → (streamOf (myCore s) (n + 1)).status = .idle) (hc : (myCore s).copies = []) :
    endPart s how keep =
      .next (finish (onMe s fun st => { st with status := how, wbs := if keep then st.wbs else [] }) 8 none) := by
  rw [endPart, guarded_of_holds hg, slicePart_of_idle hidle hc]
  exact concludeNext_of_ctxs (by rfl) 8

theorem exec_gbar_eq {f : EFields} {s : State} (hg : guardHolds s = true) (hl : (me s).loads = []) :
    exec (.gbar f) s = (let s1 := onCore s s.curCore fun k => arrive k f.n12.toNat
      if barrierDone s1 s1.curCore f.n12.toNat then
        .next (finish (onCore s1 s1.curCore fun k => { k with arrived := none }) 8 none)
      else .next (hold s1 (.cause 10))) := by
  simp only [show exec (.gbar f) s = execGbar f s from rfl, execGbar, hg, hl, Bool.not_true, Bool.false_eq_true, if_false,
    List.isEmpty_nil]

theorem exec_budget_eq {f : EFields} {s : State} {l : Slice} {r : Record} (hg : guardHolds s = true)
    (hl : (myCore s).slice = some l) (hrec : recordOf s l.ctx l.index = some r) (hx : r.extended = false) :
    exec (.budget f) s = .next (finish (writePred (onRecord s l.ctx l.index fun r => { r with extended := true })
      f.dst false) 8 none) := by
  have hmine : myRecord s = some r := by
    rw [myRecord, sliceRecord, show coreOf s s.curCore = myCore s from rfl, hl]
    exact hrec
  rw [show exec (.budget f) s = execBudget f s from rfl, execBudget, guarded_of_holds hg]
  simp only [hmine, hl, Option.map_some, Option.getD_some, hx, Bool.false_eq_true, if_false]
  exact ((sameItems_onRecord s l.ctx l.index _).trans (sameItems_writePred _ _ _)).concludeNext 8

section
variable {f : EFields} {s : State} {a n : Word} (hg : guardHolds s = true) (ha : readGQ s f.a = .ok a)
  (hb : readGQ s f.b = .ok n)
include hg ha hb

theorem exec_tlbinv_eq (h0 : eaSpace a = 0) (hal : a.toNat % pageSize f.opt.toNat = 0)
    (hin : a.toNat + n.toNat * pageSize f.opt.toNat ≤ 2 ^ 56) {b m : Nat}
    (hrange : tlbRange a.toNat n.toNat (pageSize f.opt.toNat) = (b, m)) (hmeet : loadsMeet s (myCtx s) b m = false) :
    exec (.tlbinv f) s = .next (finish (invalidate s (myCtx s) b m) 8 none) := by
  have hlegal : (a.toNat % pageSize f.opt.toNat != 0 || decide (2 ^ 56 < a.toNat + n.toNat * pageSize f.opt.toNat)) = false := by
    rw [hal, bne_self_eq_false, Bool.false_or, decide_eq_false_iff_not]
    exact not_lt.2 hin
  rw [show exec (.tlbinv f) s = execTlbinv f s from rfl, execTlbinv, guarded_of_holds hg, ha, hb]
  simp only [bind, Except.bind, h0, bne_self_eq_false, Bool.false_eq_true, if_false, hlegal, hrange, hmeet]
  exact concludeNext_of_ctxs (by rfl) 8

theorem exec_tlbinv_space (h0 : eaSpace a ≠ 0) : exec (.tlbinv f) s = .next (trapState s (.event 0x09 (some a))) := by
  have hspace : (eaSpace a != 0) = true := by simpa using h0
  rw [show exec (.tlbinv f) s = execTlbinv f s from rfl, execTlbinv, guarded_of_holds hg, ha, hb]
  simp only [bind, Except.bind, hspace, if_true]
  rfl

end

/-- Settles O35: each member's outcome by its own lemma; SPAWN by the three ends of a submission (`accept_cases`). -/
theorem taskInstructionsComplete : Obligations.TaskInstructionsComplete := by
  unfold Obligations.TaskInstructionsComplete
  refine ⟨fun f s t im i hg him hok hnow ha hs => exec_spawn_at hg him hok hnow ha hs,
    fun f s t im hg hr him hok hnow hs =>
      ⟨fun ha => exec_spawn_badRanges hg him hok hnow hr ha hs, fun ha => exec_spawn_full hg him hok hnow ha⟩,
    fun f s v hg ha h22 hsize => exec_join_eq hg ha h22 hsize,
    fun f s s1 s2 ea im hg ha hr h32 h0 hp hl hctx hd hst => exec_joinBatch_eq hg ha hr h32 h0 hp hl hctx hd hst,
    fun f s t ea hg ha hr h32 h0 hlost => exec_joinBatch_lost hg ha hr h32 h0 hlost,
    fun s hg hidle hc => ⟨endPart_eq .yielded true hg hidle hc, endPart_eq .done false hg hidle hc⟩, ?gbar,
    fun f s l r hg hl hrec hx => exec_budget_eq hg hl hrec hx, ?tlbinv,
    fun f s a n hg ha hb h0 => exec_tlbinv_space hg ha hb h0⟩
  case gbar =>
    rintro f s s1 hg hl rfl
    rw [exec_gbar_eq hg hl]
    exact ⟨fun h => if_pos h, fun h => if_neg (ne_true_of_eq_false h)⟩
  case tlbinv =>
    intro f s a n hg ha hb h0 hal hin
    refine ⟨fun hn hmeet => exec_tlbinv_eq hg ha hb h0 hal hin (by simp [tlbRange, hn]) hmeet,
      fun hn hmeet => exec_tlbinv_eq hg ha hb h0 hal hin ?_ hmeet⟩
    have hne : n.toNat ≠ 0 := fun h => hn (BitVec.eq_of_toNat_eq h)
    simp [tlbRange, hne]

end Sys2Proof.Slice0

namespace Sys2Proof.Slice0
open Sys2Proof.Machine

/-! ### Timelines (R60, R140) -/

theorem tlOf_onCtx_self (s : State) (ctx key : Nat) (f : Ctx → Ctx) :
    tlOf (onCtx s ctx f) ctx key = look {} (f (ctxOf s ctx)).timelines key := by
  rw [tlOf, ctxOf_onCtx_self]

theorem tlOf_tlTake_self (s : State) (ctx key : Nat) :
    tlOf (tlTake s ctx key).2 ctx key = { tlOf s ctx key with taken := (tlOf s ctx key).taken + 1 } := by
  rw [tlTake, tlOf_onCtx_self, look_put_self]

theorem tlOf_tlTake_ne (s : State) (ctx : Nat) {key k : Nat} (h : k ≠ key) :
    tlOf (tlTake s ctx key).2 ctx k = tlOf s ctx k := by
  rw [tlTake, tlOf_onCtx_self, look_put_ne _ _ _ h, tlOf]

theorem tlOf_tlDone_self (s : State) (ctx key n : Nat) :
    tlOf (tlDone s ctx key n) ctx key = tlComplete (tlOf s ctx key) n := by
  rw [tlDone, tlOf_onCtx_self, look_put_self, tlOf]

/-- Settling raises the value over numbers that are done, and takes just those out. -/
theorem tlSettle_spec (fuel : Nat) (t : Timeline) : t.value ≤ (tlSettle fuel t).value ∧
    (∀ m, t.value < m → m ≤ (tlSettle fuel t).value → m ∈ t.done) ∧
    (∀ m, m ∈ (tlSettle fuel t).done ↔ m ∈ t.done ∧ ¬ (t.value < m ∧ m ≤ (tlSettle fuel t).value)) := by
  induction fuel generalizing t with
  | zero => exact ⟨le_rfl, fun m h h' => absurd (lt_of_lt_of_le h h') (lt_irrefl _),
      fun m => ⟨fun h => ⟨h, fun h' => absurd (lt_of_lt_of_le h'.1 h'.2) (lt_irrefl _)⟩, fun h => h.1⟩⟩
  | succ fuel ih =>
    rw [tlSettle]
    split
    · next hnext =>
      obtain ⟨hle, hin, hdone⟩ := ih { t with value := t.value + 1, done := t.done.filter fun n => n != t.value + 1 }
      refine ⟨Nat.le_of_succ_le hle, fun m hm hm' => ?_, fun m => (hdone m).trans ?_⟩
      · obtain rfl | hlt := Nat.eq_or_lt_of_le (Nat.succ_le_of_lt hm)
        · exact List.contains_iff_mem.1 hnext
        · exact (List.mem_filter.1 (hin m hlt hm')).1
      · simp only [List.mem_filter, bne_iff_ne, ne_eq] at hle ⊢
        constructor
        · rintro ⟨⟨hm, hne⟩, hout⟩
          exact ⟨hm, fun h => hout ⟨by omega, h.2⟩⟩
        · rintro ⟨hm, hout⟩
          exact ⟨⟨hm, fun h => hout ⟨by omega, by omega⟩⟩, fun h => hout ⟨by omega, h.2⟩⟩
    · exact ⟨le_rfl, fun m h h' => absurd (lt_of_lt_of_le h h') (lt_irrefl _),
        fun m => ⟨fun h => ⟨h, fun h' => absurd (lt_of_lt_of_le h'.1 h'.2) (lt_irrefl _)⟩, fun h => h.1⟩⟩

/-- With fuel for every number done, no number just above the settled value is left. -/
theorem tlSettle_next {fuel : Nat} {t : Timeline} (h : t.done.length ≤ fuel) :
    (tlSettle fuel t).value + 1 ∉ (tlSettle fuel t).done := by
  induction fuel generalizing t with
  | zero =>
    rw [tlSettle, List.length_eq_zero_iff.1 (Nat.le_zero.1 h)]
    exact List.not_mem_nil
  | succ fuel ih =>
    rw [tlSettle]
    split
    · next hnext =>
      refine ih (t := { t with value := t.value + 1, done := t.done.filter fun n => n != t.value + 1 })
        (Nat.le_of_lt_succ (lt_of_lt_of_le ?_ h))
      exact List.length_filter_lt_length_iff_exists.2 ⟨_, List.contains_iff_mem.1 hnext, by simp⟩
    · next hnext => simpa using hnext

/-- A new number, above the value and not done, joins the numbers done before they settle. -/
theorem tlComplete_new {t : Timeline} {n : Nat} (hn : t.value < n) (hd : n ∉ t.done) :
    tlComplete t n = tlSettle (t.done.length + 1) { t with done := t.done ++ [n] } := by
  rw [tlComplete, if_neg (by simp [hn, hd])]

theorem tlComplete_old {t : Timeline} {n : Nat} (h : n ≤ t.value ∨ n ∈ t.done) : tlComplete t n = t := by
  rw [tlComplete, if_pos (by simpa using h)]

/-- Either a number changes nothing, or it is new. -/
theorem tlComplete_cases (t : Timeline) (n : Nat) : (n ≤ t.value ∨ n ∈ t.done) ∨ (t.value < n ∧ n ∉ t.done) := by
  by_cases h : n ≤ t.value ∨ n ∈ t.done
  · exact .inl h
  · rw [not_or, not_le] at h
    exact .inr h

theorem tlComplete_le (t : Timeline) (n : Nat) : t.value ≤ (tlComplete t n).value := by
  obtain h | ⟨hn, hd⟩ := tlComplete_cases t n
  · rw [tlComplete_old h]
  · rw [tlComplete_new hn hd]
    exact (tlSettle_spec _ { t with done := t.done ++ [n] }).1

/-- Every number the value rises over is the completed one or was done. -/
theorem done_of_le_tlComplete {t : Timeline} {n m : Nat} (hm : t.value < m) (h : m ≤ (tlComplete t n).value) :
    m = n ∨ m ∈ t.done := by
  obtain hold | ⟨hn, hd⟩ := tlComplete_cases t n
  · rw [tlComplete_old hold] at h
    omega
  · rw [tlComplete_new hn hd] at h
    have := (tlSettle_spec _ { t with done := t.done ++ [n] }).2.1 m hm h
    rw [List.mem_append, List.mem_singleton] at this
    exact this.symm

theorem tlComplete_next {t : Timeline} (n : Nat) (ht : t.value + 1 ∉ t.done) :
    (tlComplete t n).value + 1 ∉ (tlComplete t n).done := by
  obtain hold | ⟨hn, hd⟩ := tlComplete_cases t n
  · rwa [tlComplete_old hold]
  · rw [tlComplete_new hn hd]
    exact tlSettle_next (by simp)

/-- The value rises over every number up to which all are then done. -/
theorem le_tlComplete {t : Timeline} {n m : Nat} (ht : t.value + 1 ∉ t.done)
    (hall : ∀ j, t.value < j → j ≤ m → j = n ∨ j ∈ t.done) : m ≤ (tlComplete t n).value := by
  by_contra hlt
  have hle := tlComplete_le t n
  have hnext := hall ((tlComplete t n).value + 1) (by omega) (by omega)
  obtain hold | ⟨hn, hd⟩ := tlComplete_cases t n
  · rw [tlComplete_old hold] at hnext hlt
    exact absurd (hnext.elim (fun h => hold.elim (fun h' => by omega) (h ▸ ·)) id) ht
  · refine tlComplete_next n ht ?_
    rw [tlComplete_new hn hd] at hnext ⊢
    refine ((tlSettle_spec _ { t with done := t.done ++ [n] }).2.2 _).2 ⟨?_, fun h => by omega⟩
    rw [List.mem_append, List.mem_singleton]
    exact hnext.symm

/-- A number beyond the next one leaves the value. -/
theorem tlComplete_ahead {t : Timeline} {n : Nat} (hn : t.value + 1 < n) (ht : t.value + 1 ∉ t.done) :
    (tlComplete t n).value = t.value := by
  by_contra hne
  have hle := tlComplete_le t n
  obtain h | h := done_of_le_tlComplete (t := t) (n := n) (m := t.value + 1) (by omega) (by omega)
  · omega
  · exact ht h

theorem tlComplete_empty {t : Timeline} (h : t.done = []) : tlComplete t (t.value + 1) = { t with value := t.value + 1 } := by
  rw [tlComplete_new (Nat.lt_succ_self _) (by simp [h])]
  obtain ⟨value, taken, done⟩ := t
  subst h
  simp [tlSettle]

theorem timelinesRiseInOrder : TimelinesRiseInOrder :=
  ⟨tlComplete_le, fun _ _ h => tlComplete_old (.inl h), fun _ h => tlComplete_empty h, fun _ _ h ht => tlComplete_ahead h ht,
    fun _ _ _ hm h => done_of_le_tlComplete hm h, fun _ _ _ ht hall => le_tlComplete ht hall,
    fun _ n ht => tlComplete_next n ht, tlOf_tlTake_self, rfl⟩

/-! ### PUSH, WAIT and TLREAD (R307, R308) -/

/-- A number taken on a timeline, which nothing done since has changed. -/
theorem taken_of_tlTake {s t : State} {ctx key : Nat} (h : ∀ k, tlOf t ctx k = tlOf (tlTake s ctx key).2 ctx k) :
    (tlOf t ctx key).taken = (tlOf s ctx key).taken + 1 ∧ ∀ k, k ≠ key → tlOf t ctx k = tlOf s ctx k :=
  ⟨by rw [h, tlOf_tlTake_self], fun k hk => by rw [h, tlOf_tlTake_ne s ctx hk]⟩

theorem queueCopy_of_room {s : State} {core ctx : Nat} (im : List Byte) (h : ¬ 64 ≤ (coreOf s core).copies.length) :
    ∃ f : Core → Core, queueCopy s core ctx im = some ((tlOf s ctx (tlKey 7 core)).taken + 1,
        onCore (tlTake s ctx (tlKey 7 core)).2 core f) ∧ ∀ k, (f k).streams = k.streams ∧ (f k).handler = k.handler ∧
      (f k).copies = k.copies ++ [{ ctx := ctx, number := (tlOf s ctx (tlKey 7 core)).taken + 1, image := im }] := by
  rw [queueCopy, if_neg h]
  exact ⟨_, rfl, fun k => ⟨rfl, rfl, rfl⟩⟩

theorem queueSwap_of_room {s : State} {core ctx : Nat} (im : List Byte) (issuer : Nat)
    (h : ¬ Config.engineDepth + 1 ≤ (look [] (ctxOf s ctx).swaps (towerOfCore core)).length) :
    queueSwap s core ctx im issuer = some ((tlOf s ctx (tlKey 9 core)).taken + 1,
      onCtx (tlTake s ctx (tlKey 9 core)).2 ctx fun c => { c with
        swaps := adjust [] c.swaps (towerOfCore core) fun (l : List SwapCmd) =>
          l ++ [{ number := (tlOf s ctx (tlKey 9 core)).taken + 1, core := issuer, image := im }] }) := by
  rw [queueSwap, if_neg h]
  rfl

theorem queueCollective_of_room {s : State} {core ctx : Nat} (im : List Byte)
    (h : ¬ Config.engineDepth + 1 ≤ (look [] (ctxOf s ctx).cols (towerOfCore core)).length) :
    queueCollective s core ctx im = some ((tlOf s ctx (tlKey 8 core)).taken + 1,
      onCtx (tlTake s ctx (tlKey 8 core)).2 ctx fun c => { c with
        cols := adjust [] c.cols (towerOfCore core) fun (l : List ColCmd) =>
          l ++ [{ number := (tlOf s ctx (tlKey 8 core)).taken + 1, image := im, since := s.mtime }] }) := by
  rw [queueCollective, if_neg h]
  rfl

theorem queueGeyser_of_room {s : State} {core : Nat} (g : GeyCmd)
    (h : ¬ 256 ≤ (towerOf s (towerOfCore core)).commands.length) :
    queueGeyser s core g = some ((tlOf s g.ctx (tlKey 10 core)).taken + 1,
      onTower (tlTake s g.ctx (tlKey 10 core)).2 (towerOfCore core) fun w => { w with
        commands := w.commands ++ [{ g with number := (tlOf s g.ctx (tlKey 10 core)).taken + 1 }] }) := by
  rw [queueGeyser, if_neg h]
  rfl

theorem queueGrammar_of_room {s : State} {core : Nat} (g : GramCmd)
    (h : ¬ 256 ≤ (towerOf s (towerOfCore core)).gram.length) : queueGrammar s core g =
      some (onTower s (towerOfCore core) fun w => { w with gram := w.gram ++ [g] }) := by
  rw [queueGrammar, if_neg h]

/-- What an offer leaves of the rest, and the number it takes. -/
structure Offered (s t : State) (engine c n : Nat) (im : List Byte) : Prop where
  command : enqueued s t engine c n im
  streams : SameStreams s t
  items : SameItems s t
  mem : t.mem = s.mem
  unnumbered : engineTimeline engine = none → n = 0 ∧ t.ctxs = s.ctxs
  number : ∀ e, engineTimeline engine = some e → n = (tlOf s (myCtx s) (tlKey e c)).taken + 1 ∧
    (tlOf t (myCtx s) (tlKey e c)).taken = n ∧ ∀ k, k ≠ tlKey e c → tlOf t (myCtx s) k = tlOf s (myCtx s) k

theorem number_of_tlTake {s t : State} {engine sel c : Nat} (hsel : engineTimeline engine = some sel)
    (h : ∀ k, tlOf t (myCtx s) k = tlOf (tlTake s (myCtx s) (tlKey sel c)).2 (myCtx s) k) :
    ∀ e, engineTimeline engine = some e →
      (tlOf s (myCtx s) (tlKey sel c)).taken + 1 = (tlOf s (myCtx s) (tlKey e c)).taken + 1 ∧
      (tlOf t (myCtx s) (tlKey e c)).taken = (tlOf s (myCtx s) (tlKey sel c)).taken + 1 ∧
      ∀ k, k ≠ tlKey e c → tlOf t (myCtx s) k = tlOf s (myCtx s) k := by
  intro e he
  rw [hsel] at he
  rw [← Option.some.inj he]
  exact ⟨rfl, taken_of_tlTake h⟩

/-- A queue with room takes what is offered. -/
theorem offer_of_room {s : State} {engine c : Nat} (he : engine ≤ 4) (im : List Byte) (hfull : ¬ queueFull s engine c) :
    ∃ n t, offer s engine c im = some (n, t) ∧ Offered s t engine c n im := by
  have hstreams : ∀ key, SameStreams s (tlTake s (myCtx s) key).2 := fun key => .of_cores rfl rfl rfl
  match engine, he, hfull with
  | 0, _, hfull =>
    obtain ⟨f, hq, hf⟩ := queueCopy_of_room (ctx := myCtx s) im hfull
    refine ⟨_, _, hq, ?_, (hstreams _).trans (.onCore _ c (fun k => (hf k).1) fun k => (hf k).2.1),
      (sameItems_tlTake s _ _).trans (.of_ctxs rfl), rfl, fun h => (Option.some_ne_none _ h).elim,
      number_of_tlTake rfl fun k => rfl⟩
    show (coreOf (onCore _ c f) c).copies = _
    rw [coreOf_onCore_self, (hf _).2.2]
    rfl
  | 1, _, hfull =>
    refine ⟨_, _, queueSwap_of_room im s.curCore hfull, ?_, (hstreams _).trans (.onCtx _ _ _),
      (sameItems_tlTake s _ _).trans (.onCtx _ _), rfl, fun h => (Option.some_ne_none _ h).elim,
      number_of_tlTake rfl fun k => ?_⟩
    · simp only [enqueued, ctxOf_onCtx_self, adjust, look_put_self, tlTake]
    · rw [tlOf_onCtx_self]
      rfl
  | 2, _, hfull =>
    refine ⟨_, _, queueCollective_of_room im hfull, ?_, (hstreams _).trans (.onCtx _ _ _),
      (sameItems_tlTake s _ _).trans (.onCtx _ _), rfl, fun h => (Option.some_ne_none _ h).elim,
      number_of_tlTake rfl fun k => ?_⟩
    · simp only [enqueued, ctxOf_onCtx_self, adjust, look_put_self, tlTake]
    · rw [tlOf_onCtx_self]
      rfl
  | 3, _, hfull =>
    refine ⟨_, _, queueGeyser_of_room (geyserFrom (myCtx s) s.curCore im) hfull, ?_,
      (hstreams (tlKey 10 c)).trans (.of_cores rfl rfl rfl), (sameItems_tlTake s _ _).trans (.of_ctxs rfl), rfl,
      fun h => (Option.some_ne_none _ h).elim, number_of_tlTake rfl fun k => rfl⟩
    simp only [enqueued, towerOf_onTower_self]
    rfl
  | 4, _, hfull =>
    refine ⟨0, onTower s (towerOfCore c) fun w => { w with
        gram := w.gram ++ [grammarFrom (myCtx s) s.curCore (submitOn s s.curCore) im] }, ?_, ?_, .of_cores rfl rfl rfl, .of_ctxs rfl, rfl, fun _ => ⟨rfl, rfl⟩,
      fun e h => (Option.some_ne_none _ h.symm).elim⟩
    · simp only [offer, queueGrammar_of_room _ hfull]
      rfl
    · simp only [enqueued, towerOf_onTower_self]

theorem offer_of_full {s : State} {engine c : Nat} (he : engine ≤ 4) (im : List Byte) (hfull : queueFull s engine c) :
    offer s engine c im = none := by
  match engine, he, hfull with
  | 0, _, h => exact if_pos h
  | 1, _, h => exact if_pos h
  | 2, _, h => exact if_pos h
  | 3, _, h => exact if_pos h
  | 4, _, h => simp only [offer, queueGrammar, if_pos (show 256 ≤ _ from h), Option.map_none]

theorem exec_push_eq {f : EFields} {s : State} {c : Nat} {im : List Byte} (hg : guardHolds s = true)
    (ht : placeTarget s.curCore f.n12.toNat = some c) (hc : f.opt.toNat % 8 = 0 → c ∈ sliceCores s s.curCore)
    (him : readImage s f.a.toNat 8 = .ok im) :
    exec (.push f) s = concludeNext s 8 (match offer s (f.opt.toNat % 8) c im with
      | none => .ok (writePred s f.dst true)
      | some (n, t) =>
        if nestRunning s then .error (.wait (.cause 9)) else writeReg (writePred t f.dst false) f.b (word n)) := by
  have hin : (f.opt.toNat % 8 == 0 && !(sliceCores s s.curCore).contains c) = false := by
    by_cases h0 : f.opt.toNat % 8 = 0
    · simp [hc h0]
    · simp [h0]
  rw [show exec (.push f) s = execPush f s from rfl, execPush, guarded_of_holds hg]
  simp only [ht, hin, him, bind, Except.bind, Bool.false_eq_true, if_false]
  rfl

theorem settled_writePred (s : State) (p : BitVec 8) (b : Bool) (r : BitVec 8) :
    settled (me (writePred s p b)) r = settled (me s) r := by
  rw [writePred, me_onMe]
  obtain ⟨g, q, ql, c, h⟩ := putReg_rest (me s) p (word (bit01 b))
  rw [h]
  exact settled_congr rfl rfl r

theorem pushWaitAndTimelines : PushWaitAndTimelines := by
  refine ⟨fun f s c im hg he ht hc him => ⟨fun hfull => ?full, fun hroom hn hb => ?room⟩, fun f s v c hg ha hb => ?wait,
    fun f s c hg hb hs => ?tlread⟩
  case full =>
    rw [exec_push_eq hg ht hc him, offer_of_full he im hfull]
    exact concludeNext_of_ctxs (by rfl) 8
  case room =>
    obtain ⟨n, t, ho, hoff⟩ := offer_of_room he im hroom
    refine ⟨n, t, ?_, hoff.command, hoff.streams.me_eq, hoff.mem, hoff.unnumbered, hoff.number⟩
    rw [exec_push_eq hg ht hc him, ho]
    simp only [hn, Bool.false_eq_true, if_false]
    rw [writeReg_of_settled (by rw [settled_writePred, hoff.streams.me_eq]; exact hb)]
    exact concludeNext_written (hoff.items.trans (sameItems_writePred t _ _)) _ _ 8
  case wait =>
    rw [show exec (.wait f) s = execWait f s from rfl, execWait, guarded_of_holds hg]
    simp only [ha, hb, bind, Except.bind]
    refine ⟨fun h => ?_, fun h => ?_⟩
    · rw [if_pos (show v.toNat ≤ counterValue s f.n12.toNat c from h)]
      exact concludeNext_of_ctxs rfl 8
    · rw [if_neg (show ¬ v.toNat ≤ counterValue s f.n12.toNat c from not_le.2 h)]
      rfl
  case tlread =>
    rw [show exec (.tlread f) s = execTlread f s from rfl, execTlread, guarded_of_holds hg]
    simp only [hb, bind, Except.bind, counterValue]
    exact concludeNext_writeReg rfl hs _ 8

end Sys2Proof.Slice0

namespace Sys2Proof.Slice0
open Sys2Proof.Machine

/-! ### What an engine's data moves leave of what its translations read (R87)

An engine that moves bytes through no port window changes memory, poison and declared signals; translation reads none of
them. A FEED changes its stream register besides. -/

/-- A core but for its declared signals and its stream registers. -/
def unfed (k : Core) : Core := { k with signals := [], dregs := [] }

/-- Two states alike in all that a core's translation reads. -/
structure SameReach (s t : State) : Prop where
  curCore : t.curCore = s.curCore
  curStream : t.curStream = s.curStream
  cores : ∀ c, unfed (coreOf t c) = unfed (coreOf s c)
  ctxs : t.ctxs = s.ctxs
  module : t.module = s.module
  ports : t.ports = s.ports
  mtime : t.mtime = s.mtime

namespace SameReach

theorem refl (s : State) : SameReach s s := ⟨rfl, rfl, fun _ => rfl, rfl, rfl, rfl, rfl⟩

theorem trans {s t u : State} (h : SameReach s t) (h' : SameReach t u) : SameReach s u where
  curCore := h'.curCore.trans h.curCore
  curStream := h'.curStream.trans h.curStream
  cores c := (h'.cores c).trans (h.cores c)
  ctxs := h'.ctxs.trans h.ctxs
  module := h'.module.trans h.module
  ports := h'.ports.trans h.ports
  mtime := h'.mtime.trans h.mtime

theorem onCore (s : State) (c : Nat) {f : Core → Core} (hf : ∀ k, unfed (f k) = unfed k := by intro; rfl) :
    SameReach s (onCore s c f) where
  curCore := rfl
  curStream := rfl
  cores d := by
    by_cases hd : d = c
    · rw [hd, coreOf_onCore_self, hf]
    · rw [coreOf_onCore_ne s f hd]
  ctxs := rfl
  module := rfl
  ports := rfl
  mtime := rfl

theorem memory (s : State) (m : Memory) (p : List Nat) : SameReach s { s with mem := m, poison := p } :=
  ⟨rfl, rfl, fun _ => rfl, rfl, rfl, rfl, rfl⟩

theorem coreField {α : Type} {s t : State} (h : SameReach s t) (g : Core → α)
    (hg : ∀ k, g (unfed k) = g k := by intro; rfl) (c : Nat) : g (coreOf t c) = g (coreOf s c) := by
  rw [← hg, h.cores, hg]

/-! #### Writes -/

theorem writeAt (s : State) (l : Loc) (bs : List Byte) : SameReach s (writeAt s l bs) := by
  unfold Machine.writeAt
  split
  · exact refl s
  · exact memory s _ _

theorem taintStore (s : State) (c o n : Nat) : SameReach s (taintStore s c o n) := by
  unfold Machine.taintStore
  split
  · split
    · exact refl s
    · exact onCore s c
  · exact refl s

theorem storeAt {s : State} {l : Loc} (hl : ∀ o, l ≠ .bar0 o) (bs : List Byte) : SameReach s (storeAt s l bs) := by
  cases l with
  | bar0 o => exact absurd rfl (hl o)
  | store c o => exact (taintStore s c o _).trans (writeAt _ _ bs)
  | hbm | peer | host | refused => exact writeAt s _ bs

theorem storePieces (s : State) {ps : List (Loc × Nat)} (hps : ∀ p ∈ ps, ∀ o, p.1 ≠ .bar0 o) (bs : List Byte) :
    SameReach s (storePieces s ps bs) := by
  induction ps generalizing s bs with
  | nil => exact refl s
  | cons p ps ih =>
    obtain ⟨l, n⟩ := p
    have piece : SameReach s (storePiece s l (bs.take n)) := by
      unfold storePiece
      split
      · exact refl s
      · exact storeAt (hps _ List.mem_cons_self) _
    exact piece.trans (ih _ (fun q hq => hps q (List.mem_cons_of_mem _ hq)) _)

theorem writePieces (s : State) {ps : List (Loc × Nat)} (hps : ∀ p ∈ ps, ∀ o, p.1 ≠ .bar0 o) (bs : List Byte) :
    SameReach s (writePieces s ps bs) := by
  unfold Machine.writePieces
  split
  · exact storeAt (hps _ List.mem_cons_self) _
  · exact storePieces s hps bs

theorem cleanHead (s : State) (ps : List (Loc × Nat)) (a n start : Nat) : SameReach s (cleanHead s ps a n start) := by
  unfold Machine.cleanHead
  dsimp only
  split
  · split
    · exact memory s s.mem _
    · exact refl s
  · exact refl s

/-! #### Translation -/

theorem placeOf {s t : State} (h : SameReach s t) (who : Asker) (ctx level e va : Nat) :
    placeOf t who ctx level e va = placeOf s who ctx level e va := by
  simp only [Machine.placeOf, hostLook, live, bamapOf, routeOf, downLong, portOf, ctxOf, h.module, h.ports, h.ctxs, h.mtime]
  rfl

theorem checkLeaf {s t : State} (h : SameReach s t) (who : Asker) (ctx kind level e va : Nat) :
    checkLeaf t who ctx kind level e va = checkLeaf s who ctx kind level e va := by
  simp only [Machine.checkLeaf, h.placeOf]

theorem coreLeaf {s t : State} (h : SameReach s t) (core ctx kind va : Nat) :
    coreLeaf t core ctx kind va = coreLeaf s core ctx kind va := by
  have hw : (coreOf t core).walked = (coreOf s core).walked := h.coreField (fun k => k.walked) (c := core)
  have hl : (coreOf t core).copyLeaves = (coreOf s core).copyLeaves := h.coreField (fun k => k.copyLeaves) (c := core)
  have htlb : (coreOf t core).tlb = (coreOf s core).tlb := h.coreField (fun k => k.tlb) (c := core)
  simp only [Machine.coreLeaf, copyLeaf, walkedAt, tlbHit, h.curStream, hw, hl, htlb]

theorem translate {s t : State} (h : SameReach s t) (core ctx kind va : Nat) :
    (translate t (some core) ctx kind va).1 = (translate s (some core) ctx kind va).1 := by
  have hlive : live t va = live s va := by simp only [live, bamapOf, h.module]
  have hroot : ptroot t ctx = ptroot s ctx := by simp only [ptroot, ctxOf, h.ctxs]
  simp only [Machine.translate, hroot, hlive, h.coreLeaf]
  split
  · split <;> rfl
  · split
    · rfl
    · exact h.checkLeaf _ _ _ _ _ _
    · rfl

theorem span {s t : State} (h : SameReach s t) (core ctx kind va n : Nat) :
    (span t (some core) ctx kind va n).1 = (span s (some core) ctx kind va n).1 := by
  unfold Machine.span spanOf
  induction pages va n with
  | nil => rfl
  | cons p rest ih =>
    obtain ⟨a, m⟩ := p
    have hlook := h.translate core ctx kind a
    have hs : Machine.translate s (some core) ctx kind a = ((Machine.translate s (some core) ctx kind a).1, s) :=
      Prod.ext rfl (translate_state s (some core) ctx kind a)
    have ht : Machine.translate t (some core) ctx kind a = ((Machine.translate s (some core) ctx kind a).1, t) :=
      Prod.ext hlook (translate_state t (some core) ctx kind a)
    unfold spanBy
    rw [hs, ht]
    cases (Machine.translate s (some core) ctx kind a).1 with
    | hit l =>
      dsimp only
      revert ih
      generalize spanBy (fun s va => Machine.translate s (some core) ctx kind va) t rest = x
      generalize spanBy (fun s va => Machine.translate s (some core) ctx kind va) s rest = y
      obtain ⟨x, t'⟩ := x
      obtain ⟨y, s'⟩ := y
      rintro rfl
      cases x <;> rfl
    | miss | wait | ask | fault => rfl

end SameReach

/-! ### Core-store pieces that claim no region -/

/-- A core-store piece that leaves the state lies in a region that is there. -/
def pieceThere (k : Core) (core o : Nat) (l : Loc) : Prop :=
  ∃ sl g, k.slice = some sl ∧ regionAt k sl.ctx sl.index (o / 2 ^ 20) = some g ∧ g.moving = false ∧
    l = .store core (g.physical * 2 ^ 20 + o % 2 ^ 20)

theorem csPiece_of_there {s : State} {core o : Nat} {l : Loc} (h : pieceThere (coreOf s core) core o l) :
    csPiece s core o = .ok (l, s) := by
  obtain ⟨sl, g, hsl, hg, hm, rfl⟩ := h
  simp only [csPiece, hsl, hg, hm, Bool.false_eq_true, if_false]

theorem coreOf_evictRegion (s : State) (core : Nat) (g : Region) :
    (coreOf (evictRegion s core g) core).regions = (coreOf s core).regions.filter fun h => h.physical != g.physical := by
  unfold evictRegion
  split
  · rw [coreOf_onCore_self]
    rfl
  · rw [coreOf_onCore_self]

theorem coreOf_mapRegion (s : State) (core p index ctx record : Nat) :
    (coreOf (mapRegion s core p index ctx record) core).regions =
      (coreOf s core).regions ++ [{ physical := p, index := index, ctx := ctx, record := some record }] := by
  rw [mapRegion, coreOf_onCore_self]
  rfl

/-- A region just marked as moving is found moving, where no pinned region hides it. -/
theorem moving_of_setMoving {s : State} {core index ctx record : Nat} {g : Region}
    (hpin : ∀ h ∈ (coreOf s core).regions, ¬ (h.index = index ∧ h.ctx = ctx ∧ h.record = none))
    (h : regionAt (coreOf (setMoving s core index ctx record true) core) ctx record index = some g) : g.moving = true := by
  have hfind : ∀ r, (coreOf (setMoving s core index ctx record true) core).regions.find?
      (fun g => g.index == index && g.ctx == ctx && g.record == r) = some g →
      r = some record ∧ g.moving = true ∨ r ≠ some record ∧ ∃ h ∈ (coreOf s core).regions,
        h.index = index ∧ h.ctx = ctx ∧ h.record = r := by
    intro r hr
    have hp := List.find?_some hr
    have hm := List.mem_of_find?_eq_some hr
    rw [setMoving, coreOf_onCore_self] at hm
    obtain ⟨g0, hg0, rfl⟩ := List.mem_map.1 hm
    by_cases hcond : (g0.index == index && g0.ctx == ctx && g0.record == some record) = true
    · rw [if_pos hcond] at hp ⊢
      simp only [Bool.and_eq_true, beq_iff_eq] at hp hcond
      exact .inl ⟨hp.2.symm.trans hcond.2, rfl⟩
    · rw [if_neg hcond] at hp ⊢
      simp only [Bool.and_eq_true, beq_iff_eq] at hp hcond
      exact .inr ⟨fun hr => hcond ⟨hp.1, hp.2.trans hr⟩, g0, hg0, hp.1.1, hp.1.2, hp.2⟩
  simp only [regionAt] at h
  split at h
  · next hnone =>
    obtain ⟨hr, -⟩ | ⟨-, x, hx, hfields⟩ := hfind none (h ▸ hnone)
    · cases hr
    · exact absurd hfields (hpin x hx)
  · obtain ⟨-, hmove⟩ | ⟨hr, -⟩ := hfind (some record) h
    · exact hmove
    · exact absurd rfl hr

/-- The regions of a core that an unmapped index is touched on: one more, or the new one moves (R105). -/
theorem touchRegion_regions {s t : State} {core index : Nat} {sl : Slice} (hsl : (coreOf s core).slice = some sl)
    (hnone : regionAt (coreOf s core) sl.ctx sl.index index = none) (h : touchRegion s core index = some t) :
    (coreOf s core).regions.length < (coreOf t core).regions.length ∨
      ∀ g, regionAt (coreOf t core) sl.ctx sl.index index = some g → g.moving = true := by
  have hpin : ∀ g ∈ (coreOf s core).regions, ¬ (g.index = index ∧ g.ctx = sl.ctx ∧ g.record = none) := by
    intro g hg ⟨hi, hc, hr⟩
    simp only [regionAt] at hnone
    split at hnone
    · cases hnone
    · next hfind =>
      have := List.find?_eq_none.1 hfind g hg
      simp [hi, hc, hr] at this
  simp only [touchRegion, hsl, hnone] at h
  obtain ⟨⟨p, taken⟩, -, rfl⟩ := Option.map_eq_some_iff.1 h
  clear h
  have htrace : ∀ u : State, (coreOf (trace u core 3 u.curStream (256 + 6 * 2 ^ 32)) core).regions =
      (coreOf u core).regions := fun u => (TraceKept.trace u _ _ _ _).coreField (fun k => k.regions) (c := core)
  have hmoved : ∀ u : State, (coreOf u core).regions = (coreOf (mapRegion (match taken with
        | some g => evictRegion s core g
        | none => s) core p index sl.ctx sl.index) core).regions →
      ∀ g, regionAt (coreOf (setMoving u core index sl.ctx sl.index true) core) sl.ctx sl.index index = some g →
        g.moving = true := by
    intro u hu g
    refine moving_of_setMoving fun x hx => ?_
    rw [hu, coreOf_mapRegion, List.mem_append, List.mem_singleton] at hx
    obtain hx | rfl := hx
    · cases taken with
      | none => exact hpin x hx
      | some v =>
        rw [coreOf_evictRegion] at hx
        exact hpin x (List.mem_filter.1 hx).1
    · simp
  cases hs : savedRegion s sl.ctx sl.index core index with
  | some a =>
    simp only [Option.isSome_some, Bool.or_true, if_true]
    exact .inr (hmoved _ rfl)
  | none =>
    cases taken with
    | some v =>
      simp only [Option.isSome_some, Option.isSome_none, Bool.or_false, if_true, Bool.false_eq_true, if_false]
      exact .inr (hmoved _ (htrace _))
    | none =>
      refine .inl ?_
      simp only [Option.isSome_none, Bool.or_self, Bool.false_eq_true, if_false]
      rw [htrace, coreOf_mapRegion, List.length_append]
      exact Nat.lt_succ_self _

theorem csPiece_cases {s t : State} {core o : Nat} {l : Loc} (h : csPiece s core o = .ok (l, t)) :
    (t = s ∧ pieceThere (coreOf s core) core o l) ∨ (coreOf s core).regions.length < (coreOf t core).regions.length := by
  simp only [csPiece, stopWith] at h
  split at h
  · cases h
  · next sl hsl =>
    split at h
    · next g hg =>
      split at h
      · cases h
      · next hm =>
        cases h
        exact .inl ⟨rfl, sl, g, hsl, hg, by simpa using hm, rfl⟩
    · next hnone =>
      split at h
      · cases h
      · next htouch =>
        obtain hlt | hmove := touchRegion_regions hsl hnone htouch
        · split at h
          · cases h
          · split at h
            · cases h
            · cases h
              exact .inr hlt
        · split at h
          · cases h
          · next g hg =>
            rw [if_pos (hmove g hg)] at h
            cases h

theorem csPieces_cases {s t : State} {core : Nat} {cuts : List (Nat × Nat)} {ps : List (Loc × Nat)}
    (h : csPieces s core cuts = .ok (ps, t)) : (t = s ∧ List.Forall₂ (fun (cut : Nat × Nat) (p : Loc × Nat) =>
        pieceThere (coreOf s core) core cut.1 p.1 ∧ p.2 = cut.2) cuts ps) ∨
      (coreOf s core).regions.length < (coreOf t core).regions.length := by
  induction cuts generalizing s ps with
  | nil =>
    cases h
    exact .inl ⟨rfl, .nil⟩
  | cons cut rest ih =>
    obtain ⟨l, u, qs, hpiece, hrest, rfl⟩ := csPieces_cons h
    obtain ⟨rfl, hthere⟩ | hlt := csPiece_cases hpiece
    · obtain ⟨rfl, hall⟩ | hlt := ih hrest
      · exact .inl ⟨rfl, .cons ⟨hthere, rfl⟩ hall⟩
      · exact .inr hlt
    · obtain ⟨rfl, -⟩ | hlt' := ih hrest
      · exact .inr hlt
      · exact .inr (hlt.trans hlt')

theorem csPieces_of_there {s : State} {core : Nat} {cuts : List (Nat × Nat)} {ps : List (Loc × Nat)}
    (h : List.Forall₂ (fun (cut : Nat × Nat) (p : Loc × Nat) =>
      pieceThere (coreOf s core) core cut.1 p.1 ∧ p.2 = cut.2) cuts ps) : csPieces s core cuts = .ok (ps, s) := by
  induction h with
  | nil => rfl
  | @cons cut p cuts ps hp _ ih =>
    obtain ⟨o, n⟩ := cut
    obtain ⟨l, m⟩ := p
    obtain ⟨hthere, rfl⟩ := hp
    simp only [csPieces, csPiece_of_there hthere, ih, bind, Except.bind]
    rfl

/-- Places that a core reaches without any change are the same in every state alike to its translation. -/
theorem SameReach.places {s t : State} (h : SameReach s t) {kind n : Nat} {ea : Word} {ps : List (Loc × Nat)}
    (hp : places s kind ea n = .ok (ps, s)) : places t kind ea n = .ok (ps, t) := by
  have hslice : (coreOf t t.curCore).slice = (coreOf s s.curCore).slice := by
    rw [h.curCore]
    exact h.coreField (fun k => k.slice) (c := s.curCore)
  have hctx : myCtx t = myCtx s := by simp only [myCtx, coreCtx, hslice]
  obtain ⟨h0, -, hspan⟩ | ⟨h80, hcs⟩ := places_cases hp
  · have hin : ¬ 2 ^ 56 < ea.toNat + n := fun hout => by
      rw [Machine.places, if_pos (by simpa using h0), if_pos hout] at hp
      cases hp
    have ht : Machine.span t (some t.curCore) (myCtx t) kind ea.toNat n = (.ok ps, t) :=
      Prod.ext (by rw [h.curCore, hctx, h.span]; exact hspan) (span_state t _ _ _ _ _)
    rw [Machine.places, if_pos (by simpa using h0), if_neg hin, ht]
    rfl
  · have hfield : field ea.toNat 27 29 = 0 := by
      by_contra hne
      rw [Machine.places, if_neg (by simp [h80]), if_neg (by simp [hne])] at hp
      cases hp
    have hin : ¬ Config.csTop < field ea.toNat 0 27 + n := fun hout => by
      rw [csSpan, if_pos hout] at hcs
      cases hcs
    rw [csSpan, if_neg hin] at hcs
    obtain ⟨-, hall⟩ | hlt := csPieces_cases hcs
    · have hthere : ∀ o l, pieceThere (coreOf s s.curCore) s.curCore o l → pieceThere (coreOf t t.curCore) t.curCore o l := by
        rintro o l ⟨sl, g, hsl, hg, hm, rfl⟩
        refine ⟨sl, g, hslice.trans hsl, ?_, hm, by rw [h.curCore]⟩
        rw [← hg, h.curCore]
        exact h.coreField (fun k => regionAt k sl.ctx sl.index (o / 2 ^ 20)) (c := s.curCore)
      rw [Machine.places, if_neg (by simp [h80]), if_pos (by simp [h80, hfield]), csSpan, if_neg hin]
      exact csPieces_of_there (hall.imp fun cut p hc => ⟨hthere _ _ hc.1, hc.2⟩)
    · exact absurd hlt (lt_irrefl _)

end Sys2Proof.Slice0

namespace Sys2Proof.Slice0
open Sys2Proof.Machine

/-! ### COPY and FILL (R138, R139) -/

/-- Bytes of the piece of a COPY or FILL that begins after `done` bytes. -/
def pieceLen (im : List Byte) (done : Nat) : Nat :=
  Nat.min (cpLen im - done) (if cpOp im == 3 then toEdge (cpDstCs im) (cpDst im + done)
    else Nat.min (toEdge (cpDstCs im) (cpDst im + done)) (toEdge (cpSrcCs im) (cpSrc im + done)))

/-- Whether the engine reaches both sides of every piece, from a state on. -/
structure BothReach (s0 : State) (im : List Byte) : Prop where
  dst : ∀ o n, 0 < n → o + n ≤ cpLen im → n ≤ pieceLen im o →
    ∃ qs, places s0 7 (sideEa (cpDstCs im) (cpDst im + o)) n = .ok (qs, s0) ∧ ∀ p ∈ qs, ∀ b, p.1 ≠ .bar0 b
  src : cpOp im ≠ 3 → ∀ o n, 0 < n → o + n ≤ cpLen im → n ≤ pieceLen im o →
    ∃ ps, places s0 6 (sideEa (cpSrcCs im) (cpSrc im + o)) n = .ok (ps, s0)

theorem copyPiece_fill {s s0 : State} {im : List Byte} {done n : Nat} {qs : List (Loc × Nat)} (h : SameReach s0 s)
    (hop : cpOp im = 3) (hq : places s0 7 (sideEa (cpDstCs im) (cpDst im + done)) n = .ok (qs, s0)) :
    copyPiece s im done n = .ok (false,
      cleanHead (writePieces s qs (fillBytes im done n)) qs (cpDst im + done) n (cpDst im)) := by
  simp only [copyPiece, hop, beq_self_eq_true, if_true, bind, Except.bind, h.places hq]
  rfl

theorem copyPiece_copy {s s0 : State} {im : List Byte} {done n : Nat} {ps qs : List (Loc × Nat)} (h : SameReach s0 s)
    (hop : cpOp im ≠ 3) (hp : places s0 6 (sideEa (cpSrcCs im) (cpSrc im + done)) n = .ok (ps, s0))
    (hq : places s0 7 (sideEa (cpDstCs im) (cpDst im + done)) n = .ok (qs, s0)) :
    copyPiece s im done n = .ok (poisonPieces s ps,
      cleanHead (writePieces s qs (readPieces s ps)) qs (cpDst im + done) n (cpDst im)) := by
  have hop' : (cpOp im == 3) = false := by simpa using hop
  have hread : cpRead s (cpSrcCs im) (cpSrc im + done) n = .ok (readPieces s ps, poisonPieces s ps, s) := by
    rw [cpRead, h.places hp]
    rfl
  simp only [copyPiece, hop', Bool.false_eq_true, if_false, hread, bind, Except.bind, h.places hq]
  rfl

theorem copyPiece_ok {s s0 : State} {im : List Byte} {done n : Nat} (h : SameReach s0 s) (hb : BothReach s0 im)
    (h0 : 0 < n) (hlen : done + n ≤ cpLen im) (hn : n ≤ pieceLen im done) :
    ∃ bad t, copyPiece s im done n = .ok (bad, t) ∧ SameReach s0 t := by
  obtain ⟨qs, hq, hbar⟩ := hb.dst done n h0 hlen hn
  have hdone : ∀ bs, SameReach s0 (cleanHead (writePieces s qs bs) qs (cpDst im + done) n (cpDst im)) := fun bs =>
    (h.trans (.writePieces s hbar bs)).trans (.cleanHead _ _ _ _ _)
  by_cases hop : cpOp im = 3
  · exact ⟨_, _, copyPiece_fill h hop hq, hdone _⟩
  · obtain ⟨ps, hp⟩ := hb.src hop done n h0 hlen hn
    exact ⟨_, _, copyPiece_copy h hop hp hq, hdone _⟩

theorem copyBytes_succ (im : List Byte) (fuel : Nat) (p : Progress) (h : p.done < cpLen im) :
    copyBytes im (fuel + 1) p = match copyPiece p.state im p.done (pieceLen im p.done) with
      | .error t => { p with stop := some t }
      | .ok (bad, s) => copyBytes im fuel ⟨s, p.done + pieceLen im p.done, p.poison || bad, none⟩ := by
  have hleft : (cpLen im - p.done == 0) = false := by
    rw [beq_eq_false_iff_ne]
    omega
  rw [copyBytes]
  simp only [hleft, Bool.false_eq_true, if_false]
  rfl

theorem copyBytes_over (im : List Byte) (fuel : Nat) (p : Progress) (h : cpLen im ≤ p.done) : copyBytes im fuel p = p := by
  cases fuel with
  | zero => rfl
  | succ fuel =>
    have hleft : (cpLen im - p.done == 0) = true := by
      rw [beq_iff_eq]
      omega
    rw [copyBytes]
    simp only [hleft, if_true]

/-- 64 KiB boundaries of a side still ahead of a byte. -/
def edgesAhead (a len done : Nat) : Nat := (a + len - 1) / 65536 - (a + done) / 65536

theorem toEdge_pos (cs : Bool) (a : Nat) : 0 < toEdge cs a := by
  unfold toEdge
  split <;> omega

theorem pieceLen_pos {im : List Byte} {done : Nat} (h : done < cpLen im) : 0 < pieceLen im done := by
  have hd := toEdge_pos (cpDstCs im) (cpDst im + done)
  have hs := toEdge_pos (cpSrcCs im) (cpSrc im + done)
  unfold pieceLen
  simp only [Nat.min_def]
  split_ifs <;> omega

theorem edgesAhead_le {a len done n : Nat} : edgesAhead a len (done + n) ≤ edgesAhead a len done := by
  unfold edgesAhead
  omega

/-- A piece that ends at an edge leaves one boundary fewer. -/
theorem edgesAhead_lt {cs : Bool} {a len done : Nat} (h : done + toEdge cs (a + done) < len) :
    edgesAhead a len (done + toEdge cs (a + done)) < edgesAhead a len done := by
  unfold edgesAhead
  revert h
  unfold toEdge
  split
  · intro h
    have := Nat.div_add_mod (a + done) 65536
    have := Nat.div_add_mod (a + done) (2 ^ 20)
    omega
  · intro h
    omega

/-- A piece is the last one, or fewer boundaries are ahead of the next. -/
theorem pieceLen_progress {im : List Byte} {done : Nat} (h : done < cpLen im) : done + pieceLen im done = cpLen im ∨
    done + pieceLen im done < cpLen im ∧
      edgesAhead (cpDst im) (cpLen im) (done + pieceLen im done) + edgesAhead (cpSrc im) (cpLen im) (done + pieceLen im done) <
        edgesAhead (cpDst im) (cpLen im) done + edgesAhead (cpSrc im) (cpLen im) done := by
  have hle : pieceLen im done ≤ cpLen im - done := Nat.min_le_left _ _
  by_cases hlast : done + pieceLen im done = cpLen im
  · exact .inl hlast
  refine .inr ⟨by omega, ?_⟩
  have hcut : pieceLen im done = toEdge (cpDstCs im) (cpDst im + done) ∨
      pieceLen im done = toEdge (cpSrcCs im) (cpSrc im + done) := by
    have hne : pieceLen im done ≠ cpLen im - done := by omega
    revert hne
    unfold pieceLen
    simp only [Nat.min_def]
    split_ifs <;> intro hne <;> omega
  have hdst := edgesAhead_le (a := cpDst im) (len := cpLen im) (done := done) (n := pieceLen im done)
  have hsrc := edgesAhead_le (a := cpSrc im) (len := cpLen im) (done := done) (n := pieceLen im done)
  obtain hd | hs := hcut
  · have := edgesAhead_lt (cs := cpDstCs im) (a := cpDst im) (len := cpLen im) (done := done) (by omega)
    rw [← hd] at this
    omega
  · have := edgesAhead_lt (cs := cpSrcCs im) (a := cpSrc im) (len := cpLen im) (done := done) (by omega)
    rw [← hs] at this
    omega

/-- A COPY or FILL both of whose sides are reached does all its bytes in one event. -/
theorem copyBytes_all {s0 : State} {im : List Byte} (hb : BothReach s0 im) {fuel : Nat} {p : Progress}
    (h : SameReach s0 p.state) (hstop : p.stop = none) (hd : p.done ≤ cpLen im)
    (hf : edgesAhead (cpDst im) (cpLen im) p.done + edgesAhead (cpSrc im) (cpLen im) p.done < fuel) :
    (copyBytes im fuel p).done = cpLen im ∧ (copyBytes im fuel p).stop = none ∧
      SameReach s0 (copyBytes im fuel p).state := by
  induction fuel generalizing p with
  | zero => omega
  | succ fuel ih =>
    obtain heq | hlt := Nat.eq_or_lt_of_le hd
    · rw [copyBytes_over im _ p heq.ge]
      exact ⟨heq, hstop, h⟩
    · have hprog := pieceLen_progress hlt
      obtain ⟨bad, t, hpiece, ht⟩ := copyPiece_ok h hb (pieceLen_pos hlt) (by omega) le_rfl
      rw [copyBytes_succ im fuel p hlt, hpiece]
      dsimp only
      obtain hlast | ⟨hmore, hedges⟩ := hprog
      · rw [copyBytes_over im fuel _ hlast.ge]
        exact ⟨hlast, rfl, ht⟩
      · exact ih (p := ⟨t, p.done + pieceLen im p.done, p.poison || bad, none⟩) ht rfl hmore.le
          (by dsimp only; omega)

theorem edgesAhead_start (a len : Nat) : edgesAhead a len 0 ≤ len / 65536 + 1 := by
  unfold edgesAhead
  omega

/-- One that crosses no edge does all its bytes in one piece. -/
theorem copyBytes_one {s t : State} {im : List Byte} {fuel : Nat} {bad poison : Bool} (hlen : 0 < cpLen im)
    (hpiece : pieceLen im 0 = cpLen im) (h : copyPiece s im 0 (cpLen im) = .ok (bad, t)) :
    (copyBytes im (fuel + 1) ⟨s, 0, poison, none⟩).state = t := by
  rw [copyBytes_succ im fuel _ hlen, hpiece, h]
  dsimp only
  rw [copyBytes_over _ _ _ (by simp)]

end Sys2Proof.Slice0

namespace Sys2Proof.Slice0
open Sys2Proof.Machine

/-! ### A command advances (R138, R161) -/

/-- Every core's copy commands are as before. -/
def SameCopies (s t : State) : Prop := ∀ c, (coreOf t c).copies = (coreOf s c).copies

namespace SameCopies

theorem refl (s : State) : SameCopies s s := fun _ => rfl

theorem trans {s t u : State} (h : SameCopies s t) (h' : SameCopies t u) : SameCopies s u := fun c => (h' c).trans (h c)

theorem onCore (s : State) (c : Nat) {f : Core → Core} (hf : ∀ k, (f k).copies = k.copies := by intro; rfl) :
    SameCopies s (onCore s c f) := by
  intro d
  by_cases hd : d = c
  · rw [hd, coreOf_onCore_self, hf]
  · rw [coreOf_onCore_ne s f hd]

theorem of_traceKept {s t : State} (h : TraceKept s t) : SameCopies s t := fun c =>
  h.coreField (fun k => k.copies) (c := c)

theorem of_sameReach {s t : State} (h : SameReach s t) : SameCopies s t := fun c =>
  h.coreField (fun k => k.copies) (c := c)

theorem claimFrame : ClaimFrame SameCopies where
  refl := refl
  trans := trans
  slots _ _ _ _ _ := fun _ => rfl
  relocate _ _ _ _ := fun _ => rfl
  clear _ _ _ := fun _ => rfl
  regions _ core _ := onCore _ core
  trace _ _ _ _ _ := of_traceKept (.trace _ _ _ _ _)

theorem of_readTile {s t : State} {w : Nat} {d : Side} {cells : List (Nat × Nat)} {vs : List Nat} {bad : Bool}
    (h : readTile s w d cells = .ok (vs, bad, t)) : SameCopies s t := by
  induction cells generalizing s vs bad with
  | nil =>
    cases h
    exact refl _
  | cons c rest ih =>
    obtain ⟨i, j⟩ := c
    unfold readTile readCell at h
    cases hp : places s 6 (sideCell w d i j).address (Nat.max 1 (w / 8)) with
    | error e =>
      rw [hp] at h
      cases h
    | ok p =>
      obtain ⟨ps, u⟩ := p
      rw [hp] at h
      cases hr : readTile u w d rest with
      | error e =>
        simp only [bind, Except.bind, pure, Except.pure, hr] at h
        cases h
      | ok q =>
        obtain ⟨vs', b, u'⟩ := q
        simp only [bind, Except.bind, pure, Except.pure, hr] at h
        cases h
        exact (claimFrame.of_places hp).trans (ih hr)

theorem of_writeCell {s t : State} {kind w v : Nat} {c : Cell} (h : writeCell s kind w c v = .ok t) : SameCopies s t := by
  unfold writeCell at h
  cases hp : places s kind c.address (Nat.max 1 (w / 8)) with
  | error e =>
    rw [hp] at h
    cases h
  | ok p =>
    obtain ⟨ps, u⟩ := p
    simp only [hp, bind, Except.bind] at h
    have hstore : ∀ bs, SameCopies s (storePieces u ps bs) := fun bs =>
      (claimFrame.of_places hp).trans (of_traceKept (.storePieces u ps bs))
    split at h
    · cases h
      exact hstore _
    · cases h
      exact hstore _

theorem of_writeTileEach {s t : State} {w : Nat} {d : Side} {col : Bool} {es : List ((Nat × Nat) × Nat)}
    (h : writeTileEach s w d col es = .ok t) : SameCopies s t := by
  induction es generalizing s with
  | nil =>
    cases h
    exact refl _
  | cons e rest ih =>
    obtain ⟨c, v⟩ := e
    cases hw : writeCell s 7 w (destCell w d col c) v with
    | error x => simp [writeTileEach, hw, bind, Except.bind] at h
    | ok u =>
      simp only [writeTileEach, hw, bind, Except.bind] at h
      exact (of_writeCell hw).trans (ih h)

theorem of_writeTile {s t : State} {w : Nat} {d : Side} {col : Bool} {es : List ((Nat × Nat) × Nat)}
    (h : writeTile s w d col es = .ok t) : SameCopies s t := by
  unfold writeTile at h
  cases he : writeTileEach s w d col es with
  | error x =>
    rw [he] at h
    cases h
  | ok u =>
    rw [he] at h
    cases h
    refine (of_writeTileEach he).trans ?_
    dsimp only [cleanCells]
    split
    · exact refl u
    · exact fun _ => rfl

end SameCopies

/-- The command of a number after it has been changed. -/
theorem copyOf_onCopy {s : State} {core number : Nat} {c : CopyCmd} (f : CopyCmd → CopyCmd)
    (hf : ∀ c, (f c).number = c.number) (h : copyOf s core number = some c) :
    copyOf (onCopy s core number f) core number = some (f c) := by
  have hnum : c.number = number := by simpa using List.find?_some h
  rw [copyOf, onCopy, coreOf_onCore_self]
  dsimp only
  rw [List.find?_map]
  have hsame : ((fun c : CopyCmd => c.number == number) ∘ fun c => if c.number == number then f c else c) =
      fun c : CopyCmd => c.number == number := by
    funext x
    dsimp only [Function.comp]
    split
    · next hx => rw [hf]
    · rfl
  rw [hsame, show (coreOf s core).copies.find? (fun c => c.number == number) = some c from h]
  simp [hnum]

theorem coreOf_placed (t : State) (c n d : Nat) : coreOf { t with curCore := c, curStream := n } d = coreOf t d := rfl

/-- A command whose work is over after one event stands with its status, its data moved. -/
theorem advanceCopy_over {s : State} {core number : Nat} {c : CopyCmd} (hc : copyOf s core number = some c)
    (hstall : c.stall = none) {f : Progress → Progress} {q : Progress}
    (hq : f ⟨onEngine s core (c.held ++ c.pinned), c.done, c.poison, none⟩ = q) (hstop : q.stop = none)
    (hkept : SameCopies s q.state) (hover : copyOver c.image q.done = true) :
    copyDone (advanceCopy s core c f) core number q.done ∧ (advanceCopy s core c f).mem = q.state.mem ∧
      (coreOf (advanceCopy s core c f) core).dregs = (coreOf q.state core).dregs := by
  have hnum : c.number = number := by simpa using List.find?_some hc
  have hcq : copyOf q.state core number = some c := by
    rw [copyOf, hkept core]
    exact hc
  have hstalled : ∀ t, copyStall t core c none = t := fun t => by simp [copyStall, hstall]
  have hq' : f ⟨onCore { s with curCore := core, curStream := 7 } core fun k => { k with
      copyLeaves := c.held ++ c.pinned }, c.done, c.poison, none⟩ = q := hq
  simp only [advanceCopy, asStream, hq', hstop, Option.bind_none, Option.isSome_none, Bool.false_eq_true, if_false, hstalled]
  refine ⟨?done, rfl, ?dregs⟩
  case dregs => simp only [coreOf_placed, coreOf_onCore_self, onCopy, dropWalked]
  case done =>
    have hchanged := copyOf_onCopy (fun x => { x with
      started := true, done := q.done, poison := q.poison, held := heldLeaves q.state core c.image q.done
      status := if copyOver x.image q.done then some (if q.poison then 0xA2 else 0) else none }) (fun _ => rfl) hcq
    refine ⟨_, Eq.trans ?_ hchanged, rfl, rfl, ?_⟩
    · rw [hnum]
      simp only [copyOf, onCopy, coreOf_placed, coreOf_onCore_self, dropWalked]
    · simp only [hover, if_true]
      cases q.poison
      · exact .inl rfl
      · exact .inr rfl

/-- The event of a command's own operation, where it may start, advances it. -/
theorem copyRun_eq {s : State} {core number op : Nat} {c : CopyCmd} (f : List Byte → Progress → Progress)
    (hc : copyOf s core number = some c) (hbad : copyBad c.image = false) (hst : c.status = none)
    (hh : (coreOf s core).halted = false) (hsl : (coreOf s core).slice.isSome = true)
    (hm : mayStart (coreOf s core) c = true) (hop : cpOp c.image = op) :
    copyRun core number op s f = .next (advanceCopy s core c (f c.image)) := by
  have hslice : (coreOf s core).slice.isNone = false := by simpa using hsl
  simp only [copyRun, hc, hop, bne_self_eq_false, hbad, hst, Option.isSome_none, hh, hslice, hm, Bool.not_true, Bool.or_self,
    Bool.false_eq_true, if_false]

end Sys2Proof.Slice0

namespace Sys2Proof.Slice0
open Sys2Proof.Machine

/-! ### FEED (R141) -/

section
variable {s t : State} (hm : t.mem = s.mem) (hp : t.ports = s.ports) (ho : t.poison = s.poison)
include hm hp ho

theorem fetchAt_congr (l : Loc) (n : Nat) : fetchAt t l n = fetchAt s l n := by
  cases l <;> simp only [fetchAt, windowRead, readAt, portOf, hm, hp, ho]

theorem readPieces_congr (ps : List (Loc × Nat)) : readPieces t ps = readPieces s ps := by
  have hpiece : ∀ l n, fetchPiece t l n = fetchPiece s l n := by
    intro l n
    cases l <;> simp only [fetchPiece, fetchAt_congr hm hp ho]
  simp only [readPieces, hpiece, fetchAt_congr hm hp ho]

end

theorem poisonPieces_congr {s t : State} (hp : t.poison = s.poison) (ps : List (Loc × Nat)) :
    poisonPieces t ps = poisonPieces s ps := by
  simp only [poisonPieces, poisonedAt, hp]

/-- An element of a FEED read without a change is the same while only stream registers change. -/
theorem feedElement_congr {s t : State} (h : SameReach s t) (hm : t.mem = s.mem) (hp : t.poison = s.poison) {im : List Byte}
    {i v : Nat} {bad : Bool} (hs : feedElement s im i = .ok (v, bad, s)) : feedElement t im i = .ok (v, bad, t) := by
  simp only [feedElement, cpRead] at hs ⊢
  cases hq : places s 6 (sideEa (cpSrcCs im) (cpSrc im + i * cpBits im / 8))
      (Nat.min (Nat.max 1 (cpBits im / 8)) (cpLen im - i * cpBits im / 8)) with
  | error e =>
    rw [hq] at hs
    cases hs
  | ok q =>
    obtain ⟨ps, u⟩ := q
    rw [hq] at hs
    simp only [bind, Except.bind, pure, Except.pure, Except.ok.injEq, Prod.mk.injEq] at hs
    obtain ⟨rfl, rfl, rfl⟩ := hs
    rw [h.places hq]
    simp only [bind, Except.bind, pure, Except.pure, readPieces_congr hm h.ports hp, poisonPieces_congr hp]

/-- How a FEED stands after some elements, that began in a state with elements of its own in the register. -/
structure Fed (s : State) (core : Nat) (im : List Byte) (v : Nat → Nat) (p : Progress) : Prop where
  reach : SameReach s p.state
  mem : p.state.mem = s.mem
  poison : p.state.poison = s.poison
  running : p.stop = none
  fifo : (look {} (coreOf p.state core).dregs (cpDsel im)).fifo =
    (look {} (coreOf s core).dregs (cpDsel im)).fifo ++ (List.range p.done).map fun i => word (v i)

theorem feedElements_all {s : State} {core : Nat} {im : List Byte} {v : Nat → Nat} {bad : Nat → Bool}
    (hroom : (look {} (coreOf s core).dregs (cpDsel im)).fifo.length + feedCount im ≤ 64)
    (hv : ∀ i, i < feedCount im → feedElement s im i = .ok (v i, bad i, s)) {fuel : Nat} {p : Progress}
    (hp : Fed s core im v p) (hd : p.done ≤ feedCount im) (hf : feedCount im ≤ p.done + fuel) :
    (feedElements core im fuel p).done = feedCount im ∧ Fed s core im v (feedElements core im fuel p) := by
  induction fuel generalizing p with
  | zero => exact ⟨le_antisymm hd hf, hp⟩
  | succ fuel ih =>
    rw [feedElements]
    split
    · next hover => exact ⟨le_antisymm hd hover, hp⟩
    · next hmore =>
      rw [not_le] at hmore
      have hlen : ¬ 64 ≤ (look {} (coreOf p.state core).dregs (cpDsel im)).fifo.length := by
        rw [hp.fifo, List.length_append, List.length_map, List.length_range]
        omega
      rw [if_neg hlen, feedElement_congr hp.reach hp.mem hp.poison (hv _ hmore)]
      have hpush : SameReach p.state (onCore p.state core fun k => pushElement k (cpDsel im) (v p.done)) := .onCore p.state core
      refine ih (p := ⟨onCore p.state core fun k => pushElement k (cpDsel im) (v p.done), p.done + 1,
        p.poison || bad p.done, none⟩) ⟨hp.reach.trans hpush, hp.mem, hp.poison, rfl, ?_⟩ hmore (by
        dsimp only
        omega)
      dsimp only
      rw [coreOf_onCore_self, pushElement, adjust, look_put_self, hp.fifo, List.range_succ, List.map_append,
        List.append_assoc]
      rfl

/-! ### TILE -/

theorem copyTile_eq {im : List Byte} {p : Progress} {vs : List Nat} {bad : Bool} {s1 s2 : State}
    (hr : readTile p.state (cpBits im) (srcSide im) (cellsOf (cpRows im) (cpCols im)) = .ok (vs, bad, s1))
    (hw : writeTile s1 (cpBits im) (dstSide im) (cpFlag im 2) ((cellsOf (cpRows im) (cpCols im)).zip vs) = .ok s2) :
    copyTile im p = ⟨s2, ((cellsOf (cpRows im) (cpCols im)).length * cpBits im + 7) / 8, p.poison || bad, none⟩ := by
  simp only [copyTile, hr, hw, bind, Except.bind]
  rfl

theorem length_cellsOf (rows cols : Nat) : (cellsOf rows cols).length = rows * cols := by
  simp [cellsOf, List.length_flatMap]

theorem one_le_bits (im : List Byte) : 4 ≤ cpBits im := by
  have : 0 < 2 ^ (imageAt im 2 1 % 8) := Nat.two_pow_pos _
  unfold cpBits
  omega

/-- A TILE that passes its checks moves at least one element. -/
theorem tile_nonempty {im : List Byte} (hop : cpOp im = 2) (hbad : copyBad im = false) :
    0 < (cpRows im * cpCols im * cpBits im + 7) / 8 := by
  have hshape : (cpOp im == 2 && !(decide (1 ≤ cpRows im) && decide (cpRows im ≤ 64) && decide (1 ≤ cpCols im) &&
      decide (cpCols im ≤ 64))) = false := by
    simp only [copyBad, Bool.or_eq_false_iff] at hbad
    exact hbad.1.1.2
  simp only [hop, beq_self_eq_true, Bool.true_and, Bool.not_eq_false', Bool.and_eq_true, decide_eq_true_eq] at hshape
  obtain ⟨⟨⟨hr, -⟩, hc⟩, -⟩ := hshape
  have hpos : 1 * 1 * 4 ≤ cpRows im * cpCols im * cpBits im := Nat.mul_le_mul (Nat.mul_le_mul hr hc) (one_le_bits im)
  omega

/-! ### The commands (R138-R141) -/

theorem sameCopies_onEngine (s : State) (core : Nat) (leaves : List TlbEntry) : SameCopies s (onEngine s core leaves) :=
  SameCopies.onCore { s with curCore := core, curStream := 7 } core

section
variable {s : State} {core number : Nat} {c : CopyCmd} (hc : copyOf s core number = some c) (hdone : c.done = 0)
  (hpoison : c.poison = false) (hstall : c.stall = none)
include hc hdone hpoison hstall

/-- A COPY or FILL whose sides are reached moves all its bytes in one event. -/
theorem advanceCopy_bytes (hop : cpOp c.image = 1 ∨ cpOp c.image = 3)
    (hb : BothReach (onEngine s core (c.held ++ c.pinned)) c.image) :
    copyDone (advanceCopy s core c (copyBytes c.image (cpLen c.image / 32768 + 3))) core number (cpLen c.image) ∧
      (advanceCopy s core c (copyBytes c.image (cpLen c.image / 32768 + 3))).mem = (copyBytes c.image
        (cpLen c.image / 32768 + 3) ⟨onEngine s core (c.held ++ c.pinned), 0, false, none⟩).state.mem := by
  have hedges := edgesAhead_start (cpDst c.image) (cpLen c.image)
  have hedges' := edgesAhead_start (cpSrc c.image) (cpLen c.image)
  obtain ⟨hall, hrun, hreach⟩ := copyBytes_all hb (fuel := cpLen c.image / 32768 + 3)
    (p := ⟨onEngine s core (c.held ++ c.pinned), 0, false, none⟩) (.refl _) rfl (Nat.zero_le _) (by
      dsimp only
      omega)
  have hover : copyOver c.image (cpLen c.image) = true := by
    unfold copyOver
    obtain h | h := hop <;> simp [h]
  obtain ⟨hd, hm, -⟩ := advanceCopy_over hc hstall (f := copyBytes c.image (cpLen c.image / 32768 + 3))
    (by rw [hdone, hpoison]) hrun ((sameCopies_onEngine s core _).trans (.of_sameReach hreach)) (by rw [hall]; exact hover)
  rw [hall] at hd
  exact ⟨hd, hm⟩

end

theorem pieceLen_whole {im : List Byte} (hd : cpLen im ≤ toEdge (cpDstCs im) (cpDst im))
    (hs : cpOp im = 3 ∨ cpLen im ≤ toEdge (cpSrcCs im) (cpSrc im)) : pieceLen im 0 = cpLen im := by
  unfold pieceLen
  simp only [Nat.sub_zero, Nat.add_zero]
  refine Nat.min_eq_left ?_
  obtain h | h := hs
  · simpa [h] using hd
  · split
    · exact hd
    · exact Nat.le_min.2 ⟨hd, h⟩

theorem cleanHead_mem (s : State) (ps : List (Loc × Nat)) (a n start : Nat) : (cleanHead s ps a n start).mem = s.mem := by
  unfold cleanHead
  dsimp only
  split
  · split <;> rfl
  · rfl

section
variable {s : State} {core number : Nat} {c : CopyCmd} (hc : copyOf s core number = some c)
  (hbad : copyBad c.image = false) (hst : c.status = none) (hh : (coreOf s core).halted = false)
  (hsl : (coreOf s core).slice.isSome = true) (hm : mayStart (coreOf s core) c = true) (hdone : c.done = 0)
  (hpoison : c.poison = false) (hstall : c.stall = none)
include hc hbad hst hh hsl hm hdone hpoison hstall

theorem exec_copyCmd_all (hop : cpOp c.image = 1)
    (hreach : ∀ o n, 0 < n → o + n ≤ cpLen c.image → n ≤ toEdge (cpSrcCs c.image) (cpSrc c.image + o) →
      n ≤ toEdge (cpDstCs c.image) (cpDst c.image + o) →
      engineReaches s core (c.held ++ c.pinned) 6 (cpSrcCs c.image) (cpSrc c.image + o) n ∧
        engineReaches s core (c.held ++ c.pinned) 7 (cpDstCs c.image) (cpDst c.image + o) n) :
    ∃ t, exec (.copyCmd core number) s = .next t ∧ copyDone t core number (cpLen c.image) ∧
      ∀ ps qs, 0 < cpLen c.image → cpLen c.image ≤ toEdge (cpSrcCs c.image) (cpSrc c.image) →
        cpLen c.image ≤ toEdge (cpDstCs c.image) (cpDst c.image) →
        places (onEngine s core (c.held ++ c.pinned)) 6 (sideEa (cpSrcCs c.image) (cpSrc c.image)) (cpLen c.image) =
          .ok (ps, onEngine s core (c.held ++ c.pinned)) →
        places (onEngine s core (c.held ++ c.pinned)) 7 (sideEa (cpDstCs c.image) (cpDst c.image)) (cpLen c.image) =
          .ok (qs, onEngine s core (c.held ++ c.pinned)) →
        t.mem = (writePieces (onEngine s core (c.held ++ c.pinned)) qs
          (readPieces (onEngine s core (c.held ++ c.pinned)) ps)).mem := by
  have hedge : ∀ {o n}, n ≤ pieceLen c.image o → n ≤ toEdge (cpSrcCs c.image) (cpSrc c.image + o) ∧
      n ≤ toEdge (cpDstCs c.image) (cpDst c.image + o) := by
    intro o n h
    rw [pieceLen, if_neg (by simp [hop])] at h
    have h' := (Nat.le_min.1 h).2
    exact ⟨(Nat.le_min.1 h').2, (Nat.le_min.1 h').1⟩
  have hb : BothReach (onEngine s core (c.held ++ c.pinned)) c.image := {
    dst := fun o n h0 hlen hn => (hreach o n h0 hlen (hedge hn).1 (hedge hn).2).2
    src := fun _ o n h0 hlen hn => by
      obtain ⟨ps, hps, -⟩ := (hreach o n h0 hlen (hedge hn).1 (hedge hn).2).1
      exact ⟨ps, hps⟩ }
  obtain ⟨hd, hmem⟩ := advanceCopy_bytes hc hdone hpoison hstall (.inl hop) hb
  refine ⟨_, copyRun_eq (fun im => copyBytes im (cpLen im / 32768 + 3)) hc hbad hst hh hsl hm hop, hd,
    fun ps qs hlen hs hdst hps hqs => ?_⟩
  rw [hmem, copyBytes_one hlen (pieceLen_whole hdst (.inr hs)) (copyPiece_copy (.refl _) (by omega) hps hqs), cleanHead_mem]

theorem exec_fillCmd_all (hop : cpOp c.image = 3)
    (hreach : ∀ o n, 0 < n → o + n ≤ cpLen c.image → n ≤ toEdge (cpDstCs c.image) (cpDst c.image + o) →
      engineReaches s core (c.held ++ c.pinned) 7 (cpDstCs c.image) (cpDst c.image + o) n) :
    ∃ t, exec (.fillCmd core number) s = .next t ∧ copyDone t core number (cpLen c.image) ∧
      ∀ qs, 0 < cpLen c.image → cpLen c.image ≤ toEdge (cpDstCs c.image) (cpDst c.image) →
        places (onEngine s core (c.held ++ c.pinned)) 7 (sideEa (cpDstCs c.image) (cpDst c.image)) (cpLen c.image) =
          .ok (qs, onEngine s core (c.held ++ c.pinned)) →
        t.mem = (writePieces (onEngine s core (c.held ++ c.pinned)) qs (fillBytes c.image 0 (cpLen c.image))).mem := by
  have hedge : ∀ {o n}, n ≤ pieceLen c.image o → n ≤ toEdge (cpDstCs c.image) (cpDst c.image + o) := by
    intro o n h
    rw [pieceLen, if_pos (by simp [hop])] at h
    exact (Nat.le_min.1 h).2
  have hb : BothReach (onEngine s core (c.held ++ c.pinned)) c.image := {
    dst := fun o n h0 hlen hn => hreach o n h0 hlen (hedge hn)
    src := fun h => absurd hop h }
  obtain ⟨hd, hmem⟩ := advanceCopy_bytes hc hdone hpoison hstall (.inr hop) hb
  refine ⟨_, copyRun_eq (fun im => copyBytes im (cpLen im / 32768 + 3)) hc hbad hst hh hsl hm hop, hd,
    fun qs hlen hdst hqs => ?_⟩
  rw [hmem, copyBytes_one hlen (pieceLen_whole hdst (.inl hop)) (copyPiece_fill (.refl _) hop hqs), cleanHead_mem]

omit hdone hpoison in
theorem exec_tileCmd_all (hop : cpOp c.image = 2) {vs : List Nat} {bad : Bool} {s1 s2 : State}
    (hr : readTile (onEngine s core (c.held ++ c.pinned)) (cpBits c.image) (srcSide c.image)
      (cellsOf (cpRows c.image) (cpCols c.image)) = .ok (vs, bad, s1))
    (hw : writeTile s1 (cpBits c.image) (dstSide c.image) (cpFlag c.image 2)
      ((cellsOf (cpRows c.image) (cpCols c.image)).zip vs) = .ok s2) :
    ∃ t, exec (.tileCmd core number) s = .next t ∧ t.mem = s2.mem ∧
      copyDone t core number ((cpRows c.image * cpCols c.image * cpBits c.image + 7) / 8) := by
  have hrun := copyTile_eq (p := ⟨onEngine s core (c.held ++ c.pinned), c.done, c.poison, none⟩) hr hw
  rw [length_cellsOf] at hrun
  have hover : copyOver c.image ((cpRows c.image * cpCols c.image * cpBits c.image + 7) / 8) = true := by
    unfold copyOver
    simpa [hop] using tile_nonempty hop hbad
  obtain ⟨hd, hmem, -⟩ := advanceCopy_over hc hstall hrun rfl
    ((sameCopies_onEngine s core _).trans ((SameCopies.of_readTile hr).trans (.of_writeTile hw))) hover
  exact ⟨_, copyRun_eq copyTile hc hbad hst hh hsl hm hop, hmem, hd⟩

theorem exec_feedCmd_all (hop : cpOp c.image = 4) (hfirst : feedFirst s core number c.image = true)
    (hroom : (look {} (coreOf s core).dregs (cpDsel c.image)).fifo.length + feedCount c.image ≤ 64) {v : Nat → Nat}
    {bad : Nat → Bool} (hv : ∀ i, i < feedCount c.image →
      feedElement (onEngine s core (c.held ++ c.pinned)) c.image i =
        .ok (v i, bad i, onEngine s core (c.held ++ c.pinned))) :
    ∃ t, exec (.feedCmd core number) s = .next t ∧ copyDone t core number (feedCount c.image) ∧
      (look {} (coreOf t core).dregs (cpDsel c.image)).fifo =
        (look {} (coreOf s core).dregs (cpDsel c.image)).fifo ++
          (List.range (feedCount c.image)).map fun i => word (v i) := by
  have hdregs : (coreOf (onEngine s core (c.held ++ c.pinned)) core).dregs = (coreOf s core).dregs := by
    rw [onEngine, coreOf_onCore_self]
    rfl
  have hfirst' : feedFirst (onEngine s core (c.held ++ c.pinned)) core number c.image = true := by
    rw [feedFirst, hdregs]
    exact hfirst
  obtain ⟨hall, hfed⟩ := feedElements_all (by rw [hdregs]; exact hroom) hv (fuel := 64)
    (p := ⟨onEngine s core (c.held ++ c.pinned), 0, false, none⟩)
    ⟨.refl _, rfl, rfl, rfl, by simp⟩ (Nat.zero_le _) (by
      dsimp only
      omega)
  have hover : copyOver c.image (feedCount c.image) = true := by
    unfold copyOver
    simp [hop]
  obtain ⟨hd, -, hfifo⟩ := advanceCopy_over hc hstall (f := fun p =>
      if feedFirst p.state core number c.image then feedElements core c.image 64 p
      else { p with stop := some (.wait (.cause 1)) }) (by rw [if_pos hfirst', hdone, hpoison]) hfed.running
    ((sameCopies_onEngine s core _).trans (.of_sameReach hfed.reach)) (by rw [hall]; exact hover)
  rw [hall] at hd
  refine ⟨_, copyRun_eq (fun im p => if feedFirst p.state core number im then feedElements core im 64 p
      else { p with stop := some (.wait (.cause 1)) }) hc hbad hst hh hsl hm hop, hd, ?_⟩
  rw [hfifo, hfed.fifo, hall, hdregs]

end

end Sys2Proof.Slice0

namespace Sys2Proof.Slice0
open Sys2Proof.Machine

/-! ### The end of a command (R140) -/

/-- Cores but for what the trace and declared signals change, and timelines, are as before a record is posted. -/
structure PostKept (s t : State) : Prop where
  cores : ∀ c, untraced (coreOf t c) = untraced (coreOf s c)
  timelines : ∀ c, (ctxOf t c).timelines = (ctxOf s c).timelines

namespace PostKept

theorem refl (s : State) : PostKept s s := ⟨fun _ => rfl, fun _ => rfl⟩

theorem trans {s t u : State} (h : PostKept s t) (h' : PostKept t u) : PostKept s u :=
  ⟨fun c => (h'.cores c).trans (h.cores c), fun c => (h'.timelines c).trans (h.timelines c)⟩

theorem of_traceKept {s t : State} (h : TraceKept s t) : PostKept s t :=
  ⟨h.cores, fun c => h.ctxField (fun x => x.timelines) (c := c)⟩

theorem onCtx (s : State) (c : Nat) {f : Ctx → Ctx} (hf : ∀ x, (f x).timelines = x.timelines := by intro; rfl) :
    PostKept s (onCtx s c f) where
  cores _ := rfl
  timelines d := by
    by_cases hd : d = c
    · rw [hd, ctxOf_onCtx_self, hf]
    · rw [ctxOf_onCtx_ne s f hd]

theorem raiseIrq (s : State) (fn vec : Nat) : PostKept s (raiseIrq s fn vec) := by
  obtain ⟨i, p, h⟩ := raiseIrq_eq s fn vec
  rw [h]
  exact ⟨fun _ => rfl, fun _ => rfl⟩

theorem ite_left {s t : State} {p : Prop} [Decidable p] (h : PostKept s t) : PostKept s (if p then t else s) := by
  split
  · exact h
  · exact refl s

theorem of_postNow {s t : State} {ctx : Nat} {i : Item} (h : postNow s ctx i = some t) : PostKept s t := by
  simp only [postNow] at h
  split at h
  · cases h
  · split at h
    · cases h
    · next hw =>
      rw [← Option.some.inj h]
      refine (of_traceKept (.of_writeSpace hw)).trans (.trans ?_ (ite_left (raiseIrq _ _ _)))
      exact onCtx _ ctx

theorem enterItem (s : State) (ctx : Nat) (i : Item) : PostKept s (enterItem s ctx i) := by
  have hmatch : ∀ o : Option State, (∀ t, o = some t → PostKept s t) → PostKept s (match o with
      | some s => s
      | none => Machine.onCtx s ctx fun c =>
        { c with itwait := c.itwait ++ [i], itfull := c.itfull || flag (reg c 0x18B0) 31 }) := by
    intro o ho
    cases o with
    | none => exact onCtx s ctx
    | some t => exact ho t rfl
  refine hmatch _ fun t ht => ?_
  split at ht
  · exact of_postNow ht
  · cases ht

theorem postItem (s : State) (ctx : Nat) (i : Item) : PostKept s (postItem s ctx i) := by
  simp only [Machine.postItem]
  split
  · exact enterItem s ctx i
  · exact onCtx s ctx

theorem copies {s t : State} (h : PostKept s t) : SameCopies s t := fun c => by
  have hc := congrArg Core.copies (h.cores c)
  exact hc

end PostKept

theorem copyItem_kept (s : State) (core : Nat) (c : CopyCmd) (code : Nat) : PostKept s (copyItem s core c code) := by
  unfold copyItem
  split
  · exact .refl s
  · exact .postItem s _ _

theorem sameItems_pulse (s : State) (core input : Nat) : SameItems s (pulse s core input) := .of_ctxs rfl

theorem unbindFeed_copies (k : Core) (c : CopyCmd) : (unbindFeed k c).copies = k.copies := by
  unfold unbindFeed
  split <;> rfl

/-- A state with the command's pulse, if its image asks for one. -/
theorem tlOf_pulse (s : State) (core input ctx key : Nat) : tlOf (pulse s core input) ctx key = tlOf s ctx key := rfl

theorem copyEnd_timeline (s : State) (core : Nat) (c : CopyCmd) (code : Nat) :
    tlOf (copyEnd s core c code) c.ctx (tlKey 7 core) = tlComplete (tlOf s c.ctx (tlKey 7 core)) c.number := by
  have hpulse : ∀ t : State, tlOf (if cpFlag c.image 5 then pulse t core 7 else t) c.ctx (tlKey 7 core) =
      tlOf t c.ctx (tlKey 7 core) := by
    intro t
    split <;> rfl
  rw [copyEnd]
  rw [hpulse, tlOf_tlDone_self, tlOf, (copyItem_kept _ core c code).timelines]
  rfl

theorem copyEnd_copies (s : State) (core : Nat) (c : CopyCmd) (code : Nat) :
    (coreOf (copyEnd s core c code) core).copies =
      (coreOf s core).copies.filter fun x => !(x.ctx == c.ctx && x.number == c.number) := by
  have hpulse : ∀ t : State, (coreOf (if cpFlag c.image 5 then pulse t core 7 else t) core).copies =
      (coreOf t core).copies := by
    intro t
    split
    · rw [pulse, coreOf_onCore_self]
      rfl
    · rfl
  have hdone : ∀ t : State, (coreOf (tlDone t c.ctx (tlKey 7 core) c.number) core).copies = (coreOf t core).copies :=
    fun _ => rfl
  rw [copyEnd]
  rw [hpulse, hdone, (copyItem_kept _ core c code).copies, coreOf_onCore_self, unbindFeed_copies]

theorem copyEnd_items (s : State) (core : Nat) (c : CopyCmd) {code : Nat} (h : code = 0 ∨ roomForItems s) :
    itemsOver s (copyEnd s core c code) = false := by
  obtain rfl | hroom := h
  · refine SameItems.not_over ?_
    have hpulse : ∀ t : State, SameItems t (if cpFlag c.image 5 then pulse t core 7 else t) := fun t =>
      .ite_left (sameItems_pulse t core 7)
    have hcore : ∀ f, SameItems s (tlDone (copyItem (onCore s core f) core c 0) c.ctx (tlKey 7 core) c.number) := fun f =>
      .trans (.of_ctxs (t := onCore s core f) rfl) (.onCtx _ _)
    exact (hcore _).trans (hpulse _)
  · exact itemsOver_of_room hroom

/-- A command whose status has come leaves the queue with it. -/
theorem exec_copyCmdComplete {s : State} {core number code : Nat} {c : CopyCmd} (hc : copyOf s core number = some c)
    (hstatus : copyStatus (coreOf s core) c = some code) (hstall : c.stall = none) (h : code = 0 ∨ roomForItems s) :
    exec (.copyCmdComplete core number) s = .next (copyEnd s core c code) := by
  have hstalled : copyStall s core c none = s := by simp [copyStall, hstall]
  rw [show exec (.copyCmdComplete core number) s = execCopyCmdComplete core number s from rfl, execCopyCmdComplete, hc]
  simp only [hstatus, hstalled, copyEnd_items s core c h, Bool.false_eq_true, if_false]

theorem copyCommandsRun : CopyCommandsRun := by
  refine ⟨fun s core number c hc hbad hst hh hsl hm => ⟨fun hop => ?_, fun hop => ?_, fun hop => ?_, fun hop => ?_,
    fun hdone hpoison hstall => ⟨fun hop hreach => ?_, fun hop hreach => ?_, fun hop vs bad s1 s2 hr hw => ?_,
      fun hop hfirst hroom v bad hv => ?_⟩⟩, fun s core number code c hc hst hstall h => ?_,
    fun s core number c hc hst hstall hbad hstarted hh hr => ?_⟩
  · exact copyRun_eq (fun im => copyBytes im (cpLen im / 32768 + 3)) hc hbad hst hh hsl hm hop
  · exact copyRun_eq copyTile hc hbad hst hh hsl hm hop
  · exact copyRun_eq (fun im => copyBytes im (cpLen im / 32768 + 3)) hc hbad hst hh hsl hm hop
  · exact copyRun_eq (fun im p => if feedFirst p.state core number im then feedElements core im 64 p
      else { p with stop := some (.wait (.cause 1)) }) hc hbad hst hh hsl hm hop
  · exact exec_copyCmd_all hc hbad hst hh hsl hm hdone hpoison hstall hop hreach
  · exact exec_fillCmd_all hc hbad hst hh hsl hm hdone hpoison hstall hop hreach
  · exact exec_tileCmd_all hc hbad hst hh hsl hm hstall hop hr hw
  · exact exec_feedCmd_all hc hbad hst hh hsl hm hdone hpoison hstall hop hfirst hroom hv
  · refine ⟨exec_copyCmdComplete hc (by rw [copyStatus, hst]; rfl) hstall h, fun x hx hctx hnum => ?_,
      copyEnd_timeline s core c code⟩
    rw [copyEnd_copies] at hx
    have hout := (List.mem_filter.1 hx).2
    simp [hctx, hnum] at hout
  · refine exec_copyCmdComplete hc ?_ hstall (.inr hr)
    have hall : (copiesBefore (coreOf s core) c.number).all (·.started) = true := by
      have hnum : c.number = number := by simpa using List.find?_some hc
      rw [List.all_eq_true, hnum]
      exact hstarted
    rw [copyStatus, hst, hbad, hall, hh]
    rfl

/-- Settles O38: the copy commands by the state they leave (`copyBytes_all`, `feedElements_all`), the queues by their
ends (`offer_of_room`), the timelines by what settling takes out (`tlSettle_spec`). -/
theorem copyQueueAndTimelines : Obligations.CopyQueueAndTimelines := by
  unfold Obligations.CopyQueueAndTimelines
  exact ⟨copyCommandsRun, pushWaitAndTimelines, timelinesRiseInOrder⟩

end Sys2Proof.Slice0

namespace Sys2Proof.Slice0
open Sys2Proof.Machine

/-! ### Reading a signal's bytes keeps what its logic holds (R172, R173) -/

/-- The claiming of regions, by a relation that traces and writes of memory keep (R105). -/
theorem TraceFrame.claimFrame {R : State → State → Prop} (hR : TraceFrame R)
    (hslots : ∀ s ctx record core f, R s (onSlots s ctx record core f))
    (hregions : ∀ s core (f : Core → List Region), R s (onCore s core fun k => { k with regions := f k })) : ClaimFrame R where
  refl := hR.refl
  trans := hR.trans
  slots := hslots
  relocate s a b n := by
    have h := hR.device s (relocate s a b n).mem (relocate s a b n).poison s.module s.ports s.irqs s.msixPending
    exact h
  clear s _ _ := hR.device s _ _ s.module s.ports s.irqs s.msixPending
  regions := hregions
  trace := hR.trace

/-- What relates a signal of a core after a write to the same before: it may be tainted (R172). -/
def SameHeads (s t : State) : Prop :=
  t.curCore = s.curCore ∧ ∀ c key, (find (coreOf t c).signals key).map (·.head) = (find (coreOf s c).signals key).map (·.head)

namespace SameHeads

theorem refl (s : State) : SameHeads s s := ⟨rfl, fun _ _ => rfl⟩

theorem trans {s t u : State} (h : SameHeads s t) (h' : SameHeads t u) : SameHeads s u :=
  ⟨h'.1.trans h.1, fun c key => (h'.2 c key).trans (h.2 c key)⟩

theorem onCore (s : State) (c : Nat) {f : Core → Core}
    (hf : ∀ k key, (find (f k).signals key).map (·.head) = (find k.signals key).map (·.head)) : SameHeads s (onCore s c f) := by
  refine ⟨rfl, fun d key => ?_⟩
  by_cases hd : d = c
  · rw [hd, coreOf_onCore_self, hf]
  · rw [coreOf_onCore_ne s f hd]

theorem of_cores {s t : State} (h : t.cores = s.cores) (hc : t.curCore = s.curCore) : SameHeads s t :=
  ⟨hc, fun c key => by simp only [coreOf, h]⟩

end SameHeads

theorem find_map_values {α β : Type} (m : Map α) (f : Nat → α → β) (key : Nat) :
    find (m.map fun p => (p.1, f p.1 p.2)) key = (find m key).map (f key) := by
  induction m with
  | nil => rfl
  | cons p rest ih =>
    obtain ⟨j, v⟩ := p
    simp only [List.map_cons, find]
    by_cases h : j = key
    · simp [h]
    · rw [if_neg (by simpa using h), if_neg (by simpa using h), ih]

theorem find_taint (k : Core) (ctx o n key : Nat) :
    (find (taint k ctx o n).signals key).map (·.head) = (find k.signals key).map (·.head) := by
  have h := find_map_values k.signals (fun key g => if sigOwner key == ctx &&
    (sigAreas g.entry g.table g.headAt).any (fun p => meet p.1 p.2 o n) then { g with tainted := true } else g) key
  refine (congrArg (Option.map (·.head)) h).trans ?_
  cases find k.signals key with
  | none => rfl
  | some g =>
    simp only [Option.map_some]
    split <;> rfl

theorem SameHeads.traceFrame : TraceFrame SameHeads where
  refl := refl
  trans := trans
  device _ _ _ _ _ _ _ := of_cores rfl rfl
  taint s core ctx o n := onCore s core fun k key => find_taint k ctx o n key
  buffer s core _ hf := onCore s core fun k key => by
    have h := congrArg (fun k : Core => (find k.signals key).map (·.head)) (hf k)
    exact h
  place _ _ _ _ := of_cores rfl rfl

theorem SameHeads.claimFrame : ClaimFrame SameHeads :=
  traceFrame.claimFrame (fun _ _ _ _ _ => of_cores rfl rfl) fun s core _ => onCore s core fun _ _ => rfl

/-! ### Writing entries and heads -/

/-- A relation that a write of a signal's bytes keeps, with the region claimed that they lie in. -/
theorem of_writeEntry {R : State → State → Prop} (hR : ClaimFrame R) (hw : ∀ s l bs, R s (writeAt s l bs)) {s t : State}
    {g : Signal} {o : Nat} {bs : List Byte} (h : writeEntry s g o bs = .ok t) : R s t := by
  unfold writeEntry at h
  cases hc : csSpan s s.curCore (g.table + o) bs.length 0 with
  | error e =>
    rw [hc] at h
    cases h
  | ok p =>
    obtain ⟨ps, u⟩ := p
    simp only [hc, bind, Except.bind] at h
    rw [← Except.ok.inj h]
    split
    · exact hR.trans (hR.of_csSpan hc) (hw _ _ _)
    · exact hR.of_csSpan hc

theorem of_scribbleHead {R : State → State → Prop} (hR : ClaimFrame R) (hw : ∀ s l bs, R s (writeAt s l bs))
    (hdraw : ∀ s n, R s { s with free := n }) {s t : State} {g : Signal} (h : scribbleHead s g = .ok t) : R s t := by
  unfold scribbleHead drawBytes at h
  cases hc : csSpan { s with free := s.free + 16 } s.curCore g.headAt 16 0 with
  | error e =>
    simp only [hc, bind, Except.bind] at h
    cases h
  | ok p =>
    obtain ⟨ps, u⟩ := p
    simp only [hc, bind, Except.bind] at h
    rw [← Except.ok.inj h]
    refine hR.trans (hdraw s (s.free + 16)) ?_
    split
    · exact hR.trans (hR.of_csSpan hc) (hw _ _ _)
    · exact hR.of_csSpan hc

theorem sameItems_writeEntry {s t : State} {g : Signal} {o : Nat} {bs : List Byte} (h : writeEntry s g o bs = .ok t) :
    SameItems s t := of_writeEntry sameItems_claimFrame SameItems.traceFrame.writeAt h

theorem sameItems_scribbleHead {s t : State} {g : Signal} (h : scribbleHead s g = .ok t) : SameItems s t :=
  of_scribbleHead sameItems_claimFrame SameItems.traceFrame.writeAt (fun _ _ => .of_ctxs rfl) h

theorem sameHeads_scribbleHead {s t : State} {g : Signal} (h : scribbleHead s g = .ok t) : SameHeads s t :=
  of_scribbleHead SameHeads.claimFrame SameHeads.traceFrame.writeAt (fun _ _ => .of_cores rfl rfl) h

theorem sameItems_onDesc (s : State) (ctx n : Nat) (f : Descriptor → Descriptor) : SameItems s (onDesc s ctx n f) :=
  .onCtx s ctx

/-! ### SIGDEF (R170, R171, R173) -/

theorem exec_sigdef_eq {f : EFields} {s s1 s2 t : State} {o : Word} {im : List Byte} (hg : guardHolds s = true)
    (hr : roomForItems s) (ho : readGQ s f.a = .ok o) (hctx : sctxOk s = true) (hal : o.toNat % 64 = 0)
    (hin : o.toNat + 64 ≤ Config.csTop) (hl : loadCs s o.toNat 64 0 = .ok (im, s1))
    (he : entryDeclared s1 ((descOf s1 (myCtx s1) (myCore s1).sctx).sigtab + 64 * (f.n12.toNat % 1024)) = .ok (false, s2))
    (hnew : sigOf s2 (myKey s2 (f.n12.toNat % 1024)) = none)
    (hok : sigImageOk im (f.n12.toNat % 1024) (descOf s1 (myCtx s1) (myCore s1).sctx).sigtab
      (descOf s1 (myCtx s1) (myCore s1).sctx).heads = true)
    (hd : declare s2 (f.n12.toNat % 1024) im = .ok t) : exec (.sigdef f) s = .next (finish t 8 none) := by
  have hal' : (o.toNat % 64 != 0) = false := by simp [hal]
  rw [show exec (.sigdef f) s = execSigdef f s from rfl, execSigdef, guarded_of_holds hg, ho]
  simp only [bind, Except.bind, hctx, Bool.not_true, Bool.false_eq_true, if_false, hal', not_lt.2 hin, hl, sigNumber, he,
    hnew, Option.isSome_none, hok, Bool.or_self, hd]
  exact concludeNext_of_room hr t 8

theorem coreOf_onDesc (s : State) (ctx n : Nat) (f : Descriptor → Descriptor) (c : Nat) :
    coreOf (onDesc s ctx n f) c = coreOf s c := rfl

theorem descOf_onDesc_self (s : State) (ctx n : Nat) (f : Descriptor → Descriptor) :
    descOf (onDesc s ctx n f) ctx n = f (descOf s ctx n) := by
  have hfind : find (ctxOf (onDesc s ctx n f) ctx).descs n = some (f (descOf s ctx n)) := by
    rw [onDesc, ctxOf_onCtx_self, find_put_self]
  rw [descOf, hfind]

theorem find_declared (s : State) (ctx n key : Nat) (g : Signal) (d : Descriptor → Descriptor) :
    find (myCore (onDesc (onCore s s.curCore fun k => { k with signals := put k.signals key g }) ctx n d)).signals key =
      some g := by
  have hdesc : ∀ t : State, myCore (onDesc t ctx n d) = myCore t := fun _ => rfl
  have hcore : ∀ f : Core → Core, myCore (onCore s s.curCore f) = f (coreOf s s.curCore) := fun _ =>
    coreOf_onCore_self _ _ _
  rw [hdesc, hcore, find_put_self]

/-- What a declaration leaves of the signal and its stream context. -/
theorem declare_spec {s t : State} {n : Nat} {im : List Byte} (h : declare s n im = .ok t) :
    (∃ g, find (myCore t).signals (myKey s n) = some g ∧ g.head = 0 ∧ g.front = 0 ∧ g.marked = [] ∧ g.samples = [] ∧
      g.blocks = [] ∧ g.entry = overlay (overlay im 48 (toBytes 8 (descOf s (myCtx s) (myCore s).sctx).now)) 0
        (toBytes 1 (imageAt im 0 1 % 64 + 64))) ∧
    (descOf t (myCtx s) (myCore s).sctx).bound = true ∧ (descOf t (myCtx s) (myCore s).sctx).bcore = t.curCore := by
  unfold declare at h
  dsimp only at h
  split at h
  · cases h
  · simp only [bind, Except.bind] at h
    split at h
    · cases h
    · split at h
      · cases h
      · split at h
        · cases h
        · next u _ =>
          rw [← Except.ok.inj h]
          refine ⟨⟨_, find_declared u _ _ _ _ _, rfl, rfl, rfl, rfl, rfl, rfl⟩, ?_, ?_⟩
          · rw [descOf_onDesc_self]
          · rw [descOf_onDesc_self]
            rfl

/-! ### SIGDROP and SIGRST (R174) -/

section
variable {f : EFields} {s r : State} {g : Signal} (hg : guardHolds r = true) (hr : r = resolve s [f.n12.toNat % 1024])
  (hn : namedSignal r (f.n12.toNat % 1024) = .ok g) (hd : drainSignal r (f.n12.toNat % 1024) = .ok ())
include hg hr hn hd

theorem exec_sigdrop_eq {t : State} (hw : writeEntry r g 0 (toBytes 1 (imageAt g.entry 0 1 % 64)) = .ok t) :
    exec (.sigdrop f) s = .next (finish (onDesc
      (onCore t t.curCore fun k => unpin { k with signals := erase k.signals (myKey t (f.n12.toNat % 1024)) } (myCtx t))
      (myCtx t) (myCore (onCore t t.curCore fun k =>
        unpin { k with signals := erase k.signals (myKey t (f.n12.toNat % 1024)) } (myCtx t))).sctx
      fun d => { d with nsig := d.nsig - 1, bound := d.bound && 1 < d.nsig }) 8 none) := by
  rw [show exec (.sigdrop f) s = execSigdrop f s from rfl, execSigdrop]
  simp only [sigNumber, ← hr]
  rw [guarded_of_holds hg, hn]
  simp only [bind, Except.bind, hd, hw]
  refine SameItems.concludeNext ?_ 8
  exact (sameItems_writeEntry hw).trans (.trans (.of_ctxs rfl) (sameItems_onDesc _ _ _ _))

theorem exec_sigrst_eq {s1 t : State}
    (hw : writeEntry r g 48 (toBytes 8 (descOf r (myCtx r) (myCore r).sctx).now) = .ok s1)
    (hh : scribbleHead s1 g = .ok t) :
    exec (.sigrst f) s = .next (finish (onSig t (myKey t (f.n12.toNat % 1024)) fun h =>
      restart h (descOf r (myCtx r) (myCore r).sctx).now) 8 none) := by
  rw [show exec (.sigrst f) s = execSigrst f s from rfl, execSigrst]
  simp only [sigNumber, ← hr]
  rw [guarded_of_holds hg, hn]
  simp only [bind, Except.bind, hd, hw, hh]
  refine SameItems.concludeNext ?_ 8
  exact (sameItems_writeEntry hw).trans ((sameItems_scribbleHead hh).trans (.of_ctxs rfl))

end

/-! ### TICK (R175, R176) -/

theorem sameItems_tickPoint {s t : State} {l : List (Nat × Signal)} (h : tickPoint s l = .ok t) : SameItems s t := by
  induction l generalizing s with
  | nil =>
    cases h
    exact .refl _
  | cons p rest ih =>
    obtain ⟨key, g⟩ := p
    cases hh : scribbleHead (onSig s key advanceHead) g with
    | error e => simp [tickPoint, hh, bind, Except.bind] at h
    | ok u =>
      simp only [tickPoint, hh, bind, Except.bind] at h
      exact .trans (.of_ctxs rfl) ((sameItems_scribbleHead hh).trans (ih h))

theorem find_onSig (s : State) (key j : Nat) (f : Signal → Signal) :
    find (coreOf (onSig s key f) s.curCore).signals j =
      if j = key then (find (coreOf s s.curCore).signals key).map f else find (coreOf s s.curCore).signals j := by
  rw [onSig, coreOf_onCore_self]
  by_cases hj : j = key
  · subst hj
    rw [if_pos rfl]
    split
    · next g hg => rw [hg, find_put_self, Option.map_some]
    · next hg => rw [hg, Option.map_none]
  · rw [if_neg hj]
    split
    · exact find_put_ne _ _ hj
    · rfl

/-- The tick point moves the heads of the listed signals by one, and no other. -/
theorem tickPoint_heads {s t : State} {l : List (Nat × Signal)} (h : tickPoint s l = .ok t) (hnodup : (l.map (·.1)).Nodup)
    (key : Nat) : t.curCore = s.curCore ∧ (find (coreOf t s.curCore).signals key).map (·.head) =
      if key ∈ l.map (·.1) then (find (coreOf s s.curCore).signals key).map (·.head + 1)
      else (find (coreOf s s.curCore).signals key).map (·.head) := by
  induction l generalizing s with
  | nil =>
    cases h
    exact ⟨rfl, rfl⟩
  | cons p rest ih =>
    obtain ⟨j, g⟩ := p
    cases hh : scribbleHead (onSig s j advanceHead) g with
    | error e => simp [tickPoint, hh, bind, Except.bind] at h
    | ok u =>
      simp only [tickPoint, hh, bind, Except.bind] at h
      obtain ⟨hcore, hheads⟩ := sameHeads_scribbleHead hh
      have hcore' : u.curCore = s.curCore := hcore
      rw [List.map_cons, List.nodup_cons] at hnodup
      obtain ⟨hc, hrest⟩ := ih h hnodup.2
      refine ⟨hc.trans hcore', ?_⟩
      have hu : ∀ F : Nat → Nat, (find (coreOf u s.curCore).signals key).map (fun g => F g.head) =
          if key = j then (find (coreOf s s.curCore).signals key).map (fun g => F (g.head + 1))
          else (find (coreOf s s.curCore).signals key).map fun g => F g.head := by
        intro F
        have hstep := congrArg (Option.map F) (hheads s.curCore key)
        rw [Option.map_map, Option.map_map, find_onSig] at hstep
        refine hstep.trans ?_
        split
        · next hj =>
          subst hj
          rw [Option.map_map]
          rfl
        · rfl
      rw [hcore'] at hrest
      rw [hrest, List.map_cons]
      by_cases hj : key = j
      · have hnot : key ∉ rest.map (·.1) := hj ▸ hnodup.1
        rw [if_neg hnot, if_pos (List.mem_cons.2 (.inl hj)), hu fun n => n, if_pos hj]
      · by_cases hin : key ∈ rest.map (·.1)
        · rw [if_pos hin, if_pos (List.mem_cons.2 (.inr hin)), hu fun n => n + 1, if_neg hj]
        · rw [if_neg hin, if_neg (by rw [List.mem_cons, not_or]; exact ⟨hj, hin⟩), hu fun n => n, if_neg hj]

theorem advances_iff (now : Nat) (g : Signal) :
    advances now g = true ↔ (now : Int) % sigDiv g.entry = sigPhase g.entry % sigDiv g.entry := by
  rw [advances, beq_iff_eq]
  exact Int.emod_eq_emod_iff_emod_sub_eq_zero.symm

theorem find_of_nodup {α : Type} {m : Map α} (h : (m.map (·.1)).Nodup) {key : Nat} {v : α} (hm : (key, v) ∈ m) :
    find m key = some v := by
  induction m with
  | nil => cases hm
  | cons p rest ih =>
    obtain ⟨j, w⟩ := p
    rw [List.map_cons, List.nodup_cons] at h
    rw [find]
    by_cases hj : j = key
    · rw [if_pos (by simpa using hj)]
      obtain heq | hm := List.mem_cons.1 hm
      · cases heq
        rfl
      · exact absurd (hj ▸ List.mem_map.2 ⟨_, hm, rfl⟩) h.1
    · rw [if_neg (by simpa using hj)]
      obtain heq | hm := List.mem_cons.1 hm
      · cases heq
        exact absurd rfl hj
      · exact ih h.2 hm

theorem nodup_keys_filter {α : Type} {m : Map α} (h : (m.map (·.1)).Nodup) (p : Nat × α → Bool) :
    ((m.filter p).map (·.1)).Nodup := h.sublist (List.filter_sublist.map _)

theorem exec_tick_eq {s t : State} (hg : guardHolds s = true) (hctx : sctxOk s = true)
    (hnow : (descOf s (myCtx s) (myCore s).sctx).now < 2 ^ 64 - 1) (hused : usedSignals s = [])
    (hroom : roomWanted ((descOf s (myCtx s) (myCore s).sctx).now + 1) (contextSignals s) = [])
    (ht : tickPoint s ((contextSignals s).filter fun p =>
      advances ((descOf s (myCtx s) (myCore s).sctx).now + 1) p.2) = .ok t) :
    exec .tick s = .next (finish (onDesc t (myCtx s) (myCore s).sctx fun d =>
      { d with now := (descOf s (myCtx s) (myCore s).sctx).now + 1 }) 8 none) := by
  have hdrain : drainAll s = .ok () := by simp [drainAll, hused]
  rw [show exec .tick s = execTick s from rfl, execTick]
  simp only [hg, hctx, Bool.not_true, Bool.false_eq_true, if_false, not_le.2 hnow, hdrain, hroom, ht, bind, Except.bind]
  exact ((sameItems_tickPoint ht).trans (sameItems_onDesc _ _ _ _)).concludeNext 8

theorem tick_heads {s t : State} {now : Nat} (hnodup : ((myCore s).signals.map (·.1)).Nodup)
    (ht : tickPoint s ((contextSignals s).filter fun p => advances now p.2) = .ok t) {key : Nat} {g : Signal}
    (hin : (key, g) ∈ contextSignals s) : (find (coreOf t s.curCore).signals key).map (·.head) = some
      (if (now : Int) % sigDiv g.entry = sigPhase g.entry % sigDiv g.entry then g.head + 1 else g.head) := by
  have hkeys := nodup_keys_filter hnodup fun p => p.1 / 1024 == myKey s 0 / 1024
  have hfind : find (coreOf s s.curCore).signals key = some g := find_of_nodup hnodup (List.mem_filter.1 hin).1
  have hmem : key ∈ ((contextSignals s).filter fun p => advances now p.2).map (·.1) ↔ advances now g = true := by
    constructor
    · intro h
      obtain ⟨⟨j, g'⟩, hp, rfl⟩ := List.mem_map.1 h
      obtain ⟨hp, hadv⟩ := List.mem_filter.1 hp
      have hsame := (find_of_nodup hkeys hp).symm.trans (find_of_nodup hkeys hin)
      rw [← Option.some.inj hsame]
      exact hadv
    · exact fun h => List.mem_map.2 ⟨_, List.mem_filter.2 ⟨hin, h⟩, rfl⟩
  rw [(tickPoint_heads ht (nodup_keys_filter hkeys _) key).2, hfind]
  simp only [hmem, advances_iff, Option.map_some]
  split <;> rfl

/-! ### SCTX (R177, R328) -/

theorem traceKept_writeDesc (s : State) (ctx n : Nat) : TraceKept s (writeDesc s ctx n) := by
  unfold writeDesc
  split
  · exact .refl s
  · exact TraceKept.traceFrame.writeAt s _ _

theorem sameItems_dropDesc (s : State) (core key : Nat) : SameItems s (dropDesc s core key) := by
  unfold dropDesc
  exact (traceKept_writeDesc s _ _).sameItems.trans (.trans (.of_ctxs (t := onCore _ core _) rfl) (.ite_right (.onCtx _ _)))

theorem dropDesc_sctx (s : State) (core key : Nat) : (coreOf (dropDesc s core key) core).sctx = (coreOf s core).sctx := by
  have hite : ∀ (b : Bool) (t : State) (c : Nat) (f : Ctx → Ctx),
      (coreOf (if b then t else onCtx t c f) core).sctx = (coreOf t core).sctx := by
    intro b t c f
    cases b <;> rfl
  unfold dropDesc
  dsimp only
  rw [hite, coreOf_onCore_self]
  exact (traceKept_writeDesc s _ _).coreField (fun k => k.sctx) (c := core)

theorem sameItems_switchSctx (s : State) (core ctx n : Nat) : SameItems s (switchSctx s core ctx n) := by
  have hleave : SameItems s (leaveDesc s core ctx (coreOf s core).sctx) := by
    unfold leaveDesc
    refine .ite_right ?_
    dsimp only
    split
    · exact .of_ctxs rfl
    · exact .trans (.of_ctxs (t := (drawWord s).2) rfl) (sameItems_dropDesc _ _ _)
  have hfetch : ∀ t, SameItems t (fetchDesc t core ctx n) := by
    intro t
    unfold fetchDesc
    refine .ite_right ?_
    dsimp only
    refine .trans ?_ (.trace _ _ _ _ _)
    refine .trans ?_ (sameItems_onDesc _ _ _ _)
    refine .trans ?_ (.of_ctxs rfl)
    split
    · exact .of_ctxs rfl
    · exact .trans (.of_ctxs (t := (drawWord (drawWord t).2).2) rfl) (sameItems_dropDesc _ _ _)
  unfold switchSctx
  exact hleave.trans (.trans (.of_ctxs (t := onCore _ core _) rfl) (.ite_right (hfetch _)))

theorem switchSctx_sctx (s : State) (core ctx n : Nat) : (coreOf (switchSctx s core ctx n) core).sctx = n := by
  have hfetch : ∀ t, (coreOf (fetchDesc t core ctx n) core).sctx = (coreOf t core).sctx := by
    intro t
    unfold fetchDesc
    dsimp only
    split
    · rfl
    · rw [(TraceKept.trace _ _ _ _ _).coreField (fun k => k.sctx) (c := core)]
      rw [coreOf_onDesc, coreOf_onCore_self]
      dsimp only
      split
      · rfl
      · exact dropDesc_sctx _ _ _
  unfold switchSctx
  dsimp only
  split
  · rw [coreOf_onCore_self]
  · rw [hfetch, coreOf_onCore_self]

theorem exec_sctx_eq {f : EFields} {s : State} {v : Word} (hg : guardHolds s = true) (ha : readGQ s f.a = .ok v)
    (h20 : v.toNat < 2 ^ 20) (hb : v = 0 ∨ (descOf s (myCtx s) v.toNat).bound = false ∨
      (descOf s (myCtx s) v.toNat).bcore = s.curCore) (hused : usedSignals s = []) :
    exec (.sctx f) s = .next (finish (switchSctx s s.curCore (myCtx s) v.toNat) 8 none) := by
  have hdrain : drainAll s = .ok () := by simp [drainAll, hused]
  have hfree : (v.toNat != 0 && (descOf s (myCtx s) v.toNat).bound && (descOf s (myCtx s) v.toNat).bcore != s.curCore) =
      false := by
    obtain rfl | h | h := hb
    · rfl
    · simp [h]
    · simp [h]
  rw [show exec (.sctx f) s = execSctx f s from rfl, execSctx, guarded_of_holds hg, ha]
  simp only [bind, Except.bind, not_le.2 h20, if_false, hfree, Bool.false_eq_true, hdrain]
  exact (sameItems_switchSctx s _ _ _).concludeNext 8

/-- Settles O39: each member's state is computed, its new records excluded by what it changes (`of_writeEntry`); the tick
point moves the heads of the signals it lists (`tickPoint_heads`). -/
theorem signalsDeclareAndAdvance : Obligations.SignalsDeclareAndAdvance := by
  unfold Obligations.SignalsDeclareAndAdvance
  refine ⟨fun f s s1 s2 t o im hg hr ho hctx hal hin hl he hnew hok hd =>
      ⟨exec_sigdef_eq hg hr ho hctx hal hin hl he hnew hok hd, declare_spec hd⟩,
    fun f s r t g hg hr hn hd hw => exec_sigdrop_eq hg hr hn hd hw,
    fun f s r s1 t g hg hr hn hd hw hh =>
      ⟨exec_sigrst_eq hg hr hn hd hw hh, fun h now => ⟨rfl, rfl, rfl, rfl, rfl, rfl⟩⟩,
    fun s t hg hctx hnow hused hroom ht => ⟨exec_tick_eq hg hctx hnow hused hroom ht, fun hnodup key g hin => ?_⟩,
    fun f s v hg ha h20 hb hused => ⟨exec_sctx_eq hg ha h20 hb hused, switchSctx_sctx _ _ _ _⟩⟩
  have h := tick_heads hnodup ht hin
  rwa [Nat.cast_add, Nat.cast_one] at h

end Sys2Proof.Slice0

namespace Sys2Proof.Slice0
open Sys2Proof.Machine

/-! ### Taps (R179-R185, R329) -/

theorem resolve_one_ctxs (s : State) (n : Nat) : (resolve s [n]).ctxs = s.ctxs := (outsideKept_resolve_one s n).contexts

theorem room_resolve_one {s : State} (hr : roomForItems s) (n : Nat) : roomForItems (resolve s [n]) := by
  simpa only [roomForItems, ctxOf, resolve_one_ctxs] using hr

/-- The lag an instruction names matters to the trap only. -/
theorem namedSignal_lag {s : State} {n : Nat} {g : Signal} (h : namedSignal s n = .ok g) (lag : Option Nat) :
    namedSignal s n lag = .ok g := by
  unfold namedSignal at h ⊢
  split
  · next hc =>
    rw [if_pos hc] at h
    cases h
  · next hc =>
    rw [if_neg hc] at h
    split
    · next hg =>
      rw [hg] at h
      exact h
    · next hg =>
      rw [hg] at h
      cases h

theorem exec_tapld_eq {f : EFields} {s r s1 s2 : State} {g : Signal} {x : Word} {lag v : Nat} (hg : guardHolds r = true)
    (hroom : roomForItems s) (hr : r = resolve s [f.n12.toNat % 1024])
    (hn : namedSignal r (f.n12.toNat % 1024) = .ok g) (hx : readGQ r f.a = .ok x)
    (hlag : lagOf r f = .ok lag) (hdepth : lag < sigDepth g.entry) (hframe : x.toNat < sigFrame g.entry)
    (hmark : lag = 0 → headOf r (f.n12.toNat % 1024) ∈ g.marked)
    (hfront : flag f.opt.toNat 5 = true → (headOf r (f.n12.toNat % 1024) : Int) - lag < g.front)
    (hopen : openFar r (f.n12.toNat % 1024) g [(headOf r (f.n12.toNat % 1024) : Int) - lag] = .ok s1)
    (helem : sampleElem s1 (f.n12.toNat % 1024) g ((headOf r (f.n12.toNat % 1024) : Int) - lag) x.toNat = .ok (v, s2))
    (hd : settled (me s2) f.dst = .ok ()) :
    exec (.tapld f) s = .next (finish (written s2 f.dst (tapValue (sigFmt g.entry) v)) 8 none) := by
  have hwait : flag f.opt.toNat 5 = true →
      frontWait (f.n12.toNat % 1024) g ((headOf r (f.n12.toNat % 1024) : Int) - lag) = .ok () := fun h => if_pos (hfront h)
  have htap : tapElem (f.n12.toNat % 1024) lag g (x.toNat : Int) = .ok x.toNat := by
    simp [tapElem, hframe]
  have hcheck : checkRead r (f.n12.toNat % 1024) g lag 1 = .ok () := by
    have hdeep : ¬ sigDepth g.entry < lag + 1 := by omega
    rw [checkRead, if_neg hdeep]
    by_cases h0 : lag = 0
    · simp [h0, isMarked, hmark h0]
    · simp [h0]
  rw [show exec (.tapld f) s = execTapld f s from rfl, execTapld]
  simp only [sigNumber, ← hr]
  rw [guarded_of_holds hg, namedSignal_lag hn]
  simp only [bind, Except.bind, hx, hlag, not_le.2 hdepth, htap, hcheck, hopen, helem, if_false]
  rw [writeReg_of_settled hd]
  have hroom' : roomForItems r := hr ▸ room_resolve_one hroom _
  split
  · next h =>
    rw [hwait h]
    exact concludeNext_of_room hroom' _ 8
  · exact concludeNext_of_room hroom' _ 8

/-! #### Elements -/

theorem sampleElem_before {n x : Nat} {g : Signal} {j : Int} (s : State) (hj : j < 0) :
    sampleElem s n g j x = .ok (sigInit g.entry, s) := if_pos hj

theorem sampleElem_near {s : State} {n x : Nat} {g : Signal} {j : Int} (ht : g.tainted = false) (hj : 0 ≤ j)
    (ha : isAbsent g j.toNat = false) (hnear : isNear g j.toNat = true) : sampleElem s n g j x = nearElem s g j.toNat x := by
  simp only [sampleElem, not_lt.2 hj, ht, ha, hnear, Bool.false_eq_true, if_false, if_true]

theorem nearElem_unwritten {s : State} {g : Signal} {j x : Nat} (ht : g.tainted = false)
    (h : find (look [] g.samples j) x = none) : nearElem s g j x = .ok (sigInit g.entry, s) := by
  simp only [nearElem, ht, Bool.false_eq_true, if_false, h]

theorem nearElem_written {s t : State} {g : Signal} {j x v : Nat} {ps : List (Loc × Nat)} (ht : g.tainted = false)
    (h : find (look [] g.samples j) x = some v)
    (hc : csSpan s s.curCore (sampleAt g.entry j + x * sigBytes g.entry) (sigBytes g.entry) 0 = .ok (ps, t))
    (hp : poisonPieces t ps = false) : nearElem s g j x = .ok (v, t) := by
  simp only [nearElem, ht, Bool.false_eq_true, if_false, h, hc, bind, Except.bind, hp]
  rfl

theorem myCore_signals_onMe (s : State) (f : Stream → Stream) : (myCore (onMe s f)).signals = (myCore s).signals := by
  show (coreOf (onCore s s.curCore _) s.curCore).signals = _
  rw [coreOf_onCore_self]
  split <;> rfl

/-- What counting a write toward the cleaning of its granule leaves (R88). -/
theorem coverElem_kept (s : State) (e : List Byte) (j x : Nat) : (coverElem s e j x).mem = s.mem ∧
    (coverElem s e j x).ctxs = s.ctxs ∧ ∀ key, sigOf (coverElem s e j x) key = sigOf s key := by
  unfold coverElem
  split
  · exact ⟨rfl, rfl, fun _ => rfl⟩
  · split
    · unfold coverPieces
      dsimp only
      split
      · exact ⟨rfl, rfl, fun _ => rfl⟩
      · refine ⟨rfl, rfl, fun key => ?_⟩
        have hclean : ∀ t cover, sigOf (cleanCover t cover) key = sigOf t key := fun _ _ => rfl
        rw [hclean]
        exact congrArg (fun m => find m key) (myCore_signals_onMe s _)
    · exact ⟨rfl, rfl, fun _ => rfl⟩

theorem sigOf_onSig_self (s : State) (key : Nat) (f : Signal → Signal) :
    sigOf (onSig s key f) key = (sigOf s key).map f := (find_onSig s key key f).trans (if_pos rfl)

theorem putElem_spec {s : State} {key j x v : Nat} {g : Signal} (h : sigOf s key = some g) :
    (putElem s key g j x v).mem = s.mem ∧
    ∃ h, sigOf (putElem s key g j x v) key = some h ∧
      find (look [] h.samples j) x = some (v % 2 ^ (8 * sigBytes g.entry)) ∧
      (∀ k y, k ≠ j ∨ y ≠ x → find (look [] h.samples k) y = find (look [] g.samples k) y) ∧
      h.head = g.head ∧ h.marked = g.marked ∧ h.front = g.front ∧ h.blocks = g.blocks := by
  obtain ⟨hmem, -, hsig⟩ := coverElem_kept s g.entry j x
  have hput := sigOf_onSig_self (coverElem s g.entry j x) key fun h => { h with
    samples := adjust [] h.samples j fun xs => put xs x (v % 2 ^ (8 * sigBytes g.entry))
    absmax := if sigKv g.entry then
        adjust 0 h.absmax (64 * (j / 64) + x / (sigFrame g.entry / sigHeads g.entry)) fun m => absMax m v
      else h.absmax }
  rw [hsig, h] at hput
  refine ⟨hmem, _, hput, ?_, ?_, rfl, rfl, rfl, rfl⟩
  · simp only [adjust, look_put_self, find_put_self]
  · intro k y hne
    by_cases hk : k = j
    · subst hk
      simp only [adjust, look_put_self]
      exact find_put_ne _ _ (hne.resolve_left fun h => h rfl)
    · simp only [adjust, look_put_ne _ _ _ hk]

/-! #### Writes -/

theorem markPut_ctxs (s : State) (key j x v : Nat) (g : Signal) :
    (markSample (putElem s key g j x v) key j).ctxs = s.ctxs := (coverElem_kept s g.entry j x).2.1

theorem sampleFor_ok {n h lag : Nat} {g : Signal} (hlag : lag < sigDepth g.entry) (hh : lag ≤ h)
    (hsealed : (blockOf g ((h - lag) / 64)).sealed = false) : sampleFor n h g lag = .ok (h - lag) := by
  simp only [sampleFor, not_le.2 hlag, not_lt.2 hh, hsealed, if_false, Bool.false_eq_true]

theorem tapStore_ok {f : EFields} {s s1 : State} {n j : Nat} {g : Signal} {x v : Word} (hx : readGQ s f.a = .ok x)
    (hframe : x.toNat < sigFrame g.entry) (hv : readReg s f.dst = .ok (v, s1)) : tapStore f s n j g =
      .ok (markSample (putElem s1 (myKey s1 n) g j x.toNat v.toNat) (myKey s1 n) j) := by
  have htap : ∀ lag, tapElem n lag g (x.toNat : Int) = .ok x.toNat := fun lag => by simp [tapElem, hframe]
  simp only [tapStore, hx, htap, hv, bind, Except.bind]
  rfl

section
variable {f : EFields} {s r s1 : State} {g : Signal} {x v : Word} (hg : guardHolds r = true)
  (hr : r = resolve s [f.n12.toNat % 1024]) (hn : namedSignal r (f.n12.toNat % 1024) = .ok g)
  (hx : readGQ r f.a = .ok x) (hframe : x.toNat < sigFrame g.entry) (hv : readReg r f.dst = .ok (v, s1))
include hg hr hn hx hframe hv

theorem exec_tapst_eq {lag : Nat} (hlag : lagOf r f = .ok lag) (hdepth : lag < sigDepth g.entry)
    (hh : lag ≤ headOf r (f.n12.toNat % 1024))
    (hsealed : (blockOf g ((headOf r (f.n12.toNat % 1024) - lag) / 64)).sealed = false) :
    exec (.tapst f) s = .next (finish (markSample (putElem s1 (myKey s1 (f.n12.toNat % 1024)) g
      (headOf r (f.n12.toNat % 1024) - lag) x.toNat v.toNat) (myKey s1 (f.n12.toNat % 1024))
      (headOf r (f.n12.toNat % 1024) - lag)) 8 none) := by
  rw [show exec (.tapst f) s = execTapst f s from rfl, execTapst]
  simp only [sigNumber, ← hr]
  rw [guarded_of_holds hg, namedSignal_lag hn]
  simp only [bind, Except.bind, hlag, writeSample, sampleFor_ok hdepth hh hsealed, tapStore_ok hx hframe hv]
  exact concludeNext_of_ctxs ((markPut_ctxs s1 _ _ _ _ g).trans (readReg_ctxs hv)) 8

theorem exec_tapstTick_eq {b : Word} {j : Nat} (hb : readGQ r f.b = .ok b) (hstamp : sigStamp g.entry ≤ b.toNat)
    (hnow : b.toNat ≤ (descOf r (myCtx r) (myCore r).sctx).now) (hj : j = sampleOfTick g.entry b.toNat)
    (hh : j ≤ headOf r (f.n12.toNat % 1024)) (hdepth : headOf r (f.n12.toNat % 1024) - j < sigDepth g.entry)
    (hsealed : (blockOf g (j / 64)).sealed = false) :
    exec (.tapstTick f) s = .next (finish (markSample (putElem s1 (myKey s1 (f.n12.toNat % 1024)) g j x.toNat v.toNat)
      (myKey s1 (f.n12.toNat % 1024)) j) 8 none) := by
  have hlag : headOf r (f.n12.toNat % 1024) - (headOf r (f.n12.toNat % 1024) - j) = j := Nat.sub_sub_self hh
  have hsample := sampleFor_ok (n := f.n12.toNat % 1024) hdepth (Nat.sub_le (headOf r (f.n12.toNat % 1024)) j)
    (by rw [hlag]; exact hsealed)
  rw [hlag] at hsample
  have hin : (decide (b.toNat < sigStamp g.entry) || decide ((descOf r (myCtx r) (myCore r).sctx).now < b.toNat)) = false := by
    simp [not_lt.2 hstamp, not_lt.2 hnow]
  have hwrite : writeTick r (f.n12.toNat % 1024) g b.toNat = .ok j := by
    simp only [writeTick, hin, Bool.false_eq_true, if_false, ← hj, writeSample, hsample]
  rw [show exec (.tapstTick f) s = execTapstTick f s from rfl, execTapstTick]
  simp only [sigNumber, ← hr]
  rw [guarded_of_holds hg, hn]
  simp only [bind, Except.bind, hb, hwrite, tapStore_ok hx hframe hv]
  exact concludeNext_of_ctxs ((markPut_ctxs s1 _ _ _ _ g).trans (readReg_ctxs hv)) 8

end

/-- The sample of a tick is the one whose span of DIV ticks holds it. -/
theorem sampleOfTick_spec {e : List Byte} (t : Nat) (hdiv : 0 < sigDiv e) :
    (t < firstTick e → sampleOfTick e t = 0) ∧
    (firstTick e ≤ t → 1 ≤ sampleOfTick e t ∧ firstTick e + (sampleOfTick e t - 1) * sigDiv e ≤ t ∧
      t < firstTick e + sampleOfTick e t * sigDiv e) := by
  refine ⟨fun h => if_pos h, fun h => ?_⟩
  have hle := Nat.div_mul_le_self (t - firstTick e) (sigDiv e)
  have hlt := Nat.lt_div_mul_add hdiv (a := t - firstTick e)
  rw [sampleOfTick, if_neg (not_lt.2 h), Nat.add_sub_cancel_left, Nat.add_mul, Nat.one_mul]
  generalize (t - firstTick e) / sigDiv e = q at hle hlt ⊢
  generalize q * sigDiv e = m at hle hlt ⊢
  omega

/-- Settles O40: a tap's value is the element of the sample named (`sampleElem_near`), and what a write changes of the
signal is that element and its mark (`putElem_spec`). -/
theorem tapsReadAndWriteElements : Obligations.TapsReadAndWriteElements := by
  unfold Obligations.TapsReadAndWriteElements
  refine ⟨?tapld, fun s n g j x ht => ⟨fun hj => sampleElem_before s hj, fun hj ha hnear => ⟨fun hx => ?_, fun v ps t hx hc hp => ?_⟩⟩,
    fun s key j x v g h => putElem_spec h, ?tapst, ?tapstTick, fun e t hdiv => sampleOfTick_spec t hdiv⟩
  case tapld =>
    intro f s r s1 s2 g x lag v hg hroom hr hn hx hlag hdepth hframe hmark hfront hopen helem hd
    exact exec_tapld_eq hg hroom hr hn hx hlag hdepth hframe hmark hfront hopen helem hd
  case tapst =>
    intro f s r s1 g x v lag hg hr hn hlag hdepth hh hsealed hx hframe hv
    exact exec_tapst_eq hg hr hn hx hframe hv hlag hdepth hh hsealed
  case tapstTick =>
    intro f s r s1 g x v b j hg hr hn hb hstamp hnow hj hh hdepth hsealed hx hframe hv
    exact exec_tapstTick_eq hg hr hn hx hframe hv hb hstamp hnow hj hh hdepth hsealed
  · rw [sampleElem_near ht hj ha hnear, nearElem_unwritten ht hx]
  · rw [sampleElem_near ht hj ha hnear, nearElem_written ht hx hc hp]

/-! ### Seals, evictions and positions (R188, R192, R193, R331, R332) -/

theorem deepSignal_of_named {s : State} {n : Nat} {g : Signal} (hn : namedSignal s n = .ok g) (hd : sigDeep g.entry = true) :
    deepSignal s n = .ok g := by
  simp only [deepSignal, hn, bind, Except.bind, hd, if_true]
  rfl

section
variable {f : EFields} {s r : State} {g : Signal} (hg : guardHolds s = true) (hr : r = resolve s [f.n12.toNat % 1024])
  (hn : namedSignal r (f.n12.toNat % 1024) = .ok g) (hd : sigDeep g.entry = true)
include hg hr hn hd

theorem exec_sigseal_new (hnew : (me r).waiting ≠ some (.seal (f.n12.toNat % 1024))) : exec (.sigseal f) s =
    match oldestOpen g with
    | none => .next (finish r 8 none)
    | some b => match beginSeal r (myKey r (f.n12.toNat % 1024)) b g with
      | .error e => .next (trapState r e)
      | .ok t => holdNext r t (.seal (f.n12.toNat % 1024)) := by
  have hnew' : ((me r).waiting == some (.seal (f.n12.toNat % 1024))) = false := by simpa using hnew
  rw [show exec (.sigseal f) s = execSigseal f s from rfl, execSigseal]
  simp only [sigNumber, ← hr, hg, Bool.not_true, Bool.false_eq_true, if_false, deepSignal_of_named hn hd, hnew'] <;>
    rfl

theorem exec_sigseal_waits (hw : (me r).waiting = some (.seal (f.n12.toNat % 1024))) : exec (.sigseal f) s =
    if (openSeals g).isEmpty then .next (finish r 8 none) else .next (hold r (.seal (f.n12.toNat % 1024))) := by
  rw [show exec (.sigseal f) s = execSigseal f s from rfl, execSigseal]
  simp only [sigNumber, ← hr, hg, Bool.not_true, Bool.false_eq_true, if_false, deepSignal_of_named hn hd, hw,
    beq_self_eq_true, if_true]

end

theorem holdNext_of_room {s : State} (hr : roomForItems s) (t : State) (w : Waiting) : holdNext s t w = .next (hold t w) := by
  rw [holdNext, itemsOver_of_room hr]
  rfl

theorem numbered_ok {n j : Nat} {g : Signal} (hj : j ≤ g.head) (hdepth : g.head - j < sigDepth g.entry) :
    numbered n g j = .ok j := by
  rw [numbered, if_neg (not_lt.2 hj), if_neg (not_le.2 hdepth)]

theorem sameItems_onSig (s : State) (key : Nat) (f : Signal → Signal) : SameItems s (onSig s key f) := .of_ctxs rfl

section
variable {f : EFields} {s r : State} {g : Signal} {v : Word} (hg : guardHolds r = true)
  (hr : r = resolve s [f.n12.toNat % 1024]) (hn : namedSignal r (f.n12.toNat % 1024) = .ok g)
  (hd : sigDeep g.entry = true) (hv : readGQ r f.a = .ok v) (hj : v.toNat ≤ g.head)
  (hdepth : g.head - v.toNat < sigDepth g.entry)
include hg hr hn hd hv hj hdepth

theorem exec_sigevict_core (hslot : ((blockOf g (v.toNat / 64)).sealed && !isOverwritten g (v.toNat / 64)) = false) :
    exec (.sigevict f) s = .next (finish (onSig r (myKey r (f.n12.toNat % 1024)) fun h =>
      { h with blocks := put h.blocks (v.toNat / 64) { blockOf g (v.toNat / 64) with
        surv := (blockOf g (v.toNat / 64)).surv &&& ~~~ BitVec.ofNat 64 (2 ^ (v.toNat % 64)) } }) 8 none) := by
  rw [show exec (.sigevict f) s = execSigevict f s from rfl, execSigevict]
  simp only [sigNumber, ← hr]
  rw [guarded_of_holds hg]
  simp only [bind, Except.bind, deepSignal_of_named hn hd, hv, numbered_ok hj hdepth, hslot, Bool.false_eq_true, if_false]
  exact (sameItems_onSig r _ _).concludeNext 8

theorem exec_sigevict_slot (hslot : ((blockOf g (v.toNat / 64)).sealed && !isOverwritten g (v.toNat / 64)) = true)
    {ps : List (Loc × Nat)} {t : State} (hp : places r 9 (word (blockAt g.entry (v.toNat / 64))) 8 = .ok (ps, t)) :
    exec (.sigevict f) s = .next (finish (onSig (writePieces t ps (toBytes 8 ((blockOf g (v.toNat / 64)).surv &&&
        ~~~ BitVec.ofNat 64 (2 ^ (v.toNat % 64))).toNat)) (myKey t (f.n12.toNat % 1024)) fun h =>
      { h with blocks := put h.blocks (v.toNat / 64) { blockOf g (v.toNat / 64) with
        surv := (blockOf g (v.toNat / 64)).surv &&& ~~~ BitVec.ofNat 64 (2 ^ (v.toNat % 64)) } }) 8 none) := by
  have hkey : ∀ bs, myKey (writePieces t ps bs) (f.n12.toNat % 1024) = myKey t (f.n12.toNat % 1024) := by
    intro bs
    have hkept := TraceKept.traceFrame.writePieces t ps bs
    have hslice : ∀ c, (coreOf (writePieces t ps bs) c).slice = (coreOf t c).slice := fun c =>
      hkept.coreField (fun k => k.slice) (c := c)
    have hsctx : ∀ c, (coreOf (writePieces t ps bs) c).sctx = (coreOf t c).sctx := fun c =>
      hkept.coreField (fun k => k.sctx) (c := c)
    simp only [myKey, myCtx, coreCtx, myCore, hkept.curCore, hslice, hsctx]
  rw [show exec (.sigevict f) s = execSigevict f s from rfl, execSigevict]
  simp only [sigNumber, ← hr]
  rw [guarded_of_holds hg]
  simp only [bind, Except.bind, deepSignal_of_named hn hd, hv, numbered_ok hj hdepth, hslot, if_true, hp, pure, Except.pure,
    hkey]
  refine SameItems.concludeNext ?_ 8
  exact (sameItems_claimFrame.of_places hp).trans (.trans (.of_ctxs (writePieces_ctxs t ps _)) (sameItems_onSig _ _ _))

end

theorem exec_sigpos_eq {f : EFields} {s : State} {g : Signal} {v : Word} (hg : guardHolds s = true)
    (hn : namedSignal s (f.n12.toNat % 1024) = .ok g) (hd : sigDeep g.entry = true) (hv : readGQ s f.a = .ok v)
    (hj : v.toNat ≤ g.head) (hdepth : g.head - v.toNat < sigDepth g.entry) (hs : settled (me s) f.dst = .ok ()) :
    exec (.sigpos f) s = .next (finish (written s f.dst (positionOf g v.toNat)) 8 none) := by
  rw [show exec (.sigpos f) s = execSigpos f s from rfl, execSigpos, guarded_of_holds hg]
  simp only [bind, Except.bind, sigNumber, deepSignal_of_named hn hd, hv, numbered_ok hj hdepth]
  exact concludeNext_writeReg rfl hs _ 8

/-- The fields of a position do not meet. -/
theorem positionOf_toNat (g : Signal) (j : Nat) {b : Block} (hb : b = blockOf g (j / 64)) : (positionOf g j).toNat =
    j / 64 % 2 ^ 32 * 2 ^ 16 +
      4 * (if b.sealed then ((List.range (j % 64)).filter fun i => b.sealmap.getLsbD i).length else j % 64) +
      (if b.surv.getLsbD (j % 64) then 2 else 0) + (if b.sealed ∧ b.sealmap.getLsbD (j % 64) then 1 else 0) := by
  subst hb
  have hslot : (if (blockOf g (j / 64)).sealed then rankBelow (blockOf g (j / 64)).sealmap.toNat (j % 64) else j % 64) =
      if (blockOf g (j / 64)).sealed then
        ((List.range (j % 64)).filter fun i => (blockOf g (j / 64)).sealmap.getLsbD i).length else j % 64 := by
    have hflag : flag (blockOf g (j / 64)).sealmap.toNat = fun i => (blockOf g (j / 64)).sealmap.getLsbD i :=
      funext fun i => flag_eq_getLsbD _ i
    rw [rankBelow_eq_length, hflag]
  have hle : (if (blockOf g (j / 64)).sealed then
      ((List.range (j % 64)).filter fun i => (blockOf g (j / 64)).sealmap.getLsbD i).length else j % 64) ≤ j % 64 := by
    split
    · exact (List.length_filter_le _ _).trans (by rw [List.length_range])
    · exact le_rfl
  have hbit : ∀ b : Bool, bit01 b = if b then 1 else 0 := fun _ => rfl
  simp only [positionOf, hslot, hbit, Bool.and_eq_true, word, BitVec.toNat_ofNat]
  generalize (if (blockOf g (j / 64)).sealed then
    ((List.range (j % 64)).filter fun i => (blockOf g (j / 64)).sealmap.getLsbD i).length else j % 64) = slot at hle ⊢
  split_ifs <;> omega

/-- Settles O41: SIGSEAL by where its stream stands, SIGEVICT by whether the block has its slot, SIGPOS by the fields of
its result. -/
theorem sealsEvictionsAndPositions : Obligations.SealsEvictionsAndPositions := by
  unfold Obligations.SealsEvictionsAndPositions
  refine ⟨fun f s r g hg hr hn hd => ⟨fun hnew hnone => ?_, fun b t hnew hb hroom hseal => ?_, fun hw hopen => ?_,
      fun hw hopen => ?_⟩, fun f s r g v b hg hr hn hd hv hj hdepth hb => ⟨fun h => ?_, fun hs ho ps t hp => ?_⟩,
    fun f s g v hg hn hd hv hj hdepth hs => exec_sigpos_eq hg hn hd hv hj hdepth hs,
    fun g j b hb => positionOf_toNat g j hb⟩
  · rw [exec_sigseal_new hg hr hn hd hnew, hnone]
  · rw [exec_sigseal_new hg hr hn hd hnew, hb]
    dsimp only
    rw [hseal]
    exact holdNext_of_room (hr ▸ room_resolve_one hroom _) t _
  · rw [exec_sigseal_waits hg hr hn hd hw, hopen]
    rfl
  · rw [exec_sigseal_waits hg hr hn hd hw, if_neg (by simpa using hopen)]
  · subst hb
    exact exec_sigevict_core hg hr hn hd hv hj hdepth (by simpa [or_iff_not_imp_left] using h)
  · subst hb
    exact exec_sigevict_slot hg hr hn hd hv hj hdepth (by simpa [ho] using hs) hp

end Sys2Proof.Slice0

namespace Sys2Proof.Slice0
open Sys2Proof.Machine

/-! ### A stream's cut is nothing a trace entry reads (R161, R168)

An instruction that reads a stream register forgets the cut of its stream before it ends, which changes nothing else: its
end forgets it anyway, and the entry that traces the end of its wait reads and writes no part of a stream. -/

/-- The streams of a core with the cut of stream `i` forgotten; while a handler runs, stream 0 is its file. -/
def cutStreams (i : Nat) (h : Option Handler) (m : Map Stream) : Map Stream :=
  if (if i == 0 then h else none).isSome then m else put m i { look {} m i with cut := none }
/-- Its handler. -/
def cutHandler (i : Nat) (h : Option Handler) : Option Handler :=
  if i == 0 then h.map fun h => { h with file := { h.file with cut := none } } else h
/-- A core with the cut of stream `i` forgotten. -/
def uncut (i : Nat) (k : Core) : Core :=
  { k with streams := cutStreams i k.handler k.streams, handler := cutHandler i k.handler }

/-- A core with the stream that issues as `i` changed: while a handler runs, stream 0 is its file. -/
def onFile (i : Nat) (f : Stream → Stream) (k : Core) : Core :=
  match (if i == 0 then k.handler else none) with
  | some h => { k with handler := some { h with file := f h.file } }
  | none => { k with streams := put k.streams i (f (streamOf k i)) }

theorem onMe_cut (s : State) : onMe s (fun st => { st with cut := none }) = onCore s s.curCore (uncut s.curStream) := by
  change onCore s s.curCore (onFile s.curStream fun st => { st with cut := none }) = _
  congr 1
  funext k
  unfold onFile uncut cutStreams cutHandler
  cases s.curStream == 0
  · rfl
  · cases k.handler <;> simp [streamOf]

/-! #### Changes of one core -/

theorem put_put_self {α : Type} (m : Map α) (k : Nat) (v w : α) : put (put m k v) k w = put m k w := by
  induction m with
  | nil => simp [put]
  | cons e m ih =>
    obtain ⟨j, x⟩ := e
    simp only [put]
    split_ifs <;> simp_all [put]

theorem put_comm {α : Type} (m : Map α) {a b : Nat} (h : a ≠ b) (v w : α) : put (put m a v) b w = put (put m b w) a v := by
  induction m with
  | nil =>
    grind [put]
  | cons e m ih =>
    obtain ⟨j, x⟩ := e
    simp only [put, beq_iff_eq]
    grind [put]

theorem onCore_comm (s : State) (c n : Nat) {f g : Core → Core} (h : ∀ k, f (g k) = g (f k)) :
    onCore (onCore s c g) n f = onCore (onCore s n f) c g := by
  unfold onCore setCore
  by_cases hn : n = c
  · subst hn
    simp only [coreOf, look_put_self, put_put_self, h]
  · simp only [coreOf, look_put_ne _ _ _ hn, look_put_ne _ _ _ (Ne.symm hn)]
    rw [put_comm _ (Ne.symm hn)]

theorem coreField_onCore {α : Type} (s : State) (c n : Nat) {g : Core → Core} (p : Core → α) (hp : ∀ k, p (g k) = p k) :
    p (coreOf (onCore s c g) n) = p (coreOf s n) := by
  by_cases hn : n = c
  · rw [hn, coreOf_onCore_self, hp]
  · rw [coreOf_onCore_ne s g hn]

/-! #### Writes of memory and registers -/

section
variable (s : State) (c : Nat) (g : Core → Core)

theorem logEvents_onCore (i : Nat) (ns : List Nat) :
    ns.foldl (fun s n => logEvent s 0x0007 (8 * i + n)) (onCore s c g) =
      onCore (ns.foldl (fun s n => logEvent s 0x0007 (8 * i + n)) s) c g := by
  induction ns generalizing s with
  | nil => rfl
  | cons n ns ih => exact ih (logEvent s 0x0007 (8 * i + n))

theorem raiseIrq_onCore (fn vec : Nat) : raiseIrq (onCore s c g) fn vec = onCore (raiseIrq s fn vec) c g := by
  simp only [raiseIrq, onCore, setCore]
  split_ifs <;> rfl

theorem setReplace_onCore : setReplace (onCore s c g) = onCore (setReplace s) c g := by
  unfold setReplace
  split
  · next h => rw [if_pos (show s.module.replace = true from h)]
  · next h =>
    rw [if_neg (show ¬ s.module.replace = true from h)]
    exact raiseIrq_onCore (logEvent (onModule s fun m => { m with replace := true, inband := m.inband + 1 }) 0x0004 0) c g 0 2047

theorem writePark_onCore (i v : Nat) : writePark (onCore s c g) i v = onCore (writePark s i v) c g := by
  have hport : ∀ (t : State) f, onPort (onCore t c g) i f = onCore (onPort t i f) c g := fun _ _ => rfl
  have hepoch : ∀ (t : State) (p : Prop) [Decidable p],
      (if p then onCore t c g else newEpoch (onCore t c g)) = onCore (if p then t else newEpoch t) c g := by
    intro t p _
    split <;> rfl
  have hrep : ∀ (t : State) (p : Prop) [Decidable p],
      (if p then setReplace (onCore t c g) else onCore t c g) = onCore (if p then setReplace t else t) c g := by
    intro t p _
    split
    · exact setReplace_onCore t c g
    · rfl
  unfold writePark
  dsimp only
  rw [show portOf (onCore s c g) i = portOf s i from rfl, hport, logEvents_onCore, hepoch, hrep, hport]
  rfl

theorem portWrite_onCore (i off v : Nat) : portWrite (onCore s c g) i off v = onCore (portWrite s i off v) c g := by
  have hpark := writePark_onCore s c g i v
  unfold portWrite
  split_ifs
  · rfl
  · rfl
  · rfl
  · split <;> first | rfl | exact hpark

theorem windowWrite_onCore (off : Nat) (bs : List Byte) :
    windowWrite (onCore s c g) off bs = onCore (windowWrite s off bs) c g := by
  unfold windowWrite
  split
  · exact portWrite_onCore s c g _ _ _
  · rfl

theorem writeAt_onCore (l : Loc) (bs : List Byte) : writeAt (onCore s c g) l bs = onCore (writeAt s l bs) c g := by
  unfold writeAt
  split <;> rfl

end

section
variable {c : Nat} {g : Core → Core} (hr : ∀ k, (g k).regions = k.regions) (ht : ∀ k x o n, taint (g k) x o n = g (taint k x o n))
include hr ht

theorem taintStore_onCore (s : State) (d o n : Nat) : taintStore (onCore s c g) d o n = onCore (taintStore s d o n) c g := by
  unfold taintStore
  rw [coreField_onCore s c d (fun k => k.regions) hr]
  split
  · split
    · rfl
    · exact onCore_comm s c d fun k => ht k _ _ _
  · rfl

theorem storeAt_onCore (s : State) (l : Loc) (bs : List Byte) : storeAt (onCore s c g) l bs = onCore (storeAt s l bs) c g := by
  cases l with
  | bar0 o => exact windowWrite_onCore s c g _ bs
  | store d o =>
    simp only [storeAt, taintStore_onCore hr ht, writeAt_onCore]
  | hbm | peer | host | refused => exact writeAt_onCore s c g _ bs

theorem storePieces_onCore (s : State) (ps : List (Loc × Nat)) (bs : List Byte) :
    storePieces (onCore s c g) ps bs = onCore (storePieces s ps bs) c g := by
  induction ps generalizing s bs with
  | nil => rfl
  | cons p ps ih =>
    have piece : ∀ b, storePiece (onCore s c g) p.1 b = onCore (storePiece s p.1 b) c g := by
      intro b
      unfold storePiece
      split
      · rfl
      · exact storeAt_onCore hr ht s _ b
    simp only [storePieces, piece, ih]

theorem writePieces_onCore (s : State) (ps : List (Loc × Nat)) (bs : List Byte) :
    writePieces (onCore s c g) ps bs = onCore (writePieces s ps bs) c g := by
  unfold writePieces
  split
  · exact storeAt_onCore hr ht s _ _
  · exact storePieces_onCore hr ht s _ bs

end

/-! #### Translation for an agent of no core -/

section
variable (s : State) (c : Nat) (g : Core → Core)

theorem hostSpanOf_onCore (ctx : Nat) (ps : List (Nat × Nat)) : hostSpanOf (onCore s c g) ctx ps = hostSpanOf s ctx ps := by
  induction ps with
  | nil => rfl
  | cons p ps ih =>
    simp only [hostSpanOf, ih]
    rfl

theorem walk_onCore (ctx va : Nat) : walk (onCore s c g) ctx va = walk s ctx va := by
  have hf : ∀ levels table, walkFrom (onCore s c g) va levels table = walkFrom s va levels table := by
    intro levels
    induction levels with
    | nil => intro table; rfl
    | cons l ls ih =>
      intro table
      simp only [walkFrom, ih]
      rfl
  simp only [walk, hf]
  rfl

theorem engineLook_onCore (ctx kind va : Nat) :
    (translate (onCore s c g) none ctx kind va).1 = (translate s none ctx kind va).1 := by
  unfold Machine.translate
  rw [walk_onCore, show ptroot (onCore s c g) ctx = ptroot s ctx from rfl]
  split
  · split <;> rfl
  · cases walk s ctx va <;> rfl

theorem spaceSpan_onCore (ctx : Nat) (virtual : Bool) (kind a n : Nat) :
    spaceSpan (onCore s c g) ctx virtual kind a n = spaceSpan s ctx virtual kind a n := by
  have hs : ∀ ps, (spanOf (onCore s c g) none ctx kind ps).1 = (spanOf s none ctx kind ps).1 := by
    intro ps
    induction ps with
    | nil => rfl
    | cons p ps ih =>
      have hl := engineLook_onCore s c g ctx kind p.1
      have ht := translate_state s none ctx kind p.1
      have ht' := translate_state (onCore s c g) none ctx kind p.1
      unfold spanOf at ih ⊢
      unfold spanBy
      generalize Machine.translate (onCore s c g) none ctx kind p.1 = x at hl ht'
      generalize Machine.translate s none ctx kind p.1 = y at hl ht
      obtain ⟨l, t⟩ := x
      obtain ⟨l', t'⟩ := y
      obtain rfl : l = l' := hl
      obtain rfl : t' = s := ht
      obtain rfl : t = onCore t' c g := ht'
      cases l with
      | hit l =>
        dsimp only
        generalize spanBy _ (onCore t' c g) ps = x at ih
        generalize spanBy _ t' ps = y at ih
        obtain ⟨r, t⟩ := x
        obtain ⟨r', t'⟩ := y
        obtain rfl : r = r' := ih
        cases r <;> rfl
      | _ => rfl
  unfold spaceSpan span
  rw [hs, hostSpanOf_onCore]

end

/-! #### The trace -/

section
variable {c : Nat} {g : Core → Core} (hr : ∀ k, (g k).regions = k.regions) (ht : ∀ k x o n, taint (g k) x o n = g (taint k x o n))
include hr ht

theorem writeVirtual_onCore (s : State) (ctx va : Nat) (bs : List Byte) :
    writeVirtual (onCore s c g) ctx va bs = (writeVirtual s ctx va bs).map (onCore · c g) := by
  unfold writeVirtual writeSpace
  rw [spaceSpan_onCore]
  cases spaceSpan s ctx true 1 va bs.length with
  | ok ps => simp only [writePieces_onCore hr ht, Option.map_some]
  | stop _ _ => rfl

theorem traceWrite_onCore (s : State) (ctx : Nat) (bs : List Byte) :
    traceWrite (onCore s c g) ctx bs = (traceWrite s ctx bs).map (onCore · c g) := by
  simp only [traceWrite, writeVirtual_onCore hr ht, show ctxOf (onCore s c g) ctx = ctxOf s ctx from rfl]
  split
  · rfl
  · cases writeVirtual s ctx _ bs <;> rfl

end

section
variable (i c : Nat)

/-- The cut of a stream forgotten on one core of a state. -/
abbrev uncutOn (s : State) : State := onCore s c (uncut i)

theorem coreField_uncut {α : Type} (s : State) (n : Nat) (p : Core → α) (hp : ∀ k, p (uncut i k) = p k := by intro; rfl) :
    p (coreOf (uncutOn i c s) n) = p (coreOf s n) :=
  coreField_onCore s c n p hp

theorem onCore_uncut (s : State) (n : Nat) (f : Core → Core) (hf : ∀ k, f (uncut i k) = uncut i (f k) := by intro; rfl) :
    onCore (uncutOn i c s) n f = uncutOn i c (onCore s n f) :=
  onCore_comm s c n hf

theorem traceWrite_uncut (s : State) (ctx : Nat) (bs : List Byte) :
    traceWrite (uncutOn i c s) ctx bs = (traceWrite s ctx bs).map (uncutOn i c) :=
  traceWrite_onCore (g := uncut i) (fun _ => rfl) (fun _ _ _ _ => rfl) s ctx bs

theorem traceFlush_uncut (core : Nat) (s : State) (kept es : List (Nat × List Byte)) :
    traceFlush core (uncutOn i c s) kept es = uncutOn i c (traceFlush core s kept es) := by
  induction es generalizing s kept with
  | nil => exact onCore_uncut i c s core _
  | cons e es ih =>
    simp only [traceFlush, traceWrite_uncut]
    cases kept.any fun x => x.1 == e.1
    · cases traceWrite s e.1 e.2 <;> exact ih _ _
    · exact ih _ _

theorem traceRoom_uncut (s : State) (core ctx : Nat) : traceRoom (uncutOn i c s) core ctx = traceRoom s core ctx := by
  unfold traceRoom
  rw [coreField_uncut i c s core fun k => k.traceBuffer]
  rfl

theorem traceEnter_uncut (s : State) (core ctx kind src payload : Nat) :
    traceEnter (uncutOn i c s) core ctx kind src payload = uncutOn i c (traceEnter s core ctx kind src payload) :=
  onCore_uncut i c s core _

theorem traceOwed_uncut (core : Nat) (s : State) (ls : List (Nat × Nat)) :
    ls.foldl (traceOwed core) (uncutOn i c s) = uncutOn i c (ls.foldl (traceOwed core) s) := by
  induction ls generalizing s with
  | nil => rfl
  | cons l ls ih =>
    have one : traceOwed core (uncutOn i c s) l = uncutOn i c (traceOwed core s l) := by
      unfold traceOwed
      rw [traceRoom_uncut, traceEnter_uncut]
      split
      · exact onCore_uncut i c _ core _
      · rfl
    rw [List.foldl_cons, one, ih, List.foldl_cons]

theorem flushCore_uncut (s : State) (core : Nat) : flushCore (uncutOn i c s) core = uncutOn i c (flushCore s core) := by
  unfold flushCore
  dsimp only
  rw [coreField_uncut i c s core fun k => k.traceBuffer, coreField_uncut i c s core fun k => k.traceLost]
  split
  · rfl
  · rw [traceFlush_uncut, traceOwed_uncut, coreField_uncut i c _ core fun k => k.traceBuffer, traceFlush_uncut]

theorem trace_uncut (s : State) (core kind src payload : Nat) :
    trace (uncutOn i c s) core kind src payload = uncutOn i c (trace s core kind src payload) := by
  unfold trace
  rw [coreField_uncut i c s core fun k => k.slice]
  split
  · rfl
  · next l _ =>
    rw [show ctxOf (uncutOn i c s) l.ctx = ctxOf s l.ctx from rfl, flushCore_uncut]
    split
    · rfl
    · dsimp only
      rw [traceRoom_uncut]
      split
      · rw [traceEnter_uncut, flushCore_uncut]
      · exact congrArg (onCtx · l.ctx fun c => { c with dtfull := true }) (onCore_uncut i c (flushCore s core) core _)

theorem traceWaitOf_uncut (s : State) (core stream : Nat) (st : Stream) :
    traceWaitOf (uncutOn i c s) core stream st = uncutOn i c (traceWaitOf s core stream st) := by
  unfold traceWaitOf
  dsimp only
  rw [coreField_uncut i c s core fun k => k.cycle]
  split <;> simp only [trace_uncut]

end

/-! #### The end of an instruction -/

theorem onFile_onFile (i : Nat) (f h : Stream → Stream) (k : Core) :
    onFile i h (onFile i f k) = onFile i (h ∘ f) k := by
  unfold onFile
  cases i == 0
  · simp only [Bool.false_eq_true, if_false, streamOf, look_put_self, put_put_self, Function.comp]
  · cases k.handler <;> simp only [if_true, streamOf, look_put_self, put_put_self, Function.comp]

theorem onMe_onMe (s : State) (f h : Stream → Stream) : onMe (onMe s f) h = onMe s (h ∘ f) := by
  change onCore (onCore s s.curCore (onFile s.curStream f)) s.curCore (onFile s.curStream h) =
    onCore s s.curCore (onFile s.curStream (h ∘ f))
  unfold onCore setCore
  simp only [coreOf, look_put_self, put_put_self, onFile_onFile]

/-- An instruction that ends has no more use for the cut of its stream. -/
theorem finish_onMe_cut (s : State) (len : Nat) (target : Option Word) :
    finish (onMe s fun st => { st with cut := none }) len target = finish s len target := by
  have hwait : traceWait (onMe s fun st => { st with cut := none }) (me (onMe s fun st => { st with cut := none })) =
      uncutOn s.curStream s.curCore (traceWait s (me s)) := by
    rw [me_onMe, onMe_cut]
    exact traceWaitOf_uncut s.curStream s.curCore s s.curCore s.curStream _
  have hsame : SameStreams s (traceWait s (me s)) := .traceWaitOf s _ _ _
  unfold finish
  dsimp only
  rw [hwait]
  generalize traceWait s (me s) = t at hsame
  have hdrop : onCore (uncutOn s.curStream s.curCore t) t.curCore (fun k => dropWalked k t.curStream) =
      onMe (onCore t t.curCore fun k => dropWalked k t.curStream) fun st => { st with cut := none } := by
    refine (onCore_uncut s.curStream s.curCore t t.curCore fun k => dropWalked k t.curStream).trans ?_
    rw [onMe_cut, onCore_curCore, onCore_curStream, hsame.curCore, hsame.curStream]
  rw [onCore_curCore, onCore_curStream, hdrop, onMe_onMe]
  rfl

end Sys2Proof.Slice0

namespace Sys2Proof.Slice0
open Sys2Proof.Machine

/-! ### The state a region instruction runs in (R177, R303) -/

/-- `t` is `s` but for the heads and descriptors that the issuing stream has named. -/
structure Named (s t : State) : Prop where
  kept : OutsideKept s t
  me : ∃ h o, me t = { me s with heads := h, opened := o }

namespace Named

theorem refl (s : State) : Named s s := ⟨.refl s, (Machine.me s).heads, (Machine.me s).opened, rfl⟩

theorem trans {s t u : State} (h : Named s t) (h' : Named t u) : Named s u := by
  obtain ⟨hk, a, b, hm⟩ := h
  obtain ⟨hk', a', b', hm'⟩ := h'
  exact ⟨hk.trans hk', a', b', by rw [hm', hm]⟩

theorem foldl {α : Type} {f : State → α → State} (hf : ∀ s a, Named s (f s a)) (xs : List α) (s : State) :
    Named s (xs.foldl f s) := by
  induction xs generalizing s with
  | nil => exact refl s
  | cons x xs ih => exact (hf s x).trans (ih (f s x))

theorem resolve (s : State) (ns : List Nat) : Named s (resolve s ns) := by
  refine foldl (fun s n => ?_) ns s
  split
  · exact ⟨.onMe s _, _, _, me_onMe s _⟩
  · exact refl s

theorem openAreas (s : State) (fields : List (BitVec 24)) : Named s (openAreas s fields) := by
  refine foldl (fun s n => ?_) _ s
  unfold openArea
  split
  · exact ⟨.onMe s _, _, _, me_onMe s _⟩
  · exact refl s

variable {s t : State} (h : Named s t)
include h

theorem room (hr : roomForItems s) : roomForItems t := by
  simpa only [roomForItems, ctxOf, h.kept.contexts] using hr

theorem vn : (myCore t).vn = (myCore s).vn := by
  unfold myCore
  rw [h.kept.curCore]
  exact (congrArg Core.vn h.kept.core :)

theorem vecN : vecN t = vecN s := by rw [Machine.vecN, h.vn, Machine.vecN]

theorem vecSweep : vecSweep t = vecSweep s := by rw [Machine.vecSweep, h.vn, Machine.vecSweep]

theorem progress : (Machine.me t).progress = (Machine.me s).progress := by
  obtain ⟨_, _, hm⟩ := h.me
  rw [hm]

theorem latch : (Machine.me t).latch = (Machine.me s).latch := by
  obtain ⟨_, _, hm⟩ := h.me
  rw [hm]

end Named

theorem named_fields (s : State) (fields : List (BitVec 24)) :
    Named s (openAreas (resolve s (regionTaps fields)) fields) :=
  (Named.resolve s _).trans (.openAreas _ _)

theorem named_regions (s : State) (f : VFields) : Named s (regionsNamed s f) := named_fields s _

/-! ### How a region instruction ends (R161, R336, R357) -/

/-- One whose run completes and posts no item record without room for it ends, whatever its stream had cut. -/
theorem regionInstr_of_not_over {s u : State} {fields : List (BitVec 24)} {reads : List (BitVec 24 × Nat)}
    {run : State → Run} (hg : guardHolds s = true)
    (ho : itemsOver (openAreas (resolve s (regionTaps fields)) fields) u = false)
    (h : run (openAreas (resolve s (regionTaps fields)) fields) = (u, none)) :
    regionInstr s fields reads run = .next (finish u 12 none) := by
  unfold regionInstr
  rw [if_pos hg]
  simp only [h, Option.map_none]
  by_cases hc : (takesFifo fields && (me u).cut.isSome) = true
  · have ho' : itemsOver (openAreas (resolve s (regionTaps fields)) fields)
        (onMe u fun st => { st with cut := none }) = false := ho
    simp only [hc, if_true, ho', Bool.false_eq_true, if_false, finish_onMe_cut]
  · simp only [hc, ho, Bool.false_eq_true, if_false]

theorem regionInstr_ends {s u : State} {fields : List (BitVec 24)} {reads : List (BitVec 24 × Nat)} {run : State → Run}
    (hg : guardHolds s = true) (hr : roomForItems s)
    (h : run (openAreas (resolve s (regionTaps fields)) fields) = (u, none)) :
    regionInstr s fields reads run = .next (finish u 12 none) :=
  regionInstr_of_not_over hg (itemsOver_of_room ((named_fields s fields).room hr)) h

theorem elements_of_inOrder {one : Nat → State → Act State} {n j : Nat} {t u : State} (h : inOrder one n j t = .ok u) :
    elements one n j t = (u, j + n, none) := by
  induction n generalizing j t with
  | zero =>
    rw [inOrder] at h
    rw [elements, Except.ok.inj h]
    rfl
  | succ n ih =>
    rw [inOrder] at h
    rw [elements]
    cases ho : one j t with
    | error e => simp only [ho, reduceCtorEq] at h
    | ok v =>
      simp only [ho] at h
      dsimp only
      rw [ih h, Nat.add_assoc, Nat.add_comm 1 n]

theorem runElements_done {α : Type} {s t u v : State} {n : Nat} {start : State → Act (α × State)}
    {one : α → Nat → State → Act State} {close : α → State → Act State} {p : α} (hp : (me s).progress = 0)
    (hs : start s = .ok (p, t)) (ho : inOrder (one p) n 0 t = .ok u) (hc : close p u = .ok v) :
    runElements s n start one close = (v, none) := by
  unfold runElements
  simp only [hp, hs, Nat.sub_zero, elements_of_inOrder ho, hc]

theorem runGathered_done {α : Type} {s t u v : State} {n k : Nat} {start : State → Act (α × State)}
    {read : α → Nat → State → Act (List Word × State)} {running : Option (List Nat → Nat)}
    {rest : α → List Nat → State → Act State} {p : α} (hl : (me s).latch = []) (hs : start s = .ok (p, t))
    (hgather : gather (read p) n 0 t = (u, none)) (hrest : rest p (values u) u = .ok v) :
    runGathered s n k start read running rest = (v, none) := by
  have h0 : (me s).latch.length / Nat.max 1 k = 0 := by rw [hl]; exact Nat.zero_div _
  unfold runGathered
  simp only [h0, hs, Nat.sub_zero, hgather, hrest]

/-! ### Element-wise members (R336-R341, R350) -/

theorem exec_elementOp {p : ElementOp} (hp : p ∈ elementOps) (f : VFields) (s : State) :
    exec (p.instr f) s = elementWise f s (p.aType f) p.useB p.useOld (p.op f) := by
  have hsel : (fun a b d : Nat => (⟨if d != 0 then a else b, 0⟩ : FRes)) = fun a b d => ⟨if d = 0 then b else a, 0⟩ := by
    funext a b d
    by_cases hd : d = 0 <;> simp [hd]
  have hvsel : exec (.vsel f) s = elementWise f s f.ty.toNat true true fun a b d => ⟨if d = 0 then b else a, 0⟩ := by
    rw [show exec (.vsel f) s = execVsel f s from rfl, execVsel, hsel]
  revert p
  simp only [elementOps, List.forall_mem_cons, List.not_mem_nil, false_imp_iff, implies_true, and_true]
  exact ⟨rfl, rfl, rfl, rfl, rfl, rfl, rfl, rfl, rfl, rfl, rfl, rfl, rfl, rfl, rfl, rfl, hvsel, rfl, rfl, rfl, rfl, rfl,
    rfl, rfl, rfl⟩

theorem elementWise_done {p : ElementOp} {f : VFields} {s t u : State} {o : Opened} (hg : guardHolds s = true)
    (hr : roomForItems s) (hp : (me s).progress = 0) (hn : vecN s ≠ 0)
    (ho : openElements (regionsNamed s f) f (vecN s) (p.aType f) (if p.useB then some f.ty.toNat else none) p.useOld false
      false = .ok (o, t))
    (hi : inOrder (oneElement p f o) (vecN s) 0 t = .ok u) :
    elementWise f s (p.aType f) p.useB p.useOld (p.op f) = .next (finish (closeDest u o.d (vecN s)) 12 none) := by
  have hname := named_regions s f
  unfold elementWise
  refine regionInstr_ends hg hr ?_
  dsimp only
  rw [hname.vecN, if_neg (by simpa using hn)]
  exact runElements_done (hname.progress.trans hp) ho hi rfl

theorem elementWise_none {f : VFields} {s : State} (aType : Nat) (useB useOld : Bool) (op : Nat → Nat → Nat → FRes)
    (hg : guardHolds s = true) (hn : vecN s = 0) :
    elementWise f s aType useB useOld op = .next (finish (regionsNamed s f) 12 none) := by
  unfold elementWise
  refine regionInstr_of_not_over hg (itemsOver_of_ctxs rfl) ?_
  dsimp only
  rw [(named_regions s f).vecN, if_pos (by simpa using hn)]

/-- Settles O42: the element-wise members share one loop, which takes the elements in order. -/
theorem elementWiseResults : Obligations.ElementWiseResults := by
  unfold Obligations.ElementWiseResults
  refine ⟨fun p hp f s t u o hg hr hprog hn ho hi => ?_, fun p hp f s hg hn => ?_⟩
  · rw [exec_elementOp hp]
    exact elementWise_done hg hr hprog hn ho hi
  · rw [exec_elementOp hp]
    exact elementWise_none _ _ _ _ hg hn

end Sys2Proof.Slice0

namespace Sys2Proof.Slice0
open Sys2Proof.Machine

/-! ### Reductions (R342, R343) -/

theorem reduction_done {f : VFields} {s s1 s2 s3 s4 s5 : State} {a : Operand} {d : Result} (part : List Nat → Nat)
    {whole : List Nat → FRes} (hg : guardHolds s = true) (hr : roomForItems s) (hl : (me s).latch = [])
    (ha : openOperand (regionsNamed s f) f.ra 1 f.ty.toNat = .ok (a, s1)) (hd : openResult s1 f = .ok (d, s2))
    (hf : checkResult d [a] = .ok ()) (hc : checkSource s2 a (vecN s) 1 false = .ok s3)
    (hgather : gathered a (vecN s) s3 = (s4, none))
    (hp : putResult (setFlags s4 (whole (values s4)).flags) f.ty.toNat d (whole (values s4)).bits = .ok s5) :
    reduction f s part whole = .next (finish s5 12 none) := by
  have hname := named_regions s f
  unfold reduction
  refine regionInstr_ends hg hr ?_
  dsimp only
  rw [hname.vecN]
  refine runGathered_done (hname.latch.trans hl) (p := (a, d)) (t := s3) ?_ hgather hp
  simp only [bind, Except.bind, pure, Except.pure, ha, hd, hf, hc]

theorem exec_vpopc_done {f : VFields} {s s1 s2 s3 : State} {a : Operand} (hg : guardHolds s = true) (hr : roomForItems s)
    (hl : (me s).latch = []) (ha : openOperand (regionsNamed s f) f.ra 1 f.ty.toNat = .ok (a, s1))
    (hc : checkSource s1 a (vecN s) 1 false = .ok s2) (hgather : gathered a (vecN s) s2 = (s3, none))
    (hd : settled (me s3) (regionSpec f.rd) = .ok ()) :
    exec (.vpopc f) s = .next (finish (written s3 (regionSpec f.rd)
      (word ((values s3).filter (· != 0)).length)) 12 none) := by
  have hname := named_regions s f
  rw [show exec (.vpopc f) s = execVpopc f s from rfl, execVpopc]
  refine regionInstr_ends hg hr ?_
  dsimp only
  rw [hname.vecN]
  refine runGathered_done (hname.latch.trans hl) (p := a) (t := s2) ?_ hgather (writeReg_of_settled hd _)
  simp only [bind, Except.bind, pure, Except.pure, ha, hc]

/-! ### Dot products (R344) -/

theorem exec_vdot_plain {f : VFields} {s s1 s2 s3 s4 s5 s6 s7 : State} {a b : Operand} {d : Result}
    (hg : guardHolds s = true) (hr : roomForItems s) (hl : (me s).latch = []) (hw : vecSweep s = 0 ∨ 2 ≤ regionKind f.rb)
    (ha : openOperand (regionsNamed s f) f.ra 1 f.ty.toNat = .ok (a, s1))
    (hb : openOperand s1 f.rb 2 f.ty.toNat = .ok (b, s2)) (hd : openResult s2 f = .ok (d, s3))
    (hf : checkResult d [a, b] = .ok ()) (hca : checkSource s3 a (vecN s) 1 false = .ok s4)
    (hcb : checkSource s4 b (vecN s) 1 false = .ok s5)
    (hgather : gather (fun j s => do
      let (x, s) ← readElem s a j
      let (y, s) ← readElem s b j
      return ([word x, word y], s)) (vecN s) 0 s5 = (s6, none))
    (hp : putResult (setFlags s6 (dotElems f.ty.toNat f.rs.toNat (pairsOf (values s6))).flags) f.ty.toNat d
      (dotElems f.ty.toNat f.rs.toNat (pairsOf (values s6))).bits = .ok s7) :
    exec (.vdot f) s = .next (finish s7 12 none) := by
  have hname := named_regions s f
  have hplain : (vecSweep s != 0 && decide (regionKind f.rb < 2)) = false := by
    rcases hw with h | h
    · simp [h]
    · simp [Nat.not_lt.2 h]
  rw [show exec (.vdot f) s = execVdot f s from rfl, execVdot]
  refine regionInstr_ends hg hr ?_
  rw [hname.vecSweep, hplain, if_neg Bool.false_ne_true, dotPlain]
  dsimp only
  rw [hname.vecN]
  refine runGathered_done (hname.latch.trans hl) (p := (a, b, d)) (t := s5) ?_ hgather hp
  simp only [bind, Except.bind, pure, Except.pure, ha, hb, hd, hf, hca, hcb]

theorem exec_vdot_sweep {f : VFields} {s s1 s2 s3 s4 s5 s6 s7 s8 : State} {a b d : Operand}
    (hg : guardHolds s = true) (hr : roomForItems s) (hl : (me s).latch = []) (hprog : (me s).progress = 0)
    (hw : vecSweep s ≠ 0) (hkb : regionKind f.rb < 2) (hkd : regionKind f.rd ≠ 3)
    (ha : openOperand (regionsNamed s f) f.ra 1 f.ty.toNat = .ok (a, s1))
    (hb : openOperand s1 f.rb 2 f.ty.toNat = .ok (b, s2)) (hd : openOperand s2 f.rd 0 f.ty.toNat = .ok (d, s3))
    (hf : checkFeedback d [a, b] = .ok ()) (hca : checkSource s3 a (vecN s) 1 false = .ok s4)
    (hcb : checkSource s4 b (vecN s) (vecSweep s) false = .ok s5) (hcd : checkDest s5 d (vecSweep s) false = .ok ())
    (hgather : gathered a (vecN s) s5 = (s6, none)) (hm : sweepMask s6 b (vecSweep s) = .ok s7)
    (hi : inOrder (sweepRow f b d (values s7)) (vecSweep s) 0 s7 = .ok s8) :
    exec (.vdot f) s = .next (finish (closeDest s8 d (vecSweep s)) 12 none) := by
  have hname := named_regions s f
  have hopen : openSweep f (vecN s) (vecSweep s) (regionsNamed s f) = .ok ((a, b, d), s5) := by
    unfold openSweep
    simp only [bind, Except.bind, pure, Except.pure, ha, hb, hd, hf, hca, hcb, hcd, beq_iff_eq, hkd, if_false]
  rw [show exec (.vdot f) s = execVdot f s from rfl, execVdot]
  refine regionInstr_ends hg hr ?_
  rw [hname.vecSweep, if_pos (by simp [hw, hkb]), dotSweep]
  dsimp only
  rw [hname.vecN, hname.vecSweep, hopen, hname.latch, hl, hname.progress, hprog]
  dsimp only [List.length_nil]
  rw [Nat.sub_zero, show gather _ (vecN s) 0 s5 = (s6, none) from hgather]
  simp only [beq_self_eq_true, if_true, hm, Nat.sub_zero, elements_of_inOrder hi]

/-! ### Running sums (R345) -/

theorem exec_vscan_done {f : VFields} {s t u : State} {o : Opened} (hg : guardHolds s = true) (hr : roomForItems s)
    (hp : (me s).progress = 0) (hn : vecN s ≠ 0)
    (ho : openElements (regionsNamed s f) f (vecN s) f.ty.toNat none false false false = .ok (o, t))
    (hi : inOrder (fun j s => do
      let (v, s) ← readElem s o.a j
      writeElem (setFlags (onMe s fun st => { st with
          part := (scanStep f.ty.toNat f.rs.toNat (j == 0) (me s).part v).1 })
        (scanStep f.ty.toNat f.rs.toNat (j == 0) (me s).part v).2.flags) o.d j
        (scanStep f.ty.toNat f.rs.toNat (j == 0) (me s).part v).2.bits) (vecN s) 0 t = .ok u) :
    exec (.vscan f) s = .next (finish (closeDest u o.d (vecN s)) 12 none) := by
  have hname := named_regions s f
  rw [show exec (.vscan f) s = execVscan f s from rfl, execVscan]
  refine regionInstr_ends hg hr ?_
  dsimp only
  rw [hname.vecN, if_neg (by simpa using hn)]
  exact runElements_done (hname.progress.trans hp) ho hi rfl

/-! ### Sums and the maximum of integers (R342, R343) -/

theorem maxInt_le {t : Nat} (vs : List Nat) (a : Nat) :
    tyInt t a ≤ tyInt t (vs.foldl (fun a b => if tyInt t a < tyInt t b then b else a) a) ∧
      ∀ v ∈ vs, tyInt t v ≤ tyInt t (vs.foldl (fun a b => if tyInt t a < tyInt t b then b else a) a) := by
  induction vs generalizing a with
  | nil => exact ⟨le_refl _, fun _ h => absurd h List.not_mem_nil⟩
  | cons w vs ih =>
    rw [List.foldl_cons]
    obtain ⟨ha, hv⟩ := ih (if tyInt t a < tyInt t w then w else a)
    have hboth : tyInt t a ≤ tyInt t (if tyInt t a < tyInt t w then w else a) ∧
        tyInt t w ≤ tyInt t (if tyInt t a < tyInt t w then w else a) := by
      split <;> omega
    refine ⟨hboth.1.trans ha, fun v hmem => ?_⟩
    obtain rfl | hmem := List.mem_cons.1 hmem
    · exact hboth.2.trans ha
    · exact hv v hmem

/-- Settles O43: one loop gathers the elements of every reduction and dot product. -/
theorem reductionsAndDotProducts : Obligations.ReductionsAndDotProducts := by
  unfold Obligations.ReductionsAndDotProducts
  refine ⟨?_, ?_, ?_, ?_, ?_, ?_, ?_⟩
  · intro p hp f s s1 s2 s3 s4 s5 a d hg hr hl ha hd hf hc hgather hput
    obtain rfl | rfl : p = (.vsum, _) ∨ p = (.vmaxr, _) := by simpa using hp
    · exact reduction_done _ hg hr hl ha hd hf hc hgather hput
    · exact reduction_done _ hg hr hl ha hd hf hc hgather hput
  · exact fun _ _ _ _ _ _ hg hr hl ha hc hgather hd => exec_vpopc_done hg hr hl ha hc hgather hd
  · exact fun _ _ _ _ _ _ _ _ _ _ _ _ hg hr hl hw ha hb hd hf hca hcb hgather hp =>
      exec_vdot_plain hg hr hl hw ha hb hd hf hca hcb hgather hp
  · exact fun _ _ _ _ _ _ _ _ _ _ _ _ _ hg hr hl hprog hw hkb hkd ha hb hd hf hca hcb hcd hgather hm hi =>
      exec_vdot_sweep hg hr hl hprog hw hkb hkd ha hb hd hf hca hcb hcd hgather hm hi
  · exact fun _ _ _ _ _ hg hr hp hn ho hi => exec_vscan_done hg hr hp hn ho hi
  · intro t rs vs ps ht
    simp only [sumElems, dotElems, ht, Bool.false_eq_true, if_false, sumInts, dotInts, and_self]
  · intro t v vs ht hv
    simp only [maxElems, ht, Bool.false_eq_true, if_false]
    exact (maxInt_le vs _).2 v hv

end Sys2Proof.Slice0

namespace Sys2Proof.Slice0
open Sys2Proof.Machine

/-! ### A fold whose parameters lie in a signal (R177, R348)

`execVdrawm` resolves no head, as R177 has it for the taps of region instructions: no VDRAWM that decodes has one, its RA
and RB being areas (R256). The obligation speaks of every field value, and of the state with the heads resolved. -/

/-- Result to g4 and g5, triples at g0, of which none is read, parameters in signal 0 at lag 0. -/
def tapParams : VFields := { ty := 10, rs := 0, rd := 19, ra := 3, rb := 0 }

/-- A signal of two f32 elements with INIT 1.0, at head 5; only element 0 of sample 0 has been written, with 0. -/
def tapSignal : Signal :=
  { entry := [10, 0, 2, 0] ++ List.replicate 12 0 ++ toBytes 8 0x3F800000, table := 0, headAt := 0, head := 5
    samples := [(0, [(0, 0)])] }

/-- A core with that signal and no slice, whose core store nothing can be read from. -/
def tapState : State := { State.reset with cores := [(0, { sctx := 1, signals := [(sigKey 0 1 0, tapSignal)] })] }

theorem guardHolds_tapState : guardHolds tapState = true := by decide

/-- The instructions that the issuing stream of core 0 has issued after an outcome. -/
def issuesAfter : Host.Outcome State Fault Refusal → Option Nat
  | .next t => some (me t).issue
  | _ => none

theorem issuesAfter_vdrawm : issuesAfter (exec (.vdrawm tapParams) tapState) = some 0 := by decide

theorem roomForItems_tapState : roomForItems tapState := fun x => by
  rw [show ctxOf tapState x = {} from rfl]
  decide

/-- The parameters as the state with head 5 resolved reads them. -/
theorem readParams_tapState :
    readParams (regionsNamed tapState tapParams) ⟨.tap 0 0, 0, 1, 4⟩ =
      .ok (⟨0x3F800000, 0x3F800000⟩, regionsNamed tapState tapParams) := by
  rfl

/-- Refutes O44: a fold reads its parameters without resolving a head. -/
theorem not_drawsAndUniforms : ¬ Obligations.DrawsAndUniforms := by
  unfold Obligations.DrawsAndUniforms
  intro h
  obtain ⟨-, hfold, -⟩ := h
  obtain ⟨t, ht, hissue⟩ : ∃ t, putTriple (regionsNamed tapState tapParams) (.reg 4)
      (foldAll ⟨0x3F800000, 0x3F800000⟩ [] []) = .ok t ∧ (me t).issue = 0 := ⟨_, rfl, by decide⟩
  have hend := hfold tapParams tapState (regionsNamed tapState tapParams) (regionsNamed tapState tapParams)
    (regionsNamed tapState tapParams) (regionsNamed tapState tapParams) (regionsNamed tapState tapParams)
    (regionsNamed tapState tapParams) t ⟨.scalar 0, 0, 1, 4⟩ ⟨.tap 0 0, 0, 1, 4⟩ (.reg 4) ⟨0x3F800000, 0x3F800000⟩ [] []
    guardHolds_tapState roomForItems_tapState rfl rfl rfl readParams_tapState rfl (by decide) rfl rfl ht
  have hone : issuesAfter (.next (finish t 12 none)) = some 1 := by
    simp only [issuesAfter, me_finish, issued, hissue]
  rw [← hend, issuesAfter_vdrawm] at hone
  cases hone

end Sys2Proof.Slice0

namespace Sys2Proof.Slice0
open Sys2Proof.Machine

/-! ### VSHAPE (R334) -/

theorem shapeCount_ctxs {s t : State} {set : Bool} {r : BitVec 8} {n : Option Nat}
    (h : shapeCount s set r = .ok (n, t)) : t.ctxs = s.ctxs := by
  unfold shapeCount at h
  split at h
  · cases hr : readReg s r with
    | error e =>
      rw [hr] at h
      cases h
    | ok p =>
      rw [hr] at h
      obtain ⟨-, rfl⟩ := Prod.mk.inj (Except.ok.inj h)
      exact readReg_ctxs hr
  · obtain ⟨-, rfl⟩ := Prod.mk.inj (Except.ok.inj h)
    rfl

theorem exec_vshape_done {f : LFields} {s s1 s2 : State} {n w : Option Nat} (hg : guardHolds s = true)
    (hn : shapeCount s (flag f.imm.toNat 3) f.a = .ok (n, s1)) (hw : shapeCount s1 (flag f.imm.toNat 4) f.b = .ok (w, s2))
    (hn' : n.getD 0 ≤ 65535) (hw' : w.getD 0 ≤ 65535) :
    exec (.vshape f) s = .next (finish (onCore (emptyIf (emptyIf s2 f.lu f.a) f.lu f.b)
      (emptyIf (emptyIf s2 f.lu f.a) f.lu f.b).curCore (shapeCore f.imm.toNat f.lit.toNat n w)) 12 none) := by
  have hctxs : (emptyIf (emptyIf s2 f.lu f.a) f.lu f.b).ctxs = s.ctxs := by
    rw [emptyIf_ctxs, emptyIf_ctxs, shapeCount_ctxs hw, shapeCount_ctxs hn]
  have hcur : (emptySources s2 f.lu f.a (.reg f.b)).curCore = s2.curCore := (OutsideKept.emptySources s2 _ _ _).curCore
  rw [show exec (.vshape f) s = execVshape f s from rfl, execVshape, if_pos hg]
  simp only [bind, Except.bind, pure, Except.pure, hn, hw, Nat.not_lt.2 hn', Nat.not_lt.2 hw', decide_false, Bool.or_self,
    Bool.false_eq_true, if_false]
  rw [← hcur]
  exact concludeNext_of_ctxs (show (onCore _ _ _).ctxs = s.ctxs from hctxs) 12

theorem look_foldl_put {α : Type} (d v : α) (is : List Nat) (m : Map α) (i : Nat) :
    look d (is.foldl (fun m i => put m i v) m) i = if i ∈ is then v else look d m i := by
  induction is generalizing m with
  | nil => simp
  | cons j is ih =>
    rw [List.foldl_cons, ih]
    by_cases hj : i = j
    · subst hj
      simp
    · simp [hj, look_put_ne _ _ _ hj]

theorem shapeCore_vn (imm lit : Nat) (n w : Option Nat) (k : Core) (hn : n.getD 0 < 2 ^ 16) (hw : w.getD 0 < 2 ^ 16) :
    (shapeCore imm lit n w k).vn.toNat % 2 ^ 16 = n.getD (k.vn.toNat % 2 ^ 16) ∧
    (shapeCore imm lit n w k).vn.toNat / 2 ^ 16 = w.getD (k.vn.toNat / 2 ^ 16) := by
  have hv : k.vn.toNat < 2 ^ 32 := k.vn.isLt
  generalize hx : k.vn.toNat = x at hv
  have e : (shapeCore imm lit n w k).vn.toNat % 2 ^ 16 + 2 ^ 16 * ((shapeCore imm lit n w k).vn.toNat / 2 ^ 16) =
      n.getD (x % 2 ^ 16) + 2 ^ 16 * w.getD (x / 2 ^ 16) := by
    rw [Nat.mod_add_div]
    simp only [shapeCore, BitVec.toNat_ofNat, hx]
    cases n <;> cases w <;> simp only [setField, field, Option.getD_none, Option.getD_some] at * <;> omega
  have hl : n.getD (x % 2 ^ 16) < 2 ^ 16 := by
    cases n <;> simp only [Option.getD_none, Option.getD_some] at * <;> omega
  omega

theorem shapeCore_spec (imm lit : Nat) (n w : Option Nat) (k : Core) (hn : n.getD 0 < 2 ^ 16) (hw : w.getD 0 < 2 ^ 16) :
    (∀ i, i < 3 → look 0 (shapeCore imm lit n w k).vo i = if flag imm i then BitVec.ofNat 16 lit else look 0 k.vo i) ∧
    (∀ i, i < 3 → look 1 (shapeCore imm lit n w k).vs i =
      if flag imm i then BitVec.ofInt 32 (signed 16 (lit / 2 ^ 16)) else look 1 k.vs i) ∧
    (shapeCore imm lit n w k).vn.toNat % 2 ^ 16 = n.getD (k.vn.toNat % 2 ^ 16) ∧
    (shapeCore imm lit n w k).vn.toNat / 2 ^ 16 = w.getD (k.vn.toNat / 2 ^ 16) := by
  have hmem : ∀ i, i < 3 → (i ∈ below 3 (flag imm) ↔ flag imm i = true) := fun i hi => by
    simp [below, hi]
  refine ⟨fun i hi => ?_, fun i hi => ?_, shapeCore_vn imm lit n w k hn hw⟩
  · simp only [shapeCore, look_foldl_put, hmem i hi]
  · simp only [shapeCore, look_foldl_put, hmem i hi]

/-! ### Indexed moves, windows and filters (R351-R353) -/

theorem indexed_done {f : VFields} {s t u : State} {o : Opened} {b : Operand} {bType : Nat} {aIndexed dIndexed : Bool}
    {one : Opened → Nat → Nat → State → Act State} (hg : guardHolds s = true) (hr : roomForItems s)
    (hp : (me s).progress = 0) (hn : vecN s ≠ 0)
    (ho : openElements (regionsNamed s f) f (vecN s) f.ty.toNat (some bType) false aIndexed dIndexed = .ok (o, t))
    (hb : o.b = some b)
    (hi : inOrder (fun j s => do
      let (i, s) ← readElem s b j
      one o j i s) (vecN s) 0 t = .ok u) :
    indexed f s bType aIndexed dIndexed one = .next (finish (closeDest u o.d (vecN s)) 12 none) := by
  have hname := named_regions s f
  unfold indexed
  refine regionInstr_ends hg hr ?_
  dsimp only
  rw [hname.vecN, if_neg (by simpa using hn)]
  refine runElements_done (hname.progress.trans hp) ho ?_ rfl
  rw [hb]
  exact hi

theorem exec_vexpand_done {f : VFields} {s t u : State} {w : Window} {a d : Operand} (hg : guardHolds s = true)
    (hr : roomForItems s) (hp : (me s).progress = 0) (ho : openWindow (regionsNamed s f) f = .ok (w, a, d, t))
    (hi : inOrder (fun j s => do
      let (v, s) ← windowElem w a j s
      writeElem s d j v) (w.c * w.k * w.lout) 0 t = .ok u) :
    exec (.vexpand f) s = .next (finish u 12 none) := by
  have hname := named_regions s f
  rw [show exec (.vexpand f) s = execVexpand f s from rfl, execVexpand]
  refine regionInstr_ends hg hr ?_
  rw [ho]
  refine runElements_done (hname.progress.trans hp) (p := (w, a, d)) (t := t) ?_ hi rfl
  rw [ho]
  rfl

theorem exec_vfir_done {f : VFields} {s s1 s2 s3 s4 s5 u : State} {a b d : Operand} (hg : guardHolds s = true)
    (hr : roomForItems s) (hp : (me s).progress = 0) (hn : vecN s ≠ 0) (hw : vecSweep s ≠ 0)
    (ha : openOperand (regionsNamed s f) f.ra 1 f.ty.toNat = .ok (a, s1))
    (hb : openOperand s1 f.rb 2 f.ty.toNat = .ok (b, s2)) (hd : openOperand s2 f.rd 0 f.ty.toNat = .ok (d, s3))
    (hf : checkFeedback d [a] = .ok ()) (hca : checkSource s3 a (vecN s) (vecSweep s) false = .ok s4)
    (hcd : checkDest s4 d (vecN s) false = .ok ()) (hp4 : (me s4).progress = 0)
    (hm : sweepMask s4 a (vecSweep s) = .ok s5)
    (hi : inOrder (fun j s' => do
      let (ps, s') ← firTerms s' a b j (vecSweep s) 0
      writeElem (setFlags s' (firValue f.ty.toNat f.rs.toNat ps).flags) d j (firValue f.ty.toNat f.rs.toNat ps).bits)
      (vecN s) 0 s5 = .ok u) :
    exec (.vfir f) s = .next (finish (closeDest u d (vecN s)) 12 none) := by
  have hname := named_regions s f
  rw [show exec (.vfir f) s = execVfir f s from rfl, execVfir]
  refine regionInstr_ends hg hr ?_
  dsimp only
  rw [hname.vecN, hname.vecSweep, if_neg (by simpa using hw), if_neg (by simpa using hn)]
  refine runElements_done (hname.progress.trans hp) (p := (a, b, d)) (t := s5) ?_ hi rfl
  simp only [bind, Except.bind, pure, Except.pure, ha, hb, hd, hf, hca, hcd, hp4, beq_self_eq_true, if_true, hm]

/-! ### Conditional streams (R354, R355) -/

theorem exec_cspush_done {f : VFields} {s s1 s2 s3 s4 s5 s6 s7 s8 : State} {c : Stream16} {x y : Operand} {data : List Nat}
    (hg : guardHolds s = true) (hr : roomForItems s) (hl : (me s).latch = [])
    (hh : readHeader (regionsNamed s f) f.rd 0 (tyBytes f.ty.toNat) = .ok (c, s1))
    (hx : openOperand s1 f.ra 1 f.ty.toNat = .ok (x, s2)) (hy : openOperand s2 f.rb 2 f.ty.toNat = .ok (y, s3))
    (hcx : checkSource s3 x (vecN s) 1 false = .ok s4) (hcy : checkSource s4 y (vecN s) 1 false = .ok s5)
    (hgather : gather (fun j s => do
      let (v, s) ← readElem s x j
      let (w, s) ← readElem s y j
      return ([word v, word w], s)) (vecN s) 0 s5 = (s6, none))
    (hdata : data = ((pairsOf (values s6)).filter fun p => p.2 != 0).map (·.1)) (hq : queued c + data.length ≤ c.cap)
    (hap : appendAll s6 c (tyBytes f.ty.toNat) c.tail data = .ok s7) (hput : putHeader s7 c 4 (c.tail + data.length) = .ok s8) :
    exec (.cspush f) s = .next (finish s8 12 none) := by
  have hname := named_regions s f
  rw [show exec (.cspush f) s = execCspush f s from rfl, execCspush]
  refine regionInstr_ends hg hr ?_
  dsimp only
  rw [hname.vecN]
  refine runGathered_done (hname.latch.trans hl) (p := (c, x, y)) (t := s5) ?_ hgather ?_
  · simp only [bind, Except.bind, pure, Except.pure, hh, hx, hy, hcx, hcy]
  · dsimp only
    rw [← hdata, if_neg (Nat.not_lt.2 hq)]
    simp only [bind, Except.bind, hap, hput]

theorem exec_cspop_done {f : VFields} {s s1 s2 s3 s4 s5 u : State} {c : Stream16} {y d : Operand} (hg : guardHolds s = true)
    (hr : roomForItems s) (hl : (me s).latch = [])
    (hh : readHeader (regionsNamed s f) f.ra 1 (tyBytes f.ty.toNat) = .ok (c, s1))
    (hy : openOperand s1 f.rb 2 f.ty.toNat = .ok (y, s2)) (hd : openOperand s2 f.rd 0 f.ty.toNat = .ok (d, s3))
    (hf : checkFeedback d [y] = .ok ()) (hcy : checkSource s3 y (vecN s) 1 false = .ok s4)
    (hcd : checkDest s4 d (vecN s) false = .ok ()) (hgather : gathered y (vecN s) s4 = (s5, none))
    (ht : takeRecords s5 c d ((below (vecN s) fun j => (values s5).getD j 0 != 0).take (queued c)) = .ok u) :
    exec (.cspop f) s = .next (finish u 12 none) := by
  have hname := named_regions s f
  rw [show exec (.cspop f) s = execCspop f s from rfl, execCspop]
  refine regionInstr_ends hg hr ?_
  dsimp only
  rw [hname.vecN]
  refine runGathered_done (hname.latch.trans hl) (p := (c, y, d)) (t := s4) ?_ hgather ht
  simp only [bind, Except.bind, pure, Except.pure, hh, hy, hd, hf, hcy, hcd]

theorem exec_csroute_done {f : VFields} {s s1 s2 u : State} {c : Stream16} {d : Operand} (hg : guardHolds s = true)
    (hr : roomForItems s) (hl : (me s).latch = [])
    (hh : readHeader (regionsNamed s f) f.ra 1 (tyBytes f.ty.toNat) = .ok (c, s1))
    (hd : openOperand s1 f.rd 0 f.ty.toNat = .ok (d, s2)) (hcd : checkDest s2 d (vecN s) false = .ok ())
    (ht : takeRecords s2 c d (List.range (512 / tyBytes f.ty.toNat *
      (Nat.min (vecN s) (queued c) / (512 / tyBytes f.ty.toNat)))) = .ok u) :
    exec (.csroute f) s = .next (finish u 12 none) := by
  have hname := named_regions s f
  rw [show exec (.csroute f) s = execCsroute f s from rfl, execCsroute]
  refine regionInstr_ends hg hr ?_
  dsimp only
  rw [hname.vecN]
  refine runGathered_done (hname.latch.trans hl) (p := (c, d)) (t := s2) ?_ rfl ht
  simp only [bind, Except.bind, pure, Except.pure, hh, hd, hcd]

/-- Settles O45. -/
theorem shapesMovesAndStreams : Obligations.ShapesMovesAndStreams := by
  unfold Obligations.ShapesMovesAndStreams
  refine ⟨?_, ?_, ?_, ?_, ?_, ?_, ?_, ?_⟩
  · exact fun _ _ _ _ _ _ hg hn hw hn' hw' => exec_vshape_done hg hn hw hn' hw'
  · exact fun imm lit n w k hn hw => shapeCore_spec imm lit n w k hn hw
  · intro p hp f s t u o b hg hr hprog hn ho hb hi
    simp only [List.mem_cons, List.not_mem_nil, or_false] at hp
    obtain rfl | rfl | rfl := hp
    · rw [show exec (.vgather f) s = execVgather f s from rfl, execVgather]
      exact indexed_done hg hr hprog hn ho hb hi
    · rw [show exec (.vscatter f) s = execVscatter f s from rfl, execVscatter]
      exact indexed_done hg hr hprog hn ho hb hi
    · rw [show exec (.vperm f) s = execVperm f s from rfl, execVperm]
      exact indexed_done hg hr hprog hn ho hb hi
  · exact fun _ _ _ _ _ _ _ hg hr hp ho hi => exec_vexpand_done hg hr hp ho hi
  · exact fun _ _ _ _ _ _ _ _ _ _ _ hg hr hp hn hw ha hb hd hf hca hcd hp4 hm hi =>
      exec_vfir_done hg hr hp hn hw ha hb hd hf hca hcd hp4 hm hi
  · exact fun _ _ _ _ _ _ _ _ _ _ _ _ _ _ hg hr hl hh hx hy hcx hcy hgather hdata hq hap hput =>
      exec_cspush_done hg hr hl hh hx hy hcx hcy hgather hdata hq hap hput
  · exact fun _ _ _ _ _ _ _ _ _ _ _ hg hr hl hh hy hd hf hcy hcd hgather ht =>
      exec_cspop_done hg hr hl hh hy hd hf hcy hcd hgather ht
  · exact fun _ _ _ _ _ _ _ hg hr hl hh hd hcd ht => exec_csroute_done hg hr hl hh hd hcd ht

end Sys2Proof.Slice0

namespace Sys2Proof.Slice0
open Sys2Proof.Machine

/-! ### TLD and TST (R360, R361) -/

theorem waitTiles_of_free {s : State} {ts : List Nat} (h : ∀ t ∈ ts, t ∉ busyTiles (myCore s)) : waitTiles s ts = .ok () := by
  have hany : ts.any (busyTiles (myCore s)).contains = false := by
    simpa using h
  rw [waitTiles, hany]
  rfl

theorem fillSplit_curCore (s : State) (t : Nat) (vs : List (Nat × Nat × Nat)) : (fillSplit s t vs).curCore = s.curCore := by
  unfold fillSplit
  induction vs generalizing s with
  | nil => rfl
  | cons c vs ih => exact ih _

section
variable {f : EFields} {s s1 s2 : State} {cells : List (Nat × Nat × Option Cell)} {vs : List (Nat × Nat × Nat)}
  {bad : List Nat} (hg : guardHolds s = true) (hr : roomForItems s) (hn : nestRunning s = false)
include hg hr hn

theorem exec_tld_plain (h1 : f.opt.toNat % 16 ≠ 1) (h2 : f.opt.toNat % 16 ≠ 2) (hb : tileOf f ∉ busyTiles (myCore s))
    (hc : tileCells s f (tileShape (issueCore s) (tileOf f)) (f.opt.toNat % 16) = .ok (cells, s1))
    (hv : readCells s1 4 (shapeBits (tileShape (issueCore s) (tileOf f))) cells = .ok (vs, bad, s2)) :
    exec (.tld f) s = .next (finish (onCore (reportPoison s2 bad) (reportPoison s2 bad).curCore fun k =>
      fillTile k (tileOf f) vs) 8 none) := by
  have hw : waitTiles s ((List.range (0 + 1)).map (tileOf f + ·)) = .ok () := waitTiles_of_free (by simpa using hb)
  rw [show exec (.tld f) s = execTld f s from rfl, execTld, guarded_of_holds hg, waitNest_of_idle hn]
  generalize f.opt.toNat % 16 = ty at *
  have hstored : ∀ bits, storedBits ty bits = bits := fun bits => by
    unfold storedBits
    split
    · exact absurd rfl h1
    · exact absurd rfl h2
    · rfl
  simp only [bind, Except.bind, pure, Except.pure, hstored, hc, hv, hw, beq_false_of_ne h1, beq_false_of_ne h2,
    Bool.false_and, Bool.or_self, Bool.false_eq_true, if_false]
  exact concludeNext_of_room hr _ 8

theorem exec_tld_split (hty : f.opt.toNat % 16 = 1) (heven : tileOf f % 2 = 0)
    (hbits : shapeBits (tileShape (issueCore s) (tileOf f)) = 16) (hb : tileOf f ∉ busyTiles (myCore s))
    (hb' : tileOf f + 1 ∉ busyTiles (myCore s))
    (hc : tileCells s f (tileShape (issueCore s) (tileOf f)) 1 = .ok (cells, s1))
    (hv : readCells s1 4 32 cells = .ok (vs, bad, s2)) :
    exec (.tld f) s = .next (finish (onCore (fillSplit (reportPoison s2 bad) (tileOf f) vs)
      (fillSplit (reportPoison s2 bad) (tileOf f) vs).curCore fun k =>
        copyShape k (tileOf f) 1 (tileShape (issueCore s) (tileOf f))) 8 none) := by
  have hw : waitTiles s ((List.range 2).map (tileOf f + ·)) = .ok () :=
    waitTiles_of_free (by simpa [List.range_succ] using ⟨hb, hb'⟩)
  rw [show exec (.tld f) s = execTld f s from rfl, execTld, guarded_of_holds hg, waitNest_of_idle hn, fillSplit_curCore]
  simp [bind, Except.bind, pure, Except.pure, hty, heven, hbits, hc, hv, hw, storedBits]
  exact concludeNext_of_room hr _ 8

theorem exec_tld_slices {s3 : State} {o : Word} {es : List Int} (hty : f.opt.toNat % 16 = 2)
    (htile : tileOf f = 0 ∨ tileOf f = 8) (hbits : shapeBits (tileShape (issueCore s) (tileOf f)) = 8)
    (hb : ∀ d, d < 7 → tileOf f + d ∉ busyTiles (myCore s))
    (hc : tileCells s f (tileShape (issueCore s) (tileOf f)) 2 = .ok (cells, s1))
    (hv : readCells s1 4 64 cells = .ok (vs, bad, s2)) (ho : readGQ (reportPoison s2 bad) f.dst = .ok o)
    (he : readExponents (reportPoison s2 bad) o.toNat (if flag f.n12.toNat 5 then
      shapeCols (tileShape (issueCore s) (tileOf f)) else shapeRows (tileShape (issueCore s) (tileOf f))) = .ok (es, s3)) :
    exec (.tld f) s = .next (finish (onCore (fillSlices s3 (tileOf f) (flag f.n12.toNat 5) es vs) s3.curCore fun k =>
      copyShape k (tileOf f) 6 (tileShape (issueCore s) (tileOf f))) 8 none) := by
  have hw : waitTiles s ((List.range 7).map (tileOf f + ·)) = .ok () := waitTiles_of_free (by simpa using hb)
  have ht : (tileOf f != 0 && tileOf f != 8) = false := by
    rcases htile with h | h <;> rw [h] <;> rfl
  rw [show exec (.tld f) s = execTld f s from rfl, execTld, guarded_of_holds hg, waitNest_of_idle hn]
  simp [bind, Except.bind, pure, Except.pure, hty, ht, hbits, hc, hv, hw, storedBits, ho, he]
  exact concludeNext_of_room hr _ 8

theorem exec_tst_done {t : State} (hb : tileOf f ∉ busyTiles (myCore s))
    (hc : tileCells s f (tileShape (issueCore s) (tileOf f)) 0 = .ok (cells, s1))
    (hw : writeCells4 s1 5 (shapeBits (tileShape (issueCore s) (tileOf f))) (tileOf f) cells = .ok t) :
    exec (.tst f) s = .next (finish t 8 none) := by
  have hwait : waitTiles s [tileOf f] = .ok () := waitTiles_of_free (by simpa using hb)
  rw [show exec (.tst f) s = execTst f s from rfl, execTst, guarded_of_holds hg, waitNest_of_idle hn]
  simp only [bind, Except.bind, hwait, hc, hw]
  exact concludeNext_of_room hr _ 8

end

/-! #### Tile elements -/

theorem tileAt_setTile_self (k : Core) (t i j v : Nat) : tileAt (setTile k t i j v) t i j = v % 2 ^ 16 := by
  simp only [tileAt, setTile, look_put_self, BitVec.toNat_ofNat]

theorem tileAt_setTile_ne (k : Core) {t i j u a b : Nat} (v : Nat) (hj : j < 64) (hi : i < 64) (ha : a < 64) (hb : b < 64)
    (h : u ≠ t ∨ a ≠ i ∨ b ≠ j) : tileAt (setTile k t i j v) u a b = tileAt k u a b := by
  have hne : 4096 * u + 64 * a + b ≠ 4096 * t + 64 * i + j := by omega
  simp only [tileAt, setTile, look_put_ne _ _ _ hne]

theorem tileAt_fillTile_other {cells : List (Nat × Nat × Nat)} (hc : ∀ c ∈ cells, c.1 < 64 ∧ c.2.1 < 64) (k : Core)
    (t : Nat) {u i j : Nat} (hi : i < 64) (hj : j < 64) (h : u ≠ t ∨ (i, j) ∉ cells.map fun c => (c.1, c.2.1)) :
    tileAt (fillTile k t cells) u i j = tileAt k u i j := by
  unfold fillTile
  induction cells generalizing k with
  | nil => rfl
  | cons c cells ih =>
    obtain ⟨hc, hcs⟩ := List.forall_mem_cons.1 hc
    simp only [List.map_cons, List.mem_cons, not_or, Prod.mk.injEq] at h
    rw [List.foldl_cons, ih hcs _ (h.imp_right And.right), tileAt_setTile_ne k c.2.2 hc.2 hc.1 hi hj (by omega)]

theorem tileAt_fillTile_mem {cells : List (Nat × Nat × Nat)} (hc : ∀ c ∈ cells, c.1 < 64 ∧ c.2.1 < 64)
    (hn : (cells.map fun c => (c.1, c.2.1)).Nodup) (k : Core) (t : Nat) {i j v : Nat} (h : (i, j, v) ∈ cells) :
    tileAt (fillTile k t cells) t i j = v % 2 ^ 16 := by
  obtain ⟨hi, hj⟩ := hc _ h
  induction cells generalizing k with
  | nil => exact absurd h List.not_mem_nil
  | cons c cells ih =>
    obtain ⟨hc, hcs⟩ := List.forall_mem_cons.1 hc
    obtain ⟨hfirst, hrest⟩ := List.nodup_cons.1 hn
    obtain rfl | h := List.mem_cons.1 h
    · exact (tileAt_fillTile_other hcs _ t hi hj (.inr hfirst)).trans (tileAt_setTile_self k t i j v)
    · exact ih hcs hrest (setTile k t c.1 c.2.1 c.2.2) h

theorem and_or_absorb {a x : Flags} (h : a &&& x = x) (b : Flags) : (a ||| b) &&& x = x := by
  ext i hi
  have hi' : (a[i] && x[i]) = x[i] := by rw [← BitVec.getElem_and, h]
  rw [BitVec.getElem_and, BitVec.getElem_or, Bool.and_or_distrib_right, hi']
  cases x[i] <;> simp

theorem or_and_self_right (a x : Flags) : (a ||| x) &&& x = x := by
  rw [BitVec.or_comm]
  exact and_or_absorb BitVec.and_self a

/-! #### The two tiles of a split load (R209) -/

/-- One f32 of a split load put into its two tiles, with its flags. -/
def splitOne (s : State) (t : Nat) (c : Nat × Nat × Nat) : State :=
  setFlags (onCore s s.curCore fun k =>
    setTile (setTile k t c.1 c.2.1 (splitF32 c.2.2).1) (t + 1) c.1 c.2.1 (splitF32 c.2.2).2.1) (splitF32 c.2.2).2.2

theorem fillSplit_cons (s : State) (t : Nat) (c : Nat × Nat × Nat) (vs : List (Nat × Nat × Nat)) :
    fillSplit s t (c :: vs) = fillSplit (splitOne s t c) t vs := rfl

theorem tileAt_splitOne (s : State) (t : Nat) (c : Nat × Nat × Nat) (u i j : Nat) :
    tileAt (myCore (splitOne s t c)) u i j = tileAt
      (setTile (setTile (myCore s) t c.1 c.2.1 (splitF32 c.2.2).1) (t + 1) c.1 c.2.1 (splitF32 c.2.2).2.1) u i j := by
  have htiles : ∀ (r : State) f, (myCore (onMe r f)).tiles = (myCore r).tiles := fun r f => by
    have h := (OutsideKept.onMe r f).core
    exact (congrArg Core.tiles h :)
  unfold tileAt splitOne setFlags
  rw [htiles]
  simp only [myCore, onCore_curCore, coreOf_onCore_self]

theorem fflags_splitOne (s : State) (t : Nat) (c : Nat × Nat × Nat) :
    (me (splitOne s t c)).fflags = (me s).fflags ||| (splitF32 c.2.2).2.2 := by
  have hme : me (onCore s s.curCore fun k => setTile (setTile k t c.1 c.2.1 (splitF32 c.2.2).1) (t + 1) c.1 c.2.1
      (splitF32 c.2.2).2.1) = me s := me_onCore_of_streams s (fun _ => rfl) fun _ => rfl
  rw [splitOne, setFlags, me_onMe, hme]

theorem tileAt_fillSplit_other {vs : List (Nat × Nat × Nat)} (hv : ∀ c ∈ vs, c.1 < 64 ∧ c.2.1 < 64) (s : State) (t u : Nat)
    {i j : Nat} (hi : i < 64) (hj : j < 64) (h : (i, j) ∉ vs.map fun c => (c.1, c.2.1)) :
    tileAt (myCore (fillSplit s t vs)) u i j = tileAt (myCore s) u i j := by
  induction vs generalizing s with
  | nil => rfl
  | cons c vs ih =>
    obtain ⟨hc, hvs⟩ := List.forall_mem_cons.1 hv
    simp only [List.map_cons, List.mem_cons, not_or, Prod.mk.injEq] at h
    rw [fillSplit_cons, ih hvs _ h.2, tileAt_splitOne, tileAt_setTile_ne _ _ hc.2 hc.1 hi hj (by omega),
      tileAt_setTile_ne _ _ hc.2 hc.1 hi hj (by omega)]

theorem fflags_fillSplit {s : State} {x : Flags} (h : (me s).fflags &&& x = x) (t : Nat) (vs : List (Nat × Nat × Nat)) :
    (me (fillSplit s t vs)).fflags &&& x = x := by
  induction vs generalizing s with
  | nil => exact h
  | cons c vs ih =>
    refine ih (s := splitOne s t c) ?_
    rw [fflags_splitOne]
    exact and_or_absorb h _

theorem fillSplit_mem {vs : List (Nat × Nat × Nat)} (hv : ∀ c ∈ vs, c.1 < 64 ∧ c.2.1 < 64)
    (hn : (vs.map fun c => (c.1, c.2.1)).Nodup) (s : State) (t : Nat) {i j v : Nat} (h : (i, j, v) ∈ vs) :
    tileAt (myCore (fillSplit s t vs)) t i j = (splitF32 v).1 % 2 ^ 16 ∧
    tileAt (myCore (fillSplit s t vs)) (t + 1) i j = (splitF32 v).2.1 % 2 ^ 16 ∧
    (me (fillSplit s t vs)).fflags &&& (splitF32 v).2.2 = (splitF32 v).2.2 := by
  obtain ⟨hi, hj⟩ := hv _ h
  induction vs generalizing s with
  | nil => exact absurd h List.not_mem_nil
  | cons c vs ih =>
    obtain ⟨hc, hvs⟩ := List.forall_mem_cons.1 hv
    obtain ⟨hfirst, hrest⟩ := List.nodup_cons.1 hn
    obtain rfl | h := List.mem_cons.1 h
    · rw [fillSplit_cons]
      refine ⟨?_, ?_, fflags_fillSplit ?_ t vs⟩
      · rw [tileAt_fillSplit_other hvs _ t t hi hj hfirst, tileAt_splitOne, tileAt_setTile_ne _ _ hj hi hi hj (by omega),
          tileAt_setTile_self]
      · rw [tileAt_fillSplit_other hvs _ t _ hi hj hfirst, tileAt_splitOne, tileAt_setTile_self]
      · rw [fflags_splitOne]
        exact or_and_self_right _ _
    · exact ih hvs hrest (splitOne s t c) h

/-! ### ACCMOV, SCLD, TIDSET and TIDINV (R365, R367, R368) -/

section
variable {f : EFields} {s : State} (hg : guardHolds s = true)
include hg

section
variable {t : State} {ea b d : Word} {pitch z : Nat} {valid isFloat : Bool} {lane : Nat → Nat → Nat}
  (hn : nestRunning s = false) (hea : readGQ s f.a = .ok ea) (hb : readGQ s f.b = .ok b)
  (hd : readGQ s f.dst = .ok d) (hz : z = moveBytes f.opt.toNat) (hpitch : pitch = if f.b = 0 then 64 * z else b.toNat)
  (haz : ea.toNat % z = 0) (hpz : pitch % z = 0) (hvalid : valid = (myCore s).accV.getLsbD (f.n12.toNat % 8))
  (hfloat : isFloat = (valid && (myCore s).accM.getLsbD (f.n12.toNat % 8)))
  (hlane : lane = fun i j => if valid then laneOf (myCore s) (f.n12.toNat % 8) i j else 0)
include hn hea hb hd hz hpitch haz hpz hvalid hfloat hlane

/-- An ACCMOV whose checks have passed goes by its mode. -/
theorem exec_accmov_aligned : exec (.accmov f) s = concludeNext s 8 (
    if f.opt.toNat < 4 then
      moveLanes s ea pitch z (fun s' i j _ => .ok (laneElem f.opt.toNat (roundingMode s) isFloat (lane i j), s'))
        (cellsOf 64 64)
    else if isFloat then stopWith 0x97
    else if f.opt.toNat == 4 then
      if d.toInt < -1100 || 1100 < d.toInt then stopWith 0x09
      else moveLanes s ea pitch z (fun s' i j a => do
        let (old, s') ← loadBytes s' 0 a 8
        return (addScaled (fromBytes old) (lane i j) d.toInt, s')) (cellsOf 64 64)
    else if field d.toNat 27 5 != 0 || field d.toNat 59 5 != 0 then stopWith 0x09
    else do
      let (eas, s) ← readExponents s (field d.toNat 0 27) 64
      let (ebs, s) ← readExponents s (field d.toNat 32 27) 64
      moveLanes s ea pitch z (fun s' i j a => do
        let (old, s') ← loadBytes s' 0 a 8
        return (⟨(finalScale (addScaled (fromBytes old) (lane i j) 96).bits (eas.getD i 0) (ebs.getD j 0)).bits,
          (addScaled (fromBytes old) (lane i j) 96).flags |||
          (finalScale (addScaled (fromBytes old) (lane i j) 96).bits (eas.getD i 0) (ebs.getD j 0)).flags⟩, s'))
        (cellsOf 64 64)) := by
  have hpitch' : (if f.b == 0 then 64 * moveBytes f.opt.toNat else b.toNat) = pitch := by
    rw [hpitch, hz]
    simp only [beq_iff_eq]
  subst hz hvalid hfloat hlane
  rw [show exec (.accmov f) s = execAccmov f s from rfl, execAccmov, guarded_of_holds hg, waitNest_of_idle hn]
  simp only [bind, Except.bind, hea, hb, hd, hpitch', haz, hpz, bne_self_eq_false, Bool.or_self, Bool.false_eq_true, if_false]

variable (hr : roomForItems s)
include hr

theorem exec_accmov_direct (hm : f.opt.toNat < 4)
    (h : moveLanes s ea pitch z (fun s' i j _ => .ok (laneElem f.opt.toNat (roundingMode s) isFloat (lane i j), s'))
      (cellsOf 64 64) = .ok t) : exec (.accmov f) s = .next (finish t 8 none) := by
  rw [exec_accmov_aligned hg hn hea hb hd hz hpitch haz hpz hvalid hfloat hlane, if_pos hm, h]
  exact concludeNext_of_room hr _ 8

theorem exec_accmov_add (hm : f.opt.toNat = 4) (hf : isFloat = false) (hlo : -1100 ≤ d.toInt) (hhi : d.toInt ≤ 1100)
    (h : moveLanes s ea pitch z (fun s' i j a => do
        let (old, s') ← loadBytes s' 0 a 8
        return (addScaled (fromBytes old) (lane i j) d.toInt, s')) (cellsOf 64 64) = .ok t) :
    exec (.accmov f) s = .next (finish t 8 none) := by
  have hrange : (decide (d.toInt < -1100) || decide (1100 < d.toInt)) = false := by simp [hlo, hhi]
  rw [exec_accmov_aligned hg hn hea hb hd hz hpitch haz hpz hvalid hfloat hlane, if_neg (by omega), hf]
  simp only [Bool.false_eq_true, if_false, hm, beq_self_eq_true, if_true, hrange]
  rw [h]
  exact concludeNext_of_room hr _ 8

theorem exec_accmov_scale {s1 s2 : State} {eas ebs : List Int} (hm : f.opt.toNat = 5) (hf : isFloat = false)
    (h27 : field d.toNat 27 5 = 0) (h59 : field d.toNat 59 5 = 0)
    (heas : readExponents s (field d.toNat 0 27) 64 = .ok (eas, s1))
    (hebs : readExponents s1 (field d.toNat 32 27) 64 = .ok (ebs, s2))
    (h : moveLanes s2 ea pitch z (fun s' i j a => do
        let (old, s') ← loadBytes s' 0 a 8
        return (⟨(finalScale (addScaled (fromBytes old) (lane i j) 96).bits (eas.getD i 0) (ebs.getD j 0)).bits,
          (addScaled (fromBytes old) (lane i j) 96).flags |||
          (finalScale (addScaled (fromBytes old) (lane i j) 96).bits (eas.getD i 0) (ebs.getD j 0)).flags⟩, s'))
        (cellsOf 64 64) = .ok t) : exec (.accmov f) s = .next (finish t 8 none) := by
  have hne : (f.opt.toNat == 4) = false := by rw [hm]; rfl
  rw [exec_accmov_aligned hg hn hea hb hd hz hpitch haz hpz hvalid hfloat hlane, if_neg (by omega), hf]
  simp only [Bool.false_eq_true, if_false, hne, h27, h59, bne_self_eq_false, Bool.or_self]
  simp only [bind, Except.bind, heas, hebs] at h ⊢
  rw [h]
  exact concludeNext_of_room hr _ 8

end

theorem exec_scld_none {first ea n : Word} (hfirst : readGQ s f.dst = .ok first) (hea : readGQ s f.a = .ok ea)
    (hcount : readGQ s f.b = .ok n) (h0 : n = 0) : exec (.scld f) s = .next (finish s 8 none) := by
  subst h0
  rw [show exec (.scld f) s = execScld f s from rfl, execScld, guarded_of_holds hg]
  simp only [bind, Except.bind, pure, Except.pure, hfirst, hea, hcount]
  exact concludeNext_of_ctxs rfl 8

theorem exec_scld_loads {s1 : State} {first ea n : Word} {bs : List Byte} (hr : roomForItems s)
    (hfirst : readGQ s f.dst = .ok first) (hea : readGQ s f.a = .ok ea) (hcount : readGQ s f.b = .ok n) (h0 : n ≠ 0)
    (hfit : first.toNat + n.toNat ≤ 8192) (hb : loadUnits s 0 ea (2 * n.toNat) = .ok (bs, s1)) :
    exec (.scld f) s = .next (finish (onCore s1 s1.curCore fun k => { k with
      scales := putScales k.scales first.toNat ((List.range n.toNat).map fun i => imageAt bs (2 * i) 2) }) 8 none) := by
  have hn : (n.toNat == 0) = false := beq_false_of_ne fun h => h0 (BitVec.eq_of_toNat_eq h)
  rw [show exec (.scld f) s = execScld f s from rfl, execScld, guarded_of_holds hg]
  simp only [bind, Except.bind, pure, Except.pure, hfirst, hea, hcount, hn, Bool.false_eq_true, if_false,
    if_neg (Nat.not_lt.2 hfit), hb]
  exact concludeNext_of_room hr _ 8

theorem exec_tidset_done {s1 t : State} {ea id : Word} {im : List Byte} (hr : roomForItems s)
    (hea : readGQ s f.a = .ok ea) (hid : readGQ s f.b = .ok id) (him : loadBytes s 0 ea 64 = .ok (im, s1))
    (hlt : id.toNat < 4096) (hok : tidImageOk im = true)
    (hst : storeBytes s1 1 (word (tidAddress s1 (myCtx s1) id.toNat)) im = .ok t) :
    exec (.tidset f) s = .next (finish (tidInsert t id.toNat im) 8 none) := by
  have hbad : (decide (4096 ≤ id.toNat) || !tidImageOk im) = false := by simp [hok, hlt]
  rw [show exec (.tidset f) s = execTidset f s from rfl, execTidset, guarded_of_holds hg]
  simp only [bind, Except.bind, pure, Except.pure, hea, hid, him, hbad, Bool.false_eq_true, if_false, hst]
  exact concludeNext_of_room hr _ 8

theorem exec_tidinv_done {first n : Word} (hfirst : readGQ s f.a = .ok first) (hn : readGQ s f.b = .ok n) :
    exec (.tidinv f) s = .next (finish (onCore s s.curCore fun k => { k with tids := k.tids.filter fun p =>
      n != 0 && !(first.toNat ≤ p.1 && p.1 < first.toNat + n.toNat) }) 8 none) := by
  rw [show exec (.tidinv f) s = execTidinv f s from rfl, execTidinv, guarded_of_holds hg]
  simp only [bind, Except.bind, pure, Except.pure, hfirst, hn]
  exact concludeNext_of_ctxs (by rfl) 8

end

theorem find_tidInsert (s : State) (i : Nat) (e : List Byte) : find (myCore (tidInsert s i e)).tids i = some e := by
  unfold tidInsert
  dsimp only
  split
  · simp only [myCore, onCore_curCore, coreOf_onCore_self, find_put_self]
  · simp only [myCore, onCore_curCore, drawWord, coreOf_onCore_self, find_put_self]

/-- Settles O46. -/
theorem tileMovesComplete : Obligations.TileMovesComplete := by
  unfold Obligations.TileMovesComplete
  refine ⟨?_, ?_, ?_, ?_, ?_, ?_, ?_, ?_, ?_, ?_⟩
  · exact fun _ _ _ _ _ _ _ hg hr hn h1 h2 hb hc hv => exec_tld_plain hg hr hn h1 h2 hb hc hv
  · exact fun _ _ _ _ _ _ _ hg hr hn hty heven hbits hb hb' hc hv =>
      exec_tld_split hg hr hn hty heven hbits hb hb' hc hv
  · exact fun _ _ _ _ _ _ _ _ _ _ hg hr hn hty ht hbits hb hc hv ho he =>
      exec_tld_slices hg hr hn hty ht hbits hb hc hv ho he
  · exact fun s t _ _ _ _ hmem hv hn => fillSplit_mem hv hn s t hmem
  · intro k t i j cells hi hj hc hn
    refine ⟨fun v h => tileAt_fillTile_mem hc hn k t h, fun h => ?_, fun u hu => ?_⟩
    · refine tileAt_fillTile_other hc k t hi hj (.inr fun hmem => ?_)
      obtain ⟨⟨a, b, v⟩, hin, heq⟩ := List.mem_map.1 hmem
      obtain ⟨rfl, rfl⟩ := Prod.mk.inj heq
      exact h v hin
    · exact tileAt_fillTile_other hc k t hi hj (.inl hu)
  · exact fun _ _ _ _ _ hg hr hn hb hc hw => exec_tst_done hg hr hn hb hc hw
  · intro f s t ea b d pitch z valid isFloat lane hg hr hn hea hb hd hz hp haz hpz hv hf hl
    exact ⟨fun hm h => exec_accmov_direct hg hn hea hb hd hz hp haz hpz hv hf hl hr hm h,
      fun hm hff hlo hhi h => exec_accmov_add hg hn hea hb hd hz hp haz hpz hv hf hl hr hm hff hlo hhi h,
      fun s1 s2 eas ebs hm hff h27 h59 heas hebs h =>
        exec_accmov_scale hg hn hea hb hd hz hp haz hpz hv hf hl hr hm hff h27 h59 heas hebs h⟩
  · exact fun f s s1 first ea n bs hg hr hfirst hea hcount =>
      ⟨fun h0 => exec_scld_none hg hfirst hea hcount h0,
        fun h0 hfit hb => exec_scld_loads hg hr hfirst hea hcount h0 hfit hb⟩
  · exact fun f s s1 t ea id im hg hr hea hid him hlt hok hst =>
      ⟨exec_tidset_done hg hr hea hid him hlt hok hst, fun _ => find_tidInsert t _ im⟩
  · exact fun _ _ _ _ hg hfirst hn => exec_tidinv_done hg hfirst hn

end Sys2Proof.Slice0

namespace Sys2Proof.Slice0
open Sys2Proof.Machine

/-! ### What the end of an instruction leaves of a core (R162, R253, R309) -/

theorem TraceKept.traceWaitOf (s : State) (core stream : Nat) (st : Stream) :
    TraceKept s (traceWaitOf s core stream st) := by
  unfold Machine.traceWaitOf
  dsimp only
  split
  · exact .refl s
  · exact .trace s _ _ _ _
  · exact .trace s _ _ _ _

/-- A core but for its streams, its crossbar counters, what walks returned, and what a trace entry changes. -/
def unissued (k : Core) : Core := { untraced k with streams := [], handler := none, walked := [], counters := [] }

/-- Two states whose cores are the same but for those, with the same core issuing. -/
structure IssueKept (s t : State) : Prop where
  curCore : t.curCore = s.curCore
  cores : ∀ c, unissued (coreOf t c) = unissued (coreOf s c)

namespace IssueKept

theorem trans {s t u : State} (h : IssueKept s t) (h' : IssueKept t u) : IssueKept s u :=
  ⟨h'.curCore.trans h.curCore, fun c => (h'.cores c).trans (h.cores c)⟩

theorem of_traceKept {s t : State} (h : TraceKept s t) : IssueKept s t :=
  ⟨h.curCore, fun c => congrArg (fun k => { k with streams := [], handler := none, walked := [], counters := [] }) (h.cores c)⟩

theorem onCore (s : State) (c : Nat) (f : Core → Core) (hf : ∀ k, unissued (f k) = unissued k) : IssueKept s (onCore s c f) := by
  refine ⟨rfl, fun d => ?_⟩
  by_cases hd : d = c
  · rw [hd, coreOf_onCore_self, hf]
  · rw [coreOf_onCore_ne s f hd]

theorem onMe (s : State) (f : Stream → Stream) : IssueKept s (onMe s f) :=
  onCore s s.curCore (onFile s.curStream f) fun k => by
    unfold onFile
    split <;> rfl

theorem streamPulse (s : State) (core stream : Nat) : IssueKept s (streamPulse s core stream) := by
  have htake : IssueKept s (pulseTake s core stream).2 := ⟨rfl, fun _ => rfl⟩
  have hdone : ∀ (t : State) n, IssueKept t (tlDone t (coreCtx t core) (tlKey (stream + 1) core) n) := fun _ _ =>
    ⟨rfl, fun _ => rfl⟩
  exact (htake.trans (hdone _ _)).trans (onCore _ core (pulseCore · stream) fun _ => rfl)

theorem finish (s : State) (len : Nat) (target : Option Word) : IssueKept s (finish s len target) := by
  have hwait : IssueKept s (traceWait s (me s)) := of_traceKept (.traceWaitOf s _ _ _)
  unfold Machine.finish
  dsimp only
  have hdrop : ∀ t : State, IssueKept t (Machine.onCore t t.curCore fun k => dropWalked k t.curStream) := fun t =>
    onCore t t.curCore (dropWalked · t.curStream) fun _ => rfl
  split
  · exact ((hwait.trans (hdrop _)).trans (onMe _ _)).trans (streamPulse _ _ _)
  · exact (hwait.trans (hdrop _)).trans (onMe _ _)

theorem coreField {α : Type} {s t : State} (h : IssueKept s t) (g : Core → α)
    (hg : ∀ k, g (unissued k) = g k := by intro; rfl) (c : Nat) : g (coreOf t c) = g (coreOf s c) := by
  rw [← hg, h.cores, hg]

/-- A part of the issuing core. -/
theorem mine {α : Type} {s t : State} (h : IssueKept s t) (g : Core → α)
    (hg : ∀ k, g (unissued k) = g k := by intro; rfl) : g (myCore t) = g (myCore s) := by
  rw [myCore, myCore, h.curCore, h.coreField g hg]

end IssueKept

/-! ### One row group (R208, R363) -/

theorem mem_cellsOf (rows cols r j : Nat) : (r, j) ∈ cellsOf rows cols ↔ r < rows ∧ j < cols := by
  simp [cellsOf]

theorem shapeRows_le (v : Nat) : shapeRows v ≤ 64 := by
  have := Nat.mod_lt (v / 2 ^ 8) (Nat.two_pow_pos 6)
  simp only [shapeRows, field]
  omega

theorem shapeCols_le (v : Nat) : shapeCols v ≤ 64 := by
  have := Nat.mod_lt (v / 2 ^ 0) (Nat.two_pow_pos 6)
  simp only [shapeCols, field]
  omega

/-- What a row group adds to one lane, from the core `k0` at its start. -/
abbrev laneResult (k0 : Core) (p : Product) (c : Nat × Nat) : FRes := lanePasses k0 p c.1 c.2 (laneOf k0 p.acc c.1 c.2)

/-- One lane of a row group accumulated, with its flags. -/
def laneStep (k0 : Core) (p : Product) (q : Core × Flags) (c : Nat × Nat) : Core × Flags :=
  ({ q.1 with acc := put q.1.acc (4096 * p.acc + 64 * c.1 + c.2) (BitVec.ofNat 36 (laneResult k0 p c).bits) },
    q.2 ||| (laneResult k0 p c).flags)

theorem rowGroup_eq (k : Core) (p : Product) (g : Nat) :
    rowGroup k p g = ((cellsOf (shapeRows p.shapeA) (shapeCols p.shapeB)).filter fun c => c.1 / 8 == g).foldl
      (laneStep (if p.zeroing then zeroGroup k p.acc g else k) p) (if p.zeroing then zeroGroup k p.acc g else k, 0) := rfl

section
variable (k0 : Core) (p : Product)

theorem foldl_laneStep_rest (cs : List (Nat × Nat)) (q : Core × Flags) :
    { (cs.foldl (laneStep k0 p) q).1 with acc := [] } = { q.1 with acc := [] } := by
  induction cs generalizing q with
  | nil => rfl
  | cons c cs ih => exact ih (laneStep k0 p q c)

theorem foldl_laneStep_other {cs : List (Nat × Nat)} (hcs : ∀ c ∈ cs, c.1 < 64 ∧ c.2 < 64) (q : Core × Flags) {a r j : Nat}
    (hr : r < 64) (hj : j < 64) (h : a ≠ p.acc ∨ (r, j) ∉ cs) :
    laneOf (cs.foldl (laneStep k0 p) q).1 a r j = laneOf q.1 a r j := by
  induction cs generalizing q with
  | nil => rfl
  | cons c cs ih =>
    obtain ⟨hc, hcs⟩ := List.forall_mem_cons.1 hcs
    have hne : 4096 * a + 64 * r + j ≠ 4096 * p.acc + 64 * c.1 + c.2 := by
      rcases h with h | h
      · omega
      · have hrj : ¬ (r = c.1 ∧ j = c.2) := fun e => h (by simp [e.1, e.2])
        omega
    rw [List.foldl_cons, ih hcs _ (h.imp_right fun h hm => h (List.mem_cons_of_mem _ hm))]
    simp only [laneOf, laneStep, look_put_ne _ _ _ hne]

theorem foldl_laneStep_mem {cs : List (Nat × Nat)} (hcs : ∀ c ∈ cs, c.1 < 64 ∧ c.2 < 64) (q : Core × Flags) {r j : Nat}
    (h : (r, j) ∈ cs) :
    laneOf (cs.foldl (laneStep k0 p) q).1 p.acc r j = (laneResult k0 p (r, j)).bits % 2 ^ 36 := by
  obtain ⟨hr, hj⟩ := hcs _ h
  induction cs generalizing q with
  | nil => exact absurd h List.not_mem_nil
  | cons c cs ih =>
    obtain ⟨-, hcs'⟩ := List.forall_mem_cons.1 hcs
    by_cases hm : (r, j) ∈ cs
    · exact ih hcs' (laneStep k0 p q c) hm
    · obtain rfl : (r, j) = c := (List.mem_cons.1 h).resolve_right hm
      rw [List.foldl_cons, foldl_laneStep_other k0 p hcs' _ hr hj (.inr hm)]
      simp only [laneOf, laneStep, look_put_self, BitVec.toNat_ofNat]

theorem foldl_laneStep_keeps (cs : List (Nat × Nat)) {q : Core × Flags} {x : Flags} (h : q.2 &&& x = x) :
    (cs.foldl (laneStep k0 p) q).2 &&& x = x := by
  induction cs generalizing q with
  | nil => exact h
  | cons c cs ih => exact ih (q := laneStep k0 p q c) (and_or_absorb h _)

theorem foldl_laneStep_flags {cs : List (Nat × Nat)} (q : Core × Flags) {c : Nat × Nat} (h : c ∈ cs) :
    (cs.foldl (laneStep k0 p) q).2 &&& (laneResult k0 p c).flags = (laneResult k0 p c).flags := by
  induction cs generalizing q with
  | nil => exact absurd h List.not_mem_nil
  | cons d cs ih =>
    obtain rfl | h := List.mem_cons.1 h
    · exact foldl_laneStep_keeps k0 p cs (q := laneStep k0 p q c) (or_and_self_right _ _)
    · exact ih (laneStep k0 p q d) h

end

theorem laneOf_zeroGroup (k : Core) {acc g a r j : Nat} (hg : g < 8) (hr : r < 64) (hj : j < 64) :
    laneOf (zeroGroup k acc g) a r j = if a = acc ∧ r / 8 = g then 0 else laneOf k a r j := by
  have hkey : (4096 * a + 64 * r + j) / 512 = 8 * a + r / 8 := by omega
  rw [laneOf, zeroGroup, look_filter_keys 0 k.acc (fun i => i / 512 != 8 * acc + g), hkey]
  by_cases h : a = acc ∧ r / 8 = g
  · simp [h.1, h.2]
  · have hne : 8 * a + r / 8 ≠ 8 * acc + g := by omega
    simp [h, hne, laneOf]

/-- What one row group comes to, lane by lane, and its flags. -/
structure GroupLanes (k : Core) (q : Core × Flags) (p : Product) (g : Nat) : Prop where
  rest : { q.1 with acc := [] } = { k with acc := [] }
  other : ∀ a r j, r < 64 → j < 64 → a ≠ p.acc ∨ r / 8 ≠ g → laneOf q.1 a r j = laneOf k a r j
  outside : ∀ r j, r < 64 → j < 64 → r / 8 = g → ¬ (r < shapeRows p.shapeA ∧ j < shapeCols p.shapeB) →
    laneOf q.1 p.acc r j = if p.zeroing then 0 else laneOf k p.acc r j
  inside : ∀ r j, r / 8 = g → r < shapeRows p.shapeA → j < shapeCols p.shapeB →
    laneOf q.1 p.acc r j = (lanePasses k p r j (if p.zeroing then 0 else laneOf k p.acc r j)).bits % 2 ^ 36 ∧
    q.2 &&& (lanePasses k p r j (if p.zeroing then 0 else laneOf k p.acc r j)).flags =
      (lanePasses k p r j (if p.zeroing then 0 else laneOf k p.acc r j)).flags

theorem groupLanes_rowGroup (k : Core) (p : Product) {g : Nat} (hg : g < 8) : GroupLanes k (rowGroup k p g) p g := by
  obtain ⟨k0, hk0⟩ : ∃ k0, k0 = if p.zeroing then zeroGroup k p.acc g else k := ⟨_, rfl⟩
  have hlane : ∀ a r j, r < 64 → j < 64 → laneOf k0 a r j =
      if a = p.acc ∧ r / 8 = g then (if p.zeroing then 0 else laneOf k a r j) else laneOf k a r j := by
    intro a r j hr hj
    subst hk0
    cases p.zeroing
    · simp
    · simp only [if_true, laneOf_zeroGroup k hg hr hj]
  have hpasses : ∀ r j x, lanePasses k0 p r j x = lanePasses k p r j x := by
    intro r j x
    subst hk0
    cases p.zeroing <;> rfl
  have hrest : { k0 with acc := [] } = { k with acc := [] } := by
    subst hk0
    cases p.zeroing <;> rfl
  have hcells : ∀ c ∈ (cellsOf (shapeRows p.shapeA) (shapeCols p.shapeB)).filter fun c => c.1 / 8 == g,
      c.1 < 64 ∧ c.2 < 64 := by
    intro c hc
    obtain ⟨hr, hj⟩ := (mem_cellsOf _ _ c.1 c.2).1 (List.mem_filter.1 hc).1
    exact ⟨hr.trans_le (shapeRows_le _), hj.trans_le (shapeCols_le _)⟩
  rw [rowGroup_eq, ← hk0]
  refine ⟨(foldl_laneStep_rest k0 p _ _).trans hrest, fun a r j hr hj h => ?_, fun r j hr hj hgr h => ?_, fun r j hgr hr hj => ?_⟩
  · rw [foldl_laneStep_other k0 p hcells _ hr hj, hlane a r j hr hj, if_neg (by tauto)]
    exact h.imp_right fun h hm => h (by simpa using (List.mem_filter.1 hm).2)
  · rw [foldl_laneStep_other k0 p hcells _ hr hj, hlane _ r j hr hj, if_pos ⟨rfl, hgr⟩]
    exact .inr fun hm => h ((mem_cellsOf _ _ r j).1 (List.mem_filter.1 hm).1)
  · have hmem : (r, j) ∈ (cellsOf (shapeRows p.shapeA) (shapeCols p.shapeB)).filter fun c => c.1 / 8 == g :=
      List.mem_filter.2 ⟨(mem_cellsOf _ _ r j).2 ⟨hr, hj⟩, by simpa using hgr⟩
    obtain ⟨hr', hj'⟩ := hcells _ hmem
    have hres : laneResult k0 p (r, j) = lanePasses k p r j (if p.zeroing then 0 else laneOf k p.acc r j) := by
      rw [laneResult, hpasses, hlane _ r j hr' hj', if_pos ⟨rfl, hgr⟩]
    rw [← hres]
    exact ⟨foldl_laneStep_mem k0 p hcells _ hmem, foldl_laneStep_flags k0 p _ hmem⟩

end Sys2Proof.Slice0

namespace Sys2Proof.Slice0
open Sys2Proof.Machine

/-! ### What opening a product leaves (R202, R363) -/

/-- Two states whose accumulators have the same modes. -/
def SameModes (s t : State) : Prop := ∀ c, (coreOf t c).accM = (coreOf s c).accM

theorem sameModes_onCore (s : State) (c : Nat) {f : Core → Core} (hf : ∀ k, (f k).accM = k.accM) : SameModes s (onCore s c f) := by
  intro d
  by_cases hd : d = c
  · rw [hd, coreOf_onCore_self, hf]
  · rw [coreOf_onCore_ne s f hd]

theorem sameModes_traceFrame : TraceFrame SameModes where
  refl _ _ := rfl
  trans h h' c := (h' c).trans (h c)
  device _ _ _ _ _ _ _ _ := rfl
  taint s core _ _ _ := sameModes_onCore s core fun _ => rfl
  buffer s core _ hf := sameModes_onCore s core fun k => (congrArg Core.accM (hf k) :)
  place _ _ _ _ _ := rfl

theorem sameModes_claimFrame : ClaimFrame SameModes :=
  sameModes_traceFrame.claimFrame (fun _ _ _ _ _ _ => rfl) fun s core _ => sameModes_onCore s core fun _ => rfl

theorem loadCs_kept {s t : State} {o n : Nat} {info : Word} {bs : List Byte} (h : loadCs s o n info = .ok (bs, t)) :
    SameStreams s t ∧ SameModes s t := by
  simp only [loadCs, bind, Except.bind, pure, Except.pure] at h
  cases hc : csSpan s s.curCore o n info with
  | error e =>
    rw [hc] at h
    cases h
  | ok p =>
    obtain ⟨ps, u⟩ := p
    rw [hc] at h
    dsimp only at h
    have hu : SameStreams s u := sameStreams_claimFrame.of_csSpan hc
    have hm : SameModes s u := sameModes_claimFrame.of_csSpan hc
    obtain ⟨-, rfl⟩ := Prod.mk.inj (Except.ok.inj h)
    split
    · exact ⟨hu.trans (.postItem _ _ _), sameModes_traceFrame.trans hm fun c =>
        (congrArg Core.accM ((PostKept.postItem u _ _).cores c) :)⟩
    · exact ⟨hu, hm⟩

theorem readTable_kept {s t : State} {ty base n : Nat} {bs : List Byte} (h : readTable s ty base n = .ok (bs, t)) :
    SameStreams s t ∧ SameModes s t := by
  unfold readTable at h
  split at h
  · exact loadCs_kept h
  · obtain ⟨-, rfl⟩ := Prod.mk.inj (Except.ok.inj h)
    exact ⟨.refl s, fun _ => rfl⟩

/-! ### One step of a product (R363) -/

theorem myCore_onCore (s : State) (f : Core → Core) : myCore (onCore s s.curCore f) = f (myCore s) := by
  rw [myCore, onCore_curCore, coreOf_onCore_self, myCore]

theorem me_setCore {s : State} {k : Core} (hs : k.streams = (myCore s).streams) (hh : k.handler = (myCore s).handler) :
    me (setCore s s.curCore k) = me s := by
  have hk : coreOf (setCore s s.curCore k) s.curCore = k := look_put_self _ _ _ _
  simp only [me, show (setCore s s.curCore k).curCore = s.curCore from rfl,
    show (setCore s s.curCore k).curStream = s.curStream from rfl, hk, streamOf, hs, hh, myCore]

/-- The state with a row group accumulated, its flags set. -/
def groupState (s : State) (p : Product) (g : Nat) : State :=
  setFlags (setCore s s.curCore (rowGroup (myCore s) p g).1) (rowGroup (myCore s) p g).2

theorem me_groupState (s : State) (p : Product) {g : Nat} (hg : g < 8) :
    me (groupState s p g) = { me s with fflags := (me s).fflags ||| (rowGroup (myCore s) p g).2 } := by
  have hrest := (groupLanes_rowGroup (myCore s) p hg).rest
  have hme : me (setCore s s.curCore (rowGroup (myCore s) p g).1) = me s :=
    me_setCore (congrArg Core.streams hrest :) (congrArg Core.handler hrest :)
  rw [groupState, setFlags, me_onMe, hme]

theorem mine_groupState {α : Type} (s : State) (p : Product) (g : Nat) (h : Core → α)
    (hh : ∀ k, h (unissued k) = h k := by intro; rfl) : h (myCore (groupState s p g)) = h (rowGroup (myCore s) p g).1 := by
  have hk : myCore (setCore s s.curCore (rowGroup (myCore s) p g).1) = (rowGroup (myCore s) p g).1 := look_put_self _ _ _ _
  exact ((IssueKept.onMe (setCore s s.curCore (rowGroup (myCore s) p g).1) _).mine h hh).trans (congrArg h hk)

/-- A part of a core that no row group changes. -/
theorem kept_groupState {α : Type} (s : State) (p : Product) {g : Nat} (hg : g < 8) (h : Core → α)
    (hh : ∀ k, h (unissued k) = h k := by intro; rfl) (ha : ∀ k : Core, h { k with acc := [] } = h k := by intro; rfl) :
    h (myCore (groupState s p g)) = h (myCore s) := by
  rw [mine_groupState s p g h hh, ← ha, (groupLanes_rowGroup (myCore s) p hg).rest, ha]

theorem or_and_absorb {a x : Flags} (h : a &&& x = x) (b : Flags) : (b ||| a) &&& x = x := by
  rw [BitVec.or_comm]
  exact and_or_absorb h b

theorem groupDone_of_lanes {k : Core} {t : State} {q : Core × Flags} {p : Product} {g : Nat} (h : GroupLanes k q p g)
    (hacc : (myCore t).acc = q.1.acc) (hfl : ∀ x, q.2 &&& x = x → (me t).fflags &&& x = x) : groupDone k t p g := by
  have hlane : ∀ a r j, laneOf (myCore t) a r j = laneOf q.1 a r j := fun a r j => by simp only [laneOf, hacc]
  intro a r j hr hj
  refine ⟨fun hne => (hlane a r j).trans (h.other a r j hr hj hne), ?_⟩
  rintro rfl hgr old rfl
  refine ⟨fun ⟨hrow, hcol⟩ => ?_, fun hout => (hlane _ r j).trans (h.outside r j hr hj hgr hout)⟩
  obtain ⟨hbits, hflags⟩ := h.inside r j hgr hrow hcol
  exact ⟨(hlane _ r j).trans hbits, hfl _ hflags⟩

/-- The state in which a product in progress stands after row group `g` of it. -/
def productNext (s : State) (p : Product) (g : Nat) : State :=
  onMe (onCore (groupState s p g) (groupState s p g).curCore fun k => { k with accF := statusBit k.accF p.acc true })
    fun st => { keepIssue (groupState s p g).guard.pulse (rowGroup (myCore s) p g).1 st with
      progress := 8 * (g + 1), mma := some p }

/-- The state in which one stands after its last row group, before its instruction ends. -/
def productLast (s : State) (p : Product) : State :=
  onCore (groupState s p 7) (groupState s p 7).curCore fun k => endProduct k p

theorem productStep_next {s : State} {p : Product} {g : Nat} (hp : (me s).progress = 8 * g) (hg : g < 7) :
    productStep s p = productNext s p g := by
  have h8 : (me s).progress / 8 = g := by omega
  unfold productStep
  rw [h8]
  simp only [hg, if_true]
  rfl

theorem productStep_last {s : State} {p : Product} (hp : (me s).progress = 56) :
    productStep s p = finish (productLast s p) 8 none := by
  unfold productStep
  rw [hp]
  rfl

theorem groupDone_congr {k k' : Core} {t : State} {p : Product} {g : Nat} (ha : k'.acc = k.acc) (ht : k'.tiles = k.tiles)
    (h : groupDone k t p g) : groupDone k' t p g := by
  have hlane : ∀ a r j, laneOf k' a r j = laneOf k a r j := fun a r j => by simp only [laneOf, ha]
  have hpass : ∀ r j x, lanePasses k' p r j x = lanePasses k p r j x := fun r j x => by
    simp only [lanePasses, rowValues, colValues, tileElem, tileAt, ht]
  simpa only [groupDone, hlane, hpass] using h

section
variable {s : State} {p : Product} {g : Nat}

theorem me_productNext (hg : g < 8) : me (productNext s p g) =
    { keepIssue (groupState s p g).guard.pulse (rowGroup (myCore s) p g).1
        { me s with fflags := (me s).fflags ||| (rowGroup (myCore s) p g).2 } with
      progress := 8 * (g + 1), mma := some p } := by
  have hcore : me (onCore (groupState s p g) (groupState s p g).curCore fun k =>
      { k with accF := statusBit k.accF p.acc true }) = me (groupState s p g) :=
    me_onCore_of_streams _ (fun _ => rfl) fun _ => rfl
  rw [productNext, me_onMe, hcore, me_groupState s p hg]

theorem mine_productNext {α : Type} (h : Core → α) (hh : ∀ k, h (unissued k) = h k := by intro; rfl) :
    h (myCore (productNext s p g)) =
      h { myCore (groupState s p g) with accF := statusBit (myCore (groupState s p g)).accF p.acc true } := by
  rw [productNext, (IssueKept.onMe _ _).mine h hh, myCore_onCore]

theorem productNext_spec (hg : g < 7) (hacc : p.acc < 8) :
    groupDone (myCore s) (productNext s p g) p g ∧ (me (productNext s p g)).mma = some p ∧
      (me (productNext s p g)).progress = 8 * (g + 1) ∧ (me (productNext s p g)).pc = (me s).pc ∧
      (myCore (productNext s p g)).accF.getLsbD p.acc = true ∧
      (myCore (productNext s p g)).tiles = (myCore s).tiles := by
  have h8 : g < 8 := by omega
  have hme := me_productNext (s := s) (p := p) h8
  refine ⟨groupDone_of_lanes (groupLanes_rowGroup (myCore s) p h8) ?_ ?_, by rw [hme], by rw [hme], by rw [hme]; rfl, ?_, ?_⟩
  · rw [mine_productNext fun k => k.acc]
    exact mine_groupState s p g fun k => k.acc
  · intro x hx
    rw [hme]
    exact or_and_absorb hx _
  · rw [mine_productNext fun k => k.accF]
    exact getLsbD_statusBit_same _ hacc _
  · rw [mine_productNext fun k => k.tiles]
    exact kept_groupState s p h8 fun k => k.tiles

theorem productLast_spec (hacc : p.acc < 8) :
    groupDone (myCore s) (finish (productLast s p) 8 none) p 7 ∧ (me (finish (productLast s p) 8 none)).mma = none ∧
      (me (finish (productLast s p) 8 none)).progress = 0 ∧
      (me (finish (productLast s p) 8 none)).pc = nextPc (me s).pc 8 ∧
      (myCore (finish (productLast s p) 8 none)).accF.getLsbD p.acc = false ∧
      (myCore (finish (productLast s p) 8 none)).accD.getLsbD p.acc = true ∧
      (myCore (finish (productLast s p) 8 none)).tiles = (myCore s).tiles := by
  have hme : me (productLast s p) = { me s with fflags := (me s).fflags ||| (rowGroup (myCore s) p 7).2 } := by
    have hcore : me (productLast s p) = me (groupState s p 7) := me_onCore_of_streams _ (fun _ => rfl) fun _ => rfl
    rw [hcore, me_groupState s p (by omega)]
  have hmine : ∀ {α : Type} (h : Core → α), (∀ k, h (unissued k) = h k) →
      h (myCore (finish (productLast s p) 8 none)) = h (endProduct (myCore (groupState s p 7)) p) := fun h hh => by
    rw [(IssueKept.finish _ 8 none).mine h hh, productLast, myCore_onCore]
  refine ⟨groupDone_of_lanes (groupLanes_rowGroup (myCore s) p (by omega)) ?_ ?_, ?_, ?_, ?_, ?_, ?_, ?_⟩
  · rw [hmine (fun k => k.acc) fun _ => rfl]
    exact mine_groupState s p 7 fun k => k.acc
  · intro x hx
    rw [me_finish, hme]
    exact or_and_absorb hx (me s).fflags
  · rw [me_finish]
    rfl
  · rw [me_finish]
    rfl
  · rw [me_finish, hme]
    rfl
  · rw [hmine (fun k => k.accF) fun _ => rfl]
    exact getLsbD_statusBit_same _ hacc _
  · rw [hmine (fun k => k.accD) fun _ => rfl]
    exact getLsbD_statusBit_same _ hacc _
  · rw [hmine (fun k => k.tiles) fun _ => rfl]
    exact kept_groupState s p (by omega) fun k => k.tiles

end

theorem exec_product {q : (EFields → Instr) × Bool} (hq : q ∈ [(Instr.mma, false), (Instr.mmaz, true)]) (f : EFields)
    (s : State) : exec (q.1 f) s = product f s q.2 := by
  simp only [List.mem_cons, List.not_mem_nil, or_false] at hq
  obtain rfl | rfl := hq <;> rfl

theorem product_continues {f : EFields} {s : State} {p : Product} (zero : Bool) (hg : guardHolds s = true)
    (hm : (me s).mma = some p) : product f s zero = .next (productStep s p) := by
  unfold product
  rw [hg, hm]
  rfl

end Sys2Proof.Slice0

namespace Sys2Proof.Slice0
open Sys2Proof.Machine

/-! ### The checks of a product (R146, R362, R363) -/

theorem openProduct_spec {s : State} {k : Core} {ty ta tb shapeA shapeB acc : Nat} {scale : Option Int} {zero : Bool}
    {p : Product} (h : openProduct s k ty ta tb shapeA shapeB acc scale zero = .ok p) :
    p.ty = ty ∧ p.ta = ta ∧ p.tb = tb ∧ p.shapeA = shapeA ∧ p.shapeB = shapeB ∧ p.acc = acc ∧
    p.zeroing = (zero || !k.accV.getLsbD acc) ∧
    (p.zeroing = false → k.accM.getLsbD acc = decide (ty ≠ 0)) ∧ (myCore s).accF.getLsbD acc = false ∧
    (∀ base, scale = some base →
      p.scales = some ((List.range (2 * shapeCols shapeB)).map fun i => scaleAt k (base.toNat + i))) := by
  unfold openProduct stopWith at h
  split at h
  · cases h
  · next hmode =>
    split at h
    · cases h
    · next hfree =>
      split at h
      · cases h
      · split at h
        · cases h
        · have hz : (zero || !k.accV.getLsbD acc) = false → k.accM.getLsbD acc = decide (ty ≠ 0) := by
            intro hz
            rw [Bool.or_eq_false_iff, Bool.not_eq_false'] at hz
            simp only [hz.1, hz.2, Bool.not_false, Bool.true_and, beq_iff_eq, typeInt] at hmode
            rw [Bool.eq_not.2 hmode]
            by_cases h0 : ty = 0 <;> simp [h0]
          have hF : (myCore s).accF.getLsbD acc = false := by simpa using hfree
          cases scale with
          | none =>
            obtain rfl := Except.ok.inj h
            exact ⟨rfl, rfl, rfl, rfl, rfl, rfl, rfl, hz, hF, fun _ h => absurd h (by simp)⟩
          | some base =>
            dsimp only [scaleSpan, stopWith] at h
            split at h
            · cases h
            · obtain rfl := Except.ok.inj h
              refine ⟨rfl, rfl, rfl, rfl, rfl, rfl, rfl, hz, hF, fun b hb => ?_⟩
              rw [← Option.some.inj hb]

/-! ### A product's start (R146, R363) -/

theorem issueCore_accM (s : State) : (issueCore s).accM = (myCore s).accM := by
  unfold issueCore
  split <;> rfl

theorem beginProduct_eq {f : EFields} {s s1 : State} {zero : Bool} {book : Word} {c : Option Nat} {p : Product}
    {table : List Byte} (hn : nestRunning s = false)
    (hbook : (if f.opt.toNat % 16 = 7 ∨ f.opt.toNat % 16 = 8 then readGQ s f.a else .ok 0) = .ok book)
    (hlt : book.toNat < 256)
    (hc : (if flag f.opt.toNat 4 then (readGQ s f.b).map fun v => some v.toNat else .ok none) = .ok c)
    (hp : openProduct s (issueCore s) (f.opt.toNat % 16) (field f.n12.toNat 3 4) (field f.n12.toNat 7 4)
      (tileShape (issueCore s) (field f.n12.toNat 3 4)) (tileShape (issueCore s) (field f.n12.toNat 7 4))
      (f.n12.toNat % 8) (c.map fun v => (((issueCore s).scbase.toNat + v : Nat) : Int)) zero = .ok p)
    (ht : readTable s (f.opt.toNat % 16) (issueCore s).cbook.toNat book.toNat = .ok (table, s1)) :
    beginProduct f s zero = .ok ({ p with table := table }, s1) := by
  have hbook' : (if f.opt.toNat % 16 == 7 || f.opt.toNat % 16 == 8 then readGQ s f.a else Except.ok 0 : Act Word) =
      .ok book := by
    simpa only [Bool.or_eq_true, beq_iff_eq] using hbook
  unfold beginProduct
  rw [waitNest_of_idle hn]
  simp only [bind, Except.bind, pure, Except.pure]
  by_cases h78 : (f.opt.toNat % 16 == 7 || f.opt.toNat % 16 == 8) = true
  · rw [if_pos h78] at hbook' ⊢
    rw [hbook']
    by_cases hflag : flag f.opt.toNat 4 = true
    · rw [if_pos hflag] at hc
      simp only [hflag, if_true, hc, hp, ht, Nat.not_le.2 hlt, if_false]
    · rw [if_neg hflag] at hc
      obtain rfl := Except.ok.inj hc
      simp only [hflag, Bool.false_eq_true, hp, ht, Nat.not_le.2 hlt, if_false]
  · rw [if_neg h78] at hbook' ⊢
    obtain rfl := Except.ok.inj hbook'
    by_cases hflag : flag f.opt.toNat 4 = true
    · rw [if_pos hflag] at hc
      simp only [hflag, if_true, hc, hp, ht, Nat.not_le.2 hlt, if_false]
    · rw [if_neg hflag] at hc
      obtain rfl := Except.ok.inj hc
      simp only [hflag, Bool.false_eq_true, hp, ht, Nat.not_le.2 hlt, if_false]

/-- The state in which a product that has passed its checks begins its row groups. -/
def productBegun (t : State) (p : Product) (zero : Bool) : State :=
  onCore (onMe (traceWait t (me t)) fun st => { st with waiting := none })
    (onMe (traceWait t (me t)) fun st => { st with waiting := none }).curCore fun k => startProduct k p zero

theorem product_starts {f : EFields} {s t : State} {p : Product} {zero : Bool} (hg : guardHolds s = true)
    (hr : roomForItems s) (hm : (me s).mma = none) (hb : beginProduct f s zero = .ok (p, t)) :
    product f s zero = .next (productStep (productBegun t p zero) p) := by
  unfold product
  rw [hg, hm, hb]
  simp only [Bool.not_true, Bool.false_eq_true, if_false, itemsOver_of_room hr]
  rfl

theorem me_productBegun (t : State) (p : Product) (zero : Bool) :
    me (productBegun t p zero) = { me t with waiting := none } := by
  have hcore : me (productBegun t p zero) = me (onMe (traceWait t (me t)) fun st => { st with waiting := none }) :=
    me_onCore_of_streams _ (fun _ => rfl) fun _ => rfl
  have hwait : me (traceWait t (me t)) = me t := (SameStreams.traceWaitOf t _ _ _).me_eq
  rw [hcore, me_onMe, hwait]

theorem mine_productBegun {α : Type} (t : State) (p : Product) (zero : Bool) (h : Core → α)
    (hh : ∀ k, h (startProduct (unissued k) p zero) = h (startProduct k p zero) := by intro; rfl) :
    h (myCore (productBegun t p zero)) = h (startProduct (myCore t) p zero) := by
  rw [productBegun, myCore_onCore]
  exact ((IssueKept.of_traceKept (.traceWaitOf t _ _ _)).trans (.onMe _ _)).mine (fun k => h (startProduct k p zero)) hh

/-- A status byte of a product that has begun and accumulated its first row group: the one its start sets. -/
theorem mine_firstGroup {α : Type} (t : State) (p : Product) (zero : Bool) (h : Core → α)
    (hh : ∀ k, h (unissued k) = h k := by intro; rfl) (ha : ∀ k : Core, h { k with acc := [] } = h k := by intro; rfl)
    (hf : ∀ (k : Core) v, h { k with accF := v } = h k := by intros; rfl)
    (hs : ∀ k, h (startProduct (unissued k) p zero) = h (startProduct k p zero) := by intro; rfl) :
    h (myCore (productNext (productBegun t p zero) p 0)) = h (startProduct (myCore t) p zero) := by
  rw [mine_productNext h hh, hf, kept_groupState _ p (by omega) h hh ha, mine_productBegun t p zero h hs]

theorem product_first {q : (EFields → Instr) × Bool} (hq : q ∈ [(Instr.mma, false), (Instr.mmaz, true)]) {f : EFields}
    {s s1 : State} {book : Word} {c : Option Nat} {p : Product} {table : List Byte} (hg : guardHolds s = true)
    (hr : roomForItems s) (hn : nestRunning s = false) (hm : (me s).mma = none) (hprog : (me s).progress = 0)
    (hbook : (if f.opt.toNat % 16 = 7 ∨ f.opt.toNat % 16 = 8 then readGQ s f.a else .ok 0) = .ok book)
    (hlt : book.toNat < 256)
    (hc : (if flag f.opt.toNat 4 then (readGQ s f.b).map fun v => some v.toNat else .ok none) = .ok c)
    (hp : openProduct s (issueCore s) (f.opt.toNat % 16) (field f.n12.toNat 3 4) (field f.n12.toNat 7 4)
      (tileShape (issueCore s) (field f.n12.toNat 3 4)) (tileShape (issueCore s) (field f.n12.toNat 7 4))
      (f.n12.toNat % 8) (c.map fun v => (((issueCore s).scbase.toNat + v : Nat) : Int)) q.2 = .ok p)
    (ht : readTable s (f.opt.toNat % 16) (issueCore s).cbook.toNat book.toNat = .ok (table, s1)) :
    ∃ t, exec (q.1 f) s = .next t ∧ groupDone (myCore s1) t { p with table := table } 0 ∧
      (me t).mma = some { p with table := table } ∧ (me t).progress = 8 ∧ (me t).pc = (me s).pc ∧
      (myCore t).accV.getLsbD p.acc = true ∧ (myCore t).accF.getLsbD p.acc = true ∧
      (myCore t).accM.getLsbD p.acc = decide (p.ty ≠ 0) ∧ (q.2 = true → (myCore t).accD.getLsbD p.acc = false) ∧
      (myCore t).tiles = (myCore s1).tiles := by
  obtain ⟨hty, -, -, -, -, hacc, -, hmode, -, -⟩ := openProduct_spec hp
  have hlt8 : p.acc < 8 := hacc ▸ Nat.mod_lt _ (by omega)
  obtain ⟨hstreams, hmodes⟩ := readTable_kept ht
  obtain ⟨p', hp'⟩ : ∃ p', p' = { p with table := table } := ⟨_, rfl⟩
  have hacc' : p'.acc = p.acc := by rw [hp']
  have hty' : p'.ty = p.ty := by rw [hp']
  have hmode' : p'.zeroing = false → (myCore s1).accM.getLsbD p.acc = decide (p.ty ≠ 0) := by
    rw [hp', hacc, hty, myCore, hstreams.curCore, hmodes, ← myCore, ← issueCore_accM]
    exact hmode
  rw [exec_product hq, product_starts hg hr hm (beginProduct_eq hn hbook hlt hc hp ht), ← hp']
  have hme := me_productBegun s1 p' q.2
  have hstep : productStep (productBegun s1 p' q.2) p' = productNext (productBegun s1 p' q.2) p' 0 :=
    productStep_next (by rw [hme, hstreams.me_eq, hprog]) (by omega)
  obtain ⟨hdone, hmma, hprogress, hpc, hF, htiles⟩ :=
    productNext_spec (s := productBegun s1 p' q.2) (g := 0) (by omega) (hacc'.trans_lt hlt8)
  rw [hme, hstreams.me_eq] at hpc
  refine ⟨_, rfl, ?_, ?_⟩
  · rw [hstep]
    exact groupDone_congr (mine_productBegun s1 p' q.2 fun k => k.acc).symm
      (mine_productBegun s1 p' q.2 fun k => k.tiles).symm hdone
  · rw [hstep, ← hacc', ← hty']
    refine ⟨hmma, hprogress, hpc, ?_, hF, ?_, fun hz => ?_, ?_⟩
    · rw [mine_firstGroup s1 p' q.2 fun k => k.accV]
      exact getLsbD_statusBit_same _ (hacc'.trans_lt hlt8) _
    · rw [mine_firstGroup s1 p' q.2 fun k => k.accM, hty', hacc']
      cases hz : p'.zeroing with
      | false =>
        simp only [startProduct, hz, Bool.false_eq_true, if_false]
        exact hmode' hz
      | true =>
        simp only [startProduct, hz, if_true]
        rw [hacc', hty', getLsbD_statusBit_same _ hlt8, typeInt]
        by_cases h0 : p.ty = 0 <;> simp [h0]
    · rw [mine_firstGroup s1 p' q.2 fun k => k.accD, hz]
      exact getLsbD_statusBit_same _ (hacc'.trans_lt hlt8) _
    · rw [htiles]
      exact mine_productBegun s1 p' q.2 fun k => k.tiles

end Sys2Proof.Slice0

namespace Sys2Proof.Slice0
open Sys2Proof.Machine

/-! ### Starting a nest (R370) -/

theorem issueCore_engines (s : State) : (issueCore s).engines = (myCore s).engines ∧ (issueCore s).cycle = (myCore s).cycle := by
  unfold issueCore
  split <;> exact ⟨rfl, rfl⟩

theorem exec_nestgo_done {f : EFields} {s t1 t2 t3 : State} {tid : List Byte} {n head : Nat} (hg : guardHolds s = true)
    (hr : roomForItems s) (hn : nestRunning s = false)
    (hc : checkNest { s with guard := { s.guard with pulse := false } } f.opt.toNat
      (look {} (myCore s).engines (s.curStream - 2)).regs = .ok (tid, head, t1))
    (ht : tlTake t1 (myCtx s) (tlKey (s.curStream + 1) s.curCore) = (n, t2))
    (hd : f.dst ≠ 0 → settled (me t2) f.dst = .ok ()) (ht3 : t3 = if f.dst = 0 then t2 else written t2 f.dst (word n)) :
    exec (.nestgo f) s = .next (finish (onCore t3 t3.curCore fun k => { k with
      engines := put k.engines (s.curStream - 2) { look {} (myCore s).engines (s.curStream - 2) with
        nest := some {
          regs := (look {} (myCore s).engines (s.curStream - 2)).regs
          shapeA := BitVec.ofNat 32 (tileShape (issueCore s)
            (field (nestReg (look {} (myCore s).engines (s.curStream - 2)).regs 0x100) 12 4))
          shapeB := BitVec.ofNat 32 (tileShape (issueCore s)
            (field (nestReg (look {} (myCore s).engines (s.curStream - 2)).regs 0x100) 8 4))
          tid := tid, type := f.opt.toNat, modes := f.n12.toNat, number := n, pulse := s.guard.pulse
          pc := (me s).pc, began := (myCore s).cycle, head := head
          scbase := (issueCore s).scbase.toNat, cbook := (issueCore s).cbook.toNat } } }) 8 none) := by
  obtain ⟨heng, hcycle⟩ := issueCore_engines s
  have hroom : roomForItems { s with guard := { s.guard with pulse := false } } := hr
  rw [show exec (.nestgo f) s = execNestgo f s from rfl, execNestgo]
  simp only [hg, Bool.not_true, Bool.false_eq_true, if_false, waitNest_of_idle hn, bind, Except.bind, pure, Except.pure,
    heng, hcycle, hc, ht, beq_iff_eq]
  by_cases h0 : f.dst = 0
  · rw [if_pos h0] at ht3
    subst ht3
    simp only [h0, if_true]
    exact concludeNext_of_room hroom _ 8
  · rw [if_neg h0] at ht3
    subst ht3
    simp only [h0, if_false, writeReg_of_settled (hd h0)]
    exact concludeNext_of_room hroom _ 8

/-! ### Iterations (R150) -/

/-- The level indices of a flattened iteration with `n` levels. -/
def indexUpTo (r : NestRegs) (n p : Nat) : List Nat × Nat :=
  (List.range n).foldl (fun (q : List Nat × Nat) l => (q.1 ++ [q.2 % nestTrip r l], q.2 / nestTrip r l)) ([], p)

theorem nestTrip_pos (r : NestRegs) (l : Nat) : 0 < nestTrip r l := Nat.lt_of_lt_of_le Nat.one_pos (Nat.le_max_left 1 _)

theorem indexUpTo_spec (r : NestRegs) (n p : Nat) :
    (indexUpTo r n p).1.length = n ∧ ∀ l, l < n → (indexUpTo r n p).1.getD l 0 < nestTrip r l := by
  induction n with
  | zero => exact ⟨rfl, fun _ h => absurd h (Nat.not_lt_zero _)⟩
  | succ n ih =>
    obtain ⟨hlen, hlt⟩ := ih
    have hstep : (indexUpTo r (n + 1) p).1 = (indexUpTo r n p).1 ++ [(indexUpTo r n p).2 % nestTrip r n] := by
      rw [indexUpTo, List.range_succ, List.foldl_append]
      rfl
    refine ⟨by rw [hstep, List.length_append, hlen]; rfl, fun l hl => ?_⟩
    rw [hstep]
    by_cases h : l = n
    · subst h
      rw [List.getD_append_right _ _ _ _ hlen.le, hlen, Nat.sub_self]
      exact Nat.mod_lt _ (nestTrip_pos r l)
    · rw [List.getD_append _ _ _ _ (by omega)]
      exact hlt l (by omega)

/-- What a drain changes of a nest beside its counters: its heaps, triples, excluded rows and owed replies. -/
structure SameNest (n m : Nest) : Prop where
  iteration : m.iteration = n.iteration
  drains : m.drains = n.drains
  regs : m.regs = n.regs
  stall : m.stall = n.stall

theorem SameNest.trans {n m o : Nest} (h : SameNest n m) (h' : SameNest m o) : SameNest n o :=
  ⟨h'.iteration.trans h.iteration, h'.drains.trans h.drains, h'.regs.trans h.regs, h'.stall.trans h.stall⟩

theorem bind_ok {α β : Type} {x : Act α} {f : α → Act β} {b : β} (h : (x >>= f) = .ok b) : ∃ a, x = .ok a ∧ f a = .ok b := by
  cases x with
  | error e => cases h
  | ok a => exact ⟨a, rfl, h⟩

theorem map_ok {α β : Type} {x : Act α} {f : α → β} {b : β} (h : x.map f = .ok b) : ∃ a, x = .ok a ∧ f a = b := by
  cases x with
  | error e => cases h
  | ok a => exact ⟨a, rfl, Except.ok.inj h⟩

theorem deliverTop_sameNest {s t : State} {n m : Nest} {rg ct : Nat} {vs : List Lane}
    (h : deliverTop s n rg ct vs = .ok (t, m)) : SameNest n m := by
  unfold deliverTop at h
  dsimp only at h
  split at h
  · obtain ⟨-, rfl⟩ := Prod.mk.inj (Except.ok.inj h)
    exact ⟨rfl, rfl, rfl, rfl⟩
  · obtain ⟨u, -, hu⟩ := bind_ok h
    obtain ⟨-, rfl⟩ := Prod.mk.inj (Except.ok.inj hu)
    exact ⟨rfl, rfl, rfl, rfl⟩

theorem deliverRow_sameNest {s t : State} {n m : Nest} {rg : Nat} {x : Triple} {status : Nat}
    (h : deliverRow s n rg x status = .ok (t, m)) : SameNest n m := by
  unfold deliverRow at h
  dsimp only at h
  split at h
  · obtain ⟨u, -, hu⟩ := bind_ok h
    obtain ⟨-, rfl⟩ := Prod.mk.inj (Except.ok.inj hu)
    exact ⟨rfl, rfl, rfl, rfl⟩
  · obtain ⟨-, rfl⟩ := Prod.mk.inj (Except.ok.inj h)
    exact ⟨rfl, rfl, rfl, rfl⟩

theorem deliverDraw_sameNest {s t : State} {n m : Nest} {rg ct : Nat} {vs : List Lane}
    (h : deliverDraw s n rg ct vs = .ok (t, m)) : SameNest n m := by
  unfold deliverDraw at h
  obtain ⟨⟨w, u⟩, -, h⟩ := bind_ok h
  dsimp only at h
  generalize (if (w != 0) = true then w else if (ct == 0) = true then 0 else look 0 n.excluded rg) = status at h
  split at h
  all_goals
    obtain ⟨⟨x, v⟩, -, h⟩ := bind_ok h
    dsimp only at h
    split at h
    · obtain ⟨-, rfl⟩ := Prod.mk.inj (Except.ok.inj h)
      exact ⟨rfl, rfl, rfl, rfl⟩
    · obtain ⟨⟨y, o⟩, hrow, h⟩ := bind_ok h
      obtain ⟨-, rfl⟩ := Prod.mk.inj (Except.ok.inj h)
      have hkept := deliverRow_sameNest hrow
      exact ⟨hkept.iteration, hkept.drains, hkept.regs, hkept.stall⟩

theorem drainRows_sameNest {s t : State} {n m : Nest} {acc d fuel row : Nat}
    (h : drainRows s n acc d fuel row = .ok (t, m)) : SameNest n m := by
  induction fuel generalizing s n row with
  | zero =>
    obtain ⟨-, rfl⟩ := Prod.mk.inj (Except.ok.inj h)
    exact ⟨rfl, rfl, rfl, rfl⟩
  | succ fuel ih =>
    unfold drainRows at h
    obtain ⟨⟨vs, u⟩, -, h⟩ := bind_ok h
    dsimp only at h
    split at h
    · obtain ⟨⟨v, o⟩, ho, h⟩ := bind_ok h
      obtain ⟨w, -, hw⟩ := map_ok ho
      obtain ⟨-, rfl⟩ := Prod.mk.inj hw
      exact ih h
    · obtain ⟨⟨v, o⟩, ho, h⟩ := bind_ok h
      exact (deliverTop_sameNest ho).trans (ih h)
    · obtain ⟨⟨v, o⟩, ho, h⟩ := bind_ok h
      exact (deliverDraw_sameNest ho).trans (ih h)

theorem iterate_spec {s t : State} {n m : Nest} (h : iterate s n = .ok (t, m)) : m.iteration = n.iteration + 1 ∧
    m.drains = n.drains + (if (n.iteration + 1) % nestTrip n.regs 0 = 0 then 1 else 0) ∧ m.regs = n.regs := by
  unfold iterate at h
  obtain ⟨u, -, h⟩ := bind_ok h
  dsimp only at h
  split at h
  · next hlast =>
    obtain ⟨⟨v, o⟩, ho, h⟩ := bind_ok h
    obtain ⟨-, rfl⟩ := Prod.mk.inj (Except.ok.inj h)
    obtain ⟨hi, hd, hr, -⟩ := drainRows_sameNest ho
    rw [if_pos (by simpa using hlast)]
    exact ⟨hi, congrArg (· + 1) hd, hr⟩
  · next hlast =>
    obtain ⟨-, rfl⟩ := Prod.mk.inj (Except.ok.inj h)
    rw [if_neg (by simpa using hlast)]
    exact ⟨rfl, rfl, rfl⟩

/-! ### The end of a nest (R370) -/

theorem nest_setNest (s : State) (core engine : Nat) (n : Option Nest) :
    (look {} (coreOf (setNest s core engine n) core).engines engine).nest = n := by
  rw [setNest, coreOf_onCore_self]
  simp only [adjust, look_put_self]

theorem coreCtx_setNest (s : State) (core engine : Nat) (n : Option Nest) :
    coreCtx (setNest s core engine n) core = coreCtx s core := by
  rw [coreCtx, setNest, coreOf_onCore_self, coreCtx]

theorem nestCompleteStep_done {s : State} {core engine : Nat} {n : Nest}
    (hn : (look {} (coreOf s core).engines engine).nest = some n) (hi : nestTotal n.regs ≤ n.iteration)
    (ho : n.owed = []) (hh : (coreOf s core).halted = false) : nestCompleteStep s core engine =
      if n.pulse then pulse (tlDone (setNest s core engine none) (coreCtx s core) (tlKey (engine + 3) core) n.number) core
        (engine + 2) else tlDone (setNest s core engine none) (coreCtx s core) (tlKey (engine + 3) core) n.number := by
  unfold nestCompleteStep
  simp only [hn, ho, hh, Nat.not_lt.2 hi, decide_false, List.isEmpty_nil, Bool.not_true, Bool.or_self, Bool.false_eq_true,
    if_false, coreCtx_setNest]

theorem exec_nestComplete_done {s : State} {core engine : Nat} {n : Nest}
    (hn : (look {} (coreOf s core).engines engine).nest = some n) (hi : nestTotal n.regs ≤ n.iteration)
    (ho : n.owed = []) (hh : (coreOf s core).halted = false) :
    ∃ t, exec (.nestComplete core engine) s = .next t ∧ (look {} (coreOf t core).engines engine).nest = none ∧
      tlOf t (coreCtx s core) (tlKey (engine + 3) core) =
        tlComplete (tlOf s (coreCtx s core) (tlKey (engine + 3) core)) n.number := by
  have hnest := nest_setNest s core engine none
  have htl := tlOf_tlDone_self (setNest s core engine none) (coreCtx s core) (tlKey (engine + 3) core) n.number
  refine ⟨_, rfl, ?_⟩
  rw [nestCompleteStep_done hn hi ho hh]
  split
  · refine ⟨?_, htl⟩
    rw [pulse, coreOf_onCore_self]
    exact hnest
  · exact ⟨hnest, htl⟩

/-- Settles O47: a product is its row groups (`groupLanes_rowGroup`), one at each issue. -/
theorem productsAndNestsStart : Obligations.ProductsAndNestsStart := by
  unfold Obligations.ProductsAndNestsStart
  refine ⟨?_, ?_, ?_, ?_, ?_, ?_, ?_⟩
  · intro q hq f s s1 book c p table hg hr hn hm hprog hbook hlt hc hp ht
    exact product_first hq hg hr hn hm hprog hbook hlt hc hp ht
  · intro q hq f s p g hg hm hacc hprog
    rw [exec_product hq, product_continues q.2 hg hm]
    refine ⟨fun hlt => ⟨_, rfl, ?_⟩, fun h7 => ⟨_, rfl, ?_⟩⟩
    · rw [productStep_next hprog hlt]
      exact productNext_spec hlt hacc
    · subst h7
      rw [productStep_last hprog]
      exact productLast_spec hacc
  · exact fun _ _ _ _ _ _ _ _ _ _ _ h => openProduct_spec h
  · exact fun _ _ _ _ _ _ _ _ hg hr hn hc ht hd ht3 => exec_nestgo_done hg hr hn hc ht hd ht3
  · exact fun r p _ => indexUpTo_spec r 6 p
  · exact fun _ _ _ _ h => iterate_spec h
  · exact fun _ _ _ _ hn hi ho hh => exec_nestComplete_done hn hi ho hh

end Sys2Proof.Slice0

/-! PROOFS. The GEY members (16 R378-R382). -/

namespace Sys2Proof.Slice0
open Sys2Proof.Machine

/-- A member whose stream waits for nothing sends its command. -/
theorem geyserForm_of_sent {s t : State} {send : Act State} (hg : guardHolds s = true) (hw : (me s).waiting = none)
    (hsend : send = .ok t) : geyserForm s send = .next t := by
  simp only [geyserForm, hw, hg, hsend, Bool.not_true, Bool.false_eq_true, if_false]

theorem sendGeyser_of_room {s t : State} {target n : Nat} {c : GeyCmd} (h : queueGeyser s target c = some (n, t)) :
    sendGeyser s target c = .ok (hold t (.geyser (towerOfCore target) n)) := by
  simp only [sendGeyser, h]

theorem exec_eqpush {f : EFields} {s t : State} {c n : Nat} {im : List Byte} (hg : guardHolds s = true)
    (hw : (me s).waiting = none) (hc : placeReg s f.b = .ok c) (him : readImage s f.a.toNat 4 = .ok im)
    (hres : entryReserved im = false)
    (hq : queueGeyser s c (myCommand s 1 f.n12.toNat 0 im f.dst (flag f.opt.toNat 0)) = some (n, t)) :
    exec (.eqpush f) s = .next (hold t (.geyser (towerOfCore c) n)) := by
  rw [show exec (.eqpush f) s = execEqpush f s from rfl, execEqpush]
  refine geyserForm_of_sent hg hw ?_
  simp only [hc, him, hres, bind, Except.bind, Bool.false_eq_true, if_false]
  exact sendGeyser_of_room hq

theorem addressForm_of_room {f : EFields} {s t : State} {op c n : Nat} {a : Word} (hg : guardHolds s = true)
    (hw : (me s).waiting = none) (ha : readGQ s f.a = .ok a) (hal : a.toNat % 64 = 0) (hc : placeReg s f.b = .ok c)
    (hd : settled (me s) f.dst = .ok ())
    (hq : queueGeyser s c (myCommand s op f.n12.toNat a.toNat [] f.dst true) = some (n, t)) :
    addressForm f s op = .next (hold t (.geyser (towerOfCore c) n)) := by
  refine geyserForm_of_sent hg hw ?_
  simp only [ha, hc, hal, hd, bind, Except.bind, bne_self_eq_false, Bool.false_eq_true, if_false]
  exact sendGeyser_of_room hq

theorem exec_eqfire {f : EFields} {s t : State} {c n : Nat} (hg : guardHolds s = true) (hw : (me s).waiting = none)
    (hc : placeReg s f.b = .ok c) (hd : settled (me s) f.dst = .ok ())
    (hq : queueGeyser s c (myCommand s 3 f.n12.toNat 0 [] f.dst true) = some (n, t)) :
    exec (.eqfire f) s = .next (hold t (.geyser (towerOfCore c) n)) := by
  rw [show exec (.eqfire f) s = execEqfire f s from rfl, execEqfire]
  refine geyserForm_of_sent hg hw ?_
  simp only [hc, hd, bind, Except.bind]
  exact sendGeyser_of_room hq

theorem exec_eqstat {f : EFields} {s : State} {c : Nat} (hg : guardHolds s = true) (hw : (me s).waiting = none)
    (hc : placeReg s f.b = .ok c) (hd : settled (me s) f.dst = .ok ()) :
    exec (.eqstat f) s = .next (hold s (.eqstat (towerOfCore c) f.n12.toNat f.dst)) := by
  rw [show exec (.eqstat f) s = execEqstat f s from rfl, execEqstat]
  refine geyserForm_of_sent hg hw ?_
  simp only [hc, hd, bind, Except.bind, pure, Except.pure]

/-- A decision reaches the stream that waits for it. -/
theorem reply_of_waiting {s : State} {tower core stream : Nat} {c : GeyCmd} (hc : c.waiter = some (core, stream))
    (hx : coreCtx s core = c.ctx) (hw : (streamFile s core stream).waiting = some (.geyser tower c.number))
    (code count : Nat) :
    reply s tower c code count =
      if c.op != 1 then retire s core stream c.dst (statusWord code count)
      else if code == 0x80 then retire s core stream (if c.nf then c.dst else 0) 0
      else if c.nf then retire s core stream c.dst 1
      else asStream s core stream fun s =>
        trapState (onMe s fun st => { st with waiting := none }) (.event code none) := by
  have haw : awaits s tower c core stream = true := by
    simp only [awaits, hx, beq_self_eq_true, Bool.true_and]
    rw [hw]
    exact beq_self_eq_true _
  simp only [reply, hc, haw, Bool.not_true, Bool.false_eq_true, if_false]

theorem finish_curStream (s : State) (len : Nat) (target : Option Word) : (finish s len target).curStream = s.curStream := by
  have hwait : (traceWait s (me s)).curStream = s.curStream := (TraceKept.traceWaitOf s _ _ _).curStream
  have hpulse : ∀ (t : State) (core stream : Nat), (streamPulse t core stream).curStream = t.curStream := by
    intro t core stream
    rfl
  simp only [finish]
  split_ifs
  · exact (hpulse _ _ _).trans hwait
  · exact hwait

/-- The stream after its member is retired: its register written, its instruction issued. -/
theorem streamFile_retire (s : State) (core stream : Nat) (dst : BitVec 8) (v : Word) :
    streamFile (retire s core stream dst v) core stream =
      issued (putReg (streamFile s core stream) dst v) 8 none := by
  let u : State := { s with
    guard := { s.guard with pulse := (streamFile s core stream).pulse }, curCore := core, curStream := stream }
  let t := finish (onMe u fun st => putReg st dst v) 8 none
  have hissued : me t = issued (putReg (me u) dst v) 8 none := by
    rw [me_finish, me_onMe]
  have hcore : t.curCore = core := (IssueKept.finish _ 8 none).curCore
  have hstream : t.curStream = stream := finish_curStream _ 8 none
  rw [← show me t = issued (putReg (streamFile s core stream) dst v) 8 none from hissued]
  simp only [me, hcore, hstream]
  rfl

/-- Settles O48, by what each member sends and by the stream file that a decision leaves. -/
theorem geyserInstructionsComplete : Obligations.GeyserInstructionsComplete := by
  unfold Obligations.GeyserInstructionsComplete
  refine ⟨fun f s t c n im => exec_eqpush, ?address, fun f s t c n => exec_eqfire, fun f s c => exec_eqstat, ?reply,
    ?retire⟩
  case address =>
    simp only [List.forall_mem_cons]
    exact ⟨fun f s t a c n => addressForm_of_room, fun f s t a c n => addressForm_of_room, by simp⟩
  case reply =>
    intro s tower c code count core stream hc hx hw
    rw [reply_of_waiting hc hx hw]
    refine ⟨fun hop => ?_, fun hop hcode => ?_, fun hop hcode hnf => ?_⟩
    · simp [hop]
    · simp [hop, hcode]
    · simp [hop, hcode, hnf]
  case retire =>
    intro s core stream dst v h0 h128
    rw [streamFile_retire]
    refine ⟨?_, rfl, ?_⟩
    · have := gValue_putReg_same (streamFile s core stream) h0 h128 v
      rw [BitVec.ofNat_toNat, BitVec.setWidth_eq] at this
      exact this
    · show nextPc (putReg (streamFile s core stream) dst v).pc 8 = _
      rw [show (putReg (streamFile s core stream) dst v).pc = (streamFile s core stream).pc from by
        simp only [putReg]; split_ifs <;> rfl]

end Sys2Proof.Slice0

/-! PROOFS. Grammar commands, replies, embeddings and the uniform key (16 R372-R377). -/

namespace Sys2Proof.Slice0
open Sys2Proof.Machine

/-! ### Grammar commands (R374) -/

theorem grammarForm_of_room {f : EFields} {s t : State} {op : Nat} {slot arg : Word} (hg : guardHolds s = true)
    (ha : readGQ s f.a = .ok slot) (hb : readGQ s f.b = .ok arg) (hslot : slot.toNat ≤ 65535)
    (hon : grammarOn (ctxOf s (myCtx s)) = true)
    (hmask : op = 2 → arg.toNat % 8 = 0 ∧ arg.toNat + 8 * maskWords (vocabOf (ctxOf s (myCtx s))) ≤ Config.csTop)
    (hq : queueGrammar s s.curCore { ctx := myCtx s, core := s.curCore, record := submitOn s s.curCore, op := op
                                     notify := flag f.opt.toNat 0, slot := slot.toNat, arg := arg
                                     vocab := some (vocabOf (ctxOf s (myCtx s))), bad := false } = some t) :
    grammarForm f s op = .next (finish t 8 none) := by
  have hctxs : t.ctxs = s.ctxs := by
    simp only [queueGrammar] at hq
    split at hq
    · exact absurd hq (by simp)
    · rw [← Option.some.inj hq]
      rfl
  have hargs : (decide (65535 < slot.toNat) || !grammarOn (ctxOf s (myCtx s)) || ((op == 2) && arg.toNat % 8 != 0)) = false := by
    simp only [hon, Bool.not_true, Bool.or_false, Bool.or_eq_false_iff, decide_eq_false_iff_not, Bool.and_eq_false_iff]
    refine ⟨by omega, ?_⟩
    by_cases h2 : op = 2
    · exact .inr (by simp [(hmask h2).1])
    · exact .inl (by simpa using h2)
  have hspan : ((op == 2) && decide (Config.csTop < arg.toNat + 8 * maskWords (vocabOf (ctxOf s (myCtx s))))) = false := by
    by_cases h2 : op = 2
    · have := (hmask h2).2
      simp only [Bool.and_eq_false_iff, decide_eq_false_iff_not]
      exact .inr (by omega)
    · simp [h2]
  have hsend : sendGrammar s op (flag f.opt.toNat 0) slot arg = .ok t := by
    simp only [sendGrammar, hargs, hspan, Bool.false_eq_true, if_false, hq]
  rw [grammarForm, guarded_of_holds hg]
  simp only [ha, hb, bind, Except.bind, hsend]
  exact concludeNext_of_ctxs hctxs 8

/-! ### Token rings (R66, R67) -/

theorem traceKept_raiseIrq (s : State) (fn vec : Nat) : TraceKept s (raiseIrq s fn vec) := by
  obtain ⟨i, p, h⟩ := raiseIrq_eq s fn vec
  rw [h]
  exact ⟨rfl, rfl, rfl, rfl, rfl, ⟨rfl, rfl⟩, fun _ => rfl, fun _ => rfl, rfl, ⟨rfl, rfl, rfl⟩⟩

theorem tail_countToken (s : State) (ctx m : Nat) :
    (ctxOf (countToken s ctx m) ctx).trtail = (ctxOf s ctx).trtail := by
  simp only [countToken]
  split
  · rw [(traceKept_raiseIrq _ _ _).ctxField (fun x => x.trtail), ctxOf_onCtx_self]
  · rw [ctxOf_onCtx_self]

theorem sameItems_countToken (s : State) (ctx m : Nat) : SameItems s (countToken s ctx m) := by
  simp only [countToken]
  split
  · exact (SameItems.onCtx s ctx).trans (traceKept_raiseIrq _ _ _).sameItems
  · exact .onCtx s ctx

/-- A post moves the tail of its ring on, and posts no item record. -/
theorem postToken_spec {s t : State} {ctx m : Nat} {e : List Byte} (h : postToken s ctx m e = some t) :
    SameItems s t ∧ look 0 (ctxOf t ctx).trtail m = (look 0 (ctxOf s ctx).trtail m + 1) % 2 ^ 32 := by
  simp only [postToken, Option.map_eq_some_iff] at h
  obtain ⟨w, hw, rfl⟩ := h
  refine ⟨(TraceKept.of_writeSpace hw).sameItems.trans ((SameItems.onCtx w ctx).trans (sameItems_countToken _ ctx m)), ?_⟩
  rw [tail_countToken, ctxOf_onCtx_self]
  exact look_put_self _ _ _ _

theorem tokenArgs_of_enabled {f : EFields} {s : State} {a b : Word} (ha : readGQ s f.a = .ok a)
    (hb : readGQ s f.b = .ok b) (h50 : b.toNat < 2 ^ 50)
    (hon : flag (reg (ctxOf s (myCtx s)) (ringAt (f.n12.toNat % 16) + 8)) 63 = true) :
    tokenArgs f s = .ok (a, b) := by
  have hargs : (decide (2 ^ 50 ≤ b.toNat) ||
      !flag (reg (ctxOf s (myCtx s)) (ringAt (f.n12.toNat % 16) + 8)) 63) = false := by
    rw [hon, decide_eq_false (by omega)]
    rfl
  simp only [tokenArgs, ha, hb, bind, Except.bind, hargs]
  rfl

theorem exec_rply_of_room {f : EFields} {s t : State} {a b : Word} (hg : guardHolds s = true)
    (hargs : tokenArgs f s = .ok (a, b)) (hfull : tokenFull (ctxOf s (myCtx s)) (f.n12.toNat % 16) = false)
    (hp : postToken s (myCtx s) (f.n12.toNat % 16) (tokenEntry a b) = some t) :
    exec (.rply f) s = .next (finish t 8 none) := by
  rw [show exec (.rply f) s = execRply f s from rfl, execRply]
  simp only [hfull, Bool.and_false, Bool.false_eq_true, if_false]
  rw [guarded_of_holds hg]
  simp only [hargs, bind, Except.bind, hp, pure, Except.pure]
  exact (postToken_spec hp).1.concludeNext 8

theorem exec_rply_of_full {f : EFields} {s : State} {a b : Word} (hg : guardHolds s = true)
    (hargs : tokenArgs f s = .ok (a, b)) (hfull : tokenFull (ctxOf s (myCtx s)) (f.n12.toNat % 16) = true) :
    exec (.rply f) s = .next (hold (onCtx s (myCtx s) fun c => { c with trfull := true }) (.cause 4)) := by
  rw [show exec (.rply f) s = execRply f s from rfl, execRply]
  simp only [hfull, hg, hargs, Except.toBool, Bool.and_self, if_true]
  rfl

/-! ### The reply queue (R372, R375, R376) -/

/-- A core's reply leaves its queue and a register takes what it says. -/
theorem writeReg_dropReply {s : State} (i : Nat) {d : BitVec 8} (hd : settled (me s) d = .ok ()) (v : Word) :
    writeReg (onCore s s.curCore fun k => dropReply k i) d v =
      .ok (written (onCore s s.curCore fun k => dropReply k i) d v) := by
  refine writeReg_of_settled ?_ v
  have hme : me (onCore s s.curCore fun k => dropReply k i) = me s := me_onCore_of_streams s (fun _ => rfl) fun _ => rfl
  rw [hme]
  exact hd

theorem exec_rplyTake_of_none {f : EFields} {s : State} (hg : guardHolds s = true)
    (hnone : ∀ e ∈ (myCore s).replies, e.grammar = false) (hd : settled (me s) f.dst = .ok ()) :
    exec (.rplyTake f) s = .next (finish (written s f.dst (BitVec.allOnes 64)) 8 none) := by
  rw [show exec (.rplyTake f) s = execRplyTake f s from rfl, execRplyTake,
    List.findIdx?_eq_none_iff.2 hnone]
  exact guarded_writeReg hg hd _ 8

theorem exec_rplyTake_of_some {f : EFields} {s : State} {i : Nat} {e : Reply} (hg : guardHolds s = true)
    (hi : (myCore s).replies.findIdx? (·.grammar) = some i) (he : (myCore s).replies[i]? = some e)
    (hd : settled (me s) f.dst = .ok ()) :
    exec (.rplyTake f) s = .next (finish (written (onCore s s.curCore fun k => dropReply k i) f.dst
      (word (e.token.toNat + e.seq.toNat % 2 ^ 16 * 2 ^ 32 + bit01 e.fail * 2 ^ 48 + e.step.toNat % 4 * 2 ^ 49)))
      8 none) := by
  rw [show exec (.rplyTake f) s = execRplyTake f s from rfl, execRplyTake, hi]
  simp only [he]
  rw [guarded_of_holds hg, writeReg_dropReply i hd]
  exact concludeNext_of_ctxs (by rfl) 8

/-! ### Embeddings (R376) -/

section
variable {f : EFields} {s : State} {a : Word} {i : Nat} {r : Reply}

/-- A token outside its tensor is the one case in which EMBLD faults with the entry gone. -/
theorem badToken_of_reply (ha : readGQ s f.a = .ok a) (hi : drawReply (myCore s) (a.toNat % 2 ^ 32) = some i)
    (hr : (myCore s).replies[i]? = some r) {e : List Byte} {t : State} (he : tidEntry s f.n12.toNat = .ok (e, t)) :
    badToken f s = if r.token != BitVec.allOnes 32 && tidDim e 1 ≤ r.token.toNat then some (i, word r.token.toNat)
      else none := by
  simp only [badToken, ha, hi, he, hr]

theorem badToken_of_allOnes (ha : readGQ s f.a = .ok a) (hi : drawReply (myCore s) (a.toNat % 2 ^ 32) = some i)
    (hr : (myCore s).replies[i]? = some r) (hones : r.token = BitVec.allOnes 32) : badToken f s = none := by
  cases he : tidEntry s f.n12.toNat with
  | ok x => rw [badToken_of_reply ha hi hr (e := x.1) (t := x.2) he]; simp [hones]
  | error x => simp only [badToken, ha, hi, he]

variable {o : Word} {u : State}

/-- EMBLD with its row fetched, or nothing to fetch, completes with the entry gone. -/
theorem exec_embld_of_fetched (hg : guardHolds s = true) (hroom : roomForItems s) (ha : readGQ s f.a = .ok a)
    (ho : readGQ s f.b = .ok o) (hi : drawReply (myCore s) (a.toNat % 2 ^ 32) = some i)
    (hr : (myCore s).replies[i]? = some r) (hgood : badToken f s = none)
    (hrow : (if r.token == BitVec.allOnes 32 then pure s else fetchRow s f.n12.toNat r.token.toNat o.toNat) = .ok u)
    (hd : settled (me u) f.dst = .ok ()) :
    exec (.embld f) s = .next (finish (written (onCore u u.curCore fun k => dropReply k i) f.dst
      (word (r.token.toNat + r.reason.toNat * 2 ^ 32 + bit01 r.fail * 2 ^ 48))) 8 none) := by
  rw [show exec (.embld f) s = execEmbld f s from rfl, execEmbld]
  simp only [hg, if_true, hgood]
  rw [guarded_of_holds hg]
  simp only [ha, ho, bind, Except.bind, hi, hr]
  split_ifs at hrow ⊢ <;> simp only [hrow]
  all_goals
    rw [writeReg_dropReply i hd]
    exact concludeNext_of_room hroom _ 8

theorem exec_embld_bad (hg : guardHolds s = true) {v : Word} (hbad : badToken f s = some (i, v)) :
    exec (.embld f) s = .next (trapState (onCore s s.curCore fun k => dropReply k i) (.event 0x09 (some v))) := by
  rw [show exec (.embld f) s = execEmbld f s from rfl, execEmbld]
  simp only [hg, if_true, hbad]

end

theorem exec_vrandk {f : EFields} {s : State} {a b : Word} (hg : guardHolds s = true) (ha : readGQ s f.a = .ok a)
    (hb : readGQ s f.b = .ok b) :
    exec (.vrandk f) s = .next (finish (onCore s s.curCore fun k => { k with key := a, ctr := b }) 8 none) := by
  rw [show exec (.vrandk f) s = execVrandk f s from rfl, execVrandk, guarded_of_holds hg]
  simp only [ha, hb, bind, Except.bind, pure, Except.pure]
  exact concludeNext_of_ctxs (by rfl) 8

/-- Settles O49, member by member. -/
theorem genInstructionsComplete : Obligations.GenInstructionsComplete := by
  unfold Obligations.GenInstructionsComplete
  refine ⟨?grammar, ?post, ?take, ?embed, fun f s a b => exec_vrandk⟩
  case grammar =>
    rw [List.forall_mem_cons, List.forall_mem_cons, List.forall_mem_singleton]
    exact ⟨fun f s t slot arg => grammarForm_of_room, fun f s t slot arg => grammarForm_of_room,
      fun f s t slot arg => grammarForm_of_room⟩
  case post =>
    intro f s a b hg ha hb h50 hon
    have hargs := tokenArgs_of_enabled ha hb h50 hon
    exact ⟨fun hfull t hp => ⟨exec_rply_of_room hg hargs hfull hp, (postToken_spec hp).2⟩, exec_rply_of_full hg hargs⟩
  case take =>
    intro f s hg
    exact ⟨exec_rplyTake_of_none hg, fun i e => exec_rplyTake_of_some hg⟩
  case embed =>
    intro f s a o i r hg hroom ha ho hi hr
    refine ⟨fun hones hd => ?_, fun e t u htok he hdim hrow hd => ?_, fun e t htok he hdim => ?_⟩
    · exact exec_embld_of_fetched hg hroom ha ho hi hr (badToken_of_allOnes ha hi hr hones) (by simp [hones]; rfl) hd
    · refine exec_embld_of_fetched hg hroom ha ho hi hr ?_ ?_ hd
      · rw [badToken_of_reply ha hi hr he]
        simp [Nat.not_le.2 hdim]
      · simp only [beq_iff_eq, htok, if_false, hrow]
    · refine exec_embld_bad hg ?_
      rw [badToken_of_reply ha hi hr he]
      rw [if_pos (by rw [bne_iff_ne.2 htok, decide_eq_true hdim]; rfl)]

end Sys2Proof.Slice0

/-! PROOFS. Ports changed one after another; the self-test, the throttle ladder and the sensors (01 R12-R17, R25). -/

namespace Sys2Proof.Slice0
open Sys2Proof.Machine

/-! ### Ports changed one after another -/

section
variable {α : Type} (key : α → Nat) (F : α → Port → Port)

/-- Ports changed one after another: nothing but the ports changes. -/
theorem foldl_onPort_eq (l : List α) (s : State) :
    ∃ p, l.foldl (fun s e => onPort s (key e) (F e)) s = { s with ports := p } := by
  induction l generalizing s with
  | nil => exact ⟨s.ports, rfl⟩
  | cons e l ih =>
    obtain ⟨p, hp⟩ := ih (onPort s (key e) (F e))
    exact ⟨p, hp⟩

theorem portOf_foldl_onPort_of_not_mem {l : List α} {i : Nat} (h : i ∉ l.map key) (s : State) :
    portOf (l.foldl (fun s e => onPort s (key e) (F e)) s) i = portOf s i := by
  induction l generalizing s with
  | nil => rfl
  | cons e l ih =>
    simp only [List.map_cons, List.mem_cons, not_or] at h
    rw [List.foldl_cons, ih h.2, portOf_onPort_ne _ _ h.1]

/-- Each port that is named once is changed by its own change. -/
theorem portOf_foldl_onPort {l : List α} (hl : (l.map key).Nodup) {e : α} (he : e ∈ l) (s : State) :
    portOf (l.foldl (fun s e => onPort s (key e) (F e)) s) (key e) = F e (portOf s (key e)) := by
  induction l generalizing s with
  | nil => exact absurd he (by simp)
  | cons x l ih =>
    rw [List.map_cons, List.nodup_cons] at hl
    rw [List.foldl_cons]
    by_cases hx : key e = key x
    · obtain rfl | hmem := List.mem_cons.1 he
      · rw [portOf_foldl_onPort_of_not_mem key F hl.1, portOf_onPort_self]
      · exact absurd (hx ▸ List.mem_map_of_mem hmem) hl.1
    · have hmem : e ∈ l := (List.mem_cons.1 he).resolve_left fun h => hx (h ▸ rfl)
      rw [ih hl.2 hmem, portOf_onPort_ne _ _ hx]

end

theorem portOf_foldl_range (F : Nat → Port → Port) (s : State) {i : Nat} (hi : i < 64) :
    portOf ((List.range 64).foldl (fun s e => onPort s e (F e)) s) i = F i (portOf s i) :=
  portOf_foldl_onPort (fun e => e) F (by rw [List.map_id']; exact List.nodup_range) (List.mem_range.2 hi) s

theorem restripeAll_eq (s : State) :
    restripeAll s = (List.range 64).foldl (fun u i => onPort u i (restripe s.mtime s.module.level)) s := by
  have h : ∀ (l : List Nat) (u : State), u.mtime = s.mtime → u.module = s.module →
      l.foldl restripePort u = l.foldl (fun u i => onPort u i (restripe s.mtime s.module.level)) u := by
    intro l
    induction l with
    | nil => exact fun _ _ _ => rfl
    | cons i l ih =>
      intro u ht hm
      rw [List.foldl_cons, List.foldl_cons, restripePort, ht, hm]
      exact ih _ ht hm
  exact h _ s rfl rfl

theorem portOf_restripeAll (s : State) {i : Nat} (hi : i < 64) :
    portOf (restripeAll s) i = restripe s.mtime s.module.level (portOf s i) := by
  rw [restripeAll_eq, portOf_foldl_range (fun _ => restripe s.mtime s.module.level) s hi]

theorem restripeAll_ports (s : State) : ∃ p, restripeAll s = { s with ports := p } := by
  rw [restripeAll_eq]
  exact foldl_onPort_eq _ (fun _ => restripe s.mtime s.module.level) _ s

/-! ### The self-test (R12) -/

theorem look_zipIdx {α : Type} (d : α) (l : List α) (n k : Nat) {v : α} (h : l[k]? = some v) :
    look d ((l.zipIdx n).map fun (v, k) => (k, v)) (n + k) = v := by
  induction l generalizing n k with
  | nil => simp at h
  | cons x l ih =>
    cases k with
    | zero =>
      rw [List.getElem?_cons_zero] at h
      simp [look, Option.some.inj h]
    | succ k =>
      rw [List.getElem?_cons_succ] at h
      have := ih (n + 1) k h
      simp only [List.zipIdx_cons, List.map_cons, look]
      rw [if_neg (by simp), show n + (k + 1) = n + 1 + k by omega]
      exact this

theorem fillCapacity_eq (r : SelfTest) (s : State) :
    ∃ e, fillCapacity r s = onModule s fun m => { testedModule r m with epoch := e } := by
  simp only [fillCapacity]
  split
  · exact ⟨s.module.epoch + 1, rfl⟩
  · exact ⟨s.module.epoch, rfl⟩

/-- The state in which the self-test has left its figures at the ports. -/
def portsTested (r : SelfTest) (s : State) : State :=
  (List.range 64).foldl (fun s i => onPort s i fun p => testedPort r p i) (fillCapacity r s)

theorem exec_selfTestDone {s : State} (r : SelfTest) (hstep : s.module.step = 4) (hboot : s.module.bootChecked = true)
    (hready : s.module.ready = false) :
    exec (.selfTestDone r) s = .next (checkReplace (restripeAll (portsTested r s))) := by
  rw [show exec (.selfTestDone r) s = execSelfTestDone r s from rfl, execSelfTestDone]
  simp only [hstep, hboot, hready, bne_self_eq_false, Bool.not_true, Bool.or_self, Bool.false_eq_true, if_false]
  rfl

theorem portsTested_eq (r : SelfTest) (s : State) :
    ∃ e p, portsTested r s = { s with module := { testedModule r s.module with epoch := e }, ports := p } := by
  obtain ⟨e, hfill⟩ := fillCapacity_eq r s
  obtain ⟨p, hp⟩ := foldl_onPort_eq (fun i => i) (fun i p => testedPort r p i) (List.range 64) (fillCapacity r s)
  refine ⟨e, p, ?_⟩
  rw [portsTested, hp, hfill]
  rfl

theorem portOf_portsTested (r : SelfTest) (s : State) {i : Nat} (hi : i < 64) :
    portOf (portsTested r s) i = testedPort r (portOf s i) i := by
  rw [portsTested, portOf_foldl_range (fun i p => testedPort r p i) _ hi]
  obtain ⟨e, hfill⟩ := fillCapacity_eq r s
  rw [hfill, portOf_onModule]

theorem restripeAll_portsTested_eq (r : SelfTest) (s : State) :
    ∃ e p, restripeAll (portsTested r s) = { s with module := { testedModule r s.module with epoch := e }, ports := p } := by
  obtain ⟨e, p, hp⟩ := portsTested_eq r s
  obtain ⟨q, hq⟩ := restripeAll_ports (portsTested r s)
  exact ⟨e, q, by rw [hq, hp]⟩

/-- REPLACE_REQUESTED leaves what a self-test has found. -/
theorem checkReplace_found (s : State) :
    (checkReplace s).module.ready = s.module.ready ∧ (checkReplace s).module.live = s.module.live ∧
      (checkReplace s).module.spares = s.module.spares ∧ (checkReplace s).module.bamap = s.module.bamap ∧
      (checkReplace s).ports = s.ports ∧ (checkReplace s).cores = s.cores ∧ (checkReplace s).mem = s.mem ∧
      (checkReplace s).ctxs = s.ctxs := by
  obtain ⟨r, n, l, k, i, p, h⟩ := checkReplace_eq s
  rw [h]
  exact ⟨rfl, rfl, rfl, rfl, rfl, rfl, rfl, rfl⟩

/-- What the end of a self-test leaves. -/
theorem selfTest_spec (s : State) (r : SelfTest) :
    let t := checkReplace (restripeAll (portsTested r s))
    t.module.ready = true ∧ t.module.live = r.liveCores ∧
      t.module.spares = r.spares ∧ (∀ k v, k < 32 → r.bamap[k]? = some v → bamapOf t k = v.toNat) ∧
      (∀ i, i < 64 → portOf t i = restripe s.mtime s.module.level (testedPort r (portOf s i) i)) ∧ t.cores = s.cores ∧
        t.mem = s.mem ∧ t.ctxs = s.ctxs := by
  intro t
  obtain ⟨hready, hlive, hspares, hbamap, hports, hcores, hmem, hctxs⟩ :=
    checkReplace_found (restripeAll (portsTested r s))
  obtain ⟨e, p, hall⟩ := restripeAll_portsTested_eq r s
  refine ⟨hready.trans (by rw [hall]; rfl), hlive.trans (by rw [hall]; rfl), hspares.trans (by rw [hall]; rfl),
    fun k v hk hv => ?_, fun i hi => ?_, hcores.trans (by rw [hall]), hmem.trans (by rw [hall]),
    hctxs.trans (by rw [hall])⟩
  · have hmap : t.module.bamap = (r.bamap.take 32).zipIdx.map fun (v, k) => (k, v) := hbamap.trans (by rw [hall]; rfl)
    have hv' : (r.bamap.take 32)[k]? = some v := by rw [List.getElem?_take_of_lt hk, hv]
    rw [bamapOf, hmap, ← Nat.zero_add k, look_zipIdx _ _ 0 k hv']
  · obtain ⟨e', p', htested⟩ := portsTested_eq r s
    have hport : portOf t i = portOf (restripeAll (portsTested r s)) i := by simp only [portOf, t, hports]
    rw [hport, portOf_restripeAll _ hi, portOf_portsTested r s hi, htested]
    rfl

/-! ### The throttle ladder and the sensors (R14-R17, R25) -/

theorem setLevel_spec {s : State} {n : Nat} (h : n ≠ s.module.level) :
    (setLevel s n).module.level = n ∧ logged s (setLevel s n) 0x0003 n ∧
      ∀ i, i < 64 → portOf (setLevel s n) i = restripe s.mtime n (portOf s i) := by
  have hset : setLevel s n = restripeAll (logEvent (onModule s fun m => { m with level := n }) 0x0003 n) := by
    simp only [setLevel, beq_eq_false_iff_ne.2 h, Bool.false_eq_true, if_false]
  obtain ⟨p, hp⟩ := restripeAll_ports (logEvent (onModule s fun m => { m with level := n }) 0x0003 n)
  obtain ⟨l, k, hlog, hlast⟩ := logEvent_module (onModule s fun m => { m with level := n }) 0x0003 n
  have hmod : (setLevel s n).module = { s.module with level := n, log := l, logLost := k } := by
    rw [hset, hp, hlog]
    rfl
  refine ⟨by rw [hmod], ?_, fun i hi => ?_⟩
  · rw [logged, hmod]
    exact hlast
  · rw [hset, portOf_restripeAll _ hi, hlog]
    rfl

theorem portOf_sensePorts {s : State} {ts : List (BitVec 16)} {i : Nat} {v : BitVec 16} (hi : i < 64)
    (hv : ts[i]? = some v) : portOf (sensePorts s ts) i = { portOf s i with tsens := v } := by
  have hmem : (v, i) ∈ (ts.take 64).zipIdx := by
    rw [List.mem_zipIdx_iff_getElem?, List.getElem?_take_of_lt hi, hv]
  have hnodup : (((ts.take 64).zipIdx).map Prod.snd).Nodup := by
    rw [List.zipIdx_map_snd]
    exact List.nodup_range' _
  exact portOf_foldl_onPort Prod.snd (fun (e : BitVec 16 × Nat) p => { p with tsens := e.1 }) hnodup hmem s

theorem sensePorts_module (s : State) (ts : List (BitVec 16)) : (sensePorts s ts).module = s.module := by
  obtain ⟨p, hp⟩ := foldl_onPort_eq Prod.snd (fun (e : BitVec 16 × Nat) p => { p with tsens := e.1 }) ((ts.take 64).zipIdx) s
  rw [show sensePorts s ts = { s with ports := p } from hp]

/-- The module after a sensor refresh, but for its ports. -/
theorem exec_sensorRefresh_spec (s : State) (r : Readings) :
    ∃ t, exec (.sensorRefresh r) s = .next t ∧ t.module.sensors = r ∧ t.module.level = s.module.level ∧
      t.module.coolant = r.coolant ∧ (∀ i v, i < 64 → r.tsens[i]? = some v → (portOf t i).tsens = v) ∧
      (t.module.hot = true ↔ ∃ k, k < 32 ∧ 1600 * 85 + 437040 < 100 * (r.site.getD k 0).toNat) := by
  refine ⟨_, rfl, ?_⟩
  rw [sensePorts_module]
  refine ⟨rfl, rfl, rfl, fun i v hi hv => by rw [portOf_sensePorts hi hv], ?_⟩
  simp only [onModule_module, List.any_eq_true, List.mem_range, above, siteReading]
  exact exists_congr fun k => and_congr_right fun _ => decide_eq_true_iff

/-- Settles O1, event by event. -/
theorem selfTestThrottleAndSensors : Obligations.SelfTestThrottleAndSensors := by
  unfold Obligations.SelfTestThrottleAndSensors
  refine ⟨fun s r hstep hboot hready => ⟨_, exec_selfTestDone r hstep hboot hready, selfTest_spec s r⟩, ?up, ?down,
    exec_sensorRefresh_spec, ?hot⟩
  case up =>
    intro s h
    have hexec : exec .throttleUp s = .next (setLevel s (triggerLevel s)) := by
      rw [show exec .throttleUp s = execThrottleUp s from rfl, execThrottleUp, if_pos h]
    exact ⟨_, hexec, setLevel_spec (Nat.ne_of_gt h)⟩
  case down =>
    intro s h
    have hexec : exec .throttleDown s = .next (setLevel s (heldLevel s)) := by
      rw [show exec .throttleDown s = execThrottleDown s from rfl, execThrottleDown, if_pos h]
    obtain ⟨hlevel, hlog, -⟩ := setLevel_spec (Nat.ne_of_lt h)
    exact ⟨_, hexec, hlevel, hlog⟩
  case hot =>
    intro s site hsite hhot
    have habove : (decide (site < 32) && above (siteReading s site) 85) = true := by
      simp [hsite, above, siteReading] at hhot ⊢
      exact hhot
    rw [show exec (.hbmSiteHot site) s = execHbmSiteHot site s from rfl, execHbmSiteHot, if_pos habove]

end Sys2Proof.Slice0

/-! PROOFS. The rail sequence, rail faults and the loss of power (01 R11-R14). -/

namespace Sys2Proof.Slice0
open Sys2Proof.Machine

/-- A map whose values are changed by a function that keeps the default. -/
theorem look_map_values {α : Type} (d : α) (f : α → α) (hf : f d = d) (m : Map α) (k : Nat) :
    look d (m.map fun e => (e.1, f e.2)) k = f (look d m k) := by
  induction m with
  | nil => exact hf.symm
  | cons e m ih =>
    obtain ⟨j, v⟩ := e
    by_cases hjk : j = k
    · simp [look, hjk]
    · simpa [look, hjk] using ih

/-- A core's clock or rails are gone: one that runs a slice stops. -/
def unclocked (k : Core) : Core := if k.slice.isSome then { k with halted := true } else k

theorem coreOf_stopCores (s : State) (c : Nat) : coreOf (stopCores s) c = unclocked (coreOf s c) := by
  have h := look_map_values ({} : Core) unclocked rfl s.cores c
  exact h

/-- The state in which a rail fault has taken the rails. -/
def railsOff (s : State) : State :=
  onModule s fun m => { m with step := 0, stepTime := s.elapsed, ready := false, retest := m.retest || m.ready }

theorem exec_railFault {s : State} {row : Nat} (hstep : s.module.step = 4) (hrow : row < 8) :
    exec (.railFault row) s = .next (stopCores (logEvent (railsOff s) 0x0001 row)) := by
  rw [show exec (.railFault row) s = execRailFault row s from rfl, execRailFault]
  simp only [hstep, bne_self_eq_false, Bool.false_or, decide_eq_true_eq, if_neg (Nat.not_le.2 hrow)]
  rfl

theorem railFault_spec (s : State) (row : Nat) :
    let t := stopCores (logEvent (railsOff s) 0x0001 row)
    t.module.step = 0 ∧ t.module.ready = false ∧ t.module.input =
      s.module.input ∧ logged s t 0x0001 row ∧ t.mem = s.mem ∧ t.ctxs = s.ctxs ∧
      ∀ c, (coreOf s c).slice.isSome = true → (coreOf t c).halted = true := by
  intro t
  obtain ⟨l, n, hlog, hlast⟩ := logEvent_module (railsOff s) 0x0001 row
  have hmod : t.module = { (railsOff s).module with log := l, logLost := n } := hlog
  refine ⟨by rw [hmod]; rfl, by rw [hmod]; rfl, by rw [hmod]; rfl, ?_, rfl, rfl, fun c hc => ?_⟩
  · rw [logged, hmod]
    exact hlast
  · rw [coreOf_stopCores]
    have hcore : coreOf (logEvent (railsOff s) 0x0001 row) c = coreOf s c := rfl
    rw [hcore, unclocked, if_pos hc]

theorem railsSequenceAndFault : RailsSequenceAndFault := by
  unfold RailsSequenceAndFault
  refine ⟨fun s h => ?_, fun s => rfl, fun s hin hcool htrip hstep htime => ?_, fun s hstep htrip => ?_, fun s htrip => ?_,
    fun s => rfl, fun s row hstep hrow => ⟨_, exec_railFault hstep hrow, railFault_spec s row⟩⟩
  · rw [show exec .powerInputApplied s = execPowerInputApplied s from rfl, execPowerInputApplied, h]
    rfl
  · have hup : stepUpOk s = true := by
      simp only [stepUpOk, hin, hcool, htrip, decide_eq_true hstep, decide_eq_true htime, Bool.not_false, Bool.and_self]
    rw [show exec (.railSequenceStep true) s = execRailSequenceStep true s from rfl, execRailSequenceStep, if_pos rfl,
      if_pos hup]
  · have hdown : stepDownOk s = true := by
      simp only [stepDownOk, decide_eq_true hstep, htrip, Bool.and_self]
    rw [show exec (.railSequenceStep false) s = execRailSequenceStep false s from rfl, execRailSequenceStep,
      if_neg Bool.false_ne_true, if_pos hdown]
  · have hdown : ¬ stepDownOk s = true := by simp [stepDownOk, htrip]
    rw [show exec (.railSequenceStep false) s = execRailSequenceStep false s from rfl, execRailSequenceStep,
      if_neg Bool.false_ne_true, if_neg hdown]

/-- What a loss of power leaves at an address. -/
theorem byteAt_powerLost (s : State) (a : Nat) :
    byteAt (powerLost s) a = if 2 ^ 56 ≤ a then byteAt s a else 0 := by
  have h := look_filter_keys blankByte s.mem (fun k => decide (2 ^ 56 ≤ k)) a
  simp only [decide_eq_true_eq] at h
  exact h

theorem powerLossClearsModule : PowerLossClearsModule := by
  intro s
  refine ⟨powerLost s, rfl, rfl, rfl, rfl, rfl, rfl, rfl, rfl, rfl, rfl, fun a ha => ?_, fun a ha => ?_⟩
  · rw [byteAt_powerLost, if_neg (Nat.not_le.2 ha)]
  · rw [byteAt_powerLost, if_pos ha]

/-- Settles O3. -/
theorem railsAndPowerLoss : Obligations.RailsAndPowerLoss := ⟨railsSequenceAndFault, powerLossClearsModule⟩

end Sys2Proof.Slice0

/-! PROOFS. The mailbox, firmware images and the recovery window (01 R22-R28). -/

namespace Sys2Proof.Slice0
open Sys2Proof.Machine

/-! ### Requests of the mailbox (R22, R23, R26) -/

theorem request_of_free {s : State} (hin : s.module.input = true) (hb : mailboxBusy s = false) (f : State → State) :
    request s f = .next (f s) := by
  simp only [request, hin, hb, Bool.not_true, Bool.false_eq_true, if_false]

theorem request_of_busy {s : State} (hin : s.module.input = true) (hb : mailboxBusy s = true) (f : State → State) :
    request s f = .next (onModule s fun m => { m with refused := true }) := by
  simp only [request, hin, hb, Bool.not_true, Bool.false_eq_true, if_false, if_true]

/-- A mailbox that is not busy holds no response and waits for no write. -/
theorem free_of_not_busy {s : State} (hb : mailboxBusy s = false) :
    s.module.response = none ∧ s.module.writing = none := by
  simpa [mailboxBusy] using hb

/-! ### A row of 16-bit readings in an image -/

/-- The readings of a row, two bytes each. -/
def readingRow (n : Nat) (l : List (BitVec 16)) : List Byte := (List.range n).flatMap fun i => toBytes 2 (l.getD i 0).toNat

theorem readingRow_length (n : Nat) (l : List (BitVec 16)) : (readingRow n l).length = 2 * n := by
  simp [readingRow, List.length_flatMap, Nat.mul_comm]

theorem imageAt_readingRow {n i : Nat} (hi : i < n) (l : List (BitVec 16)) (before after : List Byte) :
    imageAt (before ++ (readingRow n l ++ after)) (before.length + 2 * i) 2 = (l.getD i 0).toNat := by
  obtain ⟨k, rfl⟩ := Nat.exists_eq_add_of_lt hi
  have hrow : readingRow (i + k + 1) l = readingRow i l ++ (toBytes 2 (l.getD i 0).toNat ++
      ((List.range k).map (i + 1 + ·)).flatMap fun i => toBytes 2 (l.getD i 0).toNat) := by
    simp only [readingRow]
    rw [show i + k + 1 = i + 1 + k by omega, List.range_add, List.range_succ]
    simp
  rw [imageAt, List.drop_append, List.drop_of_length_le (by omega), List.nil_append,
    show before.length + 2 * i - before.length = (readingRow i l).length by rw [readingRow_length]; omega, hrow,
    List.append_assoc, List.drop_left, List.append_assoc, List.take_left' (toBytes_length 2 _), fromBytes_toBytes]
  exact Nat.mod_eq_of_lt (l.getD i 0).isLt

/-- The answer to READ_SENSORS. -/
def sensorImage (r : Readings) : List Byte :=
  readingRow 8 r.die ++ (readingRow 8 r.towerCurrent ++ (readingRow 32 r.site ++ (readingRow 32 r.siteCurrent ++
    toBytes 2 r.power.toNat)))

theorem exec_readSensors {s : State} (hin : s.module.input = true) (hb : mailboxBusy s = false) :
    exec .readSensors s = .next (answer s 0 (sensorImage s.module.sensors)) := by
  rw [show exec .readSensors s = execReadSensors s from rfl, execReadSensors, request_of_free hin hb]
  simp only [sensorImage, readingRow, List.append_assoc]

theorem sensorImage_spec (r : Readings) :
    (sensorImage r).length = 162 ∧
      (∀ i, i < 8 → imageAt (sensorImage r) (2 * i) 2 = (r.die.getD i 0).toNat ∧
        imageAt (sensorImage r) (16 + 2 * i) 2 = (r.towerCurrent.getD i 0).toNat) ∧
      (∀ i, i < 32 → imageAt (sensorImage r) (32 + 2 * i) 2 = (r.site.getD i 0).toNat ∧
        imageAt (sensorImage r) (96 + 2 * i) 2 = (r.siteCurrent.getD i 0).toNat) ∧
      imageAt (sensorImage r) 160 2 = r.power.toNat := by
  refine ⟨by simp [sensorImage, readingRow_length], fun i hi => ⟨?_, ?_⟩, fun i hi => ⟨?_, ?_⟩, ?_⟩
  · have h := imageAt_readingRow hi r.die [] (readingRow 8 r.towerCurrent ++ (readingRow 32 r.site ++
      (readingRow 32 r.siteCurrent ++ toBytes 2 r.power.toNat)))
    rwa [List.nil_append, List.length_nil, Nat.zero_add] at h
  · have h := imageAt_readingRow hi r.towerCurrent (readingRow 8 r.die) (readingRow 32 r.site ++
      (readingRow 32 r.siteCurrent ++ toBytes 2 r.power.toNat))
    rwa [readingRow_length] at h
  · have h := imageAt_readingRow hi r.site (readingRow 8 r.die ++ readingRow 8 r.towerCurrent)
      (readingRow 32 r.siteCurrent ++ toBytes 2 r.power.toNat)
    rwa [List.length_append, readingRow_length, readingRow_length, List.append_assoc] at h
  · have h := imageAt_readingRow hi r.siteCurrent (readingRow 8 r.die ++ (readingRow 8 r.towerCurrent ++ readingRow 32 r.site))
      (toBytes 2 r.power.toNat)
    rwa [List.length_append, List.length_append, readingRow_length, readingRow_length, readingRow_length,
      List.append_assoc, List.append_assoc] at h
  · have hlen : (readingRow 8 r.die ++ (readingRow 8 r.towerCurrent ++ (readingRow 32 r.site ++
        readingRow 32 r.siteCurrent))).length = 160 := by simp [readingRow_length]
    have himage : sensorImage r = (readingRow 8 r.die ++ (readingRow 8 r.towerCurrent ++ (readingRow 32 r.site ++
        readingRow 32 r.siteCurrent))) ++ toBytes 2 r.power.toNat := by simp only [sensorImage, List.append_assoc]
    rw [imageAt, himage, List.drop_left' hlen, List.take_of_length_le (by simp), fromBytes_toBytes]
    exact Nat.mod_eq_of_lt r.power.isLt

/-- A limit in range is taken. -/
theorem exec_setPowerLimit {s : State} {args : List (BitVec 8)} (hin : s.module.input = true) (hb : mailboxBusy s = false)
    (hlo : 2000 ≤ imageAt args 0 2) (hhi : imageAt args 0 2 ≤ 3400) :
    ∃ t, exec (.setPowerLimit args) s = .next (answer t 0 []) ∧ t.module.limit = imageAt args 0 2 ∧
      t.module.coolSince = coolTimes (onModule s fun m => { m with limit := imageAt args 0 2 }) ∧
      t.module.sensors = s.module.sensors ∧ t.module.level = s.module.level ∧ t.mem = s.mem := by
  refine ⟨onModule (onModule s fun m => { m with limit := imageAt args 0 2 }) fun m =>
    { m with coolSince := coolTimes (onModule s fun m => { m with limit := imageAt args 0 2 }) }, ?_, rfl, rfl, rfl, rfl, rfl⟩
  rw [show exec (.setPowerLimit args) s = execSetPowerLimit args s from rfl, execSetPowerLimit, request_of_free hin hb]
  simp only [hlo, hhi, decide_true, Bool.and_self, if_true]

theorem exec_setPowerLimit_refused {s : State} {args : List (BitVec 8)} (hin : s.module.input = true)
    (hb : mailboxBusy s = false) (h : imageAt args 0 2 < 2000 ∨ 3400 < imageAt args 0 2) :
    exec (.setPowerLimit args) s = .next (answer s 0x03 []) := by
  have hout : ¬ (decide (2000 ≤ imageAt args 0 2) && decide (imageAt args 0 2 ≤ 3400)) = true := by
    simp only [Bool.and_eq_true, decide_eq_true_eq]
    omega
  rw [show exec (.setPowerLimit args) s = execSetPowerLimit args s from rfl, execSetPowerLimit, request_of_free hin hb]
  simp only [if_neg hout]

theorem exec_mailboxUnknownCommand {s : State} {code : BitVec 8} (hin : s.module.input = true) (hb : mailboxBusy s = false)
    (h : code.toNat ∉ [0x01, 0x02, 0x03, 0x10, 0x20, 0x21, 0x30]) :
    exec (.mailboxUnknownCommand code) s = .next (answer s 0x01 []) := by
  rw [show exec (.mailboxUnknownCommand code) s = execMailboxUnknownCommand code s from rfl, execMailboxUnknownCommand,
    if_neg (by rw [List.contains_iff_mem]; exact h), request_of_free hin hb]

theorem exec_eventLog {s : State} (hin : s.module.input = true) (hb : mailboxBusy s = false) (hl : s.module.logLost = 0) :
    exec .eventLog s = .next (answer (onModule s fun m => { m with log := m.log.drop 16, logLost := 0 }) 0
      (s.module.log.take 16).flatten) := by
  rw [show exec .eventLog s = execEventLog s from rfl, execEventLog, request_of_free hin hb]
  simp only [hl, beq_self_eq_true, if_true, List.length_nil, List.nil_append, Nat.sub_zero]

theorem exec_mailboxResponseRead {s : State} {r : List Byte} (hin : s.module.input = true)
    (href : s.module.refused = false) (hr : s.module.response = some r) :
    exec .mailboxResponseRead s = .next (onModule s fun m => { m with response := none, answer := r }) := by
  rw [show exec .mailboxResponseRead s = execMailboxResponseRead s from rfl, execMailboxResponseRead]
  simp only [hin, Bool.not_true, Bool.false_eq_true, if_false, onModule, href, hr]

theorem exec_mailboxResponseRead_refused {s : State} (hin : s.module.input = true) (href : s.module.refused = true) :
    exec .mailboxResponseRead s = .next (onModule s fun m => { m with refused := false, answer := [0x02, 0x00] }) := by
  rw [show exec .mailboxResponseRead s = execMailboxResponseRead s from rfl, execMailboxResponseRead]
  simp only [hin, Bool.not_true, Bool.false_eq_true, if_false, onModule, href, if_true]
  rfl

theorem mailboxAnswersRequests : MailboxAnswersRequests := by
  unfold MailboxAnswersRequests
  refine ⟨fun s hin hb => ⟨?_, ?_, ⟨sensorImage s.module.sensors, exec_readSensors hin hb, sensorImage_spec _⟩,
    fun args => exec_setPowerLimit hin hb, fun args => exec_setPowerLimit_refused hin hb,
    fun code => exec_mailboxUnknownCommand hin hb, exec_eventLog hin hb⟩, ?busy, fun s r => exec_mailboxResponseRead,
    fun s => exec_mailboxResponseRead_refused⟩
  · exact (request_of_free hin hb _ : execReadModstat s = _)
  · exact (request_of_free hin hb _ : execReadCapacity s = _)
  case busy =>
    intro s hin hb
    simp only [List.forall_mem_cons, List.not_mem_nil, false_implies, implies_true, and_true]
    exact ⟨(request_of_busy hin hb _ : execReadModstat s = _), (request_of_busy hin hb _ : execReadCapacity s = _),
      (request_of_busy hin hb _ : execReadSensors s = _), (request_of_busy hin hb _ : execEventLog s = _)⟩

/-! ### Firmware images in staging (R24) -/

/-- The chunks of the staging buffer's size that end inside it are staged whole. -/
theorem stage_of_fits {s : State} {o : Nat} {bs : List Byte} (h : o + bs.length ≤ stagingSize) :
    stage s o bs = onModule s fun m =>
      { m with staging := writeBytes m.staging o bs, staged := m.staged ++ [(o, bs.length)] } := by
  simp only [stage, List.take_of_length_le (show bs.length ≤ stagingSize - o by omega)]

theorem imageCheck_of_uncovered {s : State} {len : Nat} {crc : BitVec 32}
    (h : len = 0 ∨ stagingSize < len ∨ covered s.module.staged len (s.module.staged.length + 1) 0 = false) :
    imageCheck s len crc = 0x06 := by
  have hbad : (len == 0 || decide (stagingSize < len) ||
      !covered s.module.staged len (s.module.staged.length + 1) 0) = true := by
    obtain h | h | h := h <;> simp [h]
  simp only [imageCheck, hbad, if_true]

theorem imageCheck_of_covered {s : State} {len : Nat} (crc : BitVec 32) (h0 : 0 < len) (hlen : len ≤ stagingSize)
    (hcov : covered s.module.staged len (s.module.staged.length + 1) 0 = true) :
    imageCheck s len crc = if crc32 (readBytes s.module.staging 0 len) != crc then 0x04
      else if !Config.imageSigned (readBytes s.module.staging 0 len) then 0x05 else 0 := by
  have hgood : (len == 0 || decide (stagingSize < len) ||
      !covered s.module.staged len (s.module.staged.length + 1) 0) = false := by
    simp only [beq_eq_false_iff_ne.2 h0.ne', decide_eq_false (Nat.not_lt.2 hlen), hcov, Bool.not_true, Bool.or_self]
  simp only [imageCheck, hgood, Bool.false_eq_true, if_false]

theorem startFlash_spec (s : State) (n : Nat) (window : Bool) :
    (startFlash s n window).module.writing = some ⟨n, window⟩ ∧ (startFlash s n window).module.flashPartial = true ∧
      (startFlash s n window).module.response = s.module.response ∧
      (startFlash s n window).module.window = s.module.window ∧
      readBytes (startFlash s n window).module.flash 0 n = readBytes s.module.staging 0 n ∧
      (startFlash s n window).module.flashLen = n := by
  refine ⟨rfl, rfl, rfl, rfl, ?_, rfl⟩
  have h := readBytes_writeBytes_same wf_nil 0 (readBytes s.module.staging 0 n)
  rwa [readBytes_length] at h

section
variable {s : State} {args : List (BitVec 8)} (hin : s.module.input = true) (hb : mailboxBusy s = false)
include hin hb

theorem exec_fwStage (hlen : args.length = 244) (hal : imageAt args 0 4 % 240 = 0) (hfit : imageAt args 0 4 + 240 ≤ 2 ^ 26)
    (hwf : Memory.wf s.module.staging = true) :
    ∃ t, exec (.fwStage args) s = .next t ∧ t.module.response = some [0, 0] ∧
      readBytes t.module.staging (imageAt args 0 4) 240 = args.drop 4 ∧ t.module.flash = s.module.flash := by
  have hdrop : (args.drop 4).length = 240 := by simp [hlen]
  have hargs : (args.length != 244 || imageAt args 0 4 % 240 != 0 || decide (stagingSize ≤ imageAt args 0 4)) = false := by
    rw [hlen, hal, decide_eq_false (by rw [stagingSize]; omega)]
    rfl
  have hexec : exec (.fwStage args) s = .next (answer (stage s (imageAt args 0 4) (args.drop 4)) 0 []) := by
    rw [show exec (.fwStage args) s = execFwStage args s from rfl, execFwStage, request_of_free hin hb]
    simp only [hargs, Bool.false_eq_true, if_false]
  refine ⟨_, hexec, rfl, ?_, rfl⟩
  rw [stage_of_fits (by rw [hdrop]; exact hfit)]
  have h := readBytes_writeBytes_same hwf (imageAt args 0 4) (args.drop 4)
  rw [hdrop] at h
  exact h

theorem exec_fwStage_refused (h : args.length ≠ 244 ∨ imageAt args 0 4 % 240 ≠ 0 ∨ 2 ^ 26 ≤ imageAt args 0 4) :
    exec (.fwStage args) s = .next (answer s 0x03 []) := by
  have hargs : (args.length != 244 || imageAt args 0 4 % 240 != 0 || decide (stagingSize ≤ imageAt args 0 4)) = true := by
    obtain h | h | h := h
    · simp [h]
    · simp [h]
    · rw [decide_eq_true (show stagingSize ≤ imageAt args 0 4 from h), Bool.or_true]
  rw [show exec (.fwStage args) s = execFwStage args s from rfl, execFwStage, request_of_free hin hb]
  simp only [hargs, if_true]

/-- FW_ACTIVATE follows the checks of its image. -/
theorem exec_fwActivate (hlen : args.length = 8) :
    exec (.fwActivate args) s =
      .next (if imageCheck s (imageAt args 0 4) (BitVec.ofNat 32 (imageAt args 4 4)) == 0 then
        startFlash s (imageAt args 0 4) false
      else answer s (imageCheck s (imageAt args 0 4) (BitVec.ofNat 32 (imageAt args 4 4))) []) := by
  rw [show exec (.fwActivate args) s = execFwActivate args s from rfl, execFwActivate, request_of_free hin hb]
  simp only [hlen, bne_self_eq_false, Bool.false_eq_true, if_false]

theorem exec_fwActivate_uncovered (h : args.length ≠ 8 ∨ imageAt args 0 4 = 0 ∨ 2 ^ 26 < imageAt args 0 4 ∨
    covered s.module.staged (imageAt args 0 4) (s.module.staged.length + 1) 0 = false) :
    exec (.fwActivate args) s = .next (answer s 0x06 []) := by
  by_cases hlen : args.length = 8
  · rw [exec_fwActivate hin hb hlen, imageCheck_of_uncovered (h.resolve_left (not_not.2 hlen))]
    rfl
  · rw [show exec (.fwActivate args) s = execFwActivate args s from rfl, execFwActivate, request_of_free hin hb]
    simp only [bne_iff_ne.2 hlen, if_true]
    rfl

theorem exec_fwActivate_crc (hlen : args.length = 8) (h0 : 0 < imageAt args 0 4) (hle : imageAt args 0 4 ≤ 2 ^ 26)
    (hcov : covered s.module.staged (imageAt args 0 4) (s.module.staged.length + 1) 0 = true)
    (hcrc : crc32 (readBytes s.module.staging 0 (imageAt args 0 4)) ≠ BitVec.ofNat 32 (imageAt args 4 4)) :
    exec (.fwActivate args) s = .next (answer s 0x04 []) := by
  rw [exec_fwActivate hin hb hlen, imageCheck_of_covered _ h0 hle hcov, if_pos (bne_iff_ne.2 hcrc)]
  rfl

theorem exec_fwActivate_signed {n : Nat} {im : List Byte} (hlen : args.length = 8) (hn : n = imageAt args 0 4) (h0 : 0 < n)
    (hle : n ≤ 2 ^ 26) (hcov : covered s.module.staged n (s.module.staged.length + 1) 0 = true)
    (him : im = readBytes s.module.staging 0 n) (hcrc : crc32 im = BitVec.ofNat 32 (imageAt args 4 4)) :
    ∃ t, exec (.fwActivate args) s = .next t ∧
      (Config.imageSigned im = true → t.module.writing = some ⟨n, false⟩ ∧ t.module.flashPartial = true ∧
        t.module.response = none ∧ readBytes t.module.flash 0 n = im ∧ t.module.flashLen = n) ∧
      (Config.imageSigned im = false → t.module.writing = none ∧ t.module.response = some [5, 0] ∧
        t.module.flash = s.module.flash) := by
  obtain ⟨hresp, hwriting⟩ := free_of_not_busy hb
  subst hn him
  have hexec := exec_fwActivate hin hb hlen
  rw [imageCheck_of_covered _ h0 hle hcov, hcrc, bne_self_eq_false, if_neg Bool.false_ne_true] at hexec
  obtain ⟨hw, hpart, hr, -, hflash, hfl⟩ := startFlash_spec s (imageAt args 0 4) false
  refine ⟨_, hexec, fun hsig => ?_, fun hsig => ?_⟩
  · rw [hsig, if_pos (by decide)]
    exact ⟨hw, hpart, hr.trans hresp, hflash, hfl⟩
  · rw [hsig, if_neg (by decide)]
    exact ⟨hwriting, rfl, rfl⟩

end

/-! ### The end of a flash write, and boot (R24, R27) -/

theorem exec_flashWriteDone {s : State} {w : FlashWrite} (hw : s.module.writing = some w) :
    ∃ t, exec .flashWriteDone s = .next t ∧ t.module.writing = none ∧ t.module.flashPartial = false ∧
      t.module.flash = s.module.flash ∧ t.module.flashLen = s.module.flashLen ∧ logged s t 0x0009 0 ∧
      (w.window = false → t.module.response = some [0, 0]) ∧
      (w.window = true → t.module.window.done = true ∧ t.module.window.busy = false) := by
  obtain ⟨l, n, hlog, hlast⟩ :=
    logEvent_module (onModule s fun m => { m with writing := none, flashPartial := false }) 0x0009 0
  refine ⟨_, rfl, ?_⟩
  simp only [hw]
  cases hwin : w.window
  · simp only [Bool.false_eq_true, if_false, logged, answer, onModule_module, hlog]
    exact ⟨trivial, trivial, trivial, trivial, hlast, fun _ => rfl, fun h => h.elim⟩
  · simp only [if_true, logged, onModule_module, hlog]
    exact ⟨trivial, trivial, trivial, trivial, hlast, fun h => absurd h (by decide), fun _ => ⟨trivial, trivial⟩⟩

theorem exec_bootRomCheck {s : State} (hb : s.module.bootChecked = false) (hin : s.module.input = true)
    (hp : s.module.flashPartial = true) :
    ∃ t, exec .bootRomCheck s = .next t ∧ t.module.bootChecked = true ∧ t.module.recovery = true ∧ logged s t 0x0008 0 := by
  have hexec : exec .bootRomCheck s = .next (logEvent (onModule (onModule s fun m => { m with bootChecked := true })
      fun m => { m with recovery := true }) 0x0008 0) := by
    rw [show exec .bootRomCheck s = execBootRomCheck s from rfl, execBootRomCheck]
    simp only [hb, hin, hp, Bool.not_true, Bool.or_self, Bool.false_and, Bool.false_eq_true, if_false]
  obtain ⟨l, n, hlog, hlast⟩ := logEvent_module (onModule (onModule s fun m => { m with bootChecked := true })
      fun m => { m with recovery := true }) 0x0008 0
  refine ⟨_, hexec, by rw [hlog]; rfl, by rw [hlog]; rfl, ?_⟩
  rw [logged, hlog]
  exact hlast

/-! ### The recovery window (R28) -/

theorem not_writing_of_windowFree {s : State} (h : windowFree s = true) : s.module.writing = none := by
  simp only [windowFree, Bool.and_eq_true, Option.isNone_iff_eq_none] at h
  exact h.2

theorem exec_recoveryStage {s : State} {ofs n : Nat} (hfree : windowFree s = true) (hofs : ofs = s.module.window.ofs.toNat)
    (hn : n = Nat.min 2048 (s.module.window.len.toNat - ofs)) (hal : ofs % 2048 = 0) (hlt : ofs < 2 ^ 26)
    (hwf : Memory.wf s.module.staging = true) :
    ∃ t, exec .recoveryStage s = .next t ∧ t.module.window.busy = true ∧ t.module.window.fail = false ∧
      readBytes t.module.staging ofs n = readBytes s.module.window.data 0 n ∧
      (∀ a, a < ofs ∨ ofs + n ≤ a → readByte t.module.staging a = readByte s.module.staging a) ∧
      t.module.staged = s.module.staged ++ [(ofs, n)] ∧ t.module.flash = s.module.flash := by
  have hn2048 : n ≤ 2048 := hn ▸ Nat.min_le_left _ _
  subst hofs
  have hargs : (s.module.window.ofs.toNat % 2048 != 0 || decide (stagingSize ≤ s.module.window.ofs.toNat)) = false := by
    rw [hal, decide_eq_false (by rw [stagingSize]; omega)]
    rfl
  have hfits : s.module.window.ofs.toNat + (readBytes s.module.window.data 0 n).length ≤ stagingSize := by
    rw [readBytes_length, stagingSize]
    omega
  have hexec : exec .recoveryStage s = .next (onWindow (onModule s fun m => { m with
      staging := writeBytes m.staging s.module.window.ofs.toNat (readBytes s.module.window.data 0 n)
      staged := m.staged ++ [(s.module.window.ofs.toNat, n)] }) fun w => { w with busy := true, fail := false }) := by
    rw [show exec .recoveryStage s = execRecoveryStage s from rfl, execRecoveryStage]
    simp only [hfree, Bool.not_true, Bool.false_eq_true, if_false, hargs, ← hn]
    rw [stage_of_fits hfits, readBytes_length]
  refine ⟨_, hexec, rfl, rfl, ?_, fun a ha => ?_, rfl, rfl⟩
  · have h := readBytes_writeBytes_same hwf s.module.window.ofs.toNat (readBytes s.module.window.data 0 n)
    rwa [readBytes_length] at h
  · exact readByte_writeBytes_outside _ _ (by rwa [readBytes_length])

theorem exec_recoveryStage_refused {s : State} (hfree : windowFree s = true)
    (h : s.module.window.ofs.toNat % 2048 ≠ 0 ∨ 2 ^ 26 ≤ s.module.window.ofs.toNat) :
    ∃ t, exec .recoveryStage s = .next t ∧ t.module.window.fail = true ∧ t.module.window.err = 6 ∧
      t.module.staging = s.module.staging := by
  have hargs : (s.module.window.ofs.toNat % 2048 != 0 || decide (stagingSize ≤ s.module.window.ofs.toNat)) = true := by
    obtain h | h := h
    · simp [h]
    · rw [decide_eq_true (show stagingSize ≤ _ from h), Bool.or_true]
  have hexec : exec .recoveryStage s = .next (windowFail s 0x06) := by
    rw [show exec .recoveryStage s = execRecoveryStage s from rfl, execRecoveryStage]
    simp only [hfree, Bool.not_true, Bool.false_eq_true, if_false, hargs, if_true]
  exact ⟨_, hexec, rfl, rfl, rfl⟩

theorem exec_recoveryStageDone {s : State} (hb : s.module.window.busy = true) (hw : s.module.writing = none) :
    exec .recoveryStageDone s = .next (onModule s fun m => { m with window := { m.window with busy := false } }) := by
  rw [show exec .recoveryStageDone s = execRecoveryStageDone s from rfl, execRecoveryStageDone]
  simp only [hb, hw, Option.isNone_none, Bool.and_self, if_true, onWindow]

/-- RECOVERY_COMMIT follows the checks of its image. -/
theorem exec_recoveryCommit {s : State} (hfree : windowFree s = true) :
    exec .recoveryCommit s =
      .next (if imageCheck s s.module.window.len.toNat s.module.window.crc == 0 then
        startFlash (onWindow s fun w => { w with busy := true, fail := false, done := false }) s.module.window.len.toNat true
      else windowFail s (imageCheck s s.module.window.len.toNat s.module.window.crc)) := by
  rw [show exec .recoveryCommit s = execRecoveryCommit s from rfl, execRecoveryCommit]
  simp only [hfree, Bool.not_true, Bool.false_eq_true, if_false]

theorem exec_recoveryCommit_covered {s : State} {n : Nat} {im : List Byte} (hfree : windowFree s = true)
    (hn : n = s.module.window.len.toNat) (h0 : 0 < n) (hle : n ≤ 2 ^ 26)
    (hcov : covered s.module.staged n (s.module.staged.length + 1) 0 = true)
    (him : im = readBytes s.module.staging 0 n) (hcrc : crc32 im = s.module.window.crc) :
    ∃ t, exec .recoveryCommit s = .next t ∧
      (Config.imageSigned im = true → t.module.writing = some ⟨n, true⟩ ∧ t.module.window.busy = true ∧
        readBytes t.module.flash 0 n = im ∧ t.module.flashLen = n) ∧
      (Config.imageSigned im = false → t.module.writing = none ∧ t.module.window.err = 5 ∧
        t.module.window.fail = true) := by
  subst hn him
  have hexec := exec_recoveryCommit hfree
  rw [imageCheck_of_covered _ h0 hle hcov, hcrc, bne_self_eq_false, if_neg Bool.false_ne_true] at hexec
  obtain ⟨hw, -, -, hwindow, hflash, hfl⟩ := startFlash_spec (onWindow s fun w => { w with busy := true, fail := false, done := false })
    s.module.window.len.toNat true
  refine ⟨_, hexec, fun hsig => ?_, fun hsig => ?_⟩
  · rw [hsig, if_pos (by decide)]
    exact ⟨hw, by rw [hwindow]; rfl, hflash, hfl⟩
  · rw [hsig, if_neg (by decide)]
    exact ⟨not_writing_of_windowFree hfree, rfl, rfl⟩

theorem exec_recoveryCommit_failed {s : State} (hfree : windowFree s = true)
    (h : imageCheck s s.module.window.len.toNat s.module.window.crc ≠ 0) :
    ∃ t, exec .recoveryCommit s = .next t ∧ t.module.writing = none ∧ t.module.window.fail = true ∧
      t.module.window.err = imageCheck s s.module.window.len.toNat s.module.window.crc := by
  have hexec := exec_recoveryCommit hfree
  rw [if_neg (by simpa using h)] at hexec
  exact ⟨_, hexec, not_writing_of_windowFree hfree, rfl, rfl⟩

theorem firmwareAndRecovery : FirmwareAndRecovery := by
  unfold FirmwareAndRecovery
  exact ⟨fun s args => exec_fwStage, fun s args => exec_fwStage_refused,
    fun s args hin hb => ⟨exec_fwActivate_uncovered hin hb, exec_fwActivate_crc hin hb⟩,
    fun s args n im hin hb => exec_fwActivate_signed hin hb, fun s w => exec_flashWriteDone, fun s => exec_bootRomCheck,
    fun s ofs n => exec_recoveryStage, fun s => exec_recoveryStage_refused, fun s => exec_recoveryStageDone,
    fun s n im => exec_recoveryCommit_covered, fun s => exec_recoveryCommit_failed⟩

/-- Settles O4. -/
theorem mailboxAndFirmware : Obligations.MailboxAndFirmware := ⟨mailboxAnswersRequests, firmwareAndRecovery⟩

end Sys2Proof.Slice0

/-! PROOFS. A thermal trip, a fenced core and spare rows (01 R16, R20, R21, R112). -/

namespace Sys2Proof.Slice0
open Sys2Proof.Machine

/-! ### Halted cores stay halted -/

/-- Every core that is halted in `s` is halted in `t`. -/
structure HaltsStay (s t : State) : Prop where
  halted : ∀ c, (coreOf s c).halted = true → (coreOf t c).halted = true

namespace HaltsStay

theorem refl (s : State) : HaltsStay s s := ⟨fun _ h => h⟩

theorem trans {s t u : State} (h : HaltsStay s t) (h' : HaltsStay t u) : HaltsStay s u :=
  ⟨fun c hc => h'.halted c (h.halted c hc)⟩

theorem of_cores {s t : State} (h : t.cores = s.cores) : HaltsStay s t :=
  ⟨fun c hc => by simpa only [coreOf, h] using hc⟩

theorem of_eq {s t : State} (h : ∀ c, (coreOf t c).halted = (coreOf s c).halted) : HaltsStay s t :=
  ⟨fun c hc => (h c).trans hc⟩

theorem of_traceKept {s t : State} (h : TraceKept s t) : HaltsStay s t := .of_eq fun c => h.coreField (fun k => k.halted) (c := c)

theorem of_postKept {s t : State} (h : PostKept s t) : HaltsStay s t := .of_eq fun c => by
  have hc : (untraced (coreOf t c)).halted = (untraced (coreOf s c)).halted := congrArg (fun k => k.halted) (h.cores c)
  exact hc

theorem of_issueKept {s t : State} (h : IssueKept s t) : HaltsStay s t := .of_eq fun c => h.coreField (fun k => k.halted) (c := c)

theorem onCore (s : State) (c : Nat) {f : Core → Core} (hf : ∀ k, k.halted = true → (f k).halted = true) :
    HaltsStay s (onCore s c f) := by
  refine ⟨fun d hd => ?_⟩
  by_cases h : d = c
  · subst h
    rw [coreOf_onCore_self]
    exact hf _ hd
  · rwa [coreOf_onCore_ne _ _ h]

theorem onMe (s : State) (f : Stream → Stream) : HaltsStay s (onMe s f) := .of_issueKept (.onMe s f)

theorem foldl {α : Type} {f : State → α → State} (hf : ∀ s a, HaltsStay s (f s a)) (l : List α) (s : State) :
    HaltsStay s (l.foldl f s) := by
  induction l generalizing s with
  | nil => exact refl s
  | cons a l ih => exact (hf s a).trans (ih _)

theorem ite {p : Prop} [Decidable p] {s t u : State} (ht : HaltsStay s t) (hu : HaltsStay s u) :
    HaltsStay s (if p then t else u) := by
  split
  · exact ht
  · exact hu

theorem postItem (s : State) (ctx : Nat) (i : Item) : HaltsStay s (postItem s ctx i) := .of_postKept (.postItem s ctx i)

theorem trace (s : State) (core kind src payload : Nat) : HaltsStay s (trace s core kind src payload) :=
  .of_traceKept (.trace s core kind src payload)

theorem tlDone (s : State) (ctx key n : Nat) : HaltsStay s (tlDone s ctx key n) := .of_cores rfl

theorem onCtx (s : State) (ctx : Nat) (f : Ctx → Ctx) : HaltsStay s (onCtx s ctx f) := .of_cores rfl

theorem pulse (s : State) (core input : Nat) : HaltsStay s (pulse s core input) := onCore s core fun _ h => h

theorem pulseEnd (s : State) (core stream n : Nat) : HaltsStay s (pulseEnd s core stream n) :=
  (tlDone s _ _ n).trans (pulse _ _ _)

theorem pulseAll (s : State) (ctx input : Nat) (cores : List Nat) : HaltsStay s (pulseAll s ctx input cores) :=
  foldl (fun s c => ite (pulse s c input) (refl s)) cores s

/-! #### Exceptions -/

theorem haltCore (reason hseq : Nat) (s : State) (core : Nat) : HaltsStay s (haltCore reason hseq s core) :=
  ⟨fun c hc => by rw [halted_haltCore, hc, Bool.or_true]⟩

theorem haltOver (s : State) (ctx : Nat) (cores : List Nat) (core stream reason : Nat) (info : Word) :
    HaltsStay s (haltOver s ctx cores core stream reason info) :=
  (foldl (haltCore reason _) cores s).trans (of_cores rfl)

theorem recordStop (s : State) (core stream reason : Nat) (info pc : Word) :
    HaltsStay s (recordStop s core stream reason info pc) :=
  .of_eq (coreField_recordStop s core stream reason info pc (fun k => k.halted) fun _ _ _ => rfl)

theorem walkReport (s : State) (ctx source kind a n : Nat) : HaltsStay s (walkReport s ctx source kind a n) := by
  unfold Machine.walkReport
  split
  · exact ite (.of_cores rfl) (refl s)
  · exact refl s

theorem raiseIrq (s : State) (fn vec : Nat) : HaltsStay s (raiseIrq s fn vec) := .of_traceKept (traceKept_raiseIrq s fn vec)

/-- A store of the halt frame, or the report of its walk. -/
theorem storeOrReport (s : State) (ctx va : Nat) (bs : List Byte) (n : Nat) :
    HaltsStay s ((writeVirtual s ctx va bs).getD (Machine.walkReport s ctx 13 1 va n)) := by
  cases h : writeVirtual s ctx va bs with
  | none => exact walkReport s ctx 13 1 va n
  | some t => exact .of_traceKept (.of_writeSpace h)

theorem nestHalt (s : State) (ctx core reason : Nat) (info : Word) : HaltsStay s (nestHalt s ctx core reason info) := by
  have hdrop : HaltsStay s (Machine.onCore s core fun k => { k with handler := none }) := onCore s core fun _ h => h
  unfold Machine.nestHalt
  extract_lets refused u v w
  have hv : HaltsStay s v := hdrop.trans (storeOrReport u ctx _ _ 1)
  exact hv.trans ((of_cores rfl : HaltsStay v w).trans (raiseIrq _ _ _))

theorem takeException (s : State) (core stream reason : Nat) (info pc : Word) :
    HaltsStay s (takeException s core stream reason info pc) := by
  unfold Machine.takeException
  extract_lets ctx u
  have hstop : HaltsStay s u := recordStop s core stream reason info pc
  refine ite (nestHalt s ctx core reason info) ?_
  split
  · exact hstop.trans (haltOver _ _ _ _ _ _ _)
  · exact ite (ite (hstop.trans (.of_cores rfl)) hstop) ((hstop.trans (haltCore _ _ _ _)).trans (.of_cores rfl))

theorem dropHeads (s : State) : HaltsStay s (dropHeads s) :=
  (onCore s s.curCore (f := fun k => dropWalked k s.curStream) fun _ h => h).trans (onMe _ _)

theorem takeTrap (s : State) (reason : Nat) (info : Option Word) : HaltsStay s (takeTrap s reason info) := by
  cases info with
  | some i => exact takeException s _ _ _ _ _
  | none => exact (.of_cores rfl : HaltsStay s (drawWord s).2).trans (takeException _ _ _ _ _ _)

theorem trapEvent (s : State) (reason : Nat) (info : Option Word) : HaltsStay s (trapState s (.event reason info)) :=
  (dropHeads s).trans (takeTrap (Machine.dropHeads s) reason info)

theorem asStream {s : State} {f : State → State} (core stream : Nat)
    (hf : HaltsStay { s with curCore := core, curStream := stream } (f { s with curCore := core, curStream := stream })) :
    HaltsStay s (asStream s core stream f) := ⟨fun c hc => hf.halted c hc⟩

/-! #### Decisions of a Geyser -/

theorem retire (s : State) (core stream : Nat) (dst : BitVec 8) (v : Word) : HaltsStay s (retire s core stream dst v) := by
  have h : ∀ u : State, HaltsStay u (Machine.asStream u core stream fun s =>
      finish (Machine.onMe s fun st => putReg st dst v) 8 none) := fun u =>
    asStream core stream ((onMe _ _).trans (.of_issueKept (.finish _ 8 none)))
  exact ⟨fun c hc => (h { s with guard := { s.guard with pulse := (streamFile s core stream).pulse } }).halted c hc⟩

theorem reply (s : State) (tower : Nat) (c : GeyCmd) (code count : Nat) : HaltsStay s (reply s tower c code count) := by
  unfold Machine.reply
  split
  · next core stream _ =>
    refine ite (refl s) (ite (retire _ _ _ _ _) (ite (retire _ _ _ _ _) (ite (retire _ _ _ _ _) (asStream core stream ?_))))
    exact (onMe _ _).trans (trapEvent _ _ _)
  · exact ite (postItem _ _ _) (refl s)

theorem decided (s : State) (t : Nat) (c : GeyCmd) (code count : Nat) : HaltsStay s (decided s t c code count) :=
  ((reply s t c code count).trans (tlDone _ _ _ _)).trans (pulseAll _ _ _ _)

end HaltsStay

/-! ### A context at Trip (R16) -/

namespace HaltsStay

theorem appendReplies (s : State) (core : Nat) (l : List Reply) : HaltsStay s (appendReplies s core l).1 := by
  induction l generalizing s with
  | nil => exact refl s
  | cons e l ih =>
    unfold Machine.appendReplies
    split
    · exact refl s
    · have happend : HaltsStay s (Machine.onCore s core fun k => { k with replies := k.replies ++ [e] }) :=
        onCore s core fun _ h => h
      exact (happend.trans (pulse _ _ _)).trans (ih _)

theorem tripGeyser (t : Nat) (s : State) (c : GeyCmd) : HaltsStay s (tripGeyser t s c) :=
  ite (.of_cores rfl) ((.of_cores rfl : HaltsStay s (drawWord s).2).trans (decided _ _ _ _ _))

theorem tripGrammar (t : Nat) (s : State) (c : GramCmd) : HaltsStay s (tripGrammar t s c) := by
  unfold Machine.tripGrammar
  extract_lets u
  have hfault : HaltsStay s u := postItem s _ _
  split
  · exact ite (hfault.trans (appendReplies _ _ _)) hfault
  · exact hfault

theorem tripTower (ctx : Nat) (s : State) (t : Nat) : HaltsStay s (tripTower ctx s t) :=
  ((.of_cores rfl : HaltsStay s (onTower s t fun w => { w with
    commands := w.commands.filter (·.ctx != ctx), gram := w.gram.filter (·.ctx != ctx) })).trans
    (foldl (tripGeyser t) _ _)).trans (foldl (tripGrammar t) _ _)

theorem abortCopies (core ctx : Nat) (l : List CopyCmd) (s : State) : HaltsStay s (abortCopies s core ctx l) := by
  induction l generalizing s with
  | nil => exact onCore s core fun _ h => h
  | cons c l ih =>
    unfold Machine.abortCopies
    refine ite (ih s) (.trans ?_ (ih _))
    refine .trans ?_ ((postItem _ _ _).trans (.of_cores rfl))
    split
    · exact trace _ _ _ _ _
    · exact refl s

theorem failLoads (s : State) (core : Nat) : HaltsStay s (failLoads s core) :=
  foldl (fun s _ => foldl (fun s m => pulseEnd s core _ m) _ s) _ s

theorem reportRegions (ctx i unit reason core : Nat) (s : State) (e : Nat × Stream) :
    HaltsStay s (reportRegions ctx i unit reason core s e) := by
  have hpulse : HaltsStay s (failPulse ctx core s e).2 := by
    unfold failPulse
    split <;> exact .of_cores rfl
  exact ite hpulse (hpulse.trans (postItem _ _ _))

theorem failNest (ctx i unit reason core : Nat) (s : State) (e : Nat × Engine) :
    HaltsStay s (failNest ctx i unit reason core s e) := by
  unfold Machine.failNest
  split
  · exact refl s
  · exact (postItem _ _ _).trans (.of_cores rfl)

theorem tripCore (ctx : Nat) (s : State) (core : Nat) : HaltsStay s (tripCore ctx s core) := by
  have hcopies := abortCopies core ctx (coreOf s core).copies s
  refine ite hcopies ((hcopies.trans ?_).trans (onCore _ core fun _ h => h))
  exact ((failLoads _ core).trans (foldl (reportRegions _ _ _ _ _) _ _)).trans (foldl (failNest _ _ _ _ _) _ _)

theorem abortSaved (s : State) (ctx i unit reason : Nat) : HaltsStay s (abortSaved s ctx i unit reason) := by
  unfold Machine.abortSaved
  extract_lets mine u
  have hcopies : HaltsStay s u := foldl (fun s (core, c) =>
    (postItem s ctx ⟨0xA3, 7, core, i, unit, 7, c.number, 0, copiedBytes c⟩).trans (tlDone _ ctx (tlKey 7 core) c.number)) _ s
  refine hcopies.trans (foldl (fun s l => ?_) mine u)
  exact (foldl (failNest ctx i unit reason l.core) l.saved.engines s).trans
    (foldl (reportRegions ctx i unit reason l.core) l.saved.streams _)

theorem tripSlots (ctx : Nat) (s : State) : HaltsStay s (tripSlots ctx s) := by
  unfold Machine.tripSlots
  extract_lets u
  have hrecord : ∀ (s : State) (r : Nat × Record), HaltsStay s (Machine.abortSaved s ctx r.1 r.2.unit 0x16) :=
    fun s r => abortSaved s ctx r.1 r.2.unit 0x16
  have hsaved : HaltsStay s u := foldl hrecord (ctxOf s ctx).records s
  exact hsaved.trans (onCtx u ctx _)

theorem tripWindow (ctx : Nat) (s : State) : HaltsStay s (tripWindow ctx s) := by
  unfold Machine.tripWindow
  split
  · exact refl s
  · exact ite (.of_cores rfl) (.of_cores rfl)

end HaltsStay

/-- A core that runs a slice of a context has its handler taken from it. -/
def unhandled (ctx : Nat) (k : Core) : Core := if k.slice.map (·.ctx) == some ctx then { k with handler := none } else k

/-- The state in which no core of a context runs a handler. -/
def handlersGone (ctx : Nat) (s : State) : State := { s with cores := s.cores.map fun (n, k) => (n, unhandled ctx k) }

theorem coreOf_handlersGone (ctx : Nat) (s : State) (c : Nat) : coreOf (handlersGone ctx s) c = unhandled ctx (coreOf s c) := by
  have h := look_map_values ({} : Core) (unhandled ctx) rfl s.cores c
  exact h

theorem coresOf_handlersGone (ctx : Nat) (s : State) : coresOf (handlersGone ctx s) ctx = coresOf s ctx := by
  have hslice : ∀ c, (coreOf (handlersGone ctx s) c).slice = (coreOf s c).slice := fun c => by
    rw [coreOf_handlersGone, unhandled]
    split <;> rfl
  simp only [coresOf, hslice]

/-- The cores of a context that trips are halted, whatever it then reports. -/
theorem halted_tripContext {s : State} {ctx c : Nat} (hc : c ∈ coresOf s ctx) :
    (coreOf (tripContext s ctx) c).halted = true := by
  obtain ⟨d, ds, hds⟩ : ∃ d ds, coresOf s ctx = d :: ds := List.exists_cons_of_ne_nil (List.ne_nil_of_mem hc)
  have hhalt : (coreOf (startHalt (handlersGone ctx s) ctx d 0 0x16 0) c).halted = true := by
    have hscope : scopeOf (handlersGone ctx s) ctx d 0x16 = coresOf s ctx := coresOf_handlersGone ctx s
    have hfold := halted_foldl 0x16 ((ctxOf (handlersGone ctx s) ctx).hseq + 1) (coresOf s ctx) (handlersGone ctx s) c
    rw [startHalt, hscope]
    rw [decide_eq_true hc, Bool.true_or] at hfold
    exact hfold
  have hafter : ∀ u, HaltsStay u (tripWindow ctx ((List.range Config.towers).foldl (tripTower ctx) (tripSlots ctx
      ((List.range Config.cores).foldl (tripCore ctx) (failFlight ctx u))))) := fun u =>
    ((((.of_cores rfl : HaltsStay u (failFlight ctx u)).trans (.foldl (.tripCore ctx) _ _)).trans (.tripSlots ctx _)).trans
      (.foldl (.tripTower ctx) _ _)).trans (.tripWindow ctx _)
  have htrip : tripContext s ctx = tripWindow ctx ((List.range Config.towers).foldl (tripTower ctx) (tripSlots ctx
      ((List.range Config.cores).foldl (tripCore ctx) (failFlight ctx (startHalt (handlersGone ctx s) ctx d 0 0x16 0))))) := by
    have hcores := coresOf_handlersGone ctx s
    rw [hds] at hcores
    show tripWindow ctx ((List.range Config.towers).foldl (tripTower ctx) (tripSlots ctx
      ((List.range Config.cores).foldl (tripCore ctx) (failFlight ctx (match coresOf (handlersGone ctx s) ctx with
        | [] => handlersGone ctx s
        | c :: _ => startHalt (handlersGone ctx s) ctx c 0 0x16 0))))) = _
    rw [hcores]
  rw [htrip]
  exact (hafter _).halted c hhalt


theorem exec_thermalTrip {s : State} (hin : s.module.input = true) (htrip : s.module.tripped = false)
    (h : (0 < s.module.step ∧ s.module.coolant = false) ∨ atLeast (hottest s) 120 = true) :
    exec .thermalTrip s = .next ((List.range Config.contexts).foldl tripContext
      (logEvent (onModule s fun m => { m with tripped := true }) 0x0002 0)) := by
  have htrigger : tripTrigger s = true := by
    obtain ⟨hstep, hcool⟩ | hhot := h
    · simp [tripTrigger, hstep, hcool]
    · simp [tripTrigger, hhot]
  have hdue : tripDue s = true := by simp only [tripDue, hin, htrip, htrigger, Bool.or_true, Bool.not_false, Bool.and_self]
  rw [show exec .thermalTrip s = execThermalTrip s from rfl, execThermalTrip, if_pos hdue]

/-! ### A fenced core (R20, R112) -/

theorem getLsbD_coreBit {core c : Nat} (hc : c < 128) : (BitVec.ofNat 128 (2 ^ core)).getLsbD c = decide (core = c) := by
  rw [BitVec.getLsbD_ofNat, Nat.testBit_two_pow, decide_eq_true hc, Bool.true_and]

/-- A core is live when its bit is. -/
theorem coreLive_eq (s : State) (c : Nat) : coreLive s c = (decide (c < 128) && s.module.live.getLsbD c) := by
  rw [coreLive, flag_eq_getLsbD]

/-- The module when a core has been fenced, up to what REPLACE_REQUESTED and the log change. -/
theorem fenceNow_spec (s : State) (core : Nat) :
    (fenceNow s core).module.live = s.module.live &&& ~~~ BitVec.ofNat 128 (2 ^ core) ∧
      (fenceNow s core).module.epoch = s.module.epoch + 1 ∧ (fenceNow s core).cores = s.cores := by
  let u := newEpoch (onModule s fun m => { m with
    live := m.live &&& ~~~ BitVec.ofNat 128 (2 ^ core), fencing := m.fencing &&& ~~~ BitVec.ofNat 128 (2 ^ core) })
  obtain ⟨r, n, l, k, i, p, hrep⟩ := checkReplace_eq (logEvent u 0x0006 core)
  obtain ⟨l', n', hlog, -⟩ := logEvent_module u 0x0006 core
  rw [show fenceNow s core = checkReplace (logEvent u 0x0006 core) from rfl, hrep, hlog]
  exact ⟨rfl, rfl, rfl⟩

theorem exec_coreFence_idle {s : State} {core : Nat} (hlive : coreLive s core = true) (hslice : (coreOf s core).slice = none) :
    ∃ t, exec (.coreFence core) s = .next t ∧ coreLive t core = false ∧
      (∀ c, c ≠ core → coreLive t c = coreLive s c) ∧ t.module.epoch = s.module.epoch + 1 ∧ t.cores = s.cores := by
  have hexec : exec (.coreFence core) s = .next (fenceNow s core) := by
    rw [show exec (.coreFence core) s = execCoreFence core s from rfl, execCoreFence]
    simp only [hlive, hslice, Bool.not_true, Option.isSome_none, Bool.false_eq_true, if_false]
  obtain ⟨hl, hepoch, hcores⟩ := fenceNow_spec s core
  have hbit : ∀ c, coreLive (fenceNow s core) c = (coreLive s c && decide (core ≠ c)) := by
    intro c
    rw [coreLive_eq, coreLive_eq, hl]
    by_cases hc : c < 128
    · rw [BitVec.getLsbD_and, BitVec.getLsbD_not, getLsbD_coreBit hc, decide_eq_true hc, decide_not, Bool.true_and,
        Bool.true_and, Bool.true_and]
    · simp [hc]
  refine ⟨_, hexec, by rw [hbit]; simp, fun c hc => ?_, hepoch, hcores⟩
  rw [hbit, decide_eq_true (Ne.symm hc), Bool.and_true]

theorem exec_coreFence_busy {s : State} {core : Nat} (hlive : coreLive s core = true)
    (hslice : (coreOf s core).slice.isSome = true) :
    ∃ t, exec (.coreFence core) s = .next t ∧ fenceMarked t core = true ∧ t.module.live = s.module.live := by
  have hexec : exec (.coreFence core) s = .next (onModule s fun m =>
      { m with fencing := m.fencing ||| BitVec.ofNat 128 (2 ^ core) }) := by
    rw [show exec (.coreFence core) s = execCoreFence core s from rfl, execCoreFence]
    simp only [hlive, hslice, Bool.not_true, Bool.false_eq_true, if_false, if_true]
  have hcore : core < 128 := by
    rw [coreLive_eq, Bool.and_eq_true, decide_eq_true_eq] at hlive
    exact hlive.1
  refine ⟨_, hexec, ?_, rfl⟩
  rw [fenceMarked, flag_eq_getLsbD, onModule_module, BitVec.getLsbD_or, getLsbD_coreBit hcore, decide_eq_true rfl,
    Bool.or_true]

/-! ### Spare rows (R21) -/

/-- A spare row of a bank is used. -/
def spareUsed (s : State) (b : Nat) : State := onModule s fun m => { m with sparesOf := put m.sparesOf b (sparesOf s b - 1) }

theorem spareUsed_kept (s : State) (b : Nat) :
    let t := checkReplace (if spareMin (spareUsed s b) == spareMin s then spareUsed s b else newEpoch (spareUsed s b))
    t.module.sparesOf = (spareUsed s b).module.sparesOf ∧ t.module.spares = s.module.spares ∧
      t.module.live = s.module.live := by
  intro t
  obtain ⟨r, n, l, k, i, p, hrep⟩ := checkReplace_eq
    (if spareMin (spareUsed s b) == spareMin s then spareUsed s b else newEpoch (spareUsed s b))
  rw [show t = _ from hrep]
  split <;> exact ⟨rfl, rfl, rfl⟩

theorem exec_sramRowSparing {s : State} {core bank : Nat} (hcore : core < 128) (hbank : bank < 64)
    (hspare : 0 < sparesOf s (64 * core + bank)) :
    ∃ t, exec (.sramRowSparing core bank) s = .next t ∧
      sparesOf t (64 * core + bank) = sparesOf s (64 * core + bank) - 1 ∧
      (∀ b, b ≠ 64 * core + bank → sparesOf t b = sparesOf s b) ∧ t.module.live = s.module.live := by
  have hargs : (decide (128 ≤ core) || decide (64 ≤ bank) || sparesOf s (64 * core + bank) == 0) = false := by
    rw [decide_eq_false (Nat.not_le.2 hcore), decide_eq_false (Nat.not_le.2 hbank), beq_eq_false_iff_ne.2 hspare.ne']
    rfl
  have hexec : exec (.sramRowSparing core bank) s = .next (checkReplace
      (if spareMin (spareUsed s (64 * core + bank)) == spareMin s then spareUsed s (64 * core + bank)
        else newEpoch (spareUsed s (64 * core + bank)))) := by
    rw [show exec (.sramRowSparing core bank) s = execSramRowSparing core bank s from rfl, execSramRowSparing]
    simp only [hargs, Bool.false_eq_true, if_false]
    rfl
  obtain ⟨hof, hspares, hlive⟩ := spareUsed_kept s (64 * core + bank)
  have hsparesOf : ∀ b, sparesOf (checkReplace
      (if spareMin (spareUsed s (64 * core + bank)) == spareMin s then spareUsed s (64 * core + bank)
        else newEpoch (spareUsed s (64 * core + bank)))) b =
      look s.module.spares (put s.module.sparesOf (64 * core + bank) (sparesOf s (64 * core + bank) - 1)) b := fun b => by
    rw [sparesOf, hspares, hof]
    rfl
  refine ⟨_, hexec, ?_, fun b hb => ?_, hlive⟩
  · rw [hsparesOf, look_put_self]
  · rw [hsparesOf, look_put_ne _ _ _ hb]
    rfl

/-- Settles O2. -/
theorem tripFenceAndSparing : Obligations.TripFenceAndSparing := by
  unfold Obligations.TripFenceAndSparing
  exact ⟨fun s => exec_thermalTrip, fun s ctx c => halted_tripContext, fun s core => exec_coreFence_idle,
    fun s core => exec_coreFence_busy, fun s core bank => exec_sramRowSparing⟩

end Sys2Proof.Slice0

/-! PROOFS. Flits taken in sequence, acknowledged and refused (02 R33-R36, R38). -/

namespace Sys2Proof.Slice0
open Sys2Proof.Machine

/-! ### What sending a flit leaves of a port -/

/-- What the receiver's side of a port holds is the same in both: what it has delivered, what it expects, what it
answers, the peer's stripe, the paused lanes and the counts of corrected symbols. -/
structure ReceiverKept (p q : Port) : Prop where
  delivered : q.delivered = p.delivered
  expect : q.expect = p.expect
  control : q.control = p.control
  peerWidth : q.peerWidth = p.peerWidth
  peerLanes : q.peerLanes = p.peerLanes
  paused : q.paused = p.paused
  fecc : q.fecc = p.fecc

namespace ReceiverKept

theorem refl (p : Port) : ReceiverKept p p := ⟨rfl, rfl, rfl, rfl, rfl, rfl, rfl⟩

theorem trans {p q r : Port} (h : ReceiverKept p q) (h' : ReceiverKept q r) : ReceiverKept p r :=
  ⟨h'.delivered.trans h.delivered, h'.expect.trans h.expect, h'.control.trans h.control, h'.peerWidth.trans h.peerWidth,
    h'.peerLanes.trans h.peerLanes, h'.paused.trans h.paused, h'.fecc.trans h.fecc⟩

theorem sendFlit (p : Port) (f : Flit) : ReceiverKept p (sendFlit p f) := by
  simp only [Machine.sendFlit]
  split <;> exact ⟨rfl, rfl, rfl, rfl, rfl, rfl, rfl⟩

theorem settleDown (now : Nat) (p : Port) : ReceiverKept p (settleDown now p) := ⟨rfl, rfl, rfl, rfl, rfl, rfl, rfl⟩

theorem pump (p : Port) : ReceiverKept p (pump p) := by
  have hfold : ∀ (l : List Flit) (q : Port), ReceiverKept q (l.foldl (fun p f => Machine.sendFlit p f) q) := by
    intro l
    induction l with
    | nil => exact refl
    | cons f l ih => exact fun q => (sendFlit q f).trans (ih _)
  have hempty : ReceiverKept p { p with queue := [] } := ⟨rfl, rfl, rfl, rfl, rfl, rfl, rfl⟩
  exact hempty.trans (hfold p.queue { p with queue := [] })

theorem takeAck (p : Port) (f : Flit) : ReceiverKept p (takeAck p f) := by
  unfold Machine.takeAck
  extract_lets rest moved credit
  exact (⟨rfl, rfl, rfl, rfl, rfl, rfl, rfl⟩ : ReceiverKept p { p with
    unacked := rest
    replays := if moved then 0 else p.replays
    retrained := p.retrained && !moved
    window := Nat.min 128 (p.window + if flag f.spec.toNat 16 then 0 else credit)
    window1 := Nat.min 16 (p.window1 + if flag f.spec.toNat 16 then credit else 0) }).trans (pump _)

theorem restripe (now level : Nat) (p : Port) : ReceiverKept p (restripe now level p) := by
  unfold Machine.restripe
  extract_lets t q
  split
  · exact refl p
  · have hqueue : ReceiverKept p { p with queue := p.queue.filter fun f => f.type != 2 } := ⟨rfl, rfl, rfl, rfl, rfl, rfl, rfl⟩
    have hsent : ReceiverKept p q := hqueue.trans (sendFlit _ _)
    refine hsent.trans (.trans ?_ (settleDown _ _))
    split
    · exact ⟨rfl, rfl, rfl, rfl, rfl, rfl, rfl⟩
    · exact refl q

end ReceiverKept

/-! ### A flit received (R35) -/

/-- What a receiver holds when it has accepted a flit. -/
theorem receive_accepted {p : Port} {f : Flit} (h : flitOk p (some f) = true) :
    (receive p (some f)).delivered = p.delivered ++ (if f.type == 1 then [f] else []) ∧
      (receive p (some f)).expect = p.expect + 1 ∧ (receive p (some f)).paused = p.paused ∧
      (receive p (some f)).fecc = p.fecc := by
  have hrec : receive p (some f) = accepted p f := by simp only [receive, h, if_true]
  have hack := ReceiverKept.takeAck { p with expect := p.expect + 1 } f
  rw [hrec]
  exact ⟨congrArg (· ++ _) hack.delivered, hack.expect, hack.paused, hack.fecc⟩

/-- A flit that is not accepted is answered with one NAK. -/
theorem receive_refused {p : Port} {x : Option Flit} (h : flitOk p x = false) :
    receive p x = { p with control := p.control ++ [ownFlit p 4 true 0] } := by
  cases x with
  | none => rfl
  | some f => simp only [receive, h, Bool.false_eq_true, if_false]

theorem receive_fecc (p : Port) (x : Option Flit) : (receive p x).fecc = p.fecc := by
  cases h : flitOk p x with
  | false => rw [receive_refused h]
  | true =>
    cases x with
    | none => exact absurd h (by simp [flitOk])
    | some f => exact (receive_accepted h).2.2.2

theorem flitOk_countErrors (p : Port) (r : Received) (x : Option Flit) : flitOk (countErrors p r) x = flitOk p x := rfl

/-! ### A flit time at a port -/

/-- What a flit time leaves at its port. -/
theorem portOf_flitEvent (s : State) {port : Nat} (hp : port < 64) (r : Received) (f : Port → Option Flit → Port) :
    ∃ t, flitEvent s port r f = .next t ∧
      portOf t port = portSettled s.mtime (f (countErrors (portOf s port) r) (received (portOf s port) r)) := by
  refine ⟨onPort (onPort s port fun p => f (countErrors p r) (received p r)) port (settleDown s.mtime), ?_, ?_⟩
  · rw [flitEvent, portEvent, if_pos hp]
  · rw [portOf_onPort_self, portOf_onPort_self]

theorem ofType_some {n : Nat} {f : Flit} (h : f.type = BitVec.ofNat 4 n) (hn : n < 16) (g : Port → Flit → Port) (p : Port) :
    ofType n g p (some f) = g p f := by
  have htype : f.type.toNat = n := by rw [h, BitVec.toNat_ofNat, Nat.mod_eq_of_lt hn]
  simp only [ofType, htype, beq_self_eq_true, if_true]

/-- A DATA event takes the flit as any receiver does, unless another row of the table takes it. -/
def takeData (p : Port) (x : Option Flit) : Port :=
  if flitOk p x && x.any (fun f => [2, 3, 4, 6].contains f.type.toNat) then p else receive p x

theorem exec_data (s : State) {port : Nat} (hp : port < 64) (r : Received) :
    ∃ t, exec (.data port r) s = .next t ∧
      portOf t port = portSettled s.mtime (takeData (countErrors (portOf s port) r) (received (portOf s port) r)) :=
  portOf_flitEvent s hp r takeData

theorem takeData_of_data {p : Port} {f : Flit} (h : f.type = 1) : takeData p (some f) = receive p (some f) := by
  simp [takeData, h]

theorem takeData_of_refused {p : Port} {x : Option Flit} (h : flitOk p x = false) : takeData p x = receive p x := by
  simp only [takeData, h, Bool.false_and, Bool.false_eq_true, if_false]

theorem takeData_fecc (p : Port) (x : Option Flit) : (takeData p x).fecc = p.fecc := by
  rw [takeData]
  split
  · rfl
  · exact receive_fecc p x

/-- One lane's corrected symbols are added to its count, which saturates. -/
theorem fecc_countErrors (p : Port) {r : Received} {n k : Nat} (hn : n < 8) (hk : k ≤ 15) (hr : r.errors = [(n, k)]) :
    (look 0 (countErrors p r).fecc n).toNat = Nat.min (2 ^ 32 - 1) ((look 0 p.fecc n).toNat + k) := by
  have hone : (r.errors.filter fun e => e.1 < 8 && e.2 ≤ 15) = [(n, k)] := by
    rw [hr, List.filter_cons_of_pos (by rw [decide_eq_true hn, decide_eq_true hk]; rfl), List.filter_nil]
  rw [countErrors, hone, List.foldl_cons, List.foldl_nil]
  simp only [adjust]
  rw [look_put_self, BitVec.toNat_ofNat]
  exact Nat.mod_eq_of_lt (Nat.lt_of_le_of_lt (Nat.min_le_left _ _) (by decide))

/-- Settles O6, row by row. -/
theorem flitsTakenInSequence : Obligations.FlitsTakenInSequence := by
  unfold Obligations.FlitsTakenInSequence
  refine ⟨?data, ?refused, ?marker, ?pause, ?ack, ?nak, ?fecc, ?down⟩
  case data =>
    intro s port r f hp hf htype hok
    obtain ⟨t, hexec, ht⟩ := exec_data s hp r
    obtain ⟨hdel, hexp, -, -⟩ := receive_accepted (p := countErrors (portOf s port) r) hok
    have hkept := ReceiverKept.settleDown s.mtime (receive (countErrors (portOf s port) r) (some f))
    rw [hf, takeData_of_data htype] at ht
    refine ⟨t, hexec, ?_, ?_⟩
    · rw [ht, hkept.delivered, hdel, htype]
      rfl
    · rw [ht, hkept.expect, hexp]
      rfl
  case refused =>
    intro s port r hp hbad
    obtain ⟨t, hexec, ht⟩ := exec_data s hp r
    have hbad' : flitOk (countErrors (portOf s port) r) (received (portOf s port) r) = false := hbad
    rw [takeData_of_refused hbad', receive_refused hbad'] at ht
    exact ⟨t, hexec, by rw [ht]; rfl, by rw [ht]; rfl, by rw [ht]; rfl⟩
  case marker =>
    intro s port r f hp hf htype hok
    obtain ⟨t, hexec, ht⟩ := portOf_flitEvent s hp r (ofType 2 fun p f =>
      if flitOk p (some f) then
        { receive p (some f) with peerWidth := (markerStripe f).1, peerLanes := (markerStripe f).2 }
      else receive p (some f))
    obtain ⟨-, hexp, -, -⟩ := receive_accepted (p := countErrors (portOf s port) r) hok
    rw [hf, ofType_some htype (by decide), flitOk_countErrors, if_pos hok] at ht
    refine ⟨t, hexec, by rw [ht]; rfl, by rw [ht]; rfl, ?_⟩
    rw [ht]
    exact hexp
  case pause =>
    intro s port r f hp hf htype hok
    obtain ⟨t, hexec, ht⟩ := portOf_flitEvent s hp r (ofType 6 fun p f =>
      if flitOk p (some f) then
        restripe s.mtime s.module.level { receive p (some f) with paused := p.paused ||| (markerStripe f).2 }
      else receive p (some f))
    obtain ⟨-, hexp, -, -⟩ := receive_accepted (p := countErrors (portOf s port) r) hok
    rw [hf, ofType_some htype (by decide), flitOk_countErrors, if_pos hok] at ht
    have hkept : ReceiverKept { receive (countErrors (portOf s port) r) (some f) with
        paused := (countErrors (portOf s port) r).paused ||| (markerStripe f).2 } (portOf t port) := by
      rw [ht]
      exact (ReceiverKept.restripe _ _ _).trans (.settleDown _ _)
    exact ⟨t, hexec, hkept.expect.trans hexp, hkept.paused⟩
  case ack =>
    intro s port r f hp hf htype
    obtain ⟨t, hexec, ht⟩ := portOf_flitEvent s hp r (ofType 3 takeAck)
    rw [hf, ofType_some htype (by decide)] at ht
    exact ⟨t, hexec, ht⟩
  case nak =>
    intro s port r f hp hf htype
    obtain ⟨t, hexec, ht⟩ := portOf_flitEvent s hp r (ofType 4 (replay s.mtime))
    rw [hf, ofType_some htype (by decide)] at ht
    exact ⟨t, hexec, ht⟩
  case fecc =>
    intro s port n k r hp hn hk hr
    obtain ⟨t, hexec, ht⟩ := exec_data s hp r
    refine ⟨t, hexec, ?_⟩
    rw [ht, (ReceiverKept.settleDown s.mtime _).fecc, takeData_fecc]
    exact fecc_countErrors (portOf s port) hn hk hr
  case down =>
    intro s port hp hdown
    have hdue : (decide (64 ≤ port) || !downLong s port) = false := by
      rw [decide_eq_false (Nat.not_le.2 hp), hdown]
      rfl
    rw [show exec (.portDownTimeout port) s = execPortDownTimeout port s from rfl, execPortDownTimeout, hdue,
      if_neg Bool.false_ne_true]
    rfl

end Sys2Proof.Slice0

/-! PROOFS. Groups that form and end, and the collective operations of a member alone on its module (02 R40-R46). -/

namespace Sys2Proof.Slice0
open Sys2Proof.Machine

/-! ### A member alone on its module -/

/-- Of members all of whom but one are elsewhere, one position is on this module. -/
theorem filter_zipIdx_alone {a x : Nat} {ms : List (Nat × Nat)} (n : Nat) (hnd : ms.Nodup) (hmem : (a, x) ∈ ms)
    (hall : ∀ m ∈ ms, m.1 = a → m.2 = x) :
    (ms.zipIdx n).filter (fun m => m.1.1 == a) = [((a, x), n + ms.findIdx (· == (a, x)))] := by
  induction ms generalizing n with
  | nil => exact absurd hmem (by simp)
  | cons m ms ih =>
    rw [List.nodup_cons] at hnd
    by_cases hm : m = (a, x)
    · subst hm
      have hrest : (ms.zipIdx (n + 1)).filter (fun m => m.1.1 == a) = [] := by
        rw [List.filter_eq_nil_iff]
        intro e he hea
        have hin : e.1 ∈ ms := List.fst_mem_of_mem_zipIdx he
        have ha : e.1.1 = a := by simpa using hea
        have hx : e.1.2 = x := hall e.1 (List.mem_cons_of_mem _ hin) ha
        exact hnd.1 (by rw [← ha, ← hx]; exact hin)
      rw [List.zipIdx_cons, List.filter_cons_of_pos (by simp), hrest]
      simp [List.findIdx_cons]
    · have hne : m.1 ≠ a := fun h => hm (Prod.ext h (hall m List.mem_cons_self h))
      have hin : (a, x) ∈ ms := (List.mem_cons.1 hmem).resolve_left fun h => hm h.symm
      rw [List.zipIdx_cons, List.filter_cons_of_neg (by simpa using hne),
        ih (n + 1) hnd.2 hin fun m h => hall m (List.mem_cons_of_mem _ h), List.findIdx_cons]
      rw [beq_eq_false_iff_ne.2 hm, cond_false, Nat.add_assoc, Nat.add_comm 1]

/-- Its operation waits for no other member of this module. -/
theorem parties_of_alone {s : State} {ctx : Nat} {ms : List (Nat × Nat)} (h : aloneHere s ctx ms) (tower : Nat) (c : ColCmd)
    (f : Nat → ColCmd → Bool) :
    parties s ms ⟨ownMember s ctx ms, ctx, tower, c⟩ f = some [⟨ownMember s ctx ms, ctx, tower, c⟩] := by
  obtain ⟨hnd, hmem, hall⟩ := h
  have hfilter := filter_zipIdx_alone 0 hnd hmem hall
  rw [Nat.zero_add] at hfilter
  simp only [parties, ownMember, hfilter, List.map_cons, List.map_nil, beq_self_eq_true, if_true, List.any_cons,
    List.any_nil, Option.isNone_some, Bool.or_self, Bool.false_eq_true, if_false]
  rfl

theorem colRun_of_head {s : State} {ctx tower op : Nat} {c : ColCmd} (hctx : ctx < Config.contexts)
    (hc : colHead s ctx tower = some c) (hop : colOp c.image = op) (f : ColCmd → State) :
    colRun s ctx tower op f = .next (f c) := by
  simp only [colRun, if_neg (Nat.not_le.2 hctx), hc, hop, beq_self_eq_true, if_true]

/-! ### FORM (R40, R41) -/

theorem colsOf_onCols (s : State) (ctx tower : Nat) (f : List ColCmd → List ColCmd) :
    colsOf (onCols s ctx tower f) ctx tower = f (colsOf s ctx tower) := by
  rw [colsOf, onCols, ctxOf_onCtx_self]
  exact look_put_self _ _ _ _

/-- An ended operation has a result, and its context's groups stand as before. -/
theorem colEnd_ended {s : State} (ctx tower number : Nat) {status : Nat} (h : status ≠ 0x52) :
    (ctxOf (colEnd s ctx tower number status) ctx).groups = (ctxOf s ctx).groups ∧
      (colEnd s ctx tower number status).mem = s.mem ∧
      ∀ x ∈ colsOf (colEnd s ctx tower number status) ctx tower, x.number = number → x.result.isSome = true := by
  rw [colEnd, beq_eq_false_iff_ne.2 h, if_neg Bool.false_ne_true]
  refine ⟨by rw [onCols, ctxOf_onCtx_self], rfl, fun x hx hn => ?_⟩
  rw [colsOf_onCols, List.mem_map] at hx
  obtain ⟨y, -, rfl⟩ := hx
  cases hres : y.result with
  | some r => simp [hres]
  | none =>
    have hy : y.number = number := by
      by_contra hne
      simp [hne] at hn
    simp [hy]

theorem exec_form {s : State} {ctx tower : Nat} {peers cs : List Contribution} {c : ColCmd} {tab : List Byte}
    {ms : List (Nat × Nat)} (hctx : ctx < Config.contexts) (hc : colHead s ctx tower = some c) (hop : colOp c.image = 1)
    (hw : virtualWaits s ctx 0 (colSrc c.image) (8 * colCount c.image) = false)
    (htab : formTable s ctx c.image = some (tab, ms)) (halone : aloneHere s ctx ms)
    (hcs : contributions s ms peers = some cs) (hreach : ∀ m ∈ ms, reachable s m.1 = true)
    (hagree : ∀ p ∈ cs, colOp p.command = 1 ∧ p.data = tab) :
    exec (.form ctx tower peers) s = .next (colEnd (formGroup ⟨ms, [(ctx, colGroup c.image)], false⟩ s
      ⟨ownMember s ctx ms, ctx, tower, c⟩) ctx tower c.number 0) := by
  have hall : (ms.all (fun m => reachable s m.1) && cs.all fun p => colOp p.command == 1 && p.data == tab) = true := by
    rw [Bool.and_eq_true, List.all_eq_true, List.all_eq_true]
    refine ⟨hreach, fun p hp => ?_⟩
    obtain ⟨h1, h2⟩ := hagree p hp
    rw [h1, h2, beq_self_eq_true, beq_self_eq_true]
    rfl
  rw [show exec (.form ctx tower peers) s = execForm ctx tower peers s from rfl, execForm, colRun_of_head hctx hc hop]
  simp only [hw, htab, hcs, parties_of_alone halone, hall, Bool.false_eq_true, if_false, if_true]
  rfl

theorem form_spec {s : State} {ctx tower : Nat} (g : Group) (c : ColCmd) (own : Nat) :
    let t := colEnd (formGroup g s ⟨own, ctx, tower, c⟩) ctx tower c.number 0
    groupOf t ctx (colGroup c.image) = g ∧ t.mem = s.mem ∧
      ∀ x ∈ colsOf t ctx tower, x.number = c.number → x.result.isSome = true := by
  intro t
  obtain ⟨hgroups, hmem, hended⟩ := colEnd_ended (s := formGroup g s ⟨own, ctx, tower, c⟩) ctx tower c.number
    (show 0 ≠ 0x52 by decide)
  refine ⟨?_, hmem, hended⟩
  rw [groupOf, hgroups, formGroup, ctxOf_onCtx_self]
  exact look_put_self _ _ _ _

theorem dead_endGroup (s : State) (ctx g status : Nat) : (groupOf (endGroup s ctx g status) ctx g).dead = true := by
  rw [groupOf, endGroup, ctxOf_onCtx_self]
  simp only [adjust, look_put_self]

/-- Settles O7. -/
theorem groupsFormAndEnd : Obligations.GroupsFormAndEnd := by
  unfold Obligations.GroupsFormAndEnd
  refine ⟨?form, ?timeout, ?withdraw⟩
  case form =>
    intro s ctx tower peers cs c tab ms hctx hc hop hw htab halone hcs hreach hagree
    exact ⟨_, exec_form hctx hc hop hw htab halone hcs hreach hagree, form_spec _ c _⟩
  case timeout =>
    intro s ctx tower c hctx hc hop hold
    rw [show exec (.formTimeout ctx tower) s = execFormTimeout ctx tower s from rfl, execFormTimeout,
      colRun_of_head hctx hc hop, if_pos hold]
  case withdraw =>
    intro s ctx g m c hctx hlive hmem hne
    have hdue : (decide (Config.contexts ≤ ctx) || (groupOf s ctx g).dead || !(groupOf s ctx g).members.contains (m, c) ||
        (m, c) == (s.module.modid.toNat, ctx)) = false := by
      rw [decide_eq_false (Nat.not_le.2 hctx), hlive, List.contains_iff_mem.2 hmem, beq_eq_false_iff_ne.2 hne]
      rfl
    have hexec : exec (.withdraw ctx g m c) s = .next (endGroup s ctx g 0x53) := by
      rw [show exec (.withdraw ctx g m c) s = execWithdraw ctx g m c s from rfl, execWithdraw]
      simp only [hdue, Bool.false_eq_true, if_false]
    exact ⟨_, hexec, rfl, dead_endGroup s ctx g 0x53⟩

end Sys2Proof.Slice0

/-! PROOFS. The data operations of a member alone on its module, and their results (02 R42-R46). -/

namespace Sys2Proof.Slice0
open Sys2Proof.Machine

/-! ### The operands of every member (R43) -/

/-- Each member elsewhere has contributed, under its position. -/
theorem contribution_of_member {s : State} {ctx : Nat} {ms : List (Nat × Nat)} {peers cs : List Contribution}
    (halone : aloneHere s ctx ms) (hcs : contributions s ms peers = some cs) {j : Nat} (hj : j < ms.length)
    (hne : j ≠ ownMember s ctx ms) : ∃ p, cs.find? (fun p => p.member == j) = some p := by
  obtain ⟨hnd, hmem, hall⟩ := halone
  simp only [contributions] at hcs
  split at hcs
  · exact absurd hcs (by simp)
  next hany =>
  have haway : ms[j].1 ≠ s.module.modid.toNat := by
    intro h
    have hown : ms[j] = (s.module.modid.toNat, ctx) := Prod.ext h (hall _ (List.getElem_mem hj) h)
    refine hne (Eq.symm ?_)
    rw [ownMember, ← hown]
    exact hnd.idxOf_getElem j hj
  have hin : (ms[j], j) ∈ ms.zipIdx.filter fun m => m.1.1 != s.module.modid.toNat := by
    rw [List.mem_filter, List.mem_zipIdx_iff_getElem?]
    exact ⟨by simp [hj], by simpa using haway⟩
  have hmapped := List.mem_map_of_mem (f := fun (m : (Nat × Nat) × Nat) =>
    if cutOff s m.1 then none else peers.find? fun c => c.member == m.2) hin
  obtain ⟨p, hp⟩ : ∃ p, (if cutOff s ms[j] then none else peers.find? fun c => c.member == j) = some p := by
    rw [← Option.isSome_iff_exists]
    by_contra hnone
    exact hany (List.any_eq_true.2 ⟨_, hmapped, by simpa using hnone⟩)
  have hpm : p.member = j := by
    split at hp
    · exact absurd hp (by simp)
    · simpa using List.find?_some hp
  have hpcs : p ∈ cs := by
    rw [← Option.some.inj hcs, List.mem_filterMap]
    exact ⟨some p, hp ▸ hmapped, rfl⟩
  exact Option.isSome_iff_exists.1 (List.find?_isSome.2 ⟨p, hpcs, by simpa using hpm⟩)

/-- What a member brings: its command, its source and its uniforms. -/
def brought (own : Nat) (im src u : List Byte) (cs : List Contribution) (j : Nat) : List Byte × List Byte × List Byte :=
  if j == own then (im, src, u)
  else match cs.find? fun p => p.member == j with
    | some p => (p.command, p.data, p.uniforms)
    | none => (im, [], [])

theorem ringOrder_eq (n own : Nat) (im src u : List Byte) (cs : List Contribution) :
    ringOrder n own im src cs = ((List.range n).map (brought own im src u cs)).map fun m => (m.1, m.2.1) := by
  rw [ringOrder, List.map_map]
  refine List.map_congr_left fun j _ => ?_
  simp only [Function.comp, brought]
  split
  · rfl
  · cases h : cs.find? fun p => p.member == j <;> rfl

theorem memberUniforms_eq {n : Nat} (hn : 0 < n) (own : Nat) (im src u : List Byte) (cs : List Contribution) :
    memberUniforms own u cs = (((List.range n).map (brought own im src u cs)).head?.map (·.2.2)).getD [] := by
  obtain ⟨k, rfl⟩ := Nat.exists_eq_succ_of_ne_zero hn.ne'
  rw [Nat.succ_eq_add_one, List.range_succ_eq_map, List.map_cons, List.head?_cons, Option.map_some, Option.getD_some, memberUniforms,
    brought]
  by_cases h : own = 0
  · simp [h]
  · rw [if_neg (by simpa using h), if_neg (by simpa using Ne.symm h)]
    cases h : cs.find? fun p => p.member == 0 <;> rfl

/-- Every member's operands are there when this one's are. -/
theorem operandsOf_of_alone {s : State} {ctx tower : Nat} {ms : List (Nat × Nat)} {peers cs : List Contribution} {c : ColCmd}
    {src u : List Byte} (halone : aloneHere s ctx ms) (hcs : contributions s ms peers = some cs)
    (hown : ownOperands s ctx (ownMember s ctx ms) ms.length c.image = some (src, u)) :
    operandsOf s ms.length [⟨ownMember s ctx ms, ctx, tower, c⟩] cs =
      some (ringOrder ms.length (ownMember s ctx ms) c.image src cs, memberUniforms (ownMember s ctx ms) u cs) := by
  have hpos : 0 < ms.length := List.length_pos_of_mem halone.2.1
  unfold operandsOf
  extract_lets members present
  have hmembers : members = ((List.range ms.length).map (brought (ownMember s ctx ms) c.image src u cs)).map some := by
    rw [List.map_map]
    refine List.map_congr_left fun j hj => ?_
    by_cases h : j = ownMember s ctx ms
    · subst h
      simp [hown, brought]
    · obtain ⟨p, hp⟩ := contribution_of_member halone hcs (List.mem_range.1 hj) h
      simp [h, Ne.symm h, hp, brought]
  have hall : ∀ l : List (List Byte × List Byte × List Byte), (l.map some).any (·.isNone) = false := fun l => by simp
  have hid : ∀ l : List (List Byte × List Byte × List Byte), (l.map some).filterMap id = l := fun l => by
    rw [List.filterMap_map]
    exact List.filterMap_some
  have hpresent : present = (List.range ms.length).map (brought (ownMember s ctx ms) c.image src u cs) :=
    (congrArg (List.filterMap id) hmembers).trans (hid _)
  rw [hmembers, hall, if_neg Bool.false_ne_true, hpresent, ringOrder_eq ms.length _ c.image src u cs,
    memberUniforms_eq hpos _ c.image src u cs]

/-! ### A data operation (R43) -/

theorem colData_of_alone {s t : State} {ctx tower op : Nat} {peers cs : List Contribution} {c : ColCmd} {src u bs : List Byte}
    (hctx : ctx < Config.contexts) (hc : colHead s ctx tower = some c) (hop : colOp c.image = op)
    (hok : colFieldsOk c.image = true) (hcount : colCount c.image ≠ 0)
    (hlive : (groupOf s ctx (colGroup c.image)).dead = false)
    (halone : aloneHere s ctx (groupOf s ctx (colGroup c.image)).members)
    (hcs : contributions s (groupOf s ctx (colGroup c.image)).members peers = some cs)
    (hw : partyWaits s (groupOf s ctx (colGroup c.image)).members.length
      ⟨ownMember s ctx (groupOf s ctx (colGroup c.image)).members, ctx, tower, c⟩ = false)
    (hagree : ∀ p ∈ cs, commandsAgree c.image p.command = true)
    (hown : ownOperands s ctx (ownMember s ctx (groupOf s ctx (colGroup c.image)).members)
      (groupOf s ctx (colGroup c.image)).members.length c.image = some (src, u))
    (hres : colResult c.image (ownMember s ctx (groupOf s ctx (colGroup c.image)).members)
      (ringOrder (groupOf s ctx (colGroup c.image)).members.length
        (ownMember s ctx (groupOf s ctx (colGroup c.image)).members) c.image src cs)
      (memberUniforms (ownMember s ctx (groupOf s ctx (colGroup c.image)).members) u cs) = some bs)
    (hwrite : writeVirtual s ctx (colDst c.image) bs = some t) :
    colData op ctx tower peers s = .next (colEnd t ctx tower c.number 0) := by
  have hself : commandsAgree c.image c.image = true := by simp [commandsAgree]
  have hcsall : cs.all (fun p => commandsAgree c.image p.command) = true := List.all_eq_true.2 hagree
  rw [colData, colRun_of_head hctx hc hop]
  simp only [hok, hlive, beq_eq_false_iff_ne.2 hcount, parties_of_alone halone, hcs, List.any_cons, List.any_nil, hw,
    Bool.or_self, Bool.not_true, Bool.false_eq_true, if_false, colOutcome, List.all_cons, List.all_nil, hself, hcsall,
    Bool.and_self, operandsOf_of_alone halone hcs hown, List.map_cons, List.map_nil, hres, Option.map_some,
    Option.isNone_some, List.filterMap_cons, List.filterMap_nil, id_eq, List.foldl_cons, List.foldl_nil, takeResult, hwrite]

/-! ### Results (R43) -/

/-- Bytes of a number depend on it modulo their range. -/
theorem toBytes_mod (n v : Nat) : toBytes n (v % 2 ^ (8 * n)) = toBytes n v := by
  induction n generalizing v with
  | zero => rfl
  | succ n ih =>
    have hpow : 2 ^ (8 * (n + 1)) = 256 * 2 ^ (8 * n) := by rw [Nat.mul_add, Nat.pow_add, Nat.mul_comm]
    rw [toBytes, toBytes, hpow]
    congr 1
    · apply BitVec.eq_of_toNat_eq
      rw [BitVec.toNat_ofNat, BitVec.toNat_ofNat]
      exact Nat.mod_mod_of_dvd _ ⟨_, rfl⟩
    · rw [Nat.mod_mul_right_div_self, ih]

theorem foldl_add_mod (m : Nat) (l : List Nat) (x : Nat) :
    (l.foldl (fun a b => (a + b) % m) x) % m = (x + l.sum) % m := by
  induction l generalizing x with
  | nil => rw [List.foldl_nil, List.sum_nil, Nat.add_zero]
  | cons y l ih => rw [List.foldl_cons, ih, List.sum_cons, Nat.mod_add_mod, Nat.add_assoc]

/-- The i32 sum of a member's elements is their sum modulo 2^32. -/
theorem toBytes_sumElement (l : List Nat) : toBytes 4 (sumElement 2 l) = toBytes 4 (l.sum % 2 ^ 32) := by
  cases l with
  | nil => rfl
  | cons x l =>
    have h := foldl_add_mod (2 ^ 32) l x
    rw [← toBytes_mod 4 (sumElement 2 (x :: l))]
    simp only [sumElement, List.sum_cons]
    exact congrArg (toBytes 4) h

theorem sumSources_i32 (lo n : Nat) (ms : List (List Byte × List Byte)) :
    sumSources 2 lo n (ms.map (·.2)) = (List.range n).flatMap fun i =>
      toBytes 4 ((ms.map fun m => imageAt m.2 (4 * (lo + i)) 4).sum % 2 ^ 32) := by
  simp only [sumSources, colBytes, List.map_map, Function.comp_def, toBytes_sumElement]

theorem sumSources_f32 {ms : List (List Byte × List Byte)} (h : ms ≠ []) (n : Nat) :
    sumSources 0 0 n (ms.map (·.2)) = (List.range n).flatMap fun i =>
      toBytes 4 ((ms.tail.map fun m => imageAt m.2 (4 * i) 4).foldl (fun a b => (faddR f32 0 a b).bits)
        ((ms.head?.map fun m => imageAt m.2 (4 * i) 4).getD 0)) := by
  obtain ⟨m, ms, rfl⟩ := List.exists_cons_of_ne_nil h
  simp only [sumSources, colBytes, List.map_cons, List.map_map, Function.comp_def, sumElement, Nat.zero_add, List.tail_cons,
    List.head?_cons, Option.map_some, Option.getD_some]

theorem exec_collectiveComplete {s : State} {ctx tower : Nat} {c : ColCmd} (hctx : ctx < Config.contexts)
    (hc : (colsOf s ctx tower).find? (·.result.isSome) = some c)
    (hw : colCpl c.image ≠ 0 → colCpl c.image % 8 = 0 → virtualWaits s ctx 1 (colCpl c.image) 8 = false) :
    exec (.collectiveComplete ctx tower) s = .next (pulseAll (tlDone
      (onCols (colReport s ctx c.number (c.result.getD 0) c.image) ctx tower
        (List.filter fun y => y.number != c.number)) ctx (128 * 8 + tower) c.number) ctx 9
      (List.range Config.cores)) := by
  have hwait : (colCpl c.image != 0 && colCpl c.image % 8 == 0 && virtualWaits s ctx 1 (colCpl c.image) 8) = false := by
    by_cases h0 : colCpl c.image = 0
    · simp [h0]
    · by_cases h8 : colCpl c.image % 8 = 0
      · simp [hw h0 h8]
      · simp [h8]
  rw [show exec (.collectiveComplete ctx tower) s = execCollectiveComplete ctx tower s from rfl, execCollectiveComplete,
    if_neg (Nat.not_le.2 hctx)]
  simp only [hc, hwait, Bool.false_eq_true, if_false]

/-- Settles O8. -/
theorem collectivesWriteResult : Obligations.CollectivesWriteResult := by
  unfold Obligations.CollectivesWriteResult
  refine ⟨?data, ?results, ?bad, fun s ctx tower c => exec_collectiveComplete⟩
  case data =>
    intro s ctx tower op i peers cs c src u bs t hi hctx hc hop hok hcount hlive halone hcs hw hagree hown hres hwrite
    have hdata := colData_of_alone hctx hc hop hok hcount hlive halone hcs hw hagree hown hres hwrite
    simp only [List.mem_cons, Prod.mk.injEq, List.not_mem_nil, or_false] at hi
    obtain ⟨rfl, rfl⟩ | ⟨rfl, rfl⟩ | ⟨rfl, rfl⟩ | ⟨rfl, rfl⟩ | ⟨rfl, rfl⟩ := hi <;> exact hdata
  case results =>
    intro im own ms uni hms
    dsimp only
    refine ⟨fun hop ht => ?_, fun hop ht => ?_, fun hop ht hdiv => ?_, fun hop hdiv => ?_, fun hop => ?_, fun hop hdiv => ?_⟩
    · simp only [colResult, hop, ht, sumSources_i32, Nat.zero_add]
    · simp only [colResult, hop, ht, sumSources_f32 hms]
    · simp only [colResult, hop, ht, sumSources_i32, hdiv, bne_self_eq_false, Bool.false_eq_true, if_false]
    · obtain hop | hop := hop <;> simp [colResult, hop, hdiv]
    · simp only [colResult, hop, List.flatten_eq_flatMap, List.flatMap_map, id_eq]
    · simp only [colResult, hop, hdiv, bne_self_eq_false, Bool.false_eq_true, if_false, List.flatMap_map]
  case bad =>
    intro s ctx tower c hctx hc hbad
    rw [show exec (.collectiveBadOp ctx tower) s = execCollectiveBadOp ctx tower s from rfl, execCollectiveBadOp,
      if_neg (Nat.not_le.2 hctx)]
    simp only [hc, hbad, Bool.false_eq_true, if_false]

end Sys2Proof.Slice0

/-! PROOFS. What an agent of no core sees of a state (04 R70-R81), and what posting an item record changes (08 R166). -/

namespace Sys2Proof.Slice0
open Sys2Proof.Machine

/-! ### The view of an agent of no core -/

/-- Two states in which engines, queues and rings find the same bytes at the same places. -/
structure SameSpace (s t : State) : Prop where
  bamap : t.module.bamap = s.module.bamap
  routes : t.module.routes = s.module.routes
  mtime : t.mtime = s.mtime
  mem : t.mem = s.mem
  poison : t.poison = s.poison
  ports : t.ports = s.ports
  towers : t.towers = s.towers
  roots : ∀ c, ptroot t c = ptroot s c
  pasids : ∀ c, pasid (ctxOf t c) = pasid (ctxOf s c)
  ats : ∀ c, (ctxOf t c).ats = (ctxOf s c).ats
  groups : ∀ c, (ctxOf t c).priGroups = (ctxOf s c).priGroups

namespace SameSpace

theorem refl (s : State) : SameSpace s s :=
  ⟨rfl, rfl, rfl, rfl, rfl, rfl, rfl, fun _ => rfl, fun _ => rfl, fun _ => rfl, fun _ => rfl⟩

theorem trans {s t u : State} (h : SameSpace s t) (h' : SameSpace t u) : SameSpace s u where
  bamap := h'.bamap.trans h.bamap
  routes := h'.routes.trans h.routes
  mtime := h'.mtime.trans h.mtime
  mem := h'.mem.trans h.mem
  poison := h'.poison.trans h.poison
  ports := h'.ports.trans h.ports
  towers := h'.towers.trans h.towers
  roots c := (h'.roots c).trans (h.roots c)
  pasids c := (h'.pasids c).trans (h.pasids c)
  ats c := (h'.ats c).trans (h.ats c)
  groups c := (h'.groups c).trans (h.groups c)

theorem onCtx (s : State) (ctx : Nat) {f : Ctx → Ctx} (hroot : ∀ c, reg (f c) 0x1840 = reg c 0x1840 := by intro; rfl)
    (hpasid : ∀ c, reg (f c) 0x1820 = reg c 0x1820 := by intro; rfl) (hats : ∀ c, (f c).ats = c.ats := by intro; rfl)
    (hgroups : ∀ c, (f c).priGroups = c.priGroups := by intro; rfl) : SameSpace s (onCtx s ctx f) := by
  have h : ∀ {α : Type} (g : Ctx → α) (_ : ∀ c, g (f c) = g c) (c : Nat),
      g (ctxOf (Machine.onCtx s ctx f) c) = g (ctxOf s c) := by
    intro α g hg c
    by_cases hc : c = ctx
    · rw [hc, ctxOf_onCtx_self, hg]
    · rw [ctxOf_onCtx_ne _ _ hc]
  exact ⟨rfl, rfl, rfl, rfl, rfl, rfl, rfl, h (fun c => reg c 0x1840) hroot,
    h pasid fun c => by rw [pasid, hpasid]; rfl, h (fun c => c.ats) hats, h (fun c => c.priGroups) hgroups⟩

variable {s t : State} (h : SameSpace s t)
include h

theorem readAt (l : Loc) (n : Nat) : readAt t l n = readAt s l n := by
  simp only [Machine.readAt, h.mem, h.poison]

theorem live (pa : Nat) : live t pa = live s pa := by simp only [Machine.live, bamapOf, h.bamap]

theorem hostLook (who : Asker) (ctx va level : Nat) : hostLook t who ctx va level = hostLook s who ctx va level := by
  simp only [Machine.hostLook, h.ats, h.pasids, inGroup, h.groups]
  rfl

theorem checkLeaf (who : Asker) (ctx kind level e va : Nat) :
    checkLeaf t who ctx kind level e va = checkLeaf s who ctx kind level e va := by
  have hplace : placeOf t who ctx level e va = placeOf s who ctx level e va := by
    simp only [placeOf, h.live, h.hostLook, routeOf, h.routes, downLong, portOf, h.ports, h.mtime]
    rfl
  simp only [Machine.checkLeaf, hplace]

theorem walk (ctx va : Nat) : walk t ctx va = walk s ctx va := by
  have hfrom : ∀ levels table, walkFrom t va levels table = walkFrom s va levels table := by
    intro levels
    induction levels with
    | nil => exact fun _ => rfl
    | cons level rest ih => exact fun table => by simp only [walkFrom, h.readAt, h.live, ih]
  simp only [Machine.walk, h.roots, h.live, hfrom]

theorem engineLook (ctx kind va : Nat) :
    (Machine.translate t none ctx kind va).1 = (Machine.translate s none ctx kind va).1 := by
  unfold Machine.translate
  rw [h.walk, h.roots, h.live]
  split
  · split <;> rfl
  · cases Machine.walk s ctx va with
    | leaf level e a => exact h.checkLeaf _ _ _ _ _ _
    | fault r l => rfl

theorem spaceSpan (ctx : Nat) (virtual : Bool) (kind a n : Nat) :
    spaceSpan t ctx virtual kind a n = spaceSpan s ctx virtual kind a n := by
  have hspan : ∀ ps, (spanOf t none ctx kind ps).1 = (spanOf s none ctx kind ps).1 := by
    intro ps
    induction ps with
    | nil => rfl
    | cons p ps ih =>
      have hlook := h.engineLook ctx kind p.1
      have hs := translate_state s none ctx kind p.1
      have ht := translate_state t none ctx kind p.1
      unfold spanOf at ih ⊢
      unfold spanBy
      generalize Machine.translate t none ctx kind p.1 = x at hlook ht
      generalize Machine.translate s none ctx kind p.1 = y at hlook hs
      obtain ⟨l, t'⟩ := x
      obtain ⟨l', s'⟩ := y
      obtain rfl : l = l' := hlook
      obtain rfl : t' = t := ht
      obtain rfl : s' = s := hs
      cases l with
      | hit l =>
        dsimp only
        generalize spanBy _ t' ps = x at ih
        generalize spanBy _ s' ps = y at ih
        obtain ⟨r, t⟩ := x
        obtain ⟨r', t'⟩ := y
        obtain rfl : r = r' := ih
        cases r <;> rfl
      | _ => rfl
  have hhost : ∀ ps, hostSpanOf t ctx ps = hostSpanOf s ctx ps := by
    intro ps
    induction ps with
    | nil => rfl
    | cons p ps ih => simp only [hostSpanOf, h.hostLook, ih]
  simp only [Machine.spaceSpan, Machine.span, hspan, hhost]

theorem spaceWaits (ctx : Nat) (virtual : Bool) (kind a n : Nat) :
    spaceWaits t ctx virtual kind a n = spaceWaits s ctx virtual kind a n := by
  simp only [Machine.spaceWaits, h.spaceSpan]

theorem readPieces (ps : List (Loc × Nat)) : readPieces t ps = readPieces s ps := by
  have hfetch : ∀ l n, fetchAt t l n = fetchAt s l n := fun l n => by
    simp only [fetchAt, windowRead, portOf, h.ports, h.readAt]
  have hpiece : ∀ l n, fetchPiece t l n = fetchPiece s l n := fun l n => by
    simp only [fetchPiece, hfetch]
  unfold Machine.readPieces
  split
  · exact hfetch _ _
  · simp only [hpiece]

theorem readSpace (ctx : Nat) (virtual : Bool) (a n : Nat) : readSpace t ctx virtual a n = readSpace s ctx virtual a n := by
  simp only [Machine.readSpace, h.spaceSpan, h.readPieces]

theorem poisonSpace (ctx : Nat) (virtual : Bool) (a n : Nat) :
    poisonSpace t ctx virtual a n = poisonSpace s ctx virtual a n := by
  simp only [Machine.poisonSpace, h.spaceSpan, poisonPieces, poisonedAt, h.poison]

end SameSpace

/-! ### What posting an item record changes -/

/-- A context but for its item records and the place of its trace. -/
def unitemed (c : Ctx) : Ctx := { untracedCtx c with itwait := [], itheld := [], ittail := 0, itfull := false }

/-- Two states that differ in memory, ports, the module, interrupts, declared signals, the trace and item records at
most. -/
structure RecordKept (s t : State) : Prop where
  agenda : t.agenda = s.agenda
  curCore : t.curCore = s.curCore
  curStream : t.curStream = s.curStream
  free : t.free = s.free
  mtime : t.mtime = s.mtime
  elapsed : t.elapsed = s.elapsed
  cores : ∀ c, untraced (coreOf t c) = untraced (coreOf s c)
  ctxs : ∀ c, unitemed (ctxOf t c) = unitemed (ctxOf s c)
  towers : t.towers = s.towers

namespace RecordKept

theorem refl (s : State) : RecordKept s s := ⟨rfl, rfl, rfl, rfl, rfl, rfl, fun _ => rfl, fun _ => rfl, rfl⟩

theorem trans {s t u : State} (h : RecordKept s t) (h' : RecordKept t u) : RecordKept s u where
  agenda := h'.agenda.trans h.agenda
  curCore := h'.curCore.trans h.curCore
  curStream := h'.curStream.trans h.curStream
  free := h'.free.trans h.free
  mtime := h'.mtime.trans h.mtime
  elapsed := h'.elapsed.trans h.elapsed
  cores c := (h'.cores c).trans (h.cores c)
  ctxs c := (h'.ctxs c).trans (h.ctxs c)
  towers := h'.towers.trans h.towers

theorem of_traceKept {s t : State} (h : TraceKept s t) : RecordKept s t where
  agenda := h.agenda
  curCore := h.curCore
  curStream := h.curStream
  free := h.free
  mtime := h.time.2
  elapsed := h.time.1
  cores := h.cores
  ctxs c := congrArg (fun x : Ctx => { x with itwait := [], itheld := [], ittail := 0, itfull := false }) (h.ctxs c)
  towers := h.towers

theorem onCtx (s : State) (ctx : Nat) {f : Ctx → Ctx} (hf : ∀ c, unitemed (f c) = unitemed c := by intro; rfl) :
    RecordKept s (onCtx s ctx f) := by
  refine ⟨rfl, rfl, rfl, rfl, rfl, rfl, fun _ => rfl, fun c => ?_, rfl⟩
  by_cases hc : c = ctx
  · rw [hc, ctxOf_onCtx_self, hf]
  · rw [ctxOf_onCtx_ne _ _ hc]

theorem raiseIrq (s : State) (fn vec : Nat) : RecordKept s (raiseIrq s fn vec) := .of_traceKept (traceKept_raiseIrq s fn vec)

theorem ite_left {s t : State} {p : Prop} [Decidable p] (h : RecordKept s t) : RecordKept s (if p then t else s) := by
  split
  · exact h
  · exact refl s

theorem foldl {α : Type} {f : State → α → State} (hf : ∀ s a, RecordKept s (f s a)) (l : List α) (s : State) :
    RecordKept s (l.foldl f s) := by
  induction l generalizing s with
  | nil => exact refl s
  | cons a l ih => exact (hf s a).trans (ih _)

theorem coreField {α : Type} {s t : State} (h : RecordKept s t) (g : Core → α) (hg : ∀ k, g (untraced k) = g k := by intro; rfl)
    (c : Nat) : g (coreOf t c) = g (coreOf s c) := by
  rw [← hg, h.cores, hg]

theorem ctxField {α : Type} {s t : State} (h : RecordKept s t) (g : Ctx → α) (hg : ∀ k, g (unitemed k) = g k := by intro; rfl)
    (c : Nat) : g (ctxOf t c) = g (ctxOf s c) := by
  rw [← hg, h.ctxs, hg]

theorem of_postNow {s t : State} {ctx : Nat} {i : Item} (h : postNow s ctx i = some t) : RecordKept s t := by
  unfold postNow at h
  extract_lets c ctl base slot at h
  split at h
  · exact absurd h (by simp)
  · split at h
    · exact absurd h (by simp)
    · next u hw =>
      rw [← Option.some.inj h]
      exact (of_traceKept (.of_writeSpace hw)).trans ((onCtx u ctx).trans (ite_left (raiseIrq _ _ _)))

theorem enterItem (s : State) (ctx : Nat) (i : Item) : RecordKept s (enterItem s ctx i) := by
  unfold Machine.enterItem
  extract_lets c
  split
  · next t ht =>
    split at ht
    · exact of_postNow ht
    · exact absurd ht (by simp)
  · exact onCtx s ctx

theorem postItem (s : State) (ctx : Nat) (i : Item) : RecordKept s (postItem s ctx i) := by
  unfold Machine.postItem
  extract_lets c
  split
  · exact enterItem s ctx i
  · exact onCtx s ctx

theorem leaveItem (s : State) (ctx : Nat) (i : Item) : RecordKept s (leaveItem s ctx i) :=
  onCtx s ctx fun c => by
    dsimp only
    split <;> rfl

theorem walkReport (s : State) (ctx source kind a n : Nat) : RecordKept s (walkReport s ctx source kind a n) := by
  unfold Machine.walkReport
  split
  · exact ite_left (leaveItem s ctx _)
  · exact refl s

end RecordKept

end Sys2Proof.Slice0

/-! PROOFS. Submission queues: enabling, draining, aborting, kicks, fetches and completions (03 R53-R65). -/

namespace Sys2Proof.Slice0
open Sys2Proof.Machine

/-! ### Registers and queues of a context -/

@[simp] theorem reg_setReg_self (c : Ctx) (off v : Nat) : reg (setReg c off v) off = v % 2 ^ 64 := by
  rw [reg, setReg]
  simp only [look_put_self, BitVec.toNat_ofNat]

theorem reg_setReg_ne (c : Ctx) {off o : Nat} (v : Nat) (h : o ≠ off) : reg (setReg c off v) o = reg c o := by
  rw [reg, setReg]
  simp only [look_put_ne _ _ _ h]
  rfl

@[simp] theorem queueOf_onQueue_self (s : State) (ctx q : Nat) (f : Queue → Queue) :
    queueOf (onQueue s ctx q f) ctx q = f (queueOf s ctx q) := by
  rw [queueOf, onQueue, ctxOf_onCtx_self]
  exact look_put_self _ _ _ _

@[simp] theorem reg_onQueue (s : State) (ctx q : Nat) (f : Queue → Queue) (off : Nat) :
    reg (ctxOf (onQueue s ctx q f) ctx) off = reg (ctxOf s ctx) off := by
  rw [onQueue, ctxOf_onCtx_self]
  rfl

@[simp] theorem qctl_onQueue (s : State) (ctx q : Nat) (f : Queue → Queue) : qctl (onQueue s ctx q f) ctx q = qctl s ctx q :=
  reg_onQueue s ctx q f _

@[simp] theorem ringSize_onQueue (s : State) (ctx q : Nat) (f : Queue → Queue) :
    ringSize (onQueue s ctx q f) ctx q = ringSize s ctx q := by
  rw [ringSize, qctl_onQueue, ringSize]

theorem SameSpace.onQueue (s : State) (ctx q : Nat) (f : Queue → Queue) : SameSpace s (onQueue s ctx q f) :=
  .onCtx s ctx

theorem queueEvent_eq {s : State} {ctx q : Nat} (hctx : ctx < Config.contexts) (hq : q < 64) (f : State) :
    queueEvent s ctx q f = .next f := by
  have h : (decide (ctx < Config.contexts) && decide (q < 64)) = true := by
    rw [decide_eq_true hctx, decide_eq_true hq]
    rfl
  rw [queueEvent, if_pos h]

/-! ### QCTL (Table 3.3) -/

/-- QCTL of a queue is written. -/
def withQctl (s : State) (ctx q v : Nat) : State := onCtx s ctx fun c => setReg c (0x40 * q + 8) (qctlMask v)

theorem qctlMask_lt (v : Nat) : qctlMask v < 2 ^ 64 := by
  have h1 := Nat.mod_lt (v / 2 ^ 31) (show 0 < 2 ^ 1 by decide)
  have h2 := Nat.mod_lt (v / 2 ^ 16) (show 0 < 2 ^ 11 by decide)
  have h3 := Nat.mod_lt (v / 2 ^ 0) (show 0 < 2 ^ 15 by decide)
  simp only [qctlMask, field]
  omega

theorem qctl_withQctl (s : State) (ctx q v : Nat) : qctl (withQctl s ctx q v) ctx q = qctlMask v := by
  rw [qctl, withQctl, ctxOf_onCtx_self, reg_setReg_self, Nat.mod_eq_of_lt (qctlMask_lt v)]

theorem queueOf_withQctl (s : State) (ctx q v : Nat) : queueOf (withQctl s ctx q v) ctx q = queueOf s ctx q := by
  rw [queueOf, withQctl, ctxOf_onCtx_self]
  rfl

theorem field_qctlMask_low (v : Nat) : field (qctlMask v) 0 15 = field v 0 15 := by
  have h1 := Nat.mod_lt (v / 2 ^ 31) (show 0 < 2 ^ 1 by decide)
  simp only [qctlMask, field]
  omega

theorem field_qctlMask_size (v : Nat) : field (qctlMask v) 0 4 = field v 0 4 := by
  simp only [qctlMask, field]
  omega

theorem field_qctlMask_vector (v : Nat) : field (qctlMask v) 16 11 = field v 16 11 := by
  simp only [qctlMask, field]
  omega

theorem flag_qctlMask (v : Nat) : flag (qctlMask v) 31 = flag v 31 := by
  simp only [qctlMask, field, flag]
  congr 1
  omega

theorem field_low_of_cut (v : Nat) {lo w : Nat} (h : lo + w ≤ 31) : field (field v 0 31) lo w = field v lo w := by
  obtain ⟨k, hk⟩ := Nat.exists_eq_add_of_le h
  simp only [field, pow_zero, Nat.div_one]
  rw [hk, Nat.pow_add, Nat.pow_add, Nat.mul_assoc, Nat.mod_mul_right_div_self, Nat.mod_mul_right_mod]

theorem flag_of_cut (v : Nat) : flag (field v 0 31) 31 = false := by
  have := Nat.mod_lt v (show 0 < 2 ^ 31 by decide)
  simp only [flag, field, pow_zero, Nat.div_one]
  rw [Nat.div_eq_of_lt this]
  rfl

/-! ### Enabling, resuming and draining (R53, R54, R63) -/

theorem exec_queueEnable {s : State} {ctx q : Nat} {v : BitVec 32} (hctx : ctx < Config.contexts) (hq : q < 64)
    (hen : flag v.toNat 31 = true) (hsize : 4 ≤ field v.toNat 0 4) (hoff : (queueOf s ctx q).state = 0) :
    ∃ t, exec (.queueEnable ctx q v) s = .next t ∧ (queueOf t ctx q).state = 1 ∧ (queueOf t ctx q).err = 0 ∧
      (queueOf t ctx q).head = 0 ∧ (queueOf t ctx q).accepted = 0 ∧ ringSize t ctx q = 2 ^ field v.toNat 0 4 := by
  have hargs : (!flag v.toNat 31 || decide (field v.toNat 0 4 < 4)) = false := by
    rw [hen, decide_eq_false (Nat.not_lt.2 hsize)]
    rfl
  have hexec : exec (.queueEnable ctx q v) s = .next (onQueue (withQctl s ctx q v.toNat) ctx q fun u =>
      if u.state != 0 then u
      else { u with state := 1, err := 0, head := 0, accepted := 0, base := u.line.value, kicks := [], kicking := none
                    stale := none }) := by
    rw [show exec (.queueEnable ctx q v) s = execQueueEnable ctx q v s from rfl, execQueueEnable, queueEvent_eq hctx hq]
    simp only [hargs, Bool.false_eq_true, if_false]
    rfl
  refine ⟨_, hexec, ?_⟩
  rw [queueOf_onQueue_self, queueOf_withQctl, hoff, bne_self_eq_false, if_neg Bool.false_ne_true, ringSize_onQueue, ringSize,
    qctl_withQctl, field_qctlMask_size]
  exact ⟨rfl, rfl, rfl, rfl, rfl⟩

theorem exec_queueEnable_refused {s : State} {ctx q : Nat} {v : BitVec 32} (h : field v.toNat 0 4 < 4) :
    exec (.queueEnable ctx q v) s = .next s := by
  have hargs : (!flag v.toNat 31 || decide (field v.toNat 0 4 < 4)) = true := by rw [decide_eq_true h, Bool.or_true]
  rw [show exec (.queueEnable ctx q v) s = execQueueEnable ctx q v s from rfl, execQueueEnable, queueEvent]
  simp only [hargs, if_true, ite_self]

theorem exec_queueResume {s : State} {ctx q : Nat} (hctx : ctx < Config.contexts) (hq : q < 64)
    (hstop : (queueOf s ctx q).state = 2) :
    ∃ t, exec (.queueResume ctx q) s = .next t ∧ (queueOf t ctx q).state = 1 ∧ (queueOf t ctx q).err = 0 ∧
      (queueOf t ctx q).accepted = (queueOf s ctx q).head ∧ (queueOf t ctx q).head = (queueOf s ctx q).head := by
  refine ⟨_, queueEvent_eq hctx hq _, ?_⟩
  rw [queueOf_onQueue_self, hstop, bne_self_eq_false, if_neg Bool.false_ne_true]
  exact ⟨rfl, rfl, rfl, rfl⟩

/-- A queue that is drained: no further packet starts. -/
def drained (u : Queue) : Queue :=
  settleQueue { u with state := 3, kicking := none, stale := none, kign := u.kign || !u.kicks.isEmpty, kicks := [] }

theorem queueOf_drainQueue {s : State} {ctx q : Nat} (hon : (queueOf s ctx q).state ≠ 0) (v : Nat) :
    queueOf (drainQueue s ctx q v) ctx q = drained (queueOf s ctx q) := by
  have h : drainQueue s ctx q v = onQueue (withQctl s ctx q (field v 0 31)) ctx q fun u =>
      if u.state == 0 then u else drained u := rfl
  rw [h, queueOf_onQueue_self, queueOf_withQctl, beq_eq_false_iff_ne.2 hon, if_neg Bool.false_ne_true]

theorem qctl_drainQueue (s : State) (ctx q v : Nat) : qctl (drainQueue s ctx q v) ctx q = qctlMask (field v 0 31) := by
  rw [drainQueue, qctl_onQueue]
  exact qctl_withQctl s ctx q _

theorem exec_queueDrain {s : State} {ctx q : Nat} {v : BitVec 32} (hctx : ctx < Config.contexts) (hq : q < 64)
    (hon : (queueOf s ctx q).state ≠ 0) :
    ∃ t, exec (.queueDrain ctx ⟨q, v⟩) s = .next t ∧ (queueOf t ctx q).packets = (queueOf s ctx q).packets ∧
      (queueOf t ctx q).state = (if (queueOf s ctx q).packets = [] ∧ (queueOf s ctx q).aborting = false then 0 else 3) ∧
      field (qctl t ctx q) 0 15 = field v.toNat 0 15 ∧ field (qctl t ctx q) 16 11 = field v.toNat 16 11 ∧
      flag (qctl t ctx q) 31 = false := by
  refine ⟨_, queueEvent_eq hctx hq _, ?_⟩
  rw [queueOf_drainQueue hon, qctl_drainQueue, field_qctlMask_low, field_qctlMask_vector, flag_qctlMask,
    field_low_of_cut _ (by decide), field_low_of_cut _ (by decide), flag_of_cut]
  refine ⟨?_, ?_, rfl, rfl, rfl⟩
  · simp only [drained, settleQueue]
    split <;> rfl
  · cases hp : (queueOf s ctx q).packets <;> cases ha : (queueOf s ctx q).aborting <;> simp [drained, settleQueue, hp, ha]

theorem settleQueue_of_packets {u : Queue} (h : u.packets.isEmpty = false) : settleQueue u = u := by
  rw [settleQueue, h, Bool.and_false, Bool.false_and, if_neg Bool.false_ne_true]

/-! ### Slots of a ring -/

section
variable {s t : State} (h : SameSpace s t) {ctx q : Nat} (hbase : reg (ctxOf t ctx) (0x40 * q) = reg (ctxOf s ctx) (0x40 * q))
  (hsize : ringSize t ctx q = ringSize s ctx q) (i : Nat)
include hbase hsize

theorem slotAddress_congr : slotAddress t ctx q i = slotAddress s ctx q i := by simp only [slotAddress, hbase, hsize]

include h

theorem slotWaits_congr : slotWaits t ctx q i = slotWaits s ctx q i := by
  simp only [slotWaits, slotAddress_congr hbase hsize, h.spaceWaits]

theorem slotImage_congr : slotImage t ctx q i = slotImage s ctx q i := by
  simp only [slotImage, slotAddress_congr hbase hsize, h.readSpace]

end

theorem RecordKept.slotPoison (s : State) (ctx q i : Nat) : RecordKept s (slotPoison s ctx q i) := by
  unfold Machine.slotPoison
  extract_lets p u
  have hu : RecordKept s u := ite_left (walkReport s ctx 13 0 p.2 64)
  split
  · exact hu.trans (postItem u ctx _)
  · exact hu

theorem RecordKept.queueOf {s t : State} (h : RecordKept s t) (ctx q : Nat) : queueOf t ctx q = queueOf s ctx q := by
  rw [Machine.queueOf, Machine.queueOf, h.ctxField fun c => c.queues]

/-! ### Aborting (R63) -/

/-- The queue whose ABORT is taken: no packet of it starts any more. -/
def abortTaken (s : State) (ctx q : Nat) : State :=
  drainQueue (onQueue s ctx q fun u => { u with aborting := true }) ctx q (qctl s ctx q)

theorem sameSpace_abortTaken (s : State) (ctx : Nat) {q : Nat} (hq : q < 64) : SameSpace s (abortTaken s ctx q) := by
  refine (SameSpace.onQueue s ctx q _).trans ((SameSpace.onCtx _ ctx (f := fun c =>
    setReg c (0x40 * q + 8) (qctlMask (field (qctl s ctx q) 0 31))) ?_ ?_).trans (.onQueue _ ctx q _))
  · exact fun c => reg_setReg_ne c _ (by omega)
  · exact fun c => reg_setReg_ne c _ (by omega)

theorem queueOf_abortTaken {s : State} {ctx q : Nat} (hon : (queueOf s ctx q).state ≠ 0) :
    queueOf (abortTaken s ctx q) ctx q = drained { queueOf s ctx q with aborting := true } := by
  rw [abortTaken, queueOf_drainQueue, queueOf_onQueue_self]
  rwa [queueOf_onQueue_self]

theorem base_abortTaken (s : State) (ctx q : Nat) :
    reg (ctxOf (abortTaken s ctx q) ctx) (0x40 * q) = reg (ctxOf s ctx) (0x40 * q) := by
  rw [abortTaken, drainQueue, reg_onQueue, ctxOf_onCtx_self, reg_setReg_ne _ _ (by omega), reg_onQueue]

theorem ringSize_abortTaken (s : State) (ctx q : Nat) : ringSize (abortTaken s ctx q) ctx q = ringSize s ctx q := by
  rw [ringSize, abortTaken, qctl_drainQueue, field_qctlMask_size, field_low_of_cut _ (by decide), ringSize]

theorem exec_queueAbort {s : State} {ctx q : Nat} (hctx : ctx < Config.contexts) (hq : q < 64)
    (hon : (queueOf s ctx q).state ≠ 0) (hhead : (queueOf s ctx q).head < (queueOf s ctx q).accepted)
    (hw : ∀ k, k < (queueOf s ctx q).accepted - (queueOf s ctx q).head →
      slotWaits s ctx q ((queueOf s ctx q).head + k) = false) :
    ∃ t, exec (.queueAbort ctx q) s = .next t ∧ (queueOf t ctx q).state = 3 ∧
      (queueOf t ctx q).head = (queueOf s ctx q).accepted ∧
      (queueOf t ctx q).packets = (queueOf s ctx q).packets ++
        (List.range ((queueOf s ctx q).accepted - (queueOf s ctx q).head)).map fun k =>
          abortedPacket s ctx q ((queueOf s ctx q).head + k) := by
  have hspace := sameSpace_abortTaken s ctx hq
  have hbase := base_abortTaken s ctx q
  have hsize := ringSize_abortTaken s ctx q
  have hqueue : queueOf (abortTaken s ctx q) ctx q = { queueOf s ctx q with
      aborting := true, state := 3, kicking := none, stale := none
      kign := (queueOf s ctx q).kign || !(queueOf s ctx q).kicks.isEmpty, kicks := [] } := by
    rw [queueOf_abortTaken hon]
    simp [drained, settleQueue]
  let slots := (List.range ((queueOf s ctx q).accepted - (queueOf s ctx q).head)).map fun k => (queueOf s ctx q).head + k
  have hready : slots.any (slotWaits (abortTaken s ctx q) ctx q) = false := by
    rw [List.any_eq_false]
    intro i hi
    obtain ⟨k, hk, rfl⟩ := List.mem_map.1 hi
    rw [slotWaits_congr hspace hbase hsize, hw k (List.mem_range.1 hk)]
    exact Bool.false_ne_true
  have hpacket : ∀ i, abortedPacket (abortTaken s ctx q) ctx q i = abortedPacket s ctx q i := fun i => by
    simp only [abortedPacket, slotImage_congr hspace hbase hsize, hqueue]
  have hexec : exec (.queueAbort ctx q) s = .next (onQueue (slots.foldl (fun s i => slotPoison s ctx q i) (abortTaken s ctx q))
      ctx q fun u => settleQueue { u with
        packets := u.packets ++ slots.map (abortedPacket s ctx q), head := u.accepted, aborting := false }) := by
    rw [show exec (.queueAbort ctx q) s = execQueueAbort ctx q s from rfl, execQueueAbort, queueEvent_eq hctx hq,
      beq_eq_false_iff_ne.2 hon, if_neg Bool.false_ne_true]
    show Host.Outcome.next (abortPackets (abortTaken s ctx q) ctx q) = _
    simp only [abortPackets, hqueue]
    rw [show (!true || slots.any (slotWaits (abortTaken s ctx q) ctx q)) = false by rw [hready]; rfl, if_neg Bool.false_ne_true,
      show slots.map (abortedPacket (abortTaken s ctx q) ctx q) = slots.map (abortedPacket s ctx q) from
        List.map_congr_left fun i _ => hpacket i]
  have hpoison : queueOf (slots.foldl (fun s i => slotPoison s ctx q i) (abortTaken s ctx q)) ctx q =
      queueOf (abortTaken s ctx q) ctx q := RecordKept.queueOf (.foldl (fun s i => .slotPoison s ctx q i) slots _) ctx q
  have hsome : ((queueOf s ctx q).packets ++ slots.map (abortedPacket s ctx q)).isEmpty = false := by
    rw [List.isEmpty_eq_false_iff_exists_mem]
    exact ⟨_, List.mem_append_right _ (List.mem_map_of_mem (List.mem_map_of_mem (List.mem_range.2 (Nat.sub_pos_of_lt hhead))))⟩
  refine ⟨_, hexec, ?_⟩
  rw [queueOf_onQueue_self, hpoison, hqueue]
  rw [settleQueue_of_packets hsome]
  refine ⟨rfl, rfl, ?_⟩
  simp only [slots, List.map_map]
  rfl

/-- Settles O9. -/
theorem queuesEnableAndStop : Obligations.QueuesEnableAndStop := by
  unfold Obligations.QueuesEnableAndStop
  exact ⟨fun s ctx q v => exec_queueEnable, fun s ctx q v => exec_queueEnable_refused, fun s ctx q => exec_queueResume,
    fun s ctx q v => exec_queueDrain, fun s ctx q => exec_queueAbort⟩

end Sys2Proof.Slice0

/-! PROOFS. Kicks, fetches and completions of a submission queue (03 R55-R65). -/

namespace Sys2Proof.Slice0
open Sys2Proof.Machine

/-! ### A report of a poisoned slot shows -/

theorem unposted_leaveItem (s : State) (ctx : Nat) (i : Item) :
    unposted (ctxOf (leaveItem s ctx i) ctx) = unposted (ctxOf s ctx) + 1 := by
  rw [leaveItem, ctxOf_onCtx_self]
  split <;> simp only [unposted, List.length_append, List.length_cons, List.length_nil] <;> omega

theorem ittail_leaveItem (s : State) (ctx : Nat) (i : Item) :
    (ctxOf (leaveItem s ctx i) ctx).ittail = (ctxOf s ctx).ittail := by
  rw [leaveItem, ctxOf_onCtx_self]
  split <;> rfl

/-- A walk's report leaves the ring's tail, and no record goes. -/
theorem unposted_walkReport (s : State) (ctx source kind a n : Nat) :
    unposted (ctxOf s ctx) ≤ unposted (ctxOf (walkReport s ctx source kind a n) ctx) ∧
      (ctxOf (walkReport s ctx source kind a n) ctx).ittail = (ctxOf s ctx).ittail := by
  unfold walkReport
  split
  · split
    · rw [unposted_leaveItem, ittail_leaveItem]
      exact ⟨Nat.le_succ _, rfl⟩
    · exact ⟨Nat.le_refl _, rfl⟩
  · exact ⟨Nat.le_refl _, rfl⟩

/-- A record posted at once moves the ring's tail; any other waits. -/
theorem postItem_shows (s : State) (ctx : Nat) (i : Item) :
    (ctxOf (postItem s ctx i) ctx).ittail ≠ (ctxOf s ctx).ittail ∨
      unposted (ctxOf s ctx) < unposted (ctxOf (postItem s ctx i) ctx) := by
  simp only [postItem]
  split
  · simp only [enterItem]
    split
    · next t ht =>
      split at ht
      · unfold postNow at ht
        extract_lets c ctl base slot at ht
        split at ht
        · exact absurd ht (by simp)
        · split at ht
          · exact absurd ht (by simp)
          · next u hw =>
            left
            have htail : (ctxOf u ctx).ittail = (ctxOf s ctx).ittail :=
              (TraceKept.of_writeSpace hw).ctxField (fun c => c.ittail) (c := ctx)
            have hirq : ∀ (v : State) (p : Prop) [Decidable p] (fn vec : Nat),
                (ctxOf (if p then raiseIrq v fn vec else v) ctx).ittail = (ctxOf v ctx).ittail := by
              intro v p _ fn vec
              split
              · exact (traceKept_raiseIrq v fn vec).ctxField (fun c => c.ittail) (c := ctx)
              · rfl
            rw [← Option.some.inj ht, hirq, ctxOf_onCtx_self]
            have hmod : ∀ n : Nat, (n + 1) % 2 ^ 32 ≠ n := fun n => by omega
            dsimp only
            rw [htail]
            exact hmod (ctxOf s ctx).ittail
      · exact absurd ht (by simp)
    · right
      rw [ctxOf_onCtx_self]
      simp only [unposted, List.length_append, List.length_cons, List.length_nil]
      omega
  · right
    rw [ctxOf_onCtx_self]
    simp only [unposted, List.length_append, List.length_cons, List.length_nil]
    omega

theorem SameSpace.walkReport (s : State) (ctx source kind a n : Nat) : SameSpace s (walkReport s ctx source kind a n) := by
  have hleave : ∀ i, SameSpace s (leaveItem s ctx i) := fun i => by
    refine .onCtx s ctx ?_ ?_ ?_ ?_ <;>
    · intro c
      dsimp only
      split <;> rfl
  unfold Machine.walkReport
  split
  · split
    · exact hleave _
    · exact refl s
  · exact refl s

/-- The state in which a ring's walk has been reported. -/
def slotWalked (s : State) (ctx q i : Nat) : State :=
  if (slotAddress s ctx q i).1 then walkReport s ctx 13 0 (slotAddress s ctx q i).2 64 else s

theorem sameSpace_slotWalked (s : State) (ctx q i : Nat) : SameSpace s (slotWalked s ctx q i) := by
  rw [slotWalked]
  split
  · exact .walkReport s ctx _ _ _ _
  · exact .refl s

theorem slotPoison_eq (s : State) (ctx q i : Nat) :
    slotPoison s ctx q i = if poisonSpace s ctx (slotAddress s ctx q i).1 (slotAddress s ctx q i).2 64 then
      postItem (slotWalked s ctx q i) ctx ⟨0x60, 13, 0x7F, 0, 0, 0, 0, (slotAddress s ctx q i).2, 0⟩
    else slotWalked s ctx q i := by
  rw [← (sameSpace_slotWalked s ctx q i).poisonSpace]
  rfl

/-- A slot whose report changes nothing holds no poison. -/
theorem not_poison_of_slotPoison {s : State} {ctx q i : Nat} (h : slotPoison s ctx q i = s) :
    poisonSpace s ctx (slotAddress s ctx q i).1 (slotAddress s ctx q i).2 64 = false := by
  rw [Bool.eq_false_iff]
  intro hp
  have hwalked : unposted (ctxOf s ctx) ≤ unposted (ctxOf (slotWalked s ctx q i) ctx) ∧
      (ctxOf (slotWalked s ctx q i) ctx).ittail = (ctxOf s ctx).ittail := by
    rw [slotWalked]
    split
    · exact unposted_walkReport s ctx _ _ _ _
    · exact ⟨Nat.le_refl _, rfl⟩
  rw [slotPoison_eq, if_pos hp] at h
  obtain htail | hmore := postItem_shows (slotWalked s ctx q i) ctx
    ⟨0x60, 13, 0x7F, 0, 0, 0, 0, (slotAddress s ctx q i).2, 0⟩
  · rw [h] at htail
    exact htail hwalked.2.symm
  · rw [h] at hmore
    omega

/-- No byte moves where no poison is reported. -/
theorem mem_slotPoison {s : State} {ctx q i : Nat}
    (h : poisonSpace s ctx (slotAddress s ctx q i).1 (slotAddress s ctx q i).2 64 = false) :
    (slotPoison s ctx q i).mem = s.mem := by
  rw [slotPoison_eq, h, if_neg Bool.false_ne_true]
  exact (sameSpace_slotWalked s ctx q i).mem

/-! ### A kick (R61) -/

section
variable {s : State} {ctx q n : Nat} {v : BitVec 64}

/-- A kick whose tail, check field and last slot agree accepts its packets. -/
theorem takeKick_accepted (hon : (queueOf s ctx q).state = 1) (hq : field v.toNat 48 6 = q) (hzero : field v.toNat 54 10 = 0)
    (hn : n = (field v.toNat 0 32 + 2 ^ 32 - (queueOf s ctx q).accepted % 2 ^ 32) % 2 ^ 32) (h0 : n ≠ 0)
    (hroom : n + ((queueOf s ctx q).accepted - (queueOf s ctx q).head) ≤ ringSize s ctx q)
    (hcheck : field v.toNat 32 16 = (field v.toNat 0 32 + 2 ^ 32 - 1) % 2 ^ 16)
    (hfresh : staleAt (slotImage s ctx q ((queueOf s ctx q).accepted + n - 1)) ((queueOf s ctx q).accepted + n - 1) = false) :
    takeKick s ctx q v = onQueue (slotPoison s ctx q ((queueOf s ctx q).accepted + n - 1)) ctx q fun u =>
      { u with accepted := u.accepted + n } := by
  have hargs : ((queueOf s ctx q).state != 1 || field v.toNat 48 6 != q || field v.toNat 54 10 != 0) = false := by
    rw [hon, hq, hzero]
    simp
  simp only [takeKick, hargs, ← hn, beq_eq_false_iff_ne.2 h0, if_neg (Nat.not_lt.2 hroom), hcheck, bne_self_eq_false, hfresh,
    Bool.false_eq_true, if_false]

theorem exec_kick (hctx : ctx < Config.contexts) (hq64 : q < 64) (hon : (queueOf s ctx q).state = 1)
    (hkicks : (queueOf s ctx q).kicks = []) (hkicking : (queueOf s ctx q).kicking = none) (hq : field v.toNat 48 6 = q)
    (hzero : field v.toNat 54 10 = 0)
    (hn : n = (field v.toNat 0 32 + 2 ^ 32 - (queueOf s ctx q).accepted % 2 ^ 32) % 2 ^ 32) (h0 : n ≠ 0)
    (hroom : n + ((queueOf s ctx q).accepted - (queueOf s ctx q).head) ≤ ringSize s ctx q)
    (hcheck : field v.toNat 32 16 = (field v.toNat 0 32 + 2 ^ 32 - 1) % 2 ^ 16)
    (hw : slotWaits s ctx q ((queueOf s ctx q).accepted + n - 1) = false)
    (hfresh : staleAt (slotImage s ctx q ((queueOf s ctx q).accepted + n - 1)) ((queueOf s ctx q).accepted + n - 1) = false) :
    ∃ t, exec (.kick ctx q v) s = .next t ∧ (queueOf t ctx q).accepted = (queueOf s ctx q).accepted + n ∧
      (queueOf t ctx q).head = (queueOf s ctx q).head ∧
      (slotPoison s ctx q ((queueOf s ctx q).accepted + n - 1) = s → t.mem = s.mem) := by
  let s1 := onQueue s ctx q fun u => { u with kicks := u.kicks ++ [v] }
  let s2 := onQueue s1 ctx q fun u => { u with kicks := [] }
  have hq1 : queueOf s1 ctx q = { queueOf s ctx q with kicks := [v] } := by rw [queueOf_onQueue_self, hkicks]; rfl
  have hq2 : queueOf s2 ctx q = { queueOf s ctx q with kicks := [] } := by rw [queueOf_onQueue_self, hq1]
  have hspace1 : SameSpace s s1 := .onQueue s ctx q _
  have hspace2 : SameSpace s s2 := hspace1.trans (.onQueue s1 ctx q _)
  have hbase1 : reg (ctxOf s1 ctx) (0x40 * q) = reg (ctxOf s ctx) (0x40 * q) := reg_onQueue s ctx q _ _
  have hbase2 : reg (ctxOf s2 ctx) (0x40 * q) = reg (ctxOf s ctx) (0x40 * q) := (reg_onQueue s1 ctx q _ _).trans hbase1
  have hsize1 : ringSize s1 ctx q = ringSize s ctx q := ringSize_onQueue s ctx q _
  have hsize2 : ringSize s2 ctx q = ringSize s ctx q := (ringSize_onQueue s1 ctx q _).trans hsize1
  have hlast : lastKicked s1 ctx q v = (queueOf s ctx q).accepted + n - 1 := by
    simp only [lastKicked, hq1, hn]
  have hwait : kickWaits s1 ctx q v = false := by
    rw [kickWaits, hlast, slotWaits_congr hspace1 hbase1 hsize1, hw, Bool.and_false]
  have htake := takeKick_accepted (s := s2) (v := v) (n := n) (by rw [hq2]; exact hon) hq hzero (by rw [hq2]; exact hn) h0
    (by rw [hq2, hsize2]; exact hroom) hcheck (by rw [hq2, slotImage_congr hspace2 hbase2 hsize2]; exact hfresh)
  rw [show (queueOf s2 ctx q).accepted = (queueOf s ctx q).accepted by rw [hq2]] at htake
  have hexec : exec (.kick ctx q v) s = .next (onQueue (slotPoison s2 ctx q ((queueOf s ctx q).accepted + n - 1)) ctx q fun u =>
      { u with accepted := u.accepted + n }) := by
    rw [show exec (.kick ctx q v) s = queueEvent s ctx q (runKicks s1 ctx q) from rfl, queueEvent_eq hctx hq64, runKicks, hq1,
      show [v].length = 0 + 1 from rfl, nextKicks, hq1]
    simp only [hkicking, Option.isSome_none, Bool.false_eq_true, if_false, hwait]
    exact congrArg Host.Outcome.next htake
  have hqueue := RecordKept.queueOf (.slotPoison s2 ctx q ((queueOf s ctx q).accepted + n - 1)) ctx q
  refine ⟨_, hexec, ?_, ?_, fun hsame => ?_⟩
  · rw [queueOf_onQueue_self, hqueue, hq2]
  · rw [queueOf_onQueue_self, hqueue, hq2]
  · refine (mem_slotPoison ?_).trans hspace2.mem
    rw [hspace2.poisonSpace, slotAddress_congr hbase2 hsize2]
    exact not_poison_of_slotPoison hsame

end

/-! ### Re-fetches and fetches (R55-R57, R62) -/

theorem exec_kickRefetch {s : State} {ctx q : Nat} (hctx : ctx < Config.contexts) (hq : q < 64) :
    exec (.kickRefetch ctx q) s = .next (match (queueOf s ctx q).kicking, (queueOf s ctx q).stale with
      | some (n, v), _ => if slotWaits s ctx q (lastKicked s ctx q v) then s else refetchKick s ctx q n v
      | none, some n => if slotWaits s ctx q (queueOf s ctx q).head then s else refetchHead s ctx q n
      | none, none => runKicks s ctx q) :=
  queueEvent_eq hctx hq _

theorem exec_packetFetchResponse {s : State} {ctx q : Nat} (hctx : ctx < Config.contexts) (hq : q < 64)
    (hmay : mayFetch s ctx q = true) (hw : slotWaits s ctx q (queueOf s ctx q).head = false)
    (hfresh : staleAt (slotImage s ctx q (queueOf s ctx q).head) (queueOf s ctx q).head = false)
    (hok : packetOk (slotImage s ctx q (queueOf s ctx q).head) = true)
    (hfirst : (queueOf s ctx q).packets = [] ∨
      (flag (imageAt (slotImage s ctx q (queueOf s ctx q).head) 1 1) 0 = false ∧
        imageAt (slotImage s ctx q (queueOf s ctx q).head) 0 1 ≠ 6)) :
    ∃ t, exec (.packetFetchResponse ctx q) s = .next t ∧ (queueOf t ctx q).head = (queueOf s ctx q).head + 1 ∧
      (queueOf t ctx q).packets = (queueOf s ctx q).packets ++
        [{ index := (queueOf s ctx q).head, number := (queueOf s ctx q).base + (queueOf s ctx q).head + 1,
           image := slotImage s ctx q (queueOf s ctx q).head, since := s.mtime
           slack := reg (ctxOf s ctx) 0x1828 }] := by
  have hbarrier : ((flag (imageAt (slotImage s ctx q (queueOf s ctx q).head) 1 1) 0 ||
      imageAt (slotImage s ctx q (queueOf s ctx q).head) 0 1 == 6) && !(queueOf s ctx q).packets.isEmpty) = false := by
    obtain hnone | ⟨hflag, hop⟩ := hfirst
    · rw [hnone, List.isEmpty_nil, Bool.not_true, Bool.and_false]
    · rw [hflag, beq_eq_false_iff_ne.2 hop]
      rfl
  have hexec : exec (.packetFetchResponse ctx q) s = .next (onQueue s ctx q fun u => { u with
      head := u.head + 1
      packets := u.packets ++
        [{ index := u.head, number := u.base + u.head + 1, image := slotImage s ctx q (queueOf s ctx q).head
           since := s.mtime, slack := reg (ctxOf s ctx) 0x1828 }] }) := by
    rw [show exec (.packetFetchResponse ctx q) s = execPacketFetchResponse ctx q s from rfl, execPacketFetchResponse,
      queueEvent_eq hctx hq]
    simp only [hmay, hw, hfresh, hok, hbarrier, Bool.not_true, Bool.or_self, Bool.false_eq_true, if_false]
  refine ⟨_, hexec, ?_, ?_⟩ <;> rw [queueOf_onQueue_self]

/-! ### A packet's completion (R64, R65) -/

/-- The pieces of a range of host memory are its pages. -/
theorem hostSpanOf_lengths {s : State} {ctx : Nat} {l : List (Nat × Nat)} {ps : List (Loc × Nat)}
    (h : hostSpanOf s ctx l = .ok ps) : ps.map (·.2) = l.map (·.2) := by
  induction l generalizing ps with
  | nil =>
    rw [hostSpanOf, Span.ok.injEq] at h
    rw [← h]
    rfl
  | cons p l ih =>
    rw [hostSpanOf] at h
    split at h
    · split at h
      · next qs hqs =>
        rw [← Span.ok.inj h, List.map_cons, List.map_cons, ih hqs]
      · next hno =>
        exact absurd h (hno ps)
    · exact absurd h (by simp)

/-- A range of eight aligned bytes lies in one page. -/
theorem pages_aligned {a : Nat} (ha : a % 8 = 0) : pages a 8 = [(a, 8)] := by
  have hm : Nat.min 8 (65536 - a % 65536) = 8 := Nat.min_eq_left (by omega)
  rw [pages, show 8 / 65536 + 2 = 1 + 1 by decide, cutPages]
  simp only [hm]
  rfl

theorem irqs_storeAt_wide {s : State} {l : Loc} {bs : List Byte} (hbs : bs.length = 8) : (storeAt s l bs).irqs = s.irqs := by
  have hwrite : ∀ (u : State) (l : Loc), (writeAt u l bs).irqs = u.irqs := fun u l => by
    simp only [writeAt]
    split <;> rfl
  cases l with
  | bar0 o => simp only [storeAt, windowWrite, hbs]; rfl
  | store c o =>
    simp only [storeAt, hwrite, taintStore]
    split
    · split <;> rfl
    · rfl
  | hbm | peer | host | refused => exact hwrite s _

/-- A write of eight aligned bytes to host memory raises no interrupt: a port's window takes none of that width. -/
theorem irqs_writeSpace_host {s t : State} {ctx a : Nat} {bs : List Byte} (hbs : bs.length = 8) (ha : a % 8 = 0)
    (h : writeSpace s ctx false a bs = some t) : t.irqs = s.irqs := by
  rw [writeSpace, hbs] at h
  split at h
  · next ps hps =>
    have hlen := hostSpanOf_lengths (show hostSpanOf s ctx (pages a 8) = .ok ps from hps)
    rw [pages_aligned ha] at hlen
    obtain ⟨p, rfl⟩ : ∃ p, ps = [p] := List.length_eq_one_iff.1 (by simpa using congrArg List.length hlen)
    obtain ⟨l, n⟩ := p
    obtain rfl : n = 8 := by simpa using hlen
    rw [← Option.some.inj h]
    exact irqs_storeAt_wide (by rw [List.length_take, hbs]; rfl)
  · exact absurd h (by simp)

theorem mirror_kept (s : State) (ctx q : Nat) :
    queueOf (mirror s ctx q) ctx q = queueOf s ctx q ∧ (mirror s ctx q).irqs = s.irqs := by
  unfold mirror
  split
  · exact ⟨rfl, rfl⟩
  next a ha =>
  have hal : a % 8 = 0 := by
    simp only [mirrorAt] at ha
    split at ha
    · rw [← Option.some.inj ha]
      omega
    · exact absurd ha (by simp)
  cases hw : writeSpace s ctx false a (toBytes 8 (queueOf s ctx q).line.value) with
  | none => exact ⟨rfl, rfl⟩
  | some t =>
    exact ⟨RecordKept.queueOf (.of_traceKept (.of_writeSpace hw)) ctx q, irqs_writeSpace_host (toBytes_length 8 _) hal hw⟩

theorem settleQueue_kept (u : Queue) : (settleQueue u).packets = u.packets ∧ (settleQueue u).line = u.line := by
  rw [settleQueue]
  split <;> exact ⟨rfl, rfl⟩

theorem exec_packetComplete {s : State} {ctx q number status : Nat} {p : Packet} (hctx : ctx < Config.contexts) (hq : q < 64)
    (hp : packetOf s ctx q number = some p) (hstatus : p.status = some status) (hmay : mayComplete s ctx q p = true)
    (hentry : flag (imageAt p.image 1 1) 1 = false) (hirq : flag (imageAt p.image 1 1) 2 = false) :
    ∃ t, exec (.packetComplete ctx q number) s = .next t ∧ packetOf t ctx q number = none ∧
      (queueOf t ctx q).line = tlComplete (queueOf s ctx q).line number ∧ t.irqs = s.irqs := by
  have hnumber : p.number = number := by simpa using List.find?_some hp
  let s1 := onQueue s ctx q fun u =>
    settleQueue { u with packets := u.packets.filter (·.number != p.number), line := tlComplete u.line p.number }
  let t := if (queueOf s1 ctx q).line.value == (queueOf s ctx q).line.value then s1 else mirror s1 ctx q
  have hexec : exec (.packetComplete ctx q number) s = .next t := by
    rw [show exec (.packetComplete ctx q number) s = execPacketComplete ctx q number s from rfl, execPacketComplete,
      queueEvent_eq hctx hq]
    simp only [hp, hstatus, hmay, if_true, completePacket, hentry, hirq, Bool.false_eq_true, if_false, Option.isSome_none]
    rfl
  have hkept : queueOf t ctx q = queueOf s1 ctx q ∧ t.irqs = s.irqs := by
    obtain ⟨hqueue, hirqs⟩ := mirror_kept s1 ctx q
    by_cases hline : ((queueOf s1 ctx q).line.value == (queueOf s ctx q).line.value) = true
    · rw [show t = s1 from if_pos hline]
      exact ⟨rfl, rfl⟩
    · rw [show t = mirror s1 ctx q from if_neg hline]
      exact ⟨hqueue, hirqs⟩
  obtain ⟨hpackets, hline⟩ := settleQueue_kept { queueOf s ctx q with
    packets := (queueOf s ctx q).packets.filter (·.number != p.number), line := tlComplete (queueOf s ctx q).line p.number }
  have hq1 : queueOf t ctx q = settleQueue { queueOf s ctx q with
      packets := (queueOf s ctx q).packets.filter (·.number != p.number)
      line := tlComplete (queueOf s ctx q).line p.number } := hkept.1.trans (queueOf_onQueue_self s ctx q _)
  refine ⟨t, hexec, ?_, ?_, hkept.2⟩
  · rw [packetOf, hq1, hpackets, hnumber, List.find?_eq_none]
    intro x hx
    simpa using (List.mem_filter.1 hx).2
  · rw [hq1, hline, hnumber]

/-- Settles O10. -/
theorem kicksFetchAndCompletion : Obligations.KicksFetchAndCompletion := by
  unfold Obligations.KicksFetchAndCompletion
  refine ⟨fun s ctx q n v => exec_kick, ?none, ?kicking, ?stale, fun s ctx q => exec_packetFetchResponse,
    fun s ctx q number status p => exec_packetComplete⟩
  case none =>
    intro s ctx q hctx hq hkick hstale hkicks
    rw [exec_kickRefetch hctx hq, hkick, hstale, runKicks, hkicks]
    rfl
  case kicking =>
    intro s ctx q n v hctx hq hkick hw
    rw [exec_kickRefetch hctx hq, hkick]
    simp only [hw, Bool.false_eq_true, if_false]
  case stale =>
    intro s ctx q n hctx hq hkick hstale hw
    rw [exec_kickRefetch hctx hq, hkick, hstale]
    simp only [hw, Bool.false_eq_true, if_false]

end Sys2Proof.Slice0

/-! PROOFS. What the writes to registers and the ring heads and controls store (03 R49-R53, R65-R67, R163, R166). -/

namespace Sys2Proof.Slice0
open Sys2Proof.Machine

theorem field_lt (v lo w : Nat) : field v lo w < 2 ^ w := Nat.mod_lt _ (Nat.two_pow_pos w)

/-! ### Rings with nothing to post -/

theorem pumpEntries_of_empty {s : State} {ctx : Nat} (h : (ctxOf s ctx).crwait = []) : pumpEntries s ctx = s := by
  rw [pumpEntries, h]; rfl

theorem pumpItems_of_empty {s : State} {ctx : Nat} (hwait : (ctxOf s ctx).itwait = [])
    (hheld : (ctxOf s ctx).itheld = []) : pumpItems s ctx = s := by
  rw [pumpItems, hwait]
  show releaseItems s ctx (ctxOf s ctx).itheld = s
  rw [hheld]; rfl

theorem endKilled_of_live {s : State} {ctx : Nat} (h : (ctxOf s ctx).killed = false) : endKilled s ctx = s := by
  show (if (ctxOf s ctx).killed && unposted (ctxOf s ctx) == 0 then onCtx s ctx fun _ => {} else s) = s
  rw [h]; rfl

theorem badRing_eq_false {en v : Nat} (hlo : 4 ≤ field v 0 5) (hhi : field v 0 5 ≤ 16) : badRing en v = false := by
  rw [badRing, decide_eq_true hlo, decide_eq_true hhi]
  exact Bool.and_false _

/-! ### Plain registers and TOKCFG -/

/-- A write to a plain register of the context page that the view may write. -/
theorem writePage_plain (s : State) {ctx off mask : Nat} {pf pfOnly : Bool} (v : Nat)
    (hplain : plainReg off = some (mask, pfOnly)) (hmay : (pfOnly && !pf) = false) (hoff : off ≠ 0x185C) :
    writePage s ctx pf off v =
      onCtx s ctx fun c => setReg c off ((BitVec.ofNat 64 v &&& BitVec.ofNat 64 mask).toNat) := by
  rw [writePage, hplain]
  simp only [hmay, Bool.false_eq_true, if_false, beq_eq_false_iff_ne.mpr hoff]

theorem writePage_physicalOnly (s : State) {ctx off mask : Nat} (v : Nat)
    (hplain : plainReg off = some (mask, true)) : writePage s ctx false off v = s := by
  rw [writePage, hplain]; rfl

theorem writePage_tokens (s : State) (ctx v : Nat) : writePage s ctx true 0x185C v = writeTokens s ctx v := rfl

theorem mtime_refillBucket (s : State) (ctx : Nat) : (refillBucket s ctx).mtime = s.mtime := by
  rw [refillBucket]; split <;> rfl

/-- Just after a write of TOKCFG no multiple of PERIOD is uncounted. -/
theorem refillBucket_writeTokens (s : State) (ctx v : Nat) :
    refillBucket (writeTokens s ctx v) ctx = writeTokens s ctx v := by
  have hcounted : (ctxOf (writeTokens s ctx v) ctx).refilled = (writeTokens s ctx v).mtime := by
    rw [writeTokens, ctxOf_onCtx_self]
    exact (mtime_refillBucket s ctx).symm
  rw [refillBucket, hcounted]
  exact if_pos (beq_self_eq_true _)

/-! ### R49-R53, R65-R67, R163, R166 -/

/-- An event of a context the device has. -/
theorem ctxEvent_of_lt (s : State) {ctx : Nat} (t : State) (h : ctx < Config.contexts) : ctxEvent s ctx t = .next t := by
  rw [ctxEvent, if_pos h]

theorem exec_registerWrite_context (s : State) {ctx : Nat} (pf : Bool) (off : Nat) (v : BitVec 64)
    (h : ctx < Config.contexts) :
    exec (.registerWrite (.context ctx pf off) v) s = .next (writePage s ctx pf off v.toNat) := by
  rw [show exec (.registerWrite (.context ctx pf off) v) s = execRegisterWrite (.context ctx pf off) v s from rfl,
    execRegisterWrite, if_pos h]

/-- Settles O12: each write by what it stores under its mask; rings with nothing waiting post nothing. -/
theorem registerWritesStore : Obligations.RegisterWritesStore := by
  unfold Obligations.RegisterWritesStore
  refine ⟨?plain, ?privileged, ?modid, ?tokens, ?gfbase, ?crhead, ?crctl, ?trhead, ?trctl, ?ithead, ?itctl, ?dtctl,
    ?timer, ?unmask⟩
  case plain =>
    intro s ctx off mask pf v hctx hoff hplain
    have hwrite : writePage s ctx pf off v.toNat =
        onCtx s ctx fun c => setReg c off ((v &&& BitVec.ofNat 64 mask).toNat) := by
      obtain hplain | ⟨hplain, hpf⟩ := hplain
      · simpa using writePage_plain s (pf := pf) v.toNat hplain rfl hoff
      · simpa using writePage_plain s (pf := pf) v.toNat hplain (by rw [hpf]; rfl) hoff
    have hexec := (exec_registerWrite_context s pf off v hctx).trans (congrArg _ hwrite)
    refine ⟨_, hexec, ?_, ?_, fun c hc => ctxOf_onCtx_ne _ _ hc⟩
    · rw [ctxOf_onCtx_self, reg_setReg_self]
      exact Nat.mod_eq_of_lt (BitVec.isLt _)
    · intro o ho
      rw [ctxOf_onCtx_self, reg_setReg_ne _ _ ho]
  case privileged =>
    intro s ctx off mask v hplain
    rw [show exec (.registerWrite (.context ctx false off) v) s = execRegisterWrite (.context ctx false off) v s from rfl,
      execRegisterWrite]
    show Host.Outcome.next (if ctx < Config.contexts then writePage s ctx false off v.toNat else s) = .next s
    rw [writePage_physicalOnly s _ hplain, ite_self]
  case modid => exact fun s v => ⟨_, rfl, rfl⟩
  case tokens =>
    intro s ctx v hctx
    have hexec := exec_registerWrite_context s true 0x185C v hctx
    rw [writePage_tokens] at hexec
    refine ⟨_, hexec, ?_, ?_, ?_⟩
    · rw [writeTokens, ctxOf_onCtx_self]
      exact (reg_setReg_self _ _ _).trans (Nat.mod_eq_of_lt ((Nat.mod_lt _ (by decide)).trans (by decide)))
    · rw [writeTokens, ctxOf_onCtx_self]
    · rw [show exec (.bucketRefill ctx) (writeTokens s ctx v.toNat) = execBucketRefill ctx (writeTokens s ctx v.toNat)
        from rfl, execBucketRefill, ctxEvent_of_lt _ _ hctx, refillBucket_writeTokens]
  case gfbase =>
    intro s ctx v hctx
    refine ⟨_, ctxEvent_of_lt s _ hctx, ?_, ?_⟩
    · rw [ctxOf_onCtx_self, reg_setReg_self]
      have hv := field_lt v.toNat 5 51
      omega
    · intro e he
      obtain ⟨w, -, rfl⟩ := List.mem_map.mp he
      rfl
  case crhead =>
    intro s ctx v hctx hwait
    have hpump : pumpEntries (onCtx s ctx fun c => setReg c 0x1818 v.toNat) ctx =
        onCtx s ctx fun c => setReg c 0x1818 v.toNat := pumpEntries_of_empty (by rw [ctxOf_onCtx_self]; exact hwait)
    have hexec := (ctxEvent_of_lt s _ hctx).trans (congrArg Host.Outcome.next hpump)
    refine ⟨_, hexec, ?_, rfl⟩
    rw [ctxOf_onCtx_self, reg_setReg_self]
    omega
  case crctl =>
    intro s ctx v hctx hwait hlo hhi
    have hexec : exec (.crctlWrite ctx v) s =
        .next (onCtx s ctx fun c => setReg c 0x1810 (field v.toNat 31 1 * 2 ^ 31 + field v.toNat 0 5)) := by
      rw [show exec (.crctlWrite ctx v) s = execCrctlWrite ctx v s from rfl, execCrctlWrite, ctxEvent_of_lt _ _ hctx,
        badRing_eq_false hlo hhi, if_neg Bool.false_ne_true,
        pumpEntries_of_empty (by rw [ctxOf_onCtx_self]; exact hwait)]
    refine ⟨_, hexec, ?_⟩
    rw [ctxOf_onCtx_self, reg_setReg_self]
    have he := field_lt v.toNat 31 1
    omega
  case trhead =>
    intro s ctx ring v hctx hring
    have hexec : exec (.trheadWrite ctx ring v) s =
        .next (onCtx s ctx fun c => setReg c (ringAt ring + 16) v.toNat) := by
      rw [show exec (.trheadWrite ctx ring v) s = execTrheadWrite ctx ring v s from rfl, execTrheadWrite,
        ctxEvent_of_lt _ _ hctx, if_pos hring]
    refine ⟨_, hexec, ?_⟩
    rw [ctxOf_onCtx_self, reg_setReg_self]
    omega
  case trctl =>
    intro s ctx ring v hctx hring hlo hhi
    have hexec : exec (.trctlWrite ctx ring v) s =
        .next (onCtx s ctx fun c => setReg c (ringAt ring + 8) (field v.toNat 63 1 * 2 ^ 63 +
          field v.toNat 32 11 * 2 ^ 32 + field v.toNat 13 19 * 2 ^ 13 + field v.toNat 0 5)) := by
      rw [show exec (.trctlWrite ctx ring v) s = execTrctlWrite ctx ring v s from rfl, execTrctlWrite,
        ctxEvent_of_lt _ _ hctx, badRing_eq_false hlo hhi, if_neg (by simpa using hring)]
    refine ⟨_, hexec, ?_⟩
    rw [ctxOf_onCtx_self, reg_setReg_self]
    have he := field_lt v.toNat 63 1
    have hv := field_lt v.toNat 32 11
    have hc := field_lt v.toNat 13 19
    have hz := field_lt v.toNat 0 5
    omega
  case ithead =>
    intro s ctx v hctx hwait hheld hlive
    have hexec : exec (.itheadWrite ctx v) s = .next (onCtx s ctx fun c => setReg c 0x18B4 v.toNat) := by
      rw [show exec (.itheadWrite ctx v) s = execItheadWrite ctx v s from rfl, execItheadWrite, ctxEvent_of_lt _ _ hctx,
        pumpItems_of_empty (by rw [ctxOf_onCtx_self]; exact hwait) (by rw [ctxOf_onCtx_self]; exact hheld),
        endKilled_of_live (by rw [ctxOf_onCtx_self]; exact hlive)]
    refine ⟨_, hexec, ?_⟩
    rw [ctxOf_onCtx_self, reg_setReg_self]
    omega
  case itctl =>
    intro s ctx v hctx hwait hheld hlive hlo hhi
    have hexec : exec (.itctlWrite ctx v) s = .next (onCtx s ctx fun c =>
        { setReg c 0x18B0 (field v.toNat 31 1 * 2 ^ 31 + field v.toNat 0 5) with
          itfull := c.itfull && !flag v.toNat 30 }) := by
      rw [show exec (.itctlWrite ctx v) s = execItctlWrite ctx v s from rfl, execItctlWrite, ctxEvent_of_lt _ _ hctx,
        badRing_eq_false hlo hhi, if_neg Bool.false_ne_true,
        pumpItems_of_empty (by rw [ctxOf_onCtx_self]; exact hwait) (by rw [ctxOf_onCtx_self]; exact hheld),
        endKilled_of_live (by rw [ctxOf_onCtx_self]; exact hlive)]
    refine ⟨_, hexec, ?_, ?_⟩
    · rw [ctxOf_onCtx_self]
      have he := field_lt v.toNat 31 1
      have hz := field_lt v.toNat 0 5
      refine (reg_setReg_self (ctxOf s ctx) _ _).trans ?_
      omega
    · intro hclear
      rw [ctxOf_onCtx_self]
      show ((ctxOf s ctx).itfull && !flag v.toNat 30) = false
      rw [hclear]
      exact Bool.and_false _
  case dtctl =>
    intro s ctx v hctx hlo hhi hoff
    have hexec : exec (.dtctlWrite ctx v) s = .next (onCtx s ctx fun c =>
        { setReg c 0x18C8 (field v.toNat 30 2 * 2 ^ 30 + field v.toNat 0 5) with
          dtfull := c.dtfull && !flag v.toNat 29 }) := by
      rw [show exec (.dtctlWrite ctx v) s = execDtctlWrite ctx v s from rfl, execDtctlWrite, ctxEvent_of_lt _ _ hctx,
        decide_eq_true hlo, decide_eq_true hhi, if_neg (by decide), hoff, if_neg Bool.false_ne_true]
    refine ⟨_, hexec, ?_⟩
    rw [ctxOf_onCtx_self]
    have he := field_lt v.toNat 30 2
    have hz := field_lt v.toNat 0 5
    refine (reg_setReg_self (ctxOf s ctx) _ _).trans ?_
    omega
  case timer =>
    intro s ctx ring at_ hctx hset hdue
    rw [show exec (.tokenRingTimer ctx ring) s = execTokenRingTimer ctx ring s from rfl, execTokenRingTimer,
      ctxEvent_of_lt _ _ hctx, hset]
    exact congrArg _ (if_neg (Nat.not_lt.mpr hdue))
  case unmask =>
    intro s fn vec hpending
    have hexec : exec (.vectorUnmask fn vec) s = .next
        { s with
          masked := s.masked.filter (· != (fn, vec))
          msixPending := s.msixPending.filter (· != (fn, vec))
          irqs := s.irqs ++ [(fn, vec)] } := by
      rw [show exec (.vectorUnmask fn vec) s = execVectorUnmask fn vec s from rfl, execVectorUnmask]
      exact congrArg _ (if_pos (List.contains_iff_mem.mpr hpending))
    exact ⟨_, hexec, rfl, by simp, by simp⟩

end Sys2Proof.Slice0

/-! PROOFS. The BAR2 window, ATS and PRI, the driver's answers to a halt, and the resets (03 R50-R51, 04 R71, R80,
08 R163-R164). -/

namespace Sys2Proof.Slice0
open Sys2Proof.Machine

/-! ### The BAR2 window -/

/-- What one address's translation keeps, that of a list of pages keeps. -/
theorem spanBy_kept {R : State → State → Prop} (hrefl : ∀ s, R s s) (htrans : ∀ {s t u}, R s t → R t u → R s u)
    {f : State → Nat → Look × State} (hf : ∀ s va, R s (f s va).2) (s : State) (ps : List (Nat × Nat)) :
    R s (spanBy f s ps).2 := by
  induction ps generalizing s with
  | nil => exact hrefl s
  | cons p rest ih =>
    obtain ⟨va, n⟩ := p
    have hva := hf s va
    unfold spanBy
    split
    next l t hl =>
      rw [hl] at hva
      have hrest := ih t
      split
      next hr => rw [hr] at hrest; exact htrans hva hrest
      next => exact htrans hva hrest
    next hl => rw [hl] at hva; exact hva

theorem mem_tlbInsert (s : State) (core ctx level e va : Nat) : (tlbInsert s core ctx level e va).mem = s.mem := by
  unfold tlbInsert
  split
  next w t h =>
    split at h
    · rw [Prod.mk.injEq] at h
      rw [h.2]
      rfl
    · rw [drawWord, Prod.mk.injEq] at h
      rw [← h.2]
      rfl

theorem mem_windowLook (ctx via kind : Nat) (s : State) (va : Nat) : (windowLook ctx via kind s va).2.mem = s.mem := by
  unfold windowLook
  split
  · rw [translate_state]
  · split
    · rfl
    · split
      · rfl
      · split
        · rfl
        · rfl
        · dsimp only
          split
          · exact mem_tlbInsert _ _ _ _ _ _
          · rfl

theorem mem_windowSpan {s u : State} {ctx : Nat} {w : WindowOp} {r : Span} (h : windowSpan s ctx w = some (r, u)) :
    u.mem = s.mem := by
  rw [windowSpan, Option.map_eq_some_iff] at h
  obtain ⟨a, -, ha⟩ := h
  split at ha
  · rw [← (Prod.mk.inj ha).2]
  · have hkept := spanBy_kept (R := fun s u => u.mem = s.mem) (fun _ => rfl) (fun h h' => h'.trans h)
      (fun s va => mem_windowLook ctx w.via (bit01 w.data.isSome) s va) s (pages a w.bytes)
    rwa [ha] at hkept

theorem mem_windowWalks (s : State) (ctx : Nat) (w : WindowOp) : (windowWalks s ctx w).mem = s.mem := by
  unfold windowWalks
  split
  · split <;> rfl
  · rfl

/-- The only access of a window performs, or waits as the window holds it. -/
theorem windowOp_alone {s : State} {ctx offset n : Nat} {data : Option (List (BitVec 8))}
    (hempty : (ctxOf s ctx).window = []) :
    windowOp s ctx { offset := offset, bytes := n, data := data } =
      (match windowAccess (withWindow s ctx offset n data) ctx (windowCalled s offset n data) with
        | none => withWindow s ctx offset n data
        | some t => onCtx t ctx fun c => { c with window := [] }) := by
  have hstand : onCtx (drawWord s).2 ctx (fun c => { c with window := c.window ++ [windowCalled s offset n data] }) =
      withWindow s ctx offset n data := by
    simp only [onCtx, withWindow]
    rw [show (ctxOf (drawWord s).2 ctx).window = [] from hempty]
    rfl
  refine (congrArg (fun t => runWindow t ctx) hstand).trans ?_
  rw [runWindow, withWindow, ctxOf_onCtx_self]
  rfl

theorem exec_bar2Read {s : State} {ctx : Nat} (offset n : Nat) (hctx : ctx < Config.contexts)
    (hempty : (ctxOf s ctx).window = []) :
    exec (.bar2Read ctx offset n) s = .next
      (match windowAccess (withWindow s ctx offset n none) ctx (windowCalled s offset n none) with
        | none => withWindow s ctx offset n none
        | some t => onCtx t ctx fun c => { c with window := [] }) :=
  (ctxEvent_of_lt s _ hctx).trans (congrArg _ (windowOp_alone hempty))

/-! ### ATS and PRI -/

/-- What an ATS invalidation leaves of a core: no translation of the context that meets its range (R80). -/
def invalidated (ctx a n : Nat) (k : Core) : Core :=
  { k with
    tlb := k.tlb.filter fun t => !(t.ctx == ctx && leafMeets t.leaf.toNat t.size a n)
    walked := k.walked.filter fun w => !(w.ctx == ctx && walkedMeets w.result a n) }

theorem ats_sendInvalidations (s : State) (ctx : Nat) : (ctxOf (sendInvalidations s ctx) ctx).ats = (ctxOf s ctx).ats := by
  rw [sendInvalidations, ctxOf_onCtx_self]

/-- A page that joins the groups is in one. -/
theorem joinPage_mem (fits : PageGroup → Bool) (page : Nat) (cores : List Nat) (gs : List PageGroup) :
    (joinPage fits page cores gs).any (·.pages.contains page) = true := by
  induction gs with
  | nil => simp [joinPage]
  | cons g rest ih =>
    rw [joinPage]
    split
    · simp
    · rw [List.any_cons, ih, Bool.or_true]

theorem inGroup_requestPage (c : Ctx) (page : Nat) (cores : List Nat) : inGroup (requestPage c page cores) page = true :=
  joinPage_mem _ page cores c.priGroups

theorem ats_requestPage (c : Ctx) (page : Nat) (cores : List Nat) : (requestPage c page cores).ats = c.ats := rfl

/-- A completion without a target, of a page no window access waits for. -/
theorem noTranslation_of_quiet {s : State} {ctx page : Nat} (hwindow : (ctxOf s ctx).window = []) :
    noTranslation s ctx page = onCtx (onCtx s ctx fun c => { c with
        ats := put c.ats page none, asked := c.asked.filter fun a => askedPage s ctx a != some page }) ctx
      fun c => requestPage c page
        (((ctxOf s ctx).asked.filter fun a => askedPage s ctx a == some page).map (·.core)).eraseDups := by
  have hasks : windowAsks s ctx page = false := by
    rw [windowAsks, hwindow]
  rw [noTranslation, hasks]
  rfl

/-- A context with nothing to post and no window access. -/
structure PostsNothing (c : Ctx) : Prop where
  items : c.itwait = []
  held : c.itheld = []
  entries : c.crwait = []
  live : c.killed = false

theorem PostsNothing.pumped {s : State} {ctx : Nat} (h : PostsNothing (ctxOf s ctx)) :
    endKilled (pumpEntries (pumpItems s ctx) ctx) ctx = s := by
  rw [pumpItems_of_empty h.items h.held, pumpEntries_of_empty h.entries, endKilled_of_live h.live]

theorem find_erase_of_none {α : Type} {m : Map α} {k : Nat} (j : Nat) (h : find m k = none) :
    find (erase m j) k = none := by
  induction m with
  | nil => rfl
  | cons e m ih =>
    obtain ⟨i, v⟩ := e
    rw [find] at h
    split at h
    next => cases h
    next hne =>
      rw [erase]
      split
      · exact h
      · rw [find, if_neg hne]; exact ih h

theorem find_of_not_mem {α : Type} {m : Map α} {k : Nat} (h : k ∉ m.map (·.1)) : find m k = none := by
  induction m with
  | nil => rfl
  | cons e m ih =>
    obtain ⟨j, v⟩ := e
    rw [List.map_cons, List.mem_cons, not_or] at h
    obtain ⟨hj, hm⟩ := h
    rw [find, if_neg (by simpa using Ne.symm hj)]
    exact ih hm

theorem keys_erase_sublist {α : Type} (m : Map α) (k : Nat) : ((erase m k).map (·.1)).Sublist (m.map (·.1)) :=
  (erase_sublist m k).map _

/-- A table with distinct keys holds nothing at a key that was removed. -/
theorem find_erase_same {α : Type} {m : Map α} (hkeys : (m.map (·.1)).Nodup) (k : Nat) : find (erase m k) k = none := by
  induction m with
  | nil => rfl
  | cons e m ih =>
    obtain ⟨j, v⟩ := e
    rw [List.map_cons, List.nodup_cons] at hkeys
    obtain ⟨hj, hm⟩ := hkeys
    rw [erase]
    split
    next heq =>
      rw [beq_iff_eq] at heq
      subst heq
      exact find_of_not_mem hj
    next hne => rw [find, if_neg hne]; exact ih hm

theorem find_foldl_erase {α : Type} {m : Map α} (hkeys : (m.map (·.1)).Nodup) {ks : List Nat} {k : Nat} (hk : k ∈ ks) :
    find (ks.foldl erase m) k = none := by
  have hstay : ∀ (ks : List Nat) (m : Map α), find m k = none → find (ks.foldl erase m) k = none := by
    intro ks
    induction ks with
    | nil => exact fun m h => h
    | cons j ks ih => exact fun m h => ih _ (find_erase_of_none j h)
  induction ks generalizing m with
  | nil => cases hk
  | cons j ks ih =>
    rw [List.foldl_cons]
    rcases List.mem_cons.mp hk with rfl | hk
    · exact hstay ks _ (find_erase_same hkeys k)
    · exact ih (hkeys.sublist (keys_erase_sublist m j)) hk

/-- No HOST_PAGE stands in a page-fault list. -/
def NoHostPage (k : Core) : Prop := ∀ f ∈ k.faults, f.reason ≠ 0x26

theorem noHostPage_pageFailed (k : Core) : NoHostPage (pageFailed k) := by
  intro f hf
  obtain ⟨g, -, rfl⟩ := List.mem_map.mp hf
  split
  · show (0x27 : Nat) ≠ 0x26
    decide
  · next h => simpa using h

theorem noHostPage_foldl {s : State} {cores : List Nat} {k : Nat} (hk : k ∈ cores) :
    NoHostPage (coreOf (cores.foldl (fun s k => onCore s k pageFailed) s) k) := by
  have hstay : ∀ (cores : List Nat) (s : State), NoHostPage (coreOf s k) →
      NoHostPage (coreOf (cores.foldl (fun s k => onCore s k pageFailed) s) k) := by
    intro cores
    induction cores with
    | nil => exact fun s h => h
    | cons j cores ih =>
      refine fun s h => ih _ ?_
      by_cases hj : k = j
      · rw [hj, coreOf_onCore_self]; exact noHostPage_pageFailed _
      · rwa [coreOf_onCore_ne _ _ hj]
  induction cores generalizing s with
  | nil => cases hk
  | cons j cores ih =>
    rcases List.mem_cons.mp hk with rfl | hk
    · exact hstay cores _ (by rw [coreOf_onCore_self]; exact noHostPage_pageFailed _)
    · exact ih hk

theorem ctxs_foldl_pageFailed (cores : List Nat) (s : State) :
    (cores.foldl (fun s k => onCore s k pageFailed) s).ctxs = s.ctxs := by
  induction cores generalizing s with
  | nil => rfl
  | cons j cores ih => exact ih _

/-- Settles O13: an access that stands alone in its window performs or waits; ATS and PRI by the lists they change. -/
theorem windowAndHostAnswers : Obligations.WindowAndHostAnswers := by
  unfold Obligations.WindowAndHostAnswers
  refine ⟨?read, ?readFails, ?write, ?waits, ?invalidation, ?completion, ?response⟩
  case read =>
    intro s u ctx offset n ps hctx hempty hspan hclean
    have haccess : windowAccess (withWindow s ctx offset n none) ctx (windowCalled s offset n none) =
        some { u with readData := some (readPieces u ps) } := by
      rw [windowAccess, hspan]
      simp only [windowCalled, hclean, Bool.false_eq_true, if_false]
    have hexec := exec_bar2Read offset n hctx hempty
    rw [haccess] at hexec
    have hmem : u.mem = (withWindow s ctx offset n none).mem := mem_windowSpan hspan
    refine ⟨_, hexec, rfl, hmem, ?_⟩
    rw [ctxOf_onCtx_self]
  case readFails =>
    intro s ctx offset n hctx hempty hfails
    have haccess : windowAccess (withWindow s ctx offset n none) ctx (windowCalled s offset n none) =
        some { windowFault (windowWalks (withWindow s ctx offset n none) ctx (windowCalled s offset n none)) ctx with
          readData := some (List.replicate n 0xFF) } := by
      rw [windowAccess]
      obtain hnone | ⟨va, r, l, u, hstop⟩ := hfails
      · rw [hnone]; rfl
      · rw [hstop]; rfl
    have hexec := exec_bar2Read offset n hctx hempty
    rw [haccess] at hexec
    refine ⟨_, hexec, rfl, ?_, mem_windowWalks _ _ _⟩
    rw [ctxOf_onCtx_self]
    exact congrArg Ctx.winfault (ctxOf_onCtx_self (windowWalks _ ctx _) ctx fun c => { c with winfault := true })
  case write =>
    intro s u ctx offset data ps hctx hempty hspan
    have haccess : windowAccess (withWindow s ctx offset data.length (some data)) ctx
        (windowCalled s offset data.length (some data)) = some (writePieces u ps data) := by
      rw [windowAccess, hspan]; rfl
    have hexec := (ctxEvent_of_lt s (windowOp s ctx { offset := offset, bytes := data.length, data := some data })
      hctx).trans (congrArg _ (windowOp_alone hempty))
    rw [haccess] at hexec
    exact ⟨_, hexec, rfl⟩
  case waits =>
    intro s u ctx offset n va l hctx hempty hl hspan
    have haccess : windowAccess (withWindow s ctx offset n none) ctx (windowCalled s offset n none) = none := by
      rw [windowAccess, hspan]
      obtain rfl | rfl := hl <;> rfl
    have hexec := exec_bar2Read offset n hctx hempty
    rwa [haccess] at hexec
  case invalidation =>
    intro s ctx a n hctx
    refine ⟨_, ctxEvent_of_lt s _ hctx, rfl, ?_, ?_⟩
    · intro c e he hown
      have hcore : e ∈ (invalidated ctx a n (coreOf s c)).tlb :=
        (congrArg (e ∈ Core.tlb ·) (look_map_values ({} : Core) (invalidated ctx a n) rfl s.cores c)).mp he
      simpa [hown] using (List.mem_filter.mp hcore).2
    · intro p v hp
      rw [ats_sendInvalidations] at hp
      change (p, v) ∈ (ctxOf (onCtx s ctx fun c => { c with
        invalidating := c.invalidating ++ [(a, n)]
        ats := c.ats.filter fun e => !(e.1 * 65536 < a + n && a < e.1 * 65536 + 65536) }) ctx).ats at hp
      rw [ctxOf_onCtx_self] at hp
      have hmiss := (List.mem_filter.mp hp).2
      simp only [Bool.not_eq_true', Bool.and_eq_false_iff, decide_eq_false_iff_not] at hmiss
      exact fun hmeets => hmiss.elim (· hmeets.1) (· hmeets.2)
  case completion =>
    intro s ctx page target a hctx hasked hpage hats hgroup hwindow hitems hheld hentries hlive
    have hmay : mayAnswer (ctxOf s ctx) page = true := by
      rw [mayAnswer, hats, hgroup]; rfl
    have hexec : ∀ t, (match target with
          | some l => hasTranslation s ctx page l
          | none => noTranslation s ctx page) = t → PostsNothing (ctxOf t ctx) →
        exec (.atsTranslationCompletion ctx page target) s = .next t := by
      rintro t rfl hposts
      refine (ctxEvent_of_lt s _ hctx).trans (congrArg Host.Outcome.next ?_)
      rw [hmay]
      exact hposts.pumped
    have hgone : a ∉ (ctxOf s ctx).asked.filter fun a => askedPage s ctx a != some page := fun h => by
      simpa [hpage] using (List.mem_filter.mp h).2
    cases target with
    | some l =>
      refine ⟨hasTranslation s ctx page l, hexec _ rfl ?_, ?_, ?_, ?_⟩ <;>
        rw [hasTranslation, ctxOf_onCtx_self]
      · exact ⟨hitems, hheld, hentries, hlive⟩
      · exact find_put_self _ _ _
      · exact hgone
      · exact hgroup
    | none =>
      refine ⟨_, hexec _ (noTranslation_of_quiet hwindow) ?_, ?_, ?_, ?_⟩ <;> rw [ctxOf_onCtx_self]
      · rw [ctxOf_onCtx_self]
        exact ⟨hitems, hheld, hentries, hlive⟩
      · rw [ats_requestPage, ctxOf_onCtx_self]
        exact find_put_self _ _ _
      · rw [ctxOf_onCtx_self]
        exact hgone
      · exact inGroup_requestPage _ _ _
  case response =>
    intro s ctx g rest hctx hgroups
    have hserved : exec (.priResponse ctx true) s =
        .next (groupServed (onCtx s ctx fun c => { c with priGroups := rest }) ctx g) := by
      rw [show exec (.priResponse ctx true) s = execPriResponse ctx true s from rfl, execPriResponse,
        ctxEvent_of_lt _ _ hctx, hgroups]
      rfl
    have hfailed : exec (.priResponse ctx false) s =
        .next (groupFailed (onCtx s ctx fun c => { c with priGroups := rest }) ctx g) := by
      rw [show exec (.priResponse ctx false) s = execPriResponse ctx false s from rfl, execPriResponse,
        ctxEvent_of_lt _ _ hctx, hgroups]
      rfl
    refine ⟨?_, ?_, ?_⟩
    · intro hhalt
      have hstate : groupServed (onCtx s ctx fun c => { c with priGroups := rest }) ctx g =
          onCtx (onCtx s ctx fun c => { c with priGroups := rest }) ctx
            fun c => { c with ats := g.pages.foldl erase c.ats } := by
        rw [groupServed]
        simp only [ctxOf_onCtx_self, hhalt]
      rw [hstate] at hserved
      refine ⟨_, hserved, ?_, ?_⟩
      · simp only [ctxOf_onCtx_self]
      · intro hkeys page hp
        simp only [ctxOf_onCtx_self]
        exact find_foldl_erase hkeys hp
    · intro h hhalt hpaging horigin
      rw [hserved, groupServed]
      simp only [ctxOf_onCtx_self, hhalt, hpaging, List.contains_iff_mem.mpr horigin, Bool.and_self, if_true]
    · intro h hhalt hpaging horigin hquiet
      have hctxs : (ctxOf (g.cores.foldl (fun s k => onCore s k pageFailed)
          (onCtx s ctx fun c => { c with priGroups := rest })) ctx).halt = some h := by
        rw [ctxOf, ctxs_foldl_pageFailed]
        exact (congrArg Ctx.halt (ctxOf_onCtx_self s ctx _)).trans hhalt
      have hstate : groupFailed (onCtx s ctx fun c => { c with priGroups := rest }) ctx g =
          onCtx (g.cores.foldl (fun s k => onCore s k pageFailed) (onCtx s ctx fun c => { c with priGroups := rest }))
            ctx fun c => { c with halt := some { h with paging := false, reason := 0x27 } } := by
        rw [groupFailed]
        simp only [hctxs, hpaging, hquiet, List.contains_iff_mem.mpr horigin, Bool.not_true, Bool.false_eq_true,
          if_false]
      rw [hstate] at hfailed
      refine ⟨_, hfailed, ?_, ?_⟩
      · rw [ctxOf_onCtx_self]
      · exact fun k hk => noHostPage_foldl hk

/-! ### The driver's answers and the resets -/

/-- An answer to a halt that was given to the driver. -/
theorem driverAnswer_of_halt {s : State} {ctx : Nat} {h : Halt} (t : State) (hctx : ctx < Config.contexts)
    (hhalt : (ctxOf s ctx).halt = some h) (hdrv : h.drv = true) : driverAnswer s ctx t = .next t := by
  rw [driverAnswer, ctxEvent_of_lt _ _ hctx, hhalt, Option.map_some, hdrv]
  rfl

theorem driverAnswer_of_none {s : State} {ctx : Nat} (t : State)
    (hnone : (ctxOf s ctx).halt = none ∨ ∃ h, (ctxOf s ctx).halt = some h ∧ h.drv = false) :
    driverAnswer s ctx t = .next s := by
  have hdrv : (((ctxOf s ctx).halt.map (·.drv)).getD false) = false := by
    obtain hhalt | ⟨h, hhalt, hdrv⟩ := hnone
    · rw [hhalt]; rfl
    · rw [hhalt]; exact hdrv
  rw [driverAnswer, hdrv, if_neg Bool.false_ne_true, ctxEvent, ite_self]

/-- A return whose budget stands, or that the handler's BUDGET was refused, fails the origin slice. -/
theorem returnFrom_of_refused {s : State} {ctx : Nat} {h : Halt} (action : Nat) (hhalt : (ctxOf s ctx).halt = some h)
    (hrefused : h.refused = true ∨ budgetStands s h = true) :
    returnFrom s ctx action false =
      failOrigin (onCore s h.origin fun k => { k with handler := none }) ctx h 0x71 := by
  rw [returnFrom, hhalt]
  obtain hr | hr := hrefused <;> simp only [hr, Bool.or_true, Bool.true_or, Bool.false_or, if_true]

/-- The states of the parts that a kill clears, before it takes the page to its reset values. -/
theorem killContext_eq (s : State) (ctx : Nat) : ∃ u : State, killContext s ctx =
    onCtx { u with
      cores := u.cores.map fun e => (e.1, cleanCore ctx e.2)
      reserved := u.reserved.filter fun v => v.ctx != ctx } ctx resetPage := ⟨_, rfl⟩

/-- A page at its reset values holds none of the context's work. -/
theorem resetPage_spec (c : Ctx) : (resetPage c).records = [] ∧ (resetPage c).queues = [] ∧ (resetPage c).halt = none ∧
    (resetPage c).timelines = [] := by
  rw [resetPage]
  split <;> exact ⟨rfl, rfl, rfl, rfl⟩

theorem cleanCore_default (ctx : Nat) : cleanCore ctx {} = {} := by
  have htids : (if ({} : Core).tidCtx == ctx then [] else ({} : Core).tids) = [] := ite_self _
  show { ({} : Core) with tids := if ({} : Core).tidCtx == ctx then [] else ({} : Core).tids } = {}
  rw [htids]

theorem tlb_killContext {s : State} {ctx c : Nat} : ∀ e ∈ (coreOf (killContext s ctx) c).tlb, e.ctx ≠ ctx := by
  intro e he
  obtain ⟨u, hu⟩ := killContext_eq s ctx
  rw [hu] at he
  have hcore : e ∈ (cleanCore ctx (coreOf u c)).tlb :=
    (congrArg (e ∈ Core.tlb ·) (look_map_values ({} : Core) (cleanCore ctx) (cleanCore_default ctx) u.cores c)).mp he
  simpa using (List.mem_filter.mp hcore).2

/-- Settles O14: the driver's answers by the return they make, the resets by the kill. -/
theorem driverAnswersAndResets : Obligations.DriverAnswersAndResets := by
  unfold Obligations.DriverAnswersAndResets
  refine ⟨?answers, ?refused, ?nothing, ?functionReset, fun _ => rfl⟩
  case answers =>
    intro s ctx h hctx hhalt hdrv hnot hbudget
    have hanswer : ∀ t, driverAnswer s ctx t = .next t := fun t => driverAnswer_of_halt t hctx hhalt hdrv
    refine ⟨(hanswer _).trans (congrArg _ ?_), (hanswer _).trans (congrArg _ ?_), (hanswer _).trans (congrArg _ ?_),
      hanswer _⟩ <;>
      rw [returnFrom, hhalt] <;>
      simp only [hnot, hbudget, Bool.or_self, Bool.false_eq_true, if_false, beq_iff_eq]
  case refused =>
    intro s ctx h hctx hhalt hdrv hrefused i hi
    have hanswer : ∀ action, driverAnswer s ctx (returnFrom s ctx action false) =
        .next (failOrigin (onCore s h.origin fun k => { k with handler := none }) ctx h 0x71) := fun action =>
      (driverAnswer_of_halt _ hctx hhalt hdrv).trans (congrArg _ (returnFrom_of_refused action hhalt hrefused))
    simp only [List.mem_cons, List.not_mem_nil, or_false] at hi
    obtain rfl | rfl | rfl := hi
    · exact hanswer 0
    · exact hanswer 1
    · exact hanswer 2
  case nothing =>
    intro s ctx hnone i hi
    simp only [List.mem_cons, List.not_mem_nil, or_false] at hi
    obtain rfl | rfl | rfl | rfl := hi <;> exact driverAnswer_of_none _ hnone
  case functionReset =>
    intro s ctx hlo hhi
    have hexec : exec (.functionLevelReset ctx) s = .next (killContext s ctx) := by
      rw [show exec (.functionLevelReset ctx) s = execFunctionLevelReset ctx s from rfl, execFunctionLevelReset,
        decide_eq_true hlo, decide_eq_true hhi]
      rfl
    obtain ⟨u, hu⟩ := killContext_eq s ctx
    have hpage : ctxOf (killContext s ctx) ctx = resetPage (ctxOf u ctx) := by
      rw [hu, ctxOf_onCtx_self]; rfl
    obtain ⟨hrecords, hqueues, hhalt, htimelines⟩ := resetPage_spec (ctxOf u ctx)
    rw [← hpage] at hrecords hqueues hhalt htimelines
    exact ⟨_, hexec, rfl, hrecords, hqueues, hhalt, htimelines, fun _ => tlb_killContext⟩

end Sys2Proof.Slice0

/-! PROOFS. The Geyser round, a push it accepts, and the commands of the grammar engine (06 R118-R119, 16 R374). -/

namespace Sys2Proof.Slice0
open Sys2Proof.Machine

/-- The entry that a push puts on chip (R115, R118). -/
def acceptedEntry (s : State) (w : Nat) (c : GeyCmd) : Entry :=
  { entryFrom c.entry (towerOf s w).order with
    arrive := (towerOf s w).cycle % 2 ^ 32, byp := 0, promo := false, ctx := c.ctx }

/-- A push that nothing spilled stands before, with room on chip (R118). -/
theorem decidePush_of_room {s : State} {w : Nat} {c : GeyCmd} (hen : gqEn (gqueueOf s w c.queue) = true)
    (hown : queueOwner (gqueueOf s w c.queue) = c.ctx) (hspilled : (gqueueOf s w c.queue).spilled = [])
    (hroom : chipRoom s w c.queue = true) :
    decidePush s w c = (0x80, onChip (onTower s w fun k => { k with order := k.order + 1 }) w c.queue
      (acceptedEntry s w c)) := by
  have hroom' : chipRoom (onTower s w fun k => { k with order := k.order + 1 }) w c.queue = true := by
    rw [chipRoom, gqueueOf, poolUsed, towerOf_onTower_self]
    exact hroom
  rw [decidePush]
  simp only [hen, hown, hspilled, hroom', Bool.not_true, Bool.false_eq_true, if_false, bne_self_eq_false,
    List.isEmpty_nil, Bool.and_self, if_true]
  rfl

/-- R118: the accepted entry is the queue's newest on chip. -/
theorem pushAccepted : PushAccepted := by
  intro s w c hen hown hspilled hroom
  rw [decidePush_of_room hen hown hspilled hroom]
  refine ⟨rfl, acceptedEntry s w c, rfl, rfl, rfl, rfl, rfl, ?_, ?_, rfl⟩
  · simp only [gqueueOf, onChip, onGQueue, towerOf_onTower_self, adjust, look_put_self]
  · simp only [onChip, onGQueue, towerOf_onTower_self]

/-- R119: a round by its steps. -/
theorem geyserRoundStepsInOrder : GeyserRoundStepsInOrder := by
  intro s w hw
  rw [show exec (.geyserRound w) s = execGeyserRound w s from rfl, execGeyserRound, if_pos hw, geyserRound]

/-- The engine's event of the operation of the command that may go first (R374). -/
theorem grammarEvent_of_first {s : State} {w i : Nat} {c : GramCmd} (hw : w < Config.towers)
    (hfirst : firstCommand s [] (towerOf s w).gram = some (i, c)) :
    grammarEvent w c.op s = .next (runCommand s w i c) := by
  rw [grammarEvent, if_neg (Nat.not_le.mpr hw), hfirst]
  simp only [beq_self_eq_true, Bool.true_or, if_true]

/-- GFSET sets its slot, and owes an entry of the slot as it then stands. -/
theorem runCommand_set {s : State} (w i : Nat) {c : GramCmd} (hop : c.op = 3) (howed : c.owed = none)
    (hgood : malformed s c = false) :
    runCommand s w i c = completeCommand (setSlot s w c.slot (c.arg.setWidth 32) false) w i c
      (commandEntry (setSlot s w c.slot (c.arg.setWidth 32) false) w c) := by
  have hheld : commandHeld s w c = false := by rw [commandHeld, hop]; rfl
  have heffect : slotEffect s w c = ([], setSlot s w c.slot (c.arg.setWidth 32) false) := by rw [slotEffect, hop]; rfl
  rw [runCommand, howed]
  simp only [hgood, hheld, hop, Bool.false_eq_true, if_false, effectCommand, heffect]
  rfl

/-- R374. -/
theorem grammarEngineRuns : GrammarEngineRuns := by
  intro s w i c hw hfirst
  have hevent := grammarEvent_of_first hw hfirst
  refine ⟨fun hop => ?_, fun hop => ?_, fun hop => ?_, fun hop => runCommand_set w i hop⟩ <;>
    · rw [hop] at hevent
      exact hevent

/-- Settles O18, by its three parts. -/
theorem towerEnginesRun : Obligations.TowerEnginesRun := ⟨pushAccepted, geyserRoundStepsInOrder, grammarEngineRuns⟩

end Sys2Proof.Slice0

/-! PROOFS. Waits released: fetches, loads, write-backs, nests up to a drain, seals, gates, fronts, halts and the trace's
SYNC (07 R143, R150-R153, 08 R162-R168, 09 R182, 14 R300, R308). -/

namespace Sys2Proof.Slice0
open Sys2Proof.Machine

/-! ### A nest runs up to its next drain (R150) -/

theorem nestTrip_dvd_nestTotal (r : NestRegs) : nestTrip r 0 ∣ nestTotal r :=
  List.dvd_prod (List.mem_map.mpr ⟨0, by decide, rfl⟩)

/-- The `k` iterations up to the end of an innermost sweep: the last is the first whose index is a multiple of its trip
count, and the nest has that many. -/
structure SweepEnds (n : Nest) (k : Nat) : Prop where
  pos : 0 < k
  le : k ≤ nestTrip n.regs 0
  total : ∀ i < k, n.iteration + i < nestTotal n.regs
  last : (n.iteration + k) % nestTrip n.regs 0 = 0
  inner : ∀ i, i + 1 < k → (n.iteration + i + 1) % nestTrip n.regs 0 ≠ 0

theorem sweepEnds_of_rest {n : Nest} {k : Nat} (hleft : n.iteration < nestTotal n.regs)
    (hk : k + n.iteration % nestTrip n.regs 0 = nestTrip n.regs 0) : SweepEnds n k := by
  have hpos := nestTrip_pos n.regs 0
  obtain ⟨c, hc⟩ := nestTrip_dvd_nestTotal n.regs
  rw [hc] at hleft
  have hrow := Nat.div_lt_of_lt_mul hleft
  have hsplit := Nat.div_add_mod n.iteration (nestTrip n.regs 0)
  have hmod := Nat.mod_lt n.iteration hpos
  have hrows := Nat.mul_le_mul_left (nestTrip n.regs 0) (Nat.succ_le_of_lt hrow)
  rw [Nat.mul_succ] at hrows
  refine ⟨by omega, by omega, fun i hi => ?_, ?_, fun i hi => ?_⟩
  · rw [hc]
    omega
  · have hsum : n.iteration + k = nestTrip n.regs 0 * (n.iteration / nestTrip n.regs 0 + 1) := by
      rw [Nat.mul_succ]
      omega
    rw [hsum, Nat.mul_mod_right]
  · have hsum : n.iteration + i + 1 = nestTrip n.regs 0 * (n.iteration / nestTrip n.regs 0) +
        (n.iteration % nestTrip n.regs 0 + i + 1) := by omega
    rw [hsum, Nat.mul_add_mod, Nat.mod_eq_of_lt (by omega)]
    omega

/-- A nest some iterations on. -/
abbrev onward (n : Nest) (i : Nat) : Nest := { n with iteration := n.iteration + i }

theorem iterate_inner {s t : State} {n : Nest} (hstep : nestStep s n = .ok t)
    (hinner : (n.iteration + 1) % nestTrip n.regs 0 ≠ 0) : iterate s n = .ok (t, onward n 1) := by
  rw [iterate, hstep]
  simp only [bind, Except.bind, beq_iff_eq, hinner, if_false]
  rfl

theorem iterate_last {s t u : State} {n m : Nest} (hstep : nestStep s n = .ok t)
    (hlast : (n.iteration + 1) % nestTrip n.regs 0 = 0)
    (hdrain : drainRows t (onward n 1) (nestAcc n.regs (nestIndex n.regs n.iteration)) n.drains
      (shapeRows n.shapeA.toNat) 0 = .ok (u, m)) :
    iterate s n = .ok (u, { m with drains := m.drains + 1 }) := by
  rw [iterate, hstep]
  simp only [bind, Except.bind, beq_iff_eq, hlast, if_true]
  rw [show (onward n 1) = { n with iteration := n.iteration + 1 } from rfl] at hdrain
  rw [hdrain]
  rfl

/-- From any iteration of the sweep to the drain at its end. -/
theorem toDrain_of_sweep {n m : Nest} {k : Nat} {f : Nat → State} {u : State} (hends : SweepEnds n k)
    (hsteps : ∀ i < k, nestStep (f i) (onward n i) = .ok (f (i + 1)))
    (hdrain : drainRows (f k) (onward n k) (nestAcc n.regs (nestIndex n.regs (n.iteration + k - 1))) n.drains
      (shapeRows n.shapeA.toNat) 0 = .ok (u, m)) {j i fuel : Nat} (hj : i + j + 1 = k) (hfuel : j < fuel) :
    toDrain fuel (f i) (onward n i) = (u, { m with drains := m.drains + 1 }, none) := by
  induction j generalizing i fuel with
  | zero =>
    obtain ⟨fuel, rfl⟩ := Nat.exists_eq_succ_of_ne_zero (Nat.ne_zero_of_lt hfuel)
    have hk : k = i + 1 := by omega
    subst hk
    have hiter : iterate (f i) (onward n i) = .ok (u, { m with drains := m.drains + 1 }) :=
      iterate_last (hsteps i (by omega)) hends.last hdrain
    have hdrains : m.drains = n.drains := (drainRows_sameNest hdrain).drains
    rw [toDrain, if_neg (Nat.not_le.mpr (hends.total i (by omega))), hiter]
    exact if_pos (by show n.drains < m.drains + 1; omega)
  | succ j ih =>
    obtain ⟨fuel, rfl⟩ := Nat.exists_eq_succ_of_ne_zero (Nat.ne_zero_of_lt hfuel)
    have hiter : iterate (f i) (onward n i) = .ok (f (i + 1), onward n (i + 1)) :=
      iterate_inner (hsteps i (by omega)) (hends.inner i (by omega))
    rw [toDrain, if_neg (Nat.not_le.mpr (hends.total i (by omega))), hiter]
    refine (if_neg (Nat.lt_irrefl _)).trans ?_
    exact ih (by omega) (by omega)

/-! ### The reply queue takes what is owed (R153) -/

theorem appendReplies_spec (core : Nat) (l : List Reply) (s : State) :
    (coreOf (appendReplies s core l).1 core).replies =
        (coreOf s core).replies ++ l.take (256 - (coreOf s core).replies.length) ∧
      (appendReplies s core l).2 = l.drop (256 - (coreOf s core).replies.length) ∧
      (appendReplies s core l).1.mem = s.mem ∧
      (coreOf (appendReplies s core l).1 core).engines = (coreOf s core).engines := by
  induction l generalizing s with
  | nil => simp [appendReplies]
  | cons e rest ih =>
    rw [appendReplies]
    split
    next hfull => simp [Nat.sub_eq_zero_of_le hfull]
    next hroom =>
      obtain ⟨hreplies, howed, hmem, hengines⟩ :=
        ih (pulse (onCore s core fun k => { k with replies := k.replies ++ [e] }) core 12)
      have hcore : coreOf (pulse (onCore s core fun k => { k with replies := k.replies ++ [e] }) core 12) core =
          pulseCore { coreOf s core with replies := (coreOf s core).replies ++ [e] } 12 := by
        rw [pulse, coreOf_onCore_self, coreOf_onCore_self]
      have hlen : ((coreOf s core).replies ++ [e]).length = (coreOf s core).replies.length + 1 := by simp
      have htake : 256 - (coreOf s core).replies.length = (256 - ((coreOf s core).replies.length + 1)) + 1 := by omega
      rw [hcore] at hreplies howed hengines
      simp only [pulseCore, hlen] at hreplies howed hengines
      refine ⟨?_, ?_, hmem, hengines⟩
      · rw [hreplies, htake, List.take_succ_cons, List.append_assoc, List.singleton_append]
      · rw [howed, htake, List.drop_succ_cons]

theorem nestStall_none {s : State} {core engine : Nat} {n : Nest}
    (hn : (look {} (coreOf s core).engines engine).nest = some n) (hstall : n.stall = none) :
    nestStall s core engine none = s := by
  rw [nestStall, hn]
  simp only [hstall, Option.map_none, beq_self_eq_true, if_true]

/-- A nest that did not stall, and then does, only notes it. -/
theorem nestStall_begins {s : State} {core engine c : Nat} {n : Nest}
    (hn : (look {} (coreOf s core).engines engine).nest = some n) (hstall : n.stall = none) :
    nestStall s core engine (some c) =
      setNest s core engine (some { n with stall := some (c, (coreOf s core).cycle) }) := by
  rw [nestStall, hn]
  simp only [hstall, Option.map_none, Option.map_some]
  rfl

theorem replies_setNest (s : State) (core engine : Nat) (n : Option Nest) :
    (coreOf (setNest s core engine n) core).replies = (coreOf s core).replies := by
  rw [setNest, coreOf_onCore_self]

/-- What a drained nest leaves: the queue has taken what it has room for, the nest owes the rest. -/
theorem nestOwes_spec {s : State} {core engine : Nat} {n : Nest} (hstall : n.stall = none) :
    ∃ e, (look {} (coreOf (nestOwes (setNest s core engine (some n)) core engine) core).engines engine).nest = some e ∧
      e.iteration = n.iteration ∧ e.drains = n.drains ∧
      (nestOwes (setNest s core engine (some n)) core engine).mem = s.mem ∧
      (coreOf (nestOwes (setNest s core engine (some n)) core engine) core).replies =
        (coreOf s core).replies ++ n.owed.take (256 - (coreOf s core).replies.length) ∧
      e.owed = n.owed.drop (256 - (coreOf s core).replies.length) := by
  obtain ⟨hreplies, howed, hmem, -⟩ := appendReplies_spec core n.owed (setNest s core engine (some n))
  rw [replies_setNest] at hreplies howed
  have howes : nestOwes (setNest s core engine (some n)) core engine =
      nestStall (setNest (appendReplies (setNest s core engine (some n)) core n.owed).1 core engine
        (some { n with owed := n.owed.drop (256 - (coreOf s core).replies.length) })) core engine
        (if (n.owed.drop (256 - (coreOf s core).replies.length)).isEmpty then none else some 3) := by
    rw [nestOwes, nest_setNest]
    simp only [howed]
  have hmem' : (appendReplies (setNest s core engine (some n)) core n.owed).1.mem = s.mem := hmem
  have hstill : ({ n with owed := n.owed.drop (256 - (coreOf s core).replies.length) } : Nest).stall = none := hstall
  rw [howes]
  generalize (appendReplies (setNest s core engine (some n)) core n.owed).1 = u at hreplies hmem'
  split
  · rw [nestStall_none (nest_setNest _ _ _ _) hstill]
    exact ⟨_, nest_setNest _ _ _ _, rfl, rfl, hmem', (replies_setNest _ _ _ _).trans hreplies, rfl⟩
  · rw [nestStall_begins (nest_setNest _ _ _ _) hstill]
    exact ⟨_, nest_setNest _ _ _ _, rfl, rfl, hmem',
      (replies_setNest _ _ _ _).trans ((replies_setNest _ _ _ _).trans hreplies), rfl⟩

/-- A nest that runs, when its iterations to the next drain and the drain go through. -/
theorem nestDrainStep_of_drain {s u : State} {core engine : Nat} {n m : Nest}
    (hn : (look {} (coreOf s core).engines engine).nest = some n) (howed : n.owed = [])
    (hhalted : (coreOf s core).halted = false) (hslice : (coreOf s core).slice.isSome = true) (hroom : roomForItems s)
    (hrun : toDrain (nestTrip n.regs 0) { s with curCore := core, curStream := engine + 2 } n = (u, m, none))
    (hstall : m.stall = none) :
    nestDrainStep s core engine =
      { nestOwes (setNest u core engine (some m)) core engine with curCore := s.curCore, curStream := s.curStream } := by
  have hquiet : (if n.iteration < m.iteration then nestStall (setNest u core engine (some m)) core engine none
      else setNest u core engine (some m)) = setNest u core engine (some m) := by
    rw [nestStall_none (nest_setNest _ _ _ _) hstall, ite_self]
  have hover : itemsOver { s with curCore := core, curStream := engine + 2 } (setNest u core engine (some m)) = false :=
    itemsOver_of_room hroom
  rw [nestDrainStep, hn]
  simp only [hhalted, howed, Option.isNone_eq_false_iff.mpr hslice, List.isEmpty_nil, Bool.not_true, Bool.or_self,
    Bool.false_eq_true, if_false, asStream, hrun, hquiet, hover]

/-! ### Waits released -/

theorem streamEvent_of_issues {s : State} {core stream : Nat} (f : State → State) (hstream : stream < 7)
    (hissue : canIssue s core stream = true) : streamEvent s core stream f = .next (asStream s core stream f) := by
  rw [streamEvent, decide_eq_true hstream, hissue]
  rfl

/-- Settles O17: each wait by the event that ends it; a nest by the iterations of its sweep (`toDrain_of_sweep`). -/
theorem waitsAreReleased : Obligations.WaitsAreReleased := by
  unfold Obligations.WaitsAreReleased
  refine ⟨?fetch, ?load, fun _ _ _ => rfl, ?drain, ?complete, ?block, ?sealed, ?timeline, ?gate, ?front, ?halt, ?sync⟩
  case fetch =>
    intro s core stream line t hstream hissue hheld hok
    refine (streamEvent_of_issues _ hstream hissue).trans (congrArg Host.Outcome.next ?_)
    simp only [asStream, hheld, hok, if_true]
  case load =>
    intro s core stream l rest hloads
    refine congrArg Host.Outcome.next ?_
    simp only [hloads]
  case drain =>
    intro s u core engine k n m f hn hstall howed hhalted hslice hroom hleft hk hf0 hsteps hdrain
    have hends := sweepEnds_of_rest hleft hk
    have hrun : toDrain (nestTrip n.regs 0) { s with curCore := core, curStream := engine + 2 } n =
        (u, { m with drains := m.drains + 1 }, none) := by
      rw [← hf0]
      exact toDrain_of_sweep hends hsteps hdrain (j := k - 1) (i := 0) (by have := hends.pos; omega)
        (by have := hends.pos; have := hends.le; omega)
    have hsame := drainRows_sameNest hdrain
    have hmstall : ({ m with drains := m.drains + 1 } : Nest).stall = none := hsame.stall.trans hstall
    obtain ⟨e, hnest, hiteration, hdrains, hmem, hreplies, howes⟩ :=
      nestOwes_spec (s := u) (core := core) (engine := engine) hmstall
    have hexec : exec (.nestDrain core engine) s = .next (nestDrainStep s core engine) := rfl
    rw [nestDrainStep_of_drain hn howed hhalted hslice hroom hrun hmstall] at hexec
    exact ⟨_, e, hexec, hnest, hiteration.trans hsame.iteration,
      hdrains.trans (congrArg (· + 1) hsame.drains), hmem, hreplies, howes⟩
  case complete =>
    intro s core engine n hn hleft howed hhalted
    have hexec : exec (.nestComplete core engine) s = .next (nestCompleteStep s core engine) := rfl
    have htl := tlOf_tlDone_self (setNest s core engine none) (coreCtx s core) (tlKey (engine + 3) core) n.number
    have hnest := nest_setNest s core engine none
    have hcore : coreOf (tlDone (setNest s core engine none) (coreCtx s core) (tlKey (engine + 3) core) n.number) core =
        coreOf (setNest s core engine none) core := rfl
    have hcounters : (coreOf (setNest s core engine none) core).counters = (coreOf s core).counters := by
      rw [setNest, coreOf_onCore_self]
    rw [nestCompleteStep_done hn hleft howed hhalted] at hexec
    cases hpulse : n.pulse with
    | true =>
      rw [hpulse, if_pos rfl] at hexec
      refine ⟨_, hexec, ?_, htl, ?_, rfl⟩
      · rw [pulse, coreOf_onCore_self, hcore]
        exact hnest
      · rw [pulse, coreOf_onCore_self, hcore, if_pos rfl, pulseCore, pulseCore, hcounters]
    | false =>
      rw [hpulse, if_neg Bool.false_ne_true] at hexec
      exact ⟨_, hexec, hnest, htl, hcounters, rfl⟩
  case block =>
    intro s core stream n j hwaiting
    refine congrArg Host.Outcome.next ?_
    simp only [asStream, hwaiting]
  case sealed =>
    intro s core stream n hwaiting
    refine congrArg Host.Outcome.next ?_
    simp only [asStream, awaitedSeals, hwaiting, List.foldl_cons, List.foldl_nil]
  case timeline =>
    intro s core stream sel place value hstream hissue hwaiting hreached
    refine (streamEvent_of_issues _ hstream hissue).trans (congrArg Host.Outcome.next ?_)
    simp only [asStream, hwaiting, if_pos hreached]
  case gate =>
    intro s core stream k m hstream hissue hwaiting hopen
    have hmine : openTerm (myCore { s with curCore := core, curStream := stream }) k = some m := hopen
    refine (streamEvent_of_issues _ hstream hissue).trans (congrArg Host.Outcome.next ?_)
    simp only [asStream, hwaiting, hmine]
  case front =>
    intro s core stream n j g hstream hissue hwaiting hsig hpassed
    refine (streamEvent_of_issues _ hstream hissue).trans (congrArg Host.Outcome.next ?_)
    simp only [asStream, hwaiting, hsig, if_pos hpassed]
  case halt =>
    intro s ctx h hctx hhalt hquiet hreason hgeyser hframes
    have hnogeyser : h.cores.any (awaitsGeyser s) = false := List.any_eq_false.mpr fun c hc => by simp [hgeyser c hc]
    have hnoframe : h.cores.any (frameWaits s ctx) = false := List.any_eq_false.mpr fun c hc => by simp [hframes c hc]
    refine (ctxEvent_of_lt s _ hctx).trans (congrArg Host.Outcome.next ?_)
    rw [hhalt]
    simp only [hquiet, beq_eq_false_iff_ne.mpr hreason, hnogeyser, hnoframe, Bool.or_self, Bool.false_eq_true, if_false]
  case sync =>
    intro s core hslice hspan
    have hexec : exec (.traceSync core) s = .next (onCore (trace s core 1 0 (coreOf s core).cycle) core fun k =>
        { k with synced := k.cycle / 65536 }) := by
      refine congrArg Host.Outcome.next ?_
      simp only [Option.isNone_eq_false_iff.mpr hslice, beq_eq_false_iff_ne.mpr hspan, Bool.or_self,
        Bool.false_eq_true, if_false]
    refine ⟨_, hexec, ?_⟩
    rw [coreOf_onCore_self]
    exact congrArg (· / 65536) ((TraceKept.trace s core 1 0 (coreOf s core).cycle).coreField (fun k => k.cycle) (c := core))

end Sys2Proof.Slice0

/-! PROOFS. The scheduler's events, and the stream that a fresh slice starts (05 R102-R112, 07 R132-R135). -/

namespace Sys2Proof.Slice0
open Sys2Proof.Machine

/-! ### Records -/

/-- A record's image in HBM, written beside it, changes nothing but memory. -/
theorem traceKept_recordImage (s : State) (ctx i : Nat) (r : Record) : TraceKept s (recordImage s ctx i r) :=
  TraceKept.traceFrame.writeAt s _ _

theorem recordOf_putRecord_self (s : State) (ctx i : Nat) (r : Record) :
    recordOf (putRecord s ctx i r) ctx i = some r := by
  rw [putRecord, recordOf, (traceKept_recordImage _ ctx i r).ctxField (fun c => c.records), ctxOf_onCtx_self]
  exact find_put_self _ _ _

theorem onRecord_of_found {s : State} {ctx i : Nat} {r : Record} (f : Record → Record)
    (h : recordOf s ctx i = some r) : onRecord s ctx i f = putRecord s ctx i (f r) := by
  rw [onRecord, h]

theorem cores_putRecord (s : State) (ctx i : Nat) (r : Record) : (putRecord s ctx i r).cores = s.cores := by
  rw [putRecord, recordImage, writeAt]
  split <;> rfl

theorem recordOf_traceKept {s t : State} (h : TraceKept s t) (ctx i : Nat) : recordOf t ctx i = recordOf s ctx i := by
  rw [recordOf, recordOf, h.ctxField (fun c => c.records)]

theorem recordOf_clearSaved (s : State) (ctx i : Nat) (regions : Bool) :
    recordOf (clearSaved s ctx i regions) ctx i = recordOf s ctx i := by
  rw [clearSaved, recordOf, ctxOf_onCtx_self, recordOf]

/-! ### The start of a fresh slice (R102, R132) -/

/-- The only core of a record of one. -/
theorem recordCores_single {r : Record} (hrows : r.rows = 1) (hcols : r.cols = 1) : recordCores r = [r.home.getD 0] := by
  rw [recordCores, rectangle, hrows, hcols]
  rfl

/-- A core made ready for a slice that starts afresh. -/
def freshStart (ctx i : Nat) (r : Record) (s : State) (core : Nat) : State :=
  onCore (onCore s core fun k => turnTids ctx { k with synced := k.cycle / 65536 }) core (freshSlice ctx i r)

theorem startCore_fresh {s : State} {ctx i core : Nat} {r : Record} (hsaved : savedCore s ctx i core = none)
    (hsctx : r.sctx = 0) :
    startCore ctx i r s core = trace (freshStart ctx i r s core) core 2 0 (2 ^ 24 * r.unit + i) := by
  have hsaved' : savedCore (onCore s core fun k => turnTids ctx { k with synced := k.cycle / 65536 }) ctx i core = none :=
    hsaved
  rw [startCore]
  simp only [hsaved', hsctx, beq_self_eq_true, if_true]
  rfl

theorem freshStart_core (ctx i : Nat) (r : Record) (s : State) (core : Nat) :
    (coreOf (freshStart ctx i r s core) core).slice = some ⟨ctx, i⟩ ∧
      (coreOf (freshStart ctx i r s core) core).streams = [(0, firstStream r)] := by
  rw [freshStart, coreOf_onCore_self]
  exact ⟨rfl, rfl⟩

theorem recordOf_freshStart (ctx i : Nat) (r : Record) (s : State) (core : Nat) :
    recordOf (freshStart ctx i r s core) ctx i = recordOf s ctx i := rfl

theorem sliceStart_eq {s : State} {ctx i : Nat} {r : Record} (hr : recordOf s ctx i = some r) (hplaced : r.placed = true) :
    exec (.sliceStart ctx i) s = .next (startSlice s ⟨ctx, i, r⟩) := by
  refine congrArg Host.Outcome.next ?_
  rw [hr]
  simp only [hplaced, if_true]

/-- R102, R132, R133. -/
theorem freshSliceStartsAtCode : FreshSliceStartsAtCode := by
  intro s ctx i r hr hplaced hrows hcols hsctx hsaved hhome hcode
  refine ⟨_, sliceStart_eq hr hplaced, ?_⟩
  have hkept := TraceKept.trace (freshStart ctx i r s (r.home.getD 0)) (r.home.getD 0) 2 0 (2 ^ 24 * r.unit + i)
  have hstart : startSlice s ⟨ctx, i, r⟩ = onRecord (clearSaved
      (trace (freshStart ctx i r s (r.home.getD 0)) (r.home.getD 0) 2 0 (2 ^ 24 * r.unit + i)) ctx i false) ctx i fun v =>
      { v with
        placed := false
        started := (trace (freshStart ctx i r s (r.home.getD 0)) (r.home.getD 0) 2 0 (2 ^ 24 * r.unit + i)).mtime } := by
    rw [startSlice, recordCores_single hrows hcols, List.foldl_cons, List.foldl_nil, startCore_fresh hsaved hsctx]
  generalize trace (freshStart ctx i r s (r.home.getD 0)) (r.home.getD 0) 2 0 (2 ^ 24 * r.unit + i) = u at hkept hstart
  have hfound : recordOf (clearSaved u ctx i false) ctx i = some r := by
    rw [recordOf_clearSaved, recordOf_traceKept hkept, recordOf_freshStart, hr]
  rw [onRecord_of_found _ hfound] at hstart
  have hmtime : u.mtime = s.mtime := hkept.time.2
  obtain ⟨hslice, hstreams⟩ := freshStart_core ctx i r s (r.home.getD 0)
  have hcores : ∀ c, coreOf (startSlice s ⟨ctx, i, r⟩) c = coreOf u c := fun c => by
    rw [hstart, coreOf, cores_putRecord]
    rfl
  have hslice' := (hkept.coreField (fun k => k.slice) (c := r.home.getD 0)).trans hslice
  have hstreams' := (hkept.coreField (fun k => k.streams) (c := r.home.getD 0)).trans hstreams
  rw [← hcores] at hslice' hstreams'
  have hcc : streamOf (coreOf (startSlice s ⟨ctx, i, r⟩) (r.home.getD 0)) 0 = firstStream r := by
    rw [streamOf, hstreams']
    rfl
  refine ⟨hslice', ?_, ?_, ?_, ?_, ?_, ?_⟩
  · rw [hcc]; rfl
  · rw [hcc]
    exact Nat.mod_eq_of_lt hcode
  · rw [hcc]; rfl
  · rw [hcc]; rfl
  · intro n hn
    rw [streamOf, hstreams', look, if_neg (by simpa using Ne.symm hn), look]
  · refine ⟨{ r with placed := false, started := u.mtime }, ?_, rfl, hmtime⟩
    rw [hstart]
    exact recordOf_putRecord_self _ _ _ _

/-! ### The scheduler's events -/

theorem exec_checkpointComplete {s : State} {ctx i : Nat} {r : Record} (hr : recordOf s ctx i = some r)
    (hstopping : r.stopping = some true) (hstop : stoppable s ctx i r = true) :
    exec (.checkpointComplete ctx i) s =
      .next (onRecord ((recordCores r).foldl (saveCore ctx i) s) ctx i fun v => { v with
        state := .checkpointed, stopping := none, est := remaining ((recordCores r).foldl (saveCore ctx i) s) v }) := by
  refine congrArg Host.Outcome.next ?_
  rw [hr]
  simp only [hstopping, hstop, bne_self_eq_false, Bool.not_true, Bool.or_self, Bool.false_eq_true, if_false]

/-- R102-R108, R112, R133, R135. -/
theorem schedulerEventsTakeEffect : SchedulerEventsTakeEffect := by
  refine ⟨fun s => ⟨_, rfl, rfl⟩, fun s ctx i r hr hplaced => ⟨_, sliceStart_eq hr hplaced, rfl⟩,
    fun s ctx i r hr hstopping hstop => ⟨_, exec_checkpointComplete hr hstopping hstop, rfl⟩, ?refill, ?deadline,
    ?budget, ?allowance, ?touch, ?transfer⟩
  case refill =>
    intro s ctx hctx hdue
    have hexec : exec (.bucketRefill ctx) s = .next (onCtx s ctx fun c =>
        { c with tokens := field (reg c 0x185C) 24 8, refilled := s.mtime }) := by
      refine (ctxEvent_of_lt s _ hctx).trans (congrArg Host.Outcome.next ?_)
      rw [refillBucket]
      simp only [beq_eq_false_iff_ne.mpr hdue, Bool.false_eq_true, if_false]
    refine ⟨_, hexec, ?_, fun c hc => ctxOf_onCtx_ne _ _ hc⟩
    rw [ctxOf_onCtx_self]
  case deadline =>
    intro s ctx i r hr hmissed hlate
    refine congrArg Host.Outcome.next ?_
    rw [hr]
    simp only [hmissed, decide_eq_false (not_le.mpr hlate), Bool.or_self, Bool.false_eq_true, if_false]
  case budget =>
    intro s ctx i r hr hon hplaced hspent hhalted
    have hexec : exec (.budgetExhausted ctx i) s = .next (
        if r.extended then failSlice (countBudget s ctx) ctx i 0x71
        else takeException (drawWord s).2 (r.home.getD 0) 0 0x11 (drawWord s).1
          (streamOf (coreOf (drawWord s).2 (r.home.getD 0)) 0).pc) := by
      refine congrArg Host.Outcome.next ?_
      rw [hr]
      simp only [hon, hplaced, decide_eq_false (Nat.not_lt.mpr hspent), hhalted, Bool.not_true, Bool.or_self,
        Bool.false_eq_true, if_false]
    refine ⟨fun hext => ?_, fun hext => ?_⟩
    · rw [hexec, hext, if_pos rfl]
    · rw [hexec, hext, if_neg Bool.false_ne_true]
  case allowance =>
    intro s ctx h v hctx hhalt hhandler hused
    refine (ctxEvent_of_lt s _ hctx).trans (congrArg Host.Outcome.next ?_)
    rw [hhalt]
    simp only [hhandler, if_neg (Nat.not_lt.mpr hused)]
  case touch =>
    intro s t core region hregion hslice htouch
    refine congrArg Host.Outcome.next ?_
    rw [decide_eq_false (Nat.not_le.mpr hregion), Option.isNone_eq_false_iff.mpr hslice, htouch]
    rfl
  case transfer =>
    intro s core region
    refine ⟨_, rfl, rfl, ?_⟩
    rw [coreOf_onCore_self]
    intro g hg hindex
    obtain ⟨x, -, rfl⟩ := List.mem_map.mp hg
    split at hindex
    · next h => rw [if_pos h]
    · next h => exact absurd (beq_iff_eq.mpr hindex) h

/-- Settles O16, by its two parts. -/
theorem schedulerAndFreshSlices : Obligations.SchedulerAndFreshSlices :=
  ⟨schedulerEventsTakeEffect, freshSliceStartsAtCode⟩

end Sys2Proof.Slice0

/-! PROOFS. Memory errors, the retirement of a unit, and walks that return (01 R17, 04 R75, R76, R88-R93). -/

namespace Sys2Proof.Slice0
open Sys2Proof.Machine

/-- What one step of a fold brings about and the others keep holds at its end. -/
theorem foldl_reaches {α β : Type} {f : β → α → β} {I P : β → Prop} {l : List α} {x : α} (hx : x ∈ l)
    (hI : ∀ b, ∀ y ∈ l, I b → I (f b y)) (hP : ∀ b, ∀ y ∈ l, I b → P b → P (f b y)) (hfx : ∀ b, I b → P (f b x))
    {b : β} (hb : I b) : P (l.foldl f b) := by
  have hstay : ∀ m : List α, m ⊆ l → ∀ b, I b → P b → P (m.foldl f b) := by
    intro m
    induction m with
    | nil => exact fun _ b _ h => h
    | cons y m ih =>
      intro hm b hb h
      rw [List.cons_subset] at hm
      exact ih hm.2 _ (hI b y hm.1 hb) (hP b y hm.1 hb h)
  have hreach : ∀ m : List α, m ⊆ l → x ∈ m → ∀ b, I b → P (m.foldl f b) := by
    intro m
    induction m with
    | nil => exact fun _ h => absurd h List.not_mem_nil
    | cons y m ih =>
      intro hm hmem b hb
      rw [List.cons_subset] at hm
      rcases List.mem_cons.mp hmem with rfl | hmem
      · exact hstay m hm.2 _ (hI b x hm.1 hb) (hfx b hb)
      · exact ih hm.2 hmem _ (hI b y hm.1 hb)
  exact hreach l (List.Subset.refl l) hx b hb

/-! ### Errors (R88, R89) -/

/-- What counting a corrected granule leaves alone. -/
structure CountKept (s t : State) : Prop where
  mem : t.mem = s.mem
  poison : t.poison = s.poison
  bamap : t.module.bamap = s.module.bamap

theorem countKept_countCorrected (s : State) (g : Nat) : CountKept s (countCorrected s g) := by
  unfold countCorrected
  split <;> exact ⟨rfl, rfl, rfl⟩

theorem countKept_foldl (gs : List Nat) (s : State) : CountKept s (gs.foldl countCorrected s) := by
  induction gs generalizing s with
  | nil => exact ⟨rfl, rfl, rfl⟩
  | cons g gs ih =>
    obtain ⟨hmem, hpoison, hbamap⟩ := countKept_countCorrected s g
    obtain ⟨hmem', hpoison', hbamap'⟩ := ih (countCorrected s g)
    exact ⟨hmem'.trans hmem, hpoison'.trans hpoison, hbamap'.trans hbamap⟩

theorem CountKept.poisonable {s t : State} (h : CountKept s t) (g : Nat) : poisonable t g = poisonable s g := by
  have hlive : live t (64 * g) = live s (64 * g) := by rw [live, live, bamapOf, bamapOf, h.bamap]
  rw [Machine.poisonable, Machine.poisonable, granuleLive, granuleLive, hlive]

theorem corrected_countCorrected (s : State) (g c : Nat) :
    (coreOf (countCorrected s g) c).corrected =
      (coreOf s c).corrected + (if granuleCore g == some c then 1 else 0) := by
  unfold countCorrected
  split
  next d hd =>
    rw [hd]
    by_cases hc : c = d
    · subst hc
      rw [coreOf_onCore_self, if_pos (by simp)]
    · rw [coreOf_onCore_ne _ _ hc, if_neg (by simpa using Ne.symm hc), Nat.add_zero]
  next hnone =>
    rw [hnone]
    rfl

theorem corrected_foldl (gs : List Nat) (s : State) (c : Nat) :
    (coreOf (gs.foldl countCorrected s) c).corrected =
      (coreOf s c).corrected + (gs.filter fun g => granuleCore g == some c).length := by
  induction gs generalizing s with
  | nil => rfl
  | cons g gs ih =>
    rw [List.foldl_cons, ih, corrected_countCorrected, List.filter_cons]
    split
    · rw [List.length_cons]; omega
    · rfl

/-- The corrected granules of a core's store are all live. -/
theorem corrected_filter (s : State) (gs : List Nat) (c : Nat) :
    (gs.filter (granuleLive s)).filter (fun g => granuleCore g == some c) =
      gs.filter fun g => granuleCore g == some c := by
  rw [List.filter_filter]
  refine List.filter_congr fun g _ => ?_
  cases hcore : granuleCore g == some c with
  | false => rfl
  | true => rw [granuleLive, eq_of_beq hcore]; simp

theorem mem_poisonGranule (s : State) (g x : Nat) : x ∈ (poisonGranule s g).poison ↔ x ∈ s.poison ∨ x = g := by
  rw [poisonGranule]
  show x ∈ (if s.poison.contains g then s.poison else s.poison ++ [g]) ↔ _
  split
  next h => exact ⟨Or.inl, fun hx => hx.elim id fun hg => hg ▸ List.contains_iff_mem.mp h⟩
  next => simp

theorem mem_foldl_poison (gs : List Nat) (s : State) (x : Nat) :
    x ∈ (gs.foldl poisonGranule s).poison ↔ x ∈ s.poison ∨ x ∈ gs := by
  induction gs generalizing s with
  | nil => simp
  | cons g gs ih => rw [List.foldl_cons, ih, mem_poisonGranule, List.mem_cons, or_assoc]

theorem foldl_poison_rest (gs : List Nat) (s : State) :
    (gs.foldl poisonGranule s).mem = s.mem ∧ (gs.foldl poisonGranule s).cores = s.cores := by
  induction gs generalizing s with
  | nil => exact ⟨rfl, rfl⟩
  | cons g gs ih => exact ih (poisonGranule s g)

/-! ### Retirement (R92, R93) -/

theorem presentRequest_spec (s : State) (reason site unit : Nat) :
    ∃ q, (presentRequest s reason site unit).module = { s.module with
      remapBusy := true, confirmed := false, retirement := some ⟨reason, site, unit, q⟩
      lastRequest := some ⟨reason, site, unit, q⟩ } := by
  refine ⟨(drawWord s).1.toNat % 2 ^ 32, ?_⟩
  rw [presentRequest]
  obtain ⟨i, p, h⟩ := raiseIrq_eq (onModule (drawWord s).2 fun m => { m with
    remapBusy := true, confirmed := false
    retirement := some ⟨reason, site, unit, (drawWord s).1.toNat % 2 ^ 32⟩
    lastRequest := some ⟨reason, site, unit, (drawWord s).1.toNat % 2 ^ 32⟩ }) 0 2047
  exact (congrArg State.module h).trans rfl

/-- A request for a unit in service, with none pending, is presented. -/
theorem requestRetirement_of_free {s : State} {reason site unit : Nat} (hunit : retirable s site unit = true)
    (hfree : s.module.retirement = none) :
    requestRetirement s reason site unit = presentRequest s reason site unit := by
  rw [requestRetirement, hunit, hfree]
  rfl

theorem setField_clear_le (v lo : Nat) : setField v lo 1 0 ≤ v := by
  rw [setField]
  omega

theorem publish_spec (s : State) (r : Retirement) :
    (publish s r).module.remapBusy = false ∧ (publish s r).module.retirement = none ∧
      (publish s r).module.retireQueue = s.module.retireQueue ∧
      (publish s r).module.epoch = s.module.epoch + 1 ∧
      bamapOf (publish s r) r.site = setField (bamapOf s r.site) r.unit 1 0 ∧
      ∀ k, k ≠ r.site → bamapOf (publish s r) k = bamapOf s k := by
  let u := newEpoch (onModule s fun m => { m with
    bamap := put m.bamap r.site (BitVec.ofNat 64 (setField (bamapOf s r.site) r.unit 1 0))
    retirement := none, confirmed := false, remapBusy := false })
  obtain ⟨l, n, hlog, -⟩ := logEvent_module u 0x0005 (64 * r.site + r.unit)
  obtain ⟨e, m, l', n', i, p, hcheck⟩ := checkReplace_eq (logEvent u 0x0005 (64 * r.site + r.unit))
  have hmodule : (publish s r).module =
      { u.module with replace := e, inband := m, log := l', logLost := n' } := by
    refine (congrArg State.module hcheck).trans ?_
    show ({ (logEvent u 0x0005 (64 * r.site + r.unit)).module with
      replace := e, inband := m, log := l', logLost := n' } : Module) = _
    rw [hlog]
  have hbamap : ∀ k, bamapOf (publish s r) k = (look (BitVec.allOnes 64) (put s.module.bamap r.site
      (BitVec.ofNat 64 (setField (bamapOf s r.site) r.unit 1 0))) k).toNat := fun k => by
    rw [bamapOf, hmodule]
    rfl
  refine ⟨?_, ?_, ?_, ?_, ?_, fun k hk => ?_⟩
  · rw [hmodule]; rfl
  · rw [hmodule]; rfl
  · rw [hmodule]; rfl
  · rw [hmodule]; rfl
  · rw [hbamap, look_put_self, BitVec.toNat_ofNat]
    exact Nat.mod_eq_of_lt ((setField_clear_le _ _).trans_lt (BitVec.isLt _))
  · rw [hbamap, look_put_ne _ _ _ hk, bamapOf]

/-! ### Walks that return (R75, R76) -/

/-- A stream of a core as its instructions see it: the handler's file while `cc` runs it. -/
abbrev standing (s : State) (core stream : Nat) : Stream := me { s with curCore := core, curStream := stream }

/-- Which stream issues says nothing of the cores. -/
theorem coreOf_cursor (s : State) (c n d : Nat) : coreOf { s with curCore := c, curStream := n } d = coreOf s d := rfl

theorem standing_eq {s t : State} {c : Nat} (hstreams : (coreOf t c).streams = (coreOf s c).streams)
    (hhandler : (coreOf t c).handler = (coreOf s c).handler) (n : Nat) : standing t c n = standing s c n := by
  simp only [standing, me, streamOf, coreOf_cursor, hstreams, hhandler]

/-- Changing the issuing stream leaves every other stream alone. -/
theorem standing_onMe_ne (s : State) (f : Stream → Stream) {c n : Nat} (h : ¬(c = s.curCore ∧ n = s.curStream)) :
    standing (onMe s f) c n = standing s c n := by
  by_cases hc : c = s.curCore
  · subst hc
    have hn : n ≠ s.curStream := fun hn => h ⟨rfl, hn⟩
    simp only [standing, me, coreOf_cursor, onMe, coreOf_onCore_self]
    generalize coreOf s s.curCore = k
    cases hzero : s.curStream == 0 with
    | false =>
      simp only [Bool.false_eq_true, if_false, streamOf, look_put_ne _ _ _ hn]
    | true =>
      have hn0 : (n == 0) = false := beq_eq_false_iff_ne.mpr fun h0 => hn (h0.trans (eq_of_beq hzero).symm)
      simp only [if_true, hn0, Bool.false_eq_true, if_false]
      cases k.handler with
      | some h => rfl
      | none => simp only [streamOf, look_put_ne _ _ _ hn]
  · have hcore : coreOf (onMe s f) c = coreOf s c := coreOf_onMe_ne s f hc
    exact standing_eq (congrArg Core.streams hcore) (congrArg Core.handler hcore) n

/-- What leaves the streams, the slices, the results of walks and the walks in flight alone. -/
structure WalksKept (s t : State) : Prop where
  slice : ∀ c, (coreOf t c).slice = (coreOf s c).slice
  walked : ∀ c, (coreOf t c).walked = (coreOf s c).walked
  towers : t.towers = s.towers

theorem WalksKept.trans {s t u : State} (h : WalksKept s t) (h' : WalksKept t u) : WalksKept s u :=
  ⟨fun c => (h'.slice c).trans (h.slice c), fun c => (h'.walked c).trans (h.walked c), h'.towers.trans h.towers⟩

theorem WalksKept.of_traceKept {s t : State} (h : TraceKept s t) : WalksKept s t :=
  ⟨h.coreField (fun k => k.slice), h.coreField (fun k => k.walked), h.towers⟩

theorem WalksKept.onMe (s : State) (f : Stream → Stream) : WalksKept s (onMe s f) := by
  have hcore : ∀ {α : Type} (g : Core → α), (∀ k h, g { k with handler := h } = g k) →
      (∀ k m, g { k with streams := m } = g k) → ∀ c, g (coreOf (Machine.onMe s f) c) = g (coreOf s c) := by
    intro α g hh hs c
    by_cases hc : c = s.curCore
    · rw [hc, Machine.onMe, coreOf_onCore_self]
      split
      · exact hh _ _
      · exact hs _ _
    · rw [coreOf_onMe_ne s f hc]
  exact ⟨hcore (fun k => k.slice) (fun _ _ => rfl) fun _ _ => rfl,
    hcore (fun k => k.walked) (fun _ _ => rfl) fun _ _ => rfl, rfl⟩

/-- A stall that ends, traced, and the change of the stream that stood in it. -/
def stallOver (s : State) (f : Stream → Stream) : State := onMe (traceWait s (me s)) f

theorem walksKept_stallOver (s : State) (f : Stream → Stream) : WalksKept s (stallOver s f) :=
  (WalksKept.of_traceKept (TraceKept.traceWaitOf s _ _ _)).trans (.onMe _ f)

theorem standing_stallOver_self (s : State) (f : Stream → Stream) :
    standing (stallOver s f) s.curCore s.curStream = f (me s) := by
  have hkept := (TraceKept.traceWaitOf s s.curCore s.curStream (me s)).sameStreams
  have hcore : (stallOver s f).curCore = s.curCore := hkept.curCore
  have hstream : (stallOver s f).curStream = s.curStream := hkept.curStream
  have hme : standing (stallOver s f) s.curCore s.curStream = me (stallOver s f) := by
    rw [standing, ← hcore, ← hstream]
  rw [hme, stallOver, me_onMe]
  exact congrArg f hkept.me_eq

theorem standing_stallOver_ne (s : State) (f : Stream → Stream) {c n : Nat}
    (h : ¬(c = s.curCore ∧ n = s.curStream)) : standing (stallOver s f) c n = standing s c n := by
  have hkept := (TraceKept.traceWaitOf s s.curCore s.curStream (me s)).sameStreams
  have hother := standing_onMe_ne (traceWait s (me s)) f (c := c) (n := n) (by
    rw [show (traceWait s (me s)).curCore = s.curCore from hkept.curCore,
      show (traceWait s (me s)).curStream = s.curStream from hkept.curStream]
    exact h)
  exact hother.trans (standing_eq (hkept.streams c) (hkept.handler c) n)

/-- How a stream's wait moves when the walk of a page has returned. -/
theorem walkMoves_cases (page : Nat) (s : State) (j : Joiner) :
    walkMoves page false s j = s ∨ ∃ f : Stream → Stream, (∀ st, (f st).waiting = none) ∧
      walkMoves page false s j =
        { stallOver { s with curCore := j.core, curStream := j.requester } f with
          curCore := s.curCore, curStream := s.curStream } := by
  rw [walkMoves, asStream]
  split
  next va kind hwait =>
    split
    · exact .inl rfl
    · exact .inr ⟨fun st => { st with
        waiting := none
        since := (myCore { s with curCore := j.core, curStream := j.requester }).cycle }, fun _ => rfl, rfl⟩
  next va kind hwait =>
    split
    · exact .inl rfl
    · exact .inr ⟨fun st => { st with waiting := none }, fun _ => rfl, rfl⟩
  next => exact .inl rfl

theorem walksKept_walkMoves (page : Nat) (s : State) (j : Joiner) : WalksKept s (walkMoves page false s j) := by
  obtain h | ⟨f, -, h⟩ := walkMoves_cases page s j <;> rw [h]
  · exact ⟨fun _ => rfl, fun _ => rfl, rfl⟩
  · obtain ⟨hslice, hwalked, htowers⟩ :=
      walksKept_stallOver { s with curCore := j.core, curStream := j.requester } f
    exact ⟨hslice, hwalked, htowers⟩

/-- A stream's wait stays, or ends. -/
theorem standing_walkMoves (page : Nat) (s : State) (j : Joiner) (c n : Nat) :
    (standing (walkMoves page false s j) c n).waiting = (standing s c n).waiting ∨
      (standing (walkMoves page false s j) c n).waiting = none := by
  obtain h | ⟨f, hf, h⟩ := walkMoves_cases page s j <;> rw [h]
  · exact .inl rfl
  · by_cases hme : c = j.core ∧ n = j.requester
    · obtain ⟨rfl, rfl⟩ := hme
      exact .inr ((congrArg Stream.waiting (standing_stallOver_self
        { s with curCore := j.core, curStream := j.requester } f)).trans (hf _))
    · exact .inl (congrArg Stream.waiting (standing_stallOver_ne
        { s with curCore := j.core, curStream := j.requester } f hme))

theorem standing_walkMoves_self {page : Nat} {s : State} {j : Joiner} {va kind : Nat}
    (hwait : (standing s j.core j.requester).waiting = some (.page va kind)) (hva : va / 65536 = page) :
    (standing (walkMoves page false s j) j.core j.requester).waiting = none := by
  obtain ⟨f, hf, hmoves⟩ : ∃ f : Stream → Stream, (∀ st, (f st).waiting = none) ∧
      walkMoves page false s j = { stallOver { s with curCore := j.core, curStream := j.requester } f with
        curCore := s.curCore, curStream := s.curStream } := by
    refine ⟨fun st => { st with
      waiting := none
      since := (myCore { s with curCore := j.core, curStream := j.requester }).cycle }, fun _ => rfl, ?_⟩
    rw [walkMoves, asStream]
    simp only [hwait, hva, bne_self_eq_false, Bool.false_eq_true, if_false]
    rfl
  rw [hmoves]
  exact (congrArg Stream.waiting (standing_stallOver_self
    { s with curCore := j.core, curStream := j.requester } f)).trans (hf _)

/-! ### The result of a walk (R76) -/

/-- A core without its TLB. -/
def untlbed (k : Core) : Core := { k with tlb := [] }

/-- What leaves the towers, and all but the TLBs of the cores, alone. -/
structure TlbKept (s t : State) : Prop where
  cores : ∀ c, untlbed (coreOf t c) = untlbed (coreOf s c)
  towers : t.towers = s.towers

namespace TlbKept

theorem refl (s : State) : TlbKept s s := ⟨fun _ => rfl, rfl⟩

theorem onCore {s t : State} (h : TlbKept s t) (c : Nat) {f : Core → Core}
    (hf : ∀ k, untlbed (f k) = untlbed k := by intro; rfl) : TlbKept s (onCore t c f) where
  cores d := by
    by_cases hd : d = c
    · rw [hd, coreOf_onCore_self, hf, h.cores]
    · rw [coreOf_onCore_ne _ _ hd, h.cores]
  towers := h.towers

theorem tlbInsert (s : State) (core ctx level e va : Nat) : TlbKept s (tlbInsert s core ctx level e va) := by
  unfold Machine.tlbInsert
  extract_lets t
  split
  next w u h =>
    have hu : TlbKept s u := by
      split at h
      · rw [← (Prod.mk.inj h).2]
        exact refl s
      · rw [← (Prod.mk.inj h).2]
        exact ⟨fun _ => rfl, rfl⟩
    exact hu.onCore core

theorem coreField {α : Type} {s t : State} (h : TlbKept s t) (g : Core → α)
    (hg : ∀ k, g (untlbed k) = g k := by intro; rfl) (c : Nat) : g (coreOf t c) = g (coreOf s c) := by
  rw [← hg, h.cores, hg]

end TlbKept

/-- Whether a core runs a slice of a context. -/
def runs (s : State) (core ctx : Nat) : Prop := (coreOf s core).slice.map (·.ctx) = some ctx

/-- An access has what its walk returned. -/
def received (w : Walking) (r : WalkResult) (j : Joiner) (k : Core) : Core :=
  { k with
    walked := (k.walked.filter fun x => !(x.requester == j.requester && x.ctx == w.ctx && x.page == w.page)) ++
      [⟨j.requester, w.ctx, w.page, r, j.va, j.kind⟩] }

theorem takeWalk_runs {w : Walking} {r : WalkResult} {s : State} {j : Joiner} (h : runs s j.core w.ctx) :
    ∃ t, TlbKept s t ∧ takeWalk w r s j = onCore t j.core (received w r j) := by
  have hholds : ((coreOf s j.core).slice.map (·.ctx) == some w.ctx) = true := beq_iff_eq.mpr h
  unfold takeWalk
  simp only [hholds, Bool.true_and, Bool.not_true, Bool.false_eq_true, if_false]
  cases r with
  | fault reason level => exact ⟨s, .refl s, rfl⟩
  | leaf level e =>
    dsimp only
    split
    · exact ⟨_, .tlbInsert _ _ _ _ _ _, rfl⟩
    · exact ⟨s, .refl s, rfl⟩

theorem takeWalk_idle {w : Walking} {r : WalkResult} {s : State} {j : Joiner} (h : ¬runs s j.core w.ctx) :
    takeWalk w r s j = s := by
  have hholds : ((coreOf s j.core).slice.map (·.ctx) == some w.ctx) = false := beq_eq_false_iff_ne.mpr h
  unfold takeWalk
  simp only [hholds, Bool.false_and, Bool.false_eq_true, if_false, Bool.not_false, if_true]
  cases r <;> rfl

/-- What taking a walk's result leaves alone. -/
theorem takeWalk_kept {α : Type} {w : Walking} {r : WalkResult} {s : State} {j : Joiner} (g : Core → α)
    (hg : ∀ k, g (untlbed k) = g k := by intro; rfl) (hr : ∀ k, g (received w r j k) = g k := by intro; rfl) (c : Nat) :
    g (coreOf (takeWalk w r s j) c) = g (coreOf s c) := by
  by_cases h : runs s j.core w.ctx
  · obtain ⟨t, ht, heq⟩ := takeWalk_runs (r := r) h
    rw [heq, ← ht.coreField g hg]
    by_cases hc : c = j.core
    · rw [hc, coreOf_onCore_self, hr]
    · rw [coreOf_onCore_ne _ _ hc]
  · rw [takeWalk_idle h]

theorem towers_takeWalk (w : Walking) (r : WalkResult) (s : State) (j : Joiner) :
    (takeWalk w r s j).towers = s.towers := by
  by_cases h : runs s j.core w.ctx
  · obtain ⟨t, ht, heq⟩ := takeWalk_runs (r := r) h
    rw [heq]
    exact ht.towers
  · rw [takeWalk_idle h]

/-- What the accesses of a requester that wait for a page hold of its walk. -/
def holdsResult (w : Walking) (r : WalkResult) (requester : Nat) (k : Core) : Prop :=
  walkedAt k requester w.ctx (w.page * 65536) = some r

theorem holdsResult_received_self (w : Walking) (r : WalkResult) (j : Joiner) (k : Core) :
    holdsResult w r j.requester (received w r j k) := by
  have hnone : (k.walked.filter fun x => !(x.requester == j.requester && x.ctx == w.ctx && x.page == w.page)).find?
      (fun x => x.requester == j.requester && x.ctx == w.ctx && x.page == w.page * 65536 / 65536) = none := by
    rw [Nat.mul_div_cancel _ (by decide), List.find?_eq_none]
    intro x hx hmatch
    have hout := (List.mem_filter.mp hx).2
    rw [hmatch] at hout
    exact absurd hout (by decide)
  rw [holdsResult, walkedAt, received, List.find?_append, hnone, Nat.mul_div_cancel _ (by decide)]
  simp

theorem holdsResult_received {w : Walking} {r : WalkResult} {j : Joiner} {requester : Nat} {k : Core}
    (h : holdsResult w r requester k) : holdsResult w r requester (received w r j k) := by
  by_cases hreq : requester = j.requester
  · rw [hreq]
    exact holdsResult_received_self w r j k
  · have hkept : ((k.walked.filter fun x => !(x.requester == j.requester && x.ctx == w.ctx && x.page == w.page)).find?
        fun x => x.requester == requester && x.ctx == w.ctx && x.page == w.page * 65536 / 65536) =
        k.walked.find? fun x => x.requester == requester && x.ctx == w.ctx && x.page == w.page * 65536 / 65536 := by
      rw [List.find?_filter]
      refine congrArg (List.find? · k.walked) (funext fun x => ?_)
      by_cases hx : x.requester = requester
      · rw [hx, beq_eq_false_iff_ne.mpr hreq]
        simp only [Bool.false_and, Bool.not_false, true_and, Bool.decide_eq_true]
      · rw [beq_eq_false_iff_ne.mpr hx]
        simp
    rw [holdsResult, walkedAt, Option.map_eq_some_iff] at h ⊢
    obtain ⟨x, hx, hr⟩ := h
    exact ⟨x, by rw [received, List.find?_append, hkept, hx]; rfl, hr⟩

theorem holdsResult_takeWalk {w : Walking} {r : WalkResult} {s : State} {j : Joiner} {requester c : Nat}
    (h : holdsResult w r requester (coreOf s c)) : holdsResult w r requester (coreOf (takeWalk w r s j) c) := by
  by_cases hruns : runs s j.core w.ctx
  · obtain ⟨t, ht, heq⟩ := takeWalk_runs (r := r) hruns
    have ht' : holdsResult w r requester (coreOf t c) := by
      rw [holdsResult, walkedAt, ht.coreField (fun k => k.walked)]
      exact h
    rw [heq]
    by_cases hc : c = j.core
    · rw [hc, coreOf_onCore_self, ← hc]
      exact holdsResult_received ht'
    · rwa [coreOf_onCore_ne _ _ hc]
  · rwa [takeWalk_idle hruns]

/-- Every access that joined a walk has its result when all have taken it. -/
theorem holdsResult_taken {w : Walking} {r : WalkResult} {s : State} {j : Joiner} (hj : j ∈ w.joiners)
    (hruns : runs s j.core w.ctx) :
    holdsResult w r j.requester (coreOf (w.joiners.foldl (takeWalk w r) s) j.core) := by
  refine foldl_reaches (I := fun t => runs t j.core w.ctx)
    (P := fun t => holdsResult w r j.requester (coreOf t j.core)) hj ?_ ?_ ?_ hruns
  · intro t i _ ht
    rw [runs, takeWalk_kept (fun k => k.slice)]
    exact ht
  · exact fun t i _ _ ht => holdsResult_takeWalk ht
  · intro t ht
    obtain ⟨u, -, heq⟩ := takeWalk_runs (r := r) ht
    rw [heq, coreOf_onCore_self]
    exact holdsResult_received_self w r j _

/-- Taking results leaves the streams and the towers alone. -/
theorem taken_kept {w : Walking} {r : WalkResult} (js : List Joiner) (s : State) :
    (js.foldl (takeWalk w r) s).towers = s.towers ∧
      ∀ c n, standing (js.foldl (takeWalk w r) s) c n = standing s c n := by
  induction js generalizing s with
  | nil => exact ⟨rfl, fun _ _ => rfl⟩
  | cons j js ih =>
    obtain ⟨htowers, hstanding⟩ := ih (takeWalk w r s j)
    exact ⟨htowers.trans (towers_takeWalk w r s j), fun c n => (hstanding c n).trans
      (standing_eq (takeWalk_kept (fun k => k.streams) (c := c)) (takeWalk_kept (fun k => k.handler) (c := c)) n)⟩

/-- Waits that end leave slices, results and towers alone. -/
theorem walksKept_moved (page : Nat) (js : List Joiner) (s : State) :
    WalksKept s (js.foldl (walkMoves page false) s) := by
  induction js generalizing s with
  | nil => exact ⟨fun _ => rfl, fun _ => rfl, rfl⟩
  | cons j js ih => exact (walksKept_walkMoves page s j).trans (ih _)

/-- The wait of every access that joined ends. -/
theorem standing_moved {page va kind : Nat} {js : List Joiner} {j : Joiner} {s : State} (hj : j ∈ js)
    (hwait : (standing s j.core j.requester).waiting = some (.page va kind)) (hva : va / 65536 = page) :
    (standing (js.foldl (walkMoves page false) s) j.core j.requester).waiting = none := by
  refine foldl_reaches (I := fun t => (standing t j.core j.requester).waiting = some (.page va kind) ∨
      (standing t j.core j.requester).waiting = none)
    (P := fun t => (standing t j.core j.requester).waiting = none) hj ?_ ?_ ?_ (.inl hwait)
  · intro t i _ ht
    obtain h | h := standing_walkMoves page t i j.core j.requester
    · rwa [h]
    · exact .inr h
  · intro t i _ _ ht
    obtain h | h := standing_walkMoves page t i j.core j.requester
    · rwa [h]
    · exact h
  · intro t ht
    obtain ht | ht := ht
    · exact standing_walkMoves_self ht hva
    · obtain h | h := standing_walkMoves page t j j.core j.requester
      · rwa [h]
      · exact h

/-- A walk that returns no leaf in transit: a report, the walkers' cache, then the results and the waits. -/
theorem endWalk_returns {s : State} {t : Nat} {w : Walking} {r : WalkResult}
    (hr : (walkBy s t w.ctx (w.page * 65536)).1 = r) (htransit : ∀ level e, r = .leaf level e → flag e.toNat 7 = false) :
    ∃ u, RecordKept s u ∧ endWalk s t w = w.joiners.foldl (walkMoves w.page false) (w.joiners.foldl (takeWalk w r)
      (cacheNonLeaf (onWalk u t w fun _ => none) t (walkBy s t w.ctx (w.page * 65536)).2)) := by
  have hstill : ∀ x, x = r → (match x with
      | .leaf _ e => flag e.toNat 7
      | .fault _ _ => false) = false := by
    rintro x rfl
    cases x with
    | leaf level e => exact htransit level e rfl
    | fault reason level => rfl
  obtain ⟨u, hu, hreport⟩ : ∃ u, RecordKept s u ∧ (match w.joiners with
      | j :: _ =>
        if readsPoison s t w.ctx (w.page * 65536) then
          postItem s w.ctx (coreItem s j.core j.requester 0x60 (w.page * 65536) 0)
        else s
      | [] => s) = u := by
    refine ⟨_, ?_, rfl⟩
    cases w.joiners with
    | nil => exact .refl s
    | cons j js => exact .ite_left (.postItem s _ _)
  refine ⟨u, hu, ?_⟩
  rw [← hreport]
  rw [← hr]
  exact (if_neg (Bool.eq_false_iff.mp (hstill _ hr))).trans rfl

theorem walkingAt_onWalk_none (s : State) (t : Nat) (w : Walking) (es : List NonLeaf) :
    walkingAt (cacheNonLeaf (onWalk s t w fun _ => none) t es) t w.ctx w.page = none := by
  rw [walkingAt, cacheNonLeaf]
  show (towerOf (onTower _ t _) t).walks.find? _ = none
  rw [towerOf_onTower_self]
  show (towerOf (onWalk s t w fun _ => none) t).walks.find? _ = none
  rw [onWalk, towerOf_onTower_self, List.find?_eq_none]
  intro x hx hmatch
  obtain ⟨y, -, hy⟩ := List.mem_filterMap.mp hx
  split at hy
  · cases hy
  · next hother =>
    obtain rfl := Option.some.inj hy
    exact hother hmatch

/-- A walk that returns leaves flight, and gives all that joined it their results (R76). -/
theorem endWalk_spec {s : State} {t : Nat} {w : Walking} {r : WalkResult}
    (hr : (walkBy s t w.ctx (w.page * 65536)).1 = r) (htransit : ∀ level e, r = .leaf level e → flag e.toNat 7 = false) :
    walkingAt (endWalk s t w) t w.ctx w.page = none ∧ ∀ j ∈ w.joiners, runs s j.core w.ctx →
      holdsResult w r j.requester (coreOf (endWalk s t w) j.core) ∧
      ∀ va kind, (standing s j.core j.requester).waiting = some (.page va kind) → va / 65536 = w.page →
        (standing (endWalk s t w) j.core j.requester).waiting = none := by
  obtain ⟨u, hu, hend⟩ := endWalk_returns hr htransit
  have hflight := walkingAt_onWalk_none u t w (walkBy s t w.ctx (w.page * 65536)).2
  have hcores : ∀ c, coreOf (cacheNonLeaf (onWalk u t w fun _ => none) t (walkBy s t w.ctx (w.page * 65536)).2) c =
      coreOf u c := fun _ => rfl
  rw [hend]
  generalize cacheNonLeaf (onWalk u t w fun _ => none) t (walkBy s t w.ctx (w.page * 65536)).2 = v at hflight hcores
  obtain ⟨htowers, hstanding⟩ := taken_kept (w := w) (r := r) w.joiners v
  have hmoved := walksKept_moved w.page w.joiners (w.joiners.foldl (takeWalk w r) v)
  refine ⟨?_, fun j hj hruns => ⟨?_, fun va kind hwait hva => ?_⟩⟩
  · rw [walkingAt, towerOf, hmoved.towers, htowers]
    exact hflight
  · have hruns' : runs v j.core w.ctx := by
      rw [runs, hcores, hu.coreField (fun k => k.slice)]
      exact hruns
    rw [holdsResult, walkedAt, hmoved.walked]
    exact holdsResult_taken hj hruns'
  · refine standing_moved (kind := kind) hj ?_ hva
    have hsame : standing v j.core j.requester = standing s j.core j.requester :=
      standing_eq ((congrArg Core.streams (hcores _)).trans (hu.coreField (fun k => k.streams) (c := j.core)))
        ((congrArg Core.handler (hcores _)).trans (hu.coreField (fun k => k.handler) (c := j.core))) _
    rw [hstanding, hsame]
    exact hwait

/-! ### R17, R75, R76, R88, R89, R92, R93 -/

/-- A request that counts, for a unit in service while none is pending. -/
theorem exec_remapRequest {s : State} {reason site unit : Nat}
    (hreason : reason = 1 ∨ (reason = 2 ∧ siteRetires s site = true)) (hunit : retirable s site unit = true)
    (hfree : s.module.retirement = none) :
    exec (.remapRequest reason site unit) s = .next (presentRequest s reason site unit) := by
  have hcounts : (reason == 1 || (reason == 2 && siteRetires s site)) = true := by
    obtain rfl | ⟨rfl, hhot⟩ := hreason
    · rfl
    · rw [hhot]; rfl
  refine congrArg Host.Outcome.next ?_
  rw [hcounts, if_pos rfl, requestRetirement_of_free hunit hfree]

/-- A site that has been hot for long enough (R17). -/
theorem siteRetires_of_hot {s : State} {site since : Nat} (hsince : find s.module.hotSince site = some since)
    (hlong : since + 1000000000 < s.elapsed) : siteRetires s site = true := by
  unfold siteRetires
  rw [hsince, Option.any_some, decide_eq_true_eq]
  exact hlong

/-- RMREQ while its request is pending (R93). -/
theorem rmreq_of_pending {s : State} {reason site unit q : Nat}
    (hlast : s.module.lastRequest = some ⟨reason, site, unit, q⟩)
    (hpending : s.module.retirement = some ⟨reason, site, unit, q⟩) : rmreq s =
      2 ^ 63 + reason % 256 * 2 ^ 48 + site % 32 * 2 ^ 40 + unit % 64 * 2 ^ 32 + q % 2 ^ 32 := by
  have hbit : bit01 s.module.retirement.isSome * 2 ^ 63 = 2 ^ 63 := by
    rw [hpending, Option.isSome_some, bit01, if_pos rfl, Nat.one_mul]
  rw [rmreq, hlast]
  dsimp only
  rw [hbit]

theorem errorsAndRetirement : ErrorsAndRetirement := by
  refine ⟨?scrub, ?uncorrectable, ?request, ?thermal, ?confirm, ?refused, ?publish, ?walk⟩
  case scrub =>
    intro s corrected bad
    have hcount := countKept_foldl (corrected.filter (granuleLive s)) s
    have hcorrected := corrected_foldl (corrected.filter (granuleLive s)) s
    have hexec : exec (.patrolScrub corrected bad) s = .next ((bad.filter (poisonable
        ((corrected.filter (granuleLive s)).foldl countCorrected s))).foldl poisonGranule
        ((corrected.filter (granuleLive s)).foldl countCorrected s)) := rfl
    generalize (corrected.filter (granuleLive s)).foldl countCorrected s = u at hcount hcorrected hexec
    rw [show poisonable u = poisonable s from funext hcount.poisonable] at hexec
    obtain ⟨hmem, hcores⟩ := foldl_poison_rest (bad.filter (poisonable s)) u
    refine ⟨_, hexec, hmem.trans hcount.mem, fun g hg hp => ?_, fun g hg => ?_, fun g hg => ?_, fun c => ?_⟩
    · exact (mem_foldl_poison _ _ _).mpr (.inr (List.mem_filter.mpr ⟨hg, hp⟩))
    · exact (mem_foldl_poison _ _ _).mpr (.inl (hcount.poison.symm ▸ hg))
    · obtain h | h := (mem_foldl_poison _ _ _).mp hg
      · exact .inl (hcount.poison ▸ h)
      · exact .inr (List.mem_filter.mp h)
    · rw [coreOf, hcores]
      refine (hcorrected c).trans ?_
      rw [corrected_filter]
  case uncorrectable =>
    intro s core stream hslice hstream
    refine congrArg Host.Outcome.next ?_
    rw [hslice, decide_eq_true hstream]
    rfl
  case request =>
    intro s reason site unit hreason hunit hfree
    obtain ⟨q, hq⟩ := presentRequest_spec s reason site unit
    refine ⟨_, q, exec_remapRequest hreason hunit hfree, ?_, ?_, ?_, ?_⟩
    · rw [hq]
    · rw [hq]
    · rw [hq]
    · have hlast : (presentRequest s reason site unit).module.lastRequest = some ⟨reason, site, unit, q⟩ := by rw [hq]
      have hpending : (presentRequest s reason site unit).module.retirement = some ⟨reason, site, unit, q⟩ := by rw [hq]
      exact rmreq_of_pending hlast hpending
  case thermal =>
    intro s site unit since hsince hlong hunit hfree
    have hhot := siteRetires_of_hot hsince hlong
    obtain ⟨q, hq⟩ := presentRequest_spec s 2 site unit
    have hexec : exec (.hbmThermalRetirement site unit) s = .next (presentRequest s 2 site unit) := by
      rw [show exec (.hbmThermalRetirement site unit) s = execHbmThermalRetirement site unit s from rfl,
        execHbmThermalRetirement, hhot, if_pos rfl, requestRetirement_of_free hunit hfree]
    refine ⟨_, q, hexec, ?_⟩
    rw [hq]
  case confirm =>
    intro s v r hr hseq
    refine congrArg Host.Outcome.next ?_
    rw [hr, Option.any_some, hseq, beq_self_eq_true]
    rfl
  case refused => exact fun _ _ => rfl
  case publish =>
    intro s r hr hconfirmed hqueue _
    obtain ⟨hbusy, hnone, hrest, hepoch, hsite, hothers⟩ := publish_spec s r
    have hexec : exec .remapPublish s = .next (publish s r) := by
      refine congrArg Host.Outcome.next ?_
      rw [hr]
      simp only [hconfirmed, hrest.trans hqueue, Bool.not_true, Bool.false_eq_true, if_false]
    exact ⟨_, hexec, hbusy, hnone, hepoch, hsite, hothers⟩
  case walk =>
    intro s core stream w r hcore hjoined hr htransit
    have hexec : exec (.walkComplete core stream) s = .next (endWalk s (towerOfCore core) w) := by
      refine congrArg Host.Outcome.next ?_
      rw [if_neg (Nat.not_le.mpr hcore), hjoined]
    obtain ⟨hflight, hjoiners⟩ := endWalk_spec hr htransit
    exact ⟨_, hexec, hflight, hjoiners⟩

end Sys2Proof.Slice0

/-! PROOFS. The swap engine: its checks, the marking of a page's leaves, the move, the completion (04 R82-R87). -/

namespace Sys2Proof.Slice0
open Sys2Proof.Machine

/-! ### Leaves of the tables (R72) -/

theorem fromBytes_lt (bs : List Byte) : fromBytes bs < 256 ^ bs.length := by
  induction bs with
  | nil => exact Nat.one_pos
  | cons b bs ih =>
    have hb := b.isLt
    rw [fromBytes, List.length_cons, Nat.pow_succ]
    omega

theorem readAt_length (s : State) (l : Loc) (n : Nat) : (readAt s l n).length = n := by
  unfold readAt
  split
  · exact List.length_replicate
  · split
    · exact readBytes_length _ _ _
    · rw [List.length_map, List.length_range]

/-- What the table entry at an address of HBM holds. -/
def entryAt (s : State) (a : Nat) : Nat := fromBytes (readAt s (.hbm a) 8)

theorem entryAt_lt (s : State) (a : Nat) : entryAt s a < 2 ^ 64 := by
  have h := fromBytes_lt (readAt s (.hbm a) 8)
  rw [readAt_length] at h
  exact h

/-- Addresses of one cell of HBM hold one entry. -/
theorem entryAt_congr {s : State} {a b : Nat} (h : (Loc.hbm a).key = (Loc.hbm b).key) : entryAt s a = entryAt s b := by
  have hread : readAt s (.hbm a) 8 = readAt s (.hbm b) 8 := by
    simp only [readAt, h]
    rfl
  rw [entryAt, entryAt, hread]

/-- A leaf with the address of its entry. -/
structure IsEntry (s : State) (l : Nat × Nat) : Prop where
  aligned : l.2 % 8 = 0
  holds : l.1 = entryAt s l.2

theorem walkFrom_leaf {s : State} {va level e a : Nat} {levels : List Nat} {table : Nat}
    (h : walkFrom s va levels table = .leaf level e a) (htable : table % 8 = 0) : IsEntry s (e, a) := by
  induction levels generalizing table with
  | nil => cases h
  | cons l rest ih =>
    rw [walkFrom] at h
    split at h
    · cases h
    · split at h
      · cases h
      · split at h
        · obtain ⟨-, rfl, rfl⟩ := Walk.leaf.inj h
          refine ⟨?_, rfl⟩
          show (table + 8 * _) % 8 = 0
          rw [Nat.add_mul_mod_self_left, htable]
        · split at h
          · cases h
          · exact ih h (by omega)

theorem swapLeaf_entry {s : State} {im : List Byte} {va : Nat} {l : Nat × Nat} (h : swapLeaf s im va = some l) :
    IsEntry s l := by
  unfold swapLeaf walk at h
  split at h
  · cases h
  · split at h
    · next level e a hwalk =>
      split at h
      · rw [← Option.some.inj h]
        dsimp only at hwalk
        split at hwalk
        · cases hwalk
        · exact walkFrom_leaf hwalk (by omega)
      · cases h
    · cases h

theorem pageLeaves_entry {s : State} {c : SwapCmd} {ls : List (Nat × Nat)} (h : pageLeaves s c = some ls) :
    ∀ l ∈ ls, IsEntry s l := by
  intro l hl
  rw [pageLeaves] at h
  split at h
  · rw [← Option.some.inj h, List.mem_filterMap] at hl
    obtain ⟨x, hx, hxl⟩ := hl
    obtain ⟨va, -, hva⟩ := List.mem_map.mp hx
    exact swapLeaf_entry (hva.trans hxl)
  · cases h

/-! ### Writing leaves -/

theorem mem_putLeaf (s : State) (a e : Nat) :
    (putLeaf s a e).mem = writeBytes s.mem (Loc.hbm a).key (toBytes 8 e) := rfl

theorem canonical_putLeaf {s : State} (h : Canonical s) (a e : Nat) : Canonical (putLeaf s a e) := by
  rw [Canonical, mem_putLeaf]
  exact wf_writeBytes h _ _

theorem read_putLeaf_self {s : State} (h : Canonical s) {a b : Nat} (e : Nat) (hab : (Loc.hbm a).key = (Loc.hbm b).key) :
    readBytes (putLeaf s a e).mem (Loc.hbm b).key 8 = toBytes 8 e := by
  rw [mem_putLeaf, hab]
  have hread := readBytes_writeBytes_same h (Loc.hbm b).key (toBytes 8 e)
  rwa [toBytes_length] at hread

theorem read_putLeaf_ne {s : State} {a b : Nat} (e : Nat) (ha : a % 8 = 0) (hb : b % 8 = 0)
    (hab : (Loc.hbm a).key ≠ (Loc.hbm b).key) :
    readBytes (putLeaf s a e).mem (Loc.hbm b).key 8 = readBytes s.mem (Loc.hbm b).key 8 := by
  refine readBytes_congr 8 fun i hlo hhi => ?_
  rw [mem_putLeaf]
  refine readByte_writeBytes_outside _ _ ?_
  rw [toBytes_length]
  simp only [Loc.key] at hlo hhi hab ⊢
  omega

theorem pteTransit_lt {e : Nat} (h : e < 2 ^ 64) (b : Bool) : pteTransit e b < 2 ^ 64 := by
  rw [pteTransit, setField_bit]
  have hb : bit01 b % 2 < 2 := Nat.mod_lt _ (by decide)
  omega

theorem fromBytes_toBytes_of_lt {v : Nat} (h : v < 2 ^ 64) : fromBytes (toBytes 8 v) = v := by
  rw [fromBytes_toBytes]
  exact Nat.mod_eq_of_lt h

/-- Leaves written with TRANSIT set (R85, step 1). -/
def marked (s : State) (ls : List (Nat × Nat)) : State := ls.foldl (fun s l => putLeaf s l.2 (pteTransit l.1 true)) s

theorem marked_rest (s : State) (ls : List (Nat × Nat)) : (marked s ls).ctxs = s.ctxs := by
  unfold marked
  induction ls generalizing s with
  | nil => rfl
  | cons l ls ih => exact (ih _).trans (writeAt_ctxs s _ _)

/-- A leaf stands in memory with TRANSIT set. -/
def standsMarked (l : Nat × Nat) (s : State) : Prop :=
  readBytes s.mem (Loc.hbm l.2).key 8 = toBytes 8 (pteTransit l.1 true)

theorem standsMarked_self {s : State} (h : Canonical s) (l : Nat × Nat) :
    standsMarked l (putLeaf s l.2 (pteTransit l.1 true)) := read_putLeaf_self h _ rfl

/-- Marking another leaf of one state's tables leaves it standing. -/
theorem standsMarked_putLeaf {s t : State} {l x : Nat × Nat} (ht : Canonical t) (hl : IsEntry s l) (hx : IsEntry s x)
    (h : standsMarked l t) : standsMarked l (putLeaf t x.2 (pteTransit x.1 true)) := by
  by_cases hkey : (Loc.hbm x.2).key = (Loc.hbm l.2).key
  · have hsame : x.1 = l.1 := by rw [hx.holds, hl.holds, entryAt_congr hkey]
    rw [hsame]
    exact read_putLeaf_self ht _ hkey
  · exact (read_putLeaf_ne _ hx.aligned hl.aligned hkey).trans h

theorem standsMarked_marked {s : State} (hs : Canonical s) {ls : List (Nat × Nat)} (hls : ∀ l ∈ ls, IsEntry s l)
    {l : Nat × Nat} (hl : l ∈ ls) : standsMarked l (marked s ls) :=
  foldl_reaches (I := Canonical) (P := standsMarked l) hl (fun _ _ _ ht => canonical_putLeaf ht _ _)
    (fun _ x hx ht h => standsMarked_putLeaf ht (hls l hl) (hls x hx) h) (fun _ ht => standsMarked_self ht l) hs

theorem read_marked {s : State} (hs : Canonical s) {ls : List (Nat × Nat)} (hls : ∀ l ∈ ls, IsEntry s l) {l : Nat × Nat}
    (hl : l ∈ ls) : fromBytes (readBytes (marked s ls).mem (Loc.hbm l.2).key 8) = pteTransit l.1 true := by
  have hlt : l.1 < 2 ^ 64 := by rw [(hls l hl).holds]; exact entryAt_lt _ _
  rw [show readBytes (marked s ls).mem (Loc.hbm l.2).key 8 = _ from standsMarked_marked hs hls hl]
  exact fromBytes_toBytes_of_lt (pteTransit_lt hlt true)

/-! ### Invalidating (R85, step 2) -/

theorem coreOf_invalidate (s : State) (ctx a n c : Nat) :
    coreOf (invalidate s ctx a n) c = dropTranslations (coreOf s c) ctx a n :=
  look_map_values ({} : Core) (fun k => dropTranslations k ctx a n) rfl s.cores c

/-- A translation of a context meets a range. -/
def meets (e : TlbEntry) (ctx a n : Nat) : Prop := e.ctx = ctx ∧ e.base < a + n ∧ a < e.base + e.size

theorem mem_tlb_invalidate {s : State} {ctx a n c : Nat} {e : TlbEntry}
    (he : e ∈ (coreOf (invalidate s ctx a n) c).tlb) : e ∈ (coreOf s c).tlb ∧ ¬meets e ctx a n := by
  rw [coreOf_invalidate] at he
  have hfilter := List.mem_filter.mp (show e ∈ (coreOf s c).tlb.filter fun t =>
    !(t.ctx == ctx && t.base < a + n && a < t.base + t.size) from he)
  refine ⟨hfilter.1, fun ⟨hctx, hlo, hhi⟩ => ?_⟩
  have hkept := hfilter.2
  rw [hctx, decide_eq_true hlo, decide_eq_true hhi, beq_self_eq_true] at hkept
  exact absurd hkept (by decide)

theorem mem_tlb_foldl_invalidate {ctx n c : Nat} {e : TlbEntry} (as : List Nat) {s : State}
    (he : e ∈ (coreOf (as.foldl (fun s va => invalidate s ctx va n) s) c).tlb) :
    e ∈ (coreOf s c).tlb ∧ ∀ a ∈ as, ¬meets e ctx a n := by
  induction as generalizing s with
  | nil => exact ⟨he, fun _ h => absurd h List.not_mem_nil⟩
  | cons a as ih =>
    obtain ⟨hstands, hrest⟩ := ih he
    obtain ⟨hmem, hmiss⟩ := mem_tlb_invalidate hstands
    exact ⟨hmem, List.forall_mem_cons.mpr ⟨hmiss, hrest⟩⟩

theorem foldl_invalidate_rest (ctx n : Nat) (as : List Nat) (s : State) :
    (as.foldl (fun s va => invalidate s ctx va n) s).mem = s.mem ∧
      (as.foldl (fun s va => invalidate s ctx va n) s).ctxs = s.ctxs := by
  induction as generalizing s with
  | nil => exact ⟨rfl, rfl⟩
  | cons a as ih => exact ih (invalidate s ctx a n)

theorem markPage_eq (s : State) (c : SwapCmd) (ls : List (Nat × Nat)) :
    markPage s c ls = (pageAddresses c).foldl
      (fun s va => invalidate s (swapCtx c.image) va (pageBytes (swapLevel c.image))) (marked s ls) := rfl

theorem mem_markPage (s : State) (c : SwapCmd) (ls : List (Nat × Nat)) : (markPage s c ls).mem = (marked s ls).mem := by
  rw [markPage_eq]
  exact (foldl_invalidate_rest _ _ _ _).1

theorem ctxs_markPage (s : State) (c : SwapCmd) (ls : List (Nat × Nat)) : (markPage s c ls).ctxs = s.ctxs := by
  rw [markPage_eq]
  exact (foldl_invalidate_rest _ _ _ _).2.trans (marked_rest s ls)

/-- No translation of a marked page stays in a TLB. -/
theorem tlb_markPage {s : State} {c : SwapCmd} {ls : List (Nat × Nat)} {n : Nat} {e : TlbEntry}
    (he : e ∈ (coreOf (markPage s c ls) n).tlb) (hctx : e.ctx = swapCtx c.image) {va : Nat} (hva : va ∈ pageAddresses c) :
    e.base + e.size ≤ va ∨ va + pageBytes (swapLevel c.image) ≤ e.base := by
  rw [markPage_eq] at he
  have hmiss := (mem_tlb_foldl_invalidate _ he).2 va hva
  rw [meets, not_and, not_and_or, Nat.not_lt, Nat.not_lt] at hmiss
  exact (hmiss hctx).symm

/-! ### The head command (R82) -/

/-- What keeps a context's other commands back: one that has ended, or of another tower that is in progress. -/
def busySwaps (tower : Nat) (e : Nat × List SwapCmd) : Bool :=
  e.2.any fun x => x.result.isSome || (e.1 != tower && (x.page != 0 || x.transit.isSome))

theorem swapHead_iff {s : State} {ctx tower : Nat} {c : SwapCmd} : swapHead s ctx tower = some c ↔
    (∃ rest, swapsOf s ctx tower = c :: rest) ∧ (ctxOf s ctx).swaps.any (busySwaps tower) = false := by
  unfold swapHead
  constructor
  · intro h
    split at h
    · cases h
    · next d rest hswaps =>
      dsimp only at h
      split at h
      · cases h
      · next hbusy =>
        rw [← Option.some.inj h]
        exact ⟨⟨rest, hswaps⟩, Bool.eq_false_iff.mpr hbusy⟩
  · rintro ⟨⟨rest, hswaps⟩, hbusy⟩
    rw [hswaps]
    exact if_neg (Bool.eq_false_iff.mp hbusy)

theorem mem_of_look {α : Type} {d v : α} {m : Map α} {k : Nat} (h : look d m k = v) (hv : v ≠ d) : (k, v) ∈ m := by
  induction m with
  | nil => exact absurd h.symm hv
  | cons e m ih =>
    obtain ⟨j, w⟩ := e
    rw [look] at h
    split at h
    next heq =>
      rw [← h, ← eq_of_beq heq]
      exact List.mem_cons_self
    next => exact List.mem_cons_of_mem _ (ih h)

theorem swapsOf_onSwaps (s : State) (ctx tower : Nat) (f : List SwapCmd → List SwapCmd) :
    swapsOf (onSwaps s ctx tower f) ctx tower = f (swapsOf s ctx tower) := by
  rw [swapsOf, onSwaps, ctxOf_onCtx_self]
  exact look_put_self _ _ _ _

/-- The head command goes on as the head. -/
theorem swapHead_onHead {s : State} {ctx tower : Nat} {c : SwapCmd} {f : SwapCmd → SwapCmd}
    (h : swapHead s ctx tower = some c) (hf : (f c).result = c.result) :
    swapHead (onHead s ctx tower f) ctx tower = some (f c) := by
  obtain ⟨⟨rest, hswaps⟩, hbusy⟩ := swapHead_iff.mp h
  refine swapHead_iff.mpr ⟨⟨rest, ?_⟩, ?_⟩
  · rw [onHead, swapsOf_onSwaps, hswaps]
  · have hmine := List.any_eq_false.mp hbusy _ (mem_of_look hswaps (List.cons_ne_nil _ _))
    rw [onHead, onSwaps, ctxOf_onCtx_self, List.any_eq_false]
    intro e he
    obtain rfl | he := mem_put he
    · rw [show look [] (ctxOf s ctx).swaps tower = c :: rest from hswaps]
      simp only [busySwaps, List.any_cons, hf, bne_self_eq_false, Bool.false_and, Bool.or_false] at hmine ⊢
      exact hmine
    · exact List.any_eq_false.mp hbusy e he

theorem swapHead_of_ctxs {s t : State} (h : t.ctxs = s.ctxs) (ctx tower : Nat) :
    swapHead t ctx tower = swapHead s ctx tower := by
  rw [swapHead, swapHead, swapsOf, swapsOf, ctxOf, ctxOf, h]

/-! ### One event of the engine -/

/-- The rows of the three operations run the engine. -/
theorem exec_swapRow {ctx tower : Nat} {p : Nat × Instr}
    (hp : p ∈ [(1, Instr.migrate ctx tower), (2, .exchange ctx tower), (3, .promote ctx tower)]) (s : State) :
    exec p.2 s = swapRun s ctx tower p.1 := by
  simp only [List.mem_cons, List.not_mem_nil, or_false] at hp
  obtain rfl | rfl | rfl := hp <;> rfl

section
variable {s : State} {ctx tower : Nat} {c : SwapCmd} (hctx : ctx < Config.contexts) (hhead : swapHead s ctx tower = some c)
include hctx hhead

/-- A command under way takes its next step. -/
theorem swapRun_goes {x : Transit} (hx : c.transit = some x) :
    swapRun s ctx tower (swapOp c.image) = .next (swapStep s ctx tower c) := by
  rw [swapRun, if_neg (Nat.not_le.mpr hctx), hhead]
  simp only [hx, bne_self_eq_false, Option.isSome_some, Bool.or_true, Bool.false_eq_true, if_false, if_true]

variable (hpage : c.page = 0) (htransit : c.transit = none)
include hpage htransit

/-- A command that its checks refuse. -/
theorem swapRun_refused {code : Nat} (hcheck : swapCheck s ctx c.image = some code) (hcode : code ≠ 0x40) :
    swapRun s ctx tower (swapOp c.image) = .next (swapEnd s ctx tower code false 0) := by
  rw [swapRun, if_neg (Nat.not_le.mpr hctx), hhead]
  simp only [hpage, htransit, hcheck, bne_self_eq_false, Option.isSome_none, Bool.or_self, Bool.false_eq_true, if_false]

/-- A command whose checks pass: a superseded PROMOTE ends, any other takes its first step. -/
theorem swapRun_starts (hcheck : swapCheck s ctx c.image = none) :
    swapRun s ctx tower (swapOp c.image) = .next (if swapOp c.image == 3 && !srcStands s c.image then
      swapEnd s ctx tower 0x45 false 0 else swapStep s ctx tower c) := by
  rw [swapRun, if_neg (Nat.not_le.mpr hctx), hhead]
  simp only [hpage, htransit, hcheck, bne_self_eq_false, Option.isSome_none, Bool.or_self, Bool.false_eq_true, if_false]

end

/-- The first step of a page: its leaves are marked (R85). -/
theorem swapStep_marks {s : State} {ctx tower : Nat} {c : SwapCmd} {ls : List (Nat × Nat)} (htransit : c.transit = none)
    (hls : pageLeaves s c = some ls) (hstill : ∀ l ∈ ls, flag l.1 7 = false) :
    swapStep s ctx tower c =
      onHead (markPage s c ls) ctx tower fun c => { c with transit := some { leaves := ls } } := by
  have hnone : (ls.any fun l => flag l.1 7) = false := List.any_eq_false.mpr fun l hl => by simp [hstill l hl]
  rw [swapStep]
  simp only [htransit, hls, hnone, Bool.false_eq_true, if_false]

/-! ### A page's contents move (R85, step 4) -/

theorem canonical_lift {s : State} (h : Canonical s) (e o : Nat) (l : Loc) : Canonical (lift s e o l).2 := by
  unfold lift
  split
  · exact h
  · split <;> exact h

/-- A piece of 64 KiB is no register of a port's window. -/
theorem canonical_lay {s : State} (h : Canonical s) (l : Loc) (v : Memory × List Nat) : Canonical (lay s l v) := by
  cases l with
  | bar0 o =>
    have hwide : storeAt s (.bar0 o) (readBytes v.1 0 65536) = s := by
      rw [storeAt, windowWrite, readBytes_length]
      rfl
    rw [show lay s (.bar0 o) v = storeAt s (.bar0 o) (readBytes v.1 0 65536) from rfl, hwide]
    exact h
  | refused => exact h
  | hbm | store | peer | host => exact wf_writeCells (wf_clearRange h _ _) _

theorem canonical_copyPage (ctx level old new : Nat) {s : State} (h : Canonical s) (o : Nat) :
    Canonical (copyPage ctx level old new s o) := by
  unfold copyPage
  split
  · exact canonical_lay (canonical_lift h _ _ _) _ _
  · exact h

theorem canonical_foldl_copyPage (ctx level old new : Nat) (os : List Nat) {s : State} (h : Canonical s) :
    Canonical (os.foldl (copyPage ctx level old new) s) := by
  induction os generalizing s with
  | nil => exact h
  | cons o os ih => exact ih (canonical_copyPage ctx level old new h o)

/-- The new leaf of a page that has moved. -/
theorem read_installPage {s : State} (h : Canonical s) {c : SwapCmd} {x : Transit} {e a : Nat} (hx : x.leaves = [(e, a)]) :
    fromBytes (readBytes (installPage s c x).mem (Loc.hbm a).key 8) = destLeaf c.image c.page % 2 ^ 64 := by
  have hread := read_putLeaf_self (canonical_foldl_copyPage (swapCtx c.image) (swapLevel c.image) e
    (destLeaf c.image c.page) (pageOffsets (swapLevel c.image)) h) (destLeaf c.image c.page) (Eq.refl (Loc.hbm a).key)
  have hinstall : installPage s c x = putLeaf ((pageOffsets (swapLevel c.image)).foldl
      (copyPage (swapCtx c.image) (swapLevel c.image) e (destLeaf c.image c.page)) s) a (destLeaf c.image c.page) := by
    rw [installPage, hx]
  rw [hinstall, hread, fromBytes_toBytes]

/-! ### R82-R87 -/

/-- R82-R87: by the step of the head command that its state calls for. -/
theorem swapEngineMovesPages : SwapEngineMovesPages := by
  refine ⟨?superseded, ?marks, ?moves, ?installs, ?last, ?refused, ?badOp, ?completes⟩
  case superseded =>
    intro s ctx tower c hctx hhead hpage htransit hcheck hop hsrc
    have hrun := swapRun_starts hctx hhead hpage htransit hcheck
    rw [hop, hsrc] at hrun
    exact hrun
  case marks =>
    intro s ctx tower c ls hctx hhead hpage htransit hcheck hs hsrc hls hstill p hp hop
    have hstands : (swapOp c.image == 3 && !srcStands s c.image) = false := by
      by_cases h3 : swapOp c.image = 3
      · rw [hsrc h3, Bool.not_true, Bool.and_false]
      · rw [beq_eq_false_iff_ne.mpr h3, Bool.false_and]
    have hexec : exec p.2 s = .next (onHead (markPage s c ls) ctx tower fun c =>
        { c with transit := some { leaves := ls } }) := by
      rw [exec_swapRow hp, ← hop, swapRun_starts hctx hhead hpage htransit hcheck, hstands, if_neg Bool.false_ne_true,
        swapStep_marks htransit hls hstill]
    have hhead' : swapHead (markPage s c ls) ctx tower = some c :=
      (swapHead_of_ctxs (ctxs_markPage s c ls) ctx tower).trans hhead
    refine ⟨_, hexec, swapHead_onHead hhead' rfl, fun l hl => ?_, fun n e he hown va hva => tlb_markPage he hown hva⟩
    have hmem : (onHead (markPage s c ls) ctx tower fun c => { c with transit := some { leaves := ls } }).mem =
        (marked s ls).mem := mem_markPage s c ls
    rw [hmem]
    exact read_marked hs (pageLeaves_entry hls) hl
  case moves =>
    intro s ctx tower c x hctx hhead hx p hp hop
    have hexec : exec p.2 s = .next (swapStep s ctx tower c) := by
      rw [exec_swapRow hp, ← hop, swapRun_goes hctx hhead hx]
    refine ⟨fun hahead => ?_, fun ahead hahead hstands => ?_, fun ahead hahead hgone hreached => ?_⟩
    · rw [hexec, swapStep]
      simp only [hx, hahead]
    · have hany : ahead.any (copyStands s (swapCtx c.image)) = true := List.any_eq_true.mpr hstands
      rw [hexec, swapStep]
      simp only [hx, hahead, hany, Bool.true_or, if_true]
    · have hany : ahead.any (copyStands s (swapCtx c.image)) = false :=
        List.any_eq_false.mpr fun m hm => by simp [hgone m hm]
      have hall : (pageFrames c x).all (pageReached s (swapCtx c.image) (swapLevel c.image)) = true :=
        List.all_eq_true.mpr hreached
      rw [hexec, swapStep]
      simp only [hx, hahead, hany, hall, Bool.not_true, Bool.or_self, Bool.false_eq_true, if_false]
  case installs => exact fun s c x e a hs hx => read_installPage hs hx
  case last =>
    intro s ctx tower c rest hswaps hpages hop
    rw [swapLast, hswaps]
    simp only [Nat.not_lt.mpr hpages, if_false, beq_eq_false_iff_ne.mpr hop, Bool.false_and, Bool.false_eq_true]
  case refused =>
    intro s ctx tower code c hctx hhead hpage htransit hcheck hcode p hp hop
    rw [exec_swapRow hp, ← hop, swapRun_refused hctx hhead hpage htransit hcheck hcode]
  case badOp =>
    intro s ctx tower c hctx hhead hpage htransit hcheck
    refine congrArg Host.Outcome.next ?_
    rw [if_neg (Nat.not_le.mpr hctx), hhead]
    simp only [hpage, htransit, hcheck, beq_self_eq_true, Option.isNone_none, Bool.and_self, if_true]
  case completes =>
    intro s ctx tower status pages late c rest hctx hswaps hresult hwaits
    refine congrArg Host.Outcome.next ?_
    rw [if_neg (Nat.not_le.mpr hctx), hswaps]
    simp only [hresult, hwaits, Bool.false_eq_true, if_false]

/-- Settles O15, by its two parts. -/
theorem memoryErrorsAndSwaps : Obligations.MemoryErrorsAndSwaps := ⟨errorsAndRetirement, swapEngineMovesPages⟩

end Sys2Proof.Slice0

/-! PROOFS. The canonical form of the memories (O54): what keeping it means for each kind of result, and the rules every
operation is put together by. -/

namespace Sys2Proof.Slice0
open Sys2Proof.Machine

/-! ### Results that keep the canonical form -/

/-- An outcome whose next state, if there is one, has canonical memories. -/
inductive Lands : Host.Outcome State Fault Refusal → Prop where
  | next {t : State} (h : AllCanonical t) : Lands (.next t)
  | fault {r : Fault} : Lands (.fault r)
  | refused {r : Refusal} : Lands (.refused r)

/-- A computation whose value, if it completes, has the property `P`. -/
inductive Yields {α : Type} (P : α → Prop) : Act α → Prop where
  | ok {a : α} (h : P a) : Yields P (.ok a)
  | error {e : Trap} : Yields P (.error e)

/-- A search whose value, if there is one, has the property `P`. -/
inductive Found {α : Type} (P : α → Prop) : Option α → Prop where
  | some {a : α} (h : P a) : Found P (.some a)
  | none : Found P .none

section
variable {s t : State} {α β : Type}

theorem Lands.of_eq {o : Host.Outcome State Fault Refusal} (h : Lands o) (e : o = .next t) : AllCanonical t := by
  rw [e] at h
  cases h with
  | next h => exact h

theorem Lands.ite {c : Prop} [Decidable c] {a b : Host.Outcome State Fault Refusal} (ha : Lands a) (hb : Lands b) :
    Lands (if c then a else b) := by
  split
  · exact ha
  · exact hb

theorem Yields.of_eq {P : α → Prop} {x : Act α} {a : α} (h : Yields P x) (e : x = .ok a) : P a := by
  rw [e] at h
  cases h with
  | ok h => exact h

theorem Yields.ite {P : α → Prop} {c : Prop} [Decidable c] {x y : Act α} (hx : Yields P x) (hy : Yields P y) :
    Yields P (if c then x else y) := by
  split
  · exact hx
  · exact hy

theorem Yields.bind {P : α → Prop} {Q : β → Prop} {x : Act α} {f : α → Act β} (hx : Yields P x)
    (hf : ∀ a, P a → Yields Q (f a)) : Yields Q (x >>= f) := by
  cases hx with
  | ok h => exact hf _ h
  | error => exact .error

/-- After a computation that touches no state. -/
theorem Yields.after {Q : β → Prop} {x : Act α} {f : α → Act β} (hf : ∀ a, Yields Q (f a)) : Yields Q (x >>= f) := by
  cases x with
  | ok a => exact hf a
  | error e => exact .error

theorem Yields.map {P : α → Prop} {Q : β → Prop} {x : Act α} {f : α → β} (hx : Yields P x) (hf : ∀ a, P a → Q (f a)) :
    Yields Q (x.map f) := by
  cases hx with
  | ok h => exact .ok (hf _ h)
  | error => exact .error

theorem Yields.mapAfter {Q : β → Prop} {x : Act α} {f : α → β} (hf : ∀ a, Q (f a)) : Yields Q (x.map f) := by
  cases x with
  | ok a => exact .ok (hf a)
  | error e => exact .error

theorem Found.of_eq {P : α → Prop} {x : Option α} {a : α} (h : Found P x) (e : x = .some a) : P a := by
  rw [e] at h
  cases h with
  | some h => exact h

theorem Found.ite {P : α → Prop} {c : Prop} [Decidable c] {x y : Option α} (hx : Found P x) (hy : Found P y) :
    Found P (if c then x else y) := by
  split
  · exact hx
  · exact hy

theorem Found.bind {P : α → Prop} {Q : β → Prop} {x : Option α} {f : α → Option β} (hx : Found P x)
    (hf : ∀ a, P a → Found Q (f a)) : Found Q (x >>= f) := by
  cases hx with
  | some h => exact hf _ h
  | none => exact .none

theorem Found.after {Q : β → Prop} {x : Option α} {f : α → Option β} (hf : ∀ a, Found Q (f a)) : Found Q (x >>= f) := by
  cases x with
  | some a => exact hf a
  | none => exact .none

theorem Found.map {P : α → Prop} {Q : β → Prop} {x : Option α} {f : α → β} (hx : Found P x) (hf : ∀ a, P a → Q (f a)) :
    Found Q (x.map f) := by
  cases hx with
  | some h => exact .some (hf _ h)
  | none => exact .none

theorem Found.mapAfter {Q : β → Prop} {x : Option α} {f : α → β} (hf : ∀ a, Q (f a)) : Found Q (x.map f) := by
  cases x with
  | some a => exact .some (hf a)
  | none => exact .none

theorem Found.getD {P : α → Prop} {x : Option α} {a : α} (hx : Found P x) (ha : P a) : P (x.getD a) := by
  cases hx with
  | some h => exact h
  | none => exact ha

theorem Found.or {P : α → Prop} {x y : Option α} (hx : Found P x) (hy : Found P y) : Found P (x.or y) := by
  cases hx with
  | some h => exact .some h
  | none => exact hy

theorem Found.filter {P : α → Prop} {x : Option α} {p : α → Bool} (hx : Found P x) : Found P (x.filter p) := by
  cases hx with
  | some h =>
    rw [Option.filter]
    exact .ite (.some h) .none
  | none => exact .none

theorem canonical_ite {c : Prop} [Decidable c] (hs : AllCanonical s) (ht : AllCanonical t) :
    AllCanonical (if c then s else t) := by
  split
  · exact hs
  · exact ht

theorem canonical_ite_snd {c : Prop} [Decidable c] {x y : α × State} (hx : AllCanonical x.2) (hy : AllCanonical y.2) :
    AllCanonical (if c then x else y).2 := by
  split
  · exact hx
  · exact hy

theorem canonical_ite_fst {c : Prop} [Decidable c] {x y : State × α} (hx : AllCanonical x.1) (hy : AllCanonical y.1) :
    AllCanonical (if c then x else y).1 := by
  split
  · exact hx
  · exact hy

theorem canonical_ite_state {c : Prop} [Decidable c] {m n : Round} (hm : AllCanonical m.state) (hn : AllCanonical n.state) :
    AllCanonical (if c then m else n).state := by
  split
  · exact hm
  · exact hn

theorem AllCanonical.snd {x : α × State} {a : α} (h : AllCanonical x.2) (e : x = (a, t)) : AllCanonical t := by
  rw [e] at h
  exact h

theorem AllCanonical.snd_snd {x : α × β × State} {a : α} {y : β × State} (h : AllCanonical x.2.2) (e : x = (a, y)) :
    AllCanonical y.2 := by
  rw [e] at h
  exact h

theorem AllCanonical.fst {x : State × α} {a : α} (h : AllCanonical x.1) (e : x = (t, a)) : AllCanonical t := by
  rw [e] at h
  exact h

theorem canonical_foldl {f : State → α → State} {xs : List α} (hf : ∀ t x, AllCanonical t → AllCanonical (f t x))
    (h : AllCanonical s) : AllCanonical (xs.foldl f s) := by
  induction xs generalizing s with
  | nil => exact h
  | cons x xs ih => exact ih (hf s x h)

/-! ### The writes of a memory -/

/-- A change of the address space that keeps it canonical. -/
theorem AllCanonical.withMem (h : AllCanonical s) {m : Memory} (hm : m.wf = true) {p : List Nat} :
    AllCanonical { s with mem := m, poison := p } :=
  ⟨hm, h.2⟩

theorem canonical_writeAt {l : Loc} {bs : List Byte} (hs : AllCanonical s) : AllCanonical (writeAt s l bs) := by
  unfold writeAt
  split
  · exact hs
  · exact hs.withMem (wf_writeBytes hs.1 _ _)

theorem canonical_relocate {a b n : Nat} (hs : AllCanonical s) : AllCanonical (relocate s a b n) :=
  hs.withMem (wf_relocate hs.1 _ _ _)

/-! ### Changes of other parts -/

/-- The memories of the module. -/
def memories (m : Module) : Memory × Memory × Memory := (m.staging, m.flash, m.window.data)

/-- A change of anything but the memories. -/
theorem AllCanonical.kept (h : AllCanonical s) (hmem : t.mem = s.mem) (hmodule : memories t.module = memories s.module) :
    AllCanonical t := by
  obtain ⟨hm, hs, hf, hw⟩ := h
  obtain ⟨es, ew⟩ := Prod.mk.inj hmodule
  obtain ⟨ef, ew⟩ := Prod.mk.inj ew
  exact ⟨by rw [Canonical, hmem]; exact hm, by rw [es]; exact hs, by rw [ef]; exact hf, by rw [ew]; exact hw⟩

theorem canonical_setCore {c : Nat} {v : Core} (hs : AllCanonical s) : AllCanonical (setCore s c v) := hs.kept rfl rfl

theorem canonical_onCore {c : Nat} {f : Core → Core} (hs : AllCanonical s) : AllCanonical (onCore s c f) := hs.kept rfl rfl

theorem canonical_onTower {n : Nat} {f : Tower → Tower} (hs : AllCanonical s) : AllCanonical (onTower s n f) :=
  hs.kept rfl rfl

theorem canonical_onPort {n : Nat} {f : Port → Port} (hs : AllCanonical s) : AllCanonical (onPort s n f) := hs.kept rfl rfl

theorem canonical_onCtx {c : Nat} {f : Ctx → Ctx} (hs : AllCanonical s) : AllCanonical (onCtx s c f) := hs.kept rfl rfl

theorem canonical_onModule {f : Module → Module} (hs : AllCanonical s) (hf : ∀ m, memories (f m) = memories m) :
    AllCanonical (onModule s f) :=
  hs.kept rfl (hf _)

theorem canonical_logEvent {code detail : Nat} (hs : AllCanonical s) : AllCanonical (logEvent s code detail) := by
  refine canonical_onModule hs fun m => ?_
  dsimp only
  split <;> rfl

end

end Sys2Proof.Slice0

/-! PROOFS. The canonical form of the memories (O54): interrupts and ports, translation, reports and the trace, timelines and pulses,
records. -/

namespace Sys2Proof.Slice0
open Sys2Proof.Machine

variable {s : State}

theorem canonical_raiseIrq {fn vec : Nat} (hs : AllCanonical s) : AllCanonical (raiseIrq s fn vec) := by
  unfold raiseIrq
  exact canonical_ite (canonical_ite hs hs) hs

theorem canonical_newEpoch (hs : AllCanonical s) : AllCanonical (newEpoch s) := canonical_onModule hs (fun _ => rfl)

theorem canonical_setReplace (hs : AllCanonical s) : AllCanonical (setReplace s) := by
  unfold setReplace
  exact canonical_ite hs (canonical_raiseIrq (canonical_logEvent (canonical_onModule hs (fun _ => rfl))))

theorem canonical_checkReplace (hs : AllCanonical s) : AllCanonical (checkReplace s) := by
  unfold checkReplace
  exact canonical_ite (canonical_setReplace hs) hs

theorem canonical_drawWord (hs : AllCanonical s) : AllCanonical (drawWord s).2 := hs

theorem canonical_drawBytes {n : Nat} (hs : AllCanonical s) : AllCanonical (drawBytes s n).2 := hs

theorem canonical_restripePort {i : Nat} (hs : AllCanonical s) : AllCanonical (restripePort s i) :=
  canonical_onPort hs

theorem canonical_writePark {i v : Nat} (hs : AllCanonical s) : AllCanonical (writePark s i v) := by
  unfold writePark
  extract_lets _ _ t u w x y
  have ht : AllCanonical t := canonical_onPort hs
  have hu : AllCanonical u := canonical_foldl (fun _ _ hz => canonical_logEvent hz) ht
  have hw : AllCanonical w := canonical_ite hu (canonical_newEpoch hu)
  have hx : AllCanonical x := canonical_ite (canonical_setReplace hw) hw
  have hy : AllCanonical y := canonical_onPort hx
  exact canonical_restripePort hy

theorem canonical_writePctl {i v : Nat} (hs : AllCanonical s) : AllCanonical (writePctl s i v) :=
  canonical_restripePort (canonical_onPort hs)

theorem canonical_portWrite {i off v : Nat} (hs : AllCanonical s) : AllCanonical (portWrite s i off v) := by
  unfold portWrite
  split
  · exact hs
  · split
    · exact canonical_restripePort (canonical_onPort hs)
    · split
      · exact canonical_onPort hs
      · split
        · exact canonical_restripePort (canonical_onPort hs)
        · exact canonical_restripePort (canonical_onPort hs)
        · exact canonical_writePark hs
        · exact canonical_onPort hs
        · exact canonical_writePctl hs
        · exact canonical_onPort hs
        · exact hs

theorem canonical_windowWrite {off : Nat} {bs : List Byte} (hs : AllCanonical s) :
    AllCanonical (windowWrite s off bs) := by
  unfold windowWrite
  exact canonical_ite (canonical_portWrite hs) hs

theorem canonical_onDesc {ctx n : Nat} {f : Descriptor → Descriptor} (hs : AllCanonical s) :
    AllCanonical (onDesc s ctx n f) :=
  canonical_onCtx hs

theorem canonical_writeDesc {ctx n : Nat} (hs : AllCanonical s) : AllCanonical (writeDesc s ctx n) := by
  unfold writeDesc
  split
  · exact hs
  · exact canonical_writeAt hs

theorem canonical_dropDesc {core key : Nat} (hs : AllCanonical s) : AllCanonical (dropDesc s core key) := by
  unfold dropDesc
  extract_lets _ _ t
  have ht : AllCanonical t := canonical_onCore (canonical_writeDesc hs)
  exact canonical_ite ht (canonical_onCtx ht)

theorem canonical_leaveDesc {core ctx n : Nat} (hs : AllCanonical s) : AllCanonical (leaveDesc s core ctx n) := by
  unfold leaveDesc
  exact canonical_ite hs (canonical_ite hs (canonical_dropDesc hs))

theorem canonical_taintStore {core offset n : Nat} (hs : AllCanonical s) :
    AllCanonical (taintStore s core offset n) := by
  unfold taintStore
  split
  · exact canonical_ite hs (canonical_onCore hs)
  · exact hs

theorem canonical_tlbInsert {core ctx level e va : Nat} (hs : AllCanonical s) :
    AllCanonical (tlbInsert s core ctx level e va) := by
  unfold tlbInsert
  extract_lets
  split
  next u e' =>
    have hu : AllCanonical u := .snd (canonical_ite_snd hs (canonical_drawWord hs)) e'
    exact canonical_onCore hu

theorem canonical_invalidate {ctx n n' : Nat} (hs : AllCanonical s) : AllCanonical (invalidate s ctx n n') := hs

theorem canonical_cacheNonLeaf {t : Nat} {es : List NonLeaf} (hs : AllCanonical s) :
    AllCanonical (cacheNonLeaf s t es) :=
  canonical_onTower hs

theorem canonical_joinWalk {core requester ctx va kind : Nat} (hs : AllCanonical s) :
    AllCanonical (joinWalk s core requester ctx va kind) := by
  unfold joinWalk
  extract_lets
  split
  · exact canonical_onTower hs
  · exact canonical_ite (canonical_onTower hs) hs

theorem canonical_translate {core : Option Nat} {ctx kind va : Nat} (hs : AllCanonical s) :
    AllCanonical (Machine.translate s core ctx kind va).2 := by
  unfold Machine.translate
  split
  · exact canonical_ite_snd hs hs
  · split <;> split <;> exact hs

theorem canonical_windowLook {ctx via kind : Nat} {va : Nat} (hs : AllCanonical s) :
    AllCanonical (windowLook ctx via kind s va).2 := by
  unfold windowLook
  split
  · exact canonical_translate hs
  · split
    · exact hs
    · split
      · exact hs
      · split
        · exact hs
        · exact hs
        · extract_lets t
          have ht : AllCanonical t := canonical_cacheNonLeaf hs
          exact canonical_ite (canonical_tlbInsert ht) ht

theorem canonical_spanBy {f : State → Nat → Look × State} {xs : List (Nat × Nat)} (hf : ∀ t a1, AllCanonical t →
    AllCanonical (f t a1).2) (hs : AllCanonical s) :
    AllCanonical (spanBy f s xs).2 := by
  induction xs generalizing s with
  | nil => exact hs
  | cons x xs ih =>
    rw [spanBy]
    split
    · next t e =>
      have ht : AllCanonical t := .snd (hf _ _ hs) e
      split
      · next u e' =>
        exact .snd (ih ht) e'
      · exact ih ht
    · next t _ e' =>
      exact .snd (hf _ _ hs) e'

theorem canonical_spanOf {core : Option Nat} {ctx kind : Nat} {ps : List (Nat × Nat)} (hs : AllCanonical s) :
    AllCanonical (spanOf s core ctx kind ps).2 :=
  canonical_spanBy (fun _ _ ht => canonical_translate ht) hs

theorem canonical_span {core : Option Nat} {ctx kind va n : Nat} (hs : AllCanonical s) :
    AllCanonical (span s core ctx kind va n).2 :=
  canonical_spanOf hs

theorem canonical_storeAt {l : Loc} {bs : List Byte} (hs : AllCanonical s) : AllCanonical (storeAt s l bs) := by
  unfold storeAt
  split
  · exact canonical_windowWrite hs
  · exact canonical_writeAt (canonical_taintStore hs)
  · exact canonical_writeAt hs

theorem canonical_storePiece {l : Loc} {bs : List Byte} (hs : AllCanonical s) :
    AllCanonical (storePiece s l bs) := by
  unfold storePiece
  split
  · exact hs
  · exact canonical_storeAt hs

theorem canonical_storePieces {xs : List (Loc × Nat)} {bs : List Byte} (hs : AllCanonical s) :
    AllCanonical (storePieces s xs bs) := by
  induction xs generalizing s bs with
  | nil => exact hs
  | cons x xs ih => exact ih (canonical_storePiece hs)

theorem canonical_writePieces {xs : List (Loc × Nat)} {bs : List Byte} (hs : AllCanonical s) :
    AllCanonical (writePieces s xs bs) := by
  unfold writePieces
  split
  · exact canonical_storeAt hs
  · exact canonical_storePieces hs

theorem canonical_cleanHead {ps : List (Loc × Nat)} {n n' start : Nat} (hs : AllCanonical s) :
    AllCanonical (cleanHead s ps n n' start) := by
  unfold cleanHead
  extract_lets
  split
  · exact canonical_ite hs hs
  · exact hs

theorem found_writeSpace {ctx : Nat} {virtual : Bool} {n : Nat} {bs : List Byte} (hs : AllCanonical s) :
    Found AllCanonical (writeSpace s ctx virtual n bs) := by
  unfold writeSpace
  split
  · exact .some (canonical_writePieces hs)
  · exact .none

theorem found_writeVirtual {ctx va : Nat} {bs : List Byte} (hs : AllCanonical s) :
    Found AllCanonical (writeVirtual s ctx va bs) :=
  found_writeSpace hs

theorem found_postNow {ctx : Nat} {i : Item} (hs : AllCanonical s) : Found AllCanonical (postNow s ctx i) := by
  unfold postNow
  extract_lets
  split
  · exact .none
  · split
    · exact .none
    · next t e' =>
      have ht : AllCanonical t := (found_writeSpace hs).of_eq e'
      exact .some (canonical_ite (canonical_raiseIrq (canonical_onCtx ht)) (canonical_onCtx ht))

theorem canonical_enterItem {ctx : Nat} {i : Item} (hs : AllCanonical s) : AllCanonical (enterItem s ctx i) := by
  unfold enterItem
  extract_lets
  split
  · next t e =>
    exact (.ite (found_postNow hs) .none : Found AllCanonical _).of_eq e
  · exact canonical_onCtx hs

theorem canonical_postItem {ctx : Nat} {i : Item} (hs : AllCanonical s) : AllCanonical (postItem s ctx i) := by
  unfold postItem
  exact canonical_ite (canonical_enterItem hs) (canonical_onCtx hs)

theorem canonical_leaveItem {ctx : Nat} {i : Item} (hs : AllCanonical s) : AllCanonical (leaveItem s ctx i) :=
  canonical_onCtx hs

theorem canonical_walkReport {ctx source kind n n' : Nat} (hs : AllCanonical s) :
    AllCanonical (walkReport s ctx source kind n n') := by
  unfold walkReport
  split
  · exact canonical_ite (canonical_leaveItem hs) hs
  · exact hs

theorem canonical_flushItems {ctx : Nat} {xs : List Item} (hs : AllCanonical s) :
    AllCanonical (flushItems s ctx xs) := by
  induction xs generalizing s ctx with
  | nil => exact hs
  | cons x xs ih =>
    rw [flushItems]
    split
    · exact hs
    · next t e =>
      have ht : AllCanonical t := (found_postNow hs).of_eq e
      exact ih (canonical_onCtx ht)

theorem canonical_postCore {core source reason addr detail : Nat} (hs : AllCanonical s) :
    AllCanonical (postCore s core source reason addr detail) :=
  canonical_postItem hs

theorem found_traceWrite {ctx : Nat} {bs : List Byte} (hs : AllCanonical s) :
    Found AllCanonical (traceWrite s ctx bs) := by
  unfold traceWrite
  extract_lets
  split
  · exact .none
  · split
    · exact .none
    · next t e' =>
      have ht : AllCanonical t := (found_writeVirtual hs).of_eq e'
      exact .some (canonical_onCtx ht)

theorem canonical_traceFlush {core : Nat} {kept xs : List (Nat × List Byte)} (hs : AllCanonical s) :
    AllCanonical (traceFlush core s kept xs) := by
  induction xs generalizing core s kept with
  | nil => exact canonical_onCore hs
  | cons x xs ih =>
    rw [traceFlush]
    split
    · exact ih hs
    · next t e =>
      have ht : AllCanonical t := (.ite .none (found_traceWrite hs) : Found AllCanonical _).of_eq e
      exact ih ht

theorem canonical_traceEnter {core ctx kind src payload : Nat} (hs : AllCanonical s) :
    AllCanonical (traceEnter s core ctx kind src payload) :=
  canonical_onCore hs

theorem canonical_traceOwed {core : Nat} {l : Nat × Nat} (hs : AllCanonical s) :
    AllCanonical (traceOwed core s l) := by
  unfold traceOwed
  exact canonical_ite (canonical_onCore (canonical_traceEnter hs)) hs

theorem canonical_flushCore {core : Nat} (hs : AllCanonical s) : AllCanonical (flushCore s core) := by
  unfold flushCore
  exact canonical_ite hs (canonical_traceFlush (canonical_foldl (fun _ _ hu => canonical_traceOwed hu)
    (canonical_traceFlush hs)))

theorem canonical_trace {core kind src payload : Nat} (hs : AllCanonical s) :
    AllCanonical (trace s core kind src payload) := by
  unfold trace
  split
  · exact hs
  · exact canonical_ite hs (canonical_ite (canonical_flushCore (canonical_traceEnter (canonical_flushCore hs)))
      (canonical_onCtx (canonical_onCore (canonical_flushCore hs))))

theorem canonical_itemStall {i : Item} {since : Nat} (hs : AllCanonical s) :
    AllCanonical (itemStall s i since) := by
  unfold itemStall
  exact canonical_ite (canonical_trace hs) hs

theorem canonical_releaseItems {ctx : Nat} {xs : List (Item × Nat)} (hs : AllCanonical s) :
    AllCanonical (releaseItems s ctx xs) := by
  induction xs generalizing s ctx with
  | nil => exact hs
  | cons x xs ih =>
    rw [releaseItems]
    exact canonical_ite hs (ih (canonical_itemStall (canonical_enterItem (canonical_onCtx hs))))

theorem canonical_pumpItems {ctx : Nat} (hs : AllCanonical s) : AllCanonical (pumpItems s ctx) :=
  canonical_releaseItems (canonical_flushItems hs)

theorem canonical_tlTake {ctx key : Nat} (hs : AllCanonical s) : AllCanonical (tlTake s ctx key).2 :=
  canonical_onCtx hs

theorem canonical_tlDone {ctx key n : Nat} (hs : AllCanonical s) : AllCanonical (tlDone s ctx key n) :=
  canonical_onCtx hs

theorem canonical_pulse {core input : Nat} (hs : AllCanonical s) : AllCanonical (pulse s core input) :=
  canonical_onCore hs

theorem canonical_pulseAll {ctx input : Nat} {cores : List Nat} (hs : AllCanonical s) :
    AllCanonical (pulseAll s ctx input cores) :=
  canonical_foldl (fun _ _ ht => canonical_ite (canonical_pulse ht) ht) hs

theorem canonical_pulseTake {core stream : Nat} (hs : AllCanonical s) : AllCanonical (pulseTake s core stream).2 :=
  canonical_tlTake hs

theorem canonical_pulseEnd {core stream n : Nat} (hs : AllCanonical s) : AllCanonical (pulseEnd s core stream n) :=
  canonical_pulse (canonical_tlDone hs)

theorem canonical_streamPulse {core stream : Nat} (hs : AllCanonical s) :
    AllCanonical (streamPulse s core stream) :=
  canonical_pulseEnd (canonical_onCtx hs)

theorem canonical_recordImage {ctx i : Nat} {r : Record} (hs : AllCanonical s) :
    AllCanonical (recordImage s ctx i r) :=
  canonical_writeAt hs

theorem canonical_putRecord {ctx i : Nat} {r : Record} (hs : AllCanonical s) : AllCanonical (putRecord s ctx i r) :=
  canonical_recordImage (canonical_onCtx hs)

theorem canonical_onRecord {ctx i : Nat} {f : Record → Record} (hs : AllCanonical s) :
    AllCanonical (onRecord s ctx i f) := by
  unfold onRecord
  split
  · exact hs
  · exact canonical_putRecord hs

theorem canonical_pickSlot {ctx : Nat} (hs : AllCanonical s) : AllCanonical (pickSlot s ctx).2 := hs

theorem canonical_rangePoison {ctx ptr unit : Nat} (hs : AllCanonical s) :
    AllCanonical (rangePoison s ctx ptr unit) := by
  unfold rangePoison
  exact canonical_ite hs (canonical_ite (canonical_postItem hs) (canonical_walkReport hs))

theorem canonical_accept {ctx : Nat} {r : Record} {limit : Option Int} (hs : AllCanonical s) :
    AllCanonical (accept s ctx r limit).2 := by
  unfold accept
  extract_lets
  split
  · exact hs
  · split
    · exact canonical_rangePoison hs
    · exact canonical_ite_snd hs (canonical_putRecord (hs.kept rfl rfl))

theorem canonical_joinDown {ctx i : Nat} (hs : AllCanonical s) : AllCanonical (joinDown s ctx i) :=
  canonical_onRecord hs

theorem canonical_vacate {core : Nat} (hs : AllCanonical s) : AllCanonical (vacate s core) :=
  canonical_onCore (canonical_trace hs)

theorem canonical_launchUnitEnd {ctx : Nat} {launch : Option (Nat × Nat)} {failed : Bool} (hs : AllCanonical s) :
    AllCanonical (launchUnitEnd s ctx launch failed) := by
  unfold launchUnitEnd
  split
  · exact hs
  · exact canonical_onCtx hs

theorem canonical_markTaken {ctx n : Nat} (hs : AllCanonical s) : AllCanonical (markTaken s ctx n) := hs

theorem canonical_takeToken {ctx index unit n : Nat} {e : Entry} {poison : Bool} (hs : AllCanonical s) :
    AllCanonical (takeToken s ctx index unit n e poison) := by
  unfold takeToken
  extract_lets t u
  have ht : AllCanonical t := canonical_postItem hs
  have hu : AllCanonical u := (found_writeVirtual ht).getD (canonical_walkReport ht)
  exact canonical_joinDown (canonical_markTaken hu)

theorem canonical_failToken {ctx index unit frame : Nat} {p : Entry × Nat} (hs : AllCanonical s) :
    AllCanonical (failToken ctx index unit frame s p) := by
  unfold failToken
  extract_lets
  split
  · exact hs
  · split
    · exact canonical_takeToken hs
    · exact hs
    · exact canonical_takeToken hs

theorem canonical_endToken {ctx index unit frame : Nat} {p : Entry × Nat} (hs : AllCanonical s) :
    AllCanonical (endToken ctx index unit frame s p) := by
  unfold endToken
  exact canonical_ite (canonical_takeToken hs) hs

theorem canonical_onGQueue {t q : Nat} {f : GQueue → GQueue} (hs : AllCanonical s) :
    AllCanonical (onGQueue s t q f) :=
  canonical_onTower hs

theorem canonical_settleBatch {t : Nat} {e : EndedBatch} (hs : AllCanonical s) :
    AllCanonical (settleBatch s t e) := by
  unfold settleBatch
  extract_lets _ _ u
  have hu : AllCanonical u := by
    dsimp only [u]
    refine canonical_foldl (fun v x hv => ?_) hs
    split
    · exact canonical_failToken hv
    · exact canonical_endToken hv
  exact canonical_onGQueue hu

theorem canonical_endBatch {ctx i : Nat} {r : Record} {failed : Bool} (hs : AllCanonical s) :
    AllCanonical (endBatch s ctx i r failed) := by
  unfold endBatch
  split
  · exact hs
  · exact canonical_ite (canonical_onTower hs) (canonical_settleBatch hs)

theorem canonical_settleBatches {t : Nat} (hs : AllCanonical s) : AllCanonical (settleBatches s t) :=
  canonical_foldl (fun _ _ hu => canonical_settleBatch (canonical_onTower hu)) hs

theorem canonical_endRecord {ctx i : Nat} {failed : Bool} (hs : AllCanonical s) :
    AllCanonical (endRecord s ctx i failed) := by
  unfold endRecord
  split
  · exact hs
  · extract_lets t u _ v w y
    have ht : AllCanonical t := canonical_recordImage hs
    have hu : AllCanonical u := canonical_onCtx ht
    have hv : AllCanonical v := canonical_foldl (fun _ _ hz => canonical_joinDown (canonical_onRecord hz)) hu
    have hw : AllCanonical w := canonical_launchUnitEnd hv
    have hy : AllCanonical y := canonical_endBatch hw
    exact hy.kept rfl rfl

theorem canonical_failNest {ctx i unit reason core : Nat} {e : Nat × Engine} (hs : AllCanonical s) :
    AllCanonical (failNest ctx i unit reason core s e) := by
  unfold failNest
  split
  · exact hs
  · exact canonical_tlDone (canonical_postItem hs)

theorem canonical_failPulse {ctx core : Nat} {e : Nat × Stream} (hs : AllCanonical s) :
    AllCanonical (failPulse ctx core s e).2 :=
  canonical_ite_snd (canonical_tlDone (canonical_onCtx hs)) hs

theorem canonical_reportRegions {ctx i unit reason core : Nat} {e : Nat × Stream} (hs : AllCanonical s) :
    AllCanonical (reportRegions ctx i unit reason core s e) := by
  unfold reportRegions
  split
  next t e' =>
    have ht : AllCanonical t := .snd (canonical_failPulse hs) e'
    exact canonical_ite ht (canonical_postItem ht)

theorem canonical_abortSaved {ctx i unit reason : Nat} (hs : AllCanonical s) :
    AllCanonical (abortSaved s ctx i unit reason) := by
  unfold abortSaved
  extract_lets _ t
  have ht : AllCanonical t := canonical_foldl (fun _ _ hu => canonical_tlDone (canonical_postItem hu)) hs
  exact canonical_foldl (fun _ _ hu => canonical_foldl (fun _ _ hv => canonical_reportRegions hv) (canonical_foldl
    (fun _ _ hv => canonical_failNest hv) hu)) ht

theorem canonical_failRecord {ctx i reason : Nat} (hs : AllCanonical s) :
    AllCanonical (failRecord s ctx i reason) := by
  unfold failRecord
  split
  · exact hs
  · exact canonical_endRecord (canonical_postItem (canonical_abortSaved hs))

theorem canonical_traceWaitOf {core stream : Nat} {st : Stream} (hs : AllCanonical s) :
    AllCanonical (traceWaitOf s core stream st) := by
  unfold traceWaitOf
  extract_lets
  split
  · exact hs
  · exact canonical_trace hs
  · exact canonical_trace hs

theorem canonical_endStalls {core : Nat} (hs : AllCanonical s) : AllCanonical (endStalls s core) := by
  unfold endStalls
  extract_lets _ t
  have ht : AllCanonical t := canonical_foldl (fun _ _ hu => canonical_traceWaitOf hu) hs
  refine canonical_foldl (fun u x hu => ?_) ht
  split
  · exact canonical_trace hu
  · exact hu

theorem canonical_abortCopies {core ctx : Nat} {xs : List CopyCmd} (hs : AllCanonical s) :
    AllCanonical (abortCopies s core ctx xs) := by
  induction xs generalizing s core ctx with
  | nil => exact canonical_onCore hs
  | cons x xs ih =>
    rw [abortCopies]
    split
    · exact ih hs
    · extract_lets _ _ t
      have ht : AllCanonical t := by
        dsimp only [t]
        split
        · exact canonical_trace hs
        · exact hs
      exact ih (canonical_tlDone (canonical_postItem ht))

theorem canonical_failLoads {core : Nat} (hs : AllCanonical s) : AllCanonical (failLoads s core) := by
  unfold failLoads
  exact canonical_foldl (fun _ _ ht => canonical_foldl (fun _ _ hu => canonical_pulseEnd hu) ht) hs

theorem canonical_failCore {ctx reason : Nat} {core : Nat} (hs : AllCanonical s) :
    AllCanonical (failCore ctx reason s core) := by
  unfold failCore
  extract_lets _ t u v w
  have ht : AllCanonical t := canonical_onCtx hs
  have hu : AllCanonical u := canonical_failLoads (canonical_abortCopies ht)
  have hv : AllCanonical v := canonical_foldl (fun _ _ hx => canonical_failNest hx) hu
  have hw : AllCanonical w := canonical_foldl (fun _ _ hx => canonical_reportRegions hx) hv
  exact canonical_vacate (canonical_endStalls hw)

theorem canonical_failSlice {ctx i reason : Nat} (hs : AllCanonical s) :
    AllCanonical (failSlice s ctx i reason) := by
  unfold failSlice
  split
  · exact hs
  · exact canonical_failRecord (canonical_foldl (fun _ _ ht => canonical_failCore ht) hs)

theorem canonical_countBudget {ctx : Nat} (hs : AllCanonical s) : AllCanonical (countBudget s ctx) :=
  canonical_onCtx hs

end Sys2Proof.Slice0

/-! PROOFS. The canonical form of the memories (O54): how an instruction ends, core-store regions, code fetch, exceptions and
the handler, operands, areas and the line an instruction is fetched from. -/

namespace Sys2Proof.Slice0
open Sys2Proof.Machine

variable {s : State}

theorem canonical_onMe {f : Stream → Stream} (hs : AllCanonical s) : AllCanonical (onMe s f) := canonical_onCore hs

theorem canonical_traceWait {st : Stream} (hs : AllCanonical s) : AllCanonical (traceWait s st) :=
  canonical_traceWaitOf hs

theorem canonical_finish {len : Nat} {target : Option Word} (hs : AllCanonical s) :
    AllCanonical (finish s len target) := by
  unfold finish
  extract_lets t u v
  have ht : AllCanonical t := canonical_traceWait hs
  have hu : AllCanonical u := canonical_onCore ht
  have hv : AllCanonical v := canonical_onMe hu
  exact canonical_ite (canonical_streamPulse hv) hv

theorem canonical_holdAs {issued : Bool} {w : Waiting} (hs : AllCanonical s) : AllCanonical (holdAs issued s w) :=
  canonical_onMe (canonical_ite (canonical_traceWait hs) hs)

theorem canonical_hold {w : Waiting} (hs : AllCanonical s) : AllCanonical (hold s w) := canonical_holdAs hs

theorem canonical_onSlots {ctx record core : Nat} {f : Slot → Slot} (hs : AllCanonical s) :
    AllCanonical (onSlots s ctx record core f) :=
  canonical_onCtx hs

theorem canonical_mapRegion {core physical index ctx record : Nat} (hs : AllCanonical s) :
    AllCanonical (mapRegion s core physical index ctx record) :=
  canonical_onCore (hs.withMem (wf_clearRange hs.1 _ _))

theorem canonical_evictRegion {core : Nat} {g : Region} (hs : AllCanonical s) :
    AllCanonical (evictRegion s core g) := by
  unfold evictRegion
  extract_lets t
  have ht : AllCanonical t := by
    dsimp only [t]
    split
    · exact canonical_onSlots (canonical_relocate hs)
    · exact hs
  exact canonical_onCore ht

theorem canonical_setMoving {core index ctx record : Nat} {b : Bool} (hs : AllCanonical s) :
    AllCanonical (setMoving s core index ctx record b) :=
  canonical_onCore hs

theorem found_touchRegion {core index : Nat} (hs : AllCanonical s) :
    Found AllCanonical (touchRegion s core index) := by
  unfold touchRegion
  split
  · exact .none
  extract_lets _ _ saved
  clear_value saved
  split
  · exact .some hs
  · refine .mapAfter fun (p, taken) => ?_
    dsimp -zeta only
    extract_lets t u v w
    have ht : AllCanonical t := by
      dsimp only [t]
      split
      · exact canonical_evictRegion hs
      · exact hs
    have hu : AllCanonical u := canonical_mapRegion ht
    have hv : AllCanonical v := canonical_ite hu (canonical_trace hu)
    have hw : AllCanonical w := by
      dsimp only [w]
      split
      · exact canonical_onSlots (canonical_relocate hv)
      · exact hv
    exact canonical_ite (canonical_setMoving hw) hw

theorem yields_csPiece {core o : Nat} (hs : AllCanonical s) : Yields (AllCanonical ·.2) (csPiece s core o) := by
  unfold csPiece
  split
  · exact .error
  · extract_lets
    split
    · exact .ite .error (.ok hs)
    · split
      · exact .error
      · next t e2 =>
        have ht : AllCanonical t := (found_touchRegion hs).of_eq e2
        split
        · exact .error
        · exact .ite .error (.ok ht)

theorem yields_csPieces {core : Nat} {xs : List (Nat × Nat)} (hs : AllCanonical s) :
    Yields (AllCanonical ·.2) (csPieces s core xs) := by
  induction xs generalizing s core with
  | nil => exact .ok hs
  | cons x xs ih => exact (yields_csPiece hs).bind fun _ hp => (ih hp).bind fun _ hp' => .ok hp'

theorem yields_csSpan {core o n : Nat} {info : Word} (hs : AllCanonical s) :
    Yields (AllCanonical ·.2) (csSpan s core o n info) := by
  unfold csSpan
  exact .ite .error (yields_csPieces hs)

theorem yields_fetchLineAt {core ctx n : Nat} (hs : AllCanonical s) :
    Yields (AllCanonical ·.2) (fetchLineAt s core ctx n) := by
  unfold fetchLineAt
  extract_lets
  split
  · exact .ok hs
  · split
    · next t e' =>
      have ht : AllCanonical t := .snd (canonical_translate hs) e'
      exact .ok (canonical_onCore (canonical_ite (canonical_postCore ht) ht))
    · exact .error

theorem yields_checkStart {core ctx : Nat} {t : Word} (hs : AllCanonical s) :
    Yields AllCanonical (checkStart s core ctx t) := by
  unfold checkStart
  exact .ite .error ((yields_fetchLineAt hs).bind fun _ hp => .ite (.ok hp) .error)

theorem yields_checkTarget {core ctx : Nat} {entry : Bool} {t : Word} (hs : AllCanonical s) :
    Yields AllCanonical (checkTarget s core ctx entry t) := by
  unfold checkTarget
  split
  · exact .error
  · extract_lets x
    have hx : ∀ x', AllCanonical x'.2 → Yields AllCanonical (x x') := by
      intro x' hx'
      dsimp only [x]
      exact .ite (.ok hx') .error
    split
    · next l _ =>
      exact hx (l.2, s) hs
    · exact (yields_fetchLineAt hs).bind fun _ hp => hx _ hp

theorem canonical_haltCore {reason hseq : Nat} {core : Nat} (hs : AllCanonical s) :
    AllCanonical (haltCore reason hseq s core) :=
  canonical_onCore (canonical_trace hs)

theorem canonical_haltOver {ctx : Nat} {cores : List Nat} {core stream reason : Nat} {info : Word} (hs :
    AllCanonical s) :
    AllCanonical (haltOver s ctx cores core stream reason info) :=
  canonical_onCtx (canonical_foldl (fun _ _ ht => canonical_haltCore ht) hs)

theorem canonical_startHalt {ctx core stream reason : Nat} {info : Word} (hs : AllCanonical s) :
    AllCanonical (startHalt s ctx core stream reason info) :=
  canonical_haltOver hs

theorem canonical_recordStop {core stream reason : Nat} {info faultPc : Word} (hs : AllCanonical s) :
    AllCanonical (recordStop s core stream reason info faultPc) :=
  canonical_onCore (canonical_onCore hs)

theorem canonical_raiseDriver {ctx : Nat} (hs : AllCanonical s) : AllCanonical (raiseDriver s ctx) :=
  canonical_raiseIrq hs

theorem canonical_nestHalt {ctx core reason : Nat} {info : Word} (hs : AllCanonical s) :
    AllCanonical (nestHalt s ctx core reason info) := by
  unfold nestHalt
  extract_lets _ t u v
  have ht : AllCanonical t := canonical_onCore hs
  have hu : AllCanonical u := (found_writeVirtual ht).getD (canonical_walkReport ht)
  have hv : AllCanonical v := canonical_onCtx hu
  exact canonical_raiseDriver hv

theorem canonical_takeException {core stream reason : Nat} {info faultPc : Word} (hs : AllCanonical s) :
    AllCanonical (takeException s core stream reason info faultPc) := by
  unfold takeException
  extract_lets _ t
  have ht : AllCanonical t := canonical_recordStop hs
  split
  · exact canonical_nestHalt hs
  · split
    · exact canonical_startHalt ht
    · exact canonical_ite (canonical_ite (canonical_onCtx ht) ht) (canonical_onCtx (canonical_haltCore ht))

theorem canonical_takeTrap {reason : Nat} {info : Option Word} (hs : AllCanonical s) :
    AllCanonical (takeTrap s reason info) := by
  unfold takeTrap
  split <;> exact canonical_takeException hs

theorem canonical_recordFault {core source va kind reason level : Nat} (hs : AllCanonical s) :
    AllCanonical (recordFault s core source va kind reason level) :=
  canonical_onCore hs

theorem canonical_takePage {core stream source va kind reason level : Nat} {pc : Word} (hs : AllCanonical s) :
    AllCanonical (takePage s core stream source va kind reason level pc) :=
  canonical_takeException (canonical_recordFault hs)

theorem canonical_joinGroup {core va kind reason : Nat} (hs : AllCanonical s) :
    AllCanonical (joinGroup s core va kind reason) := by
  unfold joinGroup
  extract_lets
  split
  · exact hs
  · exact canonical_onCtx hs

theorem canonical_askHost {core stream va kind : Nat} (hs : AllCanonical s) :
    AllCanonical (askHost s core stream va kind) :=
  canonical_onCtx hs

theorem canonical_dropHeads (hs : AllCanonical s) : AllCanonical (dropHeads s) :=
  canonical_onMe (canonical_onCore hs)

theorem canonical_keepHeads {kind : Nat} (hs : AllCanonical s) : AllCanonical (keepHeads s kind) :=
  canonical_onMe (canonical_onCore hs)

theorem canonical_missPage {issued : Bool} {va kind : Nat} (hs : AllCanonical s) :
    AllCanonical (missPage issued s va kind) :=
  canonical_holdAs (canonical_joinWalk hs)

theorem canonical_trapAs {issued : Bool} {e : Trap} (hs : AllCanonical s) : AllCanonical (trapAs issued s e) := by
  unfold trapAs
  split
  · exact canonical_takeTrap (canonical_dropHeads hs)
  · exact canonical_takeException ((canonical_dropHeads hs).kept rfl rfl)
  · exact canonical_takePage (canonical_keepHeads (canonical_joinGroup hs))
  · exact canonical_missPage hs
  · exact canonical_holdAs (canonical_askHost hs)
  · exact canonical_holdAs hs
  · exact canonical_holdAs (canonical_onMe hs)
  · exact canonical_holdAs ((found_touchRegion hs).getD hs)

theorem canonical_trapState {e : Trap} (hs : AllCanonical s) : AllCanonical (trapState s e) := canonical_trapAs hs

theorem lands_conclude {len : Nat} {r : Act (State × Option Word)} (hs : AllCanonical s) (hr : Yields
    (AllCanonical ·.1) r) :
    Lands (conclude s len r) := by
  unfold conclude
  split
  · next t _ =>
    have ht : AllCanonical t := hr.of_eq rfl
    exact .ite (.next (canonical_hold hs)) (.next (canonical_finish ht))
  · exact .next (canonical_trapState hs)

theorem lands_concludeNext {len : Nat} {r : Act State} (hs : AllCanonical s) (hr : Yields AllCanonical r) :
    Lands (concludeNext s len r) :=
  lands_conclude hs (hr.map fun _ ht => ht)

theorem lands_holdNext {s t : State} {w : Waiting} (hs : AllCanonical s) (ht : AllCanonical t) :
    Lands (holdNext s t w) :=
  .next (canonical_ite (canonical_hold hs) (canonical_hold ht))

theorem canonical_writeFrames {ctx : Nat} {h : Halt} {cores : List Nat} (hs : AllCanonical s) :
    AllCanonical (writeFrames s ctx h cores).1 := by
  induction cores generalizing s with
  | nil => exact hs
  | cons c cores ih =>
    unfold writeFrames
    split
    · next t e => exact ih ((found_writeVirtual hs).of_eq e)
    · exact ih (canonical_walkReport hs)

theorem canonical_settleShadows {core : Nat} (hs : AllCanonical s) : AllCanonical (settleShadows s core) :=
  canonical_onCore hs

theorem canonical_asStream {core stream : Nat} {f : State → State} (hs : AllCanonical s) (hf :
    ∀ t, AllCanonical t → AllCanonical (f t)) :
    AllCanonical (asStream s core stream f) :=
  (hf _ hs)

theorem canonical_returnLoad {core stream : Nat} {l : Load} (hs : AllCanonical s) :
    AllCanonical (returnLoad s core stream l) := by
  unfold returnLoad
  extract_lets t
  have ht : AllCanonical t := canonical_asStream hs (fun _ hu => canonical_onMe hu)
  split
  · exact canonical_pulseEnd ht
  · exact ht

theorem canonical_resumeCore {hseq : Nat} {core : Nat} (hs : AllCanonical s) :
    AllCanonical (resumeCore hseq s core) :=
  canonical_onCore (canonical_trace hs)

theorem canonical_endHalt {ctx : Nat} (hs : AllCanonical s) : AllCanonical (endHalt s ctx) := by
  unfold endHalt
  split
  · exact hs
  · extract_lets _ _ t u _ v
    have ht : AllCanonical t := canonical_onCtx hs
    have hu : AllCanonical u := canonical_foldl (fun _ _ hw => canonical_onCore hw) ht
    have hv : AllCanonical v := canonical_foldl (fun _ _ hw => canonical_onCore hw) hu
    split
    · exact canonical_foldl (fun _ _ hw => canonical_resumeCore hw) hu
    · exact canonical_haltOver (canonical_onCtx hv)

theorem canonical_failOrigin {ctx : Nat} {h : Halt} {reason : Nat} (hs : AllCanonical s) :
    AllCanonical (failOrigin s ctx h reason) := by
  unfold failOrigin
  split
  · exact canonical_endHalt hs
  · exact canonical_endHalt (canonical_failSlice (canonical_ite (canonical_countBudget hs) hs))

theorem canonical_skipOrigin {ctx : Nat} {h : Halt} (hs : AllCanonical s) : AllCanonical (skipOrigin s ctx h) := by
  unfold skipOrigin
  exact canonical_ite hs (canonical_onCore (canonical_traceWaitOf hs))

theorem canonical_returnFrom {ctx action : Nat} {refused : Bool} (hs : AllCanonical s) :
    AllCanonical (returnFrom s ctx action refused) := by
  unfold returnFrom
  split
  · exact hs
  · extract_lets t
    have ht : AllCanonical t := canonical_onCore hs
    split
    · exact canonical_failOrigin ht
    · split
      · exact canonical_endHalt ht
      · exact canonical_endHalt (canonical_skipOrigin ht)
      · exact canonical_failOrigin ht

theorem canonical_toDriver {ctx : Nat} {lost : Bool} (hs : AllCanonical s) : AllCanonical (toDriver s ctx lost) :=
  canonical_raiseDriver (canonical_onCtx hs)

theorem canonical_startHandler {ctx : Nat} {h : Halt} (hs : AllCanonical s) : AllCanonical (startHandler s ctx h) :=
  canonical_onCore hs

theorem canonical_deliver {ctx : Nat} {h : Halt} {lost : Bool} (hs : AllCanonical s) :
    AllCanonical (deliver s ctx h lost) := by
  unfold deliver
  exact canonical_ite hs (canonical_ite (canonical_failOrigin hs) (canonical_ite (canonical_toDriver hs)
    (canonical_ite (canonical_startHandler hs) (canonical_ite (canonical_failOrigin hs) (canonical_ite
    (canonical_failOrigin hs) (canonical_toDriver hs))))))

theorem canonical_setFlags {f : Flags} (hs : AllCanonical s) : AllCanonical (setFlags s f) := canonical_onMe hs

theorem canonical_setDraw {f : BitVec 3} (hs : AllCanonical s) : AllCanonical (setDraw s f) := canonical_onMe hs

theorem yields_readD {k : Nat} (hs : AllCanonical s) : Yields (AllCanonical ·.2) (readD s k) := by
  unfold readD
  extract_lets
  split
  · exact .ite .error (.ok (canonical_onCore hs))
  · exact .ite .error .error

theorem yields_readReg {r : BitVec 8} (hs : AllCanonical s) : Yields (AllCanonical ·.2) (readReg s r) := by
  unfold readReg
  exact .ite (.mapAfter fun _ => hs) (.ite (.mapAfter fun _ => hs) (.ite (.ok hs) (.ite (yields_readD hs) .error)))

theorem yields_writeReg {r : BitVec 8} {v : Word} (hs : AllCanonical s) : Yields AllCanonical (writeReg s r v) := by
  unfold writeReg
  exact .after fun _ => .ok (canonical_onMe hs)

theorem yields_writeRun {n : Nat} {xs : List Word} (hs : AllCanonical s) :
    Yields AllCanonical (writeRun s n xs) := by
  induction xs generalizing s n with
  | nil => exact .ok hs
  | cons x xs ih => exact (yields_writeReg hs).bind fun _ ht => ih ht

theorem canonical_writePred {r : BitVec 8} {b : Bool} (hs : AllCanonical s) : AllCanonical (writePred s r b) :=
  canonical_onMe hs

theorem canonical_emptyQ {n : Nat} (hs : AllCanonical s) : AllCanonical (emptyQ s n) := canonical_onMe hs

theorem canonical_emptyIf {last : Bool} {r : BitVec 8} (hs : AllCanonical s) : AllCanonical (emptyIf s last r) := by
  unfold emptyIf
  exact canonical_ite (canonical_emptyQ hs) hs

theorem lands_skip {len : Nat} (hs : AllCanonical s) : Lands (skip s len) := .next (canonical_finish hs)

theorem lands_guarded {len : Nat} {body : Act State} (hs : AllCanonical s) (hbody : Yields AllCanonical body) :
    Lands (guarded s len body) := by
  unfold guarded
  exact .ite (lands_concludeNext hs hbody) (lands_skip hs)

theorem lands_qForm {f : QFields} {readB : Bool} {op : Word → Word → Word} (hs : AllCanonical s) :
    Lands (qForm f s readB op) := by
  unfold qForm
  refine lands_concludeNext hs ?_
  refine .after fun a => ?_
  extract_lets t u x
  have ht : AllCanonical t := canonical_ite (canonical_emptyQ hs) hs
  have hu : AllCanonical u := canonical_ite (canonical_emptyQ ht) ht
  have hx : ∀ x', Yields AllCanonical (x x') := by
    intro x'
    dsimp only [x]
    exact yields_writeReg hu
  exact .ite (.after fun _ => hx _) (hx _)

theorem lands_qCompare {f : QFields} {op : Word → Word → Bool} (hs : AllCanonical s) : Lands (qCompare f s op) := by
  unfold qCompare
  refine lands_concludeNext hs ?_
  refine .after fun a => ?_
  refine .after fun a' => ?_
  extract_lets t u
  have ht : AllCanonical t := canonical_ite (canonical_emptyQ hs) hs
  have hu : AllCanonical u := canonical_ite (canonical_emptyQ ht) ht
  exact .ok (canonical_writePred hu)

theorem lands_qPred {f : QFields} {op : Bool → Bool → Bool} (hs : AllCanonical s) : Lands (qPred f s op) :=
  lands_concludeNext hs (.ok (canonical_writePred hs))

theorem yields_readTwo {x : BitVec 8} {b : Second} (hs : AllCanonical s) :
    Yields (AllCanonical ·.2.2) (readTwo s x b) := by
  unfold readTwo
  refine (yields_readReg hs).bind fun p hp => ?_
  split
  split
  · exact (yields_readReg hp).bind fun _ hp' => .ok hp'
  · exact .ok hp

theorem canonical_emptySources {lu : Bool} {x : BitVec 8} {b : Second} (hs : AllCanonical s) :
    AllCanonical (emptySources s lu x b) := by
  unfold emptySources
  extract_lets t
  have ht : AllCanonical t := canonical_emptyIf hs
  split
  · exact canonical_emptyIf ht
  · exact ht

theorem lands_skipSources {len : Nat} {lu : Bool} {x : BitVec 8} {b : Second} (hs : AllCanonical s) :
    Lands (skipSources s len lu x b) := by
  unfold skipSources
  split
  · exact .next (canonical_trapState hs)
  · exact lands_skip (canonical_emptySources hs)

theorem lands_twoForm {len : Nat} {lu : Bool} {x : BitVec 8} {b : Second} {op : Word → Word → State → Act State}
    (hs : AllCanonical s) (hop : ∀ a0 a1 t, AllCanonical t → Yields AllCanonical (op a0 a1 t)) :
    Lands (twoForm s len lu x b op) := by
  unfold twoForm
  exact .ite (lands_concludeNext hs ((yields_readTwo hs).bind fun _ hp => hop _ _ _ (canonical_emptySources hp)))
    (lands_skipSources hs)

theorem lands_gForm {f : GFields} {b : Second} {op : Word → Word → Word} (hs : AllCanonical s) :
    Lands (gForm f s b op) :=
  lands_twoForm hs (fun _ _ _ ht => yields_writeReg ht)

theorem lands_lForm {f : LFields} {op : Word → Word → Word} (hs : AllCanonical s) : Lands (lForm f s op) :=
  lands_twoForm hs (fun _ _ _ ht => yields_writeReg ht)

theorem yields_spanAct {r : Span × State} {kind : Nat} (hr : AllCanonical r.2) :
    Yields (AllCanonical ·.2) (spanAct r kind) := by
  unfold spanAct
  split
  · exact .ok hr
  · exact .error

theorem yields_places {kind : Nat} {ea : Word} {n : Nat} (hs : AllCanonical s) :
    Yields (AllCanonical ·.2) (places s kind ea n) := by
  unfold places
  exact .ite (.ite .error (yields_spanAct (canonical_span hs))) (.ite (yields_csSpan hs) .error)

theorem yields_loadBytes {kind : Nat} {ea : Word} {n : Nat} (hs : AllCanonical s) :
    Yields (AllCanonical ·.2) (loadBytes s kind ea n) := by
  unfold loadBytes
  exact (yields_places hs).bind fun _ hp => .ok (canonical_ite (canonical_postCore hp) hp)

theorem yields_loadUnits {kind : Nat} {ea : Word} {n : Nat} (hs : AllCanonical s) :
    Yields (AllCanonical ·.2) (loadUnits s kind ea n) := by
  unfold loadUnits
  exact (yields_places hs).bind fun _ hp => .ok (canonical_ite (canonical_postCore hp) hp)

theorem yields_storeBytes {kind : Nat} {ea : Word} {bs : List Byte} (hs : AllCanonical s) :
    Yields AllCanonical (storeBytes s kind ea bs) := by
  unfold storeBytes
  exact (yields_places hs).bind fun _ hp => .ok (canonical_writePieces hp)

theorem canonical_cleanCover {cover : List (Nat × Nat)} (hs : AllCanonical s) : AllCanonical (cleanCover s cover) :=
  hs

theorem yields_loadCs {o n : Nat} {info : Word} (hs : AllCanonical s) :
    Yields (AllCanonical ·.2) (loadCs s o n info) := by
  unfold loadCs
  exact (yields_csSpan hs).bind fun _ hp => .ok (canonical_ite (canonical_postCore hp) hp)

theorem yields_storeCs {o : Nat} {bs : List Byte} {info : Word} (hs : AllCanonical s) :
    Yields AllCanonical (storeCs s o bs info) := by
  unfold storeCs
  exact (yields_csSpan hs).bind fun _ hp => .ok (canonical_writePieces hp)

theorem canonical_coverPieces {ps : List (Loc × Nat)} (hs : AllCanonical s) : AllCanonical (coverPieces s ps) := by
  unfold coverPieces
  exact canonical_ite hs (canonical_cleanCover (canonical_onMe hs))

theorem canonical_coverCs {o n : Nat} (hs : AllCanonical s) : AllCanonical (coverCs s o n) := by
  unfold coverCs
  split
  · exact hs
  · split
    · next t e' =>
      have ht : AllCanonical t := (yields_csSpan hs).of_eq e'
      exact canonical_coverPieces ht
    · exact hs

theorem yields_readArea {area : Nat} {i : Int} (hs : AllCanonical s) :
    Yields (AllCanonical ·.2) (readArea s area i) := by
  unfold readArea
  extract_lets x
  have hx : ∀ x', AllCanonical x'.2 → Yields (AllCanonical ·.2) (x x') := by
    intro x' hx'
    dsimp only [x]
    exact .ite .error (.ok hx')
  split
  · next bs _ =>
    exact hx (bs, s) hs
  · exact (yields_loadCs hs).bind fun _ hp => hx _ hp

theorem canonical_openArea {area : Nat} (hs : AllCanonical s) : AllCanonical (openArea s area) := by
  unfold openArea
  split
  · exact canonical_onMe hs
  · exact hs

theorem canonical_openAreas {fields : List (BitVec 24)} (hs : AllCanonical s) : AllCanonical (openAreas s fields) :=
  canonical_foldl (fun _ _ ht => canonical_openArea ht) hs

theorem yields_heldLine (hs : AllCanonical s) : Yields (AllCanonical ·.2) (heldLine s) := by
  unfold heldLine
  extract_lets
  split
  · exact .ite (.ok hs) ((yields_fetchLineAt hs).bind fun _ hp => .ok (canonical_onMe hp))
  · exact (yields_fetchLineAt hs).bind fun _ hp => .ok (canonical_onMe hp)

theorem canonical_fetchInstr (hs : AllCanonical s) : AllCanonical (fetchInstr s).1 := by
  unfold fetchInstr
  split
  · exact hs
  · next t e =>
    have ht : AllCanonical t := (yields_heldLine hs).of_eq e
    extract_lets
    split
    · exact ht
    · split
      · exact canonical_onMe ht
      · split
        · exact canonical_onMe ht
        · split
          · exact ht
          · split <;> exact ht

theorem canonical_countUsed {core : Nat} (hs : AllCanonical s) : AllCanonical (countUsed s core) := by
  unfold countUsed
  split
  · exact hs
  · exact canonical_ite hs (canonical_onCtx hs)

theorem canonical_idleCycle {core : Nat} (hs : AllCanonical s) : AllCanonical (idleCycle s core) :=
  canonical_countUsed (canonical_onCore hs)

theorem canonical_passTime (hs : AllCanonical s) : AllCanonical (passTime s) :=
  canonical_ite hs (canonical_foldl (fun _ _ hv => canonical_idleCycle hv) hs)

theorem canonical_tick {core : Nat} (hs : AllCanonical s) : AllCanonical (tick s core) :=
  canonical_countUsed (canonical_onCore (canonical_passTime hs))

end Sys2Proof.Slice0

/-! PROOFS. The canonical form of the memories (O54): special and control registers, signals, loads and stores, and the engine
instructions. -/

namespace Sys2Proof.Slice0
open Sys2Proof.Machine

variable {s : State}

theorem canonical_writeSpecial {n : Nat} {v : Word} (hs : AllCanonical s) : AllCanonical (writeSpecial s n v) := by
  unfold writeSpecial
  split
  · exact canonical_onMe hs
  · exact canonical_onMe hs
  · exact canonical_onMe hs
  · exact canonical_onCore hs
  · exact canonical_onCore hs
  · exact canonical_onCore hs
  · exact canonical_onCore hs
  · exact canonical_onCore hs
  · exact canonical_onCore hs
  · exact canonical_onCore hs
  · exact canonical_onMe hs
  · exact canonical_onMe hs
  · exact canonical_onMe hs
  · exact hs

theorem lands_execMfs {f : EFields} (hs : AllCanonical s) : Lands (execMfs f s) :=
  lands_guarded hs (yields_writeReg hs)

theorem lands_execMts {f : EFields} (hs : AllCanonical s) : Lands (execMts f s) :=
  lands_guarded hs ((yields_readReg hs).bind fun _ hp => .ok (canonical_writeSpecial hp))

theorem canonical_writeControl {n v : Nat} (hs : AllCanonical s) : AllCanonical (writeControl s n v) :=
  canonical_onCore hs

theorem lands_execMfc {f : EFields} (hs : AllCanonical s) : Lands (execMfc f s) :=
  lands_guarded hs (yields_writeReg hs)

theorem lands_execMtc {f : EFields} (hs : AllCanonical s) : Lands (execMtc f s) := by
  unfold execMtc
  exact lands_guarded hs ((yields_readReg hs).bind fun _ hp => .ite (.ok (canonical_writeControl hp)) .error)

theorem canonical_onSig {key : Nat} {f : Signal → Signal} (hs : AllCanonical s) : AllCanonical (onSig s key f) :=
  canonical_onCore hs

theorem canonical_resolve {ns : List Nat} (hs : AllCanonical s) : AllCanonical (resolve s ns) := by
  unfold resolve
  refine canonical_foldl (fun t x ht => ?_) hs
  split
  · exact canonical_onMe ht
  · exact ht

theorem canonical_freeElem {n : Nat} (hs : AllCanonical s) : AllCanonical (freeElem s n).2 := canonical_drawWord hs

theorem yields_nearElem {g : Signal} {j x : Nat} (hs : AllCanonical s) :
    Yields (AllCanonical ·.2) (nearElem s g j x) := by
  unfold nearElem
  extract_lets
  split
  · exact .ok (canonical_freeElem hs)
  · split
    · exact .ok hs
    · exact (yields_csSpan hs).bind fun _ hp => .ite (.ok (canonical_postCore hp)) (.ok hp)

theorem yields_blockPlaces {g : Signal} {b : Nat} (hs : AllCanonical s) :
    Yields (AllCanonical ·.2) (blockPlaces s g b) := by
  unfold blockPlaces
  split
  · next t _ e _ =>
    have ht : AllCanonical t := (yields_places hs).of_eq e
    exact .ok ht
  · next t e _ =>
    have ht : AllCanonical t := (yields_places hs).of_eq e
    exact .ok ht
  · exact .ok hs
  · exact .error

theorem yields_blockData {g : Signal} {b o n : Nat} (hs : AllCanonical s) :
    Yields (AllCanonical ·.2) (blockData s g b o n) := by
  unfold blockData
  refine (yields_blockPlaces hs).bind fun p hp => ?_
  split
  · exact .ok (canonical_drawBytes hp)
  · exact .ite (.ok hp) (.ite (.ok (canonical_drawBytes hp)) ((yields_places hp).bind fun _ hp' => .ok hp'))

theorem yields_farElem {g : Signal} {j x : Nat} (hs : AllCanonical s) :
    Yields (AllCanonical ·.2) (farElem s g j x) := by
  unfold farElem
  exact .ite ((yields_blockData hs).bind fun _ hp => (yields_blockData hp).bind fun _ hp' => .ok hp')
    ((yields_blockData hs).bind fun _ hp => .ok hp)

theorem yields_sampleElem {n : Nat} {g : Signal} {j : Int} {x : Nat} (hs : AllCanonical s) :
    Yields (AllCanonical ·.2) (sampleElem s n g j x) := by
  unfold sampleElem
  exact .ite (.ok hs) (.ite (.ok (canonical_freeElem hs)) (.ite (.ok hs) (.ite (yields_nearElem hs) (.ite
    (yields_farElem hs) .error))))

theorem yields_reportBlocks {g : Signal} {xs : List Nat} (hs : AllCanonical s) :
    Yields AllCanonical (reportBlocks s g xs) := by
  induction xs generalizing s g with
  | nil => exact .ok hs
  | cons x xs ih =>
    rw [reportBlocks]
    refine (yields_blockPlaces hs).bind fun p hp => ?_
    dsimp -zeta only
    extract_lets reason t
    have ht : AllCanonical t := by
      dsimp only [t]
      clear_value reason
      split
      · exact canonical_ite hp (canonical_onMe (canonical_postCore hp))
      · exact hp
    exact ih ht

theorem yields_openFar {n : Nat} {g : Signal} {js : List Int} (hs : AllCanonical s) :
    Yields AllCanonical (openFar s n g js) := by
  unfold openFar
  split
  · exact .ok hs
  · exact .ite .error (yields_reportBlocks hs)

theorem canonical_coverElem {e : List Byte} {j x : Nat} (hs : AllCanonical s) :
    AllCanonical (coverElem s e j x) := by
  unfold coverElem
  split
  · exact hs
  · split
    · exact canonical_coverPieces hs
    · exact hs

theorem canonical_putElem {key : Nat} {g : Signal} {j x v : Nat} (hs : AllCanonical s) :
    AllCanonical (putElem s key g j x v) :=
  canonical_onSig (canonical_coverElem hs)

theorem canonical_markSample {key j : Nat} (hs : AllCanonical s) : AllCanonical (markSample s key j) :=
  canonical_onSig hs

theorem yields_blockRow {g : Signal} {j : Nat} {xs : List Nat} (hs : AllCanonical s) :
    Yields (AllCanonical ·.2) (blockRow s g j xs) := by
  induction xs generalizing s g j with
  | nil => exact .ok hs
  | cons x xs ih => exact (yields_nearElem hs).bind fun _ hp => (ih hp).bind fun _ hp' => .ok hp'

theorem yields_blockRows {g : Signal} {xs : List Nat} (hs : AllCanonical s) :
    Yields (AllCanonical ·.2) (blockRows s g xs) := by
  induction xs generalizing s g with
  | nil => exact .ok hs
  | cons x xs ih => exact (yields_blockRow hs).bind fun _ hp => (ih hp).bind fun _ hp' => .ok hp'

theorem canonical_kvRewrite {key : Nat} {g : Signal} {j : Nat} {xs : List (Nat × Nat)} (hs : AllCanonical s) :
    AllCanonical (kvRewrite s key g j xs) := by
  induction xs generalizing s key g j with
  | nil => exact hs
  | cons x xs ih => exact ih (canonical_putElem hs)

theorem canonical_kvRewriteAll {key : Nat} {g : Signal} {xs : List (Nat × List Nat)} (hs : AllCanonical s) :
    AllCanonical (kvRewriteAll s key g xs) := by
  induction xs generalizing s key g with
  | nil => exact hs
  | cons x xs ih => exact ih (canonical_kvRewrite hs)

theorem yields_beginSeal {key b : Nat} {g : Signal} (hs : AllCanonical s) :
    Yields AllCanonical (beginSeal s key b g) := by
  unfold beginSeal
  exact (yields_places hs).bind fun _ hp => (yields_blockRows hp).bind fun _ hp' => .ok (canonical_onSig
    (canonical_ite (canonical_kvRewriteAll (canonical_writePieces hp')) (canonical_writePieces hp')))

theorem canonical_writeStamp {key : Nat} (hs : AllCanonical s) : AllCanonical (writeStamp s key) := by
  unfold writeStamp
  split
  · exact ⟨wf_writeBytes hs.1 _ _, hs.2⟩
  · exact hs

theorem canonical_sealDone {core key b : Nat} (hs : AllCanonical s) : AllCanonical (sealDone s core key b) := by
  unfold sealDone
  split
  · exact hs
  · extract_lets _ t
    have ht : AllCanonical t := canonical_onCore hs
    split
    · exact ht
    · exact canonical_writeStamp ht

theorem yields_pinPieces {xs : List (Nat × Nat)} (hs : AllCanonical s) : Yields AllCanonical (pinPieces s xs) := by
  induction xs generalizing s with
  | nil => exact .ok hs
  | cons x xs ih => exact (yields_csPiece hs).bind fun _ hp => ih (canonical_onCore hp)

theorem yields_scribbleHead {g : Signal} (hs : AllCanonical s) : Yields AllCanonical (scribbleHead s g) := by
  unfold scribbleHead
  dsimp -zeta only
  refine (yields_csSpan (canonical_drawBytes hs)).bind fun p hp => ?_
  refine .ok ?_
  split
  · exact canonical_writeAt hp
  · exact hp

theorem yields_writeEntry {g : Signal} {o : Nat} {bs : List Byte} (hs : AllCanonical s) :
    Yields AllCanonical (writeEntry s g o bs) := by
  unfold writeEntry
  refine (yields_csSpan hs).bind fun p hp => ?_
  dsimp -zeta only
  refine .ok ?_
  split
  · exact canonical_writeAt hp
  · exact hp

theorem yields_declare {n : Nat} {im : List Byte} (hs : AllCanonical s) : Yields AllCanonical (declare s n im) := by
  unfold declare
  exact .ite .error ((yields_pinPieces hs).bind fun _ ht => (yields_writeEntry ht).bind fun _ hu =>
    (yields_scribbleHead hu).bind fun _ hv => .ok (canonical_onDesc (canonical_onCore hv)))

theorem yields_entryDeclared {table : Nat} (hs : AllCanonical s) :
    Yields (AllCanonical ·.2) (entryDeclared s table) := by
  unfold entryDeclared
  exact .ite (.ok hs) ((yields_loadCs hs).map fun _ hp => hp)

theorem lands_execSigdef {f : EFields} (hs : AllCanonical s) : Lands (execSigdef f s) := by
  unfold execSigdef
  exact lands_guarded hs (.after fun _ => .ite .error (.ite .error (.ite .error
    ((yields_loadCs hs).bind fun _ hp => (yields_entryDeclared hp).bind fun _ hp' => .ite .error
    (yields_declare hp')))))

theorem lands_execSigdrop {f : EFields} (hs : AllCanonical s) : Lands (execSigdrop f s) := by
  unfold execSigdrop
  exact lands_guarded (canonical_resolve hs) (.after fun _ => .after fun _ => (yields_writeEntry
    (canonical_resolve hs)).bind fun _ hu => .ok (canonical_onDesc (canonical_onCore hu)))

theorem lands_execSigrst {f : EFields} (hs : AllCanonical s) : Lands (execSigrst f s) := by
  unfold execSigrst
  exact lands_guarded (canonical_resolve hs) (.after fun _ => .after fun _ => (yields_writeEntry
    (canonical_resolve hs)).bind fun _ hu => (yields_scribbleHead hu).bind fun _ hv => .ok (canonical_onSig hv))

theorem yields_tickPoint {xs : List (Nat × Signal)} (hs : AllCanonical s) :
    Yields AllCanonical (tickPoint s xs) := by
  induction xs generalizing s with
  | nil => exact .ok hs
  | cons x xs ih => exact (yields_scribbleHead (canonical_onSig hs)).bind fun _ ht => ih ht

theorem yields_sealForRoom {xs : List (Nat × Signal × Nat)} (hs : AllCanonical s) :
    Yields AllCanonical (sealForRoom s xs) := by
  induction xs generalizing s with
  | nil => exact .ok hs
  | cons x xs ih =>
    rw [sealForRoom]
    exact .ite (ih hs) ((yields_beginSeal hs).bind fun _ ht => ih ht)

theorem lands_execTick (hs : AllCanonical s) : Lands (execTick s) := by
  unfold execTick
  split
  · exact lands_skip hs
  · split
    · exact .next (canonical_trapState hs)
    · extract_lets
      split
      · exact .next (canonical_trapState hs)
      · split
        · exact .next (canonical_trapState hs)
        · split
          · exact lands_concludeNext hs ((yields_tickPoint hs).bind fun _ ht => .ok (canonical_onDesc ht))
          · split
            · exact .next (canonical_trapState hs)
            · next t e5 =>
              have ht : AllCanonical t := (yields_sealForRoom hs).of_eq e5
              exact lands_holdNext hs ht

theorem lands_execTapld {f : EFields} (hs : AllCanonical s) : Lands (execTapld f s) := by
  unfold execTapld
  exact lands_guarded (canonical_resolve hs) (.after fun _ => .after fun _ => .after fun _ => .ite (.after fun _ =>
    .ite (.after fun _ => .after fun _ => .after fun _ => (yields_openFar (canonical_resolve hs)).bind fun _ hu =>
    (yields_sampleElem hu).bind fun _ hp => yields_writeReg hp) (.after fun _ => .after fun _ => (yields_openFar
    (canonical_resolve hs)).bind fun _ hu => (yields_sampleElem hu).bind fun _ hp => yields_writeReg hp)) (.ite
    (.after fun _ => .after fun _ => .after fun _ => (yields_openFar (canonical_resolve hs)).bind fun _ hu =>
    (yields_sampleElem hu).bind fun _ hp => yields_writeReg hp) (.after fun _ => .after fun _ => (yields_openFar
    (canonical_resolve hs)).bind fun _ hu => (yields_sampleElem hu).bind fun _ hp => yields_writeReg hp)))

theorem yields_tapStore {f : EFields} {n j : Nat} {g : Signal} (hs : AllCanonical s) :
    Yields AllCanonical (tapStore f s n j g) := by
  unfold tapStore
  exact .after fun _ => .after fun _ => (yields_readReg hs).bind fun _ hp => .ok (canonical_markSample
    (canonical_putElem hp))

theorem lands_execTapst {f : EFields} (hs : AllCanonical s) : Lands (execTapst f s) := by
  unfold execTapst
  exact lands_guarded (canonical_resolve hs) (.after fun _ => .after fun _ => .after fun _ => yields_tapStore
    (canonical_resolve hs))

theorem lands_execTapstTick {f : EFields} (hs : AllCanonical s) : Lands (execTapstTick f s) := by
  unfold execTapstTick
  exact lands_guarded (canonical_resolve hs) (.after fun _ => .after fun _ => .after fun _ => yields_tapStore
    (canonical_resolve hs))

theorem lands_execSighead {f : EFields} (hs : AllCanonical s) : Lands (execSighead f s) :=
  lands_guarded hs (.after fun _ => yields_writeRun hs)

theorem lands_execSigseal {f : EFields} (hs : AllCanonical s) : Lands (execSigseal f s) := by
  unfold execSigseal
  extract_lets _ t
  have ht : AllCanonical t := canonical_resolve hs
  split
  · exact lands_skip hs
  · split
    · exact .next (canonical_trapState ht)
    · split
      · exact .ite (.next (canonical_finish ht)) (.next (canonical_hold ht))
      · split
        · exact .next (canonical_finish ht)
        · split
          · exact .next (canonical_trapState ht)
          · next u e4 =>
            have hu : AllCanonical u := (yields_beginSeal ht).of_eq e4
            exact lands_holdNext ht hu

theorem lands_execSigevict {f : EFields} (hs : AllCanonical s) : Lands (execSigevict f s) := by
  unfold execSigevict
  exact lands_guarded (canonical_resolve hs) (.after fun _ => .after fun _ => .after fun _ => .ite ((yields_places
    (canonical_resolve hs)).bind fun _ hp => .ok (canonical_onSig (canonical_writePieces hp))) (.ok
    (canonical_onSig (canonical_resolve hs))))

theorem lands_execSigpos {f : EFields} (hs : AllCanonical s) : Lands (execSigpos f s) :=
  lands_guarded hs (.after fun _ => .after fun _ => .after fun _ => yields_writeReg hs)

theorem canonical_fetchDesc {core ctx n : Nat} (hs : AllCanonical s) : AllCanonical (fetchDesc s core ctx n) := by
  unfold fetchDesc
  exact canonical_ite hs (canonical_trace (canonical_onDesc (canonical_onCore (canonical_ite
    (canonical_drawWord hs) (canonical_dropDesc (canonical_drawWord (canonical_drawWord hs)))))))

theorem canonical_switchSctx {core ctx n : Nat} (hs : AllCanonical s) : AllCanonical (switchSctx s core ctx n) := by
  unfold switchSctx
  extract_lets t u
  have ht : AllCanonical t := canonical_leaveDesc hs
  have hu : AllCanonical u := canonical_onCore ht
  exact canonical_ite hu (canonical_fetchDesc hu)

theorem lands_execSctx {f : EFields} (hs : AllCanonical s) : Lands (execSctx f s) := by
  unfold execSctx
  exact lands_guarded hs (.after fun _ => .ite .error (.ite .error (.after fun _ => .ok (canonical_switchSctx hs))))

theorem yields_loadNow {f : MFields} {ea : Word} (hs : AllCanonical s) : Yields AllCanonical (loadNow f s ea) := by
  unfold loadNow
  exact (yields_loadBytes hs).bind fun _ hp => yields_writeReg hp

theorem yields_loadLater {f : MFields} {ea : Word} (hs : AllCanonical s) :
    Yields AllCanonical (loadLater f s ea) := by
  unfold loadLater
  refine .after fun _ => (yields_loadBytes hs).bind fun (bs, t) ht => ?_
  dsimp only
  split
  · have hu := canonical_pulseTake (core := t.curCore) (stream := t.curStream) ht
    exact .ok (canonical_onMe (hu.kept rfl rfl))
  · exact .ok (canonical_onMe ht)

theorem lands_execLd {f : MFields} (hs : AllCanonical s) : Lands (execLd f s) := by
  unfold execLd
  exact lands_guarded hs (.after fun _ => (yields_places hs).bind fun _ _ => .ite (yields_loadLater hs)
    (yields_loadNow hs))

theorem yields_storeReg {f : MFields} {ea : Word} (hs : AllCanonical s) :
    Yields AllCanonical (storeReg f s ea) := by
  unfold storeReg
  exact (yields_readReg hs).bind fun _ hp => yields_storeBytes hp

theorem lands_execSt {f : MFields} (hs : AllCanonical s) : Lands (execSt f s) :=
  lands_guarded hs (.after fun _ => yields_storeReg hs)

theorem lands_execLda {f : MFields} (hs : AllCanonical s) : Lands (execLda f s) :=
  lands_guarded hs (.after fun _ => .after fun _ => yields_loadNow hs)

theorem lands_execStl {f : MFields} (hs : AllCanonical s) : Lands (execStl f s) :=
  lands_guarded hs (.after fun _ => .after fun _ => .after fun _ => yields_storeReg hs)

theorem lands_amo {m : Amo} {f : MFields} (hs : AllCanonical s) : Lands (amo m f s) := by
  unfold amo
  refine lands_guarded hs ?_
  extract_lets
  refine .after fun a => ?_
  refine .after fun a' => ?_
  refine .after fun a2 => ?_
  refine .after fun a3 => ?_
  refine .after fun a4 => ?_
  refine (yields_places hs).bind fun p hp => ?_
  split
  split
  · extract_lets u _ v
    have hu : AllCanonical u := canonical_ite (canonical_postCore hp) hp
    have hv : AllCanonical v := by
      dsimp only [v]
      split
      · exact canonical_writePieces hu
      · exact hu
    exact yields_writeReg hv
  · exact .error

theorem lands_execAmoadd {f : MFields} (hs : AllCanonical s) : Lands (execAmoadd f s) := lands_amo hs

theorem lands_execAmoand {f : MFields} (hs : AllCanonical s) : Lands (execAmoand f s) := lands_amo hs

theorem lands_execAmoor {f : MFields} (hs : AllCanonical s) : Lands (execAmoor f s) := lands_amo hs

theorem lands_execAmoxor {f : MFields} (hs : AllCanonical s) : Lands (execAmoxor f s) := lands_amo hs

theorem lands_execAmomin {f : MFields} (hs : AllCanonical s) : Lands (execAmomin f s) := lands_amo hs

theorem lands_execAmomax {f : MFields} (hs : AllCanonical s) : Lands (execAmomax f s) := lands_amo hs

theorem lands_execAmoswp {f : MFields} (hs : AllCanonical s) : Lands (execAmoswp f s) := lands_amo hs

theorem lands_execAmocas {f : MFields} (hs : AllCanonical s) : Lands (execAmocas f s) := lands_amo hs

theorem lands_areaForm {f : EFields} {body : Act State} (hs : AllCanonical s) (hbody : Yields AllCanonical body) :
    Lands (areaForm f s body) := by
  unfold areaForm
  split
  · exact lands_skip hs
  · split
    · exact lands_concludeNext hs hbody
    · exact .next (canonical_trapState (canonical_openArea hs))

theorem lands_execLdp {f : EFields} (hs : AllCanonical s) : Lands (execLdp f s) := by
  unfold execLdp
  exact lands_areaForm hs (.after fun _ => .after fun _ => (yields_readArea hs).bind fun _ hp => .after fun _ =>
    (yields_loadCs hp).bind fun _ hp' => yields_writeReg hp')

theorem lands_execStp {f : EFields} (hs : AllCanonical s) : Lands (execStp f s) := by
  unfold execStp
  exact lands_areaForm hs (.after fun _ => (yields_readArea hs).bind fun _ hp => .after fun _ =>
    (yields_readReg hp).bind fun _ hp' => yields_storeCs hp')

theorem lands_execMark (hs : AllCanonical s) : Lands (execMark s) := lands_guarded hs (.after fun _ => .ok hs)

theorem lands_execFence {_f : EFields} (hs : AllCanonical s) : Lands (execFence _f s) :=
  lands_guarded hs (.after fun _ => .ok hs)

theorem lands_execCflush {f : EFields} (hs : AllCanonical s) : Lands (execCflush f s) :=
  lands_guarded hs (.after fun _ => .ok hs)

theorem lands_execIcinv {f : EFields} (hs : AllCanonical s) : Lands (execIcinv f s) :=
  lands_guarded hs (.after fun _ => .ite (.ok (canonical_onCore hs)) (.ok hs))

theorem lands_execFbar (hs : AllCanonical s) : Lands (execFbar s) := lands_guarded hs (.ok (canonical_onMe hs))

theorem lands_execPrf {f : EFields} (hs : AllCanonical s) : Lands (execPrf f s) :=
  lands_guarded hs (.after fun _ => .ite (.ok (canonical_joinWalk hs)) (.ok hs))

theorem found_queueCopy {core ctx : Nat} {im : List Byte} (hs : AllCanonical s) :
    Found (AllCanonical ·.2) (queueCopy s core ctx im) := by
  unfold queueCopy
  exact .ite .none (.some (canonical_onCore (canonical_tlTake hs)))

theorem found_queueSwap {core ctx : Nat} {im : List Byte} {issuer : Nat} (hs : AllCanonical s) :
    Found (AllCanonical ·.2) (queueSwap s core ctx im issuer) := by
  unfold queueSwap
  exact .ite .none (.some (canonical_onCtx (canonical_tlTake hs)))

theorem found_queueCollective {core ctx : Nat} {im : List Byte} (hs : AllCanonical s) :
    Found (AllCanonical ·.2) (queueCollective s core ctx im) := by
  unfold queueCollective
  exact .ite .none (.some (canonical_onCtx (canonical_tlTake hs)))

theorem found_queueGeyser {core : Nat} {c : GeyCmd} (hs : AllCanonical s) :
    Found (AllCanonical ·.2) (queueGeyser s core c) := by
  unfold queueGeyser
  exact .ite .none (.some (canonical_onTower (canonical_tlTake hs)))

theorem found_queueGrammar {core : Nat} {c : GramCmd} (hs : AllCanonical s) :
    Found AllCanonical (queueGrammar s core c) := by
  unfold queueGrammar
  exact .ite .none (.some (canonical_onTower hs))

theorem found_offer {engine target : Nat} {im : List Byte} (hs : AllCanonical s) :
    Found (AllCanonical ·.2) (offer s engine target im) := by
  unfold offer
  extract_lets
  split
  · exact found_queueCopy hs
  · exact found_queueSwap hs
  · exact found_queueCollective hs
  · exact found_queueGeyser hs
  · exact (found_queueGrammar hs).map fun _ ht => ht

theorem lands_execPush {f : EFields} (hs : AllCanonical s) : Lands (execPush f s) := by
  unfold execPush
  refine lands_guarded hs ?_
  extract_lets
  split
  · exact .error
  · split
    · exact .error
    · refine .after fun a => ?_
      split
      · exact .ok (canonical_writePred hs)
      · next t e2 =>
        have ht : AllCanonical t := (found_offer hs).of_eq e2
        exact .ite .error (yields_writeReg (canonical_writePred ht))

theorem lands_execWait {f : EFields} (hs : AllCanonical s) : Lands (execWait f s) :=
  lands_guarded hs (.after fun _ => .after fun _ => .ite (.ok hs) .error)

theorem lands_execTlread {f : EFields} (hs : AllCanonical s) : Lands (execTlread f s) :=
  lands_guarded hs (.after fun _ => yields_writeReg hs)

theorem yields_checkEntries {xs : List Word} (hs : AllCanonical s) : Yields AllCanonical (checkEntries s xs) := by
  induction xs generalizing s with
  | nil => exact .ok hs
  | cons x xs ih => exact (yields_checkStart hs).bind fun _ ht => ih ht

theorem lands_execFork {f : EFields} (hs : AllCanonical s) : Lands (execFork f s) := by
  unfold execFork
  refine lands_guarded hs ?_
  refine .after fun a => ?_
  extract_lets
  split
  · exact .error
  · refine .after fun a' => ?_
    refine (yields_checkEntries hs).bind fun t ht => ?_
    extract_lets _ u
    have hu : AllCanonical u := canonical_foldl (fun _ _ hv => canonical_onCore hv) ht
    exact .ite (.ok (canonical_onCore hu)) (.ok hu)

theorem lands_execRdv {f : EFields} (hs : AllCanonical s) : Lands (execRdv f s) := by
  unfold execRdv
  exact .ite (lands_guarded hs (.ite (.ok hs) .error)) (.ite (lands_skip hs) (.ite (.next
    (canonical_trapState hs)) (.next (canonical_onCore (canonical_finish hs)))))

theorem lands_execEvset {f : EFields} (hs : AllCanonical s) : Lands (execEvset f s) :=
  lands_guarded hs (.after fun _ => .ok (canonical_onCore hs))

theorem lands_execEvpulse {f : EFields} (hs : AllCanonical s) : Lands (execEvpulse f s) :=
  lands_guarded hs (.after fun _ => .ok (canonical_pulse hs))

theorem lands_execWfe {f : EFields} (hs : AllCanonical s) : Lands (execWfe f s) := by
  unfold execWfe
  refine lands_guarded hs ?_
  split
  · exact .ok (canonical_onCore hs)
  · exact .error

theorem lands_execSbind {f : EFields} (hs : AllCanonical s) : Lands (execSbind f s) := by
  unfold execSbind
  refine lands_guarded hs ?_
  refine .after fun a => ?_
  split
  · exact .error
  · split
    · exact .error
    · next t e' =>
      have ht : AllCanonical t := (found_queueCopy hs).of_eq e'
      exact .ite .error (yields_writeReg ht)

end Sys2Proof.Slice0

/-! PROOFS. The canonical form of the memories (O54): the integer and floating-point instructions, the elements of region
operands, and tiles in memory. -/

namespace Sys2Proof.Slice0
open Sys2Proof.Machine

variable {s : State}

theorem lands_gDivide {f : GFields} {op : Word → Word → Word} (hs : AllCanonical s) : Lands (gDivide f s op) :=
  lands_twoForm hs (fun _ _ _ ht => yields_writeReg (canonical_setFlags ht))

theorem lands_lDivide {f : LFields} {op : Word → Word → Word} (hs : AllCanonical s) : Lands (lDivide f s op) :=
  lands_twoForm hs (fun _ _ _ ht => yields_writeReg (canonical_setFlags ht))

theorem lands_selectBy {len : Nat} {lu : Bool} {dst x : BitVec 8} {b : Second} (hs : AllCanonical s) :
    Lands (selectBy s len lu dst x b) := by
  unfold selectBy
  exact .ite (lands_concludeNext hs (.after fun _ => (yields_readTwo hs).bind fun _ hp => yields_writeReg
    (canonical_emptySources hp))) (lands_skipSources hs)

theorem lands_gCompare {f : GFields} {immForm : Bool} {op : Word → Word → Bool} (hs : AllCanonical s) :
    Lands (gCompare f immForm s op) :=
  lands_twoForm hs (fun _ _ _ ht => .ok (canonical_writePred ht))

theorem lands_execAddQ {f : QFields} (hs : AllCanonical s) : Lands (execAddQ f s) := lands_qForm hs

theorem lands_execSubQ {f : QFields} (hs : AllCanonical s) : Lands (execSubQ f s) := lands_qForm hs

theorem lands_execAndQ {f : QFields} (hs : AllCanonical s) : Lands (execAndQ f s) := lands_qForm hs

theorem lands_execOrQ {f : QFields} (hs : AllCanonical s) : Lands (execOrQ f s) := lands_qForm hs

theorem lands_execXorQ {f : QFields} (hs : AllCanonical s) : Lands (execXorQ f s) := lands_qForm hs

theorem lands_execAndnQ {f : QFields} (hs : AllCanonical s) : Lands (execAndnQ f s) := lands_qForm hs

theorem lands_execShlQ {f : QFields} (hs : AllCanonical s) : Lands (execShlQ f s) := lands_qForm hs

theorem lands_execShrQ {f : QFields} (hs : AllCanonical s) : Lands (execShrQ f s) := lands_qForm hs

theorem lands_execSraQ {f : QFields} (hs : AllCanonical s) : Lands (execSraQ f s) := lands_qForm hs

theorem lands_execMinQ {f : QFields} (hs : AllCanonical s) : Lands (execMinQ f s) := lands_qForm hs

theorem lands_execMaxQ {f : QFields} (hs : AllCanonical s) : Lands (execMaxQ f s) := lands_qForm hs

theorem lands_execMinuQ {f : QFields} (hs : AllCanonical s) : Lands (execMinuQ f s) := lands_qForm hs

theorem lands_execMaxuQ {f : QFields} (hs : AllCanonical s) : Lands (execMaxuQ f s) := lands_qForm hs

theorem lands_execMulQ {f : QFields} (hs : AllCanonical s) : Lands (execMulQ f s) := lands_qForm hs

theorem lands_execMovQ {f : QFields} (hs : AllCanonical s) : Lands (execMovQ f s) := lands_qForm hs

theorem lands_execAddiQ {f : QFields} (hs : AllCanonical s) : Lands (execAddiQ f s) := lands_qForm hs

theorem lands_execAndiQ {f : QFields} (hs : AllCanonical s) : Lands (execAndiQ f s) := lands_qForm hs

theorem lands_execOriQ {f : QFields} (hs : AllCanonical s) : Lands (execOriQ f s) := lands_qForm hs

theorem lands_execXoriQ {f : QFields} (hs : AllCanonical s) : Lands (execXoriQ f s) := lands_qForm hs

theorem lands_execShliQ {f : QFields} (hs : AllCanonical s) : Lands (execShliQ f s) := lands_qForm hs

theorem lands_execShriQ {f : QFields} (hs : AllCanonical s) : Lands (execShriQ f s) := lands_qForm hs

theorem lands_execSraiQ {f : QFields} (hs : AllCanonical s) : Lands (execSraiQ f s) := lands_qForm hs

theorem lands_execCmpeqQ {f : QFields} (hs : AllCanonical s) : Lands (execCmpeqQ f s) := lands_qCompare hs

theorem lands_execCmpneQ {f : QFields} (hs : AllCanonical s) : Lands (execCmpneQ f s) := lands_qCompare hs

theorem lands_execCmpltQ {f : QFields} (hs : AllCanonical s) : Lands (execCmpltQ f s) := lands_qCompare hs

theorem lands_execCmpgeQ {f : QFields} (hs : AllCanonical s) : Lands (execCmpgeQ f s) := lands_qCompare hs

theorem lands_execCmpltuQ {f : QFields} (hs : AllCanonical s) : Lands (execCmpltuQ f s) := lands_qCompare hs

theorem lands_execCmpgeuQ {f : QFields} (hs : AllCanonical s) : Lands (execCmpgeuQ f s) := lands_qCompare hs

theorem lands_execCmpleQ {f : QFields} (hs : AllCanonical s) : Lands (execCmpleQ f s) := lands_qCompare hs

theorem lands_execCmpgtQ {f : QFields} (hs : AllCanonical s) : Lands (execCmpgtQ f s) := lands_qCompare hs

theorem lands_execMovq {f : QFields} (hs : AllCanonical s) : Lands (execMovq f s) :=
  lands_concludeNext hs (.after fun _ => yields_writeReg hs)

theorem lands_execMovg {f : QFields} (hs : AllCanonical s) : Lands (execMovg f s) := by
  unfold execMovg
  exact lands_concludeNext hs (.after fun _ => yields_writeReg (canonical_ite (canonical_emptyQ hs) hs))

theorem lands_execPand {f : QFields} (hs : AllCanonical s) : Lands (execPand f s) := lands_qPred hs

theorem lands_execPor {f : QFields} (hs : AllCanonical s) : Lands (execPor f s) := lands_qPred hs

theorem lands_execPxor {f : QFields} (hs : AllCanonical s) : Lands (execPxor f s) := lands_qPred hs

theorem lands_execPnot {f : QFields} (hs : AllCanonical s) : Lands (execPnot f s) := lands_qPred hs

theorem lands_execLi {f : JFields} (hs : AllCanonical s) : Lands (execLi f s) :=
  lands_concludeNext hs (yields_writeReg hs)

theorem lands_execAddG {f : GFields} (hs : AllCanonical s) : Lands (execAddG f s) := lands_gForm hs

theorem lands_execSubG {f : GFields} (hs : AllCanonical s) : Lands (execSubG f s) := lands_gForm hs

theorem lands_execAndG {f : GFields} (hs : AllCanonical s) : Lands (execAndG f s) := lands_gForm hs

theorem lands_execOrG {f : GFields} (hs : AllCanonical s) : Lands (execOrG f s) := lands_gForm hs

theorem lands_execXorG {f : GFields} (hs : AllCanonical s) : Lands (execXorG f s) := lands_gForm hs

theorem lands_execAndnG {f : GFields} (hs : AllCanonical s) : Lands (execAndnG f s) := lands_gForm hs

theorem lands_execShlG {f : GFields} (hs : AllCanonical s) : Lands (execShlG f s) := lands_gForm hs

theorem lands_execShrG {f : GFields} (hs : AllCanonical s) : Lands (execShrG f s) := lands_gForm hs

theorem lands_execSraG {f : GFields} (hs : AllCanonical s) : Lands (execSraG f s) := lands_gForm hs

theorem lands_execMinG {f : GFields} (hs : AllCanonical s) : Lands (execMinG f s) := lands_gForm hs

theorem lands_execMaxG {f : GFields} (hs : AllCanonical s) : Lands (execMaxG f s) := lands_gForm hs

theorem lands_execMinuG {f : GFields} (hs : AllCanonical s) : Lands (execMinuG f s) := lands_gForm hs

theorem lands_execMaxuG {f : GFields} (hs : AllCanonical s) : Lands (execMaxuG f s) := lands_gForm hs

theorem lands_execMulG {f : GFields} (hs : AllCanonical s) : Lands (execMulG f s) := lands_gForm hs

theorem lands_execMulhG {f : GFields} (hs : AllCanonical s) : Lands (execMulhG f s) := lands_gForm hs

theorem lands_execMulhuG {f : GFields} (hs : AllCanonical s) : Lands (execMulhuG f s) := lands_gForm hs

theorem lands_execRotG {f : GFields} (hs : AllCanonical s) : Lands (execRotG f s) := lands_gForm hs

theorem lands_execSextG {f : GFields} (hs : AllCanonical s) : Lands (execSextG f s) := lands_gForm hs

theorem lands_execZextG {f : GFields} (hs : AllCanonical s) : Lands (execZextG f s) := lands_gForm hs

theorem lands_execMovG {f : GFields} (hs : AllCanonical s) : Lands (execMovG f s) := lands_gForm hs

theorem lands_execDivG {f : GFields} (hs : AllCanonical s) : Lands (execDivG f s) := lands_gDivide hs

theorem lands_execDivuG {f : GFields} (hs : AllCanonical s) : Lands (execDivuG f s) := lands_gDivide hs

theorem lands_execRemG {f : GFields} (hs : AllCanonical s) : Lands (execRemG f s) := lands_gDivide hs

theorem lands_execRemuG {f : GFields} (hs : AllCanonical s) : Lands (execRemuG f s) := lands_gDivide hs

theorem lands_execClzG {f : GFields} (hs : AllCanonical s) : Lands (execClzG f s) := lands_gForm hs

theorem lands_execCtzG {f : GFields} (hs : AllCanonical s) : Lands (execCtzG f s) := lands_gForm hs

theorem lands_execPopcG {f : GFields} (hs : AllCanonical s) : Lands (execPopcG f s) := lands_gForm hs

theorem lands_execBfxG {f : GFields} (hs : AllCanonical s) : Lands (execBfxG f s) := lands_gForm hs

theorem lands_execBfiG {f : GFields} (hs : AllCanonical s) : Lands (execBfiG f s) := lands_gForm hs

theorem lands_execSelG {f : GFields} (hs : AllCanonical s) : Lands (execSelG f s) := lands_selectBy hs

theorem lands_execAddiG {f : GFields} (hs : AllCanonical s) : Lands (execAddiG f s) := lands_gForm hs

theorem lands_execAndiG {f : GFields} (hs : AllCanonical s) : Lands (execAndiG f s) := lands_gForm hs

theorem lands_execOriG {f : GFields} (hs : AllCanonical s) : Lands (execOriG f s) := lands_gForm hs

theorem lands_execXoriG {f : GFields} (hs : AllCanonical s) : Lands (execXoriG f s) := lands_gForm hs

theorem lands_execShliG {f : GFields} (hs : AllCanonical s) : Lands (execShliG f s) := lands_gForm hs

theorem lands_execShriG {f : GFields} (hs : AllCanonical s) : Lands (execShriG f s) := lands_gForm hs

theorem lands_execSraiG {f : GFields} (hs : AllCanonical s) : Lands (execSraiG f s) := lands_gForm hs

theorem lands_execCmpeqG {f : GFields} {immForm : Bool} (hs : AllCanonical s) : Lands (execCmpeqG f immForm s) :=
  lands_gCompare hs

theorem lands_execCmpneG {f : GFields} {immForm : Bool} (hs : AllCanonical s) : Lands (execCmpneG f immForm s) :=
  lands_gCompare hs

theorem lands_execCmpltG {f : GFields} {immForm : Bool} (hs : AllCanonical s) : Lands (execCmpltG f immForm s) :=
  lands_gCompare hs

theorem lands_execCmpgeG {f : GFields} {immForm : Bool} (hs : AllCanonical s) : Lands (execCmpgeG f immForm s) :=
  lands_gCompare hs

theorem lands_execCmpltuG {f : GFields} {immForm : Bool} (hs : AllCanonical s) : Lands (execCmpltuG f immForm s) :=
  lands_gCompare hs

theorem lands_execCmpgeuG {f : GFields} {immForm : Bool} (hs : AllCanonical s) : Lands (execCmpgeuG f immForm s) :=
  lands_gCompare hs

theorem lands_execCmpleG {f : GFields} {immForm : Bool} (hs : AllCanonical s) : Lands (execCmpleG f immForm s) :=
  lands_gCompare hs

theorem lands_execCmpgtG {f : GFields} {immForm : Bool} (hs : AllCanonical s) : Lands (execCmpgtG f immForm s) :=
  lands_gCompare hs

theorem lands_execAddL {f : LFields} (hs : AllCanonical s) : Lands (execAddL f s) := lands_lForm hs

theorem lands_execSubL {f : LFields} (hs : AllCanonical s) : Lands (execSubL f s) := lands_lForm hs

theorem lands_execAndL {f : LFields} (hs : AllCanonical s) : Lands (execAndL f s) := lands_lForm hs

theorem lands_execOrL {f : LFields} (hs : AllCanonical s) : Lands (execOrL f s) := lands_lForm hs

theorem lands_execXorL {f : LFields} (hs : AllCanonical s) : Lands (execXorL f s) := lands_lForm hs

theorem lands_execAndnL {f : LFields} (hs : AllCanonical s) : Lands (execAndnL f s) := lands_lForm hs

theorem lands_execShlL {f : LFields} (hs : AllCanonical s) : Lands (execShlL f s) := lands_lForm hs

theorem lands_execShrL {f : LFields} (hs : AllCanonical s) : Lands (execShrL f s) := lands_lForm hs

theorem lands_execSraL {f : LFields} (hs : AllCanonical s) : Lands (execSraL f s) := lands_lForm hs

theorem lands_execMinL {f : LFields} (hs : AllCanonical s) : Lands (execMinL f s) := lands_lForm hs

theorem lands_execMaxL {f : LFields} (hs : AllCanonical s) : Lands (execMaxL f s) := lands_lForm hs

theorem lands_execMinuL {f : LFields} (hs : AllCanonical s) : Lands (execMinuL f s) := lands_lForm hs

theorem lands_execMaxuL {f : LFields} (hs : AllCanonical s) : Lands (execMaxuL f s) := lands_lForm hs

theorem lands_execMulL {f : LFields} (hs : AllCanonical s) : Lands (execMulL f s) := lands_lForm hs

theorem lands_execMulhL {f : LFields} (hs : AllCanonical s) : Lands (execMulhL f s) := lands_lForm hs

theorem lands_execMulhuL {f : LFields} (hs : AllCanonical s) : Lands (execMulhuL f s) := lands_lForm hs

theorem lands_execRotL {f : LFields} (hs : AllCanonical s) : Lands (execRotL f s) := lands_lForm hs

theorem lands_execSextL {f : LFields} (hs : AllCanonical s) : Lands (execSextL f s) := lands_lForm hs

theorem lands_execZextL {f : LFields} (hs : AllCanonical s) : Lands (execZextL f s) := lands_lForm hs

theorem lands_execDivL {f : LFields} (hs : AllCanonical s) : Lands (execDivL f s) := lands_lDivide hs

theorem lands_execDivuL {f : LFields} (hs : AllCanonical s) : Lands (execDivuL f s) := lands_lDivide hs

theorem lands_execRemL {f : LFields} (hs : AllCanonical s) : Lands (execRemL f s) := lands_lDivide hs

theorem lands_execRemuL {f : LFields} (hs : AllCanonical s) : Lands (execRemuL f s) := lands_lDivide hs

theorem lands_execSelL {f : LFields} (hs : AllCanonical s) : Lands (execSelL f s) := lands_selectBy hs

theorem lands_execLiw {f : LFields} (hs : AllCanonical s) : Lands (execLiw f s) :=
  lands_guarded hs (yields_writeReg hs)

theorem lands_execFli {f : LFields} (hs : AllCanonical s) : Lands (execFli f s) :=
  lands_guarded hs (yields_writeReg hs)

theorem lands_execNop (hs : AllCanonical s) : Lands (execNop s) := lands_concludeNext hs (.ok hs)

theorem yields_writeFloat {dst : BitVec 8} {r : FRes} (hs : AllCanonical s) :
    Yields AllCanonical (writeFloat s dst r) :=
  yields_writeReg (canonical_setFlags hs)

theorem lands_fForm {f : GFields} {op : Fmt → Nat → Nat → Nat → FRes} (hs : AllCanonical s) :
    Lands (fForm f s op) :=
  lands_twoForm hs (fun _ _ _ ht => yields_writeFloat ht)

theorem lands_execFadd {f : GFields} (hs : AllCanonical s) : Lands (execFadd f s) := lands_fForm hs

theorem lands_execFsub {f : GFields} (hs : AllCanonical s) : Lands (execFsub f s) := lands_fForm hs

theorem lands_execFmul {f : GFields} (hs : AllCanonical s) : Lands (execFmul f s) := lands_fForm hs

theorem lands_execFmin {f : GFields} (hs : AllCanonical s) : Lands (execFmin f s) := lands_fForm hs

theorem lands_execFmax {f : GFields} (hs : AllCanonical s) : Lands (execFmax f s) := lands_fForm hs

theorem lands_execFsgn {f : GFields} (hs : AllCanonical s) : Lands (execFsgn f s) := lands_fForm hs

theorem lands_execFma {f : GFields} (hs : AllCanonical s) : Lands (execFma f s) := by
  unfold execFma
  exact .ite (lands_concludeNext hs (.after fun _ => (yields_readTwo hs).bind fun _ hp => yields_writeFloat
    (canonical_emptySources hp))) (lands_skipSources hs)

theorem lands_execFcmp {f : GFields} (hs : AllCanonical s) : Lands (execFcmp f s) :=
  lands_twoForm hs (fun _ _ _ ht => .ok (canonical_writePred (canonical_setFlags ht)))

theorem lands_execFcvt {f : GFields} (hs : AllCanonical s) : Lands (execFcvt f s) :=
  lands_twoForm hs (fun _ _ _ ht => yields_writeReg (canonical_setFlags ht))

theorem canonical_pend {latency : Nat} {dst : BitVec 8} {r : FRes} (hs : AllCanonical s) :
    AllCanonical (pend s latency dst r) :=
  canonical_onMe hs

theorem lands_sfuForm2 {f : GFields} {latency : Nat} {op : Fmt → Nat → Nat → Nat → FRes} (hs : AllCanonical s) :
    Lands (sfuForm2 f s latency op) :=
  lands_twoForm hs (fun _ _ _ ht => .after fun _ => .ok (canonical_pend ht))

theorem lands_execFrcp {f : GFields} (hs : AllCanonical s) : Lands (execFrcp f s) := lands_sfuForm2 hs

theorem lands_execFrsq {f : GFields} (hs : AllCanonical s) : Lands (execFrsq f s) := lands_sfuForm2 hs

theorem lands_execFrcps {f : GFields} (hs : AllCanonical s) : Lands (execFrcps f s) := lands_sfuForm2 hs

theorem lands_execFrsqs {f : GFields} (hs : AllCanonical s) : Lands (execFrsqs f s) := lands_sfuForm2 hs

theorem lands_execFexp2 {f : GFields} (hs : AllCanonical s) : Lands (execFexp2 f s) := lands_sfuForm2 hs

theorem lands_execFlog2 {f : GFields} (hs : AllCanonical s) : Lands (execFlog2 f s) := lands_sfuForm2 hs

theorem yields_openOperand {r : BitVec 24} {index type : Nat} (hs : AllCanonical s) :
    Yields (AllCanonical ·.2) (openOperand s r index type) := by
  unfold openOperand
  extract_lets
  split
  · exact .after fun _ => (yields_readArea hs).bind fun _ hp => .ok hp
  · exact .ite (.ok hs) (.after fun _ => .ok hs)
  · exact .after fun _ => .after fun _ => .ite .error (.ok hs)

theorem yields_checkSource {o : Operand} {n count : Nat} {indexed : Bool} (hs : AllCanonical s) :
    Yields AllCanonical (checkSource s o n count indexed) := by
  unfold checkSource
  split
  · exact .after fun _ => .after fun _ => .ite (.after fun _ => yields_openFar hs) (yields_openFar hs)
  · exact .ok hs

theorem yields_readAtIndex {o : Operand} {x : Int} {back : Nat} (hs : AllCanonical s) :
    Yields (AllCanonical ·.2) (readAtIndex s o x back) := by
  unfold readAtIndex
  split
  · exact .after fun _ => .after fun _ => yields_sampleElem hs
  · exact .after fun _ => (yields_loadCs hs).bind fun _ hp => .ok hp
  · exact .ok hs
  · exact (yields_readD hs).map fun _ hp => hp

theorem yields_readElem {o : Operand} {j : Nat} (hs : AllCanonical s) :
    Yields (AllCanonical ·.2) (readElem s o j) :=
  yields_readAtIndex hs

theorem yields_writeAtIndex {o : Operand} {x : Int} {v : Nat} (hs : AllCanonical s) :
    Yields AllCanonical (writeAtIndex s o x v) := by
  unfold writeAtIndex
  split
  · exact .after fun _ => .after fun _ => .ok (canonical_putElem hs)
  · exact .after fun _ => (yields_storeCs hs).bind fun _ ht => .ok (canonical_coverCs ht)
  · exact .ok hs

theorem yields_writeElem {o : Operand} {j v : Nat} (hs : AllCanonical s) :
    Yields AllCanonical (writeElem s o j v) :=
  yields_writeAtIndex hs

theorem canonical_closeDest {o : Operand} {n : Nat} (hs : AllCanonical s) : AllCanonical (closeDest s o n) := by
  unfold closeDest
  split
  · exact canonical_ite hs (canonical_markSample hs)
  · exact hs

theorem canonical_elements {one : Nat → State → Act State} {n n' : Nat} {x : State} (hone :
    ∀ a0 t, AllCanonical t → Yields AllCanonical (one a0 t)) (hx : AllCanonical x) :
    AllCanonical (elements one n n' x).1 := by
  induction n generalizing n' x with
  | zero => exact hx
  | succ n ih =>
    rw [elements]
    split
    · next t e =>
      have ht : AllCanonical t := (hone _ _ hx).of_eq e
      exact ih ht
    · exact hx

theorem canonical_keepOpened {t s : State} (hs : AllCanonical s) :
    AllCanonical (keepOpened t s) :=
  canonical_onMe hs

theorem canonical_runElements {α : Type} {n : Nat} {start : State → Act (α × State)} {one : α → Nat → State →
    Act State} {close : α → State → Act State} (hs : AllCanonical s) (hstart : ∀ t, AllCanonical t → Yields
    (AllCanonical ·.2) (start t)) (hone : ∀ a0 a1 t, AllCanonical t → Yields AllCanonical (one a0 a1 t)) (hclose :
    ∀ a0 t, AllCanonical t → Yields AllCanonical (close a0 t)) :
    AllCanonical (runElements s n start one close).1 := by
  unfold runElements
  extract_lets
  split
  · exact hs
  · next t e =>
    have ht : AllCanonical t := (hstart _ hs).of_eq e
    split
    · next u _ _ e2 =>
      have hu : AllCanonical u := .fst (canonical_elements (fun _ _ hv => hone _ _ _ hv) ht) e2
      exact canonical_ite_fst (canonical_keepOpened hs) (canonical_onMe hu)
    · next u _ e' =>
      have hu : AllCanonical u := .fst (canonical_elements (fun _ _ hv => hone _ _ _ hv) ht) e'
      split
      · next v e2 =>
        exact (hclose _ _ hu).of_eq e2
      · exact canonical_keepOpened hs

theorem canonical_gather {read : Nat → State → Act (List Word × State)} {n n' : Nat} {x : State} (hread :
    ∀ a0 t, AllCanonical t → Yields (AllCanonical ·.2) (read a0 t)) (hx : AllCanonical x) :
    AllCanonical (gather read n n' x).1 := by
  induction n generalizing n' x with
  | zero => exact hx
  | succ n ih =>
    rw [gather]
    split
    · next t e =>
      have ht : AllCanonical t := (hread _ _ hx).of_eq e
      exact ih (canonical_onMe ht)
    · exact hx

theorem canonical_runGathered {α : Type} {n k : Nat} {start : State → Act (α × State)} {read : α → Nat → State →
    Act (List Word × State)} {running : Option (List Nat → Nat)} {rest : α → List Nat → State → Act State} (hs :
    AllCanonical s) (hstart : ∀ t, AllCanonical t → Yields (AllCanonical ·.2) (start t)) (hread :
    ∀ a0 a1 t, AllCanonical t → Yields (AllCanonical ·.2) (read a0 a1 t)) (hrest : ∀ a0 a1 t, AllCanonical t →
    Yields AllCanonical (rest a0 a1 t)) :
    AllCanonical (runGathered s n k start read running rest).1 := by
  unfold runGathered
  split
  · exact hs
  · next t e =>
    have ht : AllCanonical t := (hstart _ hs).of_eq e
    extract_lets
    split
    · extract_lets
      split
      · exact hs
      · split
        next v _ e4 =>
          have hv : AllCanonical v := .fst (canonical_gather (fun _ _ hw => hread _ _ _ hw) ht) e4
          split <;> exact canonical_onMe hv
    · next u e' =>
      have hu : AllCanonical u := .fst (canonical_gather (fun _ _ hv => hread _ _ _ hv) ht) e'
      split
      · next v e2 =>
        exact (hrest _ _ _ hu).of_eq e2
      · exact hs

theorem lands_regionInstr {fields : List (BitVec 24)} {reads : List (BitVec 24 × Nat)} {run : State → Run} (hs :
    AllCanonical s) (hrun : ∀ t, AllCanonical t → AllCanonical (run t).1) :
    Lands (regionInstr s fields reads run) := by
  unfold regionInstr
  split
  · extract_lets t r r' r2
    have ht : AllCanonical t := canonical_openAreas (canonical_resolve hs)
    have hr : AllCanonical r.1 := hrun _ ht
    have hr' : AllCanonical r'.1 := hr
    have hr2 : AllCanonical r2.1 := canonical_ite_fst (canonical_onMe hr') hr'
    split
    · exact .next (canonical_hold ht)
    · split
      · exact .next (canonical_finish hr2)
      · exact .next (canonical_trapState hr2)
  · exact lands_skip hs

theorem yields_maskFrom {g : Signal} {h lag n n' : Nat} (hs : AllCanonical s) :
    Yields AllCanonical (maskFrom s g h lag n n') := by
  induction n generalizing s g h lag n' with
  | zero => exact .ok hs
  | succ n ih =>
    rw [maskFrom]
    refine (yields_csSpan hs).bind fun p hp => ?_
    dsimp -zeta only
    extract_lets t
    have ht : AllCanonical t := by
      dsimp only [t]
      split
      · exact canonical_writeAt hp
      · exact hp
    exact ih ht

theorem yields_sweepMask {o : Operand} {count : Nat} (hs : AllCanonical s) :
    Yields AllCanonical (sweepMask s o count) := by
  unfold sweepMask
  split
  · exact .after fun _ => .ite ((yields_maskFrom hs).map fun _ ht => canonical_coverCs ht) (.ok hs)
  · exact .ok hs

theorem canonical_reportPoison {granules : List Nat} (hs : AllCanonical s) :
    AllCanonical (reportPoison s granules) :=
  canonical_foldl (fun _ _ ht => canonical_postCore ht) hs

theorem yields_readCell {kind w : Nat} {c : Cell} (hs : AllCanonical s) :
    Yields (AllCanonical ·.2.2) (readCell s kind w c) := by
  unfold readCell
  exact (yields_places hs).bind fun _ hp => .ok hp

theorem yields_writeCell {kind w : Nat} {c : Cell} {v : Nat} (hs : AllCanonical s) :
    Yields AllCanonical (writeCell s kind w c v) := by
  unfold writeCell
  exact (yields_places hs).bind fun _ hp => .ite (.ok (canonical_storePieces hp)) (.ok (canonical_storePieces hp))

theorem canonical_cleanCells {kind w : Nat} {cells : List Cell} (hs : AllCanonical s) :
    AllCanonical (cleanCells s kind w cells) := by
  unfold cleanCells
  exact canonical_ite hs (canonical_cleanCover hs)

theorem yields_readCells {kind w : Nat} {cells : List (Nat × Nat × Option Cell)} (hs : AllCanonical s) :
    Yields (AllCanonical ·.2.2) (readCells s kind w cells) := by
  induction cells generalizing s with
  | nil => exact .ok hs
  | cons x cells ih =>
    obtain ⟨i, j, _ | c⟩ := x
    · exact (ih hs).bind fun _ hp => .ok hp
    · exact (yields_readCell hs).bind fun _ hp => (ih hp).bind fun _ hq => .ok hq

theorem yields_writeEach {kind w t : Nat} {cells : List (Nat × Nat × Option Cell)} (hs : AllCanonical s) :
    Yields AllCanonical (writeEach s kind w t cells) := by
  induction cells generalizing s with
  | nil => exact .ok hs
  | cons x cells ih =>
    obtain ⟨i, j, _ | c⟩ := x
    · exact ih hs
    · exact (yields_writeCell hs).bind fun _ ht => ih ht

theorem yields_writeCells4 {kind w t : Nat} {cells : List (Nat × Nat × Option Cell)} (hs : AllCanonical s) :
    Yields AllCanonical (writeCells4 s kind w t cells) :=
  (yields_writeEach hs).map fun _ hu => canonical_cleanCells hu

theorem canonical_tidInsert {i : Nat} {e : List Byte} (hs : AllCanonical s) : AllCanonical (tidInsert s i e) := by
  unfold tidInsert
  exact canonical_ite (canonical_onCore hs) (canonical_onCore (canonical_drawWord hs))

theorem yields_tidEntry {i : Nat} (hs : AllCanonical s) : Yields (AllCanonical ·.2) (tidEntry s i) := by
  unfold tidEntry
  extract_lets x
  have hx : ∀ x', AllCanonical x'.2 → Yields (AllCanonical ·.2) (x x') := by
    intro x' hx'
    dsimp only [x]
    exact .ite (.ok hx') .error
  split
  · next bs _ =>
    exact hx (bs, s) hs
  · exact (yields_loadBytes hs).bind fun p hp => hx (p.1, tidInsert p.2 i p.1) (canonical_tidInsert hp)

theorem yields_readTable {ty base n : Nat} (hs : AllCanonical s) :
    Yields (AllCanonical ·.2) (readTable s ty base n) := by
  unfold readTable
  exact .ite (yields_loadCs hs) (.ok hs)

theorem canonical_accumulate {p : Product} {zero : Bool} (hs : AllCanonical s) :
    AllCanonical (accumulate s p zero) :=
  canonical_setFlags (canonical_setCore hs)

end Sys2Proof.Slice0

/-! PROOFS. The canonical form of the memories (O54): tiles and products, vector instructions, drains of a nest, the Geyser
and generation instructions. -/

namespace Sys2Proof.Slice0
open Sys2Proof.Machine

variable {s : State}

theorem yields_tensorCells {f : EFields} {shape ty : Nat} (hs : AllCanonical s) :
    Yields (AllCanonical ·.2) (tensorCells s f shape ty) := by
  unfold tensorCells
  exact .after fun _ => .after fun _ => .ite .error ((yields_tidEntry hs).bind fun _ hp => .ite .error (.ok hp))

theorem yields_tileCells {f : EFields} {shape ty : Nat} (hs : AllCanonical s) :
    Yields (AllCanonical ·.2) (tileCells s f shape ty) := by
  unfold tileCells
  exact .ite (yields_tensorCells hs) (.mapAfter fun _ => hs)

theorem canonical_fillSplit {t : Nat} {vs : List (Nat × Nat × Nat)} (hs : AllCanonical s) :
    AllCanonical (fillSplit s t vs) :=
  canonical_foldl (fun _ _ hu => canonical_setFlags (canonical_onCore hu)) hs

theorem yields_readExponents {o n : Nat} (hs : AllCanonical s) :
    Yields (AllCanonical ·.2) (readExponents s o n) := by
  induction n generalizing s o with
  | zero => exact .ok hs
  | succ n ih => exact (yields_loadCs hs).bind fun _ hp => (ih hp).bind fun _ hp' => .ok hp'

theorem canonical_fillSlices {t : Nat} {side : Bool} {es : List Int} {xs : List (Nat × Nat × Nat)} (hs :
    AllCanonical s) :
    AllCanonical (fillSlices s t side es xs) := by
  induction xs generalizing s t side es with
  | nil => exact hs
  | cons x xs ih =>
    rw [fillSlices]
    split
    next u e =>
      have hu : AllCanonical u := .snd (canonical_ite_snd (canonical_drawWord hs) hs) e
      split
      exact ih (canonical_setFlags (canonical_onCore hu))

theorem lands_execTld {f : EFields} (hs : AllCanonical s) : Lands (execTld f s) := by
  unfold execTld
  refine lands_guarded hs ?_
  extract_lets _ ty
  refine .after fun a => ?_
  split
  · exact .error
  · refine .after fun a' => ?_
    refine (yields_tileCells hs).bind fun p hp => ?_
    dsimp -zeta only
    refine (yields_readCells hp).bind fun p' hp' => ?_
    extract_lets u
    have hu : AllCanonical u := canonical_reportPoison hp'
    clear_value ty
    split
    · exact .ok (canonical_onCore (canonical_fillSplit hu))
    · exact .after fun _ => (yields_readExponents hu).bind fun _ hp2 => .ok (canonical_onCore
        (canonical_fillSlices hp2))
    · exact .ok (canonical_onCore hu)

theorem lands_execTst {f : EFields} (hs : AllCanonical s) : Lands (execTst f s) := by
  unfold execTst
  exact lands_guarded hs (.after fun _ => .after fun _ => (yields_tileCells hs).bind fun _ hp =>
    yields_writeCells4 hp)

theorem yields_beginProduct {f : EFields} {zero : Bool} (hs : AllCanonical s) :
    Yields (AllCanonical ·.2) (beginProduct f s zero) := by
  unfold beginProduct
  extract_lets _ _ _ _ opened
  have hopened : ∀ book, Yields (AllCanonical ·.2) (opened book) := by
    intro book
    dsimp -zeta only [opened]
    extract_lets withTable
    have hwith : ∀ c, Yields (AllCanonical ·.2) (withTable c) := by
      intro c
      dsimp only [withTable]
      refine .after fun p => ?_
      split
      · exact .error
      · exact (yields_readTable hs).bind fun _ hp => .ok hp
    exact .ite (.after hwith) (.after hwith)
  exact .after fun _ => .ite (.after hopened) (.after hopened)

theorem canonical_productStep {p : Product} (hs : AllCanonical s) : AllCanonical (productStep s p) := by
  unfold productStep
  extract_lets
  dsimp -zeta only
  extract_lets t
  have ht : AllCanonical t := canonical_setFlags (canonical_setCore hs)
  exact canonical_ite (canonical_onMe (canonical_onCore ht)) (canonical_finish (canonical_onCore ht))

theorem lands_product {f : EFields} {zero : Bool} (hs : AllCanonical s) : Lands (product f s zero) := by
  unfold product
  split
  · exact lands_skip hs
  · split
    · exact .next (canonical_productStep hs)
    · split
      · exact .next (canonical_trapState hs)
      · next t e2 =>
        have ht : AllCanonical t := (yields_beginProduct hs).of_eq e2
        exact .ite (.next (canonical_hold hs)) (.next (canonical_productStep (canonical_onCore (canonical_onMe
          (canonical_traceWait ht)))))

theorem lands_execMma {f : EFields} (hs : AllCanonical s) : Lands (execMma f s) := lands_product hs

theorem lands_execMmaz {f : EFields} (hs : AllCanonical s) : Lands (execMmaz f s) := lands_product hs

theorem lands_execAccz {f : EFields} (hs : AllCanonical s) : Lands (execAccz f s) :=
  lands_guarded hs (.after fun _ => .ite .error (.ok (canonical_onCore hs)))

theorem yields_moveEach {ea : Word} {pitch z : Nat} {elem : State → Nat → Nat → Word → Act (FRes × State)} {xs :
    List (Nat × Nat)} (hs : AllCanonical s) (helem : ∀ t a1 a2 a3, AllCanonical t → Yields (AllCanonical ·.2)
    (elem t a1 a2 a3)) :
    Yields AllCanonical (moveEach s ea pitch z elem xs) := by
  induction xs generalizing s ea pitch z with
  | nil => exact .ok hs
  | cons x xs ih =>
    exact (helem _ _ _ _ hs).bind fun _ hp => (yields_storeBytes (canonical_setFlags hp)).bind fun _ ht => ih ht

theorem yields_moveLanes {ea : Word} {pitch z : Nat} {elem : State → Nat → Nat → Word → Act (FRes × State)}
    {lanes : List (Nat × Nat)} (hs : AllCanonical s) (helem : ∀ t a1 a2 a3, AllCanonical t → Yields
    (AllCanonical ·.2) (elem t a1 a2 a3)) :
    Yields AllCanonical (moveLanes s ea pitch z elem lanes) := by
  unfold moveLanes
  exact (yields_moveEach hs (fun _ _ _ _ ht => helem _ _ _ _ ht)).map fun _ ht => canonical_cleanCells ht

theorem lands_execAccmov {f : EFields} (hs : AllCanonical s) : Lands (execAccmov f s) := by
  unfold execAccmov
  exact lands_guarded hs (.after fun _ => .after fun _ => .after fun _ => .after fun _ => .ite .error (.ite
    (yields_moveLanes hs (fun _ _ _ _ ht => .ok ht)) (.ite .error (.ite (.ite .error (yields_moveLanes hs
    (fun _ _ _ _ ht => (yields_loadBytes ht).bind fun _ hp => .ok hp))) (.ite .error
    ((yields_readExponents hs).bind fun _ hp => (yields_readExponents hp).bind fun _ hp' => yields_moveLanes hp'
    (fun _ _ _ _ ht => (yields_loadBytes ht).bind fun _ hp2 => .ok hp2)))))))

theorem lands_execScld {f : EFields} (hs : AllCanonical s) : Lands (execScld f s) := by
  unfold execScld
  exact lands_guarded hs (.after fun _ => .after fun _ => .after fun _ => .ite (.ok hs) (.ite .error
    ((yields_loadUnits hs).bind fun _ hp => .ok (canonical_onCore hp))))

theorem yields_checkNest {ty : Nat} {r : NestRegs} (hs : AllCanonical s) :
    Yields (AllCanonical ·.2.2) (checkNest s ty r) := by
  unfold checkNest
  extract_lets
  split
  · exact .error
  · split
    · exact .error
    · split
      · exact (yields_tidEntry hs).bind fun _ hp => .ite (.ok hp) .error
      · exact .ite .error (.after fun _ => .ite (.ok hs) .error)
      · exact .ite (.ok hs) .error

theorem lands_execNestgo {f : EFields} (hs : AllCanonical s) : Lands (execNestgo f s) := by
  unfold execNestgo
  extract_lets _ t
  have ht : AllCanonical t := hs
  exact .ite (lands_skip hs) (lands_concludeNext ht (.after fun _ => (yields_checkNest ht).bind fun _ hp => .ite
    (.ok (canonical_onCore (canonical_tlTake hp))) ((yields_writeReg (canonical_tlTake hp)).bind fun _ hu => .ok
    (canonical_onCore hu))))

theorem lands_execTidset {f : EFields} (hs : AllCanonical s) : Lands (execTidset f s) := by
  unfold execTidset
  exact lands_guarded hs (.after fun _ => .after fun _ => (yields_loadBytes hs).bind fun _ hp => .ite .error
    ((yields_storeBytes hp).bind fun _ ht => .ok (canonical_tidInsert ht)))

theorem lands_execTidinv {f : EFields} (hs : AllCanonical s) : Lands (execTidinv f s) :=
  lands_guarded hs (.after fun _ => .after fun _ => .ok (canonical_onCore hs))

theorem yields_shapeCount {set : Bool} {r : BitVec 8} (hs : AllCanonical s) :
    Yields (AllCanonical ·.2) (shapeCount s set r) := by
  unfold shapeCount
  exact .ite ((yields_readReg hs).map fun _ hp => hp) (.ok hs)

theorem lands_execVshape {f : LFields} (hs : AllCanonical s) : Lands (execVshape f s) := by
  unfold execVshape
  exact .ite (lands_concludeNext hs ((yields_shapeCount hs).bind fun _ hp =>
    (yields_shapeCount hp).bind fun _ hp' => .ite .error (.ok (canonical_onCore (canonical_emptySources hp')))))
    (lands_skipSources hs)

theorem yields_openElements {f : VFields} {n aType : Nat} {bType : Option Nat}
    {useOld aIndexed dIndexed : Bool} (hs : AllCanonical s) :
    Yields (AllCanonical ·.2) (openElements s f n aType bType useOld aIndexed dIndexed) := by
  unfold openElements
  refine (yields_openOperand hs).bind fun (a, t) ht => ?_
  dsimp -zeta only
  extract_lets checked
  have hchecked : ∀ x : Option Operand × State, AllCanonical x.2 → Yields (AllCanonical ·.2) (checked x) := by
    intro (b, u) hu
    dsimp -zeta only [checked]
    refine (yields_openOperand hu).bind fun (d, v) hv => .after fun _ => (yields_checkSource hv).bind fun w hw => ?_
    extract_lets closed
    have hclosed : ∀ x, AllCanonical x → Yields (AllCanonical ·.2) (closed x) := fun x hx => .after fun _ => .ok hx
    split
    · exact (yields_checkSource hw).bind fun x hx => hclosed x hx
    · exact hclosed w hw
  split
  · exact ((yields_openOperand ht).map fun _ hp => hp : Yields (AllCanonical ·.2) _).bind fun x hx => hchecked x hx
  · exact hchecked (none, t) ht

theorem lands_elementWise {f : VFields} {aType : Nat} {useB useOld : Bool} {op : Nat → Nat → Nat → FRes} (hs :
    AllCanonical s) :
    Lands (elementWise f s aType useB useOld op) := by
  unfold elementWise
  extract_lets
  refine lands_regionInstr hs (fun t ht => ?_)
  extract_lets
  split
  · exact ht
  · refine canonical_runElements ht (fun _ hu => yields_openElements hu) (fun a0 a1 u hu => ?_) (fun _ _ hu => .ok
      (canonical_closeDest hu))
    refine (yields_readElem hu).bind fun p hp => ?_
    split
    next v =>
      extract_lets x'
      have hx' : ∀ x2, AllCanonical x2.2 → Yields AllCanonical (x' x2) := by
        intro x2 hx2
        dsimp only [x']
        exact .ite ((yields_readElem hx2).bind fun _ hp' => yields_writeElem (canonical_setFlags hp'))
          (yields_writeElem (canonical_setFlags hx2))
      split
      · exact (yields_readElem hp).bind fun _ hp' => hx' _ hp'
      · exact hx' (0, v) hp

theorem lands_arithmetic {f : VFields} {useB useOld : Bool} {onFloat : Fmt → Nat → Nat → Nat → Nat → FRes} {onInt :
    Int → Int → Int → Int} (hs : AllCanonical s) :
    Lands (arithmetic f s useB useOld onFloat onInt) := by
  unfold arithmetic
  exact lands_elementWise hs

theorem lands_execVadd {f : VFields} (hs : AllCanonical s) : Lands (execVadd f s) := lands_arithmetic hs

theorem lands_execVsub {f : VFields} (hs : AllCanonical s) : Lands (execVsub f s) := lands_arithmetic hs

theorem lands_execVmul {f : VFields} (hs : AllCanonical s) : Lands (execVmul f s) := lands_arithmetic hs

theorem lands_execVfma {f : VFields} (hs : AllCanonical s) : Lands (execVfma f s) := lands_arithmetic hs

theorem lands_execVmac {f : VFields} (hs : AllCanonical s) : Lands (execVmac f s) := lands_arithmetic hs

theorem lands_execVmin {f : VFields} (hs : AllCanonical s) : Lands (execVmin f s) := lands_arithmetic hs

theorem lands_execVmax {f : VFields} (hs : AllCanonical s) : Lands (execVmax f s) := lands_arithmetic hs

theorem lands_execVabs {f : VFields} (hs : AllCanonical s) : Lands (execVabs f s) := lands_arithmetic hs

theorem lands_execVneg {f : VFields} (hs : AllCanonical s) : Lands (execVneg f s) := lands_arithmetic hs

theorem lands_bitwise {f : VFields} {op : Nat → Nat → Nat} (hs : AllCanonical s) : Lands (bitwise f s op) :=
  lands_elementWise hs

theorem lands_execVand {f : VFields} (hs : AllCanonical s) : Lands (execVand f s) := lands_bitwise hs

theorem lands_execVor {f : VFields} (hs : AllCanonical s) : Lands (execVor f s) := lands_bitwise hs

theorem lands_execVxor {f : VFields} (hs : AllCanonical s) : Lands (execVxor f s) := lands_bitwise hs

theorem lands_execVshl {f : VFields} (hs : AllCanonical s) : Lands (execVshl f s) := by
  unfold execVshl
  exact lands_elementWise hs

theorem lands_execVshr {f : VFields} (hs : AllCanonical s) : Lands (execVshr f s) := by
  unfold execVshr
  exact lands_elementWise hs

theorem lands_execVsra {f : VFields} (hs : AllCanonical s) : Lands (execVsra f s) := by
  unfold execVsra
  exact lands_elementWise hs

theorem lands_execVcvt {f : VFields} (hs : AllCanonical s) : Lands (execVcvt f s) := by
  unfold execVcvt
  exact lands_elementWise hs

theorem lands_execVsel {f : VFields} (hs : AllCanonical s) : Lands (execVsel f s) := lands_elementWise hs

theorem lands_execVcmp {f : VFields} (hs : AllCanonical s) : Lands (execVcmp f s) := by
  unfold execVcmp
  exact lands_elementWise hs

theorem lands_special {f : VFields} {fn : Nat → FRes} (hs : AllCanonical s) : Lands (special f s fn) := by
  unfold special
  exact lands_elementWise hs

theorem lands_execVrcp {f : VFields} (hs : AllCanonical s) : Lands (execVrcp f s) := lands_special hs

theorem lands_execVrsq {f : VFields} (hs : AllCanonical s) : Lands (execVrsq f s) := lands_special hs

theorem lands_execVexp {f : VFields} (hs : AllCanonical s) : Lands (execVexp f s) := lands_special hs

theorem lands_execVlog {f : VFields} (hs : AllCanonical s) : Lands (execVlog f s) := lands_special hs

theorem lands_execVtanh {f : VFields} (hs : AllCanonical s) : Lands (execVtanh f s) := lands_special hs

theorem yields_openResult {f : VFields} (hs : AllCanonical s) : Yields (AllCanonical ·.2) (openResult s f) := by
  unfold openResult
  exact .ite (.ok hs) ((yields_openOperand hs).bind fun _ hp => .after fun _ => .ok hp)

theorem yields_putResult {t : Nat} {r : Result} {v : Nat} (hs : AllCanonical s) :
    Yields AllCanonical (putResult s t r v) := by
  unfold putResult
  split
  · exact yields_writeReg hs
  · exact (yields_writeElem hs).bind fun _ hu => .ok (canonical_closeDest hu)

theorem lands_reduction {f : VFields} {part : List Nat → Nat} {whole : List Nat → FRes} (hs : AllCanonical s) :
    Lands (reduction f s part whole) := by
  unfold reduction
  exact lands_regionInstr hs (fun _ ht => canonical_runGathered ht (fun _ hu =>
    (yields_openOperand hu).bind fun _ hp => (yields_openResult hp).bind fun _ hp' => .after fun _ =>
    (yields_checkSource hp').bind fun _ hv => .ok hv) (fun _ _ _ hu => (yields_readElem hu).map fun _ hp => hp)
    (fun _ _ _ hu => yields_putResult (canonical_setFlags hu)))

theorem lands_execVsum {f : VFields} (hs : AllCanonical s) : Lands (execVsum f s) := by
  unfold execVsum
  exact lands_reduction hs

theorem lands_execVmaxr {f : VFields} (hs : AllCanonical s) : Lands (execVmaxr f s) := lands_reduction hs

theorem lands_execVpopc {f : VFields} (hs : AllCanonical s) : Lands (execVpopc f s) := by
  unfold execVpopc
  exact lands_regionInstr hs (fun _ ht => canonical_runGathered ht (fun _ hu =>
    (yields_openOperand hu).bind fun _ hp => (yields_checkSource hp).bind fun _ hv => .ok hv) (fun _ _ _ hu =>
    (yields_readElem hu).map fun _ hp => hp) (fun _ _ _ hu => yields_writeReg hu))

theorem canonical_dotPlain {f : VFields} (hs : AllCanonical s) : AllCanonical (dotPlain f s).1 := by
  unfold dotPlain
  exact canonical_runGathered hs (fun _ ht => (yields_openOperand ht).bind fun _ hp =>
    (yields_openOperand hp).bind fun _ hp' => (yields_openResult hp').bind fun _ hp2 => .after fun _ =>
    (yields_checkSource hp2).bind fun _ hu => (yields_checkSource hu).bind fun _ hv => .ok hv) (fun _ _ _ ht =>
    (yields_readElem ht).bind fun _ hp => (yields_readElem hp).bind fun _ hp' => .ok hp') (fun _ _ _ ht =>
    yields_putResult (canonical_setFlags ht))

theorem yields_readRow {o : Operand} {back n n' : Nat} (hs : AllCanonical s) :
    Yields (AllCanonical ·.2) (readRow s o back n n') := by
  induction n generalizing s o back n' with
  | zero => exact .ok hs
  | succ n ih => exact (yields_readAtIndex hs).bind fun _ hp => (ih hp).bind fun _ hp' => .ok hp'

theorem yields_sweepRow {f : VFields} {b d : Operand} {vs : List Nat} {i : Nat} (hs : AllCanonical s) :
    Yields AllCanonical (sweepRow f b d vs i s) := by
  unfold sweepRow
  exact (yields_readRow hs).bind fun _ hp => yields_writeElem (canonical_setFlags hp)

theorem yields_openSweep {f : VFields} {n count : Nat} (hs : AllCanonical s) :
    Yields (AllCanonical ·.2) (openSweep f n count s) := by
  unfold openSweep
  exact .ite (.after fun _ => (yields_openOperand hs).bind fun _ hp => (yields_openOperand hp).bind fun _ hp' =>
    (yields_openOperand hp').bind fun _ hp2 => .after fun _ => (yields_checkSource hp2).bind fun _ ht =>
    (yields_checkSource ht).bind fun _ hu => .after fun _ => .ok hu) ((yields_openOperand hs).bind fun _ hp =>
    (yields_openOperand hp).bind fun _ hp' => (yields_openOperand hp').bind fun _ hp2 => .after fun _ =>
    (yields_checkSource hp2).bind fun _ ht => (yields_checkSource ht).bind fun _ hu => .after fun _ => .ok hu)

theorem canonical_dotSweep {f : VFields} (hs : AllCanonical s) : AllCanonical (dotSweep f s).1 := by
  unfold dotSweep
  extract_lets
  split
  · exact hs
  · next t e =>
    have ht : AllCanonical t := (yields_openSweep hs).of_eq e
    split
    · next u _ e2 =>
      have hu : AllCanonical u := .fst (canonical_gather (fun _ _ hv => (yields_readElem hv).map fun _ hp =>
        hp) ht) e2
      exact canonical_ite (canonical_onMe hu) hs
    · next u e' =>
      have hu : AllCanonical u := .fst (canonical_gather (fun _ _ hv => (yields_readElem hv).map fun _ hp =>
        hp) ht) e'
      split
      · exact hs
      · next v e2 =>
        have hv : AllCanonical v := (.ite (yields_sweepMask hu) (.ok hu) : Yields AllCanonical _).of_eq e2
        split
        · next w _ e3 =>
          have hw : AllCanonical w := .fst (canonical_elements (fun _ _ hy => yields_sweepRow hy) hv) e3
          exact canonical_closeDest hw
        · next w _ _ e4 =>
          have hw : AllCanonical w := .fst (canonical_elements (fun _ _ hy => yields_sweepRow hy) hv) e4
          exact canonical_ite_fst hs (canonical_onMe hw)

theorem lands_execVdot {f : VFields} (hs : AllCanonical s) : Lands (execVdot f s) := by
  unfold execVdot
  exact lands_regionInstr hs (fun _ ht => canonical_ite_fst (canonical_dotSweep ht) (canonical_dotPlain ht))

theorem lands_execVscan {f : VFields} (hs : AllCanonical s) : Lands (execVscan f s) := by
  unfold execVscan
  exact lands_regionInstr hs (fun _ ht => canonical_ite_fst ht (canonical_runElements ht (fun _ hu =>
    yields_openElements hu) (fun _ _ _ hu => (yields_readElem hu).bind fun _ hp => yields_writeElem
    (canonical_setFlags (canonical_onMe hp))) (fun _ _ hu => .ok (canonical_closeDest hu))))

theorem yields_drawParam {o : Operand} {i : Nat} (hs : AllCanonical s) :
    Yields (AllCanonical ·.2) (drawParam s o i) :=
  yields_readAtIndex hs

theorem yields_readParams {o : Operand} (hs : AllCanonical s) : Yields (AllCanonical ·.2) (readParams s o) := by
  unfold readParams
  exact (yields_drawParam hs).bind fun _ hp => (yields_drawParam hp).bind fun _ hp' => .ok hp'

theorem yields_openTriple {f : VFields} (hs : AllCanonical s) : Yields (AllCanonical ·.2) (openTriple s f) := by
  unfold openTriple
  exact .ite (.ok hs) ((yields_openOperand hs).map fun _ hp => hp)

theorem yields_putTriple {r : Result} {d : Drawn} (hs : AllCanonical s) :
    Yields AllCanonical (putTriple s r d) := by
  unfold putTriple
  extract_lets t
  have ht : AllCanonical t := canonical_setDraw (canonical_setFlags hs)
  split
  · exact yields_writeRun ht
  · exact .after fun _ => yields_storeCs ht

theorem lands_execVdraw {f : VFields} (hs : AllCanonical s) : Lands (execVdraw f s) := by
  unfold execVdraw
  exact lands_regionInstr hs (fun _ ht => canonical_runGathered ht (fun _ hu =>
    (yields_openOperand hu).bind fun _ hp => (yields_openOperand hp).bind fun _ hp' =>
    (yields_openTriple hp').bind fun _ hp2 => (yields_readParams hp2).bind fun _ hp3 =>
    (yields_drawParam hp3).bind fun _ hp4 => .ite (.after fun _ => (yields_checkSource hp4).bind fun _ hv =>
    .ok hv) ((yields_checkSource hp4).bind fun _ hv => .ok hv)) (fun _ _ _ hu =>
    (yields_readElem hu).map fun _ hp => hp) (fun _ _ _ hu => yields_putTriple hu))

theorem yields_readTriples {o : Operand} {n n' : Nat} (hs : AllCanonical s) :
    Yields (AllCanonical ·.2) (readTriples s o n n') := by
  induction n generalizing s o n' with
  | zero => exact .ok hs
  | succ n ih => exact .after fun _ => (yields_loadCs hs).bind fun _ hp => (ih hp).bind fun _ hp' => .ok hp'

theorem yields_readUniforms {o : Operand} {n n' : Nat} (hs : AllCanonical s) :
    Yields (AllCanonical ·.2) (readUniforms s o n n') := by
  induction n generalizing s o n' with
  | zero => exact .ok hs
  | succ n ih => exact (yields_drawParam hs).bind fun _ hp => (ih hp).bind fun _ hp' => .ok hp'

theorem lands_execVdrawm {f : VFields} (hs : AllCanonical s) : Lands (execVdrawm f s) := by
  unfold execVdrawm
  exact lands_guarded hs ((yields_openOperand hs).bind fun _ hp => (yields_openOperand hp).bind fun _ hp' =>
    (yields_openTriple hp').bind fun _ hp2 => (yields_readParams hp2).bind fun _ hp3 =>
    (yields_readUniforms hp3).bind fun _ hp4 => .ite .error ((yields_readTriples hp4).bind fun _ hp5 =>
    yields_putTriple hp5))

theorem lands_execVrand {f : VFields} (hs : AllCanonical s) : Lands (execVrand f s) := by
  unfold execVrand
  exact lands_regionInstr hs (fun _ ht => canonical_runElements ht (fun _ hu =>
    (yields_openOperand hu).bind fun _ hp => .after fun _ => .ok (canonical_ite (canonical_onMe hp) hp))
    (fun _ _ _ hu => yields_writeElem hu) (fun _ _ hu => .ok (canonical_onCore (canonical_closeDest hu))))

theorem lands_execVcopy {f : VFields} (hs : AllCanonical s) : Lands (execVcopy f s) := lands_elementWise hs

theorem lands_execVfill {f : VFields} (hs : AllCanonical s) : Lands (execVfill f s) := lands_elementWise hs

theorem lands_indexed {f : VFields} {bType : Nat} {aIndexed dIndexed : Bool} {one : Opened → Nat → Nat → State →
    Act State} (hs : AllCanonical s) (hone : ∀ a0 a1 a2 t, AllCanonical t → Yields AllCanonical (one a0 a1 a2 t)) :
    Lands (indexed f s bType aIndexed dIndexed one) := by
  unfold indexed
  refine lands_regionInstr hs (fun t ht => ?_)
  extract_lets
  split
  · exact ht
  · refine canonical_runElements ht (fun _ hu => yields_openElements hu) (fun a0 a1 u hu => ?_) (fun _ _ hu => .ok
      (canonical_closeDest hu))
    extract_lets x
    have hx : ∀ x', AllCanonical x'.2 → Yields AllCanonical (x x') := by
      intro x' hx'
      dsimp only [x]
      exact hone _ _ _ _ hx'
    split
    · exact (yields_readElem hu).bind fun _ hp => hx _ hp
    · exact hx (0, u) hu

theorem lands_execVgather {f : VFields} (hs : AllCanonical s) : Lands (execVgather f s) := by
  unfold execVgather
  exact lands_indexed hs (fun _ _ _ _ ht => (yields_readElem ht).bind fun _ hp => yields_writeElem hp)

theorem lands_execVscatter {f : VFields} (hs : AllCanonical s) : Lands (execVscatter f s) := by
  unfold execVscatter
  exact lands_indexed hs (fun _ _ _ _ ht => (yields_readElem ht).bind fun _ hp => yields_writeElem hp)

theorem lands_execVperm {f : VFields} (hs : AllCanonical s) : Lands (execVperm f s) := by
  unfold execVperm
  exact lands_indexed hs (fun _ _ _ _ ht => .ite .error (.ite (yields_writeElem ht)
    ((yields_readElem ht).bind fun _ hp => yields_writeElem hp)))

theorem yields_readWords {number : Nat} {d : Area} {e : Int} {n : Nat} (hs : AllCanonical s) :
    Yields (AllCanonical ·.2) (readWords s number d e n) := by
  induction n generalizing s number d e with
  | zero => exact .ok hs
  | succ n ih => exact .after fun _ => (yields_loadCs hs).bind fun _ hp => (ih hp).bind fun _ hp' => .ok hp'

theorem yields_openWindow {f : VFields} (hs : AllCanonical s) : Yields (AllCanonical ·.2.2.2) (openWindow s f) := by
  unfold openWindow
  refine (yields_openOperand hs).bind fun p hp => ?_
  dsimp -zeta only
  refine (yields_openOperand hp).bind fun p' hp' => ?_
  refine (yields_openOperand hp').bind fun p2 hp2 => ?_
  split
  · extract_lets x'
    have hx' : ∀ x2, AllCanonical x2.2 → Yields (AllCanonical ·.2.2.2) (x' x2) := by
      intro x2 hx2
      dsimp only [x']
      split
      · exact .ite .error (.ok (canonical_onMe hx2))
      · exact .error
    split
    · next bs _ =>
      exact hx' (bs, p2.2) hp2
    · exact (yields_readWords hp2).bind fun _ hp3 => hx' _ hp3
  · exact .error

theorem yields_windowElem {w : Window} {x : Operand} {j : Nat} (hs : AllCanonical s) :
    Yields (AllCanonical ·.2) (windowElem w x j s) := by
  unfold windowElem
  exact .ite (yields_readElem hs) (.ok hs)

theorem lands_execVexpand {f : VFields} (hs : AllCanonical s) : Lands (execVexpand f s) := by
  unfold execVexpand
  refine lands_regionInstr hs (fun t ht => ?_)
  split
  · exact ht
  · exact canonical_runElements ht (fun _ hv => (yields_openWindow hv).map fun _ hp => hp) (fun _ _ _ hv =>
      (yields_windowElem hv).bind fun _ hp => yields_writeElem hp) (fun _ _ hv => .ok hv)

theorem yields_firTerms {x b : Operand} {j n n' : Nat} (hs : AllCanonical s) :
    Yields (AllCanonical ·.2) (firTerms s x b j n n') := by
  induction n generalizing s x b j n' with
  | zero => exact .ok hs
  | succ n ih =>
    exact (yields_readElem hs).bind fun _ hp => (yields_readAtIndex hp).bind fun _ hp' =>
      (ih hp').bind fun _ hp2 => .ok hp2

theorem lands_execVfir {f : VFields} (hs : AllCanonical s) : Lands (execVfir f s) := by
  unfold execVfir
  exact lands_regionInstr hs (fun _ ht => canonical_ite_fst ht (canonical_ite_fst ht (canonical_runElements ht
    (fun _ hu => (yields_openOperand hu).bind fun _ hp => (yields_openOperand hp).bind fun _ hp' =>
    (yields_openOperand hp').bind fun _ hp2 => .after fun _ => (yields_checkSource hp2).bind fun _ hv =>
    .after fun _ => .ite ((yields_sweepMask hv).bind fun _ hw => .ok hw) (.ok hv)) (fun _ _ _ hu =>
    (yields_firTerms hu).bind fun _ hp => yields_writeElem (canonical_setFlags hp)) (fun _ _ hu => .ok
    (canonical_closeDest hu)))))

theorem yields_readHeader {r : BitVec 24} {index b : Nat} (hs : AllCanonical s) :
    Yields (AllCanonical ·.2) (readHeader s r index b) := by
  unfold readHeader
  refine (yields_openOperand hs).bind fun p hp => ?_
  split
  split
  · exact .after fun _ => .after fun _ => (yields_loadCs hp).bind fun _ hp' => .ite .error (.ok hp')
  · exact .error

theorem yields_putHeader {c : Stream16} {o v : Nat} (hs : AllCanonical s) :
    Yields AllCanonical (putHeader s c o v) :=
  yields_storeCs hs

theorem yields_appendAll {c : Stream16} {b n : Nat} {xs : List Nat} (hs : AllCanonical s) :
    Yields AllCanonical (appendAll s c b n xs) := by
  induction xs generalizing s c b n with
  | nil => exact .ok hs
  | cons x xs ih => exact (yields_storeCs hs).bind fun _ ht => ih (canonical_coverCs ht)

theorem lands_execCspush {f : VFields} (hs : AllCanonical s) : Lands (execCspush f s) := by
  unfold execCspush
  exact lands_regionInstr hs (fun _ ht => canonical_runGathered ht (fun _ hu =>
    (yields_readHeader hu).bind fun _ hp => (yields_openOperand hp).bind fun _ hp' =>
    (yields_openOperand hp').bind fun _ hp2 => (yields_checkSource hp2).bind fun _ hv =>
    (yields_checkSource hv).bind fun _ hw => .ok hw) (fun _ _ _ hu => (yields_readElem hu).bind fun _ hp =>
    (yields_readElem hp).bind fun _ hp' => .ok hp') (fun _ _ _ hu => .ite .error
    ((yields_appendAll hu).bind fun _ hv => yields_putHeader hv)))

theorem yields_popAll {c : Stream16} {d : Operand} {n : Nat} {xs : List Nat} (hs : AllCanonical s) :
    Yields AllCanonical (popAll s c d n xs) := by
  induction xs generalizing s c d n with
  | nil => exact .ok hs
  | cons x xs ih => exact (yields_loadCs hs).bind fun _ hp => (yields_writeElem hp).bind fun _ ht => ih ht

theorem yields_takeRecords {c : Stream16} {d : Operand} {js : List Nat} (hs : AllCanonical s) :
    Yields AllCanonical (takeRecords s c d js) := by
  unfold takeRecords
  exact (yields_popAll hs).bind fun _ ht => (yields_putHeader (canonical_closeDest ht)).bind fun _ hv =>
    yields_putHeader hv

theorem lands_execCspop {f : VFields} (hs : AllCanonical s) : Lands (execCspop f s) := by
  unfold execCspop
  exact lands_regionInstr hs (fun _ ht => canonical_runGathered ht (fun _ hu =>
    (yields_readHeader hu).bind fun _ hp => (yields_openOperand hp).bind fun _ hp' =>
    (yields_openOperand hp').bind fun _ hp2 => .after fun _ => (yields_checkSource hp2).bind fun _ hv =>
    .after fun _ => .ok hv) (fun _ _ _ hu => (yields_readElem hu).map fun _ hp => hp) (fun _ _ _ hu =>
    yields_takeRecords hu))

theorem lands_execCsroute {f : VFields} (hs : AllCanonical s) : Lands (execCsroute f s) := by
  unfold execCsroute
  exact lands_regionInstr hs (fun _ ht => canonical_runGathered ht (fun _ hu =>
    (yields_readHeader hu).bind fun _ hp => (yields_openOperand hp).bind fun _ hp' => .after fun _ => .ok hp')
    (fun _ _ _ hu => .ok hu) (fun _ _ _ hu => yields_takeRecords hu))

theorem yields_nestLoad {t shape pitch : Nat} {base : Int} {skew col : Bool} (hs : AllCanonical s) :
    Yields AllCanonical (nestLoad s t shape pitch base skew col) := by
  unfold nestLoad
  exact .after fun _ => .ite .error ((yields_readCells hs).bind fun _ hp => .ok (canonical_onCore
    (canonical_reportPoison hp)))

theorem yields_nestStep {n : Nest} (hs : AllCanonical s) : Yields AllCanonical (nestStep s n) := by
  unfold nestStep
  exact (yields_nestLoad hs).bind fun _ ht => (yields_nestLoad ht).bind fun _ hu => .after fun _ =>
    (yields_readTable hu).bind fun _ hp => .ok (canonical_accumulate hp)

theorem yields_loadF32 {o : Nat} (hs : AllCanonical s) : Yields (AllCanonical ·.2) (loadF32 s o) :=
  (yields_loadCs hs).map fun _ hp => hp

theorem yields_biasStage {r : NestRegs} {cg : Nat} {v : FRes} (hs : AllCanonical s) :
    Yields (AllCanonical ·.2) (biasStage s r cg v) := by
  unfold biasStage
  exact .ite (.ok hs) ((yields_loadF32 hs).bind fun _ hp => .ok hp)

theorem yields_maskStage {r : NestRegs} {bit : Nat} (hs : AllCanonical s) :
    Yields (AllCanonical ·.2) (maskStage s r bit) := by
  unfold maskStage
  exact .ite (.ok hs) ((yields_loadCs hs).bind fun _ hp => .ok hp)

theorem yields_stageLane {n : Nest} {acc row j rg cg : Nat} (hs : AllCanonical s) :
    Yields (AllCanonical ·.2.2) (stageLane s n acc row j rg cg) := by
  unfold stageLane
  exact .after fun _ => (yields_biasStage hs).bind fun _ hp => (yields_maskStage hp).bind fun _ hp' => .ok hp'

theorem yields_stageRow {n : Nest} {acc row rg c0 n' n'' : Nat} (hs : AllCanonical s) :
    Yields (AllCanonical ·.2) (stageRow s n acc row rg c0 n' n'') := by
  induction n' generalizing s n acc row rg c0 n'' with
  | zero => exact .ok hs
  | succ n' ih =>
    exact (yields_stageLane hs).bind fun _ hp => (ih (canonical_setFlags hp)).bind fun _ hp' => .ok hp'

theorem yields_putTensor {e : List Byte} {x0 x1 v : Nat} (hs : AllCanonical s) :
    Yields AllCanonical (putTensor s e x0 x1 v) := by
  unfold putTensor
  exact .ite (yields_writeCell hs) (.ok hs)

theorem yields_putTensorEach {e : List Byte} {x1 : Nat} {xs : List (Nat × Nat)} (hs : AllCanonical s) :
    Yields AllCanonical (putTensorEach s e x1 xs) := by
  induction xs generalizing s e x1 with
  | nil => exact .ok hs
  | cons x xs ih => exact (yields_putTensor hs).bind fun _ ht => ih ht

theorem yields_putTensorRow {e : List Byte} {x1 : Nat} {row : List (Nat × Nat)} (hs : AllCanonical s) :
    Yields AllCanonical (putTensorRow s e x1 row) :=
  (yields_putTensorEach hs).map fun _ ht => canonical_cleanCells ht

theorem canonical_putTapRow {key j : Nat} {xs : List (Nat × Nat)} (hs : AllCanonical s) :
    AllCanonical (putTapRow s key j xs) := by
  induction xs generalizing s key j with
  | nil => exact hs
  | cons x xs ih =>
    rw [putTapRow]
    split
    · exact hs
    · exact ih (canonical_ite (canonical_putElem hs) hs)

theorem yields_deliverPass {n : Nest} {rg c0 : Nat} {vs : List Lane} (hs : AllCanonical s) :
    Yields AllCanonical (deliverPass s n rg c0 vs) := by
  unfold deliverPass
  exact .ite (yields_putTensorRow hs) (.after fun _ => .after fun _ => .ok (canonical_markSample
    (canonical_putTapRow hs)))

theorem yields_deliverTop {n : Nest} {rg ct : Nat} {vs : List Lane} (hs : AllCanonical s) :
    Yields (AllCanonical ·.1) (deliverTop s n rg ct vs) := by
  unfold deliverTop
  exact .ite (.ok hs) ((yields_putTensorRow hs).bind fun _ ht => .ok ht)

theorem yields_nestUniform {r : NestRegs} {rg k : Nat} (hs : AllCanonical s) :
    Yields (AllCanonical ·.2) (nestUniform s r rg k) := by
  unfold nestUniform
  exact (yields_loadF32 hs).bind fun _ hp => .ite (.ok hp) .error

theorem yields_nestDraw {n : Nest} {rg ct : Nat} {vs : List Lane} (hs : AllCanonical s) :
    Yields (AllCanonical ·.2) (nestDraw s n rg ct vs) := by
  unfold nestDraw
  extract_lets
  split
  · exact .error
  · refine (yields_nestUniform hs).bind fun p' hp' => ?_
    split
    extract_lets
    split
    · exact .ok hp'
    · exact (yields_nestUniform hp').bind fun _ hp'' => .ok hp''

theorem yields_rowStatus {r : NestRegs} {rg : Nat} (hs : AllCanonical s) :
    Yields (AllCanonical ·.2) (rowStatus s r rg) := by
  unfold rowStatus
  exact .ite (.ok hs) (yields_loadF32 hs)

theorem yields_deliverRow {n : Nest} {rg : Nat} {t : Triple} {status : Nat} (hs : AllCanonical s) :
    Yields (AllCanonical ·.1) (deliverRow s n rg t status) := by
  unfold deliverRow
  exact .ite ((yields_putTensorRow hs).bind fun _ hu => .ok hu) (.ok hs)

theorem yields_deliverDraw {n : Nest} {rg ct : Nat} {vs : List Lane} (hs : AllCanonical s) :
    Yields (AllCanonical ·.1) (deliverDraw s n rg ct vs) := by
  unfold deliverDraw
  refine (yields_rowStatus hs).bind fun (w, t) ht => ?_
  dsimp -zeta only
  extract_lets _ _ _ delivered
  have hdelivered : ∀ x : Triple × State, AllCanonical x.2 → Yields (AllCanonical ·.1) (delivered x) := by
    intro (c, u) hu
    dsimp only [delivered]
    split
    · exact .ok hu
    · exact (yields_deliverRow hu).bind fun _ hp => .ok hp
  split
  · exact hdelivered (noTriple, t) ht
  · refine (.map (yields_nestDraw ht) (fun x hx => ?_) : Yields (AllCanonical ·.2) _).bind fun x hx =>
      hdelivered x hx
    show AllCanonical (setDraw (setFlags x.2 x.1.flags) x.1.draw)
    exact canonical_setDraw (canonical_setFlags hx)

theorem yields_drainRows {n : Nest} {acc d n' n'' : Nat} (hs : AllCanonical s) :
    Yields (AllCanonical ·.1) (drainRows s n acc d n' n'') := by
  induction n' generalizing s n acc d n'' with
  | zero => exact .ok hs
  | succ n' ih =>
    rw [drainRows]
    refine (yields_stageRow hs).bind fun p hp => ?_
    split
    extract_lets x'
    have hx' : ∀ x2, AllCanonical x2.1 → Yields (AllCanonical ·.1) (x' x2) := by
      intro x2 hx2
      dsimp only [x']
      exact ih hx2
    split
    · exact ((yields_deliverPass hp).map fun _ hu => hu : Yields (AllCanonical ·.1) _).bind fun _ hp' => hx' _ hp'
    · exact (yields_deliverTop hp).bind fun _ hp' => hx' _ hp'
    · exact (yields_deliverDraw hp).bind fun _ hp' => hx' _ hp'

theorem canonical_setNest {core engine : Nat} {n : Option Nest} (hs : AllCanonical s) :
    AllCanonical (setNest s core engine n) :=
  canonical_onCore hs

theorem canonical_appendReplies {core : Nat} {xs : List Reply} (hs : AllCanonical s) :
    AllCanonical (appendReplies s core xs).1 := by
  induction xs generalizing s core with
  | nil => exact hs
  | cons x xs ih =>
    rw [appendReplies]
    exact canonical_ite_fst hs (ih (canonical_pulse (canonical_onCore hs)))

theorem yields_iterate {n : Nest} (hs : AllCanonical s) : Yields (AllCanonical ·.1) (iterate s n) := by
  unfold iterate
  exact (yields_nestStep hs).bind fun _ ht => .ite ((yields_drainRows ht).bind fun _ hp => .ok hp) (.ok ht)

theorem canonical_toDrain {n : Nat} {x : State} {x' : Nest} (hx : AllCanonical x) :
    AllCanonical (toDrain n x x').1 := by
  induction n generalizing x x' with
  | zero => exact hx
  | succ n ih =>
    rw [toDrain]
    split
    · exact hx
    · split
      · exact hx
      · next t _ e' =>
        have ht : AllCanonical t := (yields_iterate hx).of_eq e'
        exact canonical_ite_fst ht (ih ht)

theorem canonical_nestTrap {pc : Word} {e : Trap} (hs : AllCanonical s) : AllCanonical (nestTrap s pc e) := by
  unfold nestTrap
  split
  · exact canonical_takeException hs
  · exact canonical_takeException (canonical_drawWord hs)
  · exact canonical_takeException (canonical_drawWord hs)
  · exact canonical_takePage (canonical_joinGroup hs)
  · exact canonical_joinWalk hs
  · exact canonical_askHost hs
  · exact (found_touchRegion hs).getD hs
  · exact hs
  · exact hs

theorem canonical_nestStall {core engine : Nat} {cause : Option Nat} (hs : AllCanonical s) :
    AllCanonical (nestStall s core engine cause) := by
  unfold nestStall
  split
  · exact hs
  · split
    · exact hs
    · extract_lets t
      have ht : AllCanonical t := by
        dsimp only [t]
        split
        · exact canonical_trace hs
        · exact hs
      exact canonical_setNest ht

theorem canonical_nestOwes {core engine : Nat} (hs : AllCanonical s) : AllCanonical (nestOwes s core engine) := by
  unfold nestOwes
  split
  · exact hs
  · exact canonical_nestStall (canonical_setNest (canonical_appendReplies hs))

theorem canonical_nestDrainStep {core engine : Nat} (hs : AllCanonical s) :
    AllCanonical (nestDrainStep s core engine) := by
  unfold nestDrainStep
  split
  · exact hs
  · split
    · exact hs
    · split
      · exact canonical_nestOwes hs
      · refine canonical_asStream hs (fun t ht => ?_)
        dsimp -zeta only
        extract_lets u v
        have hu : AllCanonical u := canonical_setNest (canonical_toDrain ht)
        have hv : AllCanonical v := canonical_ite (canonical_nestStall hu) hu
        split
        · exact canonical_nestStall ht
        · split
          · exact canonical_nestOwes hv
          · exact canonical_nestTrap (canonical_nestStall hv)

theorem canonical_nestCompleteStep {core engine : Nat} (hs : AllCanonical s) :
    AllCanonical (nestCompleteStep s core engine) := by
  unfold nestCompleteStep
  split
  · exact hs
  · exact canonical_ite hs (canonical_ite (canonical_pulse (canonical_tlDone (canonical_setNest hs)))
      (canonical_tlDone (canonical_setNest hs)))

theorem yields_sendGrammar {op : Nat} {notify : Bool} {slot arg : Word} (hs : AllCanonical s) :
    Yields AllCanonical (sendGrammar s op notify slot arg) := by
  unfold sendGrammar
  extract_lets
  split
  · exact .error
  · split
    · exact .error
    · split
      · exact .error
      · next t e2 =>
        have ht : AllCanonical t := (found_queueGrammar hs).of_eq e2
        exact .ok ht

theorem lands_grammarForm {f : EFields} {op : Nat} (hs : AllCanonical s) : Lands (grammarForm f s op) :=
  lands_guarded hs (.after fun _ => .after fun _ => yields_sendGrammar hs)

theorem lands_execGfstep {f : EFields} (hs : AllCanonical s) : Lands (execGfstep f s) := lands_grammarForm hs

theorem lands_execGfstepSet {f : EFields} (hs : AllCanonical s) : Lands (execGfstepSet f s) := lands_grammarForm hs

theorem lands_execGfmask {f : EFields} (hs : AllCanonical s) : Lands (execGfmask f s) := lands_grammarForm hs

theorem canonical_countToken {ctx m : Nat} (hs : AllCanonical s) : AllCanonical (countToken s ctx m) := by
  unfold countToken
  exact canonical_ite (canonical_raiseIrq (canonical_onCtx hs)) (canonical_onCtx hs)

theorem found_postToken {ctx m : Nat} {e : List Byte} (hs : AllCanonical s) :
    Found AllCanonical (postToken s ctx m e) := by
  unfold postToken
  exact (found_writeSpace hs).map fun _ ht => canonical_countToken (canonical_onCtx ht)

theorem lands_execRply {f : EFields} (hs : AllCanonical s) : Lands (execRply f s) := by
  unfold execRply
  extract_lets
  split
  · exact .next (canonical_trapState (canonical_onCtx hs))
  · refine lands_guarded hs ?_
    refine .after fun a => ?_
    split
    split
    · next t e' =>
      have ht : AllCanonical t := (found_postToken hs).of_eq e'
      exact .ok ht
    · exact .error

theorem lands_execRplyTake {f : EFields} (hs : AllCanonical s) : Lands (execRplyTake f s) := by
  unfold execRplyTake
  refine lands_guarded hs ?_
  split
  · exact yields_writeReg hs
  · split
    · exact .ok hs
    · exact yields_writeReg (canonical_onCore hs)

theorem yields_copyEach {e : List Byte} {x1 o n n' : Nat} (hs : AllCanonical s) :
    Yields AllCanonical (copyEach s e x1 o n n') := by
  induction n generalizing s e x1 o n' with
  | zero => exact .ok hs
  | succ n ih =>
    exact (yields_readCell hs).bind fun _ hp => (yields_writeCell (canonical_reportPoison hp)).bind fun _ ht =>
      ih ht

theorem yields_copyRow {e : List Byte} {x1 o n : Nat} (hs : AllCanonical s) :
    Yields AllCanonical (copyRow s e x1 o n) :=
  (yields_copyEach hs).map fun _ ht => canonical_cleanCells ht

theorem yields_fetchRow {id token o : Nat} (hs : AllCanonical s) : Yields AllCanonical (fetchRow s id token o) := by
  unfold fetchRow
  exact (yields_tidEntry hs).bind fun _ hp => .ite .error (.ite .error (yields_copyRow hp))

theorem lands_execEmbld {f : EFields} (hs : AllCanonical s) : Lands (execEmbld f s) := by
  unfold execEmbld
  split
  · exact .next (canonical_trapState (canonical_onCore hs))
  · refine lands_guarded hs ?_
    refine .after fun a => ?_
    refine .after fun a' => ?_
    split
    · exact .error
    · split
      · exact .error
      · exact .ite (yields_writeReg (canonical_onCore hs)) ((yields_fetchRow hs).bind fun _ ht => yields_writeReg
          (canonical_onCore ht))

theorem lands_execVrandk {f : EFields} (hs : AllCanonical s) : Lands (execVrandk f s) :=
  lands_guarded hs (.after fun _ => .after fun _ => .ok (canonical_onCore hs))

theorem yields_sendGeyser {target : Nat} {c : GeyCmd} (hs : AllCanonical s) :
    Yields AllCanonical (sendGeyser s target c) := by
  unfold sendGeyser
  split
  · exact .error
  · next t e =>
    have ht : AllCanonical t := (found_queueGeyser hs).of_eq e
    exact .ok (canonical_hold ht)

theorem lands_geyserForm {send : Act State} (hs : AllCanonical s) (hsend : Yields AllCanonical send) :
    Lands (geyserForm s send) := by
  unfold geyserForm
  split
  · exact .next hs
  · exact .next hs
  · split
    · exact lands_skip hs
    · split
      · next t =>
        have ht : AllCanonical t := hsend.of_eq rfl
        exact .next ht
      · exact .next (canonical_trapState hs)

theorem lands_execEqpush {f : EFields} (hs : AllCanonical s) : Lands (execEqpush f s) :=
  lands_geyserForm hs (.after fun _ => .after fun _ => .ite .error (yields_sendGeyser hs))

theorem lands_addressForm {f : EFields} {op : Nat} (hs : AllCanonical s) : Lands (addressForm f s op) := by
  unfold addressForm
  exact lands_geyserForm hs (.after fun _ => .after fun _ => .ite .error (.after fun _ => yields_sendGeyser hs))

theorem lands_execEqcfg {f : EFields} (hs : AllCanonical s) : Lands (execEqcfg f s) := lands_addressForm hs

theorem lands_execEqpop {f : EFields} (hs : AllCanonical s) : Lands (execEqpop f s) := lands_addressForm hs

theorem lands_execEqfire {f : EFields} (hs : AllCanonical s) : Lands (execEqfire f s) :=
  lands_geyserForm hs (.after fun _ => .after fun _ => yields_sendGeyser hs)

theorem lands_execEqstat {f : EFields} (hs : AllCanonical s) : Lands (execEqstat f s) :=
  lands_geyserForm hs (.after fun _ => .after fun _ => .ok (canonical_hold hs))

theorem canonical_retire {core stream : Nat} {dst : BitVec 8} {v : Word} (hs : AllCanonical s) :
    AllCanonical (retire s core stream dst v) := by
  unfold retire
  extract_lets _ _ t
  have ht : AllCanonical t := canonical_asStream (hs.kept rfl rfl) fun _ hu => canonical_finish (canonical_onMe hu)
  exact ht.kept rfl rfl

theorem canonical_reply {tower : Nat} {c : GeyCmd} {code count : Nat} (hs : AllCanonical s) :
    AllCanonical (reply s tower c code count) := by
  unfold reply
  split
  · exact canonical_ite hs (canonical_ite (canonical_retire hs) (canonical_ite (canonical_retire hs)
      (canonical_ite (canonical_retire hs) (canonical_asStream hs (fun _ ht => canonical_trapState
      (canonical_onMe ht))))))
  · exact canonical_ite (canonical_postItem hs) hs

theorem canonical_powerLost (hs : AllCanonical s) : AllCanonical (powerLost s) :=
  ⟨wf_filter hs.1 _, wf_nil, hs.2.2.1, wf_nil⟩

theorem lands_execPowerInputLost (hs : AllCanonical s) : Lands (execPowerInputLost s) :=
  .next (canonical_powerLost hs)

theorem lands_execPowerInputApplied (hs : AllCanonical s) : Lands (execPowerInputApplied s) :=
  .next (canonical_ite hs (canonical_onModule hs (fun _ => rfl)))

theorem lands_execCoolantOkAsserted (hs : AllCanonical s) : Lands (execCoolantOkAsserted s) :=
  .next (canonical_onModule hs (fun _ => rfl))

theorem lands_execRailSequenceStep {up : Bool} (hs : AllCanonical s) : Lands (execRailSequenceStep up s) := by
  unfold execRailSequenceStep
  exact .next (canonical_ite (canonical_ite (canonical_onModule hs (fun _ => rfl)) hs) (canonical_ite
    (canonical_onModule hs (fun _ => rfl)) hs))

theorem canonical_stopCores (hs : AllCanonical s) : AllCanonical (stopCores s) := hs

theorem lands_execRailFault {row : Nat} (hs : AllCanonical s) : Lands (execRailFault row s) := by
  unfold execRailFault
  exact .next (canonical_ite hs (canonical_stopCores (canonical_logEvent (canonical_onModule hs (fun _ => rfl)))))

theorem lands_execPerstRelease (hs : AllCanonical s) : Lands (execPerstRelease s) :=
  .next (canonical_onModule hs (fun _ => rfl))

end Sys2Proof.Slice0

/-! PROOFS. The canonical form of the memories (O54): the module's events, ports and collectives, queues, registers and the
window. -/

namespace Sys2Proof.Slice0
open Sys2Proof.Machine

variable {s : State}

theorem canonical_restripeAll (hs : AllCanonical s) : AllCanonical (restripeAll s) :=
  canonical_foldl (fun _ _ ht => canonical_restripePort ht) hs

theorem canonical_fillCapacity {t : SelfTest} (hs : AllCanonical s) : AllCanonical (fillCapacity t s) := by
  unfold fillCapacity
  extract_lets u
  have hu : AllCanonical u := canonical_onModule hs (fun _ => rfl)
  exact canonical_ite (canonical_newEpoch hu) hu

theorem lands_execSelfTestDone {t : SelfTest} (hs : AllCanonical s) : Lands (execSelfTestDone t s) := by
  unfold execSelfTestDone
  exact .next (canonical_ite hs (canonical_checkReplace (canonical_restripeAll (canonical_foldl (fun _ _ hu =>
    canonical_onPort hu) (canonical_fillCapacity hs)))))

theorem canonical_setLevel {n : Nat} (hs : AllCanonical s) : AllCanonical (setLevel s n) := by
  unfold setLevel
  exact canonical_ite hs (canonical_restripeAll (canonical_logEvent (canonical_onModule hs (fun _ => rfl))))

theorem lands_execThrottleUp (hs : AllCanonical s) : Lands (execThrottleUp s) :=
  .next (canonical_ite (canonical_setLevel hs) hs)

theorem lands_execThrottleDown (hs : AllCanonical s) : Lands (execThrottleDown s) :=
  .next (canonical_ite (canonical_setLevel hs) hs)

theorem canonical_sensePorts {ts : List (BitVec 16)} (hs : AllCanonical s) : AllCanonical (sensePorts s ts) :=
  canonical_foldl (fun _ _ ht => canonical_onPort ht) hs

theorem lands_execSensorRefresh {r : Readings} (hs : AllCanonical s) : Lands (execSensorRefresh r s) := by
  unfold execSensorRefresh
  extract_lets t
  have ht : AllCanonical t := canonical_onModule hs (fun _ => rfl)
  exact .next (canonical_sensePorts (canonical_onModule ht (fun _ => rfl)))

theorem lands_execHbmSiteHot {site : Nat} (hs : AllCanonical s) : Lands (execHbmSiteHot site s) :=
  .next (canonical_ite (canonical_onModule hs (fun _ => rfl)) hs)

theorem canonical_fenceNow {core : Nat} (hs : AllCanonical s) : AllCanonical (fenceNow s core) := by
  unfold fenceNow
  extract_lets t
  have ht : AllCanonical t := canonical_onModule hs (fun _ => rfl)
  exact canonical_checkReplace (canonical_logEvent (canonical_newEpoch ht))

theorem lands_execCoreFence {core : Nat} (hs : AllCanonical s) : Lands (execCoreFence core s) := by
  unfold execCoreFence
  exact .next (canonical_ite hs (canonical_ite (canonical_onModule hs (fun _ => rfl)) (canonical_fenceNow hs)))

theorem lands_execSramRowSparing {core bank : Nat} (hs : AllCanonical s) :
    Lands (execSramRowSparing core bank s) := by
  unfold execSramRowSparing
  refine .next ?_
  extract_lets _ t
  have ht : AllCanonical t := canonical_onModule hs (fun _ => rfl)
  exact canonical_ite hs (canonical_checkReplace (canonical_ite ht (canonical_newEpoch ht)))

theorem lands_request {f : State → State} (hs : AllCanonical s) (hf : ∀ t, AllCanonical t → AllCanonical (f t)) :
    Lands (request s f) :=
  .next (canonical_ite hs (canonical_ite (canonical_onModule hs (fun _ => rfl)) (hf _ hs)))

theorem canonical_answer {status : Nat} {data : List Byte} (hs : AllCanonical s) :
    AllCanonical (answer s status data) :=
  canonical_onModule hs (fun _ => rfl)

theorem lands_execReadSensors (hs : AllCanonical s) : Lands (execReadSensors s) :=
  lands_request hs (fun _ ht => canonical_answer ht)

theorem lands_execReadModstat (hs : AllCanonical s) : Lands (execReadModstat s) :=
  lands_request hs (fun _ ht => canonical_answer ht)

theorem lands_execReadCapacity (hs : AllCanonical s) : Lands (execReadCapacity s) :=
  lands_request hs (fun _ ht => canonical_answer ht)

theorem lands_execSetPowerLimit {args : List (BitVec 8)} (hs : AllCanonical s) :
    Lands (execSetPowerLimit args s) := by
  unfold execSetPowerLimit
  exact lands_request hs (fun _ ht => canonical_ite (canonical_answer (canonical_onModule (canonical_onModule ht
    (fun _ => rfl)) (fun _ => rfl))) (canonical_answer ht))

theorem lands_execMailboxUnknownCommand {code : BitVec 8} (hs : AllCanonical s) :
    Lands (execMailboxUnknownCommand code s) := by
  unfold execMailboxUnknownCommand
  exact .ite (.next hs) (lands_request hs (fun _ ht => canonical_answer ht))

theorem lands_execMailboxResponseRead (hs : AllCanonical s) : Lands (execMailboxResponseRead s) := by
  unfold execMailboxResponseRead
  refine .next (canonical_ite hs (canonical_onModule hs fun m => ?_))
  split
  · rfl
  · split <;> rfl

theorem lands_execEventLog (hs : AllCanonical s) : Lands (execEventLog s) := by
  unfold execEventLog
  refine lands_request hs (fun t ht => ?_)
  extract_lets
  split
  next u e =>
    have hu : AllCanonical u := .snd (canonical_ite_snd ht (canonical_drawWord ht)) e
    exact canonical_answer (canonical_onModule hu (fun _ => rfl))

theorem canonical_stage {o : Nat} {bs : List Byte} (hs : AllCanonical s) : AllCanonical (stage s o bs) :=
  ⟨hs.1, wf_writeBytes hs.2.1 _ _, hs.2.2⟩

theorem canonical_startFlash {len : Nat} {window : Bool} (hs : AllCanonical s) :
    AllCanonical (startFlash s len window) :=
  ⟨hs.1, hs.2.1, wf_writeBytes wf_nil _ _, hs.2.2.2⟩

theorem lands_execFwStage {args : List (BitVec 8)} (hs : AllCanonical s) : Lands (execFwStage args s) := by
  unfold execFwStage
  exact lands_request hs (fun _ ht => canonical_ite (canonical_answer ht) (canonical_answer (canonical_stage ht)))

theorem lands_execFwActivate {args : List (BitVec 8)} (hs : AllCanonical s) : Lands (execFwActivate args s) := by
  unfold execFwActivate
  exact lands_request hs (fun _ ht => canonical_ite (canonical_startFlash ht) (canonical_answer ht))

theorem lands_execFlashWriteDone (hs : AllCanonical s) : Lands (execFlashWriteDone s) := by
  unfold execFlashWriteDone
  refine .next ?_
  split
  · exact hs
  · extract_lets t
    have ht : AllCanonical t := canonical_logEvent (canonical_onModule hs (fun _ => rfl))
    exact canonical_ite (canonical_onModule ht (fun _ => rfl)) (canonical_answer ht)

theorem lands_execBootRomCheck (hs : AllCanonical s) : Lands (execBootRomCheck s) := by
  unfold execBootRomCheck
  refine .next ?_
  extract_lets _ t
  have ht : AllCanonical t := canonical_onModule hs (fun _ => rfl)
  exact canonical_ite hs (canonical_ite ht (canonical_logEvent (canonical_onModule ht (fun _ => rfl))))

theorem canonical_onWindow {f : Recovery → Recovery} (hs : AllCanonical s) (hf : ∀ w, (f w).data = w.data) :
    AllCanonical (onWindow s f) :=
  canonical_onModule hs fun m => by rw [memories, hf, memories]

theorem canonical_windowFail {code : Nat} (hs : AllCanonical s) : AllCanonical (windowFail s code) :=
  canonical_onWindow hs (fun _ => rfl)

theorem lands_execRecoveryStage (hs : AllCanonical s) : Lands (execRecoveryStage s) := by
  unfold execRecoveryStage
  exact .next (canonical_ite hs (canonical_ite (canonical_windowFail hs) (canonical_onWindow (canonical_stage hs)
    (fun _ => rfl))))

theorem lands_execRecoveryStageDone (hs : AllCanonical s) : Lands (execRecoveryStageDone s) :=
  .next (canonical_ite (canonical_onWindow hs (fun _ => rfl)) hs)

theorem lands_execRecoveryCommit (hs : AllCanonical s) : Lands (execRecoveryCommit s) := by
  unfold execRecoveryCommit
  exact .next (canonical_ite hs (canonical_ite (canonical_startFlash (canonical_onWindow hs (fun _ => rfl)))
    (canonical_windowFail hs)))

theorem canonical_writeWindow {off : Nat} {v : BitVec 64} (hs : AllCanonical s) :
    AllCanonical (writeWindow s off v) := by
  unfold writeWindow
  split
  · exact hs
  · split
    · exact canonical_onWindow hs fun _ => rfl
    · exact canonical_onWindow hs fun _ => rfl
    · exact canonical_onWindow hs fun _ => rfl
    · split
      · exact ⟨hs.1, hs.2.1, hs.2.2.1, wf_writeBytes hs.2.2.2 _ _⟩
      · exact hs

theorem lands_portEvent {i : Nat} {f : State → State} (hs : AllCanonical s) (hf : ∀ t, AllCanonical t →
    AllCanonical (f t)) :
    Lands (portEvent s i f) :=
  .next (canonical_ite (canonical_onPort (hf _ hs)) hs)

theorem lands_execHtrWrite {port ring : Nat} {value : BitVec 32} (hs : AllCanonical s) :
    Lands (execHtrWrite port ring value s) :=
  lands_portEvent hs (fun _ ht => canonical_ite (canonical_portWrite ht) ht)

theorem lands_execLmapWrite {port : Nat} {rx : Bool} {value : BitVec 32} (hs : AllCanonical s) :
    Lands (execLmapWrite port rx value s) :=
  lands_portEvent hs (fun _ ht => canonical_portWrite ht)

theorem lands_execParkWrite {port : Nat} {value : BitVec 32} (hs : AllCanonical s) :
    Lands (execParkWrite port value s) :=
  lands_portEvent hs (fun _ ht => canonical_portWrite ht)

theorem lands_execPctlWrite {port : Nat} {value : BitVec 32} (hs : AllCanonical s) :
    Lands (execPctlWrite port value s) :=
  lands_portEvent hs (fun _ ht => canonical_portWrite ht)

theorem lands_execPortIdlePark {queue : TransmitQueue} (hs : AllCanonical s) :
    Lands (execPortIdlePark queue s) := by
  unfold execPortIdlePark
  exact lands_portEvent hs (fun _ ht => canonical_ite (canonical_restripePort (canonical_onPort ht)) ht)

theorem lands_execPortWakeTrigger {queue : TransmitQueue} (hs : AllCanonical s) :
    Lands (execPortWakeTrigger queue s) :=
  lands_portEvent hs (fun _ ht => canonical_onPort ht)

theorem lands_execWakeLockEnd {port ring : Nat} (hs : AllCanonical s) : Lands (execWakeLockEnd port ring s) :=
  lands_portEvent hs (fun _ ht => canonical_onPort ht)

theorem lands_execWakeComplete {port : Nat} (hs : AllCanonical s) : Lands (execWakeComplete port s) :=
  lands_portEvent hs (fun _ ht => canonical_restripePort (canonical_onPort ht))

theorem lands_execRingLockChange {port : Nat} {change : RingChange} (hs : AllCanonical s) :
    Lands (execRingLockChange port change s) :=
  lands_portEvent hs (fun _ ht => canonical_restripePort (canonical_onPort ht))

theorem lands_execRingLockLoss {port lane : Nat} (hs : AllCanonical s) : Lands (execRingLockLoss port lane s) :=
  lands_portEvent hs (fun _ ht => canonical_onPort ht)

theorem lands_flitEvent {i : Nat} {r : Received} {f : Port → Option Flit → Port} (hs : AllCanonical s) :
    Lands (flitEvent s i r f) :=
  lands_portEvent hs (fun _ ht => canonical_onPort ht)

theorem lands_execMarkerReceived {port : Nat} {r : Received} (hs : AllCanonical s) :
    Lands (execMarkerReceived port r s) :=
  lands_flitEvent hs

theorem lands_execLanePause {port : Nat} {r : Received} (hs : AllCanonical s) : Lands (execLanePause port r s) :=
  lands_flitEvent hs

theorem lands_execData {port : Nat} {r : Received} (hs : AllCanonical s) : Lands (execData port r s) :=
  lands_flitEvent hs

theorem lands_execAck {port : Nat} {r : Received} (hs : AllCanonical s) : Lands (execAck port r s) :=
  lands_flitEvent hs

theorem lands_execNak {port : Nat} {r : Received} (hs : AllCanonical s) : Lands (execNak port r s) :=
  lands_flitEvent hs

theorem canonical_onCols {ctx tower : Nat} {f : List ColCmd → List ColCmd} (hs : AllCanonical s) :
    AllCanonical (onCols s ctx tower f) :=
  canonical_onCtx hs

theorem canonical_colWalks {ctx tower number : Nat} (hs : AllCanonical s) :
    AllCanonical (colWalks s ctx tower number) := by
  unfold colWalks
  split
  · exact hs
  · exact canonical_ite (canonical_walkReport hs) (canonical_walkReport (canonical_walkReport hs))

theorem canonical_colEnd {ctx tower number status : Nat} (hs : AllCanonical s) :
    AllCanonical (colEnd s ctx tower number status) :=
  canonical_onCols (canonical_ite (canonical_colWalks hs) hs)

theorem lands_colRun {ctx tower op : Nat} {f : ColCmd → State} (hs : AllCanonical s) (hf : ∀ a0, AllCanonical
    (f a0)) :
    Lands (colRun s ctx tower op f) := by
  unfold colRun
  refine .next ?_
  split
  · exact hs
  · split
    · exact hs
    · exact canonical_ite (hf _) hs

theorem canonical_endParties {ps : List Party} {status : Nat} (hs : AllCanonical s) :
    AllCanonical (endParties s ps status) :=
  canonical_foldl (fun _ _ ht => canonical_colEnd ht) hs

theorem canonical_formGroup {g : Machine.Group} {p : Party} (hs : AllCanonical s) :
    AllCanonical (formGroup g s p) :=
  canonical_onCtx hs

theorem lands_execForm {ctx tower : Nat} {peers : List Contribution} (hs : AllCanonical s) :
    Lands (execForm ctx tower peers s) := by
  unfold execForm
  refine lands_colRun hs (fun a0 => ?_)
  split
  · exact hs
  · split
    · exact canonical_colEnd hs
    · extract_lets
      split
      · exact canonical_ite (canonical_endParties (canonical_foldl (fun _ _ hu => canonical_formGroup hu) hs)) hs
      · exact hs

theorem lands_execFormTimeout {ctx tower : Nat} (hs : AllCanonical s) : Lands (execFormTimeout ctx tower s) :=
  lands_colRun hs (fun _ => canonical_ite (canonical_colEnd hs) hs)

theorem canonical_takeResult {r : Party × List Byte} (hs : AllCanonical s) : AllCanonical (takeResult s r) := by
  unfold takeResult
  split
  · exact canonical_colEnd hs
  · next t e =>
    have ht : AllCanonical t := (found_writeVirtual hs).of_eq e
    exact canonical_colEnd ht

theorem canonical_colOutcome {n : Nat} {ps : List Party} {cs : List Contribution} {im : List Byte} (hs :
    AllCanonical s) :
    AllCanonical (colOutcome s n ps cs im) := by
  unfold colOutcome
  split
  · exact canonical_endParties hs
  · split
    · exact canonical_endParties hs
    · exact canonical_ite (canonical_endParties hs) (canonical_foldl (fun _ _ ht => canonical_takeResult ht) hs)

theorem lands_colData {op ctx tower : Nat} {peers : List Contribution} (hs : AllCanonical s) :
    Lands (colData op ctx tower peers s) := by
  unfold colData
  refine lands_colRun hs (fun a0 => ?_)
  extract_lets stop
  have hstop : ∀ code', AllCanonical (stop code') := by
    intro code'
    dsimp only [stop]
    exact canonical_colEnd hs
  split
  · exact hstop _
  · split
    · exact hstop _
    · split
      · exact hstop _
      · split
        · exact canonical_ite hs (canonical_colOutcome hs)
        · exact hs

theorem lands_execAllreduce {ctx tower : Nat} {peers : List Contribution} (hs : AllCanonical s) :
    Lands (execAllreduce ctx tower peers s) :=
  lands_colData hs

theorem lands_execAllgather {ctx tower : Nat} {peers : List Contribution} (hs : AllCanonical s) :
    Lands (execAllgather ctx tower peers s) :=
  lands_colData hs

theorem lands_execRedscatter {ctx tower : Nat} {peers : List Contribution} (hs : AllCanonical s) :
    Lands (execRedscatter ctx tower peers s) :=
  lands_colData hs

theorem lands_execAlltoall {ctx tower : Nat} {peers : List Contribution} (hs : AllCanonical s) :
    Lands (execAlltoall ctx tower peers s) :=
  lands_colData hs

theorem lands_execDrawmerge {ctx tower : Nat} {peers : List Contribution} (hs : AllCanonical s) :
    Lands (execDrawmerge ctx tower peers s) :=
  lands_colData hs

theorem lands_execCollectiveBadOp {ctx tower : Nat} (hs : AllCanonical s) :
    Lands (execCollectiveBadOp ctx tower s) := by
  unfold execCollectiveBadOp
  refine .next ?_
  split
  · exact hs
  · split
    · exact hs
    · exact canonical_ite hs (canonical_colEnd hs)

theorem canonical_colReport {ctx number status : Nat} {im : List Byte} (hs : AllCanonical s) :
    AllCanonical (colReport s ctx number status im) := by
  unfold colReport
  extract_lets
  split
  · exact canonical_ite hs (canonical_postItem hs)
  · split
    · exact hs
    · split
      · next t e2 =>
        exact (found_writeVirtual hs).of_eq e2
      · exact canonical_postItem (canonical_walkReport hs)

theorem lands_execCollectiveComplete {ctx tower : Nat} (hs : AllCanonical s) :
    Lands (execCollectiveComplete ctx tower s) := by
  unfold execCollectiveComplete
  refine .next ?_
  split
  · exact hs
  · split
    · exact hs
    · exact canonical_ite hs (canonical_pulseAll (canonical_tlDone (canonical_onCols (canonical_colReport hs))))

theorem canonical_scribble {ctx n : Nat} {im : List Byte} (hs : AllCanonical s) :
    AllCanonical (scribble s ctx n im) := by
  unfold scribble
  exact canonical_ite hs ((found_writeVirtual (canonical_drawBytes hs)).getD (canonical_drawBytes hs))

theorem canonical_endGroupAt {ctx g status tower : Nat} (hs : AllCanonical s) :
    AllCanonical (endGroupAt s ctx g status tower) := by
  unfold endGroupAt
  exact canonical_foldl (fun _ _ ht => canonical_ite (canonical_colEnd (canonical_scribble ht)) ht) hs

theorem canonical_endGroup {ctx g status : Nat} (hs : AllCanonical s) : AllCanonical (endGroup s ctx g status) := by
  unfold endGroup
  exact canonical_onCtx (canonical_foldl (fun _ _ ht => canonical_endGroupAt ht) hs)

theorem lands_execWithdraw {ctx group module context : Nat} (hs : AllCanonical s) :
    Lands (execWithdraw ctx group module context s) := by
  unfold execWithdraw
  exact .next (canonical_ite hs (canonical_endGroup hs))

theorem lands_execPortDownTimeout {port : Nat} (hs : AllCanonical s) : Lands (execPortDownTimeout port s) := by
  unfold execPortDownTimeout
  exact .next (canonical_ite hs (canonical_foldl (fun _ _ ht => canonical_foldl (fun _ _ hu => canonical_ite
    (canonical_endGroup hu) hu) ht) hs))

theorem canonical_sendWithdraw {ctx : Nat} {g : Nat × Machine.Group} (hs : AllCanonical s) :
    AllCanonical (sendWithdraw s ctx g) := by
  unfold sendWithdraw
  split
  · exact hs
  · extract_lets t
    have ht : AllCanonical t := canonical_foldl (fun _ _ hu => canonical_ite (canonical_endGroup hu) hu) hs
    refine canonical_foldl (fun u x hu => ?_) ht
    split
    · exact canonical_onPort hu
    · exact hu

theorem canonical_onQueue {ctx q : Nat} {f : Queue → Queue} (hs : AllCanonical s) :
    AllCanonical (onQueue s ctx q f) :=
  canonical_onCtx hs

theorem lands_queueEvent {ctx q : Nat} {f : State} (hs : AllCanonical s) (hf : AllCanonical f) :
    Lands (queueEvent s ctx q f) :=
  .next (canonical_ite hf hs)

theorem canonical_slotPoison {ctx q i : Nat} (hs : AllCanonical s) : AllCanonical (slotPoison s ctx q i) := by
  unfold slotPoison
  extract_lets _ t
  have ht : AllCanonical t := canonical_ite (canonical_walkReport hs) hs
  exact canonical_ite (canonical_postItem ht) ht

theorem canonical_stopQueue {ctx q err : Nat} (hs : AllCanonical s) : AllCanonical (stopQueue s ctx q err) := by
  unfold stopQueue
  exact canonical_ite (canonical_raiseIrq (canonical_onQueue hs)) (canonical_onQueue hs)

theorem lands_execQueueEnable {ctx queue : Nat} {value : BitVec 32} (hs : AllCanonical s) :
    Lands (execQueueEnable ctx queue value s) :=
  lands_queueEvent hs (canonical_ite hs (canonical_onQueue (canonical_onCtx hs)))

theorem lands_execQueueResume {ctx queue : Nat} (hs : AllCanonical s) : Lands (execQueueResume ctx queue s) :=
  lands_queueEvent hs (canonical_onQueue hs)

theorem canonical_drainQueue {ctx q v : Nat} (hs : AllCanonical s) : AllCanonical (drainQueue s ctx q v) := by
  unfold drainQueue
  exact canonical_onQueue (canonical_onCtx hs)

theorem lands_execQueueDrain {ctx : Nat} {write : QctlWrite} (hs : AllCanonical s) :
    Lands (execQueueDrain ctx write s) :=
  lands_queueEvent hs (canonical_drainQueue hs)

theorem canonical_abortPackets {ctx q : Nat} (hs : AllCanonical s) : AllCanonical (abortPackets s ctx q) := by
  unfold abortPackets
  exact canonical_ite hs (canonical_onQueue (canonical_foldl (fun _ _ ht => canonical_slotPoison ht) hs))

theorem lands_execQueueAbort {ctx queue : Nat} (hs : AllCanonical s) : Lands (execQueueAbort ctx queue s) := by
  unfold execQueueAbort
  exact lands_queueEvent hs (canonical_ite hs (canonical_abortPackets (canonical_drainQueue
    (canonical_onQueue hs))))

theorem canonical_takeKick {ctx q : Nat} {v : BitVec 64} (hs : AllCanonical s) :
    AllCanonical (takeKick s ctx q v) := by
  unfold takeKick
  exact canonical_ite (canonical_onQueue hs) (canonical_ite hs (canonical_ite (canonical_stopQueue hs)
    (canonical_ite (canonical_stopQueue hs) (canonical_onQueue (canonical_slotPoison hs)))))

theorem canonical_nextKicks {ctx q n : Nat} {x : State} (hx : AllCanonical x) :
    AllCanonical (nextKicks ctx q n x) := by
  induction n generalizing ctx q x with
  | zero => exact hx
  | succ n ih =>
    rw [nextKicks]
    split
    · exact hx
    · exact canonical_ite hx (ih (canonical_takeKick (canonical_onQueue hx)))

theorem canonical_runKicks {ctx q : Nat} (hs : AllCanonical s) : AllCanonical (runKicks s ctx q) :=
  canonical_nextKicks hs

theorem lands_execKick {ctx queue : Nat} {value : BitVec 64} (hs : AllCanonical s) :
    Lands (execKick ctx queue value s) :=
  lands_queueEvent hs (canonical_runKicks (canonical_onQueue hs))

theorem canonical_refetchKick {ctx q tries : Nat} {v : BitVec 64} (hs : AllCanonical s) :
    AllCanonical (refetchKick s ctx q tries v) := by
  unfold refetchKick
  extract_lets t _ _ _ w
  have ht : AllCanonical t := canonical_onQueue hs
  have hw : AllCanonical w := canonical_slotPoison ht
  exact canonical_ite (canonical_runKicks (canonical_onQueue hw)) (canonical_ite (canonical_stopQueue hw)
    (canonical_onQueue hw))

theorem canonical_refetchHead {ctx q tries : Nat} (hs : AllCanonical s) :
    AllCanonical (refetchHead s ctx q tries) := by
  unfold refetchHead
  extract_lets t _ _ v
  have ht : AllCanonical t := canonical_onQueue hs
  have hv : AllCanonical v := canonical_slotPoison ht
  exact canonical_ite (canonical_onQueue hv) (canonical_ite (canonical_stopQueue hv) (canonical_onQueue hv))

theorem lands_execKickRefetch {ctx queue : Nat} (hs : AllCanonical s) : Lands (execKickRefetch ctx queue s) := by
  unfold execKickRefetch
  refine lands_queueEvent hs ?_
  split
  · exact canonical_ite hs (canonical_refetchKick hs)
  · exact canonical_ite hs (canonical_refetchHead hs)
  · exact canonical_runKicks hs

theorem lands_execPacketFetchResponse {ctx queue : Nat} (hs : AllCanonical s) :
    Lands (execPacketFetchResponse ctx queue s) := by
  unfold execPacketFetchResponse
  exact lands_queueEvent hs (canonical_ite hs (canonical_ite (canonical_onQueue (canonical_slotPoison hs))
    (canonical_ite (canonical_stopQueue (canonical_slotPoison hs)) (canonical_ite hs (canonical_onQueue hs)))))

theorem canonical_postEntries {ctx : Nat} {xs : List (List Byte × Option Nat)} (hs : AllCanonical s) :
    AllCanonical (postEntries s ctx xs) := by
  induction xs generalizing s ctx with
  | nil => exact hs
  | cons x xs ih =>
    rw [postEntries]
    split
    · exact hs
    · split
      · exact canonical_onCtx hs
      · extract_lets
        split
        · exact hs
        · next t e2 =>
          have ht : AllCanonical t := (found_writeSpace hs).of_eq e2
          extract_lets u
          have hu : AllCanonical u := canonical_onCtx ht
          refine ih ?_
          split
          · exact canonical_raiseIrq hu
          · exact hu

theorem canonical_pumpEntries {ctx : Nat} (hs : AllCanonical s) : AllCanonical (pumpEntries s ctx) :=
  canonical_postEntries hs

theorem canonical_mirror {ctx q : Nat} (hs : AllCanonical s) : AllCanonical (mirror s ctx q) := by
  unfold mirror
  split
  · exact hs
  · exact (found_writeSpace hs).getD hs

theorem canonical_raiseOwed {ctx q : Nat} (hs : AllCanonical s) : AllCanonical (raiseOwed s ctx q) := by
  unfold raiseOwed
  exact canonical_ite hs (canonical_foldl (fun _ _ ht => canonical_raiseIrq ht) (canonical_onQueue hs))

theorem canonical_completePacket {ctx q : Nat} {p : Packet} {status : Nat} (hs : AllCanonical s) :
    AllCanonical (completePacket s ctx q p status) := by
  unfold completePacket
  extract_lets _ t u
  have ht : AllCanonical t := canonical_onQueue hs
  have hu : AllCanonical u := canonical_ite ht (canonical_mirror ht)
  exact canonical_ite (canonical_pumpEntries (canonical_onCtx hu)) (canonical_ite (canonical_raiseOwed
    (canonical_onQueue hu)) hu)

theorem lands_execPacketComplete {ctx queue number : Nat} (hs : AllCanonical s) :
    Lands (execPacketComplete ctx queue number s) := by
  unfold execPacketComplete
  refine lands_queueEvent hs ?_
  split
  · exact hs
  · split
    · exact hs
    · exact canonical_ite (canonical_completePacket hs) hs

theorem canonical_onPacket {ctx q number : Nat} {f : Packet → Packet} (hs : AllCanonical s) :
    AllCanonical (onPacket s ctx q number f) :=
  canonical_onQueue hs

theorem canonical_packetEnd {ctx q number status : Nat} (hs : AllCanonical s) :
    AllCanonical (packetEnd s ctx q number status) :=
  canonical_onPacket hs

theorem lands_packetRun {ctx q number type : Nat} {f : Packet → State} (hs : AllCanonical s) (hf :
    ∀ a0, AllCanonical (f a0)) :
    Lands (packetRun s ctx q number type f) := by
  unfold packetRun
  refine lands_queueEvent hs ?_
  split
  · exact hs
  · exact canonical_ite (hf _) hs

theorem lands_execLaunch {ctx queue number : Nat} (hs : AllCanonical s) :
    Lands (execLaunch ctx queue number s) := by
  unfold execLaunch
  refine lands_packetRun hs (fun a0 => ?_)
  split
  · exact hs
  · split
    · exact canonical_packetEnd hs
    · exact canonical_onPacket hs

theorem lands_execLaunchUnitCreate {ctx queue number : Nat} (hs : AllCanonical s) :
    Lands (execLaunchUnitCreate ctx queue number s) := by
  unfold execLaunchUnitCreate
  refine lands_packetRun hs (fun a0 => ?_)
  extract_lets
  split
  · exact hs
  · split
    · exact hs
    · next t e' =>
      have ht : AllCanonical t := .snd (canonical_accept hs) e'
      exact canonical_onPacket (canonical_postItem ht)
    · next t e' =>
      have ht : AllCanonical t := .snd (canonical_accept hs) e'
      exact canonical_onPacket ht

/-- A copy whose state, where it has ended, has canonical memories. -/
inductive Ended : CopyEnd → Prop where
  | done {t : State} (h : AllCanonical t) : Ended (.done t)
  | fault {t : State} (h : AllCanonical t) : Ended (.fault t)
  | wait : Ended .wait

theorem ended_copyPages {ctx start fuel a b n : Nat} {sv dv : Bool} (hs : AllCanonical s) :
    Ended (copyPages ctx sv dv start fuel s a b n) := by
  induction fuel generalizing s a b n with
  | zero =>
    unfold copyPages
    split
    · exact .done hs
    · exact .wait
  | succ fuel ih =>
    unfold copyPages
    split
    · exact .done hs
    extract_lets _ t
    split
    · exact .wait
    split
    · exact .fault (canonical_ite (canonical_walkReport hs) hs)
    split
    · exact .wait
    have ht : AllCanonical t := canonical_ite (canonical_postItem hs) hs
    split
    · exact .fault (canonical_ite (canonical_walkReport hs) hs)
    · exact ih (canonical_cleanHead (canonical_writePieces ht))

theorem lands_execCopy {ctx queue number : Nat} (hs : AllCanonical s) : Lands (execCopy ctx queue number s) := by
  unfold execCopy
  refine lands_packetRun hs fun p => ?_
  extract_lets n
  split
  · exact canonical_packetEnd hs
  have hcopy : Ended (copySpace ctx (flag (imageAt p.image 32 1) 0) (flag (imageAt p.image 33 1) 0)
    (n / 32768 + 3) s
      (imageAt p.image 8 8) (imageAt p.image 16 8) n) := ended_copyPages hs
  generalize copySpace _ _ _ _ s _ _ n = x at hcopy
  cases hcopy with
  | done ht => exact canonical_packetEnd ht
  | fault ht => exact canonical_packetEnd ht
  | wait => exact hs

theorem lands_execTlwait {ctx queue number : Nat} (hs : AllCanonical s) :
    Lands (execTlwait ctx queue number s) := by
  unfold execTlwait
  refine lands_packetRun hs (fun a0 => ?_)
  split
  · exact canonical_packetEnd hs
  · exact canonical_onPacket hs

theorem lands_execTlwaitSatisfied {ctx queue number : Nat} (hs : AllCanonical s) :
    Lands (execTlwaitSatisfied ctx queue number s) := by
  unfold execTlwaitSatisfied
  refine lands_packetRun hs (fun a0 => ?_)
  split
  · exact canonical_ite (canonical_packetEnd hs) hs
  · exact hs

theorem lands_execTlsignal {ctx queue number : Nat} (hs : AllCanonical s) :
    Lands (execTlsignal ctx queue number s) :=
  lands_packetRun hs (fun _ => canonical_ite hs (canonical_packetEnd (canonical_onCtx hs)))

theorem lands_execSwtWrite {ctx n : Nat} {value : BitVec 64} (hs : AllCanonical s) :
    Lands (execSwtWrite ctx n value s) :=
  lands_queueEvent hs (canonical_onCtx hs)

theorem canonical_pinLeaves {ctx : Nat} {ahead : List (Nat × Nat)} {leaves : List TlbEntry} (hs : AllCanonical s) :
    AllCanonical (pinLeaves s ctx ahead leaves) := by
  unfold pinLeaves
  exact canonical_onCtx hs

theorem lands_execMapupdate {ctx queue number : Nat} (hs : AllCanonical s) :
    Lands (execMapupdate ctx queue number s) := by
  unfold execMapupdate
  refine lands_packetRun hs (fun a0 => ?_)
  split
  · exact canonical_ite hs (canonical_packetEnd hs)
  · split
    · exact canonical_packetEnd hs
    · extract_lets _ _ _ t
      have ht : AllCanonical t := canonical_onPacket (canonical_invalidate hs)
      exact canonical_ite (canonical_packetEnd hs) (canonical_ite (canonical_packetEnd hs) (canonical_ite
        (canonical_packetEnd ht) ht))

theorem lands_execFencePacket {ctx queue number : Nat} (hs : AllCanonical s) :
    Lands (execFencePacket ctx queue number s) := by
  unfold execFencePacket
  exact lands_packetRun hs (fun _ => canonical_ite (canonical_packetEnd hs) (canonical_ite
    (canonical_packetEnd hs) hs))

theorem lands_execNopkt {ctx queue number : Nat} (hs : AllCanonical s) : Lands (execNopkt ctx queue number s) :=
  lands_packetRun hs (fun _ => canonical_packetEnd hs)

theorem canonical_killQueues {ctx tower : Nat} (hs : AllCanonical s) : AllCanonical (killQueues ctx tower s) := by
  unfold killQueues
  exact canonical_onTower (canonical_foldl (fun _ _ ht => canonical_postItem ht) hs)

theorem canonical_endTransit {c : SwapCmd} (hs : AllCanonical s) : AllCanonical (endTransit s c) := by
  unfold endTransit
  split
  · exact hs
  · exact canonical_foldl (fun _ _ ht => canonical_writeAt ht) hs

theorem canonical_killCommands {ctx : Nat} (hs : AllCanonical s) : AllCanonical (killCommands ctx s) := by
  unfold killCommands
  extract_lets _ t
  have ht : AllCanonical t := canonical_foldl (fun _ _ hu => canonical_foldl (fun _ _ hv =>
    canonical_postItem hv) hu) hs
  exact canonical_foldl (fun _ _ hu => canonical_foldl (fun _ _ hv => canonical_endTransit
    (canonical_postItem hv)) hu) ht

theorem canonical_killRecord {ctx : Nat} {i : Nat} (hs : AllCanonical s) : AllCanonical (killRecord ctx s i) := by
  unfold killRecord
  split
  · exact hs
  · exact canonical_recordImage (canonical_postItem (canonical_abortSaved hs))

theorem canonical_killContext {ctx : Nat} (hs : AllCanonical s) : AllCanonical (killContext s ctx) := by
  unfold killContext
  extract_lets t u v w x y
  have ht : AllCanonical t := canonical_foldl (fun _ _ h => canonical_failCore h) hs
  have hu : AllCanonical u := canonical_foldl (fun _ _ h => canonical_killRecord h) ht
  have hv : AllCanonical v := canonical_foldl (fun _ _ h => canonical_sendWithdraw h) hu
  have hw : AllCanonical w := canonical_killCommands hv
  have hx : AllCanonical x := canonical_foldl (fun _ _ h => canonical_killQueues h) hw
  clear_value x
  exact canonical_onCtx (hx.kept rfl rfl)

theorem lands_execFunctionLevelReset {ctx : Nat} (hs : AllCanonical s) : Lands (execFunctionLevelReset ctx s) :=
  .next (canonical_ite (canonical_killContext hs) hs)

theorem lands_execPfReset (hs : AllCanonical s) : Lands (execPfReset s) :=
  .next (canonical_foldl (fun _ _ ht => canonical_killContext ht) hs)

theorem lands_ctxEvent {ctx : Nat} {t : State} (hs : AllCanonical s) (ht : AllCanonical t) :
    Lands (ctxEvent s ctx t) :=
  .next (canonical_ite ht hs)

theorem canonical_refillBucket {ctx : Nat} (hs : AllCanonical s) : AllCanonical (refillBucket s ctx) := by
  unfold refillBucket
  exact canonical_ite hs (canonical_onCtx hs)

theorem canonical_writeTokens {ctx v : Nat} (hs : AllCanonical s) : AllCanonical (writeTokens s ctx v) :=
  canonical_onCtx (canonical_refillBucket hs)

theorem canonical_writePage {ctx : Nat} {pf : Bool} {off v : Nat} (hs : AllCanonical s) :
    AllCanonical (writePage s ctx pf off v) := by
  unfold writePage
  split
  · exact canonical_ite hs (canonical_ite (canonical_writeTokens hs) (canonical_onCtx hs))
  · exact canonical_ite (canonical_onCtx hs) (canonical_ite (canonical_onQueue hs) (canonical_ite
      (canonical_ite hs (canonical_drainQueue hs)) (canonical_ite hs (canonical_onCtx hs))))

theorem lands_execRegisterWrite {where_ : RegTarget} {value : BitVec 64} (hs : AllCanonical s) :
    Lands (execRegisterWrite where_ value s) := by
  unfold execRegisterWrite
  refine .next ?_
  split
  · exact canonical_ite (canonical_writePage hs) hs
  · exact canonical_ite (canonical_portWrite hs) hs
  · exact canonical_ite (canonical_onModule hs (fun _ => rfl)) hs
  · exact canonical_ite (canonical_onModule hs (fun _ => rfl)) hs
  · exact canonical_writeWindow hs
  · exact canonical_ite (canonical_onModule hs (fun _ => rfl)) hs

theorem lands_execGfbaseWrite {ctx : Nat} {value : BitVec 64} (hs : AllCanonical s) :
    Lands (execGfbaseWrite ctx value s) :=
  lands_ctxEvent hs (canonical_onCtx hs)

theorem canonical_endKilled {ctx : Nat} (hs : AllCanonical s) : AllCanonical (endKilled s ctx) := by
  unfold endKilled
  exact canonical_ite (canonical_onCtx hs) hs

theorem lands_execCrheadWrite {ctx : Nat} {value : BitVec 32} (hs : AllCanonical s) :
    Lands (execCrheadWrite ctx value s) :=
  lands_ctxEvent hs (canonical_pumpEntries (canonical_onCtx hs))

theorem lands_execCrctlWrite {ctx : Nat} {value : BitVec 32} (hs : AllCanonical s) :
    Lands (execCrctlWrite ctx value s) := by
  unfold execCrctlWrite
  exact lands_ctxEvent hs (canonical_ite hs (canonical_pumpEntries (canonical_onCtx hs)))

theorem lands_execTrheadWrite {ctx ring : Nat} {value : BitVec 32} (hs : AllCanonical s) :
    Lands (execTrheadWrite ctx ring value s) :=
  lands_ctxEvent hs (canonical_ite (canonical_onCtx hs) hs)

theorem lands_execTrctlWrite {ctx ring : Nat} {value : BitVec 64} (hs : AllCanonical s) :
    Lands (execTrctlWrite ctx ring value s) := by
  unfold execTrctlWrite
  exact lands_ctxEvent hs (canonical_ite hs (canonical_onCtx hs))

theorem lands_execItheadWrite {ctx : Nat} {value : BitVec 32} (hs : AllCanonical s) :
    Lands (execItheadWrite ctx value s) :=
  lands_ctxEvent hs (canonical_endKilled (canonical_pumpItems (canonical_onCtx hs)))

theorem lands_execItctlWrite {ctx : Nat} {value : BitVec 32} (hs : AllCanonical s) :
    Lands (execItctlWrite ctx value s) := by
  unfold execItctlWrite
  exact lands_ctxEvent hs (canonical_ite hs (canonical_endKilled (canonical_pumpItems (canonical_onCtx hs))))

theorem lands_execDtctlWrite {ctx : Nat} {value : BitVec 32} (hs : AllCanonical s) :
    Lands (execDtctlWrite ctx value s) := by
  unfold execDtctlWrite
  exact lands_ctxEvent hs (canonical_ite hs (canonical_ite (canonical_foldl (fun _ _ hu => canonical_flushCore hu)
    (canonical_onCtx hs)) (canonical_onCtx hs)))

theorem lands_execTokenRingTimer {ctx ring : Nat} (hs : AllCanonical s) :
    Lands (execTokenRingTimer ctx ring s) := by
  unfold execTokenRingTimer
  refine lands_ctxEvent hs ?_
  split
  · exact hs
  · exact canonical_ite hs (canonical_raiseIrq (canonical_onCtx hs))

theorem lands_execVectorUnmask {function vector : Nat} (hs : AllCanonical s) :
    Lands (execVectorUnmask function vector s) := by
  unfold execVectorUnmask
  exact .next (canonical_ite (hs.kept rfl rfl) hs)

theorem lands_driverAnswer {ctx : Nat} {t : State} (hs : AllCanonical s) (ht : AllCanonical t) :
    Lands (driverAnswer s ctx t) :=
  lands_ctxEvent hs (canonical_ite ht hs)

theorem lands_execFresResume {ctx : Nat} (hs : AllCanonical s) : Lands (execFresResume ctx s) :=
  lands_driverAnswer hs (canonical_returnFrom hs)

theorem lands_execFresFail {ctx : Nat} (hs : AllCanonical s) : Lands (execFresFail ctx s) :=
  lands_driverAnswer hs (canonical_returnFrom hs)

theorem lands_execFresSkip {ctx : Nat} (hs : AllCanonical s) : Lands (execFresSkip ctx s) :=
  lands_driverAnswer hs (canonical_returnFrom hs)

theorem lands_execFresKill {ctx : Nat} (hs : AllCanonical s) : Lands (execFresKill ctx s) :=
  lands_driverAnswer hs (canonical_killContext hs)

theorem found_windowSpan {ctx : Nat} {w : WindowOp} (hs : AllCanonical s) :
    Found (AllCanonical ·.2) (windowSpan s ctx w) := by
  unfold windowSpan
  exact .mapAfter fun _ => canonical_ite_snd hs (canonical_spanBy (fun _ _ ht => canonical_windowLook ht) hs)

theorem canonical_windowFault {ctx : Nat} (hs : AllCanonical s) : AllCanonical (windowFault s ctx) :=
  canonical_onCtx hs

theorem canonical_windowWalks {ctx : Nat} {w : WindowOp} (hs : AllCanonical s) :
    AllCanonical (windowWalks s ctx w) := by
  unfold windowWalks
  split
  · exact canonical_ite (canonical_leaveItem hs) hs
  · exact hs

theorem found_windowAccess {ctx : Nat} {w : WindowOp} (hs : AllCanonical s) :
    Found AllCanonical (windowAccess s ctx w) := by
  unfold windowAccess
  split
  · exact .none
  · exact .none
  · next t e _ =>
    have ht : AllCanonical t := (found_windowSpan hs).of_eq e
    extract_lets u
    have hu : AllCanonical u := canonical_ite (canonical_postItem ht) ht
    exact .some (hu.kept rfl rfl)
  · next t _ e _ =>
    have ht : AllCanonical t := (found_windowSpan hs).of_eq e
    exact .some (canonical_writePieces ht)
  · refine .some ?_
    extract_lets t
    have ht : AllCanonical t := canonical_windowFault (canonical_windowWalks hs)
    exact ht.kept rfl rfl
  · exact .some (canonical_windowFault (canonical_windowWalks hs))

theorem canonical_windowOps {ctx : Nat} {xs : List WindowOp} (hs : AllCanonical s) :
    AllCanonical (windowOps ctx s xs) := by
  induction xs generalizing ctx s with
  | nil => exact hs
  | cons x xs ih =>
    rw [windowOps]
    split
    · exact hs
    · next t e =>
      have ht : AllCanonical t := (found_windowAccess hs).of_eq e
      exact ih (canonical_onCtx ht)

theorem canonical_runWindow {ctx : Nat} (hs : AllCanonical s) : AllCanonical (runWindow s ctx) :=
  canonical_windowOps hs

theorem canonical_windowOp {ctx : Nat} {w : WindowOp} (hs : AllCanonical s) : AllCanonical (windowOp s ctx w) :=
  canonical_runWindow (canonical_onCtx (canonical_drawWord hs))

theorem lands_execBar2Read {ctx offset bytes : Nat} (hs : AllCanonical s) :
    Lands (execBar2Read ctx offset bytes s) :=
  lands_ctxEvent hs (canonical_windowOp hs)

theorem lands_execBar2Write {ctx offset : Nat} {data : List (BitVec 8)} (hs : AllCanonical s) :
    Lands (execBar2Write ctx offset data s) :=
  lands_ctxEvent hs (canonical_windowOp hs)

theorem canonical_sendInvalidations {ctx : Nat} (hs : AllCanonical s) : AllCanonical (sendInvalidations s ctx) := by
  unfold sendInvalidations
  exact canonical_onCtx hs

theorem lands_execAtsInvalidation {ctx address length : Nat} (hs : AllCanonical s) :
    Lands (execAtsInvalidation ctx address length s) := by
  unfold execAtsInvalidation
  refine lands_ctxEvent hs ?_
  refine canonical_sendInvalidations ?_
  extract_lets t
  have ht : AllCanonical t := canonical_onCtx hs
  exact ht.kept rfl rfl

theorem canonical_noTranslation {ctx page : Nat} (hs : AllCanonical s) :
    AllCanonical (noTranslation s ctx page) := by
  unfold noTranslation
  extract_lets _ _ t u
  have ht : AllCanonical t := canonical_onCtx hs
  have hu : AllCanonical u := canonical_ite (canonical_runWindow ht) ht
  exact canonical_ite (canonical_onCtx hu) (canonical_onCtx hu)

theorem canonical_hasTranslation {ctx page : Nat} {t : HostTarget} (hs : AllCanonical s) :
    AllCanonical (hasTranslation s ctx page t) :=
  canonical_onCtx hs

theorem lands_execAtsTranslationCompletion {ctx page : Nat} {target : Option HostTarget} (hs : AllCanonical s) :
    Lands (execAtsTranslationCompletion ctx page target s) := by
  unfold execAtsTranslationCompletion
  refine lands_ctxEvent hs ?_
  split
  · exact hs
  · extract_lets t
    have ht : AllCanonical t := by
      dsimp only [t]
      split
      · exact canonical_hasTranslation hs
      · exact canonical_noTranslation hs
    exact canonical_endKilled (canonical_pumpEntries (canonical_pumpItems ht))

theorem canonical_resumePaged {ctx : Nat} {core : Nat} (hs : AllCanonical s) :
    AllCanonical (resumePaged ctx s core) := by
  unfold resumePaged
  exact canonical_ite (canonical_onCtx hs) (canonical_resumeCore (canonical_onCtx hs))

theorem canonical_groupServed {ctx : Nat} {g : PageGroup} (hs : AllCanonical s) :
    AllCanonical (groupServed s ctx g) := by
  unfold groupServed
  extract_lets t u
  have ht : AllCanonical t := canonical_onCtx hs
  have hu : AllCanonical u := canonical_foldl (fun _ _ hv => canonical_resumePaged hv) ht
  split
  · exact ht
  · exact canonical_ite (canonical_endHalt hu) hu

theorem canonical_groupFailed {ctx : Nat} {g : PageGroup} (hs : AllCanonical s) :
    AllCanonical (groupFailed s ctx g) := by
  unfold groupFailed
  extract_lets t
  have ht : AllCanonical t := canonical_foldl (fun _ _ hu => canonical_onCore hu) hs
  split
  · exact ht
  · exact canonical_ite ht (canonical_ite (canonical_onCtx ht) (canonical_ite (canonical_deliver
      (canonical_writeFrames (canonical_onCtx ht))) (canonical_onCtx ht)))

theorem lands_execPriResponse {ctx : Nat} {success : Bool} (hs : AllCanonical s) :
    Lands (execPriResponse ctx success s) := by
  unfold execPriResponse
  refine lands_ctxEvent hs ?_
  split
  · exact hs
  · extract_lets t
    have ht : AllCanonical t := canonical_onCtx hs
    exact canonical_ite (canonical_groupServed ht) (canonical_groupFailed ht)

theorem canonical_countCorrected {g : Nat} (hs : AllCanonical s) : AllCanonical (countCorrected s g) := by
  unfold countCorrected
  split
  · exact canonical_onCore hs
  · exact canonical_onModule hs (fun _ => rfl)

theorem canonical_poisonGranule {g : Nat} (hs : AllCanonical s) : AllCanonical (poisonGranule s g) := hs

theorem lands_execPatrolScrub {corrected uncorrectable : List Nat} (hs : AllCanonical s) :
    Lands (execPatrolScrub corrected uncorrectable s) := by
  unfold execPatrolScrub
  extract_lets t
  have ht : AllCanonical t := canonical_foldl (fun _ _ hu => canonical_countCorrected hu) hs
  exact .next (canonical_foldl (fun _ _ hu => canonical_poisonGranule hu) ht)

theorem lands_execUncorrectable {core stream : Nat} (hs : AllCanonical s) :
    Lands (execUncorrectable core stream s) :=
  .next (canonical_ite (canonical_takeException (canonical_drawWord hs)) hs)

theorem canonical_presentRequest {reason site unit : Nat} (hs : AllCanonical s) :
    AllCanonical (presentRequest s reason site unit) :=
  canonical_raiseIrq (canonical_onModule (canonical_drawWord hs) (fun _ => rfl))

theorem canonical_requestRetirement {reason site unit : Nat} (hs : AllCanonical s) :
    AllCanonical (requestRetirement s reason site unit) := by
  unfold requestRetirement
  exact canonical_ite hs (canonical_ite (canonical_onModule hs (fun _ => rfl)) (canonical_presentRequest hs))

theorem lands_execRemapRequest {reason site unit : Nat} (hs : AllCanonical s) :
    Lands (execRemapRequest reason site unit s) :=
  .next (canonical_ite (canonical_requestRetirement hs) hs)

theorem lands_execHbmThermalRetirement {site unit : Nat} (hs : AllCanonical s) :
    Lands (execHbmThermalRetirement site unit s) :=
  .next (canonical_ite (canonical_requestRetirement hs) hs)

theorem lands_execRmctlWrite {pf : Bool} {value : BitVec 32} (hs : AllCanonical s) :
    Lands (execRmctlWrite pf value s) :=
  .next (canonical_ite (canonical_onModule hs (fun _ => rfl)) hs)

theorem canonical_publish {r : Retirement} (hs : AllCanonical s) : AllCanonical (publish s r) := by
  unfold publish
  extract_lets _ t
  have ht : AllCanonical t := canonical_newEpoch (canonical_onModule hs (fun _ => rfl))
  exact canonical_checkReplace (canonical_logEvent ht)

theorem lands_execRemapPublish (hs : AllCanonical s) : Lands (execRemapPublish s) := by
  unfold execRemapPublish
  refine .next ?_
  split
  · exact hs
  · split
    · exact hs
    · extract_lets t
      have ht : AllCanonical t := canonical_publish hs
      split
      · exact ht
      · exact canonical_presentRequest (canonical_onModule ht (fun _ => rfl))

theorem canonical_walkMoves {page : Nat} {held : Bool} {j : Joiner} (hs : AllCanonical s) :
    AllCanonical (walkMoves page held s j) := by
  unfold walkMoves
  refine canonical_asStream hs (fun t ht => ?_)
  split
  · exact canonical_ite ht (canonical_onMe (canonical_traceWait ht))
  · exact canonical_ite ht (canonical_onMe (canonical_traceWait ht))
  · exact ht

theorem canonical_takeWalk {w : Walking} {r : WalkResult} {j : Joiner} (hs : AllCanonical s) :
    AllCanonical (takeWalk w r s j) := by
  unfold takeWalk
  extract_lets _ _ t
  have ht : AllCanonical t := by
    dsimp only [t]
    split
    · exact canonical_ite (canonical_tlbInsert hs) hs
    · exact hs
  exact canonical_ite ht (canonical_onCore ht)

theorem canonical_onWalk {t : Nat} {w : Walking} {f : Walking → Option Walking} (hs : AllCanonical s) :
    AllCanonical (onWalk s t w f) :=
  canonical_onTower hs

theorem canonical_endWalk {t : Nat} {w : Walking} (hs : AllCanonical s) : AllCanonical (endWalk s t w) := by
  unfold endWalk
  extract_lets _ _ _ u v
  have hu : AllCanonical u := by
    dsimp only [u]
    split
    · exact canonical_ite (canonical_postItem hs) hs
    · exact hs
  have hv : AllCanonical v := canonical_cacheNonLeaf (canonical_onWalk hu)
  exact canonical_ite (canonical_foldl (fun _ _ hx => canonical_walkMoves hx) (canonical_onWalk hs))
    (canonical_foldl (fun _ _ hx => canonical_walkMoves hx) (canonical_foldl (fun _ _ hx =>
    canonical_takeWalk hx) hv))

theorem lands_execWalkComplete {core stream : Nat} (hs : AllCanonical s) :
    Lands (execWalkComplete core stream s) := by
  unfold execWalkComplete
  refine .next ?_
  split
  · exact hs
  · split
    · exact canonical_endWalk hs
    · exact hs

end Sys2Proof.Slice0

/-! PROOFS. The canonical form of the memories (O54): the driver's answers, memory errors and swaps, checkpoints, the
scheduler's round and the Geyser round. -/

namespace Sys2Proof.Slice0
open Sys2Proof.Machine

variable {s : State}

theorem allCanonical_lift {e o : Nat} {l : Loc} (hs : AllCanonical s) : AllCanonical (lift s e o l).2 := by
  unfold lift
  split
  · exact canonical_drawBytes hs
  · split <;> exact hs

theorem allCanonical_lay {l : Loc} {v : Memory × List Nat} (hs : AllCanonical s) : AllCanonical (lay s l v) := by
  unfold lay
  split
  · exact canonical_storeAt hs
  · exact hs
  · exact hs.withMem (wf_writeCells (wf_clearRange hs.1 _ _) _)

theorem allCanonical_copyPage {ctx level old new o : Nat} (hs : AllCanonical s) :
    AllCanonical (copyPage ctx level old new s o) := by
  unfold copyPage
  split
  · exact allCanonical_lay (allCanonical_lift hs)
  · exact hs

theorem canonical_crossPage {ctx level ea eb : Nat} {o : Nat} (hs : AllCanonical s) :
    AllCanonical (crossPage ctx level ea eb s o) := by
  unfold crossPage
  split
  · exact allCanonical_lay (allCanonical_lay (allCanonical_lift (allCanonical_lift hs)))
  · exact hs

theorem allCanonical_putLeaf {a e : Nat} (hs : AllCanonical s) : AllCanonical (putLeaf s a e) :=
  canonical_writeAt hs

theorem canonical_onSwaps {ctx tower : Nat} {f : List SwapCmd → List SwapCmd} (hs : AllCanonical s) :
    AllCanonical (onSwaps s ctx tower f) :=
  canonical_onCtx hs

theorem canonical_onHead {ctx tower : Nat} {f : SwapCmd → SwapCmd} (hs : AllCanonical s) :
    AllCanonical (onHead s ctx tower f) :=
  canonical_onSwaps hs

theorem canonical_swapWalks {ctx tower : Nat} (hs : AllCanonical s) : AllCanonical (swapWalks s ctx tower) := by
  unfold swapWalks
  split
  · exact hs
  · exact canonical_foldl (fun _ _ ht => canonical_ite (canonical_leaveItem ht) ht) hs

theorem canonical_swapEnd {ctx tower status : Nat} {late : Bool} {pages : Nat} (hs : AllCanonical s) :
    AllCanonical (swapEnd s ctx tower status late pages) :=
  canonical_onHead (canonical_ite (canonical_swapWalks hs) hs)

theorem canonical_markPage {c : SwapCmd} {leaves : List (Nat × Nat)} (hs : AllCanonical s) :
    AllCanonical (markPage s c leaves) := by
  unfold markPage
  extract_lets t
  have ht : AllCanonical t := canonical_foldl (fun _ _ hu => allCanonical_putLeaf hu) hs
  exact canonical_foldl (fun _ _ hu => canonical_invalidate hu) ht

theorem canonical_enterMarkers {ctx tower : Nat} {c : SwapCmd} {x : Transit} (hs : AllCanonical s) :
    AllCanonical (enterMarkers s ctx tower c x) := by
  unfold enterMarkers
  exact canonical_onHead (canonical_pinLeaves hs)

theorem canonical_installPage {c : SwapCmd} {x : Transit} (hs : AllCanonical s) :
    AllCanonical (installPage s c x) := by
  unfold installPage
  extract_lets
  split
  · exact allCanonical_putLeaf (canonical_foldl (fun _ _ ht => allCanonical_copyPage ht) hs)
  · extract_lets t
    have ht : AllCanonical t := canonical_foldl (fun _ _ hu => canonical_crossPage hu) hs
    exact allCanonical_putLeaf (allCanonical_putLeaf ht)
  · exact hs

theorem canonical_pastPage {ctx tower : Nat} {moved poison : Bool} (hs : AllCanonical s) :
    AllCanonical (pastPage s ctx tower moved poison) :=
  canonical_onHead hs

theorem canonical_countLate {ctx : Nat} (hs : AllCanonical s) : AllCanonical (countLate s ctx) := canonical_onCtx hs

theorem canonical_swapLast {ctx tower : Nat} (hs : AllCanonical s) : AllCanonical (swapLast s ctx tower) := by
  unfold swapLast
  split
  · exact hs
  · exact canonical_ite hs (canonical_swapEnd (canonical_ite (canonical_countLate hs) hs))

theorem canonical_swapStep {ctx tower : Nat} {c : SwapCmd} (hs : AllCanonical s) :
    AllCanonical (swapStep s ctx tower c) := by
  unfold swapStep
  split
  · split
    · exact canonical_swapLast (canonical_pastPage hs)
    · exact canonical_ite hs (canonical_onHead (canonical_markPage hs))
  · split
    · exact canonical_ite hs (canonical_enterMarkers hs)
    · exact canonical_ite hs (canonical_swapLast (canonical_pastPage (canonical_installPage hs)))

theorem lands_swapRun {ctx tower op : Nat} (hs : AllCanonical s) : Lands (swapRun s ctx tower op) := by
  unfold swapRun
  refine .next ?_
  split
  · exact hs
  · split
    · exact hs
    · split
      · exact hs
      · split
        · exact canonical_swapStep hs
        · split
          · exact hs
          · exact canonical_swapEnd hs
          · exact canonical_ite (canonical_swapEnd hs) (canonical_swapStep hs)

theorem lands_execMigrate {ctx tower : Nat} (hs : AllCanonical s) : Lands (execMigrate ctx tower s) :=
  lands_swapRun hs

theorem lands_execExchange {ctx tower : Nat} (hs : AllCanonical s) : Lands (execExchange ctx tower s) :=
  lands_swapRun hs

theorem lands_execPromote {ctx tower : Nat} (hs : AllCanonical s) : Lands (execPromote ctx tower s) :=
  lands_swapRun hs

theorem lands_execSwapBadOp {ctx tower : Nat} (hs : AllCanonical s) : Lands (execSwapBadOp ctx tower s) := by
  unfold execSwapBadOp
  refine .next ?_
  split
  · exact hs
  · split
    · exact hs
    · exact canonical_ite (canonical_swapEnd hs) hs

theorem canonical_swapReport {ctx : Nat} {c : SwapCmd} {status : Nat} {late : Bool} {pages : Nat} (hs :
    AllCanonical s) :
    AllCanonical (swapReport s ctx c status late pages) := by
  unfold swapReport
  extract_lets
  split
  · exact hs
  · split
    · next t e' =>
      exact (found_writeVirtual hs).of_eq e'
    · exact canonical_postItem (canonical_walkReport hs)

theorem lands_execSwapComplete {ctx tower : Nat} (hs : AllCanonical s) : Lands (execSwapComplete ctx tower s) := by
  unfold execSwapComplete
  refine .next ?_
  split
  · exact hs
  · split
    · exact hs
    · next l _ _ _ =>
      split
      · exact hs
      · exact canonical_ite hs (canonical_pulseAll (canonical_tlDone (canonical_onSwaps (canonical_swapReport hs))))

theorem canonical_clearSaved {ctx i : Nat} {regions : Bool} (hs : AllCanonical s) :
    AllCanonical (clearSaved s ctx i regions) :=
  canonical_onCtx hs

theorem canonical_startCore {ctx i : Nat} {r : Record} {core : Nat} (hs : AllCanonical s) :
    AllCanonical (startCore ctx i r s core) := by
  unfold startCore
  extract_lets _ t u
  have ht : AllCanonical t := canonical_onCore hs
  have hu : AllCanonical u := canonical_trace (canonical_onCore ht)
  split
  · extract_lets w y
    have hw : AllCanonical w := canonical_trace (canonical_onCore ht)
    have hy : AllCanonical y := canonical_ite (canonical_trace hw) hw
    exact canonical_ite hy (canonical_asStream hy (fun _ hz => canonical_fetchDesc hz))
  · exact canonical_ite hu (canonical_asStream hu (fun _ hv => canonical_switchSctx hv))

theorem canonical_startSlice {t : Ticket} (hs : AllCanonical s) : AllCanonical (startSlice s t) := by
  unfold startSlice
  extract_lets u
  have hu : AllCanonical u := canonical_foldl (fun _ _ hv => canonical_startCore hv) hs
  exact canonical_onRecord (canonical_clearSaved hu)

theorem lands_execSliceStart {ctx index : Nat} (hs : AllCanonical s) : Lands (execSliceStart ctx index s) := by
  unfold execSliceStart
  refine .next ?_
  split
  · exact canonical_ite (canonical_startSlice hs) hs
  · exact hs

theorem found_markCheckpoint {t : Ticket} (hs : AllCanonical s) : Found AllCanonical (markCheckpoint s t) := by
  unfold markCheckpoint
  exact .ite .none (.some (canonical_onRecord (canonical_onCtx hs)))

theorem canonical_returnLoads {core : Nat} (hs : AllCanonical s) : AllCanonical (returnLoads s core) := by
  unfold returnLoads
  exact canonical_foldl (fun _ _ ht => canonical_foldl (fun _ _ hu => canonical_returnLoad hu) ht) hs

theorem wf_foldl_writeBytes {m : Memory} (h : m.wf = true) (a : Nat) (l : List (Nat × List Byte)) :
    (l.foldl (fun m e => writeBytes m (a + e.1) e.2) m).wf = true := by
  induction l generalizing m with
  | nil => exact h
  | cons e l ih => exact ih (wf_writeBytes h _ _)

theorem canonical_fillSlot {ctx i core : Nat} {v : Core} (hs : AllCanonical s) :
    AllCanonical (fillSlot s ctx i core v) := by
  unfold fillSlot
  split
  · exact hs
  · exact canonical_onSlots (hs.withMem (wf_foldl_writeBytes (wf_clearRange hs.1 _ _) _ _))

theorem canonical_sealsDone {core : Nat} {key : Nat} (hs : AllCanonical s) :
    AllCanonical (sealsDone core s key) := by
  unfold sealsDone
  split
  · exact hs
  · exact canonical_foldl (fun _ _ ht => canonical_sealDone ht) hs

theorem canonical_settleSeals {core : Nat} (hs : AllCanonical s) : AllCanonical (settleSeals s core) := by
  unfold settleSeals
  refine canonical_foldl (fun t x ht => ?_) hs
  split
  · exact canonical_retire (canonical_asStream ht (fun _ hu => canonical_sealsDone hu))
  · exact ht

theorem canonical_traceStop {ctx : Nat} {core : Nat} (hs : AllCanonical s) :
    AllCanonical (traceStop ctx s core) := by
  unfold traceStop
  exact canonical_ite (canonical_trace hs) hs

theorem canonical_saveCore {ctx i : Nat} {core : Nat} (hs : AllCanonical s) :
    AllCanonical (saveCore ctx i s core) := by
  unfold saveCore
  extract_lets t _ u
  have ht : AllCanonical t := canonical_settleSeals (canonical_settleShadows (canonical_returnLoads hs))
  have hu : AllCanonical u := canonical_traceStop ht
  exact canonical_vacate (canonical_fillSlot (canonical_ite hu (canonical_writeDesc hu)))

theorem lands_execCheckpointComplete {ctx index : Nat} (hs : AllCanonical s) :
    Lands (execCheckpointComplete ctx index s) := by
  unfold execCheckpointComplete
  refine .next ?_
  split
  · exact hs
  · exact canonical_ite hs (canonical_onRecord (canonical_foldl (fun _ _ ht => canonical_saveCore ht) hs))

theorem canonical_endFeeds {ctx core : Nat} (hs : AllCanonical s) : AllCanonical (endFeeds s ctx core) := by
  unfold endFeeds
  exact canonical_onCore (canonical_foldl (fun _ _ ht => canonical_tlDone ht) hs)

theorem canonical_markKill {t : Ticket} (hs : AllCanonical s) : AllCanonical (markKill s t) :=
  canonical_onRecord (canonical_foldl (fun _ _ hu => canonical_endFeeds hu) hs)

theorem canonical_killCore {ctx : Nat} {core : Nat} (hs : AllCanonical s) : AllCanonical (killCore ctx s core) := by
  unfold killCore
  extract_lets t u v
  have ht : AllCanonical t := canonical_returnLoads hs
  have hu : AllCanonical u := canonical_foldl (fun _ _ hw => canonical_failPulse hw) ht
  have hv : AllCanonical v := by
    dsimp only [v]
    refine canonical_foldl (fun w x hw => ?_) hu
    split
    · exact canonical_tlDone hw
    · exact hw
  exact canonical_vacate (canonical_traceStop (canonical_endStalls hv))

theorem canonical_killSlice {t : Ticket} (hs : AllCanonical s) : AllCanonical (killSlice s t) := by
  unfold killSlice
  extract_lets _ u v w x
  have hu : AllCanonical u := canonical_foldl (fun _ _ hy => canonical_killCore hy) hs
  have hv : AllCanonical v := canonical_clearSaved hu
  have hw : AllCanonical w := hv.kept rfl rfl
  have hx : AllCanonical x := by
    dsimp only [x]
    split
    · exact canonical_onTower hw
    · exact hw
  exact canonical_onRecord hx

theorem canonical_leaveCore {ctx : Nat} {core : Nat} (hs : AllCanonical s) : AllCanonical (leaveCore ctx s core) :=
  canonical_vacate (canonical_leaveDesc (canonical_returnLoads hs))

theorem canonical_yieldWaits {core : Nat} (hs : AllCanonical s) : AllCanonical (yieldWaits s core) :=
  canonical_onCore hs

theorem canonical_yieldGoes {core : Nat} (hs : AllCanonical s) : AllCanonical (yieldGoes s core) := by
  unfold yieldGoes
  exact canonical_ite hs (canonical_asStream hs (fun _ ht => canonical_onCore (canonical_traceWait ht)))

theorem canonical_endSlice {t : Ticket} (hs : AllCanonical s) : AllCanonical (endSlice s t) := by
  unfold endSlice
  extract_lets
  split
  · exact hs
  · split
    · split
      · next u e2 =>
        have hu : AllCanonical u := (found_markCheckpoint hs).of_eq e2
        exact canonical_foldl (fun _ _ hv => canonical_yieldGoes hv) hu
      · exact canonical_foldl (fun _ _ hu => canonical_yieldWaits hu) hs
    · exact canonical_endRecord (canonical_foldl (fun _ _ hu => canonical_leaveCore hu) hs)

theorem canonical_fenceIdle (hs : AllCanonical s) : AllCanonical (fenceIdle s) :=
  canonical_foldl (fun _ _ ht => canonical_ite (canonical_fenceNow ht) ht) hs

theorem canonical_placeAt {t : Ticket} {o : Nat} (hs : AllCanonical s) : AllCanonical (placeAt s t o) := by
  unfold placeAt
  extract_lets _ u v
  have hu : AllCanonical u := canonical_foldl (fun _ _ hw => canonical_onCore hw) hs
  have hv : AllCanonical v := hu.kept rfl rfl
  exact canonical_onRecord hv

theorem canonical_considerRecord {m : Round} {t : Ticket} (hm : AllCanonical m.state) :
    AllCanonical (considerRecord m t).state := by
  unfold considerRecord
  split
  · exact hm
  · extract_lets
    split
    · exact hm
    · split
      · exact canonical_failRecord hm
      · split
        · exact canonical_placeAt hm
        · exact canonical_ite_state hm hm

theorem canonical_spend {n : Ticket} (hs : AllCanonical s) : AllCanonical (spend s n) :=
  canonical_onRecord (canonical_onCtx hs)

theorem canonical_actOn {n : Ticket} {slack : Int} {v : Ticket} (hs : AllCanonical s) :
    AllCanonical (actOn n slack s v) := by
  unfold actOn
  extract_lets t
  have ht : AllCanonical t := canonical_onRecord hs
  split
  · exact ht
  · split
    · next u e' =>
      have hu : AllCanonical u := (.ite (found_markCheckpoint hs) .none : Found AllCanonical _).of_eq e'
      exact canonical_spend hu
    · exact canonical_ite (canonical_spend (canonical_markKill hs)) ht

theorem canonical_preempt {m : Round} (hm : AllCanonical m.state) : AllCanonical (preempt m) := by
  unfold preempt
  extract_lets t
  have ht : AllCanonical t := hm
  split
  · exact ht
  · split
    · exact ht
    · split
      · exact ht
      · exact canonical_ite ht (canonical_foldl (fun _ _ hv => canonical_actOn hv) (ht.kept rfl rfl))

theorem canonical_considerAll {m : Round} {l : List Ticket} (hm : AllCanonical m.state) :
    AllCanonical (l.foldl considerRecord m).state := by
  induction l generalizing m with
  | nil => exact hm
  | cons t l ih => exact ih (canonical_considerRecord hm)

theorem canonical_round (hs : AllCanonical s) : AllCanonical (Machine.round s) := by
  unfold Machine.round
  extract_lets t u v w m x
  have ht : AllCanonical t := canonical_foldl (fun _ _ h => canonical_startSlice h) hs
  have hu : AllCanonical u := canonical_foldl (fun _ _ h => canonical_endSlice h) ht
  have hv : AllCanonical v := canonical_foldl (fun _ _ h => canonical_killSlice h) hu
  have hw : AllCanonical w := canonical_fenceIdle hv
  have hx : AllCanonical x := canonical_preempt (canonical_considerAll hw)
  clear_value x
  exact hx.kept rfl rfl

theorem lands_execSchedulerRound (hs : AllCanonical s) : Lands (execSchedulerRound s) := .next (canonical_round hs)

theorem lands_execBucketRefill {ctx : Nat} (hs : AllCanonical s) : Lands (execBucketRefill ctx s) :=
  lands_ctxEvent hs (canonical_refillBucket hs)

theorem canonical_countMiss {ctx : Nat} (hs : AllCanonical s) : AllCanonical (countMiss s ctx) := canonical_onCtx hs

theorem lands_execDeadlineMiss {ctx index : Nat} (hs : AllCanonical s) : Lands (execDeadlineMiss ctx index s) := by
  unfold execDeadlineMiss
  refine .next ?_
  split
  · exact hs
  · exact canonical_ite hs (canonical_countMiss (canonical_onRecord hs))

theorem lands_execBudgetExhausted {ctx index : Nat} (hs : AllCanonical s) :
    Lands (execBudgetExhausted ctx index s) := by
  unfold execBudgetExhausted
  refine .next ?_
  split
  · exact hs
  · exact canonical_ite hs (canonical_ite (canonical_failSlice (canonical_countBudget hs))
      (canonical_takeException (canonical_drawWord hs)))

theorem lands_execHandlerAllowanceExhausted {ctx : Nat} (hs : AllCanonical s) :
    Lands (execHandlerAllowanceExhausted ctx s) := by
  unfold execHandlerAllowanceExhausted
  refine lands_ctxEvent hs ?_
  split
  · exact hs
  · split
    · exact hs
    · exact canonical_ite hs (canonical_returnFrom hs)

theorem lands_execRegionFirstTouch {core region : Nat} (hs : AllCanonical s) :
    Lands (execRegionFirstTouch core region s) := by
  unfold execRegionFirstTouch
  refine .next ?_
  split
  · exact hs
  · split
    · next t e' =>
      exact (found_touchRegion hs).of_eq e'
    · exact canonical_takeException (canonical_drawWord hs)

theorem lands_execRegionTransferDone {core region : Nat} (hs : AllCanonical s) :
    Lands (execRegionTransferDone core region s) :=
  .next (canonical_onCore hs)

theorem canonical_configure {t ctx address : Nat} (hs : AllCanonical s) :
    AllCanonical (configure s t ctx address).2 := by
  unfold configure
  split
  · exact hs
  · split
    · exact hs
    · exact canonical_ite_snd hs (canonical_onGQueue hs)

theorem canonical_onChip {t q : Nat} {e : Entry} (hs : AllCanonical s) : AllCanonical (onChip s t q e) :=
  canonical_onGQueue hs

theorem canonical_spillFault {t q : Nat} (hs : AllCanonical s) : AllCanonical (spillFault s t q) :=
  canonical_postItem hs

theorem canonical_spill {t q : Nat} {e : Entry} {pos : Nat} (hs : AllCanonical s) :
    AllCanonical (spill s t q e pos).2 := by
  unfold spill
  extract_lets
  split
  · exact hs
  · split
    · exact canonical_spillFault (canonical_walkReport hs)
    · next u e2 =>
      have hu : AllCanonical u := (found_writeVirtual hs).of_eq e2
      exact canonical_onGQueue hu

theorem canonical_decidePush {t : Nat} {c : GeyCmd} (hs : AllCanonical s) : AllCanonical (decidePush s t c).2 := by
  unfold decidePush
  extract_lets _ _ _ _ u
  have hu : AllCanonical u := canonical_onTower hs
  split
  · exact hs
  · split
    · exact hs
    · split
      · exact canonical_onChip hu
      · split
        · next v e4 =>
          exact .snd (canonical_spill hu) e4
        · next v e4 =>
          exact .snd (canonical_spill hu) e4

theorem canonical_unspill {t q n : Nat} {x : State} (hx : AllCanonical x) : AllCanonical (unspill t q n x) := by
  induction n generalizing t q x with
  | zero => exact hx
  | succ n ih =>
    rw [unspill]
    split
    · exact hx
    · exact canonical_ite hx (ih (canonical_onChip (canonical_onGQueue (canonical_walkReport hx))))

theorem canonical_leaveQueue {t q : Nat} {es : List Entry} (hs : AllCanonical s) :
    AllCanonical (leaveQueue s t q es) := by
  unfold leaveQueue
  exact canonical_onGQueue hs

theorem canonical_joinPoisoned {ctx index unit frame : Nat} {es : List Entry} (hs : AllCanonical s) :
    AllCanonical (joinPoisoned s ctx index unit frame es) :=
  canonical_foldl (fun _ _ ht => canonical_ite (canonical_takeToken ht) ht) hs

theorem canonical_decidePop {t : Nat} {c : GeyCmd} (hs : AllCanonical s) : AllCanonical (decidePop s t c).2.2 := by
  unfold decidePop
  extract_lets
  split
  · exact hs
  · split
    · exact canonical_walkReport hs
    · next u e' =>
      have hu : AllCanonical u := (found_writeVirtual hs).of_eq e'
      exact canonical_joinPoisoned (canonical_leaveQueue hu)

theorem canonical_decided {t : Nat} {c : GeyCmd} {code count : Nat} (hs : AllCanonical s) :
    AllCanonical (decided s t c code count) := by
  unfold decided
  exact canonical_pulseAll (canonical_tlDone (canonical_reply hs))

theorem canonical_configCommand {t : Nat} {c : GeyCmd} (hs : AllCanonical s) :
    AllCanonical (configCommand t s c) := by
  unfold configCommand
  split
  next u e =>
    have hu : AllCanonical u := .snd (canonical_ite_snd hs (canonical_configure hs)) e
    exact canonical_decided hu

theorem canonical_entryCommand {t : Nat} {c : GeyCmd} (hs : AllCanonical s) :
    AllCanonical (entryCommand t s c) := by
  unfold entryCommand
  exact canonical_ite (canonical_decided hs) (canonical_ite (canonical_decided (canonical_decidePush hs))
    (canonical_ite (canonical_decided hs) (canonical_ite (canonical_ite (canonical_decided hs) (canonical_decided
    (canonical_onGQueue hs))) (canonical_decided (canonical_decidePop hs)))))

theorem canonical_runCommands {t : Nat} {f : Nat → State → GeyCmd → State} {x : State} {xs : List GeyCmd} (hf :
    ∀ a0 t a2, AllCanonical t → AllCanonical (f a0 t a2)) (hx : AllCanonical x) :
    AllCanonical (runCommands t f x xs) := by
  induction xs generalizing t x with
  | nil => exact hx
  | cons x xs ih =>
    rw [runCommands]
    exact canonical_ite (canonical_onTower hx) (ih (hf _ _ _ hx))

theorem canonical_returnEntry {t q : Nat} {e : Entry} (hs : AllCanonical s) :
    AllCanonical (returnEntry s t q e) := by
  unfold returnEntry
  split
  · exact canonical_onChip hs
  · split
    · next u e2 =>
      exact .snd (canonical_spill hs) e2
    · next u e2 =>
      have hu : AllCanonical u := .snd (canonical_spill hs) e2
      exact canonical_onChip hu

theorem canonical_returnToken {t q ctx index unit frame : Nat} {p : Entry × Nat} (hs : AllCanonical s) :
    AllCanonical (returnToken t q ctx index unit frame s p) := by
  unfold returnToken
  extract_lets
  split
  · exact hs
  · split
    · exact canonical_takeToken hs
    · exact hs
    · exact canonical_returnEntry hs

theorem canonical_returnBatch {t : Nat} {p : Nat × Nat} (hs : AllCanonical s) :
    AllCanonical (returnBatch t s p) := by
  unfold returnBatch
  extract_lets
  split
  · exact hs
  · split
    · exact canonical_onTower hs
    · extract_lets _ u v
      have hu : AllCanonical u := canonical_foldl (fun _ _ hw => canonical_returnToken hw) hs
      have hv : AllCanonical v := canonical_onGQueue hu
      exact (found_writeVirtual hv).getD hv

theorem canonical_bufferFault {t q : Nat} (hs : AllCanonical s) : AllCanonical (bufferFault s t q) := by
  unfold bufferFault
  exact canonical_ite hs (canonical_onGQueue (canonical_spillFault hs))

theorem canonical_fireInto {t : Nat} {r : Ready} {b : Nat} (hs : AllCanonical s) :
    AllCanonical (fireInto s t r b).2 := by
  unfold fireInto
  extract_lets g ctx
  split
  · dsimp only
    exact canonical_bufferFault (canonical_walkReport hs)
  next u e =>
  have hv : AllCanonical (accept u ctx (firingRecord u t r.queue b g) (some (firingLimit u g))).2 :=
    canonical_accept ((found_writeVirtual hs).of_eq e)
  generalize accept u ctx _ _ = x at hv
  obtain ⟨o, v⟩ := x
  split
  · next i w e =>
    rw [← (Prod.mk.inj e).2]
    exact canonical_joinPoisoned (canonical_onGQueue (canonical_leaveQueue hv))
  · next w _ e =>
    rw [← (Prod.mk.inj e).2]
    exact hv

theorem canonical_fireQueue {t : Nat} {r : Ready} (hs : AllCanonical s) : AllCanonical (fireQueue s t r).2 := by
  unfold fireQueue
  extract_lets
  split
  · exact hs
  · exact canonical_ite_snd hs (canonical_fireInto hs)

theorem canonical_fireAll {t n : Nat} {x : State} {xs : List Ready} (hx : AllCanonical x) :
    AllCanonical (fireAll t n x xs) := by
  induction xs generalizing t n x with
  | nil => exact hx
  | cons x xs ih =>
    rw [fireAll]
    exact canonical_ite hx (ih (canonical_fireQueue hx))

theorem canonical_answerStatus {t : Nat} {core : Nat} (hs : AllCanonical s) :
    AllCanonical (answerStatus t s core) := by
  unfold answerStatus
  split
  · exact canonical_ite hs (canonical_retire hs)
  · exact hs

theorem canonical_geyserRound {t : Nat} (hs : AllCanonical s) : AllCanonical (geyserRound s t) := by
  unfold geyserRound
  extract_lets _ u v x y z _ t'
  have hu : AllCanonical u := canonical_onTower hs
  have hv : AllCanonical v := canonical_foldl (fun _ _ ht2 => canonical_returnBatch ht2) hu
  have hx : AllCanonical x := canonical_runCommands (fun _ _ _ ht2 => canonical_configCommand ht2) hv
  have hy : AllCanonical y := canonical_runCommands (fun _ _ _ ht2 => canonical_entryCommand ht2) hx
  have hz : AllCanonical z := canonical_foldl (fun _ _ ht2 => canonical_unspill ht2) hy
  have ht' : AllCanonical t' := canonical_fireAll hz
  exact canonical_foldl (fun _ _ ht2 => canonical_answerStatus ht2) ht'

theorem lands_execGeyserRound {tower : Nat} (hs : AllCanonical s) : Lands (execGeyserRound tower s) :=
  .next (canonical_ite (canonical_geyserRound hs) hs)

end Sys2Proof.Slice0

/-! PROOFS. The canonical form of the memories (O54): the copy engine, the grammar engine, the waits, the module's events
and trips. -/

namespace Sys2Proof.Slice0
open Sys2Proof.Machine

variable {s : State}

theorem yields_cpRead {cs : Bool} {n n' : Nat} (hs : AllCanonical s) :
    Yields (AllCanonical ·.2.2) (cpRead s cs n n') := by
  unfold cpRead
  exact (yields_places hs).bind fun _ hp => .ok hp

theorem yields_copyPiece {im : List Byte} {done n : Nat} (hs : AllCanonical s) :
    Yields (AllCanonical ·.2) (copyPiece s im done n) := by
  unfold copyPiece
  exact .ite ((yields_places hs).bind fun _ hp => .ok (canonical_cleanHead (canonical_writePieces hp)))
    ((yields_cpRead hs).bind fun _ hp => (yields_places hp).bind fun _ hp' => .ok (canonical_cleanHead
    (canonical_writePieces hp')))

theorem canonical_copyBytes {im : List Byte} {n : Nat} {x : Progress} (hx : AllCanonical x.state) :
    AllCanonical (copyBytes im n x).state := by
  induction n generalizing im x with
  | zero => exact hx
  | succ n ih =>
    rw [copyBytes]
    split
    · exact hx
    · extract_lets
      split
      · exact hx
      · next t e2 =>
        have ht : AllCanonical t := (yields_copyPiece hx).of_eq e2
        exact ih ht

theorem yields_readTile {w : Nat} {d : Side} {xs : List (Nat × Nat)} (hs : AllCanonical s) :
    Yields (AllCanonical ·.2.2) (readTile s w d xs) := by
  induction xs generalizing s w d with
  | nil => exact .ok hs
  | cons x xs ih => exact (yields_readCell hs).bind fun _ hp => (ih hp).bind fun _ hp' => .ok hp'

theorem yields_writeTileEach {w : Nat} {d : Side} {col : Bool} {xs : List ((Nat × Nat) × Nat)} (hs :
    AllCanonical s) :
    Yields AllCanonical (writeTileEach s w d col xs) := by
  induction xs generalizing s w d col with
  | nil => exact .ok hs
  | cons x xs ih => exact (yields_writeCell hs).bind fun _ ht => ih ht

theorem yields_writeTile {w : Nat} {d : Side} {col : Bool} {es : List ((Nat × Nat) × Nat)} (hs : AllCanonical s) :
    Yields AllCanonical (writeTile s w d col es) :=
  (yields_writeTileEach hs).map fun _ ht => canonical_cleanCells ht

theorem canonical_copyTile {im : List Byte} {p : Progress} (hp : AllCanonical p.state) :
    AllCanonical (copyTile im p).state := by
  unfold copyTile
  extract_lets w cells run
  have hrun : Yields (AllCanonical ·.2) run :=
    (yields_readTile hp).bind fun _ hs => (yields_writeTile hs).bind fun _ ht => .ok ht
  clear_value run
  split
  · exact hp
  · exact hrun.of_eq rfl

theorem yields_feedElement {im : List Byte} {i : Nat} (hs : AllCanonical s) :
    Yields (AllCanonical ·.2.2) (feedElement s im i) := by
  unfold feedElement
  exact (yields_cpRead hs).bind fun _ hp => .ok hp

theorem canonical_feedElements {core : Nat} {im : List Byte} {n : Nat} {x : Progress} (hx : AllCanonical x.state) :
    AllCanonical (feedElements core im n x).state := by
  induction n generalizing core im x with
  | zero => exact hx
  | succ n ih =>
    rw [feedElements]
    split
    · exact hx
    · split
      · exact hx
      · split
        · exact hx
        · next t e2 =>
          have ht : AllCanonical t := (yields_feedElement hx).of_eq e2
          exact ih (canonical_onCore ht)

theorem canonical_onCopy {core number : Nat} {f : CopyCmd → CopyCmd} (hs : AllCanonical s) :
    AllCanonical (onCopy s core number f) :=
  canonical_onCore hs

theorem canonical_copyStall {core : Nat} {c : CopyCmd} {cause : Option Nat} (hs : AllCanonical s) :
    AllCanonical (copyStall s core c cause) := by
  unfold copyStall
  extract_lets _ t
  have ht : AllCanonical t := by
    dsimp only [t]
    split
    · exact canonical_trace hs
    · exact hs
  exact canonical_ite hs (canonical_onCopy ht)

theorem canonical_copyTrap {core : Nat} {e : Trap} (hs : AllCanonical s) : AllCanonical (copyTrap s core e) := by
  unfold copyTrap
  split
  · exact canonical_takePage (canonical_joinGroup hs)
  · exact canonical_takeException (canonical_drawWord hs)
  · exact canonical_takeException (canonical_drawWord hs)
  · exact canonical_joinWalk hs
  · exact canonical_askHost hs
  · exact (found_touchRegion hs).getD hs
  · exact hs
  · exact hs

theorem canonical_advanceCopy {core : Nat} {c : CopyCmd} {f : Progress → Progress} (hs : AllCanonical s) (hf :
    ∀ a0, AllCanonical a0.state → AllCanonical (f a0).state) :
    AllCanonical (advanceCopy s core c f) := by
  unfold advanceCopy
  refine canonical_asStream hs (fun t ht => ?_)
  extract_lets p _ u _ v w
  have hp : AllCanonical p.state := hf _ (canonical_onCore ht)
  have hu : AllCanonical u := canonical_onCopy hp
  have hv : AllCanonical v := canonical_copyStall (canonical_ite hu (canonical_onCore hu))
  have hw : AllCanonical w := by
    dsimp only [w]
    split
    · exact hv
    · exact canonical_copyTrap hv
  exact canonical_onCore hw

theorem lands_copyRun {core number op : Nat} {f : List Byte → Progress → Progress} (hs : AllCanonical s) (hf :
    ∀ a0 a1, AllCanonical a1.state → AllCanonical (f a0 a1).state) :
    Lands (copyRun core number op s f) := by
  unfold copyRun
  refine .next ?_
  split
  · exact hs
  · exact canonical_ite hs (canonical_advanceCopy hs (fun _ h => hf _ _ h))

theorem lands_execCopyCmd {core number : Nat} (hs : AllCanonical s) : Lands (execCopyCmd core number s) :=
  lands_copyRun hs (fun _ _ h => canonical_copyBytes h)

theorem lands_execTileCmd {core number : Nat} (hs : AllCanonical s) : Lands (execTileCmd core number s) :=
  lands_copyRun hs (fun _ _ h => canonical_copyTile h)

theorem lands_execFillCmd {core number : Nat} (hs : AllCanonical s) : Lands (execFillCmd core number s) :=
  lands_copyRun hs (fun _ _ h => canonical_copyBytes h)

theorem lands_execFeedCmd {core number : Nat} (hs : AllCanonical s) : Lands (execFeedCmd core number s) := by
  refine lands_copyRun hs fun im p hp => ?_
  split
  · exact canonical_feedElements hp
  · exact hp

theorem canonical_copyItem {core : Nat} {c : CopyCmd} {status : Nat} (hs : AllCanonical s) :
    AllCanonical (copyItem s core c status) := by
  unfold copyItem
  exact canonical_ite hs (canonical_postItem hs)

theorem canonical_copyEnd {core : Nat} {c : CopyCmd} {status : Nat} (hs : AllCanonical s) :
    AllCanonical (copyEnd s core c status) := by
  unfold copyEnd
  extract_lets t u
  have ht : AllCanonical t := canonical_onCore hs
  have hu : AllCanonical u := canonical_tlDone (canonical_copyItem ht)
  exact canonical_ite (canonical_pulse hu) hu

theorem lands_execCopyCmdComplete {core number : Nat} (hs : AllCanonical s) :
    Lands (execCopyCmdComplete core number s) := by
  unfold execCopyCmdComplete
  refine .next ?_
  split
  · exact hs
  · split
    · exact hs
    · exact canonical_ite (canonical_copyStall hs) (canonical_copyEnd (canonical_copyStall hs))

theorem canonical_setSlot {t slot : Nat} {v : BitVec 32} {dead : Bool} (hs : AllCanonical s) :
    AllCanonical (setSlot s t slot v dead) :=
  canonical_onTower hs

theorem canonical_cacheMask {t : Nat} {m : MaskRuns} (hs : AllCanonical s) : AllCanonical (cacheMask s t m) :=
  canonical_onTower (canonical_drawWord hs)

theorem found_readRuns {t ctx n n' : Nat} (hs : AllCanonical s) :
    Found (AllCanonical ·.2) (readRuns s t ctx n n') := by
  unfold readRuns
  split
  · exact .some hs
  · exact .mapAfter fun _ => canonical_ite hs (canonical_cacheMask hs)

theorem found_descriptor {t ctx : Nat} {v : BitVec 32} (hs : AllCanonical s) :
    Found (AllCanonical ·.2.2) (descriptor s t ctx v) := by
  unfold descriptor
  split
  · exact .none
  · exact (found_readRuns hs).map fun _ hp => hp

theorem found_stepState {t ctx vocab token : Nat} {v : BitVec 32} (hs : AllCanonical s) :
    Found (AllCanonical ·.2) (stepState s t ctx vocab token v) := by
  unfold stepState
  split
  · exact .some hs
  · split
    · exact .none
    · next u e' =>
      have hu : AllCanonical u := (found_descriptor hs).of_eq e'
      exact .ite (.some hu) (.mapAfter fun _ => hu)

theorem canonical_gramFault {c : GramCmd} (hs : AllCanonical s) : AllCanonical (gramFault s c) :=
  canonical_postItem hs

theorem canonical_replaceCommand {t i : Nat} {c : Option GramCmd} (hs : AllCanonical s) :
    AllCanonical (replaceCommand s t i c) :=
  canonical_onTower hs

theorem canonical_completeCommand {t i : Nat} {c : GramCmd} {e : Option Reply} (hs : AllCanonical s) :
    AllCanonical (completeCommand s t i c e) := by
  unfold completeCommand
  split
  · exact canonical_replaceCommand hs
  · split
    · exact canonical_pulse (canonical_replaceCommand hs)
    · split
      · next u e2 =>
        have hu : AllCanonical u := .fst (canonical_appendReplies hs) e2
        exact canonical_pulse (canonical_replaceCommand hu)
      · next u _ _ e3 =>
        have hu : AllCanonical u := .fst (canonical_appendReplies hs) e3
        exact canonical_replaceCommand hu

theorem canonical_slotEffect {t : Nat} {c : GramCmd} (hs : AllCanonical s) : AllCanonical (slotEffect s t c).2 := by
  unfold slotEffect
  dsimp -zeta only
  extract_lets u
  have hu : AllCanonical u := canonical_gramFault (canonical_setSlot hs)
  split
  · split
    · exact hs
    · split
      · next v e2 =>
        have hv : AllCanonical v := (found_stepState hs).of_eq e2
        exact canonical_setSlot hv
      · exact hu
  · split
    · exact hs
    · split
      · next v e2 =>
        exact (found_descriptor hs).of_eq e2
      · exact hu
  · exact canonical_setSlot hs

theorem canonical_writeMask {c : GramCmd} {bs : List Byte} (hs : AllCanonical s) :
    AllCanonical (writeMask s c bs) := by
  unfold writeMask
  split
  · next t e =>
    have ht : AllCanonical t := (yields_csSpan hs).of_eq e
    exact canonical_writePieces ht
  · exact canonical_gramFault hs

theorem found_maskHeld {c : GramCmd} (hs : AllCanonical s) : Found AllCanonical (maskHeld s c) := by
  unfold maskHeld
  split
  · exact .some ((found_touchRegion hs).getD hs)
  · exact .some hs
  · exact .none

theorem canonical_effectCommand {t i : Nat} {c : GramCmd} (hs : AllCanonical s) :
    AllCanonical (effectCommand s t i c) := by
  unfold effectCommand
  dsimp -zeta only
  extract_lets u
  have hu : AllCanonical u := canonical_ite (canonical_writeMask (canonical_slotEffect hs))
    (canonical_slotEffect hs)
  exact canonical_completeCommand hu

theorem canonical_runCommand {t i : Nat} {c : GramCmd} (hs : AllCanonical s) :
    AllCanonical (runCommand s t i c) := by
  unfold runCommand
  split
  · exact canonical_completeCommand hs
  · exact canonical_ite (canonical_completeCommand (canonical_gramFault hs)) (canonical_ite hs (canonical_ite
      ((found_maskHeld hs).getD (canonical_effectCommand hs)) (canonical_effectCommand hs)))

theorem lands_grammarEvent {tower op : Nat} (hs : AllCanonical s) : Lands (grammarEvent tower op s) := by
  unfold grammarEvent
  refine .next ?_
  split
  · exact hs
  · split
    · exact hs
    · exact canonical_ite (canonical_runCommand hs) hs

theorem lands_execGrammarStep {tower : Nat} (hs : AllCanonical s) : Lands (execGrammarStep tower s) :=
  lands_grammarEvent hs

theorem lands_execGrammarMask {tower : Nat} (hs : AllCanonical s) : Lands (execGrammarMask tower s) :=
  lands_grammarEvent hs

theorem lands_execGrammarSet {tower : Nat} (hs : AllCanonical s) : Lands (execGrammarSet tower s) :=
  lands_grammarEvent hs

theorem canonical_rangeItem {ranges : Nat} (hs : AllCanonical s) : AllCanonical (rangeItem s ranges) :=
  canonical_postCore hs

theorem lands_execSpawn {f : EFields} (hs : AllCanonical s) : Lands (execSpawn f s) := by
  unfold execSpawn
  refine lands_guarded hs ?_
  refine .after fun a => ?_
  split
  · exact .error
  · split
    · exact .error
    · split
      · exact .error
      · next t e2 =>
        have ht : AllCanonical t := .snd (canonical_accept hs) e2
        exact yields_writeReg (canonical_rangeItem ht)
      · next t e2 =>
        have ht : AllCanonical t := .snd (canonical_accept hs) e2
        exact yields_writeReg ht

theorem lands_execJoin {f : EFields} (hs : AllCanonical s) : Lands (execJoin f s) := by
  unfold execJoin
  exact lands_guarded hs (.after fun _ => .ite .error (.ok (canonical_writePred (canonical_joinDown hs))))

theorem found_joinLost {ctx n : Nat} (hs : AllCanonical s) : Found AllCanonical (joinLost s ctx n) := by
  unfold joinLost
  exact .ite .none (.mapAfter fun _ => canonical_ite hs (canonical_takeToken hs))

theorem lands_execJoinBatch {f : EFields} (hs : AllCanonical s) : Lands (execJoinBatch f s) := by
  unfold execJoinBatch
  refine lands_guarded hs ?_
  refine .after fun a => ?_
  refine .after fun a' => ?_
  split
  · exact .error
  · split
    · next t e' =>
      have ht : AllCanonical t := (found_joinLost hs).of_eq e'
      exact .ok (canonical_writePred ht)
    · exact (yields_loadBytes hs).bind fun _ hp => .ite .error (.ite (.ok (canonical_writePred hp))
        ((yields_storeBytes hp).bind fun _ ht => .ok (canonical_writePred (canonical_joinDown
        (canonical_markTaken ht)))))

theorem yields_slicePart (hs : AllCanonical s) : Yields AllCanonical (slicePart s) := by
  unfold slicePart
  exact .ite .error (.ite .error (.ok hs))

theorem lands_endPart {how : Status} {keep : Bool} (hs : AllCanonical s) : Lands (endPart s how keep) :=
  lands_guarded hs ((yields_slicePart hs).bind fun _ ht => .ok (canonical_onMe ht))

theorem lands_execYield (hs : AllCanonical s) : Lands (execYield s) := lands_endPart hs

theorem lands_execDone (hs : AllCanonical s) : Lands (execDone s) := lands_endPart hs

theorem lands_execGbar {f : EFields} (hs : AllCanonical s) : Lands (execGbar f s) := by
  unfold execGbar
  exact .ite (lands_skip hs) (.ite (.next (canonical_trapState hs)) (.ite (.next (canonical_finish
    (canonical_onCore (canonical_onCore hs)))) (.next (canonical_hold (canonical_onCore hs)))))

theorem lands_execBudget {f : EFields} (hs : AllCanonical s) : Lands (execBudget f s) := by
  unfold execBudget
  refine lands_guarded hs ?_
  extract_lets _ t
  have ht : AllCanonical t := by
    dsimp only [t]
    split
    · exact canonical_ite (canonical_onCore hs) (canonical_onRecord hs)
    · exact hs
  exact .ok (canonical_writePred ht)

theorem lands_raise {reason code : Nat} (hs : AllCanonical s) : Lands (raise s reason code) := by
  unfold raise
  exact .ite (.next (canonical_takeException (canonical_finish hs))) (lands_skip hs)

theorem lands_execTrap {f : EFields} (hs : AllCanonical s) : Lands (execTrap f s) := lands_raise hs

theorem lands_execBkpt {f : EFields} (hs : AllCanonical s) : Lands (execBkpt f s) := lands_raise hs

theorem canonical_frameAction {ctx core : Nat} (hs : AllCanonical s) : AllCanonical (frameAction s ctx core).2 := by
  unfold frameAction
  extract_lets
  split
  · exact canonical_ite (canonical_postCore hs) hs
  · exact canonical_drawWord (canonical_walkReport hs)

theorem lands_execEret (hs : AllCanonical s) : Lands (execEret s) := by
  unfold execEret
  exact .ite (lands_skip hs) (.ite (.next (canonical_hold hs)) (.next (canonical_ite (canonical_hold hs)
    (canonical_returnFrom (canonical_frameAction (canonical_finish hs))))))

theorem lands_execTlbinv {f : EFields} (hs : AllCanonical s) : Lands (execTlbinv f s) := by
  unfold execTlbinv
  exact lands_guarded hs (.after fun _ => .after fun _ => .ite .error (.ite .error (.ite .error (.ok
    (canonical_invalidate hs)))))

theorem lands_streamEvent {core stream : Nat} {f : State → State} (hs : AllCanonical s) (hf : ∀ t, AllCanonical t →
    AllCanonical (f t)) :
    Lands (streamEvent s core stream f) :=
  .next (canonical_ite (canonical_asStream hs (fun _ ht => hf _ ht)) hs)

theorem lands_execFetchLine {core stream : Nat} (hs : AllCanonical s) : Lands (execFetchLine core stream s) := by
  unfold execFetchLine
  refine lands_streamEvent hs (fun t ht => ?_)
  split
  · exact canonical_trapAs ht
  · next u e =>
    have hu : AllCanonical u := (yields_heldLine ht).of_eq e
    exact canonical_ite hu (canonical_trapState (canonical_onMe hu))

theorem lands_execLoadDataReturn {core stream : Nat} (hs : AllCanonical s) :
    Lands (execLoadDataReturn core stream s) := by
  unfold execLoadDataReturn
  refine .next ?_
  split
  · exact hs
  · exact canonical_returnLoad hs

theorem lands_execWritebackLand {core stream : Nat} (hs : AllCanonical s) :
    Lands (execWritebackLand core stream s) :=
  .next (canonical_asStream hs (fun _ ht => canonical_onMe ht))

theorem lands_execNestDrain {core engine : Nat} (hs : AllCanonical s) : Lands (execNestDrain core engine s) :=
  .next (canonical_nestDrainStep hs)

theorem lands_execNestComplete {core engine : Nat} (hs : AllCanonical s) : Lands (execNestComplete core engine s) :=
  .next (canonical_nestCompleteStep hs)

theorem lands_execDeepBlockReadDone {core stream : Nat} (hs : AllCanonical s) :
    Lands (execDeepBlockReadDone core stream s) := by
  unfold execDeepBlockReadDone
  refine .next ?_
  refine canonical_asStream hs (fun t ht => ?_)
  split
  · exact canonical_onMe ht
  · exact ht

theorem lands_execSealedBlockWriteDone {core stream : Nat} (hs : AllCanonical s) :
    Lands (execSealedBlockWriteDone core stream s) := by
  unfold execSealedBlockWriteDone
  exact .next (canonical_asStream hs (fun _ ht => canonical_foldl (fun _ _ hu => canonical_sealsDone hu) ht))

theorem lands_execTimelineWaitRelease {core stream : Nat} (hs : AllCanonical s) :
    Lands (execTimelineWaitRelease core stream s) := by
  unfold execTimelineWaitRelease
  refine lands_streamEvent hs (fun t ht => ?_)
  split
  · exact canonical_ite (canonical_retire ht) ht
  · exact ht

theorem lands_execGateWaitRelease {core stream : Nat} (hs : AllCanonical s) :
    Lands (execGateWaitRelease core stream s) := by
  unfold execGateWaitRelease
  refine lands_streamEvent hs (fun t ht => ?_)
  split
  · split
    · exact canonical_retire (canonical_onCore ht)
    · exact ht
  · exact ht

theorem lands_execFrontWaitRelease {core stream : Nat} (hs : AllCanonical s) :
    Lands (execFrontWaitRelease core stream s) := by
  unfold execFrontWaitRelease
  refine lands_streamEvent hs (fun t ht => ?_)
  split
  · split
    · exact canonical_ite (canonical_onMe (canonical_traceWait ht)) ht
    · exact ht
  · exact ht

theorem canonical_settleBarrier {decided : List Nat} {core : Nat} (hs : AllCanonical s) :
    AllCanonical (settleBarrier decided s core) := by
  unfold settleBarrier
  split
  · exact hs
  · extract_lets t
    have ht : AllCanonical t := canonical_onCore hs
    exact canonical_ite (canonical_retire ht) (canonical_onCore ht)

theorem canonical_settleWalks {cores : List Nat} {t : Nat} (hs : AllCanonical s) :
    AllCanonical (settleWalks cores s t) :=
  canonical_foldl (fun _ _ hu => canonical_endWalk hu) hs

theorem canonical_settleFault {ctx core : Nat} {w : Walked} (hs : AllCanonical s) :
    AllCanonical (settleFault ctx core s w) := by
  unfold settleFault
  split
  · exact hs
  · extract_lets t u v
    have ht : AllCanonical t := canonical_asStream hs (fun _ hx => canonical_joinGroup hx)
    have hu : AllCanonical u := canonical_recordFault ht
    have hv : AllCanonical v := canonical_ite hu (canonical_recordStop hu)
    exact canonical_onCore hv

theorem canonical_settleFaults {ctx : Nat} {core : Nat} (hs : AllCanonical s) :
    AllCanonical (settleFaults ctx s core) :=
  canonical_foldl (fun _ _ ht => canonical_settleFault ht) hs

theorem canonical_settle {ctx : Nat} {cores : List Nat} (hs : AllCanonical s) :
    AllCanonical (settle s ctx cores) := by
  unfold settle
  extract_lets t u v w _ x
  have ht : AllCanonical t := canonical_foldl (fun _ _ hy => canonical_settleWalks hy) hs
  have hu : AllCanonical u := canonical_foldl (fun _ _ hy => canonical_settleFaults hy) ht
  have hv : AllCanonical v := canonical_foldl (fun _ _ hy => canonical_returnLoads hy) hu
  have hw : AllCanonical w := canonical_foldl (fun _ _ hy => canonical_settleShadows hy) hv
  have hx : AllCanonical x := canonical_foldl (fun _ _ hy => canonical_settleBarrier hy) hw
  exact canonical_foldl (fun _ _ hy => canonical_settleSeals hy) hx

theorem lands_execHaltQuiescence {ctx : Nat} (hs : AllCanonical s) : Lands (execHaltQuiescence ctx s) := by
  unfold execHaltQuiescence
  refine lands_ctxEvent hs ?_
  split
  · exact hs
  · exact canonical_ite hs (canonical_deliver (canonical_onCtx (canonical_writeFrames (canonical_settle hs))))

theorem lands_execTraceSync {core : Nat} (hs : AllCanonical s) : Lands (execTraceSync core s) :=
  .next (canonical_ite hs (canonical_onCore (canonical_trace hs)))

theorem canonical_failedStatus {codes : List Nat} (hs : AllCanonical s) : AllCanonical (failedStatus s codes).2 :=
  canonical_drawWord hs

theorem canonical_failFlight {ctx : Nat} (hs : AllCanonical s) : AllCanonical (failFlight ctx s) := by
  unfold failFlight
  split
  next w t e =>
  have ht : AllCanonical t := (canonical_failedStatus hs).snd e
  split
  next c u e' =>
  exact canonical_onCtx ((canonical_failedStatus ht).snd e')

theorem canonical_tripGeyser {t : Nat} {c : GeyCmd} (hs : AllCanonical s) : AllCanonical (tripGeyser t s c) := by
  unfold tripGeyser
  refine canonical_ite (canonical_tlDone hs) ?_
  split
  next code u e =>
  exact canonical_decided ((canonical_failedStatus hs).snd e)

theorem canonical_tripGrammar {t : Nat} {c : GramCmd} (hs : AllCanonical s) : AllCanonical (tripGrammar t s c) := by
  unfold tripGrammar
  extract_lets u
  have hu : AllCanonical u := canonical_gramFault hs
  split
  · exact canonical_ite (canonical_appendReplies hu) hu
  · exact hu

theorem canonical_tripTower {ctx : Nat} {t : Nat} (hs : AllCanonical s) : AllCanonical (tripTower ctx s t) := by
  unfold tripTower
  extract_lets _ u v
  have hu : AllCanonical u := canonical_onTower hs
  have hv : AllCanonical v := canonical_foldl (fun _ _ hx => canonical_tripGeyser hx) hu
  exact canonical_foldl (fun _ _ hx => canonical_tripGrammar hx) hv

theorem canonical_tripCore {ctx : Nat} {core : Nat} (hs : AllCanonical s) : AllCanonical (tripCore ctx s core) := by
  unfold tripCore
  extract_lets t _ u v
  have ht : AllCanonical t := canonical_abortCopies hs
  have hu : AllCanonical u := canonical_foldl (fun _ _ hw => canonical_reportRegions hw) (canonical_failLoads ht)
  have hv : AllCanonical v := canonical_foldl (fun _ _ hw => canonical_failNest hw) hu
  exact canonical_ite ht (canonical_onCore hv)

theorem canonical_tripSlots {ctx : Nat} (hs : AllCanonical s) : AllCanonical (tripSlots ctx s) := by
  unfold tripSlots
  exact canonical_onCtx (canonical_foldl (fun _ _ ht => canonical_abortSaved ht) hs)

theorem canonical_tripWindow {ctx : Nat} (hs : AllCanonical s) : AllCanonical (tripWindow ctx s) := by
  unfold tripWindow
  split
  · exact hs
  · extract_lets t
    have ht : AllCanonical t := canonical_onCtx (canonical_windowFault hs)
    exact canonical_ite (ht.kept rfl rfl) ht

theorem canonical_tripContext {ctx : Nat} (hs : AllCanonical s) : AllCanonical (tripContext s ctx) := by
  unfold tripContext
  extract_lets t u v
  have ht : AllCanonical t := hs
  have hu : AllCanonical u := by
    dsimp only [u]
    split
    · exact ht
    · exact canonical_startHalt ht
  have hv : AllCanonical v := canonical_foldl (fun _ _ hw => canonical_tripCore hw) (canonical_failFlight hu)
  exact canonical_tripWindow (canonical_foldl (fun _ _ hw => canonical_tripTower hw) (canonical_tripSlots hv))

theorem lands_execThermalTrip (hs : AllCanonical s) : Lands (execThermalTrip s) := by
  unfold execThermalTrip
  exact .next (canonical_ite (canonical_foldl (fun _ _ ht => canonical_tripContext ht) (canonical_logEvent
    (canonical_onModule hs (fun _ => rfl)))) hs)

theorem canonical_begin {core stream : Nat} (hs : AllCanonical s) : AllCanonical (begin s core stream) :=
  canonical_onMe (canonical_tick hs)

theorem lands_eventOf {x : Agent} {t : Host.Outcome State Fault Refusal} (hs : AllCanonical s) (ht : Lands t) :
    Lands (eventOf s x t) := by
  unfold eventOf
  split
  · exact .next hs
  · split
    · exact .ite (.next hs) ht
    · exact ht

theorem canonical_idle (hs : AllCanonical s) : AllCanonical (idle s) := canonical_passTime hs

end Sys2Proof.Slice0

/-! PROOFS. The canonical form of the memories (O54): what is due by itself. Every move of the lists of moves keeps it, so
what the search among them finds does. -/

namespace Sys2Proof.Slice0
open Sys2Proof.Machine

/-! ### Lists of moves -/

/-- Moves that keep every canonical state's memories canonical. -/
def AllLand (l : List Due) : Prop := ∀ d ∈ l, ∀ s, AllCanonical s → Lands (d s)

section
variable {s : State} {α : Type}

theorem allLand_nil : AllLand [] := fun _ h => absurd h List.not_mem_nil

theorem AllLand.cons {d : Due} {l : List Due} (hd : ∀ s, AllCanonical s → Lands (d s)) (hl : AllLand l) :
    AllLand (d :: l) := by
  intro x hx
  obtain rfl | hx := List.mem_cons.mp hx
  · exact hd
  · exact hl x hx

theorem AllLand.append {l r : List Due} (hl : AllLand l) (hr : AllLand r) : AllLand (l ++ r) := by
  intro x hx
  obtain hx | hx := List.mem_append.mp hx
  · exact hl x hx
  · exact hr x hx

theorem AllLand.unheld {held : Bool} {l : List Due} (hl : AllLand l) : AllLand (unheld held l) := by
  unfold Machine.unheld
  split
  · exact allLand_nil
  · exact hl

theorem allLand_map {f : α → Due} {xs : List α} (hf : ∀ x s, AllCanonical s → Lands (f x s)) : AllLand (xs.map f) := by
  intro d hd
  obtain ⟨x, -, rfl⟩ := List.mem_map.mp hd
  exact hf x

theorem allLand_flatMap {f : α → List Due} {xs : List α} (hf : ∀ x, AllLand (f x)) : AllLand (xs.flatMap f) := by
  intro d hd
  obtain ⟨x, -, hx⟩ := List.mem_flatMap.mp hd
  exact hf x d hx

/-! ### The model's lists -/

theorem allLand_duePacket {c q n : Nat} : AllLand (duePacket c q n) :=
  .cons (fun _ => lands_execLaunch) <| .cons (fun _ => lands_execLaunchUnitCreate) <| .cons (fun _ => lands_execCopy) <|
  .cons (fun _ => lands_execTlwait) <| .cons (fun _ => lands_execTlwaitSatisfied) <|
  .cons (fun _ => lands_execTlsignal) <| .cons (fun _ => lands_execMapupdate) <|
  .cons (fun _ => lands_execFencePacket) <| .cons (fun _ => lands_execNopkt) <|
  .cons (fun _ => lands_execPacketComplete) allLand_nil

theorem allLand_dueEngines {c t : Nat} : AllLand (dueEngines s c t) :=
  .append
    (.unheld <| .cons (fun _ => lands_execSwapBadOp) <| .cons (fun _ => lands_execMigrate) <|
      .cons (fun _ => lands_execExchange) <| .cons (fun _ => lands_execPromote) <|
      .cons (fun _ => lands_execSwapComplete) allLand_nil)
    (.unheld <| .cons (fun _ => lands_execCollectiveBadOp) <| .cons (fun _ => lands_execCollectiveComplete) allLand_nil)

/-- The moves of one queue. -/
theorem allLand_queue {c q : Nat} {u : Queue} :
    AllLand ((fun s => .next (abortPackets s c q)) :: (fun s => .next (raiseOwed s c q)) ::
      execPacketFetchResponse c q :: u.packets.flatMap fun p => duePacket c q p.number) :=
  .cons (fun _ hs => .next (canonical_abortPackets hs)) <| .cons (fun _ hs => .next (canonical_raiseOwed hs)) <|
  .cons (fun _ => lands_execPacketFetchResponse) (allLand_flatMap fun _ => allLand_duePacket)

theorem allLand_dueContext {c : Nat} {x : Ctx} : AllLand (dueContext s c x) :=
  .append (.append (.append (.append (.append
    (.cons (fun _ => lands_execHaltQuiescence) <| .cons (fun _ => lands_execHandlerAllowanceExhausted) <|
      .cons (fun _ => lands_execBucketRefill) allLand_nil)
    (allLand_flatMap fun _ => .cons (fun _ => lands_execSliceStart) <| .cons (fun _ => lands_execCheckpointComplete) <|
      .cons (fun _ => lands_execDeadlineMiss) <| .cons (fun _ => lands_execBudgetExhausted) allLand_nil))
    (allLand_flatMap fun _ => allLand_queue))
    (allLand_flatMap fun _ => allLand_dueEngines))
    (allLand_map fun _ _ => lands_execTokenRingTimer))
    (.cons (fun _ hs => .next (canonical_sendInvalidations hs)) <| .cons (fun _ hs => .next (canonical_runWindow hs)) <|
      .cons (fun _ hs => .next (canonical_endKilled (canonical_pumpEntries (canonical_pumpItems hs)))) allLand_nil)

theorem allLand_dueCore {c : Nat} {k : Core} : AllLand (dueCore s c k) :=
  .append (.append (.append (.append (.append
    (.unheld <| allLand_flatMap fun _ => .cons (fun _ => lands_execCopyCmd) <| .cons (fun _ => lands_execTileCmd) <|
      .cons (fun _ => lands_execFillCmd) <| .cons (fun _ => lands_execFeedCmd) <|
      .cons (fun _ => lands_execCopyCmdComplete) allLand_nil)
    (allLand_flatMap fun _ => .cons (fun _ => lands_execLoadDataReturn) <| .cons (fun _ => lands_execWalkComplete) <|
      .cons (fun _ => lands_execDeepBlockReadDone) <| .cons (fun _ => lands_execSealedBlockWriteDone) <|
      .cons (fun _ => lands_execTimelineWaitRelease) <| .cons (fun _ => lands_execGateWaitRelease) <|
      .cons (fun _ => lands_execFrontWaitRelease) allLand_nil))
    (.cons (fun _ => lands_execWalkComplete) allLand_nil))
    (allLand_flatMap fun _ => .unheld <| .cons (fun _ => lands_execNestDrain) <|
      .cons (fun _ => lands_execNestComplete) allLand_nil))
    (allLand_map fun _ _ => lands_execRegionTransferDone))
    (.cons (fun _ => lands_execTraceSync) <| .cons (fun _ hs => .next (canonical_flushCore hs)) allLand_nil)

theorem allLand_dueModule : AllLand dueModule :=
  .cons (fun _ => lands_execBootRomCheck) <| .cons (fun _ => lands_execThermalTrip) <|
  .cons (fun _ => lands_execRailSequenceStep) <| .cons (fun _ => lands_execRailSequenceStep) <|
  .cons (fun _ => lands_execThrottleUp) <| .cons (fun _ => lands_execThrottleDown) <|
  .cons (fun _ => lands_execRemapPublish) allLand_nil

theorem allLand_dueTowers : AllLand (dueTowers s) :=
  .append
    (.unheld <| allLand_flatMap fun _ => .cons (fun _ => lands_execGrammarStep) <|
      .cons (fun _ => lands_execGrammarMask) <| .cons (fun _ => lands_execGrammarSet) allLand_nil)
    (.unheld <| allLand_map fun _ _ hs => .next (canonical_settleBatches hs))

theorem allLand_dueMoves : AllLand (dueMoves s) :=
  .append (.append (.append allLand_dueTowers (allLand_map fun _ _ => lands_execPortDownTimeout))
    (allLand_flatMap fun _ => allLand_dueContext)) (allLand_flatMap fun _ => allLand_dueCore)

theorem allLand_dueTrip {c : Nat} {x : Ctx} : AllLand (dueTrip c x) :=
  .append (allLand_flatMap fun _ => allLand_map fun _ _ => lands_execPacketComplete)
    (allLand_flatMap fun _ => .cons (fun _ => lands_execSwapComplete) <|
      .cons (fun _ => lands_execCollectiveComplete) allLand_nil)

theorem allLand_dueCompletions : AllLand (dueCompletions s) := by
  unfold dueCompletions
  split
  · exact allLand_flatMap fun _ => allLand_dueTrip
  · exact allLand_nil

/-! ### The search -/

theorem found_changed {d : Due} (hd : Lands (d s)) : Found AllCanonical (changed s d) := by
  unfold changed
  split
  · next t e =>
    exact .ite .none (.some (hd.of_eq e))
  · exact .none

theorem found_moved {d : Due} (hd : Lands (d s)) : Found AllCanonical (moved s d) := .filter (found_changed hd)

theorem found_findSome? {β : Type} {P : β → Prop} {f : α → Option β} {xs : List α} (hf : ∀ x ∈ xs, Found P (f x)) :
    Found P (xs.findSome? f) := by
  cases e : xs.findSome? f with
  | none => exact .none
  | some b =>
    obtain ⟨x, hx, ex⟩ := List.exists_of_findSome?_eq_some e
    exact .some ((hf x hx).of_eq ex)

theorem AllLand.changed {l : List Due} (hl : AllLand l) (hs : AllCanonical s) :
    Found AllCanonical (l.findSome? (changed s)) :=
  found_findSome? fun d hd => found_changed (hl d hd s hs)

theorem AllLand.moved {l : List Due} (hl : AllLand l) (hs : AllCanonical s) :
    Found AllCanonical (l.findSome? (moved s)) :=
  found_findSome? fun d hd => found_moved (hl d hd s hs)

/-! ### What comes by the clock -/

theorem canonical_rounds (hs : AllCanonical s) : AllCanonical (rounds s) := by
  unfold rounds
  extract_lets t
  have ht : AllCanonical t := canonical_ite hs (canonical_round hs)
  exact canonical_ite ht (canonical_foldl (fun _ _ hu => canonical_geyserRound hu) ht)

theorem canonical_refetches (hs : AllCanonical s) : AllCanonical (refetches s) := by
  unfold refetches
  refine canonical_foldl (fun t x ht => ?_) hs
  refine canonical_foldl (fun u x' hu => ?_) ht
  split
  · next v e =>
    exact (lands_execKickRefetch hu).of_eq e
  · exact hu

theorem found_clocked (hs : AllCanonical s) : Found AllCanonical (clocked s) := by
  unfold clocked
  split
  · exact .none
  · extract_lets t u
    have ht : AllCanonical t := canonical_ite (canonical_rounds hs) hs
    have hu : AllCanonical u := canonical_ite (canonical_refetches ht) ht
    exact .ite .none (.some (canonical_passTime hu))

theorem found_due (hs : AllCanonical s) : Found AllCanonical (due s) := by
  unfold due
  exact .ite (.or (allLand_dueModule.changed hs) (.or (allLand_dueMoves.moved hs) (found_clocked hs)))
    (.or (allLand_dueCompletions.moved hs) (allLand_dueModule.changed hs))

end

end Sys2Proof.Slice0

/-! PROOFS. The canonical form of the memories (O54): the transfers of control, what an instruction or an event does, and the
step. -/

namespace Sys2Proof.Slice0
open Sys2Proof.Machine

variable {s : State}

theorem canonical_traceBranch {taken : Bool} (hs : AllCanonical s) : AllCanonical (traceBranch s taken) :=
  canonical_trace hs

theorem yields_target {entry : Bool} {t : Word} (hs : AllCanonical s) : Yields AllCanonical (target s entry t) :=
  yields_checkTarget hs

theorem lands_execBr {f : JFields} (hs : AllCanonical s) : Lands (execBr f s) := by
  unfold execBr
  exact lands_conclude hs (.ite ((yields_target hs).bind fun _ ht => .ok (canonical_traceBranch ht)) (.ok
    (canonical_traceBranch hs)))

theorem lands_execJmp {f : JFields} (hs : AllCanonical s) : Lands (execJmp f s) :=
  lands_conclude hs ((yields_target hs).bind fun _ ht => .ok ht)

theorem lands_execJal {f : JFields} (hs : AllCanonical s) : Lands (execJal f s) :=
  lands_conclude hs ((yields_target hs).bind fun _ ht => .ok (canonical_onMe ht))

theorem lands_execJmpl {f : LFields} (hs : AllCanonical s) : Lands (execJmpl f s) := by
  unfold execJmpl
  extract_lets traced
  have htraced : ∀ u b', AllCanonical u → AllCanonical (traced u b') := by
    intro u hu b'
    dsimp only [traced]
    exact canonical_ite b' (canonical_traceBranch b')
  exact .ite (lands_conclude hs ((yields_target hs).bind fun _ hu => .ok (htraced _ _ (canonical_ite
    (canonical_onMe hu) hu)))) (lands_skip (htraced _ _ hs))

theorem lands_execJalr {f : GFields} (hs : AllCanonical s) : Lands (execJalr f s) := by
  unfold execJalr
  exact .ite (lands_conclude hs (.ite ((yields_target (canonical_emptyIf hs)).bind fun _ hu => (yields_writeReg
    (canonical_ite (canonical_onMe hu) hu)).bind fun _ hw => .ok (canonical_trace hw))
    ((yields_readReg hs).bind fun _ hp => (yields_target (canonical_emptyIf hp)).bind fun _ hu => (yields_writeReg
    (canonical_ite (canonical_onMe hu) hu)).bind fun _ hw => .ok (canonical_trace hw)))) (lands_skipSources hs)

theorem lands_execLoop {f : GFields} (hs : AllCanonical s) : Lands (execLoop f s) := by
  unfold execLoop
  exact .ite (lands_conclude hs ((yields_readTwo hs).bind fun _ hp => .ite .error (.ite ((yields_target
    (canonical_emptySources hp)).bind fun _ hu => .ok (canonical_traceBranch (canonical_onMe hu))) (.ok
    (canonical_traceBranch (canonical_onMe (canonical_emptySources hp))))))) (lands_skipSources hs)

theorem lands_execBrl {f : JFields} (hs : AllCanonical s) : Lands (execBrl f s) := by
  unfold execBrl
  exact lands_conclude hs (.ite ((yields_target hs).bind fun _ ht => .ok (canonical_traceBranch
    (canonical_onMe ht))) (.ok (canonical_traceBranch (canonical_onMe hs))))

theorem lands_exec {i : Instr} (hs : AllCanonical s) : Lands (exec i s) := by
  unfold exec
  split
  · exact lands_execAddQ hs
  · exact lands_execSubQ hs
  · exact lands_execAndQ hs
  · exact lands_execOrQ hs
  · exact lands_execXorQ hs
  · exact lands_execAndnQ hs
  · exact lands_execShlQ hs
  · exact lands_execShrQ hs
  · exact lands_execSraQ hs
  · exact lands_execMinQ hs
  · exact lands_execMaxQ hs
  · exact lands_execMinuQ hs
  · exact lands_execMaxuQ hs
  · exact lands_execMulQ hs
  · exact lands_execMovQ hs
  · exact lands_execAddiQ hs
  · exact lands_execAndiQ hs
  · exact lands_execOriQ hs
  · exact lands_execXoriQ hs
  · exact lands_execShliQ hs
  · exact lands_execShriQ hs
  · exact lands_execSraiQ hs
  · exact lands_execCmpeqQ hs
  · exact lands_execCmpneQ hs
  · exact lands_execCmpltQ hs
  · exact lands_execCmpgeQ hs
  · exact lands_execCmpltuQ hs
  · exact lands_execCmpgeuQ hs
  · exact lands_execCmpleQ hs
  · exact lands_execCmpgtQ hs
  · exact lands_execMovq hs
  · exact lands_execMovg hs
  · exact lands_execPand hs
  · exact lands_execPor hs
  · exact lands_execPxor hs
  · exact lands_execPnot hs
  · exact lands_execLi hs
  · exact lands_execBr hs
  · exact lands_execJmp hs
  · exact lands_execJal hs
  · exact lands_execBrl hs
  · exact lands_execAddG hs
  · exact lands_execSubG hs
  · exact lands_execAndG hs
  · exact lands_execOrG hs
  · exact lands_execXorG hs
  · exact lands_execAndnG hs
  · exact lands_execShlG hs
  · exact lands_execShrG hs
  · exact lands_execSraG hs
  · exact lands_execMinG hs
  · exact lands_execMaxG hs
  · exact lands_execMinuG hs
  · exact lands_execMaxuG hs
  · exact lands_execMulG hs
  · exact lands_execMovG hs
  · exact lands_execMulhG hs
  · exact lands_execMulhuG hs
  · exact lands_execDivG hs
  · exact lands_execDivuG hs
  · exact lands_execRemG hs
  · exact lands_execRemuG hs
  · exact lands_execRotG hs
  · exact lands_execClzG hs
  · exact lands_execCtzG hs
  · exact lands_execPopcG hs
  · exact lands_execSextG hs
  · exact lands_execZextG hs
  · exact lands_execBfxG hs
  · exact lands_execBfiG hs
  · exact lands_execSelG hs
  · exact lands_execAddiG hs
  · exact lands_execAndiG hs
  · exact lands_execOriG hs
  · exact lands_execXoriG hs
  · exact lands_execShliG hs
  · exact lands_execShriG hs
  · exact lands_execSraiG hs
  · exact lands_execAddL hs
  · exact lands_execSubL hs
  · exact lands_execAndL hs
  · exact lands_execOrL hs
  · exact lands_execXorL hs
  · exact lands_execAndnL hs
  · exact lands_execShlL hs
  · exact lands_execShrL hs
  · exact lands_execSraL hs
  · exact lands_execMinL hs
  · exact lands_execMaxL hs
  · exact lands_execMinuL hs
  · exact lands_execMaxuL hs
  · exact lands_execMulL hs
  · exact lands_execMulhL hs
  · exact lands_execMulhuL hs
  · exact lands_execDivL hs
  · exact lands_execDivuL hs
  · exact lands_execRemL hs
  · exact lands_execRemuL hs
  · exact lands_execRotL hs
  · exact lands_execSextL hs
  · exact lands_execZextL hs
  · exact lands_execSelL hs
  · exact lands_execCmpeqG hs
  · exact lands_execCmpneG hs
  · exact lands_execCmpltG hs
  · exact lands_execCmpgeG hs
  · exact lands_execCmpltuG hs
  · exact lands_execCmpgeuG hs
  · exact lands_execCmpleG hs
  · exact lands_execCmpgtG hs
  · exact lands_execFadd hs
  · exact lands_execFsub hs
  · exact lands_execFmul hs
  · exact lands_execFma hs
  · exact lands_execFmin hs
  · exact lands_execFmax hs
  · exact lands_execFsgn hs
  · exact lands_execFcmp hs
  · exact lands_execFcvt hs
  · exact lands_execFrcp hs
  · exact lands_execFrsq hs
  · exact lands_execFrcps hs
  · exact lands_execFrsqs hs
  · exact lands_execFexp2 hs
  · exact lands_execFlog2 hs
  · exact lands_execMfs hs
  · exact lands_execMts hs
  · exact lands_execMfc hs
  · exact lands_execMtc hs
  · exact lands_execLd hs
  · exact lands_execSt hs
  · exact lands_execLda hs
  · exact lands_execStl hs
  · exact lands_execAmoadd hs
  · exact lands_execAmoand hs
  · exact lands_execAmoor hs
  · exact lands_execAmoxor hs
  · exact lands_execAmomin hs
  · exact lands_execAmomax hs
  · exact lands_execAmoswp hs
  · exact lands_execAmocas hs
  · exact lands_execFence hs
  · exact lands_execCflush hs
  · exact lands_execIcinv hs
  · exact lands_execPrf hs
  · exact lands_execLdp hs
  · exact lands_execStp hs
  · exact lands_execJalr hs
  · exact lands_execLoop hs
  · exact lands_execSigdef hs
  · exact lands_execSigdrop hs
  · exact lands_execTapld hs
  · exact lands_execTapst hs
  · exact lands_execTapstTick hs
  · exact lands_execSighead hs
  · exact lands_execSigrst hs
  · exact lands_execSigseal hs
  · exact lands_execSigevict hs
  · exact lands_execSigpos hs
  · exact lands_execSctx hs
  · exact lands_execPush hs
  · exact lands_execWait hs
  · exact lands_execTlread hs
  · exact lands_execFork hs
  · exact lands_execRdv hs
  · exact lands_execEvset hs
  · exact lands_execEvpulse hs
  · exact lands_execWfe hs
  · exact lands_execSbind hs
  · exact lands_execSpawn hs
  · exact lands_execJoin hs
  · exact lands_execJoinBatch hs
  · exact lands_execGbar hs
  · exact lands_execBudget hs
  · exact lands_execEqpush hs
  · exact lands_execEqcfg hs
  · exact lands_execEqfire hs
  · exact lands_execEqpop hs
  · exact lands_execEqstat hs
  · exact lands_execGfstep hs
  · exact lands_execGfstepSet hs
  · exact lands_execGfmask hs
  · exact lands_execRply hs
  · exact lands_execRplyTake hs
  · exact lands_execEmbld hs
  · exact lands_execVrandk hs
  · exact lands_execTld hs
  · exact lands_execTst hs
  · exact lands_execMma hs
  · exact lands_execMmaz hs
  · exact lands_execScld hs
  · exact lands_execNestgo hs
  · exact lands_execAccmov hs
  · exact lands_execAccz hs
  · exact lands_execTidset hs
  · exact lands_execTidinv hs
  · exact lands_execTrap hs
  · exact lands_execBkpt hs
  · exact lands_execTlbinv hs
  · exact lands_execLiw hs
  · exact lands_execJmpl hs
  · exact lands_execVshape hs
  · exact lands_execFli hs
  · exact lands_execVadd hs
  · exact lands_execVsub hs
  · exact lands_execVmul hs
  · exact lands_execVfma hs
  · exact lands_execVmac hs
  · exact lands_execVmin hs
  · exact lands_execVmax hs
  · exact lands_execVabs hs
  · exact lands_execVneg hs
  · exact lands_execVand hs
  · exact lands_execVor hs
  · exact lands_execVxor hs
  · exact lands_execVshl hs
  · exact lands_execVshr hs
  · exact lands_execVsra hs
  · exact lands_execVcvt hs
  · exact lands_execVsel hs
  · exact lands_execVcmp hs
  · exact lands_execVrcp hs
  · exact lands_execVrsq hs
  · exact lands_execVexp hs
  · exact lands_execVlog hs
  · exact lands_execVtanh hs
  · exact lands_execVsum hs
  · exact lands_execVmaxr hs
  · exact lands_execVdraw hs
  · exact lands_execVdrawm hs
  · exact lands_execVscan hs
  · exact lands_execVpopc hs
  · exact lands_execVdot hs
  · exact lands_execVrand hs
  · exact lands_execVcopy hs
  · exact lands_execVfill hs
  · exact lands_execVgather hs
  · exact lands_execVscatter hs
  · exact lands_execVperm hs
  · exact lands_execVexpand hs
  · exact lands_execVfir hs
  · exact lands_execCspush hs
  · exact lands_execCspop hs
  · exact lands_execCsroute hs
  · exact lands_execNop hs
  · exact lands_execMark hs
  · exact lands_execFbar hs
  · exact lands_execTick hs
  · exact lands_execYield hs
  · exact lands_execDone hs
  · exact lands_execEret hs
  · exact lands_execPowerInputApplied hs
  · exact lands_execCoolantOkAsserted hs
  · exact lands_execRailSequenceStep hs
  · exact lands_execSelfTestDone hs
  · exact lands_execPerstRelease hs
  · exact lands_execRailFault hs
  · exact lands_execThrottleUp hs
  · exact lands_execThrottleDown hs
  · exact lands_execThermalTrip hs
  · exact lands_execHbmSiteHot hs
  · exact lands_execHbmThermalRetirement hs
  · exact lands_execSensorRefresh hs
  · exact lands_execBootRomCheck hs
  · exact lands_execReadSensors hs
  · exact lands_execReadModstat hs
  · exact lands_execReadCapacity hs
  · exact lands_execSetPowerLimit hs
  · exact lands_execFwStage hs
  · exact lands_execFwActivate hs
  · exact lands_execFlashWriteDone hs
  · exact lands_execEventLog hs
  · exact lands_execMailboxUnknownCommand hs
  · exact lands_execMailboxResponseRead hs
  · exact lands_execRecoveryStage hs
  · exact lands_execRecoveryStageDone hs
  · exact lands_execRecoveryCommit hs
  · exact lands_execPatrolScrub hs
  · exact lands_execRemapRequest hs
  · exact lands_execRmctlWrite hs
  · exact lands_execRemapPublish hs
  · exact lands_execCoreFence hs
  · exact lands_execHtrWrite hs
  · exact lands_execLmapWrite hs
  · exact lands_execParkWrite hs
  · exact lands_execPortIdlePark hs
  · exact lands_execPortWakeTrigger hs
  · exact lands_execWakeLockEnd hs
  · exact lands_execWakeComplete hs
  · exact lands_execMarkerReceived hs
  · exact lands_execRingLockLoss hs
  · exact lands_execLanePause hs
  · exact lands_execData hs
  · exact lands_execAck hs
  · exact lands_execNak hs
  · exact lands_execPortDownTimeout hs
  · exact lands_execWithdraw hs
  · exact lands_execForm hs
  · exact lands_execFormTimeout hs
  · exact lands_execAllreduce hs
  · exact lands_execAllgather hs
  · exact lands_execRedscatter hs
  · exact lands_execAlltoall hs
  · exact lands_execDrawmerge hs
  · exact lands_execCollectiveBadOp hs
  · exact lands_execCollectiveComplete hs
  · exact lands_execFunctionLevelReset hs
  · exact lands_execPfReset hs
  · exact lands_execQueueEnable hs
  · exact lands_execQueueResume hs
  · exact lands_execQueueAbort hs
  · exact lands_execQueueDrain hs
  · exact lands_execKick hs
  · exact lands_execKickRefetch hs
  · exact lands_execPacketFetchResponse hs
  · exact lands_execLaunch hs
  · exact lands_execLaunchUnitCreate hs
  · exact lands_execCopy hs
  · exact lands_execTlwait hs
  · exact lands_execTlwaitSatisfied hs
  · exact lands_execTlsignal hs
  · exact lands_execMapupdate hs
  · exact lands_execFencePacket hs
  · exact lands_execNopkt hs
  · exact lands_execPacketComplete hs
  · exact lands_execSwtWrite hs
  · exact lands_execCrheadWrite hs
  · exact lands_execTrheadWrite hs
  · exact lands_execItheadWrite hs
  · exact lands_execCrctlWrite hs
  · exact lands_execTrctlWrite hs
  · exact lands_execItctlWrite hs
  · exact lands_execDtctlWrite hs
  · exact lands_execTokenRingTimer hs
  · exact lands_execFresResume hs
  · exact lands_execFresFail hs
  · exact lands_execFresSkip hs
  · exact lands_execFresKill hs
  · exact lands_execGfbaseWrite hs
  · exact lands_execBar2Read hs
  · exact lands_execBar2Write hs
  · exact lands_execAtsInvalidation hs
  · exact lands_execPriResponse hs
  · exact lands_execRegisterWrite hs
  · exact lands_execWalkComplete hs
  · exact lands_execMigrate hs
  · exact lands_execExchange hs
  · exact lands_execPromote hs
  · exact lands_execSwapBadOp hs
  · exact lands_execSwapComplete hs
  · exact lands_execSchedulerRound hs
  · exact lands_execSliceStart hs
  · exact lands_execCheckpointComplete hs
  · exact lands_execBucketRefill hs
  · exact lands_execDeadlineMiss hs
  · exact lands_execBudgetExhausted hs
  · exact lands_execHandlerAllowanceExhausted hs
  · exact lands_execRegionFirstTouch hs
  · exact lands_execRegionTransferDone hs
  · exact lands_execGeyserRound hs
  · exact lands_execFetchLine hs
  · exact lands_execLoadDataReturn hs
  · exact lands_execWritebackLand hs
  · exact lands_execCopyCmd hs
  · exact lands_execTileCmd hs
  · exact lands_execFillCmd hs
  · exact lands_execFeedCmd hs
  · exact lands_execCopyCmdComplete hs
  · exact lands_execGrammarStep hs
  · exact lands_execGrammarMask hs
  · exact lands_execGrammarSet hs
  · exact lands_execNestDrain hs
  · exact lands_execNestComplete hs
  · exact lands_execDeepBlockReadDone hs
  · exact lands_execHaltQuiescence hs
  · exact lands_execTraceSync hs
  · exact lands_execTimelineWaitRelease hs
  · exact lands_execGateWaitRelease hs
  · exact lands_execFrontWaitRelease hs
  · exact lands_execPowerInputLost hs
  · exact lands_execUncorrectable hs
  · exact lands_execRingLockChange hs
  · exact lands_execSealedBlockWriteDone hs
  · exact lands_execVectorUnmask hs
  · exact lands_execPctlWrite hs
  · exact lands_execSramRowSparing hs
  · exact lands_execAtsTranslationCompletion hs

theorem lands_issue {core stream : Nat} (hs : AllCanonical s) : Lands (issue s core stream) := by
  unfold issue
  extract_lets t
  have ht : AllCanonical t := canonical_begin hs
  split
  · next u _ _ e =>
    have hu : AllCanonical u := .fst (canonical_fetchInstr ht) e
    exact lands_exec hu
  · next u _ e' =>
    have hu : AllCanonical u := .fst (canonical_fetchInstr ht) e'
    exact .next (canonical_trapAs hu)

theorem lands_issueOf {c n : Nat} (hs : AllCanonical s) : Lands (issueOf s c n) := by
  unfold issueOf
  exact .ite .fault (.ite (lands_issue hs) (.next (canonical_ite (canonical_tick hs) (canonical_passTime hs))))

theorem lands_step (hs : AllCanonical s) : Lands (step s) := by
  unfold step
  split
  · exact lands_eventOf hs (lands_exec hs)
  · exact lands_issueOf hs
  · split
    · next t e' =>
      have ht : AllCanonical t := (found_due hs).of_eq e'
      exact .next ht
    · split
      · exact lands_issueOf hs
      · exact .next (canonical_idle hs)

/-- Settles O54, by a rule for each function of the model that answers a state: it keeps the memories canonical. -/
theorem stepKeepsMemoryCanonical : Obligations.StepKeepsMemoryCanonical := by
  unfold Obligations.StepKeepsMemoryCanonical
  exact fun s t hs h => (lands_step hs).of_eq h

end Sys2Proof.Slice0
